-- ==== Sys2Proof/Word.lean ====
section
/-! DEFINITION. The plain number and byte types of the model, and the sparse table type that every
numbered group of registers, entries and records of the block is held in. -/

namespace Sys2Proof

/-- One byte on a wire, in a register or in memory. -/
abbrev Byte := BitVec 8

/-- A byte string, lowest address (or first sent) byte first. -/
abbrev Bytes := List Byte

/-- A time or a span in Meridian ticks of 250 ps (R2). -/
abbrev Mt := Nat

/-- A node id: x in bits 15:10, y in bits 9:5, z in bits 4:0 (R40). -/
abbrev NodeId := BitVec 16

/-- A sparse table: (number, record) pairs with the numbers strictly rising. A number that is not
listed holds the record that the reader of the table names as its default. -/
abbrev Tbl (α : Type) := List (Nat × α)

end Sys2Proof
end

