-- ==== Sys2Proof/Syntax.lean ====
section
/-! DEFINITION. The commands the block takes: one constructor of `Instr` for each row of the table of
operations and events, with the row's operands. What the outside world decides (the bytes of a packet,
the reading of a sensor, the outcome of an analog measurement) is an operand; everything else is found
in the state. -/

namespace Sys2Proof

/-- What an Ethernet frame of the field network has around its payload (R434, R435): destination and source, a VLAN tag,
EtherType, and whether its FCS holds. -/
structure Envelope where
  dst  : BitVec 48
  src  : BitVec 48
  vlan : Bool
  etherType : BitVec 16
  fcs  : Bool
  deriving DecidableEq, Repr

/-- A frame of the field network. -/
structure EthFrame where
  env     : Envelope
  payload : Bytes
  deriving DecidableEq, Repr

/-- The path a dictionary transaction comes by (R437, R463): the host-side window, with the XID of the request header there
(R441), or an FDP frame of the field network. -/
inductive Path where
  | host (xid : BitVec 16)
  | field (env : Envelope)
  deriving DecidableEq, Repr

/-- Whether a transaction comes by the host window. -/
def Path.isHost : Path → Bool
  | .host _ => true
  | .field _ => false

/-- SLOT, COUNTER and MAC of an authenticated write (R436, R8). -/
structure Auth where
  slot    : BitVec 8
  counter : BitVec 64
  mac     : BitVec 128
  deriving DecidableEq, Repr

/-- What every dictionary write carries beside its entry and value: the path, the transaction or submit
number, and the authentication when SLOT is not 0xFF. -/
structure WriteHdr where
  path : Path
  xid  : BitVec 32
  auth : Option Auth
  deriving DecidableEq, Repr

/-- The request attributes and address of a host port aperture access (R31, R32, R71, R83). -/
structure HostReq where
  chan   : Fin 8
  ctx    : Fin 4096
  strict : Bool
  thread : BitVec 16
  addr   : BitVec 64
  len    : Nat
  deriving DecidableEq, Repr

/-- A host access to the command region: a write of the bytes that are enabled (R110), or a read (R109). -/
inductive RegionAccess where
  | write (enables : List Bool)
  | read (thread : BitVec 16) (len : Nat)
  deriving DecidableEq, Repr

/-- The operands of an atomic: function code and the two operand words (R74, R75). -/
structure AtomicArgs where
  afn : BitVec 8
  opa : BitVec 64
  opb : BitVec 64
  deriving DecidableEq, Repr

/-- What the error code of a store row shows when the row is read (R224), and an uncorrectable error of a shared table
other than the window table: 1 rank, 2 incarnation, 3 route set, 4 exception (chapter 12). -/
inductive EccFinding where
  | clean
  | corrected
  | payload (pkt : Nat) (unit : Fin 8)
  | header (pkt : Nat)
  | windowEntry (index : Nat)
  | freeSpace
  | sharedEntry (table : Fin 4) (entry : BitVec 24)
  deriving DecidableEq, Repr

/-- One bit error measurement of a lane over a check window (R319, R320). -/
structure LaneCount where
  lane   : Fin 108
  bits   : Nat
  errors : Nat
  deriving DecidableEq, Repr

/-- The three checks of a lane self-test slice (R420). -/
inductive SliceCheck where
  | reference
  | rxLoop
  | txLoop
  deriving DecidableEq, Repr

/-- A shared-table write or entry rewrite as the master sends it over the cascade bus (R23, R24). -/
inductive TableUpdate where
  | rank (index : Fin 262144) (value : BitVec 32)
  | window (index : Fin 4194304) (value : BitVec 64)
  | descriptor (window : Fin 256) (value : BitVec 64)
  | incarnation (node : NodeId) (inc : BitVec 8)
  | routeEntry (bank : Fin 2) (index : BitVec 16) (value : BitVec 8)
  | selector (bank : Fin 2) (entry : Fin 64) (set : Fin 16)
  | extent (bank : Fin 2) (index : BitVec 8) (value : BitVec 16)
  | exception (bank : Fin 2) (index : Fin 4096) (value : BitVec 64)
  | markReady (bank : Fin 2)
  | release (bank : Fin 2)
  | flipAt (time : BitVec 64)
  deriving DecidableEq, Repr

/-- A part of the shared tables that another inst of the cascade serves at a copy (R29, R383): the
entries as the update list that rebuilds them from empty tables, the states of the two routing banks
in the codes of R256, the epoch number and the flip time scheduled there (0 for none). -/
structure TableCopy where
  updates : List TableUpdate
  bank0   : BitVec 2
  bank1   : BitVec 2
  epochNr : BitVec 32
  flipAt  : BitVec 64
  /-- the time of the last flip (R260) -/
  flipped : BitVec 64
  deriving DecidableEq, Repr

/-- A stripe as its home inst knows it (R342, R344): the home port, whether its link works, its octets, and the cells in
use and free of its V0 and V1 egress shares. -/
structure FarStripe where
  home  : Fin 12
  works : Bool
  width : Nat
  used0 : Nat
  used1 : Nat
  free0 : Nat
  free1 : Nat
  deriving DecidableEq, Repr

/-- What one inst tells another over the cascade bus beside packets, releases and beacon samples (R24, R182, R208,
R224, R341, R342, R344, R355): the spec gives the bus no format (notes/assumptions/52.md). -/
inductive BusMsg where
  /-- a shared-table write or entry rewrite of the master (R24) -/
  | table (u : TableUpdate)
  /-- an inst has stored one (R24) -/
  | stored (inst : Fin 4)
  /-- an inst asks for another's copy of a window table entry (R224) -/
  | windowAsk (index : Fin 4194304)
  /-- the copy that was asked for (R224) -/
  | windowCopy (index : Fin 4194304) (value : BitVec 64)
  /-- the master's write of 0x5310.`sub` (R182) -/
  | sextant (sub : Fin 7) (value : BitVec 16)
  /-- an inst asks the master for the values of 0x5310 and the state of the units (R182) -/
  | sextantAsk (inst : Fin 4)
  /-- a unit's trimmed maximum, frequency, service and scheduled change as the master has them (R182, R206 to R208) -/
  | unitState (unit : Fin 16) (trimmed freq : Nat) (inService : Bool) (change : Option Nat)
  /-- what the counters 0x5300.05 to 0x5300.0D of a unit show (R182, R461) -/
  | unitCounts (unit : Fin 16) (counts : List Nat)
  /-- what a unit counted in 0x5300.`sub` for the other insts (R182) -/
  | unitWork (unit : Fin 16) (sub : Fin 14) (count : Nat)
  /-- an inst's stripe map and port widths as its instance reset takes them (R341) -/
  | stripes (inst : Fin 4) (map widths : Bytes)
  /-- the stripes of an inst that the master finds against R341 -/
  | stripesBad (inst : Fin 4) (ports : List (Fin 12))
  /-- a stripe of another inst's home port as it stands now (R342, R344) -/
  | stripe (inst : Fin 4) (port : Fin 12) (x : FarStripe)
  /-- inst 0's count, the code of its time state, its stratum, the Meridian master it follows, and its BFLAGS bit 0 (R353,
  R355) -/
  | time (count : BitVec 64) (state : Fin 4) (stratum : BitVec 8) (master : NodeId) (holdover : Bool)
  deriving DecidableEq, Repr

/-- One sample of the per-block activity counters (R406), in counter units. The blocks go by the number of the sensor at
their place (R411). -/
structure Activity where
  counts : List (Fin 64 × Nat)
  deriving DecidableEq, Repr

/-- One character as received at stage A: a 10-bit code group, bit a lowest (R309). -/
abbrev CodeGroup := BitVec 10

/-- The bytes of one data packet as the lane tiles deliver them: the 32-byte header read as one little-endian value, the
payload, and the number of the header's block in the receive stream of R307, from which the codewords that its bytes lie in
follow (R325). At stage A `codes` holds the code groups that its bytes came in, from the header's first byte on (R309, R313);
where the list ends before its bytes do, the further bytes came in sound code groups. -/
structure WirePacket where
  header    : BitVec 256
  payload   : Bytes
  codes     : List CodeGroup
  first     : Nat
  deriving DecidableEq, Repr

/-- The commands of the block. Each constructor's comment gives the rule its row of the table names. -/
inductive Instr where
  -- host port and dictionary
  /-- R31 -/ | apertureRead (h : HostReq) (atomic : Option AtomicArgs)
  /-- R72 -/ | apertureWrite (h : HostReq) (atomic : Option AtomicArgs) (enables : List Bool) (data : Bytes) (parity : Bool)
  /-- R490 -/ | hostRequestError (chan : Fin 8) (addr : BitVec 64) (read : Option Nat) (thread : BitVec 16)
  /-- R349 -/ | timePageRead (offset : Fin 4096) (len : Nat) (thread : BitVec 16)
  /-- R441 -/ | dictionarySubmit (number : BitVec 32) (length : BitVec 16) (request : Bytes)
  /-- R437 -/ | dictionaryWrite (w : WriteHdr) (index : BitVec 16) (sub : BitVec 8) (value : Bytes)
  /-- R436 -/ | fdpRead (env : Envelope) (xid : BitVec 16) (index : BitVec 16) (sub : BitVec 8) (offset : BitVec 32) (len : BitVec 16)
  /-- R436 -/ | fdpMalformed (frame : EthFrame)
  /-- R463 -/ | sessionReset (w : WriteHdr)
  -- command slots and commands
  /-- R110 -/ | slotWrite (ctx : Fin 4096) (offset : Fin 4096) (access : RegionAccess) (data : Bytes)
  /-- R121 -/ | copy (ctx : Fin 4096)
  /-- R123 -/ | fill (ctx : Fin 4096)
  /-- R124 -/ | strided (ctx : Fin 4096)
  /-- R125 -/ | stageIn (ctx : Fin 4096)
  /-- R127 -/ | fence (ctx : Fin 4096)
  /-- R128 -/ | barrier (ctx : Fin 4096)
  /-- R129 -/ | collStart (ctx : Fin 4096)
  /-- R130 -/ | phaseHint (ctx : Fin 4096)
  /-- R131 -/ | arm (ctx : Fin 4096)
  /-- R115 -/ | reservedType (ctx : Fin 4096)
  /-- R127 -/ | fenceComplete (ctx : Fin 4096) (cmd : Nat)
  /-- R125 -/ | stageInStart (ctx : Fin 4096) (cmd : Nat)
  /-- R126 -/ | stageInDeadline (ctx : Fin 4096) (cmd : Nat)
  /-- R79 -/ | operationIssue (op : Nat)
  /-- R80 -/ | trackingBlockClose (block : Fin 1024)
  /-- R82 -/ | trackingHoldExpiry (block : Fin 1024)
  -- packets
  /-- R280 -/ | dataPacketTransmit (port : Fin 12)
  /-- R281 -/ | dataPacketReceive (port : Fin 12) (p : WirePacket)
  /-- R244 -/ | packetRoute (pkt : Nat)
  /-- R244 -/ | escapeTimeExpiry (pkt : Nat)
  -- the target side
  /-- R70 -/ | loadRequest (pkt : Nat)
  /-- R47 -/ | storeRequest (pkt : Nat)
  /-- R75 -/ | atomicFetchRequest (pkt : Nat)
  /-- R76 -/ | atomicPostRequest (pkt : Nat)
  /-- R95 -/ | notifyRequest (pkt : Nat)
  /-- R93 -/ | memoryAccept (access : Nat) (parity : Bool)
  /-- R85 -/ | writeAckCoalesceTimeout (accum : Nat)
  /-- R96 -/ | messageEntryExpiry (src : NodeId) (sinst : Fin 4) (msgid : Fin 1024)
  -- the requester side
  /-- R82 -/ | loadRespReceive (pkt : Nat)
  /-- R85 -/ | writeAckReceive (pkt : Nat)
  /-- R100 -/ | atomicRespReceive (pkt : Nat)
  -- contexts
  /-- R106 -/ | contextEnable (w : WriteHdr)
  /-- R144 -/ | contextDisable (w : WriteHdr)
  /-- R106 -/ | contextRelease (w : WriteHdr)
  /-- R145 -/ | drainTimeExpiry (ctx : Fin 4096)
  /-- R144 -/ | contextDrainComplete (ctx : Fin 4096)
  /-- R136 -/ | mirrorWrite (ctx : Fin 4096)
  /-- R136 -/ | mirrorWriteError (ctx : Fin 4096)
  -- credits
  /-- R294 -/ | creditGrantReceive (port : Fin 12) (block : BitVec 256)
  /-- R143 -/ | creditReleaseReceive (port : Fin 12) (block : BitVec 256)
  /-- R295 -/ | creditProbeReceive (port : Fin 12) (block : BitVec 256)
  /-- R295 -/ | creditProbeTimer (op : Nat)
  /-- R141 -/ | grantCoalesceTimeout (nctx : Fin 4096) (src : NodeId) (sinst : Fin 4)
  /-- R143 -/ | senderEntryExpiry (node : NodeId) (nctx : Fin 4096)
  /-- R143 -/ | grantEntryExpiry (nctx : Fin 4096) (src : NodeId) (sinst : Fin 4)
  -- the Caller
  /-- R147 -/ | cardInstall (w : WriteHdr) (card : Bytes)
  /-- R148 -/ | cardSlotClear (w : WriteHdr) (slot : BitVec 8)
  /-- R161 -/ | announceNotice (port : Fin 12) (block : BitVec 256)
  /-- R173 -/ | driftNotice (port : Fin 12) (block : BitVec 256)
  /-- R177 -/ | abortNotice (port : Fin 12) (block : BitVec 256)
  /-- R168 -/ | releaseNotice (port : Fin 12) (block : BitVec 256)
  /-- R163 -/ | callerNoticeDiscard (port : Fin 12) (block : BitVec 256)
  /-- R161 -/ | collectiveStart (coll : Nat)
  /-- R164 -/ | collDataReceive (pkt : Nat)
  /-- R168 -/ | collTokenReceive (pkt : Nat)
  /-- R252 -/ | mcastDataReceive (pkt : Nat)
  /-- R166 -/ | collectiveComplete (coll : Nat)
  /-- R168 -/ | barrierFiguresComplete (coll : Nat)
  /-- R170 -/ | barrierRelease (coll : Nat)
  -- Sextant units
  /-- R191 -/ | reductionCombine (unit : Fin 16)
  /-- R201 -/ | atomicExecute (unit : Fin 16)
  /-- R201 -/ | lineHoldExpiry (unit : Fin 16) (line : Nat)
  /-- R206 -/ | sextantFrequencyChange (unit : Fin 16)
  -- the central store
  /-- R225 -/ | scrubRow (bank : Fin 136) (row : Fin 10240) (finding : EccFinding) (rewriteClears : Bool)
  /-- R226 -/ | bankMigrationDone (bank : Fin 136)
  -- tables
  /-- R36 -/ | partitionEntryWrite (w : WriteHdr) (value : BitVec 64)
  /-- R53 -/ | portKeyWrite (w : WriteHdr) (value : BitVec 32)
  /-- R254 -/ | shareWrite (w : WriteHdr) (value : BitVec 32)
  /-- R60 -/ | incarnationWrite (w : WriteHdr) (value : BitVec 32)
  /-- R38 -/ | rankEntryWrite (w : WriteHdr) (value : BitVec 32)
  /-- R45 -/ | windowEntryWrite (w : WriteHdr) (value : BitVec 64)
  /-- R43 -/ | windowDescriptorWrite (w : WriteHdr) (value : BitVec 64)
  /-- R64 -/ | windowDrain (w : WriteHdr)
  /-- R64 -/ | windowDrainEnd
  /-- R64 -/ | windowDrainTimeout
  /-- R236 -/ | portDirectionWrite (w : WriteHdr) (value : BitVec 8)
  /-- R237 -/ | datelineWrite (w : WriteHdr) (dim : Fin 3) (value : BitVec 8)
  /-- R240 -/ | routeEntryWrite (w : WriteHdr) (value : BitVec 8)
  /-- R247 -/ | exceptionWrite (w : WriteHdr) (value : BitVec 64)
  /-- R257 -/ | bankMarkReady (w : WriteHdr) (value : BitVec 8)
  /-- R257 -/ | bankRelease (w : WriteHdr) (value : BitVec 8)
  /-- R258 -/ | flipSchedule (w : WriteHdr) (time : BitVec 64)
  /-- R258 -/ | flipCancel (w : WriteHdr)
  /-- R259 -/ | epochFlip
  /-- R260 -/ | drainingBankQuiet
  /-- R260 -/ | drainGuardExpiry
  -- Charts
  /-- R262 -/ | chartSample
  /-- R261 -/ | chartIntervalClose
  /-- R264 -/ | chartSend
  /-- R264 -/ | chartPacketReceive (pkt : Nat)
  -- the link layer
  /-- R286 -/ | linkStatusReceive (port : Fin 12) (block : BitVec 256)
  /-- R285 -/ | nakReceive (port : Fin 12) (block : BitVec 256)
  /-- R284 -/ | replayStartReceive (port : Fin 12) (block : BitVec 256)
  /-- R301 -/ | linkStartReceive (port : Fin 12) (block : BitVec 256)
  /-- R453 -/ | hailReceive (port : Fin 12) (block : BitVec 256)
  /-- R300 -/ | departReceive (port : Fin 12) (block : BitVec 256)
  /-- R353 -/ | beaconReceive (port : Fin 12) (block : BitVec 256)
  /-- R276 -/ | controlPacketDiscard (port : Fin 12) (block : BitVec 256) (badBlock : Bool)
  /-- R286 -/ | linkStatusTimer (port : Fin 12)
  /-- R287 -/ | replayTimeout (port : Fin 12)
  /-- R292 -/ | silenceLimitExpiry (port : Fin 12)
  /-- R301 -/ | linkStartRepeat (port : Fin 12)
  /-- R301 -/ | linkStartTimeout (port : Fin 12)
  /-- R298 -/ | takeLinkDown (w : WriteHdr)
  /-- R300 -/ | portDisable (w : WriteHdr)
  /-- R399 -/ | portEnable (w : WriteHdr)
  /-- R340 -/ | retrain (w : WriteHdr)
  -- lanes and training
  /-- R330 -/ | laneLos (lane : Fin 108)
  /-- R330 -/ | laneLosClear (lane : Fin 108)
  /-- R331 -/ | laneLol (lane : Fin 108)
  /-- R331 -/ | laneLolClear (lane : Fin 108)
  /-- R310 -/ | trainingSetReceive (lane : Fin 108) (groups : List CodeGroup)
  /-- R311 -/ | bitSlip (lane : Fin 108)
  /-- R318 -/ | trainingFrameReceive (lane : Fin 108) (control : BitVec 64)
  /-- R320 -/ | checkWindowEnd (port : Fin 12) (counts : List LaneCount)
  /-- R322 -/ | stageTimeout (port : Fin 12)
  /-- R322 -/ | stageARetry (port : Fin 12)
  /-- R321 -/ | startCountdownEnd (port : Fin 12)
  /-- R325 -/ | codewordDecode (octet : Fin 12) (codeword : Fin 4) (symbols : List (BitVec 10))
  /-- R333 -/ | spare (port : Fin 12) (arg : BitVec 8)
  /-- R333 -/ | unspare (port : Fin 12) (arg : BitVec 8)
  /-- R338 -/ | width (port : Fin 12) (arg : BitVec 8)
  /-- R339 -/ | shift (port : Fin 12) (arg : BitVec 8)
  /-- R334 -/ | ack (port : Fin 12) (arg : BitVec 8) (countdown : BitVec 8)
  /-- R334 -/ | refuse (port : Fin 12) (arg : BitVec 8)
  /-- R334 -/ | switchFrame (port : Fin 12)
  /-- R334 -/ | lmcRepeatTimeout (port : Fin 12)
  /-- R339 -/ | shiftTimeout (port : Fin 12)
  /-- R345 -/ | testMode (w : WriteHdr) (value : BitVec 8)
  /-- R346 -/ | symbolErrorInject (w : WriteHdr) (value : BitVec 64)
  -- Meridian time
  /-- R351 -/ | merRefEdge
  /-- R357 -/ | merRefLoss
  /-- R353 -/ | beaconSend (port : Fin 12)
  /-- R357 -/ | upstreamLoss
  /-- R357 -/ | holdoverLimit
  /-- R350 -/ | masterTakeover
  /-- R493 -/ | designationWrite (w : WriteHdr) (standby : Bool) (value : BitVec 32)
  /-- R352 -/ | timeSet (w : WriteHdr) (time : BitVec 64)
  /-- R362 -/ | meridianMinute
  /-- R28 -/ | masterAbsent (stripes : List (Fin 12))
  -- faults, resets and dumps
  /-- R368 -/ | faultIntake (copy : Option TableCopy)
  /-- R367 -/ | countSlotBoundary (cls : Fin 16) (idx : BitVec 8)
  /-- R367 -/ | countWindowWrite (w : WriteHdr) (value : BitVec 32)
  /-- R366 -/ | logRateSecond
  /-- R372 -/ | faultClear (w : WriteHdr) (value : BitVec 32)
  /-- R373 -/ | faultForce (w : WriteHdr) (kind : BitVec 8)
  /-- R380 -/ | contextReset (w : WriteHdr) (target : BitVec 12)
  /-- R380 -/ | autoContextReset (ctx : Fin 4096)
  /-- R381 -/ | engineReset (w : WriteHdr) (target : BitVec 12)
  /-- R381 -/ | mirrorAbandonTimeout (engine : Fin 16)
  /-- R382 -/ | partitionReset (w : WriteHdr) (target : BitVec 12)
  /-- R383 -/ | instanceResetDump (w : WriteHdr) (copy : Option TableCopy)
  /-- R383 -/ | instanceResetNoDump (w : WriteHdr) (copy : Option TableCopy)
  /-- R383 -/ | resetComplete (level : Fin 5) (target : BitVec 12)
  /-- R378 -/ | resetBoundExpiry (level : Fin 5) (target : BitVec 12) (copy : Option TableCopy)
  /-- R389 -/ | dumpRequest (w : WriteHdr)
  /-- R388 -/ | dumpUnitTimeout (unit : Fin 64) (anyWord : Bool)
  /-- R390 -/ | dumpFlashWriteDone
  -- power and heat
  /-- R403 -/ | capBoundary
  /-- R402 -/ | stepPrepare
  /-- R401 -/ | scheduleStep
  /-- R401 -/ | scheduleWrite (w : WriteHdr) (step : Bytes)
  /-- R401 -/ | scheduleClear (w : WriteHdr)
  /-- R397 -/ | startUpCapWrite (w : WriteHdr) (sextant : Bool) (value : BitVec 16)
  /-- R398 -/ | hostCapWrite (w : WriteHdr) (value : BitVec 16)
  /-- R398 -/ | hostSextantCapWrite (w : WriteHdr) (value : BitVec 16)
  /-- R399 -/ | holdOffWrite (w : WriteHdr) (value : BitVec 16)
  /-- R411 -/ | sensorRead (readings : List (Fin 64 × Int))
  /-- R413 -/ | sensorFailed (sensor : Fin 64)
  /-- R415 -/ | criticalHoldTimeout
  /-- R415 -/ | thermalRelease
  /-- R406 -/ | activitySample (counts : Activity)
  /-- R406 -/ | coefficientCorrection
  /-- R416 -/ | cutWarnAssert
  /-- R417 -/ | cutWarnRelease
  /-- R417 -/ | cutWarnRecovery (copy : Option TableCopy)
  -- self-test and repair
  /-- R418 -/ | laneSlice (port : Fin 12)
  /-- R420 -/ | sliceCheckEnd (lane : Fin 108) (check : SliceCheck) (bits errors : Nat)
  /-- R423 -/ | storeSlice
  /-- R423 -/ | retentionWaitEnd (pass : Bool)
  /-- R424 -/ | sextantSlice (pass : Bool) (repeatPass : Bool) (slackAbove : Nat)
  /-- R427 -/ | repairCommit (w : WriteHdr) (record : BitVec 8)
  /-- R427 -/ | fuseCommitDone
  -- management
  /-- R428 -/ | compassWatchdog
  /-- R440 -/ | eventAck (eseq : BitVec 32)
  /-- R440 -/ | eventResend (eseq : BitVec 32)
  /-- R440 -/ | announceAck
  /-- R440 -/ | announceResend
  /-- R430 -/ | journalAppend (flashOk : Bool) (badSector : Bool)
  /-- R446 -/ | keyReplace (w : WriteHdr) (slot : Fin 4) (wrapped : Bytes)
  /-- R449 -/ | updateBegin (w : WriteHdr) (length : BitVec 32)
  /-- R449 -/ | updateEraseDone
  /-- R449 -/ | updateBlock (w : WriteHdr) (block : Bytes)
  /-- R449 -/ | updateFinish (w : WriteHdr)
  /-- R449 -/ | updateConfirm (w : WriteHdr)
  /-- R450 -/ | confirmWindowExpiry
  /-- R451 -/ | cableIdentityWrite (w : WriteHdr) (identity : Bytes)
  /-- R452 -/ | planEntryWrite (w : WriteHdr) (value : BitVec 64)
  /-- R454 -/ | planHashWrite (w : WriteHdr) (value : BitVec 32)
  /-- R453 -/ | hailRepeat (port : Fin 12)
  /-- R453 -/ | hailTimeout (port : Fin 12)
  /-- R456 -/ | prepareReturn (w : WriteHdr)
  /-- R456 -/ | returnToService (w : WriteHdr)
  -- the boundary
  /-- R476 -/ | pwrGoodFall
  /-- R477 -/ | resetNAssert
  /-- R487 -/ | resetNRelease (instId : Fin 4) (slotId : Fin 8) (refclk : Bool) (copy : Option TableCopy)
  /-- R476 -/ | pllLockRetry (refclk : Bool) (copy : Option TableCopy)
  /-- R476 -/ | pwrGoodRise (refclk : Bool) (copy : Option TableCopy)
  /-- R428 -/ | compassRestartDone
  /-- R136 -/ | mirrorWriteAccepted (ctx : Fin 4096)
  -- the cascade bus
  /-- R24 -/ | cascadeTableUpdate (message : BusMsg)
  /-- R343 -/ | cascadePacketReceive (source : Fin 4) (port : Option (Fin 12)) (p : WirePacket)
  /-- R170 -/ | cascadeReleaseReceive (tRel : BitVec 64) (step : Fin 16) (ramp : Fin 16)
  /-- R353 -/ | cascadeBeaconSample (source : Fin 4) (port : Fin 12) (delay : Int) (offset : Option Int) (master : NodeId) (stratum : BitVec 8) (holdover : Bool)
  /-- R344 -/ | cascadeInstanceLoss (inst : Fin 4) (stripes : List (Fin 12))
  /-- R29 -/ | cascadeInstanceReturn (inst : Fin 4) (copy : Option TableCopy)
  /-- R200 -/ | sextantBackpressureDrift (unit : Fin 16)
  /-- R319 -/ | receiverAdaptationDone (lane : Fin 108) (ctle : Fin 41) (dfe : List (BitVec 8)) 
  /-- R434 -/ | plcaStatusOk
  deriving DecidableEq, Repr

end Sys2Proof
end

