-- ==== Sys2Proof/Machine/Listing.lean ====
section
/-! DEFINITION. The listing of the object dictionary: every entry of the index map with its type,
access class, default, range and the select entry it acts on (R457, R458, R459), in the order of the
entry tables of the chapters. The values are those of the tables; what an entry does is written where
its chapter is modelled. -/

namespace Sys2Proof.Machine

/-- R6: the types of dictionary values; `blob n` has at most n bytes. -/
inductive Ty where
  | u8 | u16 | u32 | u64 | i32 | f32 | bool | str | blob (size : Nat) | mtime
  deriving DecidableEq, Repr

/-- R7: the access classes. -/
inductive Access7 where
  | ro | rw | wo | rwp | crit
  deriving DecidableEq, Repr

/-- One row of a listing: sub-index, type, access, default, least and greatest value that R460's
reason 9 lets pass (packed values are checked by their own rules), and the sub-index of the select
entry of the same index whose selection it acts on (0 for none). -/
structure Row where
  sub  : Nat
  ty   : Ty
  acc  : Access7
  dflt : Nat
  lo   : Nat
  hi   : Nat
  sel  : Nat
  deriving DecidableEq, Repr

/-- R6: the size of a type in bytes. -/
def Ty.size : Ty → Nat
  | .u8 | .bool => 1
  | .u16 => 2
  | .u32 | .i32 | .f32 => 4
  | .u64 | .mtime => 8
  | .str => 64
  | .blob n => n

/-- R436: the code of a type in READ_ANS. -/
def Ty.code : Ty → Nat
  | .u8 => 1 | .u16 => 2 | .u32 => 3 | .u64 => 4 | .i32 => 5 | .f32 => 6 | .bool => 7
  | .str => 8 | .blob _ => 9 | .mtime => 10

/-- A read-only number. -/
def roRow (sub : Nat) (ty : Ty) (dflt sel : Nat) : Row := ⟨sub, ty, .ro, dflt, 0, 0, sel⟩

/-- The entries of 0x1000. -/
def listing1000 : List Row :=
  [roRow 0x01 .str 0 0, roRow 0x02 .str 0 0, roRow 0x03 .u64 0 0, roRow 0x04 .u8 0 0,
   roRow 0x05 .u8 0 0, roRow 0x06 .u32 0 0, roRow 0x07 .u64 0 0, roRow 0x08 .u32 0 0,
   roRow 0x09 .u16 1 0, roRow 0x0A .u16 0 0]

/-- The entries of 0x1010. -/
def listing1010 : List Row :=
  [roRow 0x01 (.blob 6) 0 0, roRow 0x02 .u8 0 0, roRow 0x03 .u64 0 0, roRow 0x04 .u16 0 0,
   roRow 0x05 .u64 0 0, roRow 0x06 .u32 0 0, roRow 0x07 .u64 0 0]

/-- The entries of 0x1020. -/
def listing1020 : List Row :=
  [roRow 0x01 .u8 1 0, ⟨0x02, .bool, .wo, 0, 0, 1, 0⟩, roRow 0x03 .u64 0 0]

/-- The entries of 0x2000. -/
def listing2000 : List Row :=
  [⟨0x01, (.blob 12), .rwp, 0, 0, 0, 0⟩, roRow 0x02 (.blob 12) 0 0,
   ⟨0x03, .u8, .rw, 0, 0, 11, 0⟩, roRow 0x04 .u8 0 3, ⟨0x05, .bool, .rwp, 1, 0, 1, 3⟩,
   ⟨0x06, .u8, .rwp, 1, 1, 12, 3⟩, roRow 0x07 .u8 255 3, roRow 0x08 .u8 0 3, roRow 0x09 .u8 0 3,
   roRow 0x0A .u8 12 3, roRow 0x0B .u32 0 3, ⟨0x0C, .bool, .wo, 0, 0, 1, 3⟩, roRow 0x0D .u64 0 3]

/-- The entries of 0x2010. -/
def listing2010 : List Row :=
  [⟨0x01, (.blob 12), .rwp, 0, 0, 0, 0⟩]

/-- The entries of 0x2100. -/
def listing2100 : List Row :=
  [⟨0x01, .u8, .rw, 0, 0, 107, 0⟩, roRow 0x02 .u8 0 1, roRow 0x03 .u8 15 1, roRow 0x04 .u64 0 1,
   roRow 0x05 .u64 0 1, roRow 0x06 .u64 0 1, ⟨0x07, .bool, .rw, 0, 0, 1, 1⟩,
   roRow 0x08 (.blob 4) 0 1, roRow 0x09 .u8 0 1, roRow 0x0A (.blob 12) 0 1, roRow 0x0B .u8 0 1,
   roRow 0x0C .f32 0 1, roRow 0x0D .u64 0 1]

/-- The entries of 0x2200. -/
def listing2200 : List Row :=
  [⟨0x01, .u8, .rw, 0, 0, 11, 0⟩, ⟨0x02, .u8, .rw, 0, 0, 6, 1⟩, roRow 0x03 .u64 0 1,
   roRow 0x04 .u64 0 1, roRow 0x05 .u8 4 1, ⟨0x06, .bool, .rw, 0, 0, 1, 1⟩,
   ⟨0x07, (.blob 32), .rw, 0, 0, 0, 1⟩]

/-- The entries of 0x2300. -/
def listing2300 : List Row :=
  [⟨0x01, .u8, .rw, 255, 0, 255, 0⟩, ⟨0x02, .u8, .rw, 0, 0, 3, 0⟩, ⟨0x03, .u8, .rw, 0, 0, 2, 0⟩,
   ⟨0x04, .u8, .rw, 5, 0, 255, 0⟩, ⟨0x05, .u64, .rw, 0, 0, 18446744073709551615, 0⟩,
   ⟨0x06, .u32, .rw, 0, 0, 4294967295, 0⟩, roRow 0x07 .u64 0 0, roRow 0x08 .u64 0 0,
   roRow 0x09 .bool 0 0, ⟨0x0A, .u64, .crit, 0, 0, 18446744073709551615, 0⟩]

/-- The entries of 0x2400. -/
def listing2400 : List Row :=
  [⟨0x01, .u8, .rw, 0, 0, 11, 0⟩, roRow 0x02 .u8 0 1, roRow 0x03 .u8 0 1, roRow 0x04 .u16 0 1,
   roRow 0x05 .u16 0 1, roRow 0x06 .u16 0 1, roRow 0x07 .u32 0 1, roRow 0x08 .u32 0 1,
   roRow 0x09 .u8 0 1, roRow 0x0A .u8 0 1, roRow 0x0B .u64 0 1, roRow 0x0C .u64 0 1,
   roRow 0x0D .u64 0 1, roRow 0x0E .u64 0 1, roRow 0x0F .u64 0 1, roRow 0x10 .u64 0 1,
   roRow 0x11 .u64 0 1, roRow 0x12 .u64 0 1, roRow 0x13 .u64 0 1, roRow 0x14 .u8 0 1,
   roRow 0x15 .u64 0 1, roRow 0x16 .u64 0 1, ⟨0x17, .bool, .wo, 0, 0, 1, 1⟩]

/-- The entries of 0x2410. -/
def listing2410 : List Row :=
  [⟨0x01, .u16, .rw, 32, 1, 1024, 0⟩, ⟨0x02, .u16, .rw, 50, 10, 1000, 0⟩,
   ⟨0x03, .u16, .rw, 1000, 100, 10000, 0⟩, ⟨0x04, .u16, .rw, 10, 2, 1000, 0⟩,
   ⟨0x05, .u16, .rw, 2000, 200, 65535, 0⟩, ⟨0x06, .u8, .rw, 8, 1, 64, 0⟩,
   ⟨0x07, .u16, .rw, 500, 0, 10000, 0⟩, ⟨0x09, .u16, .rw, 100, 10, 10000, 0⟩]

/-- The entries of 0x2500. -/
def listing2500 : List Row :=
  [⟨0x01, .u16, .rw, 150, 10, 1000, 0⟩, ⟨0x02, .u16, .rw, 500, 50, 2000, 0⟩,
   ⟨0x03, .u16, .rw, 1500, 100, 3000, 0⟩, ⟨0x04, .u16, .rw, 20, 1, 1000, 0⟩,
   ⟨0x05, .f32, .rw, 925353388, 814313567, 981668463, 0⟩, ⟨0x06, .u8, .rwp, 2, 0, 2, 0⟩,
   ⟨0x07, .u16, .rw, 200, 50, 10000, 0⟩, ⟨0x08, .u8, .rw, 8, 2, 255, 0⟩]

/-- The entries of 0x2600. -/
def listing2600 : List Row :=
  [⟨0x01, .u64, .crit, 0, 0, 18446744073709551615, 0⟩, ⟨0x02, .u8, .rw, 0, 0, 11, 0⟩,
   roRow 0x03 .u64 0 2, ⟨0x04, .u32, .crit, 0, 0, 4294967295, 0⟩, roRow 0x05 .u8 0 2,
   roRow 0x06 (.blob 10) 0 2, ⟨0x07, .u16, .rw, 10, 1, 1000, 0⟩]

/-- The entries of 0x3000. -/
def listing3000 : List Row :=
  [⟨0x01, .u16, .rw, 0, 0, 65535, 0⟩, ⟨0x02, .u8, .rw, 4, 1, 64, 0⟩,
   ⟨0x03, .u8, .rw, 4, 1, 32, 0⟩, ⟨0x04, .u8, .rw, 4, 1, 32, 0⟩]

/-- The entries of 0x3100. -/
def listing3100 : List Row :=
  [⟨0x01, .u64, .crit, 0, 0, 18446744073709551615, 0⟩, ⟨0x02, .u8, .rw, 0, 0, 63, 0⟩,
   roRow 0x03 .u64 0 2]

/-- The entries of 0x3200. -/
def listing3200 : List Row :=
  [⟨0x01, .u32, .rw, 0, 0, 262143, 0⟩, ⟨0x02, .u32, .rw, 0, 0, 4294967295, 1⟩]

/-- The entries of 0x3300. -/
def listing3300 : List Row :=
  [⟨0x01, .u32, .crit, 0, 0, 4294967295, 0⟩, ⟨0x02, .u16, .rw, 0, 0, 65535, 0⟩,
   roRow 0x03 .u8 0 2]

/-- The entries of 0x3400. -/
def listing3400 : List Row :=
  [⟨0x01, .u32, .crit, 0, 0, 4294967295, 0⟩, ⟨0x02, .u8, .rw, 0, 0, 11, 0⟩, roRow 0x03 .u64 0 2,
   roRow 0x04 .u64 0 2]

/-- The entries of 0x3500. -/
def listing3500 : List Row :=
  [roRow 0x01 .u64 0 0, roRow 0x02 .u64 0 0, roRow 0x03 .u64 0 0, roRow 0x04 .u64 0 0,
   roRow 0x05 .u64 0 0, roRow 0x06 .u64 0 0, roRow 0x07 .u64 0 0, roRow 0x08 .u64 0 0,
   roRow 0x09 .u64 0 0, roRow 0x0A .u64 0 0, roRow 0x0B .u64 0 0, roRow 0x0C .u64 0 0]

/-- The entries of 0x3510. -/
def listing3510 : List Row :=
  [roRow 0x01 .u64 0 0, roRow 0x02 .u64 0 0, roRow 0x03 .u64 0 0, roRow 0x04 .u64 0 0,
   roRow 0x05 .u64 0 0, roRow 0x06 .u64 0 0, roRow 0x07 .u64 0 0, roRow 0x08 .u64 0 0,
   roRow 0x09 .u64 0 0, roRow 0x0A .u64 0 0, roRow 0x0B .u64 0 0, roRow 0x0C .u64 0 0]

/-- The entries of 0x3600. -/
def listing3600 : List Row :=
  [⟨0x01, .u8, .rw, 0, 0, 11, 0⟩, ⟨0x02, .u8, .rw, 0, 0, 255, 1⟩,
   ⟨0x03, .u16, .rw, 0, 0, 65535, 1⟩, ⟨0x04, .u16, .rw, 0, 0, 65535, 1⟩,
   ⟨0x05, .u8, .rw, 0, 0, 255, 0⟩, ⟨0x06, .u8, .rw, 0, 0, 255, 0⟩, ⟨0x07, .u8, .rw, 0, 0, 255, 0⟩]

/-- The entries of 0x3700. -/
def listing3700 : List Row :=
  [⟨0x01, .u8, .rw, 1, 0, 1, 0⟩, ⟨0x02, .u16, .rw, 0, 0, 65535, 0⟩,
   ⟨0x03, .u8, .rw, 0, 0, 255, 2⟩, ⟨0x04, .u8, .rw, 0, 0, 63, 0⟩, ⟨0x05, .u8, .rw, 0, 0, 15, 0⟩,
   ⟨0x06, .u8, .rw, 0, 0, 255, 0⟩, ⟨0x07, .u16, .rw, 0, 0, 65535, 0⟩]

/-- The entries of 0x3710. -/
def listing3710 : List Row :=
  [⟨0x01, .u16, .rw, 0, 0, 4095, 0⟩, ⟨0x02, .u64, .rw, 0, 0, 18446744073709551615, 1⟩,
   roRow 0x03 .u16 0 0]

/-- The entries of 0x3800. -/
def listing3800 : List Row :=
  [roRow 0x01 .u8 0 0, roRow 0x02 .u8 2 0, ⟨0x03, .u8, .wo, 0, 0, 255, 0⟩,
   ⟨0x04, .mtime, .rw, 0, 0, 18446744073709551615, 0⟩, ⟨0x05, .u32, .rw, 1000, 100, 100000, 0⟩,
   ⟨0x06, .u32, .rw, 50, 10, 10000, 0⟩, roRow 0x07 .u32 0 0, roRow 0x08 .u32 0 0,
   roRow 0x09 .u64 0 0, ⟨0x0A, .u8, .wo, 0, 0, 255, 0⟩]

/-- The entries of 0x3900. -/
def listing3900 : List Row :=
  [⟨0x01, .bool, .rw, 1, 0, 1, 0⟩, ⟨0x02, .u16, .rw, 500, 50, 10000, 0⟩,
   ⟨0x03, .u16, .rw, 512, 0, 65535, 0⟩, roRow 0x04 .u64 0 0, roRow 0x05 .u64 0 0,
   roRow 0x06 .u64 0 0, roRow 0x07 .u64 0 0, roRow 0x08 .bool 1 0]

/-- The entries of 0x3A00. -/
def listing3A00 : List Row :=
  [⟨0x01, .u32, .crit, 0, 0, 4294967295, 0⟩, ⟨0x02, .u16, .rw, 0, 0, 65535, 0⟩,
   roRow 0x03 .u8 0 2, roRow 0x04 .u16 0 0]

/-- The entries of 0x4000. -/
def listing4000 : List Row :=
  [⟨0x01, .u16, .rw, 0, 0, 4095, 0⟩, roRow 0x02 .u8 0 1, ⟨0x03, .u8, .wo, 0, 1, 3, 1⟩,
   ⟨0x04, .u8, .rw, 0, 0, 63, 1⟩, ⟨0x05, .u64, .rw, 0, 0, 18446744073709551615, 1⟩,
   roRow 0x06 .u8 0 1, ⟨0x07, .u32, .rw, 1000, 0, 100000, 1⟩, roRow 0x08 .u8 0 1,
   roRow 0x09 .u64 0 1, roRow 0x0A .u64 0 1, roRow 0x0B (.blob 24) 0 1,
   ⟨0x0C, .bool, .wo, 0, 0, 1, 1⟩]

/-- The entries of 0x4010. -/
def listing4010 : List Row :=
  [⟨0x01, .u8, .rw, 0, 0, 63, 0⟩, roRow 0x02 .u64 0 1]

/-- The entries of 0x4020. -/
def listing4020 : List Row :=
  [⟨0x01, .u16, .rw, 100, 0, 10000, 0⟩]

/-- The entries of 0x4100. -/
def listing4100 : List Row :=
  [⟨0x01, .u32, .rw, 128, 1, 65536, 0⟩, ⟨0x02, .u32, .rw, 8192, 64, 1048576, 0⟩,
   ⟨0x03, .u32, .rw, 524288, 1024, 2097152, 0⟩, roRow 0x04 .u32 0 0, roRow 0x05 .u16 0 0,
   roRow 0x06 .u64 0 0, roRow 0x07 .u64 0 0, ⟨0x08, .u16, .rw, 100, 0, 1000, 0⟩,
   ⟨0x09, .u16, .rw, 2000, 200, 65535, 0⟩, roRow 0x0A .u64 0 0]

/-- The entries of 0x4200. -/
def listing4200 : List Row :=
  [⟨0x01, .u32, .rw, 0, 0, 4194303, 0⟩, ⟨0x02, .u64, .rw, 0, 0, 18446744073709551615, 1⟩,
   roRow 0x03 .u32 0 0, ⟨0x04, .bool, .wo, 0, 0, 1, 0⟩]

/-- The entries of 0x4210. -/
def listing4210 : List Row :=
  [⟨0x01, .u8, .rw, 0, 0, 255, 0⟩, ⟨0x02, .u64, .rw, 0, 0, 18446744073709551615, 1⟩]

/-- The entries of 0x4300. -/
def listing4300 : List Row :=
  [roRow 0x01 .u16 0 0, roRow 0x02 .u64 0 0]

/-- The entries of 0x4400. -/
def listing4400 : List Row :=
  [roRow 0x01 .u64 0 0, roRow 0x02 .u64 0 0]

/-- The entries of 0x4500. -/
def listing4500 : List Row :=
  [⟨0x01, .u16, .rw, 64, 1, 1024, 0⟩, roRow 0x02 .u16 1024 0, ⟨0x03, .u16, .rw, 250, 0, 1000, 0⟩,
   ⟨0x04, .u16, .rw, 0, 0, 4095, 0⟩, roRow 0x05 .u64 0 4, roRow 0x06 (.blob 24) 0 4,
   ⟨0x07, .bool, .wo, 0, 0, 1, 4⟩]

/-- The entries of 0x4510. -/
def listing4510 : List Row :=
  [roRow 0x01 .u16 0 0, roRow 0x02 .u64 0 0]

/-- The entries of 0x4520. -/
def listing4520 : List Row :=
  [roRow 0x01 .u16 0 0, roRow 0x02 .u64 0 0, roRow 0x03 .u64 0 0, roRow 0x04 .u64 0 0]

/-- The entries of 0x4530. -/
def listing4530 : List Row :=
  [roRow 0x01 .u64 0 0, roRow 0x02 .u64 0 0, roRow 0x03 .u64 0 0, roRow 0x04 .u64 0 0]

/-- The entries of 0x4600. -/
def listing4600 : List Row :=
  [⟨0x01, .u8, .rwp, 32, 12, 64, 0⟩, ⟨0x02, .u8, .rwp, 24, 12, 64, 0⟩,
   ⟨0x03, .u8, .rwp, 16, 6, 48, 0⟩, ⟨0x04, .u8, .rwp, 20, 4, 64, 0⟩,
   ⟨0x05, .u8, .rwp, 36, 0, 64, 0⟩, ⟨0x06, .u8, .rwp, 2, 1, 8, 0⟩, roRow 0x07 (.blob 6) 0 0]

/-- The entries of 0x4610. -/
def listing4610 : List Row :=
  [⟨0x01, (.blob 5), .rwp, 0, 0, 0, 0⟩, ⟨0x02, .u16, .rw, 16, 4, 256, 0⟩,
   ⟨0x03, .u8, .rw, 0, 0, 255, 0⟩, roRow 0x04 .u32 0 3, roRow 0x05 .u32 0 3, roRow 0x06 .u32 0 3,
   roRow 0x07 .u32 0 3, roRow 0x08 .u32 0 3, roRow 0x09 .u32 0 3, roRow 0x0A .u64 0 3]

/-- The entries of 0x4620. -/
def listing4620 : List Row :=
  [⟨0x01, .u16, .rw, 256, 64, 1024, 0⟩, roRow 0x02 .u32 0 0, roRow 0x03 .u32 0 0,
   roRow 0x04 .u64 0 0, roRow 0x05 .u32 524288 0, roRow 0x06 .u64 0 0]

/-- The entries of 0x4630. -/
def listing4630 : List Row :=
  [⟨0x01, .u16, .rw, 100, 10, 1000, 0⟩, roRow 0x02 .u64 0 0, roRow 0x03 .u64 0 0,
   roRow 0x04 (.blob 128) 0 0, roRow 0x05 .u8 8 0, ⟨0x06, .u8, .rw, 0, 0, 135, 0⟩,
   roRow 0x07 .u8 0 6, roRow 0x08 .u64 0 6]

/-- The entries of 0x5000. -/
def listing5000 : List Row :=
  [⟨0x01, .u32, .rw, 2000, 0, 1000000, 0⟩, ⟨0x02, .u32, .rw, 4000, 0, 1000000, 0⟩,
   ⟨0x03, .u16, .rw, 150, 1, 10000, 0⟩, roRow 0x04 .u8 0 0, roRow 0x05 .u16 0 0,
   roRow 0x06 .u64 0 0, roRow 0x07 .u64 0 0, roRow 0x08 .u64 0 0, roRow 0x09 .u64 0 0,
   roRow 0x0A .u64 0 0, roRow 0x0B .u64 0 0, roRow 0x0C .u32 0 0, roRow 0x0D .u64 0 0]

/-- The entries of 0x5100. -/
def listing5100 : List Row :=
  [⟨0x01, .u8, .rw, 0, 0, 255, 0⟩, ⟨0x02, (.blob 1088), .rw, 0, 0, 0, 1⟩, roRow 0x03 .u16 0 0,
   ⟨0x04, .u8, .wo, 0, 0, 255, 0⟩]

/-- The entries of 0x5200. -/
def listing5200 : List Row :=
  [⟨0x01, .u8, .rw, 0, 0, 15, 0⟩, ⟨0x02, (.blob 32), .rwp, 0, 0, 0, 1⟩]

/-- The entries of 0x5300. -/
def listing5300 : List Row :=
  [⟨0x01, .u8, .rw, 0, 0, 15, 0⟩, roRow 0x02 .u16 0 1, roRow 0x03 .u16 0 1,
   roRow 0x04 .u16 850 1, roRow 0x05 .u64 0 1, roRow 0x06 .u64 0 1, roRow 0x07 .u64 0 1,
   roRow 0x08 .u32 0 1, roRow 0x09 .u64 0 1, roRow 0x0A .u64 0 1, roRow 0x0B .u64 0 1,
   roRow 0x0C .u64 0 1, roRow 0x0D .u64 0 1]

/-- The entries of 0x5310. -/
def listing5310 : List Row :=
  [⟨0x01, .u8, .rwp, 37, 10, 60, 0⟩, ⟨0x02, .u16, .rwp, 600, 600, 850, 0⟩,
   ⟨0x03, .u16, .rw, 48, 8, 60, 0⟩, ⟨0x04, .u16, .rw, 24, 4, 56, 0⟩,
   ⟨0x05, .u16, .rwp, 25, 5, 200, 0⟩, ⟨0x06, .u16, .rw, 1000, 100, 10000, 0⟩]

/-- The entries of 0x6000. -/
def listing6000 : List Row :=
  [roRow 0x01 .u16 250 0, roRow 0x02 .u16 250 0, ⟨0x03, .u16, .rw, 0, 0, 65535, 0⟩,
   roRow 0x04 .u16 0 0, roRow 0x05 .f32 0 0, roRow 0x06 .f32 0 0,
   ⟨0x07, .u32, .rwp, 100, 10, 60000000, 0⟩, ⟨0x08, .u16, .crit, 250, 0, 65535, 0⟩,
   roRow 0x09 .u64 0 0, roRow 0x0A (.blob 4) 0 0, roRow 0x0B .u8 2 0]

/-- The entries of 0x6010. -/
def listing6010 : List Row :=
  [roRow 0x01 .u16 64 0, roRow 0x02 .u16 64 0, ⟨0x03, .u16, .rw, 0, 0, 65535, 0⟩,
   roRow 0x04 .u16 1000 0, ⟨0x05, .u16, .crit, 64, 0, 65535, 0⟩]

/-- The entries of 0x6100. -/
def listing6100 : List Row :=
  [⟨0x01, (.blob 16), .crit, 0, 0, 0, 0⟩, roRow 0x02 .u8 0 0, ⟨0x03, .u8, .rw, 0, 0, 63, 0⟩,
   roRow 0x04 (.blob 16) 0 3, ⟨0x05, .bool, .crit, 0, 0, 1, 0⟩]

/-- The entries of 0x6200. -/
def listing6200 : List Row :=
  [⟨0x01, .u16, .crit, 0, 0, 65535, 0⟩, roRow 0x02 .u16 0 0]

/-- The entries of 0x6300. -/
def listing6300 : List Row :=
  [⟨0x01, .u8, .rw, 0, 0, 15, 0⟩, roRow 0x02 (.blob 64) 0 1, roRow 0x03 .u64 0 0,
   roRow 0x04 .u64 0 0]

/-- The entries of 0x6400. -/
def listing6400 : List Row :=
  [⟨0x01, .u8, .rw, 0, 0, 63, 0⟩, roRow 0x02 .i32 0 1, roRow 0x03 .i32 0 1,
   roRow 0x04 .i32 40000 1, roRow 0x05 .u8 0 1, roRow 0x06 .i32 0 1,
   ⟨0x07, .i32, .rwp, 95000, 70000, 105000, 0⟩, ⟨0x08, .i32, .rwp, 105000, 0, 4294967295, 0⟩,
   ⟨0x09, .i32, .rw, 45000, 0, 4294967295, 0⟩, roRow 0x0A .i32 0 0,
   ⟨0x0B, .u32, .rw, 0, 0, 4294967295, 0⟩]

/-- The entries of 0x7000. -/
def listing7000 : List Row :=
  [roRow 0x01 (.blob 24) 0 0, roRow 0x02 .bool 0 0, roRow 0x03 .u32 0 0, roRow 0x04 .u16 0 0,
   ⟨0x05, .u32, .wo, 0, 0, 4294967295, 0⟩, roRow 0x06 .u32 0 0, ⟨0x07, .u8, .rwp, 2, 1, 4, 0⟩,
   roRow 0x08 (.blob 16) 0 0, roRow 0x09 .u64 0 0, ⟨0x0A, .u16, .rw, 0, 0, 2047, 0⟩,
   ⟨0x0B, .u8, .rwp, 0, 0, 4, 0⟩, ⟨0x0C, .u8, .rwp, 2, 0, 4, 0⟩,
   ⟨0x0D, .u16, .rwp, 16, 1, 1000, 0⟩, roRow 0x0E .u64 0 0]

/-- The entries of 0x7010. -/
def listing7010 : List Row :=
  [roRow 0x01 .bool 0 0, roRow 0x02 .u32 0 0, roRow 0x03 .mtime 0 0]

/-- The entries of 0x7100. -/
def listing7100 : List Row :=
  [⟨0x01, .u16, .rw, 256, 0, 65535, 0⟩, roRow 0x02 .u64 0 1,
   ⟨0x03, .u32, .rwp, 0, 0, 1000000, 1⟩, ⟨0x04, .u32, .rwp, 0, 8, 86400000, 1⟩,
   roRow 0x05 .u32 0 1, ⟨0x06, .u8, .wo, 0, 0, 255, 1⟩, ⟨0x07, .bool, .crit, 0, 0, 1, 0⟩,
   roRow 0x08 .u8 0 1]

/-- The entries of 0x7200. -/
def listing7200 : List Row :=
  [⟨0x01, .u32, .wo, 0, 0, 4294967295, 0⟩, ⟨0x02, .u8, .crit, 0, 0, 255, 0⟩, roRow 0x03 .u8 0 0,
   roRow 0x04 (.blob 16) 0 0, roRow 0x05 .u32 0 0, roRow 0x06 .u32 0 0, roRow 0x07 .u32 0 0,
   roRow 0x08 .u32 0 0, roRow 0x09 .u32 0 0, roRow 0x0A .u32 0 0]

/-- The entries of 0x7300. -/
def listing7300 : List Row :=
  [⟨0x01, .bool, .wo, 0, 0, 1, 0⟩, roRow 0x02 .u8 0 0, roRow 0x03 (.blob 64) 0 0,
   roRow 0x04 .mtime 0 0]

/-- The entries of 0x7400. -/
def listing7400 : List Row :=
  [⟨0x01, .u16, .rw, 0, 0, 4095, 0⟩, roRow 0x02 .mtime 0 1, roRow 0x03 .u32 0 1,
   ⟨0x04, .u8, .rw, 0, 0, 15, 0⟩, roRow 0x05 .u64 0 0, roRow 0x06 (.blob 64) 0 0]

/-- The entries of 0x7500. -/
def listing7500 : List Row :=
  [roRow 0x01 .u32 0 0, roRow 0x02 .u32 0 0, ⟨0x03, .u32, .rw, 0, 0, 4294967295, 0⟩,
   roRow 0x04 (.blob 256) 0 3, roRow 0x05 .u16 0 0]

/-- The entries of 0x7510. -/
def listing7510 : List Row :=
  [⟨0x01, .u8, .rw, 0, 0, 3, 0⟩, roRow 0x02 (.blob 262144) 0 1]

/-- The entries of 0x8000. -/
def listing8000 : List Row :=
  [⟨0x01, .bool, .rwp, 1, 0, 1, 0⟩, ⟨0x02, .u32, .rwp, 10000, 1000, 3600000, 0⟩,
   ⟨0x03, .u16, .rw, 1000, 100, 10000, 0⟩, ⟨0x04, .f32, .rw, 897988541, 814313567, 953267991, 0⟩,
   roRow 0x05 .u64 0 0, roRow 0x06 .u64 0 0, roRow 0x07 .u64 0 0,
   ⟨0x08, .u32, .rwp, 60000, 1000, 3600000, 0⟩, ⟨0x09, .u32, .rwp, 60000, 1000, 3600000, 0⟩,
   ⟨0x0A, .u8, .rw, 4, 1, 12, 0⟩]

/-- The entries of 0x8100. -/
def listing8100 : List Row :=
  [⟨0x01, .u8, .rw, 0, 0, 107, 0⟩, roRow 0x02 .u8 0 1, roRow 0x03 .mtime 0 1, roRow 0x04 .u32 0 1]

/-- The entries of 0x8200. -/
def listing8200 : List Row :=
  [roRow 0x01 .u8 0 0, ⟨0x02, .u8, .rw, 0, 0, 31, 0⟩, roRow 0x03 (.blob 16) 0 2,
   ⟨0x04, .u8, .crit, 0, 0, 255, 0⟩, roRow 0x05 .u8 24 0, ⟨0x06, .bool, .crit, 0, 0, 1, 0⟩]

/-- The entries of 0x9000. -/
def listing9000 : List Row :=
  [roRow 0x01 .mtime 0 0, roRow 0x02 .u8 0 0, roRow 0x03 .u8 255 0, roRow 0x04 .u8 255 0,
   roRow 0x05 .i32 0 0, roRow 0x06 .u32 0 0, roRow 0x07 .u32 0 0, roRow 0x08 .u64 0 0,
   roRow 0x09 .u16 0 0]

/-- The entries of 0x9010. -/
def listing9010 : List Row :=
  [⟨0x01, .u32, .crit, 0, 0, 4294967295, 0⟩, ⟨0x02, .u32, .crit, 0, 0, 4294967295, 0⟩,
   ⟨0x03, .u16, .rwp, 50, 10, 10000, 0⟩, ⟨0x04, .mtime, .crit, 0, 0, 18446744073709551615, 0⟩,
   roRow 0x05 .u32 0 0]

/-- The entries of 0x9020. -/
def listing9020 : List Row :=
  [⟨0x01, .u16, .rw, 10, 2, 100, 0⟩, ⟨0x02, .u32, .rw, 4000, 400, 4000000, 0⟩,
   ⟨0x03, .u16, .rw, 20, 1, 200, 0⟩, ⟨0x04, .u32, .rw, 60, 1, 86400, 0⟩,
   ⟨0x05, .u8, .rw, 0, 0, 11, 0⟩, ⟨0x06, .i32, .rwp, 0, 0, 4294967295, 5⟩, roRow 0x07 .u32 0 5,
   roRow 0x08 .u64 0 5]

/-- The entries of 0xA000. -/
def listingA000 : List Row :=
  [⟨0x01, (.blob 40), .crit, 0, 0, 0, 0⟩, ⟨0x02, (.blob 40), .crit, 0, 0, 0, 0⟩,
   ⟨0x03, (.blob 40), .crit, 0, 0, 0, 0⟩, ⟨0x04, (.blob 40), .crit, 0, 0, 0, 0⟩,
   roRow 0x05 .u64 0 0, roRow 0x06 .u64 0 0, roRow 0x07 .u64 0 0, roRow 0x08 .u64 0 0,
   roRow 0x09 .u8 1 0, roRow 0x0A .u64 0 0]

/-- The entries of 0xA100. -/
def listingA100 : List Row :=
  [⟨0x01, .u32, .crit, 0, 0, 4294967295, 0⟩, ⟨0x02, (.blob 1032), .wo, 0, 0, 0, 0⟩,
   ⟨0x03, .bool, .crit, 0, 0, 1, 0⟩, roRow 0x04 .u8 0 0, ⟨0x05, .bool, .crit, 0, 0, 1, 0⟩,
   ⟨0x06, .u32, .rwp, 600, 60, 86400, 0⟩, roRow 0x07 .u8 0 0, roRow 0x08 .u32 0 0,
   roRow 0x09 .u32 0 0, roRow 0x0A .u8 0 0, roRow 0x0B .u32 0 0]

/-- The entries of 0xA200. -/
def listingA200 : List Row :=
  [⟨0x01, .bool, .crit, 0, 0, 1, 0⟩, roRow 0x02 .u8 0 0, ⟨0x03, .bool, .crit, 0, 0, 1, 0⟩]

/-- The entries of 0xB000. -/
def listingB000 : List Row :=
  [⟨0x01, .u32, .rw, 100, 10, 10000, 0⟩, ⟨0x02, .bool, .rw, 0, 0, 1, 0⟩,
   ⟨0x03, .u8, .rw, 0, 0, 63, 0⟩, ⟨0x04, .u16, .rw, 0, 0, 65535, 0⟩,
   ⟨0x05, .u8, .rw, 0, 0, 255, 0⟩, ⟨0x06, .u64, .rw, 0, 0, 68719476735, 0⟩,
   ⟨0x07, .u16, .rw, 1000, 0, 1000, 0⟩, roRow 0x08 .u64 0 0, roRow 0x09 .bool 0 0,
   roRow 0x0A .u64 0 0, roRow 0x0B .u64 0 0, roRow 0x0C .u64 0 0, ⟨0x0D, .u8, .rw, 0, 0, 11, 0⟩,
   roRow 0x0E (.blob 64) 0 13]

/-- R457, R458: the whole map, index by index. -/
def listings : List (Nat × List Row) :=
  [(0x1000, listing1000), (0x1010, listing1010), (0x1020, listing1020), (0x2000, listing2000),
   (0x2010, listing2010), (0x2100, listing2100), (0x2200, listing2200), (0x2300, listing2300),
   (0x2400, listing2400), (0x2410, listing2410), (0x2500, listing2500), (0x2600, listing2600),
   (0x3000, listing3000), (0x3100, listing3100), (0x3200, listing3200), (0x3300, listing3300),
   (0x3400, listing3400), (0x3500, listing3500), (0x3510, listing3510), (0x3600, listing3600),
   (0x3700, listing3700), (0x3710, listing3710), (0x3800, listing3800), (0x3900, listing3900),
   (0x3A00, listing3A00), (0x4000, listing4000), (0x4010, listing4010), (0x4020, listing4020),
   (0x4100, listing4100), (0x4200, listing4200), (0x4210, listing4210), (0x4300, listing4300),
   (0x4400, listing4400), (0x4500, listing4500), (0x4510, listing4510), (0x4520, listing4520),
   (0x4530, listing4530), (0x4600, listing4600), (0x4610, listing4610), (0x4620, listing4620),
   (0x4630, listing4630), (0x5000, listing5000), (0x5100, listing5100), (0x5200, listing5200),
   (0x5300, listing5300), (0x5310, listing5310), (0x6000, listing6000), (0x6010, listing6010),
   (0x6100, listing6100), (0x6200, listing6200), (0x6300, listing6300), (0x6400, listing6400),
   (0x7000, listing7000), (0x7010, listing7010), (0x7100, listing7100), (0x7200, listing7200),
   (0x7300, listing7300), (0x7400, listing7400), (0x7500, listing7500), (0x7510, listing7510),
   (0x8000, listing8000), (0x8100, listing8100), (0x8200, listing8200), (0x9000, listing9000),
   (0x9010, listing9010), (0x9020, listing9020), (0xA000, listingA000), (0xA100, listingA100),
   (0xA200, listingA200), (0xB000, listingB000)]

/-- The listing of one entry, none where it is absent (R457). -/
def rowOf (index sub : Nat) : Option Row :=
  match listings.find? (fun g => g.1 == index) with
  | none => none
  | some g => g.2.find? (fun r => r.sub == sub)

/-- The number of an entry: index and sub-index in one. -/
def entryNo (index sub : Nat) : Nat := index * 256 + sub

/-- R463: the select entries. -/
def selectEntries : List Nat :=
  [0x200003, 0x210001, 0x220001, 0x240001, 0x260002, 0x310002, 0x320001, 0x330002, 0x340002,
   0x360001, 0x370001, 0x370002, 0x370004, 0x370006, 0x371001, 0x3A0002, 0x400001, 0x401001,
   0x420001, 0x421001, 0x450004, 0x461003, 0x463006, 0x510001, 0x520001, 0x530001, 0x610003,
   0x630001, 0x640001, 0x710001, 0x740001, 0x740004, 0x750003, 0x751001, 0x810001, 0x820002,
   0x902005, 0xB0000D]

/-- Whether an entry is a select entry (R463). -/
def isSelect (index sub : Nat) : Bool := selectEntries.contains (entryNo index sub)

/-- The entries that the device persists itself, beside the RWP entries (R466 and the index map):
plan hash, start-up caps. Other values it persists have their own place in `Flash`. -/
def devicePersisted : List Nat := [0x260004, 0x600008, 0x601005]

/-- Whether a stored number is kept in flash (R7, R466). -/
def isPersisted (index sub : Nat) : Bool :=
  devicePersisted.contains (entryNo index sub) ||
    (match rowOf index sub with
     | some r => r.acc == .rwp
     | none => false)

/-- The scopes of the index map. -/
inductive Scope where
  | inst | shared | package | master
  deriving DecidableEq, Repr

/-- The scope of an entry (the index map of the dictionary reference, with 0x8000.09 at the master). -/
def scopeOf (index sub : Nat) : Scope :=
  if index = 0x3200 ∨ index = 0x3300 ∨ index = 0x3700 ∨ index = 0x3710 ∨ index = 0x4200 ∨
     index = 0x4210 then .shared
  else if index = 0x3800 ∧ (sub = 3 ∨ sub = 4 ∨ sub = 0xA) then .shared
  else if index = 0x5300 ∨ index = 0x5310 then .package
  else if (index = 0x6010 ∧ sub ≠ 3) ∨ index = 0x9010 ∨ (index = 0x8000 ∧ sub = 9) then .master
  else .inst

end Sys2Proof.Machine
end

