-- ==== Sys2Proof/Config.lean ====
section
/-! DEFINITION. What one part fixes at manufacture or test, and the values the spec leaves open. Every
`opaque` constant is a free value: no proof can see what it is. Notes: notes/assumptions. -/

namespace Sys2Proof.Config

/-- R443: the serial number set at manufacture (0x1000.03). [log 8, DESIGN CHOICE] -/
opaque serial : BitVec 64

/-- R442: the key of slot 0, provisioned at manufacture. [log 8, DESIGN CHOICE] -/
opaque slot0Key : BitVec 256

/-- R447: the x coordinate of the Normieri image key in the boot ROM. [log 8, DESIGN CHOICE] -/
opaque imageKeyX : Nat

/-- R447: the y coordinate of the Normieri image key in the boot ROM. [log 8, DESIGN CHOICE] -/
opaque imageKeyY : Nat

/-- 0x5300.02: steps of 25 MHz above 850 MHz of a Sextant unit's fused maximum, "set at test". [log 8, DESIGN CHOICE] -/
opaque fusedSteps : Fin 16 → Fin 7

/-- 0x5300.02: the fused maximum of a unit in MHz, 850 to 1,000 in 25 MHz steps. -/
def fusedMax (unit : Fin 16) : Nat := 850 + 25 * (fusedSteps unit).val

/-- R406: the coefficients set at test that weight the activity counters, in nJ per counter unit, by block. [log 8, DESIGN CHOICE] -/
opaque energyCoeff : (block : Nat) → Nat

/-- R406: how a rail current report corrects a coefficient: the spec gives no formula. [log 8, DESIGN CHOICE] -/
opaque correctedCoeff : (block : Nat) → (railMilliwatt : Nat) → (old : Nat) → Nat

/-- R412: a sensor's thermal response in mK to the counted energy of each block in the last millisecond, "with
resistances and time constants set at test", from the response before. [log 8, DESIGN CHOICE] -/
opaque thermalResponse : (sensor : Nat) → (before : Int) → (energies : List (Nat × Nat)) → Int

/-- R412: the full-load steady state response of a sensor, in mK above the coolant. [log 8, DESIGN CHOICE] -/
opaque steadyResponse : Nat → Int

/-- R207: the smallest slack, in ps, that a unit's margin monitors saw during Meridian minute `minute`
at frequency `mhz`. [log 8, DESIGN CHOICE] -/
opaque marginSlack : (unit : Fin 16) → (minute : Nat) → (mhz : Nat) → Nat

/-- R354: the step of the proportional-integral loop in units of 0.01 ppm: the spec gives the
structure of the loop and its limit, but no gains. Arguments: the filtered offset in mt and the loop's
value before. [log 8, DESIGN CHOICE] -/
opaque slewLoop : (offset : Int) → (before : Int) → Int

/-- R354: the filtered offset made of the newest sample and the one before: the spec names a filter
(R348, R354) and gives no formula. [log 8, DESIGN CHOICE] -/
opaque offsetFilter : (sample : Int) → (before : Int) → Int

/-- R448: how long a write of a boot record copy takes, in mt. [log 8, DESIGN CHOICE] -/
opaque programTime : Nat

/-- R387: the snapshot of a ring unit: the spec gives its size, not its content. [log 8, DESIGN CHOICE] -/
opaque snapshotByte : (dump : Nat) → (unit : Nat) → (position : Nat) → Byte

/-- R440: the tray controller's address, which the spec names and does not give. [log 8, DESIGN CHOICE] -/
opaque trayAddress : BitVec 48

/-- R435: the XID of a frame that the device sends of its own, by OP and event number: the spec gives none. [log 8, DESIGN CHOICE] -/
opaque ownXid : BitVec 8 → Nat → BitVec 16

/-- R319: the step that a receiver's own tap search asks for next on a lane, "the receiver's own": 0 for none, or 1 to 8 for
an increase and a decrease of pre2, pre1, main and post1. [log 8, DESIGN CHOICE] -/
opaque tapSearch : (lane : Nat) → (step : Nat) → Fin 9

/-- R484: the IDCODE of the device, the length of the TAP's instruction register, and the instruction that a code other than
all ones selects: the spec gives none of them. [log 8, DESIGN CHOICE] -/
opaque idCode : BitVec 32
/-- Log entry. [log 8, DESIGN CHOICE] -/
opaque tapIrLength : Nat
/-- Log entry. [log 8, DESIGN CHOICE] -/
opaque tapCode : List Bool → Fin 5

/-- R329: how the running adaptation of a lane moves its CTLE (tap 0) or a DFE tap (1 to 12) at a local time: down, not, up. [log 8, DESIGN CHOICE] -/
opaque adaptStep : (lane : Nat) → (tap : Nat) → (now : Nat) → Fin 3

/-- Free values: value number `n` of width `w`. A step that meets a value the spec leaves open takes
the next number from the counter `free` of the state. [log 8, DESIGN CHOICE] -/
opaque freeValue : (w : Nat) → Nat → BitVec w

/-- R390: the byte length of a master's dump, and of the dump of another inst of the cascade (R387). -/
def dumpBytes (master : Bool) : Nat := if master then 185 * 1024 else 153 * 1024

end Sys2Proof.Config
end

