-- ==== Sys2Proof/Machine/State.lean ====
section
/-! DEFINITION. The state of one device (one inst of a cascade) as plain data, the reasons a step can
stop, and the state right after reset. The word for a cascade inst is written `inst` throughout. -/

namespace Sys2Proof.Machine

/-- Why a step faults. No rule of the spec stops the block, and no meaning of this model faults: every
event has the effect its rule gives. The one constructor is never raised and stands for the type. -/
inductive Fault where
  /-- Raised by nobody. Safe: a fault only withholds a next state. -/
  | unreachable
  deriving DecidableEq, Repr

/-- Why a step refuses. -/
inductive Refusal where
  /-- Raised by an arm of `exec` whose command has no meaning yet. Safe: it withholds a next state. -/
  | notModelled (mnemonic : String)
  deriving DecidableEq, Repr

/-- R10: the status codes, and the reserved ones by number. -/
inductive Status where
  | ok | poisoned | notPerformed | outcomeUnknown | denied | noWindow | cancelled | targetAbsent
  | retired | oversize | slotBusy
  deriving DecidableEq, Repr

/-- R12: the severities, lowest first. -/
inductive Severity where
  | note | corrected | degraded | severe | fatal
  deriving DecidableEq, Repr

/-- R13: the states of a port, in the order of the codes 0 to 6. -/
inductive PortState where
  | absent | training | quarantined | extra | up | degraded | limp
  deriving DecidableEq, Repr

/-- R303: the signalling stages. -/
inductive Stage where
  | a | b | c
  deriving DecidableEq, Repr

/-- R106: the states of a context, codes 0 to 3. -/
inductive CtxState where
  | off | enabled | draining | halted
  deriving DecidableEq, Repr

/-- R256: the states of a routing bank, codes 0 to 3. -/
inductive BankState where
  | free | ready | active | draining
  deriving DecidableEq, Repr

/-- R348: the time states, codes 0 to 3. -/
inductive TimeState where
  | unset | acquiring | locked | holdover
  deriving DecidableEq, Repr

/-- Where the device stands between power-up and service (R476, R477, R487, R448, R416). -/
inductive Phase where
  /-- PWR_GOOD is deasserted or RESET_N asserted: held in reset (R476, R477). -/
  | held
  /-- Released, but the PLLs have not locked (R476). -/
  | noPll
  /-- Neither image is valid: only 0x1000 and 0xA100 answer (R448). -/
  | recovery
  /-- In service. -/
  | running
  /-- CUT_WARN_N asserted in service (R416). -/
  | cut
  deriving DecidableEq, Repr

/-- Whose charge a packet's cells are on (R212). -/
inductive Account where
  /-- the ingress share of a port and VC -/
  | ingress (port vc : Nat)
  /-- the incast region (R220) -/
  | incast
  /-- a collective's staging account, by collective table entry (R222) -/
  | staging (coll : Nat)
  /-- the staging pool, under a pending entry (R165, R223) -/
  | pool
  /-- the loop-back account (R41, R219) -/
  | loopBack
  /-- a locally built response that holds its reservation in the response account (R217) -/
  | response
  /-- the egress share of a port and VC -/
  | egress (port vc : Nat)
  /-- the replay quota of a port (R280) -/
  | replay (port : Nat)
  /-- none yet: handed over the cascade bus for a port here that has no room, or a synthetic response that the response
  account has no room for (R217, R343) -/
  | waiting (port : Option Nat)
  deriving DecidableEq, Repr

/-- A data packet held in the central store (R19, R210, R212). -/
structure Pkt where
  id       : Nat
  /-- the 32-byte header as one little-endian value (R268) -/
  header   : BitVec 256
  payload  : Bytes
  acct     : Account
  /-- the port it came in on; none when built here -/
  inPort   : Option Nat
  /-- when it began to wait for routing (R244) -/
  since    : Mt
  /-- the link sequence number once transmitted (R280) -/
  seq      : Nat
  /-- the tracking entry of an own request, none for others -/
  own      : Option Nat
  /-- the collective's table entry and figure for own collective data (R166) -/
  coll     : Option (Nat × Nat)
  /-- a multicast copy that its local receive side still has to take (R253) -/
  hereToo  : Bool
  /-- acknowledged by the neighbour, while `hereToo` still keeps it (R253) -/
  acked    : Bool
  /-- a response built here that has been routed, and so stamped with a bank, at least once (R259) -/
  routed   : Bool
  /-- the bank served that its first row of cells lies in (R211) -/
  bank     : Nat
  /-- payload units found in error since it was transmitted, which its header does not show (R224, R285) -/
  spoiled  : BitVec 8
  deriving DecidableEq, Repr

/-- The kinds of remote operation (R66). -/
inductive OpKind where
  | load | store | atomicFetch | atomicPost | notify
  deriving DecidableEq, Repr

/-- Where an operation comes from (R83, R132). -/
inductive Origin where
  /-- an aperture request: host port channel, thread tag, host address -/
  | aperture (chan : Nat) (thread : BitVec 16) (addr : BitVec 64)
  /-- a piece of a command: command number, and whether it is the LOAD that a STORE follows (R122) -/
  | command (num : Nat) (feeds : Bool)
  /-- the re-issue to a lender of the looped-back operation under this tracking tag, round and generation (R49, R82) -/
  | lender (tag round : Nat) (gen : BitVec 8)
  deriving DecidableEq, Repr

/-- The notification fields of a STORE or NOTIFY (R93, R98). -/
structure Notify where
  nctx   : Nat
  nctr   : Nat
  msgid  : Nat
  msglen : Nat
  last   : Bool
  deriving DecidableEq, Repr

/-- One side of a command or operation as translated (R117, R118): the node, whether it is looped back, and
the incarnation it is stamped with (R58). -/
structure Side where
  node : NodeId
  loop : Bool
  inc  : BitVec 8
  deriving DecidableEq, Repr

/-- A remote operation from its translation to its completion (R79 to R92). -/
structure Op where
  id      : Nat
  ctx     : Nat
  origin  : Origin
  kind    : OpKind
  strict  : Bool
  /-- the target, with the destination incarnation; looped back under R41 -/
  side    : Side
  key     : BitVec 16
  /-- the source incarnation (R58) -/
  sinc    : BitVec 8
  window  : Nat
  offset  : Nat
  len     : Nat
  data    : Bytes
  poison  : BitVec 8
  args    : AtomicArgs
  notify  : Option Notify
  /-- stream position of the piece in its command (R119) -/
  pos     : Nat
  /-- destination of the STORE that follows a LOAD of a copy: side, window, offset -/
  dest    : Option (Side × Nat × Nat)
  /-- local clock when it began to wait (R219, R295) -/
  held    : Mt
  /-- local clock of its last credit probe (R295) -/
  probed  : Mt
  /-- whether its hold is counted already (R139, R219) -/
  counted : Bool
  /-- local clock since which it waits for room at the egress (R219, R244) -/
  room    : Option Mt
  /-- a re-issue to a lender that the present window drain waits for (R64) -/
  drained : Bool
  deriving DecidableEq, Repr

/-- An open tracking entry (R80, R82). -/
structure Track where
  op    : Op
  round : Nat
  gen   : BitVec 8
  /-- transmitted, or charged to the loop-back account (R104) -/
  sent  : Bool
  /-- credit was spent on it (R139) -/
  paid  : Bool
  /-- Meridian time of issue (R376) -/
  at_   : Nat
  /-- routing table epoch it was issued under (R91) -/
  epoch : Nat
  deriving DecidableEq, Repr

/-- A tracking block that is not free or whose round is not 0 (R80, R82, R384). -/
structure Block where
  owner  : Option Nat
  gen    : BitVec 8
  used   : Nat
  closed : Bool
  round  : Nat
  last   : Mt
  /-- it held an operation that R82 keeps it out of the pool for -/
  stale  : Bool
  /-- local clock since which the 10 ms hold runs -/
  hold   : Option Mt
  deriving DecidableEq, Repr

/-- A strict stream with outstanding operations or under a hold (R87, R90, R92). -/
structure Stream where
  ctx    : Nat
  node   : NodeId
  open_  : List Nat
  /-- tags that must complete before the hold ends -/
  hold   : List Nat
  deriving DecidableEq, Repr

/-- A message with notification at its requester (R93, R95, R97). -/
structure MsgOut where
  ctx    : Nat
  cmd    : Nat
  /-- number of the message in its command (R119) -/
  part   : Nat
  /-- bytes of the message whose packets have not completed -/
  left   : Nat
  /-- a packet was acknowledged with UNC = 1 -/
  unc    : Bool
  /-- a packet ended with a status other than OK -/
  bad    : Bool
  /-- its NOTIFY has been sent (R95) -/
  told   : Bool
  deriving DecidableEq, Repr

/-- A message table entry at the target (R93, R96). -/
structure MsgIn where
  nctx : Nat
  nctr : Nat
  key  : BitVec 16
  want : Nat
  got  : Nat
  last : Mt
  deriving DecidableEq, Repr

/-- A write-ack accumulator (R85). -/
structure Accum where
  id     : Nat
  /-- header of the first acknowledged request, from which the response header is built -/
  header : BitVec 256
  sinst  : Nat
  src    : NodeId
  base   : Nat
  round  : Nat
  map    : BitVec 64
  since  : Mt
  deriving DecidableEq, Repr

/-- A sender credit entry (R139, R143, R294). -/
structure Sender where
  sent  : Nat
  limit : Nat
  /-- generation of the destination context, none before the first grant -/
  gen   : Option (BitVec 8)
  open_ : Nat
  last  : Mt
  deriving DecidableEq, Repr

/-- A grant table entry (R140, R141, R143). -/
structure Grant where
  acc    : Nat
  limit  : Nat
  /-- L in the last grant sent -/
  told   : Nat
  /-- local clock of the first unsent rise -/
  rise   : Option Mt
  /-- order of service while it waits for a raise; 0 when it does not -/
  turn   : Nat
  last   : Mt
  key    : BitVec 16
  deriving DecidableEq, Repr

/-- What a memory access does (R73, R93, R152, R264). -/
inductive AccessKind where
  | load | store | chart
  /-- the landing of `n` elements of a piece of a figure: collective entry, figure, repetition, segment,
  piece -/
  | land (coll fig rep seg num n : Nat)
  deriving DecidableEq, Repr

/-- A request translated and handed to memory, not yet accepted (R47, R64, R88). -/
structure Access where
  id      : Nat
  kind    : AccessKind
  /-- the stored request packet it serves, none for a landing -/
  pkt     : Option Nat
  header  : BitVec 256
  /-- local address: near tier below 2^40, far tier from 2^40 -/
  addr    : Nat
  len     : Nat
  data    : Bytes
  poison  : BitVec 8
  loop    : Bool
  /-- the memory stack or far-tier die it goes to (R46, R88) -/
  ctrl    : Nat
  /-- translated before the present window drain was written (R64) -/
  drained : Bool
  /-- cells reserved for its response (R217) -/
  cells   : Nat
  /-- its message had no entry when it arrived (R95) -/
  unc     : Bool
  deriving DecidableEq, Repr

/-- The phase of an accepted command (R112, R125, R127, R132). -/
inductive CmdPhase where
  /-- accepted STAGE_IN waiting for its START -/
  | waiting
  /-- pieces are being issued -/
  | issuing
  /-- FENCE not yet met -/
  | fencing
  /-- BARRIER or COLL_START in the collective table -/
  | collective (entry : Nat)
  deriving DecidableEq, Repr

/-- An accepted command in progress (R112, R116 to R133). -/
structure Cmd where
  num    : Nat
  bytes  : BitVec 512
  phase  : CmdPhase
  src    : Side
  dst    : Side
  /-- the key and the own incarnation that its operations carry, as translated at acceptance (R61, R117) -/
  key    : BitVec 16
  sinc   : BitVec 8
  /-- stream position up to which pieces have been cut (R119) -/
  pos    : Nat
  total  : Nat
  /-- operations issued or held and not completed -/
  open_  : Nat
  /-- worst status so far under R133 -/
  status : Status
  /-- DEADLINE of a STAGE_IN has been counted late (R126) -/
  late   : Bool
  deriving DecidableEq, Repr

/-- An armed threshold (R137). -/
structure Threshold where
  ctr : Nat
  vec : Nat
  val : Nat
  deriving DecidableEq, Repr

/-- A failure record: 24 bytes in the layouts of 0x4000.0B and 0x4500.06. -/
abbrev FailRecord := Bytes

/-- One context (R105 to R145). -/
structure Ctx where
  state    : CtxState
  partEnt  : Nat
  mirror   : Nat
  drainUs  : Nat
  /-- drain time in force since it entered DRAINING, and when that was -/
  drainAt  : Mt
  drainFor : Nat
  gen      : BitVec 8
  accept   : Nat
  failed   : Nat
  first    : Option FailRecord
  counters : Tbl Nat
  /-- slots that hold a command not yet accepted (R110) -/
  slots    : Tbl (BitVec 512)
  cmds     : List Cmd
  /-- number of the command whose operation was taken last (R113) -/
  lastCmd  : Nat
  arms     : Tbl Threshold
  /-- interrupts that wait for the mirror write showing the firing value (R137) -/
  fired    : List Nat
  /-- since when an unwritten mirror change waits (R136) -/
  mirrorDue : Option Mt
  /-- the mirror write outstanding, with the vectors that follow its acceptance (R136, R137) -/
  mirrorOut : Option (Bytes × List Nat)
  /-- a further mirror write waits behind the outstanding one: its values are those of its issue (R136) -/
  mirrorNext : Bool
  /-- the disable sequence is finished but for the final mirror write (R144 step 6) -/
  halting  : Bool
  /-- aperture failures: count and first (R84) -/
  apFails  : Nat
  apFirst  : Option FailRecord
  deriving DecidableEq, Repr

/-- The routing tables of one bank (R239, R240, R247, R251). -/
structure RouteBank where
  routes     : Tbl (BitVec 8)
  selector   : Tbl Nat
  extents    : Tbl (BitVec 16)
  exceptions : Tbl (BitVec 64)
  deriving DecidableEq, Repr

/-- A dictionary transaction as it came in (R435, R436, R441). -/
structure DictReq where
  path   : Path
  xid    : BitVec 32
  /-- a WRITE, else a READ -/
  write  : Bool
  index  : Nat
  sub    : Nat
  auth   : Option Auth
  value  : Bytes
  offset : Nat
  len    : Nat
  /-- a submit of more than 1,536 bytes (R441), or a VLEN that disagrees with its payload -/
  tooLong : Bool
  deriving DecidableEq, Repr

/-- The tables of chapters 2 and 8 (R23, R34, R52, R254, R256). -/
structure Tables where
  rank      : Tbl (BitVec 32)
  inc       : Tbl (BitVec 8)
  windowDir : Tbl (BitVec 64)
  window    : Tbl (BitVec 64)
  /-- window table entries in error that have not been rewritten (R224) -/
  badWindow : List Nat
  bank0     : RouteBank
  bank1     : RouteBank
  st0       : BankState
  st1       : BankState
  epochNr   : Nat
  /-- scheduled flip, 0 for none (0x3800.04) -/
  flipAt    : Nat
  /-- T of the last flip (R260) -/
  flipped   : Nat
  /-- local clock since which the old-epoch count has been 0 -/
  quiet     : Option Mt
  part      : Tbl (BitVec 64)
  /-- port key flags, at port * 64 + entry: 1 deliver, 2 transit -/
  keyFlag   : Tbl Nat
  /-- minimum shares at port * 64 + entry -/
  share     : Tbl Nat
  /-- topology plan entries by port (R452) -/
  plan      : Tbl (BitVec 64)
  /-- a port has reached UP, DEGRADED or LIMP since reset (R256) -/
  worked    : Bool
  /-- own incarnation changed and no port has worked since (R60) -/
  retiredSelf : Bool
  /-- window drain in progress: when it was written, and the write to answer -/
  drain     : Option (Mt × DictReq)
  deriving DecidableEq, Repr

/-- The link layer of a port (R280 to R302). -/
structure Link where
  txEpoch   : Nat
  rxEpoch   : Nat
  next      : Nat
  unacked   : Nat
  expect    : Nat
  discard   : Bool
  /-- number of the next packet of a replay below E (R284) -/
  replaying : Option Nat
  /-- control sequence numbers (R288) -/
  cnext     : Nat
  cunacked  : Nat
  cexpect   : Nat
  /-- unacknowledged notices with their numbers, oldest first -/
  notices   : List (Nat × BitVec 256)
  /-- notices that wait for room in the replay buffer -/
  noticeQ   : List (BitVec 256)
  /-- a control NAK for the expected number is pending -/
  cnak      : Bool
  xoffRx    : BitVec 5
  xoffTx    : BitVec 5
  /-- largest round-trip sample of the open interval and of the last closed one, ns -/
  rttOpen   : Nat
  rttLast   : Nat
  rttAny    : Bool
  /-- a chart interval has closed since link start (R291) -/
  rttClosed : Bool
  replays   : Nat
  creplays  : Nat
  /-- since when the replay timers of data and of notices run -/
  timer     : Option Mt
  ctimer    : Option Mt
  /-- overrun delay: replay not before (R285), and the number the replay begins at -/
  waitUntil : Mt
  resend    : Option Nat
  /-- last valid control packet received (R292) -/
  heard     : Mt
  /-- packets accepted since the last DACK sent, and when the first came (R286) -/
  owed      : Nat
  owedSince : Mt
  statusAt  : Mt
  /-- last TSTAMP of the peer and its receipt -/
  peerStamp : BitVec 24
  peerAt    : Mt
  /-- the kept LINK_START (R301) -/
  kept      : Option (BitVec 256)
  seenByPeer : Bool
  startAt   : Mt
  /-- since when the link start limit runs -/
  startFrom : Option Mt
  /-- routed control packets that wait (R293) -/
  routedQ   : List (BitVec 256)
  /-- control packets beyond the first three kinds of R289 sent since the last data packet -/
  gap       : Nat
  /-- notices that wait to be sent again, and the number of the REPLAY_START that goes ahead of them (R288, R289) -/
  renotice  : List (BitVec 256)
  restart   : Option Nat
  /-- the deficit round robin of R255: each key's deficit in 1/65,536 byte, and the key in turn -/
  deficit   : Tbl Int
  turn      : Nat
  /-- chart budget in units of 1/960,000,000 byte and when it was last accrued (R265) -/
  budget    : Nat
  budgetAt  : Mt
  deriving DecidableEq, Repr

/-- A lane management command in progress on a port (R334). -/
structure Lmc where
  cmd    : Nat
  arg    : BitVec 8
  /-- sent by this side -/
  own    : Bool
  at_    : Mt
  /-- acknowledged, by the peer or here -/
  acked  : Bool
  /-- the countdown of this side's transmit direction and of its receive direction: CDOWN of the ACK that names it, and
  when that was sent or came -/
  tx     : Option (Nat × Mt)
  rx     : Option (Nat × Mt)
  /-- those directions have made their change -/
  txDone : Bool
  rxDone : Bool
  deriving DecidableEq, Repr

/-- What the entries of 0x2500 were when a stage attempt started (R465): its limit and check window in ms, and the error
ratio limit. -/
structure Attempt where
  limit  : Nat
  window : Nat
  ratio  : Nat
  deriving DecidableEq, Repr

/-- One port (R13, R303 to R346, R452 to R455). -/
structure Port where
  state     : PortState
  /-- the stage the port runs at, none before stage A completes -/
  stage     : Option Stage
  /-- the stage being trained -/
  trying    : Option Stage
  tryAt     : Mt
  attempt   : Attempt
  /-- 0x2500.06 as the training under way began with it (R314, R465) -/
  highest   : Nat
  link      : Link
  /-- the hail: outcome and failing check of 0x2600.05, and the HAIL last received -/
  outcome   : Nat
  check     : Nat
  hail      : Option (BitVec 256)
  /-- the hail the port was admitted with (R455) -/
  admitted  : Option (BitVec 256)
  /-- a HAIL has come since stage A completed -/
  hailed    : Bool
  /-- the peer's matching HAIL after stage B or C is held -/
  rehailed  : Bool
  reported  : Option (Nat × Nat)
  hailAt    : Mt
  hailFrom  : Mt
  /-- NEIGHBOUR_MISSING was reported for this absence -/
  missing   : Bool
  /-- no training before signal is detected (R300) -/
  waitSignal : Bool
  /-- stage of the peer's CAP, and its wishes for precoding -/
  peerCap   : BitVec 8
  /-- own and peer's width ceilings (R338) -/
  ceiling   : Nat
  peerCeil  : Nat
  txWidth   : Nat
  rxWidth   : Nat
  /-- the octets that each direction's block stream is dealt to, by physical number (R307) -/
  txOcts    : List Nat
  rxOcts    : List Nat
  lmc       : Option Lmc
  /-- commands that wait for the present one (R334) -/
  lmcQ      : List (Nat × BitVec 8)
  /-- stage shift in progress: its target and start -/
  shifting  : Option (Stage × Mt)
  /-- all lanes of the stage being trained are ready since (R319) -/
  readyAt   : Option Mt
  /-- START is being sent: the frames of its countdown, and since when (R321) -/
  starting  : Option (Nat × Mt)
  /-- local clock at which the peer's block stream begins, as its START counts down (R321) -/
  rxStart   : Option Mt
  /-- number of the next block in the transmit stream (R307) -/
  txBlock   : Nat
  /-- local clock at which that stream began (R332) -/
  streamFrom : Mt
  /-- octets are switched on again: the WIDTH that uses them follows; and the octets off that send frames (R338) -/
  widening  : Bool
  waking    : List Nat
  /-- lanes that have declared LOS or LOL and are not handled yet, and since when (R335) -/
  failing   : List Nat
  failAt    : Option Mt
  /-- both ends exchanged LINK_START with SEEN at stage A: next stage begins 10 µs later -/
  stepAt    : Option Mt
  /-- the stage above failed: the port starts at the stage it completed (R322) -/
  stopped   : Bool
  /-- port in pattern test mode (R345) -/
  test      : Bool
  /-- held off by the rack or under R415 -/
  heldOff   : Bool
  thermOff  : Bool
  /-- marked under R175 -/
  marked    : Bool
  /-- traffic other than paced V2 in the open chart interval, and none of it in the last one (R175) -/
  other     : Bool
  onlyPaced : Bool
  /-- V2 held by XOFF for want of staging space: the collective table entry, 64 for the pool (R222) -/
  collOff   : Option Nat
  /-- Meridian exchange (R353) -/
  bseq      : Nat
  t1        : Nat
  t2Rx      : Nat
  beaconAt  : Mt
  /-- beacons received since the last one sent -/
  fresh     : Nat
  delays    : List Int
  peerBeacon : Option (BitVec 256)
  peerBeaconAt : Mt
  /-- chart recording of the open interval (R262): samples at vc * 8 + bucket, bytes, hot -/
  hist      : Tbl Nat
  /-- time of transmitting and of receiving data packets, in 1/65,536 mt -/
  txTime    : Nat
  rxTime    : Nat
  xoffAt    : Option Mt
  xoffTime  : Nat
  hot       : List (BitVec 16 × Nat)
  /-- TXBUSY of the last closed interval, and its record -/
  busy      : Nat
  record    : Bytes
  /-- running lane slice: lane index and local start time, and the checks done (R420) -/
  slice     : Option (Nat × Mt)
  sliceRef  : Option Bool
  sliceTx   : Option Bool
  /-- number of the last slice that started or was skipped (R418) -/
  sliceNo   : Option Nat
  deriving DecidableEq, Repr

/-- What a lane found in training at a stage, and keeps for it (R321, R338, R339). -/
structure Setting where
  taps      : Int × Int × Int × Int
  ctle      : Nat
  dfe       : Bytes
  precodeTx : Bool
  precodeRx : Bool
  deriving DecidableEq, Repr

/-- One lane (R304, R309 to R331). -/
structure Lane where
  /-- codes of 0x2100.02 -/
  role     : Nat
  /-- logical position carried in the receive direction, 15 for none -/
  pos      : Nat
  los      : Bool
  lol      : Bool
  losAt    : Mt
  lolAt    : Mt
  /-- the last training set without TSCNT, as 32 bytes read little-endian, and how often it came in a row -/
  set_     : BitVec 256
  sets     : Nat
  /-- training sets in a row that began with K28.5 and held no invalid code group -/
  commas   : Nat
  aligned  : Bool
  offset   : Nat
  slipAt   : Mt
  /-- bits slipped since it last gained bit lock (R311, R312) -/
  slips    : Nat
  /-- running disparity received: positive -/
  disparity : Bool
  /-- the transmitter's own: running disparity and training set count (R309, R310) -/
  txRd     : Bool
  tscnt    : Nat
  /-- local clock of the last K28.5, or of the last frame marker, for the deskew (R312, R319) -/
  markAt   : Mt
  /-- marker lock of the stage being trained, since (R319, R338) -/
  marker   : Option Mt
  /-- the peer is asked for the preset of the channel type (R319) -/
  preset   : Bool
  /-- requests to the peer's transmitter in the form of REQ, and steps asked so far (R319) -/
  reqOut   : BitVec 8
  steps    : Nat
  /-- precoding that the receiver wanted at stages B and C last, for CAP (R310, R316) -/
  wantB    : Bool
  wantC    : Bool
  /-- the settings held for stages B and C, not over a link down (R340, R489) -/
  setB     : Option Setting
  setC     : Option Setting
  /-- the last precoded level sent in the stage (R316) -/
  txW      : Nat
  /-- register of the pattern generator, and the bits sent in test mode (R345) -/
  gen      : Nat
  testBits : Nat
  /-- LANEID and STATUS of the peer's settled training set -/
  peerLane : BitVec 8
  peerStatus : BitVec 8
  /-- transmit taps pre2, pre1, main, post1, their STS, and the REQ last acted on -/
  taps     : Int × Int × Int × Int
  tapSts   : BitVec 8
  tapReq   : BitVec 8
  ctle     : Nat
  dfe      : Bytes
  /-- local clock at which its receiver began to adapt from its start values (R319, R329) -/
  adaptFrom : Mt
  precodeTx : Bool
  precodeRx : Bool
  rxReady  : Bool
  peerReady : Bool
  /-- last check window: errors and bits -/
  errors   : Nat
  bits     : Nat
  failed   : Bool
  /-- corrected symbols with their times, newest first (R325) -/
  recent   : List (Mt × Nat)
  /-- the present FEC frame has set the flag, and consecutive earlier frames that did (R331) -/
  flagFrame : Bool
  flagRun  : Nat
  flagged  : Bool
  /-- committed repair: the lane is powered down (R427) -/
  fused    : Bool
  deriving DecidableEq, Repr

/-- One octet (R304, R306, R451). -/
structure Octet where
  /-- codes of 0x2200.05 -/
  state   : Nat
  channel : Nat
  /-- octet unusable in the peer's view (STATUS bit 4) -/
  peerBad : Bool
  /-- position carried on SP in the receive and in the transmit direction -/
  rxSpare : Option Nat
  txSpare : Option Nat
  /-- the FEC frame being received, and the uncorrectable codewords of the last frames (R325) -/
  frame   : Nat
  badWords : List (Nat × Nat)
  /-- FEC frames sent since the last one with injected errors, and frames still to inject in (R346) -/
  injectAt : Nat
  injectLeft : Nat
  /-- the data bytes of the FEC frame being filled for sending (R307, R324) -/
  txData  : Bytes
  /-- the lane whose position SP carries in the transmit direction carries no data any more (R334, R420) -/
  txFreed : Bool
  deriving DecidableEq, Repr

/-- A card held in a slot: header and figures (R147). -/
abbrev Card := Bytes

/-- A place in the run of a figure: repetition, segment and piece (R150, R151). -/
structure Place3 where
  rep : Nat
  seg : Nat
  num : Nat
  deriving DecidableEq, Repr

/-- Progress of one figure (R150 to R152, R166). -/
structure Fig where
  /-- the piece to send next -/
  send    : Place3
  /-- the piece to take next -/
  recv    : Place3
  /-- pieces taken and not finished, with the elements left to combine and left to land -/
  busy    : List (Place3 × Nat × Nat)
  /-- its progress count was raised (R155) -/
  told    : Bool
  deriving DecidableEq, Repr

/-- The combined elements of a part of a piece that is to be passed on (R180): FP32 or INT32 values from
element `lo` of the piece, with their poison marks. -/
structure Part where
  figure : Nat
  at_    : Place3
  lo     : Nat
  vals   : List (BitVec 32)
  marks  : List Bool
  deriving DecidableEq, Repr

/-- A collective table entry (R156). -/
structure Coll where
  ctx     : Nat
  cmd     : Nat
  key     : BitVec 16
  collid  : BitVec 32
  bytes   : BitVec 512
  card    : Option Card
  leader  : Bool
  t0      : Option Nat
  started : Bool
  figs    : Tbl Fig
  parts   : List Part
  poison  : Bool
  abort   : Option Status
  /-- lag by source port in units of 16 ns; 12 for its own (R173) -/
  lags    : Tbl Nat
  /-- port rates when its figures started, in 1/60 byte per ns (R172) -/
  rates   : Tbl Nat
  /-- the rates of its ports and units when its lag was computed last (R172) -/
  seen    : List Nat
  tRel    : Option Nat
  /-- its release time was past when it learned it (R171) -/
  late    : Bool
  /-- its release time has come: its RELEASE frames are booked (R170) -/
  driven  : Bool
  deriving DecidableEq, Repr

/-- A pending notice or a pending entry made by data (R161, R165). -/
structure Pend where
  key    : BitVec 16
  collid : BitVec 32
  /-- the ANNOUNCE and the port it came on; none while only data has come -/
  notice : Option (Nat × BitVec 256)
  deriving DecidableEq, Repr

/-- What a request to a Sextant unit asks for (R180). -/
inductive UnitWork where
  /-- an atomic on the word at a local address; `bad` when its operand block is poisoned (R101) -/
  | atomic (header : BitVec 256) (addr len : Nat) (args : AtomicArgs) (bad loop : Bool)
  /-- elements `lo` to `lo + n - 1` of a piece of a figure -/
  | piece (coll fig : Nat) (at_ : Place3) (lo n : Nat)
  deriving DecidableEq, Repr

/-- A request in a Sextant unit's input queue (R181). -/
structure UnitReq where
  work  : UnitWork
  bytes : Nat
  deriving DecidableEq, Repr

/-- An open line of a unit (R201): its number and the local clock of its opening; for a far-tier line the bytes the unit
holds, whether the line was poisoned when it was read, and whether an atomic or a landing has changed them (R203). -/
structure OpenLine where
  line  : Nat
  since : Mt
  data  : Bytes
  bad   : Bool
  dirty : Bool
  deriving DecidableEq, Repr

/-- One Sextant unit (R180 to R208). -/
structure SextUnit where
  freq    : Nat
  inService : Bool
  /-- this inst's input queue (R181) -/
  queue   : List UnitReq
  lines   : List OpenLine
  /-- accesses that a released line kept waiting, by line: they go before it opens again (R201) -/
  yielding : List (Nat × Nat)
  /-- back-pressure toward this inst since -/
  press   : Option Mt
  /-- pieces taken from the queue in the last 10 µs: local clock and wire bytes (R200) -/
  taken   : List (Mt × Nat)
  /-- the collectives that a back-pressure which has lasted 10 µs slows (R172, R200) -/
  slow    : Option (List Nat)
  marked  : Bool
  /-- work other than paced collectives in the open chart interval, and none of it in the last (R175) -/
  other   : Bool
  onlyPaced : Bool
  /-- Meridian time of a scheduled frequency change (R206) -/
  change  : Option Nat
  /-- minute slack bookkeeping and slices in a row with enough slack (R426) -/
  goodRun : Nat
  deriving DecidableEq, Repr

/-- One bank of the central store (R226, 0x4630.07). -/
structure Bank where
  /-- codes of 0x4630.07 -/
  state : Nat
  /-- the spare being copied into (R226), or holding the bank's rows during a test (R423) -/
  spare : Option Nat
  /-- the row that the scrubber reads next, and the local clock at which its pass began (R225) -/
  row   : Nat
  passAt : Mt
  deriving DecidableEq, Repr

/-- The Meridian unit (R347 to R362). -/
structure Meridian where
  count    : Nat
  state    : TimeState
  stratum  : Nat
  upstream : Nat
  master   : NodeId
  isMaster : Bool
  filtered : Int
  /-- accepted samples in a row within the bound -/
  good     : Nat
  /-- samples in a row beyond 32 mt while LOCKED -/
  bad      : Nat
  everLocked : Bool
  /-- the count when the device first counted as LOCKED (R358) -/
  firstAt  : Nat
  slew     : Int
  /-- hundredths of ppm gathered but not yet applied -/
  frac     : Int
  /-- half rate: the count must stand until the source catches up -/
  halfRate : Bool
  halfPhase : Bool
  holdFrom : Option Mt
  holdTold : Bool
  lastHold : Nat
  merRefAt : Option Mt
  /-- the loss of MER_REF has been noted; an accepted edge ends it (R357) -/
  refGone  : Bool
  setTo    : Option Nat
  /-- listening time of R350 and R493 began -/
  listenFrom : Mt
  listenStb : Mt
  /-- the last forward step: the count before it and after it (R361) -/
  stepFrom : Nat
  stepTo   : Nat
  /-- the next sample is the first since UNSET (R348) -/
  first    : Bool
  /-- last beacon that names the designated master with a stratum below 128, and one naming the standby -/
  heardDes : Option Mt
  heardStb : Option Mt
  /-- at an inst other than 0: the holdover flag of the upstream of inst 0 (R353) -/
  upHold   : Bool
  /-- local clock of the last usable upstream beacon -/
  upAt     : Mt
  /-- samples of ports of other insts: (inst * 12 + port) ↦ offset, master, stratum, holdover, time -/
  remote   : Tbl (Int × NodeId × Nat × Bool × Mt)
  /-- the minute in progress, and its flags (R362) -/
  minute   : Nat
  flagUnlocked : Bool
  flagStepped : Bool
  flagHold : Bool
  deriving DecidableEq, Repr

/-- A fault message with its full Meridian time (R363, R369). -/
structure Msg where
  bits : BitVec 128
  time : Nat
  /-- the faults that started the resets running when it was raised (R370) -/
  roots : List (BitVec 128)
  deriving DecidableEq, Repr

/-- The count of one fault source (R367). -/
structure Source where
  /-- the present slot first, then the seven before it -/
  slots  : List Nat
  /-- local clock at which the slots restarted, and slot boundaries passed since -/
  epoch  : Mt
  passed : Nat
  severe : Bool
  /-- messages logged, and held back, in the present second (R366) -/
  logged : Nat
  held   : Nat
  deriving DecidableEq, Repr

/-- A reset that runs (R377 to R383). -/
structure Running where
  level  : Nat
  target : Nat
  start  : Mt
  /-- the fault messages that started it, or the resets that it escalated from (R370) -/
  causes : List (BitVec 128)
  /-- the contexts that this reset reached first (R379) -/
  ctxs   : List Nat
  deriving DecidableEq, Repr

/-- The fault collector, the reset sequencer and the dump (R363 to R393). -/
structure Faults where
  intake   : List Msg
  latch    : Option Msg
  overflow : Bool
  overCount : Nat
  /-- first overflow interrupt since latching was sent -/
  overTold : Bool
  merges   : Nat
  seqNr    : Nat
  last     : BitVec 128
  sources  : Tbl Source
  /-- the last second of the log rate that has ended (R366) -/
  second   : Nat
  running  : List Running
  lastEsc  : Bytes
  dump     : Nat
  /-- number of the dump in the buffer, and the words that each unit which stopped for 50 µs had given (R388) -/
  dumpNr   : Nat
  dumpWords : Tbl Nat
  dumpAt   : Nat
  /-- local clock at which the dump is read to its end -/
  dumpRead : Mt
  reasons  : BitVec 32
  raisedAt : Option Nat
  deriving DecidableEq, Repr

/-- A pending step of the power envelope schedule (R401). -/
structure CapStep where
  time : Nat
  icap : Nat
  scap : Nat
  prepared : Bool
  deriving DecidableEq, Repr

/-- One thermal sensor and its model (R411 to R413). -/
structure Sensor where
  reading : Int
  /-- the model's response above the coolant -/
  response : Int
  failed  : Bool
  /-- since when each failing case holds without a break, by case -/
  badFrom : Tbl Mt
  /-- last value that moved by 100 mK, when, and the counted power then -/
  moved   : Int
  movedAt : Mt
  movedPow : Nat
  /-- the temperature used stands at or above the warning level -/
  crossed : Bool
  deriving DecidableEq, Repr

/-- The power controller and the thermal limits (R394 to R417). -/
structure Power where
  rackCap   : Option Nat
  rackScap  : Option Nat
  /-- host cap values in force since the last boundary (R403, R465) -/
  hostCap   : Nat
  hostScap  : Nat
  thermCap  : Nat
  /-- Sextant frequency ceiling in force, and the one that the thermal limit leaves -/
  sextCeil  : Nat
  sextTherm : Nat
  stageCeil : Nat
  narrowings : Nat
  /-- the ports that the ceilings took octets from, one entry for each octet, the last one first (R410) -/
  lost      : List Nat
  /-- the Drift marks that took effect at the last cap boundary: ports, and Sextant units (R403) -/
  portMarks : List Nat
  unitMarks : List Nat
  steps     : List CapStep
  /-- Meridian time of the last cap boundary acted on -/
  boundary  : Nat
  warnLevel : Int
  critLevel : Int
  /-- every sensor below warning minus 5 K since; every sensor below warning since -/
  coolFrom  : Option Mt
  belowFrom : Option Mt
  /-- some sensor at critical plus 5 K since -/
  critFrom  : Option Mt
  critical  : Bool
  sensors   : Tbl Sensor
  sensorAt  : Mt
  coolant   : Int
  coolantAt : Mt
  /-- since when coolant values arrive without a gap of 10 s, and whether U has fallen -/
  coolantFrom : Option Mt
  settled   : Bool
  /-- last rail power report, and last correction of the coefficients -/
  railAt    : Option Mt
  corrAt    : Mt
  /-- energy of the minute by part, and since reset, in nJ -/
  energy    : List Nat
  total     : Nat
  /-- energy of each block in the last activity sample, and since the sensors were read last, in nJ -/
  blocks    : Tbl Nat
  msBlocks  : Tbl Nat
  /-- corrected coefficients by block -/
  coeff     : Tbl Nat
  /-- energies of the last ten activity samples by part, newest first -/
  window    : List (List Nat)
  sampleAt  : Mt
  peak      : Nat
  speak     : Nat
  capHi     : Nat
  capLo     : Nat
  /-- time in the minute in which the ceiling power exceeded the effective cap -/
  overMt    : Nat
  minuteAt  : Mt
  reports   : List Bytes
  deriving DecidableEq, Repr

/-- Running self-test (R418 to R427). -/
structure SelfTest where
  results  : Tbl Nat
  times    : Tbl Nat
  found    : Tbl Nat
  /-- store slice in progress: served bank, physical bank, spare, start -/
  store    : Option (Nat × Nat × Nat × Mt)
  /-- banks that wait for the slice's spare, with the row in error (R423) -/
  waiting  : List (Nat × Nat)
  nextBank : Nat
  nextUnit : Nat
  records  : List Bytes
  /-- record being committed: its number and its bytes (R427) -/
  commit   : Option (Nat × Bytes)
  fuses    : Nat
  /-- the lane that the session that wrote 0x2300.06 had selected (R345, R463) -/
  errLane  : Nat
  /-- Meridian times of the last store and Sextant slices (R423, R424) -/
  storeAt  : Nat
  sextAt   : Nat
  deriving DecidableEq, Repr

/-- A dictionary session (R463). `owner` is 0 for the host window, else 1 plus the FDP source. -/
structure Session where
  owner : Nat
  sel   : Tbl Nat
  last  : Nat
  /-- a value under part reads, by entry: its selection at OFFSET 0, none once that or the value has changed (R464) -/
  parts : Tbl (Option Nat)
  deriving DecidableEq, Repr

/-- An answer kept for repeats (R439). -/
structure Answer where
  owner  : Nat
  xid    : BitVec 32
  status : Status
  reason : Nat
  op     : BitVec 8
  body   : Bytes
  deriving DecidableEq, Repr

/-- A queued FDP event (R440). -/
structure Event where
  eseq  : Nat
  kind  : Nat
  time  : Nat
  body  : Bytes
  sends : Nat
  at_   : Mt
  deriving DecidableEq, Repr

/-- A firmware image in flash (R429, R447): its bytes, what its header gives, and whether the checks of R447 other than
the rollback counter hold for it. -/
structure Image where
  data     : Bytes
  version  : BitVec 32
  rollback : Nat
  valid    : Bool
  deriving DecidableEq, Repr

/-- A copy of the boot record (R448): its sequence number, the active image, the trial flag, the trial count, and whether
its CRC holds. -/
structure BootCopy where
  seq    : Nat
  active : Nat
  trial  : Bool
  tries  : Nat
  good   : Bool
  deriving DecidableEq, Repr

/-- A persisted value: a number or a byte string. -/
inductive Stored where
  | num (v : Nat)
  | bytes (b : Bytes)
  deriving DecidableEq, Repr

/-- A record of the journal (R430): the entry and selection, its value, and whether its CRC holds. -/
structure JRec where
  key  : Nat
  val  : Stored
  good : Bool
  deriving DecidableEq, Repr

/-- A bank of persisted values (R429, R430): its sequence number, none while it is erased or not valid, and its records in
order. -/
structure JBank where
  seq  : Option Nat
  recs : List JRec
  deriving DecidableEq, Repr

/-- What lies in flash and fuses (R429 to R433, R427, R447, R448). -/
structure Flash where
  /-- the two banks of persisted values -/
  bank0   : JBank
  bank1   : JBank
  /-- the two boot record copies (R429, R448) -/
  boot0   : BootCopy
  boot1   : BootCopy
  image0  : Image
  image1  : Image
  rollback : Nat
  /-- Logbook records with the number of the Logbook sector that holds them, oldest first (R432) -/
  logbook : List (Nat × Bytes)
  logNext : Nat
  /-- the sector being filled, and the bytes used in it -/
  logSector : Nat
  logUsed : Nat
  /-- dump slots: the number of the dump that lies there, its unit results, and the words of each unit that stopped -/
  dumpSlots : Tbl (Nat × Bytes × Tbl Nat)
  dumpNext : Nat
  /-- the return record in the service area (R456) -/
  service : Bytes
  returned : Bool
  keys    : Tbl (BitVec 256)
  fusedBanks : Tbl Nat
  fusedLanes : List Nat
  /-- commits of the fuse block taken (R427) -/
  fusesUsed : Nat
  /-- the Logbook sectors marked bad (R431) -/
  badSectors : List Nat
  /-- the erase sectors of the flash, by address in units of 64 KiB, whose program or erase fails (R431) -/
  worn     : List Nat
  /-- local clock of the last write of a boot record copy since the last start (R448) -/
  bootWrite : Option Mt
  /-- the Normieri image key in the boot ROM, as the coordinates of its point (R447) -/
  imageKey : Nat × Nat
  deriving DecidableEq, Repr

/-- What the device sends out (pins that are levels stand in `Pins`). -/
inductive Output where
  /-- load data or the old value to a thread, with poison marks by unit (R83, R100) -/
  | loadDone (thread : BitVec 16) (status : Status) (data : Bytes) (poison : BitVec 8)
  /-- store-done indication (R83) -/
  | storeDone (thread : BitVec 16) (status : Status)
  /-- a read of the time page (R349) -/
  | timePage (thread : BitVec 16) (data : Bytes)
  /-- an answer in the host-side dictionary window, under its submit number (R437, R441) -/
  | answer (number : BitVec 32) (op : BitVec 8) (status : Status) (reason : Nat) (body : Bytes)
  /-- an Ethernet frame on the field network, from its destination address to its padding (R434, R435) -/
  | frame (bytes : Bytes)
  /-- a data packet on a port: header and payload (R280) -/
  | data (port : Nat) (header : BitVec 256) (payload : Bytes)
  /-- a control packet on a port (R275) -/
  | control (port : Nat) (block : BitVec 256)
  /-- a mirror write to a host address (R135) -/
  | mirror (ctx : Nat) (base : Nat) (image : Bytes)
  /-- an interrupt message: vector and the number it carries (R137, R369) -/
  | interrupt (vec : Nat) (arg : Nat)
  /-- a RELEASE frame of seven cells on a die's line, with the Meridian time of its edge (R481) -/
  | release (line plan time : Nat)
  /-- a phase hint to the package power controller: the command's bytes, the inst and the context number (R409) -/
  | hint (bytes : BitVec 512) (inst ctx : Nat)
  /-- the first frame of a lane management command in the spare channel; `tick` repeats it (R333, R334) -/
  | lane (port : Nat) (cmd : Nat) (arg : BitVec 8) (countdown : Nat)
  /-- a training frame on a lane: its control field and the levels of its UI (R317, R318) -/
  | trainingFrame (lane : Nat) (control : BitVec 64) (levels : List Nat)
  /-- 8b/10b code groups on a lane at stage A (R309, R310, R313) -/
  | characters (lane : Nat) (groups : List (BitVec 10))
  /-- the levels of the UI of a FEC frame on a lane (R315, R316, R324) -/
  | fecFrame (lane : Nat) (levels : List Nat)
  /-- the levels of a test pattern's UI on a lane (R345) -/
  | pattern (lane : Nat) (levels : List Nat)
  /-- symbols of a codeword that are inverted after FEC encoding: octet, codeword, number (R346) -/
  | inverted (octet codeword symbols : Nat)
  /-- a message to the other insts over the cascade bus (R24) -/
  | bus (m : BusMsg)
  /-- a packet passed to another inst (R69, R342, R343): to a stripe of it, to a home port of it, or a response for it -/
  | cascadePacket (inst : Nat) (port : Option Nat) (header : BitVec 256) (payload : Bytes)
  /-- a routed control packet passed to another inst (R293) -/
  | cascadeControl (inst : Nat) (block : BitVec 256)
  /-- T_rel, step and RAMP to the other insts (R170) -/
  | cascadeRelease (tRel : Nat) (step : Nat) (ramp : Nat)
  /-- a beacon to inst 0, with the delay and offset of the sample it gave, if any (R350, R353) -/
  | cascadeBeacon (port : Nat) (sample : Option (Int × Int)) (master : NodeId) (stratum : BitVec 8) (hold : Bool)
  deriving DecidableEq, Repr

/-- The Compass processor: dictionary, FDP, journal and update (R428 to R456). -/
structure Mgmt where
  sessions : List Session
  answers  : List Answer
  /-- transactions performed, for the order of sessions -/
  clockTx  : Nat
  lastSubmit : Option (BitVec 32)
  /-- the answer area of the host window, and its done field: none while nothing has been written there (R441) -/
  hostAnswer : Bytes
  hostDone   : Option (BitVec 32)
  /-- transactions held while the dictionary does not answer (R468) or a drain's answer is withheld (R437) -/
  heldReqs : List DictReq
  /-- the Compass processor restarts (R428) -/
  restarting : Bool
  /-- journal records not yet written (R430, R466) -/
  journal  : List (Nat × Stored)
  /-- operating time in s as it was restored at the last start -/
  opBase   : Nat
  events   : List Event
  announce : Bool
  /-- when the last ANNOUNCE was sent, none when it is due at once (R440, R487) -/
  announceAt : Option Mt
  plcaOk   : Bool
  /-- frames that wait for PLCA status OK -/
  txQueue  : List Bytes
  counters : Tbl Nat
  keys     : Tbl (BitVec 256)
  running  : Nat
  update   : Nat
  updLen   : Nat
  updGot   : Nat
  bootAt   : Mt
  deriving DecidableEq, Repr

/-- A RELEASE frame that has not begun (R170, R481): its line, plan and leading edge in Meridian time, the collective that
releases, none for one of another inst, and whether it waits for the 64 ns after the frame before it. -/
structure RelFrame where
  line : Nat
  plan : Nat
  edge : Nat
  coll : Option Nat
  gap  : Bool
  deriving DecidableEq, Repr

/-- The edge of an input pin that its filter has still to pass (R416, R475): its fall, or its rise with what the device
samples then, the straps, whether REFCLK is in range, and the copy of the shared tables that another inst serves. -/
inductive PinEdge where
  | fall
  | rise (straps : Option (Fin 4 × Fin 8)) (refclk : Bool) (copy : Option TableCopy)
  deriving DecidableEq, Repr

/-- The states of the controller of an IEEE 1149.1 TAP (R484). -/
inductive TapState where
  | testLogicReset | runTestIdle
  | selectDr | captureDr | shiftDr | exit1Dr | pauseDr | exit2Dr | updateDr
  | selectIr | captureIr | shiftIr | exit1Ir | pauseIr | exit2Ir | updateIr
  deriving DecidableEq, Repr

/-- What the TAP supports (R484): the four instructions of IEEE 1149.1, and the private one that reads the scan and debug ring. -/
inductive TapOp where
  | bypass | idcode | sample | extest | ring
  deriving DecidableEq, Repr

/-- The TAP (R473, R484). -/
structure Tap where
  /-- the levels at TCK, TMS, TDI and TRST_N, and that of TCK when it was last looked at -/
  tck   : Bool
  tms   : Bool
  tdi   : Bool
  trstN : Bool
  seen  : Bool
  state : TapState
  op    : TapOp
  /-- the register between TDI and TDO, the bit next to TDO first -/
  shift : List Bool
  /-- what the output cells of the boundary register hold -/
  cells : List Bool
  /-- the level at TDO, none while it is high impedance -/
  tdo   : Option Bool
  /-- the ring unit addressed, the words it has given, and since when it is awaited -/
  unit  : Nat
  words : Nat
  deriving DecidableEq, Repr

/-- The sideband pins and package wiring (R473 to R482). The levels of the inputs are those behind their filters. -/
structure Pins where
  pwrGood    : Bool
  resetN     : Bool
  cutWarn    : Bool
  /-- the edge that each filter holds, with the ticks left before it passes (R416, R475) -/
  goodEdge   : Option (Nat × PinEdge)
  resetEdge  : Option (Nat × PinEdge)
  cutEdge    : Option (Nat × PinEdge)
  /-- last attempt to lock the PLLs (R476) -/
  pllAt      : Mt
  /-- when CUT_WARN_N was last released, while the 10 ms of R417 or R479 run -/
  cutGone    : Option Mt
  thermAlert : Bool
  replaceReq : Bool
  pcycReq    : Bool
  /-- the RELEASE frames that wait, earlier leading edges first -/
  booked     : List RelFrame
  /-- the last frame of each RELEASE line: its plan, and the local clock of its leading edge -/
  frames     : Tbl (Nat × Mt)
  instId     : Nat
  slotId     : Nat
  /-- power was lost since the last boot -/
  cold       : Bool
  tap        : Tap
  deriving DecidableEq, Repr

/-- The cascade as this inst sees it (R23 to R30, R344). -/
structure Cascade where
  /-- the other insts present -/
  present : List Nat
  masterAbsent : Bool
  /-- it was absent at start-up (R30) -/
  atStart : Bool
  /-- home ports here that lack a stripe of a missing inst, with that inst (R344) -/
  lost : List (Nat × Nat)
  /-- the shared tables are being copied: shared writes are refused (R29) -/
  copying : Bool
  /-- the insts that have still to store the shared-table write in progress, and that write (R24) -/
  storing : List Nat
  writing : Option DictReq
  /-- at the master: the stripe map and the port widths of each other inst (R341) -/
  maps : Tbl (Bytes × Bytes)
  /-- the stripes of other insts, by inst * 12 + port (R342, R344) -/
  stripes : Tbl FarStripe
  deriving DecidableEq, Repr

/-- The Charts unit (R261 to R265). -/
structure Charts where
  /-- start of the open interval in Meridian time, and whether it is reported -/
  start    : Nat
  reported : Bool
  length   : Nat
  samples  : Nat
  /-- the mode during the open interval was deterministic -/
  det      : Bool
  /-- highest incast and staging occupancy of the open interval, in cells -/
  incPeak  : Nat
  stgPeak  : Nat
  /-- the last closed reported interval, waiting to be sent: start, length, bytes 24 to 39 of its charts, and
  the next part -/
  closed   : Option (Nat × Nat × Bytes × Nat)
  deriving DecidableEq, Repr

/-- The host port's memory side: local memory as the device's accesses leave it. -/
structure Memory where
  cells  : List Host.Cell
  /-- poisoned 64-byte lines, by line number, rising -/
  poison : List Nat
  deriving DecidableEq, Repr

/-- The state of the device. -/
structure State where
  /-- commands that wait, first in first out -/
  pending  : List Instr
  /-- local elapsed time since reset in mt -/
  clock    : Mt
  phase    : Phase
  pins     : Pins
  cascade  : Cascade
  /-- stored values of dictionary entries, by register key -/
  regs     : Tbl Nat
  blobs    : Tbl Bytes
  tables   : Tables
  ctxs     : Tbl Ctx
  /-- the generation of every context that is not listed (R384) -/
  genBase  : BitVec 8
  /-- operations translated and not yet issued, oldest first (R81, R219) -/
  held     : List Op
  /-- the context whose operation each engine took last (R113) -/
  turns    : Tbl Nat
  tracks   : Tbl Track
  blocks   : Tbl Block
  streams  : Tbl Stream
  msgOut   : Tbl MsgOut
  msgIn    : Tbl MsgIn
  accums   : List Accum
  senders  : Tbl Sender
  grants   : Tbl Grant
  accesses : List Access
  /-- the packets in the central store (R19, R210) -/
  pkts     : List Pkt
  /-- the starting bank that each writer takes next: a port, or 12 for the device itself (R211) -/
  writers  : Tbl Nat
  ports    : Tbl Port
  lanes    : Tbl Lane
  octets   : Tbl Octet
  cards    : Tbl Card
  colls    : Tbl Coll
  pends    : List Pend
  units    : Tbl SextUnit
  banks    : Tbl Bank
  charts   : Charts
  mer      : Meridian
  faults   : Faults
  power    : Power
  test     : SelfTest
  mgmt     : Mgmt
  flash    : Flash
  mem      : Memory
  /-- what has been sent out, oldest first (the model's own) -/
  out      : List Output
  /-- number of the next packet, operation, access or accumulator (the model's own) -/
  nextId   : Nat
  /-- number of the next free value (the model's own) -/
  free     : Nat
  deriving DecidableEq, Repr

/-! ## The state right after reset -/

/-- A context as the tables default it: OFF, every counter 0 (R106, R384). -/
def Ctx.reset : Ctx :=
  { state := .off, partEnt := 0, mirror := 0, drainUs := 1000, drainAt := 0, drainFor := 0, gen := 0,
    accept := 0, failed := 0, first := none, counters := [], slots := [], cmds := [], lastCmd := 0, arms := [],
    fired := [], mirrorDue := none, mirrorOut := none, mirrorNext := false, halting := false, apFails := 0,
    apFirst := none }

/-- An empty routing bank (R239, R240, R247, R251). -/
def RouteBank.reset : RouteBank := { routes := [], selector := [], extents := [], exceptions := [] }

/-- The tables after reset: empty; bank 0 ACTIVE, bank 1 FREE (0x3800.02 default 0x02). [log 2, DESIGN CHOICE] -/
def Tables.reset : Tables :=
  { rank := [], inc := [], windowDir := [], window := [], badWindow := [], bank0 := RouteBank.reset,
    bank1 := RouteBank.reset, st0 := .active, st1 := .free, epochNr := 0, flipAt := 0, flipped := 0,
    quiet := none, part := [], keyFlag := [], share := [], plan := [], worked := false,
    retiredSelf := false, drain := none }

/-- The cascade after reset: no other inst present. [log 2, DESIGN CHOICE] -/
def Cascade.reset : Cascade :=
  { present := [], masterAbsent := false, atStart := false, lost := [], copying := false, storing := [],
    writing := none, maps := [], stripes := [] }

/-- The link layer of a port after reset (R280, R297). [log 2, DESIGN CHOICE] -/
def Link.reset : Link :=
  { txEpoch := 0, rxEpoch := 0, next := 0, unacked := 0, expect := 0, discard := false,
    replaying := none, cnext := 0, cunacked := 0, cexpect := 0, notices := [], noticeQ := [],
    cnak := false, xoffRx := 0, xoffTx := 0, rttOpen := 0, rttLast := 0, rttAny := false,
    rttClosed := false, replays := 0, creplays := 0, timer := none, ctimer := none, waitUntil := 0, resend := none, heard := 0,
    owed := 0, owedSince := 0, statusAt := 0, peerStamp := 0, peerAt := 0, kept := none,
    seenByPeer := false, startAt := 0, startFrom := none, routedQ := [], gap := 0, renotice := [], restart := none, deficit := [], turn := 65,
    budget := 0, budgetAt := 0 }

/-- A port after reset, before its training begins (R13, 0x2000.07, 0x2600.05). [log 2, DESIGN CHOICE] -/
def Port.reset : Port :=
  { state := .absent, stage := none, trying := none, tryAt := 0, attempt := { limit := 150, window := 20, ratio := 0x3727C5AC }, highest := 2, link := Link.reset, outcome := 0,
    check := 0, hail := none, admitted := none, hailed := false, rehailed := false, reported := none, hailAt := 0,
    hailFrom := 0, missing := false, waitSignal := false, peerCap := 0, ceiling := 12,
    peerCeil := 12, txWidth := 0, rxWidth := 0, txOcts := [], rxOcts := [], lmc := none, lmcQ := [], shifting := none,
    readyAt := none, starting := none, rxStart := none, txBlock := 0, streamFrom := 0, widening := false, waking := [], failing := [], failAt := none, stepAt := none, stopped := false, test := false, heldOff := false,
    thermOff := false, marked := false, other := false, onlyPaced := false, collOff := none, bseq := 0, t1 := 0, t2Rx := 0, beaconAt := 0,
    fresh := 0, delays := [], peerBeacon := none, peerBeaconAt := 0,
    hist := [], txTime := 0, rxTime := 0, xoffAt := none, xoffTime := 0, hot := [], busy := 0,
    record := [], slice := none, sliceRef := none, sliceTx := none,
    sliceNo := none }

/-- A port that trains from stage A (R383 step 5, R487). -/
def Port.training : Port := { Port.reset with state := .training, trying := some .a }

/-- A lane after reset: an active lane that carries nothing yet (0x2100). [log 2, DESIGN CHOICE] -/
def Lane.reset : Lane :=
  { role := 0, pos := 15, los := false, lol := false, losAt := 0, lolAt := 0, set_ := 0, sets := 0,
    commas := 0, aligned := false, offset := 0, slipAt := 0, slips := 0, disparity := false, txRd := false, tscnt := 0, markAt := 0, marker := none, preset := false,
    reqOut := 0, steps := 0, wantB := false, wantC := false, setB := none, setC := none, txW := 0, gen := 0, testBits := 0, peerLane := 0, peerStatus := 0,
    taps := (0, 0, 64, 0), tapSts := 0, tapReq := 0, ctle := 0, dfe := [], adaptFrom := 0, precodeTx := false,
    precodeRx := false, rxReady := false, peerReady := false, errors := 0, bits := 0, failed := false,
    recent := [], flagFrame := false, flagRun := 0, flagged := false, fused := false }

/-- An octet after reset: not trained (0x2200.05 default 4). [log 2, DESIGN CHOICE] -/
def Octet.reset : Octet :=
  { state := 4, channel := 0, peerBad := false, rxSpare := none, txSpare := none, frame := 0, badWords := [], injectAt := 0,
    injectLeft := 0, txData := [], txFreed := false }

/-- A Sextant unit after reset: 850 MHz (0x5300.04). [log 2, DESIGN CHOICE] -/
def SextUnit.reset : SextUnit :=
  { freq := 850, inService := true, queue := [], lines := [], yielding := [], press := none,
    taken := [], slow := none, marked := false, other := false, onlyPaced := false, change := none, goodRun := 0 }

/-- A fault source after reset: every count 0 (R367). -/
def Source.reset : Source :=
  { slots := [], epoch := 0, passed := 0, severe := false, logged := 0, held := 0 }

/-- A sensor after instance reset (0x6400.02, R412), its response at the steady state given. -/
def Sensor.reset (steady : Int) : Sensor :=
  { reading := 0, response := steady, failed := false, badFrom := [], moved := 0, movedAt := 0,
    movedPow := 0, crossed := false }

/-- The Meridian unit after reset: UNSET (R347, R348, 0x9000). [log 2, DESIGN CHOICE] -/
def Meridian.reset : Meridian :=
  { count := 0, state := .unset, stratum := 255, upstream := 255, master := 0, isMaster := false,
    filtered := 0, good := 0, bad := 0, everLocked := false, firstAt := 0, slew := 0,
    frac := 0, halfRate := false, halfPhase := false, holdFrom := none, holdTold := false,
    lastHold := 0, merRefAt := none, refGone := false, upHold := false, setTo := none, listenFrom := 0, listenStb := 0, first := false, stepFrom := 0, stepTo := 0, heardDes := none,
    heardStb := none, upAt := 0, remote := [], minute := 0, flagUnlocked := true,
    flagStepped := false, flagHold := false }

/-- The fault collector after reset (0x7000 to 0x7300). [log 2, DESIGN CHOICE] -/
def Faults.reset : Faults :=
  { intake := [], latch := none, overflow := false, overCount := 0, overTold := false, merges := 0,
    seqNr := 0, last := 0, sources := [], second := 0, running := [], lastEsc := List.replicate 16 0, dump := 0,
    dumpNr := 0, dumpWords := [], dumpAt := 0, dumpRead := 0, reasons := 0, raisedAt := none }

/-- The power controller after reset, the start-up caps at their defaults (R397, 0x6000, 0x6400). [log 2, DESIGN CHOICE] -/
def Power.reset : Power :=
  { rackCap := none, rackScap := none, hostCap := 0, hostScap := 0, thermCap := 0, sextCeil := 1000,
    sextTherm := 1000, stageCeil := 2, narrowings := 0, lost := [], portMarks := [], unitMarks := [], steps := [], boundary := 0, warnLevel := 95000,
    critLevel := 105000, coolFrom := none, belowFrom := none, critFrom := none, critical := false,
    sensors := [], sensorAt := 0, coolant := 45000, coolantAt := 0, coolantFrom := none, settled := false,
    railAt := none, corrAt := 0, energy := [0, 0, 0, 0], total := 0, blocks := [], msBlocks := [], coeff := [],
    window := [], sampleAt := 0, peak := 0, speak := 0, capHi := 250, capLo := 250, overMt := 0,
    minuteAt := 0, reports := [] }

/-- Self-test after reset (0x8000, 0x8100). -/
def SelfTest.reset : SelfTest :=
  { results := [], times := [], found := [], store := none, waiting := [], nextBank := 0, nextUnit := 0,
    records := [], commit := none, fuses := 24, errLane := 0, storeAt := 0, sextAt := 0 }

/-- What flash and fuses hold in a part that was never used: no persisted values, image A valid,
rollback counter 0, key slot 0 provisioned (R442), every spare bank free. [log 2, DESIGN CHOICE] -/
def Flash.factory : Flash :=
  { bank0 := { seq := some 1, recs := [] }, bank1 := { seq := none, recs := [] },
    boot0 := { seq := 1, active := 0, trial := false, tries := 0, good := true },
    boot1 := { seq := 0, active := 0, trial := false, tries := 0, good := true },
    image0 := { data := [], version := 1, rollback := 0, valid := true },
    image1 := { data := [], version := 0, rollback := 0, valid := false },
    rollback := 0, logbook := [], logNext := 0, logSector := 0, logUsed := 0, dumpSlots := [],
    dumpNext := 0, service := [], returned := false,
    keys := [(0, Config.slot0Key)], fusedBanks := [], fusedLanes := [], fusesUsed := 0,
    badSectors := [], worn := [], bootWrite := none, imageKey := (Config.imageKeyX, Config.imageKeyY) }

/-- The Compass processor after its boot (R428 to R456): the host session alone, ANNOUNCE due. [log 2, DESIGN CHOICE] -/
def Mgmt.reset : Mgmt :=
  { sessions := [], answers := [], clockTx := 0, lastSubmit := none, hostAnswer := [], hostDone := none, heldReqs := [],
    restarting := false, journal := [], opBase := 0, events := [], announce := true,
    announceAt := none, plcaOk := false, txQueue := [], counters := [], keys := [(0, Config.slot0Key)],
    running := 0, update := 0, updLen := 0, updGot := 0, bootAt := 0 }

/-- The TAP held in reset by the pull-down of TRST_N (R473); IDCODE is then selected (IEEE 1149.1). [log 2, DESIGN CHOICE; log 56, PRESUMED] -/
def Tap.reset : Tap :=
  { tck := false, tms := false, tdi := false, trstN := false, seen := false, state := .testLogicReset, op := .idcode,
    shift := [], cells := [], tdo := none, unit := 0, words := 0 }

/-- The sideband pins after RESET_N is released, instance 0 of package slot 0 (R473 to R478). [log 2, DESIGN CHOICE] -/
def Pins.reset : Pins :=
  { pwrGood := true, resetN := true, cutWarn := false, goodEdge := none, resetEdge := none, cutEdge := none, pllAt := 0, cutGone := none,
    thermAlert := false, replaceReq := false, pcycReq := false, booked := [], frames := [], instId := 0,
    slotId := 0, cold := false, tap := Tap.reset }

/-- The Charts unit after reset (R261). -/
def Charts.reset : Charts :=
  { start := 0, reported := false, length := 100, samples := 0, det := true, incPeak := 0,
    stgPeak := 0, closed := none }

/-- The device right after reset: RESET_N released, image A booted, no persisted value, no other inst
present, ports P0 to P5 of the default widths training from stage A, and the instance reset of R487
still running until its ports have their stage A outcomes. Where a field has no reset value in the
spec, notes/assumptions/2.md names the one taken here. [log 2, DESIGN CHOICE] -/
def State.reset : State :=
  { pending := [], clock := 0, phase := .running, pins := Pins.reset,
    cascade := Cascade.reset,
    regs := [], blobs := [], tables := Tables.reset, ctxs := [], genBase := 0, held := [], turns := [], tracks := [],
    blocks := [], streams := [], msgOut := [], msgIn := [], accums := [], senders := [],
    grants := [], accesses := [], pkts := [], writers := [],
    ports := [(0, Port.training), (1, Port.training), (2, Port.training), (3, Port.training),
      (4, Port.training), (5, Port.training)],
    lanes := [], octets := [], cards := [], colls := [], pends := [], units := [], banks := [],
    charts := Charts.reset, mer := Meridian.reset,
    faults := { Faults.reset with running := [{ level := 4, target := 0, start := 0, causes := [], ctxs := [] }] },
    power := Power.reset, test := SelfTest.reset, mgmt := Mgmt.reset, flash := Flash.factory,
    mem := { cells := [], poison := [] }, out := [], nextId := 0, free := 0 }

end Sys2Proof.Machine
end

