-- ==== Sys2Proof/Machine/Ops.lean ====
section
/-! DEFINITION. The named operations over tables, numbers, memory and the groups of registers that the
meanings share. Every read and write of a group of registers goes through the functions of this file. -/

namespace Sys2Proof.Machine

/-! ## Sparse tables -/

/-- The record listed under a number. -/
def tget {α : Type} : Tbl α → Nat → Option α
  | [], _ => none
  | (k, v) :: r, n => if n = k then some v else tget r n

/-- Put a record under a number, keeping the numbers rising. -/
def tput {α : Type} : Tbl α → Nat → α → Tbl α
  | [], n, x => [(n, x)]
  | (k, v) :: r, n, x =>
    if n < k then (n, x) :: (k, v) :: r else if n = k then (n, x) :: r else (k, v) :: tput r n x

/-- Remove what is listed under a number. -/
def tdel {α : Type} : Tbl α → Nat → Tbl α
  | [], _ => []
  | (k, v) :: r, n => if n = k then tdel r n else (k, v) :: tdel r n

/-- The record under a number, or the default. -/
def tgetD {α : Type} (t : Tbl α) (n : Nat) (d : α) : α := (tget t n).getD d

/-- Whether the numbers of a table rise strictly. -/
def risingFrom {α : Type} : Option Nat → Tbl α → Bool
  | _, [] => true
  | none, (k, _) :: r => risingFrom (some k) r
  | some b, (k, _) :: r => decide (b < k) && risingFrom (some k) r

/-! ## Numbers and bytes -/

/-- The field of `len` bits of a number from bit `lo`. -/
def fld (x lo len : Nat) : Nat := x / 2 ^ lo % 2 ^ len

/-- Bit `i` of a number. -/
def bitAt (x i : Nat) : Bool := x / 2 ^ i % 2 == 1

/-- A number with the field of `len` bits from bit `lo` replaced. -/
def setFld (x lo len v : Nat) : Nat := x - fld x lo len * 2 ^ lo + v % 2 ^ len * 2 ^ lo

/-- 1 for true. -/
def bit (b : Bool) : Nat := if b then 1 else 0

/-- `n` bytes of a number, least significant first (R3). -/
def leBytes : Nat → Nat → Bytes
  | 0, _ => []
  | n + 1, v => BitVec.ofNat 8 v :: leBytes n (v / 256)

/-- The little-endian number that bytes spell (R3). -/
def leNat : Bytes → Nat
  | [] => 0
  | b :: r => b.toNat + 256 * leNat r

/-- `n` bytes of a number, most significant first. -/
def beBytes (n v : Nat) : Bytes := (leBytes n v).reverse

/-- The big-endian number that bytes spell. -/
def beNat (b : Bytes) : Nat := leNat b.reverse

/-- The little-endian number in `len` bytes from byte `off` (0 where there are none). -/
def leAt (b : Bytes) (off len : Nat) : Nat := leNat ((b.drop off).take len)

/-- Byte `i` of a string as a number, 0 beyond its end. -/
def byteAt (b : Bytes) (i : Nat) : Nat := ((b[i]?).getD 0).toNat

/-- `n` bytes of zero. -/
def zeros (n : Nat) : Bytes := List.replicate n 0

/-- A string cut or padded with zero bytes to `n` bytes. -/
def padTo (n : Nat) (b : Bytes) : Bytes := (b ++ zeros n).take n

/-- A string with `v` written over it from byte `off`. -/
def overwrite (b : Bytes) (off : Nat) (v : Bytes) : Bytes := b.take off ++ v ++ b.drop (off + v.length)

/-- The two's-complement number of `w` bits that a Nat holds. -/
def toSigned (w x : Nat) : Int := if x % 2 ^ w < 2 ^ (w - 1) then (x % 2 ^ w : Nat) else (x % 2 ^ w : Nat) - (2 ^ w : Nat)

/-- The low `w` bits of an integer. -/
def ofSigned (w : Nat) (x : Int) : Nat := (x % (2 ^ w : Nat)).toNat

/-- Division rounded up. -/
def ceilDiv (a b : Nat) : Nat := (a + b - 1) / b

/-- One bit of the reflected CRC-32C polynomial division (R273). -/
def crcBit (c : Nat) : Nat := if c % 2 = 1 then (c / 2) ^^^ 0x82F63B78 else c / 2

/-- One byte of CRC-32C. -/
def crcByte (c : Nat) (b : Byte) : Nat := Nat.repeat crcBit 8 (c ^^^ b.toNat)

/-- R273: CRC-32C of a byte string. -/
def crc32c (b : Bytes) : Nat := b.foldl crcByte 0xFFFFFFFF ^^^ 0xFFFFFFFF

/-- Spans in mt: 4 mt are 1 ns. -/
def nsMt (n : Nat) : Mt := 4 * n
def usMt (n : Nat) : Mt := 4000 * n
def msMt (n : Nat) : Mt := 4000000 * n
def secMt (n : Nat) : Mt := 4000000000 * n

/-- One Meridian minute. -/
def minuteMt : Mt := 240000000000

/-! ## Memory (R46, R93): bytes by local address, unlisted bytes read 0 -/

/-- What an unlisted byte reads as (notes/assumptions/3.md). [log 3, DESIGN CHOICE] -/
def unlistedByte : Byte := 0

/-- Read one byte. [log 3, DESIGN CHOICE] -/
def memByte (m : Memory) (a : Nat) : Byte := (tget m.cells a).getD unlistedByte

/-- Write one byte, keeping the canonical form: a byte equal to the unlisted one is not listed. -/
def memPut (m : Memory) (a : Nat) (b : Byte) : Memory :=
  { m with cells := if b = unlistedByte then tdel m.cells a else tput m.cells a b }

/-- Read `len` bytes. -/
def memRead (m : Memory) (a : Nat) : Nat → Bytes
  | 0 => []
  | n + 1 => memByte m a :: memRead m (a + 1) n

/-- Write bytes from an address. -/
def memWrite (m : Memory) (a : Nat) : Bytes → Memory
  | [] => m
  | b :: r => memWrite (memPut m a b) (a + 1) r

/-- A list of rising numbers with one more. -/
def insertNat : List Nat → Nat → List Nat
  | [], n => [n]
  | k :: r, n => if n < k then n :: k :: r else if n = k then k :: r else k :: insertNat r n

/-- Whether a list of numbers rises strictly. -/
def risingNats : List Nat → Bool
  | [] => true
  | [_] => true
  | a :: b :: r => decide (a < b) && risingNats (b :: r)

/-- Mark or clear the poison of a 64-byte line. -/
def memPoison (m : Memory) (line : Nat) (p : Bool) : Memory :=
  { m with poison := if p then insertNat m.poison line else m.poison.filter (· != line) }

/-- Whether a line is poisoned. -/
def linePoisoned (m : Memory) (line : Nat) : Bool := m.poison.contains line

/-- The poison marks of the 64-byte units of a read: bit k is unit k (R99). -/
def poisonMarks (m : Memory) (a len : Nat) : BitVec 8 :=
  BitVec.ofNat 8 (((List.range (ceilDiv len 64)).map
    fun k => if linePoisoned m (a / 64 + k) then 2 ^ k else 0).foldl (· + ·) 0)

/-- The canonical form: addresses strictly rising, no cell equal to an unlisted byte. -/
def memWf (m : Memory) : Bool :=
  risingFrom none m.cells && m.cells.all (fun c => c.2 != unlistedByte)

/-! ## The groups of registers -/

/-- The inst this device is (R478). -/
def instId (s : State) : Nat := s.pins.instId

/-- Whether this device is the master, inst 0 (R26). -/
def isMaster (s : State) : Bool := s.pins.instId == 0

def port (s : State) (p : Nat) : Port := tgetD s.ports p Port.reset
def setPort (s : State) (p : Nat) (x : Port) : State := { s with ports := tput s.ports p x }
def updPort (s : State) (p : Nat) (f : Port → Port) : State := setPort s p (f (port s p))
def updLink (s : State) (p : Nat) (f : Link → Link) : State :=
  updPort s p fun x => { x with link := f x.link }
def ctx (s : State) (c : Nat) : Ctx := tgetD s.ctxs c { Ctx.reset with gen := s.genBase }
def setCtx (s : State) (c : Nat) (x : Ctx) : State := { s with ctxs := tput s.ctxs c x }
def updCtx (s : State) (c : Nat) (f : Ctx → Ctx) : State := setCtx s c (f (ctx s c))
/-- A lane that is not listed: SP stands by as a spare. -/
def laneDefault (l : Nat) : Lane := { Lane.reset with role := if l % 9 = 8 then 1 else 0 }
def lane (s : State) (l : Nat) : Lane := tgetD s.lanes l (laneDefault l)
def setLane (s : State) (l : Nat) (x : Lane) : State := { s with lanes := tput s.lanes l x }
def updLane (s : State) (l : Nat) (f : Lane → Lane) : State := setLane s l (f (lane s l))
def octet (s : State) (o : Nat) : Octet := tgetD s.octets o Octet.reset
def setOctet (s : State) (o : Nat) (x : Octet) : State := { s with octets := tput s.octets o x }
def updOctet (s : State) (o : Nat) (f : Octet → Octet) : State := setOctet s o (f (octet s o))
def sext (s : State) (u : Nat) : SextUnit := tgetD s.units u SextUnit.reset
def setSext (s : State) (u : Nat) (x : SextUnit) : State := { s with units := tput s.units u x }
def updSext (s : State) (u : Nat) (f : SextUnit → SextUnit) : State := setSext s u (f (sext s u))
def source (s : State) (n : Nat) : Source := tgetD s.faults.sources n Source.reset
def sensor (s : State) (n : Nat) : Sensor :=
  tgetD s.power.sensors n (Sensor.reset (Config.steadyResponse n))

/-- The numbers below 12, of the ports and octets. -/
def twelve : List Nat := List.range 12

/-- The number of a stored dictionary value: entry and selection in one. -/
def regKey (index sub sel : Nat) : Nat := (index * 256 + sub) * 1048576 + sel

/-- R364: default N and W in ms of a fault source, by class. -/
def countDefaults (cls : Nat) : Nat × Nat :=
  match cls with
  | 1 => (1000, 1000) | 2 => (64, 1000) | 3 => (1024, 1000) | 4 => (1024, 1000) | 5 => (4, 60000)
  | 6 => (16, 60000) | 7 => (256, 1000) | 9 => (16, 60000) | 11 => (4, 3600000)
  | 14 => (16, 60000) | 15 => (64, 1000) | _ => (0, 60000)

/-- The default of a stored number (R459); count limits and windows by class (R364). -/
def regDefault (index sub sel : Nat) : Nat :=
  if index = 0x7100 ∧ sub = 3 then (countDefaults (sel / 256)).1
  else if index = 0x7100 ∧ sub = 4 then (countDefaults (sel / 256)).2
  else match rowOf index sub with
    | some r => r.dflt
    | none => 0

/-- A stored number of the dictionary. -/
def regAt (s : State) (index sub sel : Nat) : Nat :=
  (tget s.regs (regKey index sub sel)).getD (regDefault index sub sel)

/-- A stored number without a selection. -/
def reg (s : State) (index sub : Nat) : Nat := regAt s index sub 0

def setRegAt (s : State) (index sub sel v : Nat) : State :=
  { s with regs := tput s.regs (regKey index sub sel) v }
def setReg (s : State) (index sub v : Nat) : State := setRegAt s index sub 0 v

/-- R461: a count of a given byte size rises by `n` and wraps. -/
def bumpBy (s : State) (index sub sel n : Nat) : State :=
  let size := match rowOf index sub with
    | some r => r.ty.size
    | none => 8
  setRegAt s index sub sel ((regAt s index sub sel + n) % 2 ^ (8 * size))

def bumpAt (s : State) (index sub sel : Nat) : State := bumpBy s index sub sel 1
def bump (s : State) (index sub : Nat) : State := bumpBy s index sub 0 1

/-- The defaults of stored BLOBs (R459). -/
def blobDefault (index sub : Nat) : Bytes :=
  if index = 0x2000 ∧ (sub = 1 ∨ sub = 2) then [2, 2, 2, 2, 2, 2, 0, 0, 0, 0, 0, 0]
  else if index = 0x4600 ∧ sub = 7 then [32, 24, 16, 20, 36, 2]
  else if index = 0x4630 ∧ sub = 4 then (List.range 128).map (BitVec.ofNat 8)
  else if index = 0x4610 ∧ sub = 1 then [5, 5, 2, 2, 2]
  else if index = 0x5200 then List.replicate 32 0x80
  else match rowOf index sub with
    | some r => zeros r.ty.size
    | none => []

/-- A stored BLOB of the dictionary. -/
def blobAt (s : State) (index sub sel : Nat) : Bytes :=
  (tget s.blobs (regKey index sub sel)).getD (blobDefault index sub)
def blob (s : State) (index sub : Nat) : Bytes := blobAt s index sub 0
def setBlobAt (s : State) (index sub sel : Nat) (v : Bytes) : State :=
  { s with blobs := tput s.blobs (regKey index sub sel) v }

/-- Send something out. [log 9, DESIGN CHOICE] -/
def emit (s : State) (o : Output) : State := { s with out := s.out ++ [o] }

/-- Take the next number of packets, operations, accesses and accumulators. [log 9, DESIGN CHOICE] -/
def freshId (s : State) : Nat × State := (s.nextId, { s with nextId := s.nextId + 1 })

/-- Take the next free value of width `w`: nothing is known of it. [log 8, DESIGN CHOICE] -/
def freshValue (s : State) (w : Nat) : BitVec w × State :=
  (Config.freeValue w s.free, { s with free := s.free + 1 })

/-- R347, R363: the time stamp of the device: the Meridian count, or the local count in UNSET. -/
def stamp (s : State) : Nat := if s.mer.state = .unset then s.clock else s.mer.count

/-- R358, R416: scheduled events fire once the device has first reached LOCKED since reset, and no more after
a power cut warning. -/
def timed (s : State) : Bool := s.mer.everLocked && s.phase == .running

/-- Whether what repeats every `span` mt since a local time is due at this tick. -/
def everySpan (s : State) (since span : Mt) : Bool := decide (since ≤ s.clock) && (s.clock - since) % span == 0

/-- Whether `span` mt of local time have passed since `since`. -/
def passed (s : State) (since span : Mt) : Bool := decide (since + span ≤ s.clock)

/-- 10^8 hundredths of ppm: one tick of rate change gathered. -/
def wholeTick : Int := 100000000

/-- R347, R354: the Meridian count after one tick: the loop's rate change adds or holds back a tick when one
has gathered, and a half-rate run advances it every second tick until its offset is within the step threshold. The
count never falls. [log 1, DESIGN CHOICE] -/
def tickMeridian (threshold : Nat) (m : Meridian) : Meridian :=
  if m.halfRate then
    let off := if m.halfPhase then m.filtered - 1 else m.filtered
    { m with
      count := if m.halfPhase then m.count else (m.count + 1) % 2 ^ 64, filtered := off,
      halfRate := decide ((threshold : Int) < off), halfPhase := !m.halfPhase && decide ((threshold : Int) < off) }
  else
    let f := m.frac + m.slew
    if wholeTick ≤ f then { m with count := (m.count + 2) % 2 ^ 64, frac := f - wholeTick }
    else if f ≤ -wholeTick then { m with frac := f + wholeTick }
    else { m with count := (m.count + 1) % 2 ^ 64, frac := f }

/-- The time of one tick with nothing commanded: local time and the Meridian count advance (notes/assumptions/1.md). [log 1, DESIGN CHOICE] -/
def tickTime (s : State) : State := { s with clock := s.clock + 1, mer := tickMeridian (reg s 0x9020 2) s.mer }

/-- Whether the device is out of reset with its clocks locked. -/
def awake (s : State) : Bool := s.phase != .held && s.phase != .noPll

/-- R494: after a power cut warning no operation or command completes, no counter rises, and no mirror write or
threshold interrupt is made. -/
def cutOff (s : State) : Bool := s.phase == .cut

/-- Whether an inst reset runs (R377 level 4). -/
def instReset (s : State) : Bool := s.faults.running.any fun r => r.level == 4

/-- The index of a port state (R13). -/
def PortState.code : PortState → Nat
  | .absent => 0 | .training => 1 | .quarantined => 2 | .extra => 3 | .up => 4 | .degraded => 5
  | .limp => 6

/-- UP, DEGRADED or LIMP: the port carries traffic (R13). -/
def PortState.works : PortState → Bool
  | .up | .degraded | .limp => true
  | _ => false

/-- Whether a port carries traffic. -/
def working (s : State) (p : Nat) : Bool := (port s p).state.works

def Stage.code : Stage → Nat
  | .a => 0 | .b => 1 | .c => 2

def Stage.ofCode (n : Nat) : Stage := if n = 0 then .a else if n = 1 then .b else .c

def CtxState.code : CtxState → Nat
  | .off => 0 | .enabled => 1 | .draining => 2 | .halted => 3

def BankState.code : BankState → Nat
  | .free => 0 | .ready => 1 | .active => 2 | .draining => 3

def TimeState.code : TimeState → Nat
  | .unset => 0 | .acquiring => 1 | .locked => 2 | .holdover => 3

/-- R10: the code of a status. -/
def Status.code : Status → Nat
  | .ok => 0 | .poisoned => 1 | .notPerformed => 2 | .outcomeUnknown => 3 | .denied => 4
  | .noWindow => 5 | .cancelled => 6 | .targetAbsent => 7 | .retired => 8 | .oversize => 9
  | .slotBusy => 10

/-- R10, R11: the status a received code stands for; a reserved code is OUTCOME_UNKNOWN. -/
def Status.ofCode (n : Nat) : Status :=
  match n with
  | 0 => .ok | 1 => .poisoned | 2 => .notPerformed | 3 => .outcomeUnknown | 4 => .denied
  | 5 => .noWindow | 6 => .cancelled | 7 => .targetAbsent | 8 => .retired | 9 => .oversize
  | 10 => .slotBusy | _ => .outcomeUnknown

def Severity.code : Severity → Nat
  | .note => 0 | .corrected => 1 | .degraded => 2 | .severe => 3 | .fatal => 4

def Severity.ofCode (n : Nat) : Severity :=
  match n with
  | 0 => .note | 1 => .corrected | 2 => .degraded | 3 => .severe | _ => .fatal

/-- R15, R113: the context engine of a context. -/
def engineOf (c : Nat) : Nat := c % 16

end Sys2Proof.Machine
end

