-- ==== Sys2Proof/Machine/Float.lean ====
section
/-! DEFINITION. The number formats of a Sextant unit (R184 to R195): exact decoding to binary32 or INT32,
combination at that precision, and encoding with rounding to nearest even, for plain and microscaled
formats. The encodings of the FP8 and MX elements are those of the OCP specifications that R184 names
(notes/assumptions/6.md). -/

namespace Sys2Proof.Machine

/-- A decoded value: a NaN, an infinity, or mantissa times a power of two, with its sign. -/
inductive FVal where
  | nan
  | inf (neg : Bool)
  | fin (neg : Bool) (mant : Nat) (exp : Int)
  deriving DecidableEq, Repr

/-- An element format: bits, precision with the hidden bit, exponent of the least subnormal, the code of
the largest finite value, the code of infinity if it has one, and the code of a NaN if it has one. -/
structure Fmt where
  bits   : Nat
  prec   : Nat
  qmin   : Int
  maxFin : Nat
  inf    : Option Nat
  nan    : Option Nat

def fp32 : Fmt := { bits := 32, prec := 24, qmin := -149, maxFin := 0x7F7FFFFF, inf := some 0x7F800000, nan := some 0x7FC00000 }
def bf16 : Fmt := { bits := 16, prec := 8, qmin := -133, maxFin := 0x7F7F, inf := some 0x7F80, nan := some 0x7FC0 }
def fp16 : Fmt := { bits := 16, prec := 11, qmin := -24, maxFin := 0x7BFF, inf := some 0x7C00, nan := some 0x7E00 }
/-- R184: FP8 E4M3. [log 6, PRESUMED] -/
def e4m3 : Fmt := { bits := 8, prec := 4, qmin := -9, maxFin := 0x7E, inf := none, nan := some 0x7F }
/-- R184: FP8 E5M2. [log 6, PRESUMED] -/
def e5m2 : Fmt := { bits := 8, prec := 3, qmin := -16, maxFin := 0x7B, inf := some 0x7C, nan := some 0x7E }
/-- R184: the elements of MXFP6 E3M2. [log 6, PRESUMED] -/
def e3m2 : Fmt := { bits := 6, prec := 3, qmin := -4, maxFin := 0x1F, inf := none, nan := none }
/-- R184: the elements of MXFP6 E2M3. [log 6, PRESUMED] -/
def e2m3 : Fmt := { bits := 6, prec := 4, qmin := -3, maxFin := 0x1F, inf := none, nan := none }
/-- R184: the elements of MXFP4 E2M1. [log 6, PRESUMED] -/
def e2m1 : Fmt := { bits := 4, prec := 2, qmin := -1, maxFin := 0x7, inf := none, nan := none }

/-- Decode a code of a format, exactly. [log 6, PRESUMED] -/
def decodeF (f : Fmt) (code : Nat) : FVal :=
  let neg := bitAt code (f.bits - 1)
  let mag := code % 2 ^ (f.bits - 1)
  if some mag = f.inf then .inf neg
  else if f.maxFin < mag then .nan
  else
    let e := mag / 2 ^ (f.prec - 1)
    let m := mag % 2 ^ (f.prec - 1)
    if e = 0 then .fin neg m f.qmin else .fin neg (m + 2 ^ (f.prec - 1)) (f.qmin + (e - 1 : Nat))

/-- A mantissa shifted right by `n` bits, rounded to nearest with ties to even. -/
def rneShift (m n : Nat) : Nat :=
  let q := m / 2 ^ n
  let r := m % 2 ^ n
  if 2 * r < 2 ^ n ∨ (2 * r = 2 ^ n ∧ q % 2 = 0) then q else q + 1

/-- The magnitude code of a finite value rounded to a format; it may lie beyond the largest finite one. -/
def roundMag (f : Fmt) (mant : Nat) (exp : Int) : Nat :=
  if mant = 0 then 0
  else
    let len : Int := (Nat.log2 mant + 1 : Nat)
    let q := max (exp + len - f.prec) f.qmin
    let m := if q ≤ exp then mant * 2 ^ (exp - q).toNat else rneShift mant (q - exp).toNat
    (q - f.qmin).toNat * 2 ^ (f.prec - 1) + m

/-- Put a sign on a magnitude code. -/
def withSign (f : Fmt) (neg : Bool) (mag : Nat) : Nat := if neg then mag + 2 ^ (f.bits - 1) else mag

/-- R193: encode into a plain format; the flag tells a saturation. [log 6, PRESUMED] -/
def encodeF (f : Fmt) (v : FVal) : Nat × Bool :=
  match v with
  | .nan => (f.nan.getD f.maxFin, false)
  | .inf neg =>
    match f.inf with
    | some i => (withSign f neg i, false)
    | none => (f.nan.getD f.maxFin, false)
  | .fin neg m e =>
    let mag := roundMag f m e
    if mag ≤ f.maxFin then (withSign f neg mag, false)
    else match f.inf with
      | some i => (withSign f neg i, false)
      | none => (withSign f neg f.maxFin, true)

/-- Encode with saturation to the largest finite value, as in a microscaled block (R194). -/
def encodeSat (f : Fmt) (neg : Bool) (m : Nat) (e : Int) : Nat × Bool :=
  let mag := roundMag f m e
  if mag ≤ f.maxFin then (withSign f neg mag, false) else (withSign f neg f.maxFin, true)

/-- A binary32 value as a decoded value and back. -/
def of32 (x : BitVec 32) : FVal := decodeF fp32 x.toNat
def to32 (v : FVal) : BitVec 32 := BitVec.ofNat 32 (encodeF fp32 v).1

/-! ## Combination (R191, R192) -/

/-- The exact sum of two finite values, as mantissa and exponent with sign. -/
def addFin (na : Bool) (ma : Nat) (ea : Int) (nb : Bool) (mb : Nat) (eb : Int) : FVal :=
  let e := min ea eb
  let a : Int := (ma * 2 ^ (ea - e).toNat : Nat)
  let b : Int := (mb * 2 ^ (eb - e).toNat : Nat)
  let x := (if na then -a else a) + (if nb then -b else b)
  if x = 0 then .fin (na && nb) 0 e else .fin (decide (x < 0)) x.natAbs e

/-- R191 SUM. -/
def addF (a b : FVal) : FVal :=
  match a, b with
  | .nan, _ => .nan
  | _, .nan => .nan
  | .inf x, .inf y => if x = y then .inf x else .nan
  | .inf x, _ => .inf x
  | _, .inf y => .inf y
  | .fin na ma ea, .fin nb mb eb => addFin na ma ea nb mb eb

/-- The order key of a binary32 value that is no NaN: −0 lies below +0. -/
def orderKey (x : BitVec 32) : Int :=
  if bitAt x.toNat 31 then -(x.toNat % 2 ^ 31 : Nat) - 1 else (x.toNat : Nat)

/-- The functions of ROP (R154). -/
inductive Rop where
  | sum | max | min
  deriving DecidableEq, Repr

def ropOf (code : Nat) : Rop := if code = 0 then .sum else if code = 1 then .max else .min

/-- R191: combine two binary32 values. -/
def combineF (r : Rop) (a b : BitVec 32) : BitVec 32 :=
  match of32 a, of32 b with
  | .nan, _ => 0x7FC00000
  | _, .nan => 0x7FC00000
  | x, y =>
    match r with
    | .sum => to32 (addF x y)
    | .max => if orderKey a < orderKey b then b else a
    | .min => if orderKey b < orderKey a then b else a

/-- R192: combine two INT32 values. -/
def combineI (r : Rop) (a b : BitVec 32) : BitVec 32 :=
  match r with
  | .sum => a + b
  | .max => if a.toInt < b.toInt then b else a
  | .min => if b.toInt < a.toInt then b else a

/-- Whether a binary32 value is a NaN. -/
def isNan (x : BitVec 32) : Bool := of32 x == .nan

/-! ## Formats by code (R184) -/

/-- The class of a format code: float, integer, or none. -/
def isFloatFmt (c : Nat) : Bool := [0, 1, 2, 3, 4, 8, 9, 0xA, 0xB, 0xC].contains c
def isIntFmt (c : Nat) : Bool := [5, 6].contains c
def isMx (c : Nat) : Bool := [8, 9, 0xA, 0xB, 0xC].contains c
def wireFmtOk (c : Nat) : Bool := isFloatFmt c || isIntFmt c
def localFmtOk (c : Nat) : Bool := wireFmtOk c && !isMx c

/-- R185: format codes of one command. -/
def sameClass (w l : Nat) : Bool := isFloatFmt w == isFloatFmt l

/-- The element format of a float code. -/
def fmtOf (c : Nat) : Fmt :=
  if c = 0 then fp32 else if c = 1 then bf16 else if c = 2 then fp16
  else if c = 3 ∨ c = 8 then e4m3 else if c = 4 ∨ c = 9 then e5m2
  else if c = 0xA then e3m2 else if c = 0xB then e2m3 else e2m1

/-- The element bits of a code. -/
def elemBits (c : Nat) : Nat := if c = 5 then 32 else if c = 6 then 8 else (fmtOf c).bits

/-- The element bytes of a local format. -/
def elemBytes (c : Nat) : Nat := elemBits c / 8

/-- R187: emax of R194. -/
def emaxOf (c : Nat) : Int := if c = 8 then 8 else if c = 9 then 15 else if c = 0xA then 4 else 2

/-- R186, R187: the elements of a full packet. -/
def perPacket (w : Nat) : Nat :=
  if w = 8 ∨ w = 9 then 480 else if w = 0xA ∨ w = 0xB then 640 else if w = 0xC then 960
  else 512 / elemBytes w

/-! ## Plain elements -/

/-- Decode one plain element to binary32 or INT32. -/
def decodeElem (c : Nat) (code : Nat) : BitVec 32 :=
  if c = 5 then BitVec.ofNat 32 code
  else if c = 6 then BitVec.ofInt 32 (toSigned 8 code)
  else if c = 0 then BitVec.ofNat 32 code
  else to32 (decodeF (fmtOf c) code)

/-- R193: encode one value into a plain element; the flag tells a saturation. -/
def encodeElem (c : Nat) (v : BitVec 32) : Nat × Bool :=
  if c = 5 then (v.toNat, false)
  else if c = 6 then
    if v.toInt < -128 then (0x80, true) else if 127 < v.toInt then (0x7F, true) else (v.toNat % 256, false)
  else encodeF (fmtOf c) (of32 v)

/-- The elements of a packed byte string. -/
def unpack (c n : Nat) (b : Bytes) : List (BitVec 32) :=
  (List.range n).map fun i => decodeElem c (leAt b (i * elemBytes c) (elemBytes c))

/-- Elements packed in order, with the number of saturations. -/
def packElems (c : Nat) (vs : List (BitVec 32)) : Bytes × Nat :=
  let es := vs.map (encodeElem c)
  ((es.map fun e => leBytes (elemBytes c) e.1).flatten, (es.filter (·.2)).length)

/-! ## Microscaled blocks (R187, R188, R190, R194) -/

/-- Bytes of a block's elements. -/
def blockBytes (w : Nat) : Nat := 32 * elemBits w / 8

/-- The element codes of a block. -/
def blockCodes (w : Nat) (b : Bytes) : List Nat :=
  let x := leNat b
  (List.range 32).map fun i => fld x (i * elemBits w) (elemBits w)

/-- R190: decode one element under a scale; the flag tells an overflow beyond binary32. [log 6, PRESUMED] -/
def decodeScaled (w scale code : Nat) : BitVec 32 × Bool :=
  if scale = 0xFF then (0x7FC00000, false)
  else
    match decodeF (fmtOf w) code with
    | .fin neg m e =>
      let v := FVal.fin neg m (e + (scale : Int) - 127)
      (to32 v, decide (fp32.maxFin < roundMag fp32 m (e + (scale : Int) - 127)))
    | v => (to32 v, false)

/-- floor(log2) of a finite value that is not zero. -/
def floorLog2 (m : Nat) (e : Int) : Int := (Nat.log2 m : Int) + e

/-- R194: encode 32 values; the scale, the element codes and the number of saturations. [log 6, PRESUMED] -/
def encodeBlock (w : Nat) (vs : List (BitVec 32)) : Nat × List Nat × Nat :=
  let fs := vs.map of32
  if fs.any (fun v => match v with
      | .fin .. => false
      | _ => true) then (0xFF, List.replicate 32 0, 0)
  else
    let top := vs.foldl (fun a v => max a (v.toNat % 2 ^ 31)) 0
    let x0 : Int := match of32 (BitVec.ofNat 32 top) with
      | .fin _ m e => if m = 0 then -127 else floorLog2 m e - emaxOf w
      | _ => -127
    let x := min (max x0 (-127)) 127
    let es := fs.map fun v => match v with
      | .fin neg m e => encodeSat (fmtOf w) neg m (e - x)
      | _ => (0, false)
    ((x + 127).toNat, es.map (·.1), (es.filter (·.2)).length)

/-- Element codes packed with the bits of the format, lowest first. -/
def packCodes (bits : Nat) : List Nat → Nat
  | [] => 0
  | c :: r => c + 2 ^ bits * packCodes bits r

/-- The first lists of `n` values each; what the last one lacks, where COUNT ends inside a block, is zero: R187 is silent
on it. [log 55, DESIGN CHOICE] -/
def groupsOf (n : Nat) : Nat → List (BitVec 32) → List (List (BitVec 32))
  | 0, _ => []
  | k + 1, l => (l.take n ++ List.replicate (n - (l.take n).length) 0) :: groupsOf n k (l.drop n)

/-! ## Packets of elements (R186, R187) -/

/-- The payload of a packet that carries values in a wire format, with the number of saturations. -/
def encodePayload (w : Nat) (vs : List (BitVec 32)) : Bytes × Nat :=
  if isMx w then
    let bs := (groupsOf 32 (ceilDiv vs.length 32) vs).map (encodeBlock w)
    let data := (bs.map fun b => leBytes (blockBytes w) (packCodes (elemBits w) b.2.1)).flatten
    (padTo 480 data ++ padTo 32 (bs.map fun b => BitVec.ofNat 8 b.1),
     (bs.map fun b => b.2.2).foldl (· + ·) 0)
  else
    let e := packElems w vs
    (padTo (64 * ceilDiv e.1.length 64) e.1, e.2)

/-- The `n` values of a packet, each with whether its decoding overflowed. -/
def decodePayload (w n : Nat) (b : Bytes) : List (BitVec 32 × Bool) :=
  if isMx w then
    let es := ((List.range (ceilDiv n 32)).map fun k =>
      (blockCodes w ((b.drop (k * blockBytes w)).take (blockBytes w))).map (decodeScaled w (byteAt b (480 + k)))).flatten
    es.take n
  else (unpack w n b).map fun v => (v, false)

/-- The payload units that element `i` of a packet is decoded from; unit 7 holds the scales of a microscaled packet. -/
def elemUnits (w i : Nat) : List Nat :=
  if isMx w then [i * elemBits w / 512, ((i + 1) * elemBits w - 1) / 512, 7] else [i * elemBytes w / 64]

/-- R196: the poison of element `i` of a packet from the marks of its units. -/
def elemPoison (w : Nat) (poison : BitVec 8) (i : Nat) : Bool :=
  (elemUnits w i).any fun u => poison.getLsbD u

/-- R196: the marks of the units that hold a poisoned element. -/
def unitPoison (w : Nat) (marks : List Bool) : BitVec 8 :=
  let bad := (List.range marks.length).filter fun i => marks[i]? == some true
  let units := bad.flatMap (elemUnits w)
  BitVec.ofNat 8 (((List.range 8).map fun u => if units.contains u then 2 ^ u else 0).foldl (· + ·) 0)

end Sys2Proof.Machine
end

