-- ==== Sys2Proof/Machine/Phy.lean ====
section
/-! DEFINITION. The codes of the lanes: 8b/10b at stage A (R309), the Reed-Solomon code of the FEC frame
(R323, R324), and the symbol mapping of R315 and R316. The code group tables are those of IEEE 802.3
Clause 36, which R309 names (notes/assumptions/5.md). -/

namespace Sys2Proof.Machine

/-! ## 8b/10b (R309) -/

/-- A character: data or control, by its octet value. -/
inductive Char8 where
  | data (b : Nat)
  | ctl (b : Nat)
  deriving DecidableEq, Repr

def k28_5 : Char8 := .ctl 0xBC
def k28_3 : Char8 := .ctl 0x7C
def k27_7 : Char8 := .ctl 0xFB

/-- The six bits abcdei of D.0 to D.31 at negative running disparity, a first. -/
def code5b6b : List Nat :=
  [0b100111, 0b011101, 0b101101, 0b110001, 0b110101, 0b101001, 0b011001, 0b111000,
   0b111001, 0b100101, 0b010101, 0b110100, 0b001101, 0b101100, 0b011100, 0b010111] ++
  [0b011011, 0b100011, 0b010011, 0b110010, 0b001011, 0b101010, 0b011010, 0b111010,
   0b110011, 0b100110, 0b010110, 0b110110, 0b001110, 0b101110, 0b011110, 0b101011]

/-- The four bits fghj of .0 to .7 at negative running disparity, f first. -/
def code3b4b : List Nat := [0b1011, 0b1001, 0b0101, 0b1100, 0b1101, 0b1010, 0b0110, 0b1110]

/-- How many of the low `n` bits are ones. -/
def popBits : Nat → Nat → Nat
  | 0, _ => 0
  | n + 1, x => x % 2 + popBits n (x / 2)

/-- The low `n` bits in the opposite order. -/
def revBits : Nat → Nat → Nat
  | 0, _ => 0
  | n + 1, x => x % 2 * 2 ^ n + revBits n (x / 2)

/-- A sub-block of `n` bits at a running disparity: complemented at positive disparity when it is
unbalanced, or is one of the two balanced ones with two forms. -/
def subBlock (n code alt : Nat) (rd : Bool) : Nat :=
  if rd && (2 * popBits n code != n || code == alt) then 2 ^ n - 1 - code else code

/-- The running disparity after a sub-block. -/
def nextRd (n code : Nat) (rd : Bool) : Bool :=
  if 2 * popBits n code = n then rd else decide (n < 2 * popBits n code)

/-- The code group of a character, bit a lowest, and the disparity after it. [log 5, PRESUMED] -/
def encodeGroup (c : Char8) (rd : Bool) : BitVec 10 × Bool :=
  let b := match c with
    | .data b => b
    | .ctl b => b
  let x := b % 32
  let y := b / 32 % 8
  match c with
  | .data _ =>
    let six := subBlock 6 ((code5b6b[x]?).getD 0) 0b111000 rd
    let rd1 := nextRd 6 six rd
    let alt := y = 7 ∧ ((!rd1 ∧ (x = 17 ∨ x = 18 ∨ x = 20)) ∨ (rd1 ∧ (x = 11 ∨ x = 13 ∨ x = 14)))
    let four := subBlock 4 (if alt then 0b0111 else (code3b4b[y]?).getD 0) 0b1100 rd1
    (BitVec.ofNat 10 (revBits 6 six + revBits 4 four * 64), nextRd 4 four rd1)
  | .ctl _ =>
    let minus := if x = 28 then (if y = 5 then 0b0011111010 else 0b0011110011) else 0b1101101000
    let code := if rd then 1023 - minus else minus
    (BitVec.ofNat 10 (revBits 10 code), nextRd 10 code rd)

/-- The characters the device uses. -/
def allChars : List Char8 := (List.range 256).map .data ++ [k28_5, k28_3, k27_7]

/-- Decode a code group: the character, whether its disparity fits, and the disparity after it; none for an
invalid code group. [log 5, PRESUMED] -/
def decodeGroup (g : BitVec 10) (rd : Bool) : Option (Char8 × Bool × Bool) :=
  match allChars.find? fun c => (encodeGroup c rd).1 == g with
  | some c => some (c, true, (encodeGroup c rd).2)
  | none => (allChars.find? fun c => (encodeGroup c (!rd)).1 == g).map fun c => (c, false, (encodeGroup c (!rd)).2)

/-- The running disparity after a received sub-block of `n` bits, a first: more ones leave it positive, more zeros negative,
and of the balanced ones the one of all zeros before all ones positive, its complement negative. [log 5, PRESUMED] -/
def rdAfterSub (n code : Nat) (rd : Bool) : Bool :=
  if 2 * popBits n code ≠ n then decide (n < 2 * popBits n code)
  else if code = 2 ^ (n / 2) - 1 then true
  else if code = 2 ^ n - 2 ^ (n / 2) then false
  else rd

/-- The running disparity after any received code group, valid or not (R309). [log 5, PRESUMED] -/
def rdAfter (g : BitVec 10) (rd : Bool) : Bool :=
  rdAfterSub 4 (revBits 4 (g.toNat / 64)) (rdAfterSub 6 (revBits 6 (g.toNat % 64)) rd)

/-- Decode a run of code groups: each one's character and whether its disparity fits, none for an invalid one. -/
def decodeGroups : List (BitVec 10) → Bool → List (Option (Char8 × Bool)) × Bool
  | [], rd => ([], rd)
  | g :: r, rd =>
    let t := decodeGroups r (rdAfter g rd)
    ((decodeGroup g rd).map (fun c => (c.1, c.2.1)) :: t.1, t.2)

/-- Encode a run of characters at a running disparity, with the disparity after it. -/
def encodeGroups : List Char8 → Bool → List (BitVec 10) × Bool
  | [], rd => ([], rd)
  | c :: r, rd =>
    let t := encodeGroups r (encodeGroup c rd).2
    ((encodeGroup c rd).1 :: t.1, t.2)

/-! ## PAM4 (R315, R316) -/

/-- R315: the level of a pair of bits, the higher symbol bit first. -/
def grayLevel (pair : Nat) : Nat := if pair = 0 then 0 else if pair = 1 then 1 else if pair = 3 then 2 else 3

/-- R315: the levels of the five UI of a 10-bit symbol. -/
def symbolLevels (sym : Nat) : List Nat := (List.range 5).map fun k => grayLevel (fld sym (2 * k) 2)

/-- R316: the precoded level of a level after another, and back. -/
def precode (before v : Nat) : Nat := (v + 4 - before % 4) % 4
def unprecode (before w : Nat) : Nat := (w + before) % 4

/-- R316: a run of levels precoded from `w` on, with the last precoded level. -/
def precodeRun (w : Nat) : List Nat → List Nat × Nat
  | [] => ([], w)
  | v :: r =>
    let t := precodeRun (precode w v) r
    (precode w v :: t.1, t.2)

/-! ## Pseudo-random sequences (R317, R345) -/

/-- The register length and the taps of a sequence by its code of R345. -/
def prbsTaps : Nat → Nat × List Nat
  | 1 => (7, [7, 6]) | 2 => (9, [9, 5]) | 3 => (13, [13, 12, 2, 1]) | 4 => (15, [15, 14]) | _ => (31, [31, 28])

/-- One step of a sequence's register: the bit of the highest power is sent, and the sum of the taps shifted in. [log 47, DESIGN CHOICE] -/
def prbsStep (code r : Nat) : Bool × Nat :=
  let x := prbsTaps code
  let sum := (x.2.map fun k => bit (bitAt r (k - 1))).foldl (· + ·) 0 % 2
  (bitAt r (x.1 - 1), (2 * r + sum) % 2 ^ x.1)

/-- The next `n` bits of a sequence, with the register after them. -/
def prbsBits (code : Nat) : Nat → Nat → List Bool × Nat
  | 0, r => ([], r)
  | n + 1, r =>
    let a := prbsStep code r
    let t := prbsBits code n a.2
    (a.1 :: t.1, t.2)

/-- Bits two to a UI, the first one sent the first of its pair (R315, R317). -/
def pairLevels : List Bool → List Nat
  | a :: b :: r => grayLevel (2 * bit a + bit b) :: pairLevels r
  | _ => []

/-! ## Training frames (R317, R318) -/

/-- The marker, and the control field with each bit held 4 UI. -/
def markerLevels : List Nat := List.replicate 32 3 ++ List.replicate 32 0
def controlLevels (c : BitVec 64) : List Nat :=
  ((List.range 64).map fun i => List.replicate 4 (if bitAt c.toNat i then 3 else 0)).flatten

/-- R317: the 4,200 UI of a training frame at a lane position, the pattern precoded from `w` on where precoding is in force;
with the last precoded level. -/
def frameLevels (c : BitVec 64) (pos : Nat) (precoded : Bool) (w : Nat) : List Nat × Nat :=
  let seq := pairLevels (prbsBits 3 7760 (0x1000 + 0x0155 * pos)).1
  let run := if precoded then precodeRun w seq else (seq, w)
  (markerLevels ++ controlLevels c ++ run.1, run.2)

/-! ## Dealing the block stream (R307) -/

/-- R307: the octet slot of a block of the stream over `n` octets, and its number in that octet. -/
def blockSlot (n b : Nat) : Nat × Nat := (b % n, b / n)

/-- R307: at stage A, the logical lane of byte `q` of an octet's blocks. -/
def byteLane (q : Nat) : Nat := q % 8

/-- R307: the FEC frame of block `m` of an octet, and the data byte of that frame at which it begins. -/
def blockFrame (m : Nat) : Nat × Nat := (m / 35, 32 * (m % 35))

/-- R307: the blocks that go to each of `n` octet slots. -/
def dealBlocks {α : Type} (n : Nat) (blocks : List α) : List (List α) :=
  (List.range n).map fun k => (blocks.zipIdx.filter fun x => (blockSlot n x.2).1 == k).map (·.1)

/-- R307: the bytes of an octet's blocks on each logical lane at stage A. -/
def laneBytes (octet : Bytes) : List Bytes :=
  (List.range 8).map fun k => (octet.zipIdx.filter fun x => byteLane x.2 == k).map (·.1)

/-! ## RS(240,224) over GF(2^10) (R323, R324) -/

/-- Multiplication by α. -/
def gfx (a : Nat) : Nat := if 1024 ≤ 2 * a then (2 * a) ^^^ 0x409 else 2 * a

/-- The product of two field elements. -/
def gmulAux : Nat → Nat → Nat → Nat
  | 0, _, _ => 0
  | n + 1, a, b => (if b % 2 = 1 then a else 0) ^^^ gmulAux n (gfx a) (b / 2)
def gmul (a b : Nat) : Nat := gmulAux 10 a b

/-- The inverse of a field element other than 0: its power 2^10 − 2. -/
def ginvAux : Nat → Nat → Nat
  | 0, _ => 1
  | n + 1, a => let q := gmul a a; gmul q (ginvAux n q)
def ginv (a : Nat) : Nat := ginvAux 9 a

/-- α to a power. -/
def gpow : Nat → Nat
  | 0 => 1
  | n + 1 => gfx (gpow n)

/-- The value of a polynomial, highest coefficient first. -/
def gEval (p : List Nat) (x : Nat) : Nat := p.foldl (fun a c => gmul a x ^^^ c) 0

/-- The syndromes of a received word: its values at α^0 to α^15. -/
def syndromes (r : List Nat) : List Nat := (List.range 16).map fun j => gEval r (gpow j)

/-- The generator polynomial (x − α^0) … (x − α^15), highest coefficient first. -/
def rsGenerator : List Nat :=
  (List.range 16).foldl (fun g j =>
    let lo := 0 :: g.map (gmul (gpow j))
    (g ++ [0]).zipWith (· ^^^ ·) lo) [1]

/-- One step of the division by the generator: shift in a message symbol. -/
def rsShift (par : List Nat) (m : Nat) : List Nat :=
  let f := m ^^^ par.headD 0
  (par.drop 1 ++ [0]).zipWith (fun a g => a ^^^ gmul f g) (rsGenerator.drop 1)

/-- R323: a codeword: 224 message symbols with their 16 parity symbols. -/
def rsEncode (m : List Nat) : List Nat := m ++ m.foldl rsShift (List.replicate 16 0)

/-- The sum of two polynomials, lowest coefficient first. -/
def gAdd : List Nat → List Nat → List Nat
  | [], q => q
  | p, [] => p
  | a :: p, b :: q => (a ^^^ b) :: gAdd p q

/-- The state of Berlekamp and Massey's search: locator, previous one, their parameters. -/
structure BmState where
  c : List Nat
  b : List Nat
  l : Nat
  m : Nat
  d : Nat

/-- A coefficient of a polynomial. -/
def coeffOf (p : List Nat) (i : Nat) : Nat := p.getD i 0

/-- The discrepancy of a locator at syndrome n. -/
def bmDisc (syn c : List Nat) (l n : Nat) : Nat :=
  (List.range (l + 1)).foldl (fun a i =>
    a ^^^ (if i ≤ n then gmul (coeffOf c i) (coeffOf syn (n - i)) else 0)) 0

def bmStep (syn : List Nat) (x : BmState) (n : Nat) : BmState :=
  let d := bmDisc syn x.c x.l n
  if d = 0 then { x with m := x.m + 1 }
  else
    let f := gmul d (ginv x.d)
    let c := gAdd x.c (List.replicate x.m 0 ++ x.b.map (gmul f))
    if 2 * x.l ≤ n then { c := c, b := x.c, l := n + 1 - x.l, m := 1, d := d }
    else { x with c := c, m := x.m + 1 }

/-- The locator of a word's errors and its length. -/
def bmRun (syn : List Nat) : BmState :=
  (List.range 16).foldl (bmStep syn) { c := [1], b := [1], l := 0, m := 1, d := 1 }

/-- Positions, by the power of x they belong to, whose inverse power of α is a root of the locator. -/
def rootsFrom (c : List Nat) : Nat → Nat → Nat → List Nat
  | 0, _, _ => []
  | n + 1, k, inv =>
    let rest := rootsFrom c n (k + 1) (gmul inv 0x204)
    if gEval c.reverse inv = 0 then k :: rest else rest

/-- R323, R325: the symbols in error of a received codeword of 240, or none when it cannot be corrected. -/
def rsErrors (r : List Nat) : Option (List Nat) :=
  let syn := syndromes r
  if syn.all (· == 0) then some []
  else
    let x := bmRun syn
    let roots := rootsFrom x.c 240 0 1
    if x.l ≤ 8 ∧ roots.length = x.l then some (roots.map fun k => 239 - k) else none

/-! ## The FEC frame (R324) -/

/-- The logical lane that carries symbol s of codeword c. -/
def symbolLane (c s : Nat) : Nat := 4 * (s % 2) + (c + 4 - s / 2 % 4) % 4

/-- Data symbol `j` of a frame's 1,120 bytes. -/
def dataSymbol (data : Bytes) (j : Nat) : Nat :=
  ((List.range 10).map fun k => 2 ^ k * bit (bitAt (byteAt data ((10 * j + k) / 8)) ((10 * j + k) % 8))).foldl (· + ·) 0

/-- The message of codeword `c`: every fourth data symbol. -/
def wordMessage (data : Bytes) (c : Nat) : List Nat := (List.range 224).map fun i => dataSymbol data (4 * i + c)

/-- The four codewords of a frame. -/
def frameWords (data : Bytes) : List (List Nat) := (List.range 4).map fun c => rsEncode (wordMessage data c)

/-- The 120 symbols of a frame on logical lane `l`, in the order of their positions. -/
def laneSymbols (words : List (List Nat)) (l : Nat) : List Nat :=
  (List.range 120).map fun p => (words.getD ((l + p) % 4) []).getD (2 * p + l / 4) 0

/-- The 600 UI of a frame on a logical lane (R315, R316), with the last precoded level. -/
def laneLevels (words : List (List Nat)) (l : Nat) (precoded : Bool) (w : Nat) : List Nat × Nat :=
  let seq := ((laneSymbols words l).map symbolLevels).flatten
  if precoded then precodeRun w seq else (seq, w)

/-- The codewords that hold a bit of data byte `k` of a frame. -/
def byteWords (k : Nat) : List Nat := [8 * k / 10 % 4, (8 * k + 7) / 10 % 4]

/-- R346: the first `n` symbols of a codeword inverted. -/
def invertSymbols (n : Nat) (word : List Nat) : List Nat := (word.take n).map (1023 - ·) ++ word.drop n

end Sys2Proof.Machine
end

