-- ==== Sys2Proof/Machine/Crypto.lean ====
section
/-! DEFINITION. The cryptographic functions that the spec names by their standards: SHA-256 and HMAC
(R8, R443), SHA-384 and ECDSA P-384 (R447), the AES-256 key unwrap of RFC 3394 (R446). Their inner
definitions are those of the public standards (notes/assumptions/5.md). -/

namespace Sys2Proof.Machine

/-- A rotation right within `w` bits. -/
def rotr (w x n : Nat) : Nat := (x >>> n ||| x <<< (w - n)) % 2 ^ w

/-- Split a list into pieces of `n` (n > 0), with fuel. -/
def chunksFuel {α : Type} : Nat → Nat → List α → List (List α)
  | 0, _, _ => []
  | _ + 1, _, [] => []
  | f + 1, n, l => l.take n :: chunksFuel f n (l.drop n)

/-- Split a list into pieces of `n`. -/
def chunks {α : Type} (n : Nat) (l : List α) : List (List α) := chunksFuel (l.length + 1) n l

/-- The primes below 410, the first 80: no number below 441 has a factor other than these eight. -/
def shaPrimes : List Nat :=
  ((List.range 410).drop 2).filter fun n => [2, 3, 5, 7, 11, 13, 17, 19].all fun d => n == d || n % d != 0

/-- The largest number of `bits` more bits above `r` whose power `k` is at most `x`. -/
def rootFrom (k x : Nat) : Nat → Nat → Nat
  | 0, r => r
  | bits + 1, r => rootFrom k x bits (if (r + 2 ^ bits) ^ k ≤ x then r + 2 ^ bits else r)

/-- The first `w` fraction bits of the root of degree `k` of a number below 512. -/
def rootFraction (k w n : Nat) : Nat := rootFrom k (n * 2 ^ (k * w)) (w + 5) 0 % 2 ^ w

/-- The round constants of a hash of `w`-bit words: fractions of the cube roots of the first `n` primes. -/
def shaK (w n : Nat) : List Nat := (shaPrimes.take n).map (rootFraction 3 w)

/-- Its initial value: fractions of the square roots of eight primes, the first eight for SHA-256 and the next
eight for SHA-384. -/
def shaH (w skip : Nat) : List Nat := ((shaPrimes.drop skip).take 8).map (rootFraction 2 w)

/-- The round constants of SHA-256 and of SHA-384, computed once. -/
def sha256K : List Nat := shaK 32 64
def sha384K : List Nat := shaK 64 80

/-- The parameters in which the two hashes differ: word width, the rotations of the schedule and of the
rounds, and the round constants. -/
structure ShaKind where
  w  : Nat
  s0 : Nat × Nat × Nat
  s1 : Nat × Nat × Nat
  b0 : Nat × Nat × Nat
  b1 : Nat × Nat × Nat
  k  : List Nat

def sha256Kind : ShaKind := ⟨32, (7, 18, 3), (17, 19, 10), (2, 13, 22), (6, 11, 25), sha256K⟩
def sha384Kind : ShaKind := ⟨64, (1, 8, 7), (19, 61, 6), (28, 34, 39), (14, 18, 41), sha384K⟩

/-- The message schedule, newest word first, extended by `n` words. -/
def shaSchedule (q : ShaKind) : Nat → List Nat → List Nat
  | 0, ws => ws
  | n + 1, ws =>
    let at_ (i : Nat) := (ws[i]?).getD 0
    let x := at_ 14
    let y := at_ 1
    let a := rotr q.w x q.s0.1 ^^^ rotr q.w x q.s0.2.1 ^^^ x >>> q.s0.2.2
    let b := rotr q.w y q.s1.1 ^^^ rotr q.w y q.s1.2.1 ^^^ y >>> q.s1.2.2
    shaSchedule q n ((at_ 15 + a + at_ 6 + b) % 2 ^ q.w :: ws)

/-- One round on the eight working words. -/
def shaRound (q : ShaKind) (v : List Nat) (kw : Nat × Nat) : List Nat :=
  match v with
  | [a, b, c, d, e, f, g, h] =>
    let t1 := h + (rotr q.w e q.b1.1 ^^^ rotr q.w e q.b1.2.1 ^^^ rotr q.w e q.b1.2.2) +
      ((e &&& f) ^^^ ((2 ^ q.w - 1 - e) &&& g)) + kw.1 + kw.2
    let t2 := (rotr q.w a q.b0.1 ^^^ rotr q.w a q.b0.2.1 ^^^ rotr q.w a q.b0.2.2) +
      ((a &&& b) ^^^ (a &&& c) ^^^ (b &&& c))
    [(t1 + t2) % 2 ^ q.w, a, b, c, (d + t1) % 2 ^ q.w, e, f, g]
  | _ => v

/-- One block. -/
def shaBlock (q : ShaKind) (h : List Nat) (block : Bytes) : List Nat :=
  let ws := (chunks (q.w / 8) block).map beNat
  let sched := (shaSchedule q (q.k.length - 16) ws.reverse).reverse
  let v := (q.k.zip sched).foldl (shaRound q) h
  (h.zip v).map fun p => (p.1 + p.2) % 2 ^ q.w

/-- Hash a byte string: padding, blocks, and the words of the result most significant byte first. -/
def sha (q : ShaKind) (h0 : List Nat) (outWords : Nat) (m : Bytes) : Bytes :=
  let block := 2 * q.w
  let lenBytes := q.w / 4
  let padZero := (block - (m.length + 1 + lenBytes) % block) % block
  let padded := m ++ [0x80] ++ zeros padZero ++ beBytes lenBytes (8 * m.length)
  let h := (chunks block padded).foldl (shaBlock q) h0
  ((h.take outWords).map (beBytes (q.w / 8))).flatten

/-- SHA-256. [log 5, PRESUMED] -/
def sha256 (m : Bytes) : Bytes := sha sha256Kind (shaH 32 0) 8 m

/-- SHA-384. [log 5, PRESUMED] -/
def sha384 (m : Bytes) : Bytes := sha sha384Kind (shaH 64 8) 6 m

/-- HMAC-SHA-256 with a 32-byte key. [log 5, PRESUMED] -/
def hmac256 (key m : Bytes) : Bytes :=
  let k := padTo 64 key
  sha256 (k.map (· ^^^ 0x5C) ++ sha256 (k.map (· ^^^ 0x36) ++ m))

/-- The substitution table of AES, and its inverse: the byte for `x` lies at bit 8x. -/
def aesSbox : Nat :=
  0x16bb54b00f2d99416842e6bf0d89a18cdf2855cee9871e9b948ed9691198f8e19e1dc186b95735610ef6034866b53e708a8bbd4b1f74dde8c6b4a61c2e2578ba08ae7a65eaf4566ca94ed58d6d37c8e779e4959162acd3c25c2406490a3a32e0db0b5ede14b8ee4688902a22dc4f816073195d643d7ea7c41744975fec130ccdd2f3ff1021dab6bcf5389d928f40a351a89f3c507f02f94585334d43fbaaefd0cf584c4a39becb6a5bb1fc20ed00d153842fe329b3d63b52a05a6e1b1a2c830975b227ebe28012079a059618c323c7041531d871f1e5a534ccf73f362693fdb7c072a49cafa2d4adf04759fa7dc982ca76abd7fe2b670130c56f6bf27b777c63
def aesInvSbox : Nat :=
  0x7d0c2155631469e126d677ba7e042b17619953833cbbebc8b0f52aae4d3be0a0ef9cc9939f7ae52d0d4ab519a97f51605fec8027591012b131c7078833a8dd1ff45acd78fec0db9a2079d2c64b3e56fc1bbe18aa0e62b76f89c5291d711af1476edf751ce837f9e28535ade72274ac9673e6b4f0cecff297eadc674f4111913a6b8a130103bdafc1020f3fca8f1e2cd00645b3b80558e4f70ad3bc8c00abd890849d8da75746155edab9edfd5048706c92b6655dcc5ca4d41698688664f6f87225d18b6d49a25b76b224d92866a12e084ec3fa420b954cee3d23c2a632947b54cbe9dec444438e3487ff2f9b8239e37cfbd7f3819ea340bf38a53630d56a0952

def aesSub (x : Nat) : Nat := (aesSbox >>> (8 * x)) % 256
def aesInvSub (x : Nat) : Nat := (aesInvSbox >>> (8 * x)) % 256

/-- Multiply by x in the field of AES. -/
def aesX (a : Nat) : Nat := if a < 128 then 2 * a else (2 * a) % 256 ^^^ 0x1B

/-- Multiply in the field of AES by a constant of four bits. -/
def aesMul (c a : Nat) : Nat :=
  let a2 := aesX a
  let a4 := aesX a2
  let a8 := aesX a4
  (if bitAt c 0 then a else 0) ^^^ (if bitAt c 1 then a2 else 0) ^^^ (if bitAt c 2 then a4 else 0) ^^^
    (if bitAt c 3 then a8 else 0)

/-- The key schedule of AES-256 as words of four bytes, newest first. -/
def aesExpand : Nat → Nat → List (List Nat) → List (List Nat)
  | 0, _, ws => ws
  | n + 1, i, ws =>
    let prev := (ws[0]?).getD []
    let back := (ws[7]?).getD []
    let rot := prev.drop 1 ++ prev.take 1
    let rcon := Nat.repeat aesX (i / 8 - 1) 1
    let t :=
      if i % 8 = 0 then
        match rot.map aesSub with
        | a :: r => (a ^^^ rcon) :: r
        | [] => []
      else if i % 8 = 4 then prev.map aesSub
      else prev
    aesExpand n (i + 1) (((back.zip t).map fun p => p.1 ^^^ p.2) :: ws)

/-- The fifteen round keys of AES-256, sixteen bytes each. -/
def aesKeys (key : List Nat) : List (List Nat) :=
  (chunks 4 (aesExpand 52 8 (chunks 4 key).reverse).reverse).map List.flatten

def xorList (a b : List Nat) : List Nat := (a.zip b).map fun p => p.1 ^^^ p.2

/-- The inverse row shift: byte 4c + r comes from column c - r. -/
def aesInvShift (v : List Nat) : List Nat :=
  (List.range 16).map fun i => (v[(4 * ((i / 4 + 4 - i % 4) % 4) + i % 4)]?).getD 0

def aesInvMix (v : List Nat) : List Nat :=
  ((chunks 4 v).map fun c =>
    match c with
    | [a, b, d, e] =>
      [aesMul 14 a ^^^ aesMul 11 b ^^^ aesMul 13 d ^^^ aesMul 9 e,
       aesMul 9 a ^^^ aesMul 14 b ^^^ aesMul 11 d ^^^ aesMul 13 e,
       aesMul 13 a ^^^ aesMul 9 b ^^^ aesMul 14 d ^^^ aesMul 11 e,
       aesMul 11 a ^^^ aesMul 13 b ^^^ aesMul 9 d ^^^ aesMul 14 e]
    | _ => c).flatten

/-- Decrypt one 16-byte block under AES-256. -/
def aesDecrypt (key block : List Nat) : List Nat :=
  match (aesKeys key).reverse with
  | [] => block
  | last :: rest =>
    let mid := rest.dropLast
    let first := (rest.getLast?).getD []
    let v := mid.foldl (fun v k => aesInvMix (xorList ((aesInvShift v).map aesInvSub) k)) (xorList block last)
    xorList ((aesInvShift v).map aesInvSub) first

/-- One step of the unwrap: index `t` from 6n down to 1. -/
def unwrapSteps (key : List Nat) (n : Nat) : Nat → Nat × List (List Nat) → Nat × List (List Nat)
  | 0, st => st
  | t + 1, (a, r) =>
    let i := t % n
    let ri := (r[i]?).getD []
    let blk := (beBytes 8 (a ^^^ (t + 1))).map BitVec.toNat ++ ri
    let d := aesDecrypt key blk
    unwrapSteps key n t (beNat ((d.take 8).map (BitVec.ofNat 8)), r.set i (d.drop 8))

/-- R446: the RFC 3394 unwrap of a 40-byte value, none when its integrity check fails. [log 5, PRESUMED] -/
def keyUnwrap (kek wrapped : Bytes) : Option Bytes :=
  let w := wrapped.map BitVec.toNat
  let n := wrapped.length / 8 - 1
  let (a, r) := unwrapSteps (kek.map BitVec.toNat) n (6 * n)
    (beNat (wrapped.take 8), (chunks 8 (w.drop 8)))
  if a = 0xA6A6A6A6A6A6A6A6 then some (r.flatten.map (BitVec.ofNat 8)) else none

/-! ## ECDSA P-384 -/

def p384 : Nat := 2 ^ 384 - 2 ^ 128 - 2 ^ 96 + 2 ^ 32 - 1
def p384n : Nat := 0xffffffffffffffffffffffffffffffffffffffffffffffffc7634d81f4372ddf581a0db248b0a77aecec196accc52973
def p384b : Nat := 0xb3312fa7e23ee7e4988e056be3f82d19181d9c6efe8141120314088f5013875ac656398d8a2ed19d2a85c8edd3ec2aef
def p384gx : Nat := 0xaa87ca22be8b05378eb1c71ef320ad746e1d3b628ba79b9859f741e082542a385502f25dbf55296c3a545e3872760ab7
def p384gy : Nat := 0x3617de4a96262c6f5d9e98bf9292dc29f8f41dbd289a147ce9da3113b5f0b8c00a60b1ce1d7e819d7a431d7c90ea0e5f

/-- The power `b ^ e` modulo `m`, over the bits of `e`. -/
def powMod (m : Nat) : Nat → Nat → Nat → Nat
  | 0, _, _ => 1 % m
  | f + 1, b, e =>
    if e = 0 then 1 % m
    else
      let r := powMod m f (b * b % m) (e / 2)
      if e % 2 = 1 then r * b % m else r

/-- The inverse modulo a prime of up to 384 bits. -/
def invMod (m x : Nat) : Nat := powMod m 385 (x % m) (m - 2)

/-- A point: none is the point at infinity. -/
abbrev EcPoint := Option (Nat × Nat)

def ecAdd (a b : EcPoint) : EcPoint :=
  match a, b with
  | none, q => q
  | q, none => q
  | some (x1, y1), some (x2, y2) =>
    if x1 = x2 ∧ (y1 + y2) % p384 = 0 then none
    else
      let l := if x1 = x2 then (3 * x1 * x1 + (p384 - 3)) * invMod p384 (2 * y1) % p384
        else (y2 + p384 - y1) * invMod p384 (x2 + p384 - x1) % p384
      let x3 := (l * l + 2 * p384 - x1 - x2) % p384
      some (x3, (l * (x1 + p384 - x3) + p384 - y1) % p384)

def ecMul : Nat → Nat → EcPoint → EcPoint
  | 0, _, _ => none
  | f + 1, k, q =>
    if k = 0 then none
    else
      let r := ecMul f (k / 2) (ecAdd q q)
      if k % 2 = 1 then ecAdd r q else r

/-- R447: verify a signature of a message under a public key. [log 5, PRESUMED] -/
def ecdsaVerify (qx qy r s : Nat) (m : Bytes) : Bool :=
  if r = 0 ∨ s = 0 ∨ p384n ≤ r ∨ p384n ≤ s ∨ (qy * qy + 3 * qx) % p384 ≠ (qx * qx * qx + p384b) % p384
  then false
  else
    let e := beNat (sha384 m)
    let w := invMod p384n s
    match ecAdd (ecMul 385 (e * w % p384n) (some (p384gx, p384gy))) (ecMul 385 (r * w % p384n) (some (qx, qy))) with
    | none => false
    | some (x, _) => x % p384n == r

end Sys2Proof.Machine
end

