-- ==== Sys2Proof/Machine/Operands.lean ====
section
/-! DEFINITION. The bit layouts of the packets the device exchanges: data headers (R268 to R272), control
packets (R275 to R279) and the atomic operand block (R74). A header or control packet is its 32 bytes
read as one little-endian number, so byte n begins at bit 8n and body bit k of R268 is bit 88 + k. -/

namespace Sys2Proof.Machine

/-- A word of fields: (lowest bit, width, value). -/
def pack (l : List (Nat × Nat × Nat)) : Nat := l.foldl (fun a f => a + f.2.2 % 2 ^ f.2.1 * 2 ^ f.1) 0

/-- A field of a header or control packet. -/
def hf (h : BitVec 256) (lo len : Nat) : Nat := fld h.toNat lo len

/-- A header with one field replaced. -/
def hset (h : BitVec 256) (lo len v : Nat) : BitVec 256 := BitVec.ofNat 256 (setFld h.toNat lo len v)

/-! ## Data headers (R268) -/

def hOp (h : BitVec 256) : Nat := hf h 0 8
def hVc (h : BitVec 256) : Nat := hf h 8 3
def hEpoch (h : BitVec 256) : Nat := hf h 11 1
def hDet (h : BitVec 256) : Bool := hf h 12 1 == 1
def hHops (h : BitVec 256) : Nat := hf h 16 8
def hDinc (h : BitVec 256) : Nat := hf h 24 8
def hSinc (h : BitVec 256) : Nat := hf h 32 8
def hDst (h : BitVec 256) : NodeId := BitVec.ofNat 16 (hf h 40 16)
def hSrc (h : BitVec 256) : NodeId := BitVec.ofNat 16 (hf h 56 16)
def hKey (h : BitVec 256) : Nat := hf h 72 16
def hLepoch (h : BitVec 256) : Nat := hf h 222 2

/-- FX[1:0] of requests and responses. -/
def hSinst (h : BitVec 256) : Nat := hf h 13 2
/-- FX[2]: NOTIFY in a request, SYN in a response. -/
def hNotify (h : BitVec 256) : Bool := hf h 15 1 == 1
def hSyn (h : BitVec 256) : Bool := hf h 15 1 == 1
def hTag (h : BitVec 256) : Nat := hf h 88 16
def hRound (h : BitVec 256) : Nat := hf h 104 6
-- the request body (R269)
def hWindow (h : BitVec 256) : Nat := hf h 110 8
def hOffset (h : BitVec 256) : Nat := hf h 118 36
def hLen (h : BitVec 256) : Nat := hf h 154 10
def hNctx (h : BitVec 256) : Nat := hf h 172 12
def hNctr (h : BitVec 256) : Nat := hf h 184 6
def hMsgid (h : BitVec 256) : Nat := hf h 190 10
def hMsglen (h : BitVec 256) : Nat := hf h 200 21
def hLast (h : BitVec 256) : Bool := hf h 221 1 == 1
-- the response body (R270)
def hStatus (h : BitVec 256) : Nat := hf h 110 4
def hUnc (h : BitVec 256) : Bool := hf h 114 1 == 1
def hMap (h : BitVec 256) : Nat := hf h 128 64
-- the collective body (R271)
def hMc (h : BitVec 256) : Bool := hf h 13 1 == 1
def hAxis (h : BitVec 256) : Nat := hf h 14 1
def hCollid (h : BitVec 256) : Nat := hf h 88 32
def hCard (h : BitVec 256) : Nat := hf h 120 16
def hFig (h : BitVec 256) : Nat := hf h 136 6
def hRep (h : BitVec 256) : Nat := hf h 142 6
def hSeg (h : BitVec 256) : Nat := hf h 148 12
def hPiece (h : BitVec 256) : Nat := hf h 160 30

/-- The operation codes (R66, R271). -/
def opLoad : Nat := 0x10
def opLoadResp : Nat := 0x18
def opStore : Nat := 0x20
def opWriteAck : Nat := 0x28
def opAtomicFetch : Nat := 0x30
def opAtomicPost : Nat := 0x31
def opAtomicResp : Nat := 0x38
def opNotify : Nat := 0x40
def opCollData : Nat := 0x80
def opCollToken : Nat := 0x81
def opMcast : Nat := 0x82
def opChart : Nat := 0xBF

/-- R68, R374: the context that a packet's NCTX names: STORE with NOTIFY, and NOTIFY, carry one. -/
def hContext (h : BitVec 256) : Option Nat :=
  if hOp h = opNotify ∨ (hOp h = opStore ∧ hNotify h) then some (hNctx h) else none

/-- Requests on V0 or V3 (R66). -/
def isRequest (op : Nat) : Bool := [0x10, 0x20, 0x30, 0x31, 0x40].contains op
/-- Responses on V1 or V4 (R66). -/
def isResponse (op : Nat) : Bool := [0x18, 0x28, 0x38].contains op
/-- Collective data, chart packets apart (R271). -/
def isCollective (op : Nat) : Bool := [0x80, 0x81, 0x82].contains op
/-- Codes with a meaning; all others are reserved (R66, R271). -/
def isKnownOp (op : Nat) : Bool := isRequest op || isResponse op || isCollective op || op == 0xBF

/-- The place of PUNITS: in a response, or in a collective packet. -/
def hPunits (h : BitVec 256) : Nat := if isCollective (hOp h) then hf h 190 4 else hf h 115 4

/-- The lowest bit of the POISON field by OP (R269, R270, R271). -/
def poisonBit (op : Nat) : Nat := if isCollective op then 194 else if isResponse op then 120 else 164

def hPoison (h : BitVec 256) : BitVec 8 := BitVec.ofNat 8 (hf h (poisonBit (hOp h)) 8)
def setPoison (h : BitVec 256) (p : BitVec 8) : BitVec 256 := hset h (poisonBit (hOp h)) 8 p.toNat

/-- R272: the payload units of a packet, none for an unframed length. -/
def payloadUnits (h : BitVec 256) : Option Nat :=
  let op := hOp h
  if op = opLoad ∨ op = opNotify then some 0
  else if op = opWriteAck ∨ op = opCollToken then if hPunits h = 0 then some 0 else none
  else if op = opStore ∨ op = opChart then
    if hLen h < 1 ∨ 512 < hLen h then none
    else
      let u := ceilDiv (hOffset h % 64 + hLen h) 64
      if 8 < u then none else some u
  else if op = opAtomicFetch ∨ op = opAtomicPost then some 1
  else if op = opLoadResp ∨ op = opAtomicResp ∨ op = opCollData ∨ op = opMcast then
    if 8 < hPunits h then none else some (hPunits h)
  else none

/-- R273: the CRC of a data header with its link sequence number. -/
def headerCrc (seqNr : Nat) (h : BitVec 256) : Nat :=
  crc32c (leBytes 2 seqNr ++ leBytes 28 h.toNat)

/-- R273: the CRC field read from bytes 28 to 31, most significant byte first. -/
def crcField (h : BitVec 256) : Nat := beNat (leBytes 4 (hf h 224 32))

/-- Check 2 of R281. -/
def headerCrcOk (seqNr : Nat) (h : BitVec 256) : Bool := crcField h == headerCrc seqNr h

/-- R274: the header as it leaves: the link epoch and the CRC of this hop. -/
def sealHeader (seqNr lepoch : Nat) (h : BitVec 256) : BitVec 256 :=
  let h1 := hset h 222 2 lepoch
  hset h1 224 32 (leNat (beBytes 4 (headerCrc seqNr h1)))

/-- R210: the footprint of a packet in cells. -/
def footprint (payload : Nat) : Nat := ceilDiv (32 + payload) 64

/-- The common fields of a header (R268). -/
def commonFields (op vc epoch det hops : Nat) (dinc sinc : BitVec 8) (dst src : NodeId) (key : Nat) :
    List (Nat × Nat × Nat) :=
  [(0, 8, op), (8, 3, vc), (11, 1, epoch), (12, 1, det), (16, 8, hops), (24, 8, dinc.toNat),
   (32, 8, sinc.toNat), (40, 16, dst.toNat), (56, 16, src.toNat), (72, 16, key)]

/-- R270: a response header from the request it answers, routing fields exchanged (R58, R270). -/
def responseHeader (req : BitVec 256) (op : Nat) (status : Status) (units : Nat) (poison : BitVec 8)
    (map : Nat) (unc syn : Bool) (tag : Nat) : BitVec 256 :=
  BitVec.ofNat 256 (pack (commonFields op 1 0 0 0 (BitVec.ofNat 8 (hSinc req)) (BitVec.ofNat 8 (hDinc req))
    (hSrc req) (hDst req) (hKey req) ++
    [(13, 2, hSinst req), (15, 1, bit syn), (88, 16, tag), (104, 6, hRound req), (110, 4, status.code),
     (114, 1, bit unc), (115, 4, units), (120, 8, poison.toNat), (128, 64, map)]))

/-- The response OP a request is answered by (R66). -/
def answerOp (op : Nat) : Nat :=
  if op = opLoad then opLoadResp else if op = opAtomicFetch then opAtomicResp else opWriteAck

/-! ## Control packets (R275) -/

/-- Byte n of a control packet. -/
def cByte (b : BitVec 256) (n : Nat) : Nat := hf b (8 * n) 8
/-- Bytes n to n + len - 1 as a little-endian number. -/
def cNum (b : BitVec 256) (n len : Nat) : Nat := hf b (8 * n) (8 * len)

def ctIdle : Nat := 0xC0
def ctStatus : Nat := 0xC1
def ctNak : Nat := 0xC2
def ctReplayStart : Nat := 0xC3
def ctLinkStart : Nat := 0xC4
def ctHail : Nat := 0xC5
def ctDepart : Nat := 0xC6
def ctBeacon : Nat := 0xC7
def ctNotice : Nat := 0xC8
def ctGrant : Nat := 0xC9
def ctRelease : Nat := 0xCA
def ctProbe : Nat := 0xCB

/-- R273: the CRC of a control packet, over bytes 0 to 27. -/
def controlCrc (b : BitVec 256) : Nat := crc32c (leBytes 28 b.toNat)

/-- R276: a block that the receiver takes as a control packet: known CTYPE, MAGIC, CRC, and REL only
for CALLER_NOTICE. -/
def controlValid (b : BitVec 256) : Bool :=
  decide (0xC0 ≤ cByte b 0) && decide (cByte b 0 ≤ 0xCB) && cNum b 2 2 == 0x5AC3 &&
    crcField b == controlCrc b && (hf b 10 1 == bit (cByte b 0 == ctNotice))

/-- R275: a control packet with the given body fields (bit, width, value) and its CRC. -/
def control (ctype lepoch cseq : Nat) (body : List (Nat × Nat × Nat)) : BitVec 256 :=
  let b := BitVec.ofNat 256 (pack ([(0, 8, ctype), (8, 2, lepoch), (10, 1, bit (ctype == ctNotice)),
    (16, 16, 0x5AC3), (32, 8, cseq)] ++ body))
  hset b 224 32 (leNat (beBytes 4 (controlCrc b)))

/-- Body bytes n to n + len - 1 of a control packet. -/
def cb (n len v : Nat) : Nat × Nat × Nat := (8 * n, 8 * len, v)

/-- A control packet sent again on a hop: new link epoch (and for routed ones new HOPS), new CRC. -/
def resealControl (lepoch : Nat) (b : BitVec 256) : BitVec 256 :=
  let b1 := hset b 8 2 lepoch
  hset b1 224 32 (leNat (beBytes 4 (controlCrc b1)))

/-! ## Atomic operand block (R74) -/

/-- R4, R74: an operand of an atomic as it is sent: for LEN 4 its upper bytes are reserved. -/
def sentOperand (len : Nat) (v : BitVec 64) : Nat := if len = 4 then v.toNat % 2 ^ 32 else v.toNat

/-- The 64-byte operand block of an atomic on `len` bytes: OPB is reserved but for CAS (0xA), and so are the upper bits
of AFN; reserved bits are sent as 0 (R4). -/
def atomicBlock (len : Nat) (a : AtomicArgs) : Bytes :=
  let afn := a.afn.toNat % 16
  leBytes 8 (sentOperand len a.opa) ++ leBytes 8 (if afn = 0xA then sentOperand len a.opb else 0) ++ leBytes 1 afn ++
    zeros 47

/-- The function and operands an operand block holds. -/
def atomicArgs (b : Bytes) : AtomicArgs :=
  { opa := BitVec.ofNat 64 (leAt b 0 8), opb := BitVec.ofNat 64 (leAt b 8 8),
    afn := BitVec.ofNat 8 (byteAt b 16) }

/-! ## Node ids (R40) -/

def nodeX (n : NodeId) : Nat := fld n.toNat 10 6
def nodeY (n : NodeId) : Nat := fld n.toNat 5 5
def nodeZ (n : NodeId) : Nat := fld n.toNat 0 5

/-- The coordinate of a node in dimension d: 0 x, 1 y, 2 z. -/
def coord (n : NodeId) (d : Nat) : Nat := if d = 0 then nodeX n else if d = 1 then nodeY n else nodeZ n

/-- The node id of coordinates. -/
def nodeOf (x y z : Nat) : NodeId := BitVec.ofNat 16 (x % 64 * 1024 + y % 32 * 32 + z % 32)

end Sys2Proof.Machine
end

