-- ==== Sys2Proof/Machine/Flags.lean ====
section
/-! DEFINITION. How an event becomes a fault message with its severity (R363 to R368), a Logbook record
(R432, R433), an FDP event (R440) and the replace request (R392): the flags and reports every block
shares. -/

namespace Sys2Proof.Machine

/-- The base severity of a kind (R365), none where the class does not define it. -/
def baseSeverity (cls kind : Nat) : Option Severity :=
  match cls, kind with
  | 1, 1 | 1, 2 | 1, 3 => some .note
  | 1, 4 | 1, 5 => some .corrected
  | 1, 6 => some .degraded
  | 2, 2 | 2, 3 | 2, 0xC | 2, 0xD => some .degraded
  | 2, 1 | 2, 4 | 2, 5 | 2, 6 | 2, 7 | 2, 8 | 2, 9 | 2, 0xA | 2, 0xB | 2, 0xE | 2, 0xF => some .note
  | 3, 1 | 3, 2 => some .note
  | 3, 3 => some .degraded
  | 4, 1 => some .note
  | 5, 1 | 5, 2 => some .degraded
  | 5, 3 | 5, 4 => some .severe
  | 5, 5 => some .fatal
  | 6, 1 | 6, 4 => some .corrected
  | 6, 2 | 6, 3 | 6, 5 => some .degraded
  | 6, 6 => some .severe
  | 6, 7 => some .note
  | 7, 1 | 7, 2 => some .note
  | 8, 1 => some .degraded
  | 8, 2 => some .severe
  | 9, 1 | 9, 3 => some .note
  | 9, 2 | 9, 4 => some .degraded
  | 0xA, 1 => some .degraded
  | 0xB, 1 => some .note
  | 0xB, 2 => some .severe
  | 0xB, 3 => some .fatal
  | 0xC, 1 | 0xC, 2 => some .degraded
  | 0xC, 3 | 0xC, 4 => some .note
  | 0xD, 1 | 0xD, 3 | 0xD, 4 => some .degraded
  | 0xD, 2 | 0xD, 5 => some .note
  | 0xE, 1 | 0xE, 2 | 0xE, 5 => some .note
  | 0xE, 3 | 0xE, 4 => some .degraded
  | 0xF, 1 => some .note
  | 0xF, 2 => some .degraded
  | _, _ => none

/-- One event as its source raises it. -/
structure Report where
  cls    : Nat
  idx    : Nat
  kind   : Nat
  sev    : Severity
  addr   : Nat := 0
  status : Status := .ok
  ctx    : Option Nat := none
  forced : Bool := false

/-- The number of a source: class and index (R364). -/
def sourceNo (cls idx : Nat) : Nat := cls * 256 + idx % 256

/-- R367: the length of a counting slot in mt: W ÷ 8 rounded down to a whole µs. -/
def slotLength (s : State) (src : Nat) : Mt := usMt (regAt s 0x7100 4 src * 1000 / 8)

/-- R367: the record of a source brought up to the present slot. -/
def rollSlots (s : State) (src : Nat) (x : Source) : Source :=
  let cur := if slotLength s src = 0 then 0 else (s.clock - x.epoch) / slotLength s src
  { x with slots := (List.replicate (min (cur - x.passed) 8) 0 ++ x.slots).take 8, passed := cur }

/-- The window count of 0x7100.05: the present slot and the seven before it. -/
def windowCount (x : Source) : Nat := x.slots.foldl (· + ·) 0

/-- One more event in the present slot. -/
def countEvent (x : Source) : Source :=
  { x with slots := match x.slots with
      | [] => [1]
      | n :: r => (n + 1) :: r }

/-- R367: the source after an event of a base severity, and whether the event is reported SEVERE. -/
def countAtSource (s : State) (r : Report) : Source × Bool :=
  let src := sourceNo r.cls r.idx
  let x := rollSlots s src (source s src)
  if r.sev = .note ∨ r.sev = .corrected ∨ r.sev = .degraded then
    let y := countEvent x
    let n := regAt s 0x7100 3 src
    let sev := decide (n ≠ 0) && decide (n ≤ windowCount y)
    ({ y with severe := sev }, sev)
  else (x, false)

/-- R363: the fault message of an event, its severity and CNT given. -/
def faultMessage (s : State) (r : Report) (sev : Severity) (cnt : Bool) : Msg :=
  { bits := BitVec.ofNat 128 (pack [(0, 12, sourceNo r.cls r.idx), (12, 6, r.kind), (18, 3, sev.code),
      (21, 1, bit r.forced), (22, 4, r.status.code), (26, 12, r.ctx.getD 0), (38, 1, bit r.ctx.isSome),
      (39, 2, instId s), (41, 1, bit cnt), (48, 32, r.addr), (80, 48, stamp s)]),
    time := stamp s, roots := (s.faults.running.map fun r => r.causes).flatten }

/-- R368: hand a message to the collector's intake queue of 256. -/
def toIntake (s : State) (m : Msg) : State :=
  if s.faults.intake.length < 256 then
    { s with faults := { s.faults with intake := s.faults.intake ++ [m] } }
  else
    { bump s 0x7000 9 with faults := { s.faults with overflow := true } }

/-- R367, R368: a source counts its event and sends the message; nothing is raised in a device held in
reset. -/
def raiseReport (s : State) (r : Report) : State :=
  if awake s then
    let src := sourceNo r.cls r.idx
    let c := countAtSource s r
    let s1 := bumpAt s 0x7100 2 src
    let s2 := { s1 with faults := { s1.faults with sources := tput s1.faults.sources src c.1 } }
    toIntake s2 (faultMessage s r (if c.2 then .severe else r.sev) c.2)
  else s

/-- Report an event of a kind with its base severity. -/
def report (s : State) (cls idx kind addr : Nat) : State :=
  raiseReport s { cls := cls, idx := idx, kind := kind, sev := (baseSeverity cls kind).getD .note,
                  addr := addr % 2 ^ 32 }

/-- R374: report an event with the context that it names, if any. -/
def reportFor (s : State) (cls idx kind addr : Nat) (c : Option Nat) : State :=
  raiseReport s { cls := cls, idx := idx, kind := kind, sev := (baseSeverity cls kind).getD .note,
                  addr := addr % 2 ^ 32, ctx := c }

/-- R374: one that concerns a packet received from the fabric names the context of its NCTX, if it has one (R68). -/
def reportPkt (s : State) (cls idx kind addr : Nat) (h : BitVec 256) : State :=
  reportFor s cls idx kind addr (hContext h)

/-- Report an event that concerns a context's operation or command (R374). -/
def reportCtx (s : State) (cls idx kind addr : Nat) (st : Status) (c : Nat) : State :=
  raiseReport s { cls := cls, idx := idx, kind := kind, sev := (baseSeverity cls kind).getD .note,
                  addr := addr % 2 ^ 32, status := st, ctx := some c }

/-- The fields of a message. -/
def msgSource (m : Msg) : Nat := fld m.bits.toNat 0 12
def msgClass (m : Msg) : Nat := fld m.bits.toNat 8 4
def msgIndex (m : Msg) : Nat := fld m.bits.toNat 0 8
def msgKind (m : Msg) : Nat := fld m.bits.toNat 12 6
def msgSev (m : Msg) : Nat := fld m.bits.toNat 18 3
def msgForced (m : Msg) : Bool := fld m.bits.toNat 21 1 == 1
def msgCnt (m : Msg) : Bool := fld m.bits.toNat 41 1 == 1
def msgAddr (m : Msg) : Nat := fld m.bits.toNat 48 32

/-! ## Frames, events and the replace request (R434, R440, R392) -/

/-- Whether the Compass processor serves: booted and not restarting. -/
def compassUp (s : State) : Bool :=
  !s.mgmt.restarting && (s.phase == .running || s.phase == .cut || s.phase == .recovery)

/-- R434: the MAC address of this inst, shown in 0x1010.01. -/
def macAddress (s : State) : Bytes := [0x02, 0x4E, 0x5A, 0x96] ++ leBytes 1 s.pins.slotId ++ leBytes 1 (instId s)

/-- R435: an FDP header of 12 bytes and its payload. -/
def fdpBytes (op : BitVec 8) (xid : BitVec 16) (st : Status) (reason : Nat) (body : Bytes) : Bytes :=
  [1, op] ++ leBytes 2 xid.toNat ++ leBytes 1 st.code ++ leBytes 1 reason ++ leBytes 2 body.length ++ zeros 4 ++ body

/-- R435: an Ethernet frame with an FDP header and payload: addresses and EtherType most significant byte
first (R3), the Ethernet payload padded to 46 bytes. -/
def fdpFrame (s : State) (dst : BitVec 48) (op : BitVec 8) (xid : BitVec 16) (st : Status) (reason : Nat)
    (body : Bytes) : Bytes :=
  let payload := fdpBytes op xid st reason body
  beBytes 6 dst.toNat ++ macAddress s ++ [0x88, 0xB5] ++ payload ++ zeros (46 - payload.length)

/-- R440: the frame of an event. The spec gives no XID to a frame of the device's own. [log 8, DESIGN CHOICE; log 40, DESIGN CHOICE] -/
def eventFrame (s : State) (e : Event) : Bytes :=
  fdpFrame s Config.trayAddress 0x03 (Config.ownXid 0x03 e.eseq) .ok 0
    (leBytes 4 e.eseq ++ leBytes 1 e.kind ++ zeros 3 ++ leBytes 8 e.time ++ e.body)

/-- R434: send a frame on the field network, at once while the PHY reports PLCA status OK. [log 40, DESIGN CHOICE] -/
def sendFrame (s : State) (f : Bytes) : State :=
  if s.mgmt.plcaOk then emit s (.frame f)
  else { s with mgmt := { s.mgmt with txQueue := s.mgmt.txQueue ++ [f] } }

/-- R440: queue an event and send it; a full queue of 256 drops its oldest event. During a Compass restart it waits, to be
sent afterwards (R428). -/
def pushEvent (s : State) (kind time : Nat) (body : Bytes) : State :=
  if s.phase = .running ∨ s.phase = .cut ∨ s.phase = .recovery then
    let s1 := bump s 0x1010 6
    let e : Event := { eseq := reg s1 0x1010 6, kind := kind, time := time, body := body,
                       sends := if s.mgmt.restarting then 0 else 1, at_ := s.clock }
    let s2 := if 256 ≤ s1.mgmt.events.length then
        { bump s1 0x1010 7 with mgmt := { s1.mgmt with events := s1.mgmt.events.drop 1 } }
      else s1
    let s3 := { s2 with mgmt := { s2.mgmt with events := s2.mgmt.events ++ [e] } }
    if s.mgmt.restarting then s3 else sendFrame s3 (eventFrame s2 e)
  else s

/-- R392: raise the replace request for a reason bit; 0x7010.03 keeps the time of the first raise since reset. -/
def raiseReplace (s : State) (reason : Nat) : State :=
  let new := s.faults.reasons ||| BitVec.ofNat 32 (2 ^ reason)
  if new = s.faults.reasons then s
  else
    let s1 := { s with
      faults := { s.faults with reasons := new, raisedAt := some (s.faults.raisedAt.getD (stamp s)) },
      pins := { s.pins with replaceReq := true } }
    pushEvent s1 3 (stamp s) (leBytes 4 new.toNat)

/-- R14, R392: clear one reason; the request falls with the last one. -/
def clearReplace (s : State) (reason : Nat) : State :=
  let new := s.faults.reasons &&& ~~~ BitVec.ofNat 32 (2 ^ reason)
  if new = s.faults.reasons then s
  else
    let s1 := { s with
      faults := { s.faults with reasons := new },
      pins := { s.pins with replaceReq := decide (new ≠ 0) } }
    pushEvent s1 3 (stamp s) (leBytes 4 new.toNat)

end Sys2Proof.Machine
end

