-- ==== Sys2Proof/Machine/Flash.lean ====
section
/-! DEFINITION. The flash (R429 to R433, R466): where its parts lie, what fails in it, the Logbook, and the journal of
persisted values in two banks. -/

namespace Sys2Proof.Machine

/-! ## Layout and failures (R429, R431) -/

def bootAddr (copy : Nat) : Nat := copy * 0x10000
def imageAddr (i : Nat) : Nat := 0x00020000 + i * 0x800000
def bankAddr (b : Nat) : Nat := 0x01020000 + b * 0x100000
def dumpAddr (slot : Nat) : Nat := 0x01220000 + slot * 0x40000
def serviceAddr : Nat := 0x01320000
def logAddr (sector : Nat) : Nat := 0x01400000 + sector * 0x10000

/-- R431: a program or erase that fails, or a read whose CRC fails. [log 36, DEDUCED] -/
def flashError (s : State) (addr : Nat) : State := raiseReplace (report s 0xE 0 4 addr) 6

/-- The first address of `size` bytes whose sector fails. -/
def wornIn (f : Flash) (addr size : Nat) : Option Nat :=
  (f.worn.find? fun w => decide (addr < (w + 1) * 0x10000) && decide (w * 0x10000 < addr + size)).map fun w => max addr (w * 0x10000)

/-- R431: erase or program `size` bytes at an address: what it changes, or the error. -/
def program (s : State) (addr size : Nat) (f : Flash → Flash) : State :=
  match wornIn s.flash addr size with
  | some a => flashError s a
  | none => { s with flash := f s.flash }

/-! ## The Logbook (R432, R433) -/

/-- R432: a record: header, payload from byte 16, CRC in the last four bytes. -/
def logRecord (s : State) (ty len : Nat) (time : Nat) (payload : Bytes) : Bytes :=
  let head := leBytes 1 ty ++ leBytes 1 len ++ leBytes 1 (instId s) ++ [0] ++ leBytes 4 s.flash.logNext ++
    leBytes 8 time
  let body := padTo (16 * len - 4) (head ++ payload)
  body ++ beBytes 4 (crc32c body)

/-- R431, R432: the sector that follows in the ring: bad ones are skipped. [log 36, DEDUCED] -/
def sectorAfter (f : Flash) : Nat :=
  let ring := (List.range 704).map fun i => (f.logSector + 1 + i) % 704
  (ring.find? fun x => !f.badSectors.contains x).getD f.logSector

/-- R431, R432: append a record to the ring. A record never spans a sector, a sector that is begun is erased, and none is
written to a bad one. -/
def logAppend (f : Flash) (r : Bytes) : Flash :=
  let fits := decide (f.logUsed + r.length ≤ 65536) && !f.badSectors.contains f.logSector
  let sec := if fits then f.logSector else sectorAfter f
  let kept := if fits then f.logbook else f.logbook.filter fun x => x.1 != sec
  { f with
    logbook := kept ++ [(sec, r)], logNext := (f.logNext + 1) % 2 ^ 32, logSector := sec,
    logUsed := if fits then f.logUsed + r.length else r.length }

/-- Write one Logbook record of a type and length with the time given. -/
def writeLogAt (s : State) (ty len time : Nat) (payload : Bytes) : State :=
  { s with flash := logAppend s.flash (logRecord s ty len time payload) }

/-- Write one Logbook record now. -/
def writeLog (s : State) (ty len : Nat) (payload : Bytes) : State := writeLogAt s ty len (stamp s) payload

/-! ## The journal (R430, R466) -/

/-- Bytes of a journal record that holds `n` bytes of value (notes/assumptions/30.md). [log 30, DESIGN CHOICE] -/
def recordSize (n : Nat) : Nat := 9 + n

/-- The size of a record. [log 30, DESIGN CHOICE] -/
def recSize (x : JRec) : Nat :=
  recordSize (match x.val with
    | .bytes b => b.length
    | .num _ => match rowOf (x.key / 1048576 / 256) (x.key / 1048576 % 256) with
      | some r => r.ty.size
      | none => 8)

/-- The bytes used in a bank. -/
def bankUsed (b : JBank) : Nat := (b.recs.map recSize).foldl (· + ·) 0

/-- R430: the bank that serves: of the valid ones, that with the higher sequence number. -/
def servingBank (f : Flash) : Option Nat :=
  match f.bank0.seq, f.bank1.seq with
  | none, none => none
  | some _, none => some 0
  | none, some _ => some 1
  | some a, some b => some (if a < b then 1 else 0)

def journalBank (f : Flash) (i : Nat) : JBank := if i = 0 then f.bank0 else f.bank1
def setJournalBank (f : Flash) (i : Nat) (b : JBank) : Flash := if i = 0 then { f with bank0 := b } else { f with bank1 := b }

/-- R430: the values that a bank holds: each record whose CRC holds replaces the value before it. -/
def replay (b : JBank) : Tbl Stored := (b.recs.filter (·.good)).foldl (fun t x => tput t x.key x.val) []

/-- The value of a key in the bank that serves. -/
def storedAt (f : Flash) (key : Nat) : Option Stored := (servingBank f).bind fun i => tget (replay (journalBank f i)) key
def storedNum (f : Flash) (key : Nat) : Nat :=
  match storedAt f key with
  | some (.num v) => v
  | _ => 0

/-- R430: an active bank 75 % full is compacted into the other one, which becomes active, and is then erased. [log 30, DESIGN CHOICE] -/
def compact (s : State) (i : Nat) : State :=
  let b := journalBank s.flash i
  if bankUsed b < 786432 then s
  else
    let image : JBank := { seq := b.seq.map (· + 1), recs := (replay b).map fun x => { key := x.1, val := x.2, good := true } }
    program s (bankAddr (1 - i)) 0x100000 fun f => setJournalBank (setJournalBank f (1 - i) image) i { seq := none, recs := [] }

/-- R430: the address of the next record. -/
def journalAddr (f : Flash) : Nat :=
  match servingBank f with
  | some i => bankAddr i + bankUsed (journalBank f i)
  | none => bankAddr 0

/-- A bank with one more record. -/
def JBank.add (b : JBank) (x : JRec) : JBank := { seq := some (b.seq.getD 1), recs := b.recs ++ [x] }

/-- R430, R431: append a record to the active bank, where its program does not fail; with no valid bank a new one begins in
bank 0. -/
def appendRec (s : State) (key : Nat) (val : Stored) (good : Bool) : State :=
  let i := (servingBank s.flash).getD 0
  let x : JRec := { key := key, val := val, good := good }
  compact (program s (journalAddr s.flash) (recSize x) fun f => setJournalBank f i ((journalBank f i).add x)) i

/-- The erase sector of an address. -/
def sectorOf (addr : Nat) : Nat := addr / 0x10000

/-- R431: what a program of `size` bytes at an address came to: its sectors serve, or the first one fails. [log 36, DEDUCED] -/
def noteProgram (ok : Bool) (addr size : Nat) (f : Flash) : Flash :=
  let rest := f.worn.filter fun w => decide (w < sectorOf addr) || decide (sectorOf (addr + size) < w)
  { f with worn := rest ++ if ok then [] else [sectorOf addr] }

/-- The keys under which the device persists the operating time and the counter high marks of its own (R430, R445). -/
def opKey : Nat := regKey 0x1000 7 0
def markKey (slot : Nat) : Nat := regKey 0xA000 (5 + slot) 0
def ownRecord (key : Nat) : Bool := key == opKey || [0, 1, 2, 3].any fun k => key == markKey k

/-- Note a changed persisted value for the journal (R430). -/
def journalNote (s : State) (key value : Nat) : State :=
  { s with mgmt := { s.mgmt with journal := s.mgmt.journal ++ [(key, .num value)] } }

def journalBlob (s : State) (key : Nat) (value : Bytes) : State :=
  { s with mgmt := { s.mgmt with journal := s.mgmt.journal ++ [(key, .bytes value)] } }

/-- 0x1000.07: operating time in s. [log 38, DEDUCED] -/
def operatingTime (s : State) : Nat := s.mgmt.opBase + s.clock / 4000000000

/-- R430: each second of operating time is a change of it. [log 1, DESIGN CHOICE; log 38, DEDUCED] -/
def noteOperating (s : State) : State :=
  if compassUp s ∧ everySpan s 0 4000000000 then journalNote s opKey (operatingTime s) else s

/-- R430: one record goes to flash; where its program fails it stays pending. -/
def writeOut (s : State) (x : Nat × Stored) : State :=
  let r : JRec := { key := x.1, val := x.2, good := true }
  let fails := (wornIn s.flash (journalAddr s.flash) (recSize r)).isSome
  let t := appendRec s x.1 x.2 true
  if fails then { t with mgmt := { t.mgmt with journal := t.mgmt.journal ++ [x] } } else t

/-- R466: every pending record is written, and the operating time. [log 38, DEDUCED] -/
def flushJournal (s : State) : State :=
  (s.mgmt.journal ++ [(opKey, Stored.num (operatingTime s))]).foldl writeOut { s with mgmt := { s.mgmt with journal := [] } }

/-- R430, R466: a record that a loss of power cuts in the middle fails its CRC: whether one was being written then is open. [log 38, DEDUCED] -/
def tornRecord (s : State) : State :=
  match s.mgmt.journal with
  | [] => s
  | x :: _ =>
    let f := freshValue s 1
    if f.1 = 1 then appendRec f.2 x.1 x.2 false else f.2

/-! ## The boot record (R448) -/

/-- R448 step 1: the valid boot record copy with the higher sequence number. -/
def bootCopyNo (f : Flash) : Nat :=
  if f.boot0.good ∧ f.boot1.good then (if f.boot0.seq < f.boot1.seq then 1 else 0) else if f.boot0.good then 0 else 1
def bootCopy (f : Flash) : BootCopy := if bootCopyNo f = 0 then f.boot0 else f.boot1
def Flash.active (f : Flash) : Nat := (bootCopy f).active
def Flash.trial (f : Flash) : Bool := (bootCopy f).trial
def Flash.tries (f : Flash) : Nat := (bootCopy f).tries

/-- R448: a new boot record is written over the older copy. -/
def writeBoot (s : State) (active : Nat) (trial : Bool) (tries : Nat) : State :=
  let n := 1 - bootCopyNo s.flash
  let x : BootCopy := { seq := (bootCopy s.flash).seq + 1, active := active, trial := trial, tries := tries, good := true }
  program s (bootAddr n) 0x10000 fun f =>
    if n = 0 then { f with boot0 := x, bootWrite := some s.clock } else { f with boot1 := x, bootWrite := some s.clock }

/-- R448: a copy whose write a loss of power cuts is not valid, and the other one is; how long a write takes is open. [log 38, DEDUCED] -/
def tornBoot (s : State) : State :=
  match s.flash.bootWrite with
  | some t =>
    if passed s t Config.programTime then s
    else if bootCopyNo s.flash = 0 then { s with flash := { s.flash with boot0 := { s.flash.boot0 with good := false } } }
    else { s with flash := { s.flash with boot1 := { s.flash.boot1 with good := false } } }
  | none => s

end Sys2Proof.Machine
end

