-- ==== Sys2Proof/Machine/Dict.lean ====
section
/-! DEFINITION. Dictionary transactions (R436 to R444, R460, R463, R467, R468): sessions and their
selections, the order of the checks of a write, authentication, the answer and its store. What one entry
does when its value passes is given by the meaning that calls `dictWrite`. -/

namespace Sys2Proof.Machine

/-- What an entry answers to a value that passed the checks before its own: done with an answer body
(READ only), refused with a status and reason, or done later with the answer withheld (R64, R437). -/
inductive Verdict where
  | done (s : State) (body : Bytes)
  | refuse (st : Status) (reason : Nat)
  /-- refused, with the refusal counted or reported -/
  | counted (s : State) (st : Status) (reason : Nat)
  | later (s : State)

/-- Done without a body. -/
def ok (s : State) : Verdict := .done s []
/-- Reason 9: outside the entry's range (R460). -/
def outOfRange : Verdict := .refuse .notPerformed 9
/-- Reason 10: refused by the rule of the entry (R460). -/
def breaksRule : Verdict := .refuse .notPerformed 10
/-- Reason 11: entry busy (R438). -/
def entryBusy : Verdict := .refuse .notPerformed 11

/-- Refuse with reason 10 unless a condition holds. -/
def require (c : Bool) (v : Verdict) : Verdict := if c then v else breaksRule
/-- Refuse with reason 9 unless a condition holds. -/
def inRange (c : Bool) (v : Verdict) : Verdict := if c then v else outOfRange

/-! ## Sessions (R463) -/

/-- The owner number of a session: 0 for the host window, else 1 plus the FDP source address. -/
def ownerOf : Path → Nat
  | .host _ => 0
  | .field e => 1 + e.src.toNat

/-- A session in which every select entry holds its default. -/
def freshSession (owner now : Nat) : Session := { owner := owner, sel := [], last := now, parts := [] }

/-- The session of an owner. -/
def sessionOf (s : State) (owner : Nat) : Session :=
  (s.mgmt.sessions.find? (fun x => x.owner == owner)).getD (freshSession owner s.mgmt.clockTx)

/-- Put a session back in the list. -/
def putSession (s : State) (x : Session) : State :=
  { s with mgmt := { s.mgmt with sessions := x :: s.mgmt.sessions.filter (fun y => y.owner != x.owner) } }

/-- The FDP session with the oldest last transaction. -/
def oldestSession (l : List Session) : Option Session :=
  (l.filter (fun x => x.owner != 0)).foldl (fun a x =>
    match a with
    | none => some x
    | some y => if x.last < y.last then some x else some y) none

/-- R463: note a transaction of an owner; a ninth FDP source evicts the oldest session. -/
def touchSession (s : State) (owner : Nat) : State :=
  let now := s.mgmt.clockTx + 1
  let s1 := { s with mgmt := { s.mgmt with clockTx := now } }
  if s.mgmt.sessions.any (fun x => x.owner == owner) then
    putSession s1 { sessionOf s owner with last := now }
  else
    let fdp := s.mgmt.sessions.filter (fun x => x.owner != 0)
    let s2 := if owner ≠ 0 ∧ 8 ≤ fdp.length then
        match oldestSession s.mgmt.sessions with
        | some o => { bump s1 0x1020 3 with
            mgmt := { s1.mgmt with sessions := s1.mgmt.sessions.filter (fun x => x.owner != o.owner) } }
        | none => s1
      else s1
    putSession s2 (freshSession owner now)

/-- The selection a session holds in a select entry. -/
def selected (s : State) (owner index sub : Nat) : Nat :=
  (tget (sessionOf s owner).sel (entryNo index sub)).getD (regDefault index sub 0)

/-- The bits of a select entry that are not reserved (R4). -/
def selectBits (index sub : Nat) : Nat :=
  if index = 0x4610 ∧ sub = 3 then 7 else if index = 0x3700 ∧ sub = 2 then 12
  else if index = 0x3700 ∧ sub = 6 then 5 else if index = 0x3A00 ∧ sub = 2 then 10
  else if index = 0x7100 ∧ sub = 1 then 12 else 32

/-- R464: a session with other selections: what is read in parts under one that differs has changed. -/
def withSelections (x : Session) (sel : Tbl Nat) : Session :=
  let same (k : Nat) := (tget x.sel (k / 256 * 256 + 1)).getD 0 == (tget sel (k / 256 * 256 + 1)).getD 0
  { x with sel := sel, parts := x.parts.map fun q => (q.1, if same q.1 then q.2 else none) }

/-- R464: the value of 0x5100.02 or 0x7510.02 under a selection has changed. -/
def changedParts (s : State) (index n : Nat) : State :=
  let drop (q : Nat × Option Nat) := (q.1, if q.1 = entryNo index 2 ∧ q.2 = some n then none else q.2)
  { s with mgmt := { s.mgmt with sessions := s.mgmt.sessions.map fun x => { x with parts := x.parts.map drop } } }

/-- Write a select entry of a session; its reserved bits are ignored (R4). [log 48, DESIGN CHOICE] -/
def setSelected (s : State) (owner index sub v : Nat) : State :=
  let x := sessionOf s owner
  putSession s (withSelections x (tput x.sel (entryNo index sub) (v % 2 ^ selectBits index sub)))

/-- The selection that an entry acts on (0 where its listing names no select entry). [log 37, DEDUCED] -/
def selectionFor (s : State) (owner index sub : Nat) : Nat :=
  match rowOf index sub with
  | some r => if r.sel = 0 then 0 else selected s owner index r.sel
  | none => 0

/-! ## Paths, slots and authentication -/

/-- R442, R467: the CRIT entries and others written from the field network only. -/
def fieldOnly : List Nat := [0x600008, 0x601005, 0x610001, 0x610005, 0x620001, 0x220007, 0x640009, 0x64000B]

/-- R442: the key slots a CRIT entry accepts. -/
def slotsFor (index sub : Nat) : List Nat :=
  let e := entryNo index sub
  if [0x260001, 0x260004, 0x310001, 0x330001, 0x340001, 0x3A0001, 0x901001, 0x901002, 0x901004].contains e
  then [0, 2]
  else if [0x600008, 0x601005, 0x610001, 0x610005, 0x620001].contains e then [0, 1]
  else if [0x23000A, 0x710007, 0x820004, 0x820006].contains e then [0, 3]
  else if e = 0x720002 then [0, 1, 2, 3]
  else if [0xA10001, 0xA10003, 0xA10005, 0xA20001].contains e then [0, 1, 3]
  else if e = 0xA20003 then [0]
  else if index = 0xA000 ∧ 1 ≤ sub ∧ sub ≤ 4 then [0, sub - 1]
  else []

/-- The key a slot holds; an empty slot is all zero (R442). -/
def slotKey (s : State) (slot : Nat) : BitVec 256 := tgetD s.mgmt.keys slot 0

/-- The last accepted counter of a slot (R444). -/
def slotCounter (s : State) (slot : Nat) : Nat := tgetD s.mgmt.counters slot 0

/-- R443: the message that the MAC covers. -/
def macMessage (index sub slot : Nat) (value : Bytes) (counter : BitVec 64) : Bytes :=
  leBytes 2 index ++ leBytes 1 sub ++ leBytes 1 slot ++ leBytes 2 value.length ++ value ++
    leBytes 8 counter.toNat ++ leBytes 8 Config.serial.toNat

/-- R443: the MAC of a write under a key, its first byte lowest. -/
def macOf (key : BitVec 256) (msg : Bytes) : BitVec 128 :=
  BitVec.ofNat 128 (leNat ((hmac256 (beBytes 32 key.toNat) msg).take 16))

/-- R444 checks 1 to 4 in order: the reason of the first that fails. -/
def authReason (s : State) (index sub : Nat) (acc : Access7) (value : Bytes) (a : Auth) : Option Nat :=
  let slot := a.slot.toNat
  let allowed := if acc = .crit then slotsFor index sub else [0, 1, 2, 3]
  if !allowed.contains slot then some 4
  else if slotKey s slot = 0 then some 5
  else if macOf (slotKey s slot) (macMessage index sub slot value a.counter) ≠ a.mac then some 6
  else if a.counter.toNat ≤ slotCounter s slot then some 7
  else none

/-- R444, R445: COUNTER becomes the slot's last accepted counter; above the high mark, a new mark of that
counter plus 65,536 is persisted first. -/
def acceptCounter (s : State) (a : Auth) : State :=
  let slot := a.slot.toNat
  let c := a.counter.toNat
  let s1 := if storedNum s.flash (markKey slot) < c then appendRec s (markKey slot) (.num (c + 65536)) true else s
  { s1 with mgmt := { s1.mgmt with counters := tput s1.mgmt.counters slot c } }

/-! ## The checks of a write -/

/-- R438 reason 1: whether a VLEN fits a type. The image block and the card may be shorter than their
BLOBs; every other BLOB is written whole. [log 37, DEDUCED] -/
def vlenFits (index sub : Nat) (ty : Ty) (n : Nat) : Bool :=
  match ty with
  | .str => decide (n ≤ 64)
  | .blob size =>
    if index = 0xA100 ∧ sub = 2 then decide (8 ≤ n ∧ n ≤ size) else n == size
  | t => n == t.size

/-- R444, before any authentication: the entry exists, access class and path allow the write, VLEN fits. -/
def earlyReason (q : DictReq) : Option (Status × Nat) :=
  match rowOf q.index q.sub with
  | none => some (.notPerformed, 2)
  | some r =>
    if r.acc = .ro then some (.denied, 3)
    else if q.path.isHost ∧ fieldOnly.contains (entryNo q.index q.sub) then some (.denied, 3)
    else if !vlenFits q.index q.sub r.ty q.value.length then some (.oversize, 1)
    else none

/-- R23, R182, R350: an entry written only through the master, or only at the master. Select entries
belong to the session and are written where they are used. [log 37, DEDUCED] -/
def scopeReason (s : State) (index sub : Nat) : Option (Status × Nat) :=
  if isMaster s then
    if scopeOf index sub = .shared ∧ !isSelect index sub ∧ s.cascade.copying then some (.notPerformed, 11)
    else none
  else if isSelect index sub ∨ scopeOf index sub = .inst then none
  else if scopeOf index sub = .shared ∧ s.cascade.masterAbsent then some (.notPerformed, 11)
  else some (.denied, 8)

/-- The ranges of the fields of packed numbers (R460). -/
def packedOk (index sub v : Nat) : Bool :=
  if index = 0x4610 ∧ sub = 3 then
    decide (fld v 0 4 ≤ 11) && decide (fld v 4 3 ≤ 4)
  else if index = 0x3700 ∧ sub = 2 then
    decide (fld v 4 2 < 3) && (fld v 4 2 == 0 || decide (fld v 6 6 < 32))
  else if index = 0x3A00 ∧ sub = 2 then decide (fld v 0 4 ≤ 11)
  else if index = 0x2300 ∧ sub = 4 then decide (1 ≤ v) && decide (v ≤ 8)
  else if index = 0x5310 ∧ sub = 2 then v % 25 == 0
  else if index = 0x9020 ∧ sub = 6 then decide (-4000 ≤ toSigned 32 v) && decide (toSigned 32 v ≤ 4000)
  else if index = 0x6400 ∧ sub = 8 then decide (toSigned 32 v ≤ 115000)
  else true

/-- R460 reason 9 for a number: the listed range. -/
def rangeReason (q : DictReq) : Option (Status × Nat) :=
  match rowOf q.index q.sub with
  | none => none
  | some r =>
    match r.ty with
    | .blob _ | .str => none
    | _ =>
      let v := leNat q.value
      if r.lo ≤ v ∧ v ≤ r.hi ∧ packedOk q.index q.sub v then none else some (.notPerformed, 9)

/-- R456: in the return state every write except under slot 0 is refused. -/
def returnReason (s : State) (q : DictReq) : Option (Status × Nat) :=
  if s.flash.returned ∧ (q.auth.map (fun a => a.slot.toNat)) ≠ some 0 then some (.notPerformed, 12) else none

/-- The first of several reasons. -/
def firstReason : List (Option (Status × Nat)) → Option (Status × Nat)
  | [] => none
  | some r :: _ => some r
  | none :: l => firstReason l

/-- What comes of a write: the state, its verdict given. -/
structure Outcome7 where
  s      : State
  st     : Status
  reason : Nat
  body   : Bytes
  /-- the answer is withheld (R64) -/
  held   : Bool

def refused7 (s : State) (r : Status × Nat) : Outcome7 := ⟨s, r.1, r.2, [], false⟩

def verdict7 (s : State) : Verdict → Outcome7
  | .done t b => ⟨t, .ok, 0, b, false⟩
  | .refuse st r => ⟨s, st, r, [], false⟩
  | .counted t st r => ⟨t, st, r, [], false⟩
  | .later t => ⟨t, .ok, 0, [], true⟩

/-- R444 check 5: scope, range, then the entry's own rule; a refusal changes nothing. -/
def ownChecks (q : DictReq) (apply : State → Verdict) (s : State) : Outcome7 :=
  match firstReason [scopeReason s q.index q.sub, rangeReason q] with
  | some r => refused7 s r
  | none => verdict7 s (apply s)

/-- R444: a refusal at checks 1 to 4 is counted and reported. [log 36, DEDUCED] -/
def authRefused (q : DictReq) (s : State) : State :=
  report (bump s 0xA000 0xA) 0xE 0 1 (entryNo q.index q.sub)

/-- The access class of an entry. -/
def accessOf (index sub : Nat) : Access7 :=
  match rowOf index sub with
  | some r => r.acc
  | none => .ro

/-- The checks of a write in the order of R444, and its effect. [log 37, DEDUCED] -/
def writeOutcome (q : DictReq) (apply : State → Verdict) (s : State) : Outcome7 :=
  match firstReason [returnReason s q, earlyReason q] with
  | some r => refused7 s r
  | none =>
    let acc := accessOf q.index q.sub
    match q.auth with
    | none => if acc = .crit then refused7 s (.denied, 4) else ownChecks q apply s
    | some a =>
      match authReason s q.index q.sub acc q.value a with
      | some n => refused7 (authRefused q s) (.denied, n)
      | none => ownChecks q apply (acceptCounter s a)

/-- R433: the CRIT_WRITE record of an authenticated write, accepted or refused. -/
def logCritWrite (q : DictReq) (o : Outcome7) : State :=
  match q.auth with
  | none => o.s
  | some a =>
    writeLog o.s 6 3 (leBytes 2 q.index ++ leBytes 1 q.sub ++ leBytes 1 a.slot.toNat ++
      leBytes 8 a.counter.toNat ++ leBytes 1 o.st.code ++ leBytes 1 o.reason)

/-! ## Answers (R437, R439, R441) -/

/-- Send an answer: over the field network as a frame, or into the answer area of the host window and then its done field. -/
def sendAnswer (s : State) (path : Path) (a : Answer) : State :=
  match path with
  | .host x =>
    emit { s with mgmt := { s.mgmt with
      hostAnswer := fdpBytes a.op x a.status a.reason a.body, hostDone := some a.xid } } (.answer a.xid a.op a.status a.reason a.body)
  | .field e => sendFrame s (fdpFrame s e.src a.op (a.xid.setWidth 16) a.status a.reason a.body)

/-- R439: keep the answers to the last 16 transactions. -/
def keepAnswer (s : State) (a : Answer) : State :=
  { s with mgmt := { s.mgmt with answers := (s.mgmt.answers ++ [a]).drop (s.mgmt.answers.length + 1 - 16) } }

/-- The answer OP of a request (R436). -/
def answerOpOf (q : DictReq) : BitVec 8 := if q.write then 0x82 else 0x81

/-- Answer a transaction and keep the answer. -/
def answer (s : State) (q : DictReq) (st : Status) (reason : Nat) (body : Bytes) : State :=
  let a : Answer := { owner := ownerOf q.path, xid := q.xid, status := st, reason := reason,
                      op := answerOpOf q, body := body }
  sendAnswer (keepAnswer s a) q.path a

/-- The body of WRITE_ANS. -/
def writeAns (q : DictReq) : Bytes := leBytes 2 q.index ++ leBytes 1 q.sub ++ [0]

/-- Perform a write transaction, its answer and its Logbook record. The answer to a shared-table write is withheld
until every present inst has stored it (R24). -/
def performWrite (q : DictReq) (apply : State → Verdict) (s : State) : State :=
  let o := if q.tooLong then refused7 s (.oversize, 1) else writeOutcome q apply s
  if o.held then o.s
  else if o.st = .ok ∧ o.s.cascade.storing ≠ [] then { o.s with cascade := { o.s.cascade with writing := some q } }
  else answer (logCritWrite q o) q o.st o.reason (writeAns q)

/-- R64, R437: the withheld answer of a write. -/
def lateAnswer (s : State) (q : DictReq) (st : Status) (reason : Nat) : State :=
  answer (logCritWrite q ⟨s, st, reason, [], false⟩) q st reason (writeAns q)

/-- R468, R448: whether the dictionary answers transactions on an index now. -/
def dictionaryUp (s : State) : Bool :=
  !s.mgmt.restarting && (s.phase == .running || s.phase == .recovery || s.phase == .cut)

/-- R448: in recovery only 0x1000 and 0xA100 answer. [log 37, DEDUCED] -/
def indexAnswers (s : State) (index : Nat) : Bool :=
  s.phase != .recovery || index == 0x1000 || index == 0xA100

/-- R64, R24, R437: the answer to a write is withheld. -/
def withheld (s : State) : Bool := s.tables.drain.isSome || s.cascade.writing.isSome

/-- R434: the device's own address as a number. -/
def ownMac (s : State) : BitVec 48 := BitVec.ofNat 48 (beNat (macAddress s))

/-- R434: a frame that the device accepts: one to its own address, and a READ also by broadcast. -/
def frameAccepted (s : State) (e : Envelope) (isRead : Bool) : Bool :=
  e.fcs && !e.vlan && e.etherType == 0x88B5 && (e.dst == ownMac s || (isRead && e.dst == BitVec.allOnes 48))

/-- R434: whether the device accepts what carries a request; the host window accepts every one. -/
def pathAccepted (s : State) (q : DictReq) : Bool :=
  match q.path with
  | .host _ => true
  | .field e => frameAccepted s e (!q.write)

/-- R437, R439, R468: take a transaction. While the dictionary does not answer, an FDP frame is
discarded and a host submit held; while the answer to a write is withheld, any transaction waits its turn; a
repeated one is answered from the store. [log 24, DEDUCED] -/
def transact (q : DictReq) (perform : State → State) (s : State) : State :=
  let hold := { s with mgmt := { s.mgmt with heldReqs := s.mgmt.heldReqs ++ [q] } }
  if !pathAccepted s q then s
  else if !dictionaryUp s then (if q.path.isHost then hold else s)
  else if !indexAnswers s q.index ∧ !q.tooLong then s
  else if withheld s then hold
  else
    let s1 := if q.path.isHost then s else bump s 0x1010 3
    match s1.mgmt.answers.find? (fun a => a.owner == ownerOf q.path && a.xid == q.xid) with
    | some a => sendAnswer s1 q.path a
    | none => perform (touchSession s1 (ownerOf q.path))

/-- The request of a dictionary write. -/
def writeReq (w : WriteHdr) (index sub : Nat) (value : Bytes) : DictReq :=
  { path := w.path, xid := w.xid, write := true, index := index, sub := sub, auth := w.auth,
    value := value, offset := 0, len := 0, tooLong := false }

/-- R441: a submit whose number is that of the last one starts nothing; a frame always does. -/
def fromPath (path : Path) (xid : BitVec 32) (go : State → State) (s : State) : State :=
  if path.isHost then
    if s.mgmt.lastSubmit = some xid then s else go { s with mgmt := { s.mgmt with lastSubmit := some xid } }
  else go s

/-- A write of one entry whose own effect is `apply`. -/
def dictWrite (w : WriteHdr) (index sub : Nat) (value : Bytes) (apply : State → Verdict) (s : State) : State :=
  let q := writeReq w index sub value
  fromPath w.path w.xid (transact q (performWrite q apply)) s

/-- Store a number under a selection, that of the entry, and note it for the journal if it persists. -/
def storeNumberAt (index sub sel v : Nat) (s : State) : State :=
  let s1 := setRegAt s index sub sel v
  if isPersisted index sub then journalNote s1 (regKey index sub sel) v else s1

def storeNumber (owner index sub v : Nat) (s : State) : State :=
  storeNumberAt index sub (selectionFor s owner index sub) v s

/-- Store a BLOB likewise. -/
def storeBlob (owner index sub : Nat) (v : Bytes) (s : State) : State :=
  let sel := selectionFor s owner index sub
  let s1 := setBlobAt s index sub sel v
  if isPersisted index sub then journalBlob s1 (regKey index sub sel) v else s1

end Sys2Proof.Machine
end

