-- ==== Sys2Proof/Machine/Address.lean ====
section
/-! DEFINITION. Global addressing (chapter 02): the partition, rank, incarnation and window tables, the
translation of a rank at the requester (R39) and of a window at the target (R47), and the keys a port
carries (R52). -/

namespace Sys2Proof.Machine

/-- Put a value, or remove the entry when the value is what an unlisted entry holds. -/
def tset {α : Type} [DecidableEq α] (t : Tbl α) (n : Nat) (v d : α) : Tbl α :=
  if v = d then tdel t n else tput t n v

/-- 0x3000.01: the device's own node id. -/
def ownNode (s : State) : NodeId := BitVec.ofNat 16 (reg s 0x3000 1)

/-- 0x3000.02 to .04: the torus size in dimension d. -/
def torusSize (s : State) (d : Nat) : Nat := reg s 0x3000 (2 + d)

/-! ## Partitions (R34 to R37, R52, R53) -/

/-- A partition table entry in the layout of R36, reserved bits 0. -/
def partEntry (s : State) (e : Nat) : Nat := (tgetD s.tables.part e 0).toNat
def partValid (s : State) (e : Nat) : Bool := bitAt (partEntry s e) 6
def partKey (s : State) (e : Nat) : Nat := fld (partEntry s e) 8 16
def partRbase (s : State) (e : Nat) : Nat := fld (partEntry s e) 24 18
def partRcount (s : State) (e : Nat) : Nat := fld (partEntry s e) 42 17

/-- The valid partition table entry that holds a key. -/
def entryOfKey (s : State) (key : Nat) : Option Nat :=
  (s.tables.part.find? (fun x => bitAt x.2.toNat 6 && fld x.2.toNat 8 16 == key)).map (·.1)

/-- R53: the flag of an entry on a port: 0 none, 1 deliver, 2 transit. -/
def keyFlag (s : State) (p e : Nat) : Nat := tgetD s.tables.keyFlag (p * 64 + e) 0

/-- R52: the standing of a key on a port; key 0x0000 and keys of no valid entry have none. -/
def keyStanding (s : State) (p key : Nat) : Nat :=
  if key = 0 then 0
  else match entryOfKey s key with
    | some e => keyFlag s p e
    | none => 0

/-- R254: the minimum share of an entry on a port. -/
def minShare (s : State) (p e : Nat) : Nat := tgetD s.tables.share (p * 64 + e) 0

/-- The sum of a port's minimum shares. -/
def shareSum (s : State) (p : Nat) : Nat := ((List.range 64).map (minShare s p)).foldl (· + ·) 0

/-- R35, R36, R37: a partition table write. -/
def applyPartition (v : BitVec 64) (s : State) : Verdict :=
  let x := v.toNat
  let e := fld x 0 6
  let valid := bitAt x 6
  let key := fld x 8 16
  let rbase := fld x 24 18
  let rcount := fld x 42 17
  let others := s.tables.part.filter (fun y => y.1 != e)
  let word := BitVec.ofNat 64 (pack [(0, 6, e), (6, 1, bit valid), (8, 16, key), (24, 18, rbase), (42, 17, rcount)])
  inRange (decide (rcount ≤ 65536))
    (require (decide (rbase + rcount ≤ 262144) &&
        (!valid || (key != 0 && others.all fun y => !(bitAt y.2.toNat 6 && fld y.2.toNat 8 16 == key))))
      (ok { s with tables := { s.tables with part := tput s.tables.part e word } }))

/-- R53, R254: a port key write; setting the flag to none sets MIN to 0. -/
def applyPortKey (v : BitVec 32) (s : State) : Verdict :=
  let p := fld v.toNat 0 4
  let e := fld v.toNat 4 6
  let flag := fld v.toNat 10 2
  inRange (decide (p ≤ 11) && flag != 3)
    (require (flag == 0 || partValid s e)
      (ok { s with tables := { s.tables with
              keyFlag := tset s.tables.keyFlag (p * 64 + e) flag 0,
              share := if flag = 0 then tdel s.tables.share (p * 64 + e) else s.tables.share } }))

/-- R254: a share write. -/
def applyShare (v : BitVec 32) (s : State) : Verdict :=
  let p := fld v.toNat 0 4
  let e := fld v.toNat 4 6
  let m := fld v.toNat 10 8
  inRange (decide (p ≤ 11))
    (require ((m == 0 || keyFlag s p e != 0) && decide (shareSum s p - minShare s p e + m ≤ 256))
      (ok { s with tables := { s.tables with share := tset s.tables.share (p * 64 + e) m 0 } }))

/-! ## Ranks and incarnations (R38 to R41, R57 to R60) -/

def rankEntry (s : State) (i : Nat) : Nat := (tgetD s.tables.rank i 0).toNat

/-- The current incarnation of a node; 0 is not admitted (R57). -/
def incOf (s : State) (n : NodeId) : BitVec 8 := tgetD s.tables.inc n.toNat 0

/-- R40: every coordinate lies below the torus size. -/
def nodeInTorus (s : State) (n : NodeId) : Bool :=
  decide (nodeX n < torusSize s 0) && decide (nodeY n < torusSize s 1) && decide (nodeZ n < torusSize s 2)

/-- R39: the node of a rank of the partition at an entry, or the status of the first failing step. -/
def translateRank (s : State) (e rank : Nat) : Except Status NodeId :=
  if partRcount s e ≤ rank then .error .denied
  else
    let r := rankEntry s (partRbase s e + rank)
    let node := BitVec.ofNat 16 (fld r 0 16)
    if !bitAt r 16 then .error .targetAbsent
    else if incOf s node = 0 then .error .targetAbsent
    else .ok node

/-- R59: both stamps of a packet are current. -/
def stampsCurrent (s : State) (h : BitVec 256) : Bool :=
  let d := incOf s (hDst h)
  let r := incOf s (hSrc h)
  d != 0 && r != 0 && d.toNat == hDinc h && r.toNat == hSinc h

/-! ## Windows (R42 to R47) -/

def windowDesc (s : State) (w : Nat) : Nat := (tgetD s.tables.windowDir w 0).toNat
/-- A window table entry; one in error that has not been rewritten reads as invalid (R224). -/
def windowEntry (s : State) (i : Nat) : Nat :=
  if s.tables.badWindow.contains i then 0 else (tgetD s.tables.window i 0).toNat

/-- R42: the page size of a window. -/
def pageSize (desc : Nat) : Nat := if bitAt desc 38 then 1073741824 else 2097152

/-- R43: a descriptor write. -/
def descriptorOk (v : Nat) : Bool :=
  let base := fld v 0 22
  let count := fld v 22 16
  !bitAt v 39 || (decide (1 ≤ count) && decide (count ≤ if bitAt v 38 then 64 else 32768) &&
    decide (base + count ≤ 4194304))

/-- R45: a window table write, the own node id given: its own field values (reason 9), then its rule. -/
def windowTierOk (v : Nat) : Bool := !bitAt v 0 || fld v 1 2 != 3
def windowEntryOk (own : NodeId) (v : Nat) : Bool :=
  !bitAt v 0 ||
    (if fld v 1 2 = 0 then decide (fld v 16 21 ≤ 524287)
     else if fld v 1 2 = 1 then decide (fld v 16 21 ≤ 1048575)
     else if fld v 1 2 = 2 then fld v 16 16 != own.toNat
     else false)

/-- The defined bits of a window table entry by tier; reserved bits read 0. [log 48, DESIGN CHOICE] -/
def windowEntryMask (v : Nat) : Nat :=
  fld v 0 13 + (if fld v 1 2 = 2 then fld v 16 39 else fld v 16 21) * 2 ^ 16

/-- Where a page of this node lies. -/
structure Place where
  /-- local byte address: the near tier below 2^40, the far tier from 2^40 -/
  addr : Nat
  /-- the memory stack (0 to 15) or 16 plus the far-tier die (R46) -/
  ctrl : Nat
  /-- the Sextant unit that serves atomics on it (R73) -/
  unit : Nat

/-- What a window and offset resolve to. -/
inductive Resolved where
  | here (p : Place)
  | lender (node : NodeId) (window : Nat) (offset : Nat)

/-- R46, R73: the place of a byte of a frame. -/
def placeOf (far : Bool) (frame off : Nat) : Place :=
  if far then { addr := 2 ^ 40 + frame * 2097152 + off, ctrl := 16 + frame / 262144, unit := frame % 16 }
  else { addr := frame * 2097152 + off, ctrl := (frame + off / 2097152) / 32768,
         unit := (frame + off / 2097152) / 32768 % 16 }

/-- R70: the legal shapes of a LOAD or STORE. -/
def dataShapeOk (off len : Nat) : Bool :=
  (decide (1 ≤ len) && decide (len ≤ 64) && decide (off % 64 + len ≤ 64)) ||
    (decide (64 ≤ len) && decide (len ≤ 512) && len % 64 == 0 && off % 64 == 0)

/-- R70: the legal shapes of an atomic. -/
def atomicShapeOk (off len : Nat) : Bool := (len == 4 || len == 8) && off % len == 0

/-- R70: the legal shape of an operation code. -/
def shapeOk (op off len : Nat) : Bool :=
  if op = opAtomicFetch ∨ op = opAtomicPost then atomicShapeOk off len else dataShapeOk off len

/-- The permission bit of a window entry that an operation code needs (R66, R264). -/
def permissionBit (op : Nat) : Nat :=
  if op = opLoad then 3 else if op = opAtomicFetch ∨ op = opAtomicPost then 5 else 4

/-- R47: the checks at the target in order; the status of the first that fails. -/
def translate (s : State) (key window offset len perm : Nat) (shape loop : Bool) : Except Status Resolved :=
  let d := windowDesc s window
  let size := pageSize d
  let page := offset / size
  let inPage := offset % size
  if !bitAt d 39 then .error .noWindow
  else if fld d 22 16 ≤ page then .error .noWindow
  else
    let e := windowEntry s (fld d 0 22 + page)
    let tier := fld e 1 2
    if !bitAt e 0 ∨ (bitAt d 38 ∧ tier < 2 ∧ fld e 16 9 ≠ 0) then .error .noWindow
    else if !partValid s (fld e 7 6) ∨ partKey s (fld e 7 6) ≠ key then .error .denied
    else if !bitAt e perm then .error .denied
    else if !shape ∨ size < inPage + len then .error .oversize
    else if tier = 2 then
      if loop then
        .ok (.lender (BitVec.ofNat 16 (fld e 16 16)) (fld e 32 8) (fld e 40 15 * size + inPage))
      else .error .noWindow
    else .ok (.here (placeOf (tier == 1) (fld e 16 21) inPage))

/-- R47 for a request packet. -/
def translateRequest (s : State) (h : BitVec 256) (loop : Bool) : Except Status Resolved :=
  translate s (hKey h) (hWindow h) (hOffset h) (hLen h) (permissionBit (hOp h))
    (shapeOk (hOp h) (hOffset h) (hLen h)) loop

/-! ## Shared-table writes (R23, R24) -/

/-- A routing bank of the tables. -/
def bankOf (t : Tables) (b : Nat) : RouteBank := if b = 0 then t.bank0 else t.bank1
def setBank (t : Tables) (b : Nat) (x : RouteBank) : Tables :=
  if b = 0 then { t with bank0 := x } else { t with bank1 := x }
def bankState (t : Tables) (b : Nat) : BankState := if b = 0 then t.st0 else t.st1
def setBankState (t : Tables) (b : Nat) (x : BankState) : Tables :=
  if b = 0 then { t with st0 := x } else { t with st1 := x }

/-- Store a shared-table update in the local copy. -/
def storeUpdate (t : Tables) : TableUpdate → Tables
  | .rank i v => { t with rank := tset t.rank i.val v 0 }
  | .window i v => { t with window := tset t.window i.val v 0, badWindow := t.badWindow.filter (· != i.val) }
  | .descriptor w v => { t with windowDir := tset t.windowDir w.val v 0 }
  | .incarnation n v => { t with inc := tset t.inc n.toNat v 0 }
  | .routeEntry b i v =>
    setBank t b.val { bankOf t b.val with routes := tset (bankOf t b.val).routes i.toNat v 0 }
  | .selector b e rs =>
    setBank t b.val { bankOf t b.val with selector := tset (bankOf t b.val).selector e.val rs.val 0 }
  | .extent b i v =>
    setBank t b.val { bankOf t b.val with extents := tset (bankOf t b.val).extents i.toNat v 0 }
  | .exception b i v =>
    setBank t b.val { bankOf t b.val with exceptions := tset (bankOf t b.val).exceptions i.val v 0 }
  | .markReady b => setBankState t b.val .ready
  | .release b => setBankState t b.val .free
  | .flipAt time => { t with flipAt := time.toNat }

/-- R24: store an update and send it to every other present inst, which has still to store it. -/
def shareUpdate (u : TableUpdate) (s : State) : State :=
  let s1 := { s with tables := storeUpdate s.tables u, cascade := { s.cascade with storing := s.cascade.present } }
  if s.cascade.present = [] then s1 else emit s1 (.bus (.table u))

/-- R38, R40: a rank table write at an index. [log 48, DESIGN CHOICE] -/
def applyRank (i : Nat) (v : BitVec 32) (s : State) : Verdict :=
  let node := BitVec.ofNat 16 (fld v.toNat 0 16)
  require (nodeInTorus s node)
    (if h : i < 262144 then ok (shareUpdate (.rank ⟨i, h⟩ (BitVec.ofNat 32 (fld v.toNat 0 17))) s)
     else outOfRange)

/-- R44, R45: a window table write at an index. -/
def applyWindow (i : Nat) (v : BitVec 64) (s : State) : Verdict :=
  inRange (windowTierOk v.toNat)
    (require (windowEntryOk (ownNode s) v.toNat)
      (if h : i < 4194304 then ok (shareUpdate (.window ⟨i, h⟩ (BitVec.ofNat 64 (windowEntryMask v.toNat))) s)
       else outOfRange))

/-- R42, R43: a descriptor write. -/
def applyDescriptor (w : Nat) (v : BitVec 64) (s : State) : Verdict :=
  require (descriptorOk v.toNat)
    (if h : w < 256 then ok (shareUpdate (.descriptor ⟨w, h⟩ (BitVec.ofNat 64 (fld v.toNat 0 40))) s)
     else outOfRange)

/-- 0x4200.03: the valid window entries. -/
def validWindows (s : State) : Nat := (s.tables.window.filter (fun x => bitAt x.2.toNat 0)).length

end Sys2Proof.Machine
end

