-- ==== Sys2Proof/Machine/Due.lean ====
section
/-! DEFINITION. Scheduled events (R17, R358 to R360): when each holder's next event falls due, and the order in
which events of one cycle fire. -/

namespace Sys2Proof.Machine

/-- R17, R358: a scheduled Meridian time has come. -/
def timeCome (s : State) (t : Nat) : Bool := timed s && decide (t ≤ s.mer.count)

/-- The length of the open chart interval. -/
def chartSpan (s : State) : Mt := usMt s.charts.length

/-- R418: the number that both ends of a link derive from their hails. -/
def sliceHash (s : State) (b : BitVec 256) : Nat :=
  ((ownNode s).toNat * 4 + instId s) ^^^ (cNum b 5 2 * 4 + hf b 60 2)

/-- R418: P_s in mt. -/
def slicePeriod (s : State) : Nat := msMt (reg s 0x8000 2)

/-- R418: the start of slice 0 of a port in a period. -/
def sliceShift (s : State) (b : BitVec 256) : Nat := sliceHash s b % 16 * slicePeriod s / 16

/-- R418: the number of the slice whose start has come, none before the first one. -/
def sliceDue (s : State) (b : BitVec 256) : Option Nat :=
  if sliceShift s b ≤ s.mer.count then some ((s.mer.count - sliceShift s b) / slicePeriod s) else none

/-- R423, R424: store and Sextant slices start at the multiples of their period: the first one after a time. [log 44, DEDUCED] -/
def nextMultiple (period after : Nat) : Nat := (after / period + 1) * period

def storeSliceDue (s : State) : Nat := nextMultiple (msMt (reg s 0x8000 8)) s.test.storeAt
def sextSliceDue (s : State) : Nat := nextMultiple (msMt (reg s 0x8000 9)) s.test.sextAt

/-- R418: the lane slice of a port that is next, as an event of class 6. -/
def laneEvent (s : State) (x : Nat × Port) : List (Nat × Nat) :=
  match x.2.admitted with
  | none => []
  | some b =>
    match sliceDue s b with
    | some k => if x.2.sliceNo = some k then [] else [(6, k * slicePeriod s + sliceShift s b)]
    | none => []

/-- R169: the Promenade step of a node. -/
def promenadeStep (n : NodeId) : Nat := nodeX n % 4 + 4 * ((nodeY n + nodeZ n) % 4)

/-- R169: the release time of the member whose node has a step. -/
def releaseTime (tRel step : Nat) : Nat := tRel + step * 500

/-- The events of a collective: its start and its release (R161, R170). -/
def collEvents (n : NodeId) (x : Coll) : List (Nat × Nat) :=
  (match x.tRel with
   | some t => if x.driven then [] else [(7, releaseTime t (promenadeStep n))]
   | none => []) ++
  (match x.card, x.t0 with
   | some _, some t => if x.started || x.abort.isSome then [] else [(8, t)]
   | _, _ => [])

/-- The events of a command: START of a STAGE_IN that waits, and its DEADLINE (R125, R126). -/
def cmdEvents (m : Cmd) : List (Nat × Nat) :=
  let dead := fld m.bytes.toNat 384 64
  (if m.phase = .waiting then [(9, fld m.bytes.toNat 320 64)] else []) ++
    (if fld m.bytes.toNat 0 8 = 4 ∧ dead ≠ 0 ∧ !m.late then [(9, dead)] else [])

/-- R359: the next event of every holder, with its class. -/
def events (s : State) : List (Nat × Nat) :=
  [(1, (s.mer.minute + 1) * minuteMt), (5, nextMultiple (chartSpan s) s.charts.start)] ++
  (s.power.steps.map fun x => (2, if x.prepared then x.time else x.time - 1200000)) ++
  (s.units.filterMap fun u => u.2.change.map fun t => (3, t)) ++
  (if s.tables.flipAt = 0 then [] else [(4, s.tables.flipAt)]) ++
  (s.ports.map (laneEvent s)).flatten ++
  (if s.test.store.isSome then [] else [(6, storeSliceDue s)]) ++
  (if isMaster s ∧ (List.range 16).any fun u => (sext s u).inService then [(6, sextSliceDue s)] else []) ++
  (s.colls.map fun x => collEvents (ownNode s) x.2).flatten ++
  (s.pins.booked.filterMap fun f => if f.gap then none else some (7, f.edge)) ++
  (s.ctxs.map fun x => (x.2.cmds.map cmdEvents).flatten).flatten

/-- R358, R361: the Meridian time in whose cycle an event falls due: none does before the first LOCKED, and one that a forward
step passed over does at the step. -/
def dueAt (s : State) (t : Nat) : Nat :=
  max (if s.mer.stepFrom < t ∧ t ≤ s.mer.stepTo then s.mer.stepTo else t) s.mer.firstAt

/-- R360: an event of a class goes first over one of time `t` and class `cls`: it is due, in no later cycle, and
its class is lower. -/
def before (s : State) (cls t : Nat) (e : Nat × Nat) : Bool :=
  decide (e.1 < cls) && decide (e.2 ≤ s.mer.count) && decide (dueAt s e.2 ≤ dueAt s t)

/-- R17, R360: an event fires: its time has come, and none that goes first waits. -/
def inTurn (s : State) (cls t : Nat) : Bool := timeCome s t && !(events s).any (before s cls t)

end Sys2Proof.Machine
end

