-- ==== Sys2Proof/Machine/Lanes.lean ====
section
/-! DEFINITION. The block stream on the lanes (R304 to R307, R309, R313, R315, R316, R324, R346): which octets and lanes carry
it, how the blocks that a port sends leave on them, and which received bytes are marked. -/

namespace Sys2Proof.Machine

/-! ## Octets and lanes of a port (R304 to R306) -/

/-- R305: the width in force of a port in octets. -/
def portWidth (s : State) (p : Nat) : Nat := byteAt (blob s 0x2000 2) p

/-- The first octet of a port. -/
def portBase (s : State) (p : Nat) : Nat := ((List.range p).map (portWidth s)).foldl (· + ·) 0

/-- The octets of a port, by physical number. -/
def portOctets (s : State) (p : Nat) : List Nat := (List.range (portWidth s p)).map (portBase s p + ·)

/-- The port of an octet. -/
def octetPort (s : State) (o : Nat) : Option Nat := twelve.find? fun p => (portOctets s p).contains o

/-- The nine lanes of an octet, SP last. -/
def octetLanes (o : Nat) : List Nat := (List.range 9).map (9 * o + ·)

def portLanes (s : State) (p : Nat) : List Nat := ((portOctets s p).map octetLanes).flatten

/-- The octets of a port that work (R306): in use, or off under a ceiling. -/
def workingOctets (s : State) (p : Nat) : List Nat :=
  (portOctets s p).filter fun o => [0, 1, 3].contains (octet s o).state

/-- Whether a lane is in electrical idle, or powered down for good (R308, R427). -/
def laneIdle (x : Lane) : Bool := x.role == 5 || x.fused

/-- The octets of a port in use (0x2200.05 is 0 or 1). -/
def usedOctets (s : State) (p : Nat) : List Nat := (portOctets s p).filter fun o => (octet s o).state == 0 || (octet s o).state == 1

/-- The octets that the port deals its block stream to, in ascending order of their numbers within the port (R307). -/
def txOctets (s : State) (p : Nat) : List Nat := (port s p).txOcts

/-- R304, R310: the number of an octet at the peer, as any lane of it that has trained shows it: 12 where none has. -/
def peerOctet (s : State) (o : Nat) : Nat :=
  match (octetLanes o).find? fun l => decide (3 ≤ (lane s l).sets) with
  | some l => (lane s l).peerLane.toNat / 16
  | none => 12

/-- R304: the octet of a port that has a number at the peer. -/
def octetOfPeer (s : State) (p n : Nat) : Option Nat := (portOctets s p).find? fun o => peerOctet s o == n

/-- The octets that the peer deals its block stream to, in the order of their numbers at the peer (R304, R307). -/
def rxOctets (s : State) (p : Nat) : List Nat :=
  let on := (port s p).rxOcts
  ((List.range 12).map fun k => on.filter fun o => peerOctet s o == k).flatten ++ on.filter fun o => decide (11 < peerOctet s o)

/-- The physical lane that carries a logical lane of an octet in the receive direction. -/
def carrier (s : State) (o k : Nat) : Nat :=
  if (octet s o).rxSpare = some k then 9 * o + 8
  else ((octetLanes o).find? fun l => l % 9 != 8 && (lane s l).pos == k).getD (9 * o + k)

/-- The physical lanes that carry a logical lane of an octet in the transmit direction: SP from the ACK of a SPARE onward, the
lane itself until the switch frame (R336). Those in electrical idle carry nothing. -/
def txLanes (s : State) (o k : Nat) : List Nat :=
  let y := octet s o
  ((if y.txSpare = some k ∧ y.txFreed then [] else [9 * o + k]) ++ (if y.txSpare = some k then [9 * o + 8] else [])).filter
    fun l => !laneIdle (lane s l)

/-! ## Sending (R307) -/

/-- R345: one bit in every `n` inverted, of bits the first of which is bit `at_` of a run. -/
def invertBits (n at_ : Nat) (bits : List Bool) : List Bool :=
  if n = 0 then bits else bits.zipIdx.map fun x => if (at_ + x.2 + 1) % n = 0 then !x.1 else x.1

/-- R345: a lane of a port in test mode for which 0x2300.06 asks for errors. -/
def errorLane (s : State) (l : Nat) : Bool :=
  reg s 0x2300 6 != 0 && s.test.errLane == l && (octetPort s (l / 9)).any fun p => (port s p).test

/-- R345: the bits that such a lane sends, and the lane after them. -/
def withErrors (s : State) (l : Nat) (bits : List Bool) : State × List Bool :=
  let n := (lane s l).testBits
  (updLane s l fun x => { x with testBits := n + bits.length }, invertBits (reg s 0x2300 6) n bits)

/-- The low `n` bits of a number, bit 0 first, and the number of some bits. -/
def lowBits (n x : Nat) : List Bool := (List.range n).map (bitAt x)
def ofBits (bits : List Bool) : Nat := bits.foldr (fun b a => bit b + 2 * a) 0

/-- Ten bits each. -/
def groupsOfTen (n : Nat) (bits : List Bool) : List (BitVec 10) :=
  (List.range n).map fun i => BitVec.ofNat 10 (ofBits ((bits.drop (10 * i)).take 10))

/-- R309: send characters on a lane with its own running disparity. -/
def sendCharacters (s : State) (l : Nat) (cs : List Char8) : State :=
  let g := encodeGroups cs (lane s l).txRd
  let s1 := updLane s l fun x => { x with txRd := g.2 }
  if errorLane s l then
    let e := withErrors s1 l (g.1.map fun c => lowBits 10 c.toNat).flatten
    emit e.1 (.characters l (groupsOfTen cs.length e.2))
  else emit s1 (.characters l g.1)

/-- R307, R309: a block of an octet at stage A, its bytes as data characters. -/
def sendBlockA (s : State) (o : Nat) (b : Bytes) : State :=
  ((laneBytes b).zipIdx).foldl (fun t x =>
    (txLanes t o x.2).foldl (fun t l => sendCharacters t l (x.1.map fun c => .data c.toNat)) t) s

/-- R346: the injection counts one FEC frame of an octet; one in every INTV has symbols of a codeword inverted. -/
def injectFrame (s : State) (o : Nat) (words : List (List Nat)) : State × List (List Nat) :=
  let x := reg s 0x2300 0xA
  let y := octet s o
  if y.injectLeft = 0 then (s, words)
  else if y.injectAt + 1 < fld x 11 16 then (updOctet s o fun z => { z with injectAt := z.injectAt + 1 }, words)
  else (emit (updOctet s o fun z => { z with injectAt := 0, injectLeft := z.injectLeft - 1 })
      (.inverted o (fld x 9 2) (fld x 4 5)),
    words.zipIdx.map fun w => if w.2 = fld x 9 2 then invertSymbols (fld x 4 5) w.1 else w.1)

/-- R315: the bits of a symbol in the order of their UI. -/
def symbolBits (x : Nat) : List Bool := [1, 0, 3, 2, 5, 4, 7, 6, 9, 8].map (bitAt x)

/-- The UI of a FEC frame on one lane, precoded from the last level of the lane's stage on (R315, R316). -/
def sendFrameLane (words : List (List Nat)) (k : Nat) (s : State) (l : Nat) : State :=
  let x := lane s l
  let e := if errorLane s l then withErrors s l ((laneSymbols words k).map symbolBits).flatten else (s, [])
  let r := if errorLane s l then (if x.precodeTx then precodeRun x.txW (pairLevels e.2) else (pairLevels e.2, x.txW))
    else laneLevels words k x.precodeTx x.txW
  emit (updLane e.1 l fun x => { x with txW := r.2 }) (.fecFrame l r.1)

/-- R324: a FEC frame of an octet whose 1,120 data bytes are complete, on the lanes that carry it. -/
def sendFecFrame (s : State) (o : Nat) (data : Bytes) : State :=
  let r := injectFrame s o (frameWords data)
  (List.range 8).foldl (fun t k => (txLanes t o k).foldl (sendFrameLane r.2 k) t) r.1

/-- R307: a block of an octet at stage B or C fills the FEC frame that is to go. -/
def fillFrame (s : State) (o : Nat) (b : Bytes) : State :=
  let d := (octet s o).txData ++ b
  if d.length < 1120 then updOctet s o fun x => { x with txData := d }
  else sendFecFrame (updOctet s o fun x => { x with txData := d.drop 1120 }) o (d.take 1120)

/-- R307: the next block of a stream is dealt over octets at a stage. -/
def dealBlock (st : Stage) (os : List Nat) (s : State) (p : Nat) (b : Bytes) : State :=
  let n := (port s p).txBlock
  let s1 := updPort s p fun x => { x with txBlock := n + 1 }
  match os[(blockSlot os.length n).1]? with
  | none => s1
  | some o => if st = .a then sendBlockA s1 o b else fillFrame s1 o b

/-- The 32-byte blocks of a string. -/
def cutBlocks (data : Bytes) : List Bytes := (List.range (data.length / 32)).map fun i => (data.drop (32 * i)).take 32

/-- R307: bytes of the block stream of a port leave on its lanes. -/
def streamOut (s : State) (p : Nat) (data : Bytes) : State :=
  match (port s p).stage with
  | none => s
  | some st => (cutBlocks data).foldl (fun t b => dealBlock st (txOctets s p) t p b) s

/-- How many blocks complete the FEC frames that a port has begun to fill. -/
def blocksMissing (s : State) (p : Nat) : Nat :=
  let n := 35 * (txOctets s p).length
  if (port s p).stage = some .a ∨ n = 0 then 0 else (n - (port s p).txBlock % n) % n

/-! ## Receiving (R309, R313, R325) -/

/-- R325: whether byte `i` of block `b` of the receive stream has a bit in an uncorrectable codeword. -/
def byteBad (s : State) (p b i : Nat) : Bool :=
  let os := rxOctets s p
  let slot := blockSlot os.length b
  let place := blockFrame slot.2
  match os[slot.1]? with
  | some o => (byteWords (place.2 + i)).any fun c => (octet s o).badWords.contains (place.1, c)
  | none => false

/-- R309, R313: a code group of byte `i` of block `b` of the receive stream: the byte it stands for, and whether it is marked:
invalid, no data character, or in error by its disparity. Code errors count at the lane. -/
def decodeByte (s : State) (p b i : Nat) (byte : Byte) (g : CodeGroup) : State × Byte × Bool :=
  let os := rxOctets s p
  match os[(blockSlot os.length b).1]? with
  | none => (s, byte, false)
  | some o =>
    let l := carrier s o (byteLane i)
    let rd := (lane s l).disparity
    let s1 := updLane s l fun x => { x with disparity := rdAfter g rd }
    match decodeGroup g rd with
    | some (.data c, true, _) => (s1, BitVec.ofNat 8 c, false)
    | some (.data c, false, _) => (bumpAt s1 0x2100 0xD l, BitVec.ofNat 8 c, true)
    | some (.ctl _, fits, _) => (if fits then s1 else bumpAt s1 0x2100 0xD l, byte, true)
    | none => (bumpAt s1 0x2100 0xD l, byte, true)

/-- R313: the bytes of blocks from number `first` on as stage A delivers them from their code groups; where the groups end
the further bytes came sound. -/
def decodeBytes (s : State) (p first : Nat) : Nat → Bytes → List CodeGroup → State × List (Byte × Bool)
  | i, b :: r, g :: gs =>
    let x := decodeByte s p (first + i / 32) (i % 32) b g
    let t := decodeBytes x.1 p first (i + 1) r gs
    (t.1, (x.2.1, x.2.2) :: t.2)
  | _, r, _ => (s, r.map fun b => (b, false))

end Sys2Proof.Machine
end

