-- ==== Sys2Proof/Machine/Store.lean ====
section
/-! DEFINITION. The central store (chapter 07): packets and the accounts they are charged to, the shares
of the ports, XON and XOFF with the headroom of R291, and the response reservations of R217. -/

namespace Sys2Proof.Machine

/-! ## Packets -/

def pktOf (s : State) (id : Nat) : Option Pkt := s.pkts.find? (fun x => x.id == id)

/-- The footprint of a stored packet (R210). [log 49, DEDUCED] -/
def pktCells (x : Pkt) : Nat := footprint x.payload.length

/-- The poison marks of a stored packet, also those that its header does not show (R224). -/
def pktPoison (x : Pkt) : BitVec 8 := hPoison x.header ||| x.spoiled

/-- The cells charged to an account (R212). -/
def charged (s : State) (a : Account) : Nat :=
  ((s.pkts.filter (fun x => x.acct == a)).map pktCells).foldl (· + ·) 0

/-- 0x4600.07: a region in force in cells: 0 ingress, 1 egress, 2 replay, 3 staging, 4 incast, 5 loop-back. -/
def regionCells (s : State) (i : Nat) : Nat := byteAt (blob s 0x4600 7) i * 16384

/-- 0x4610.01 as in force since the last instance reset. -/
def vcSixteenth (s : State) (vc : Nat) : Nat := byteAt (blobAt s 0x4610 1 1) vc

/-- R214: the shares of a port in cells. -/
def ingressShare (s : State) (p vc : Nat) : Nat :=
  (regionCells s 0 - regionCells s 5) * portWidth s p * vcSixteenth s vc / 192
def egressShare (s : State) (p vc : Nat) : Nat := regionCells s 1 * portWidth s p * vcSixteenth s vc / 192
def replayQuota (s : State) (p : Nat) : Nat := regionCells s 2 * portWidth s p / 12

def ingressFree (s : State) (p vc : Nat) : Nat := ingressShare s p vc - charged s (.ingress p vc)
def egressFree (s : State) (p vc : Nat) : Nat := egressShare s p vc - charged s (.egress p vc)
def replayUsed (s : State) (p : Nat) : Nat := charged s (.replay p)

/-- R221: the incast capacity C in 64-byte units. -/
def incastCapacity (s : State) : Nat := regionCells s 4 * 8 / 9

/-! ## Staging (R222, R223) -/

def guaranteeCells (s : State) : Nat := reg s 0x4620 1 * 16
def stagingUsed (s : State) (c : Nat) : Nat := charged s (.staging c)
/-- The collectives' use beyond their guarantees, and what lies under pending entries. -/
def poolUsed (s : State) : Nat :=
  ((List.range 64).map fun c => stagingUsed s c - guaranteeCells s).foldl (· + ·) 0 + charged s .pool
def poolFree (s : State) : Nat := regionCells s 3 - 64 * guaranteeCells s - poolUsed s
/-- The free staging space of a collective (64: of the pool alone). -/
def stagingFree (s : State) (c : Nat) : Nat :=
  if c < 64 then (guaranteeCells s - stagingUsed s c) + poolFree s else poolFree s

/-! ## Headroom, XON and XOFF (R216, R291) -/

/-- The data rate per octet after FEC, in 1/60 byte per ns (R303). -/
def octetRate : Option Stage → Nat
  | some .a => 495
  | some .b => 6272
  | some .c => 12544
  | none => 0

/-- The round-trip sample that H uses, in ns (R291). [log 49, DEDUCED] -/
def headroomRtt (l : Link) : Nat := if l.rttClosed then l.rttLast else l.rttOpen

/-- R291: the data rate of a port in tenths of a byte per ns, to the nearest: the rule's examples take 418.1 bytes per
ns for a 2-octet port at stage C. [log 49, DEDUCED] -/
def portRate10 (x : Port) : Nat := (octetRate x.stage * x.rxWidth * 10 + 30) / 60

/-- R291: the headroom H of a port in bytes: rate × rtt + 2 × 544 + 1,152 in whole cells. [log 49, DEDUCED] -/
def headroom (s : State) (p : Nat) : Nat :=
  let x := port s p
  ceilDiv (portRate10 x * headroomRtt x.link + 22400) 640 * 64

/-- R291: the XOFF threshold of a share in bytes: H, or half the share when H exceeds half of it. -/
def xoffThreshold (s : State) (p vc : Nat) : Nat :=
  let h := headroom s p
  let share := ingressShare s p vc * 64
  if share < 2 * h then share / 2 else h

/-- R216: a share is short when it is less than 2 × H. -/
def shareShort (s : State) (p vc : Nat) : Bool := decide (ingressShare s p vc * 64 < 2 * headroom s p)

/-- R216, R222: whether V`vc` of a port is held off now. [log 49, DEDUCED] -/
def xoffWanted (s : State) (p vc : Nat) : Bool :=
  let was := bitAt (port s p).link.xoffTx.toNat vc
  let hyst := reg s 0x4610 2 * 1024
  let t := xoffThreshold s p vc
  let own := ingressFree s p vc * 64
  let byShare := if was then decide (own ≤ t + hyst) else decide (own ≤ t)
  let byStaging := vc == 2 && (match (port s p).collOff with
    | some c => decide (stagingFree s c * 64 ≤ headroom s p + hyst)
    | none => false)
  byShare || byStaging

/-- R290: the XOFF mask a port should send now. -/
def xoffMask (s : State) (p : Nat) : BitVec 5 :=
  BitVec.ofNat 5 (((List.range 5).map fun v => if xoffWanted s p v then 2 ^ v else 0).foldl (· + ·) 0)

/-- The device's free-running ns count (R277). -/
def nsCount (s : State) : Nat := s.clock / 4

/-- R277: TSTAMP, ECHO and TURN of a LINK_STATUS (byte 9) or LINK_START (byte 6). -/
def stampFields (s : State) (l : Link) (at_ : Nat) : List (Nat × Nat × Nat) :=
  [cb at_ 3 (nsCount s % 2 ^ 24), cb (at_ + 3) 3 l.peerStamp.toNat,
   cb (at_ + 6) 2 (min (nsCount s - l.peerAt / 4) 65535)]

/-- A control packet goes out: one block of the stream (R307), counted between data packets but for the first three kinds
of R289. -/
def sendBlock (s : State) (p : Nat) (urgent : Bool) (b : BitVec 256) : State :=
  streamOut (emit (updLink s p fun l => { l with gap := if urgent then l.gap else l.gap + 1 }) (.control p b)) p (leBytes 32 b.toNat)

/-- R286: send LINK_STATUS with everything accepted so far; `xoff` when it changes the mask (R289). -/
def sendStatus (s : State) (p : Nat) (xoff : Bool) : State :=
  let l := (port s p).link
  let b := control ctStatus l.txEpoch 0
    ([cb 5 2 l.expect, cb 7 1 l.cexpect, cb 8 1 l.xoffTx.toNat] ++ stampFields s l 9)
  sendBlock (updLink s p fun l => { l with owed := 0, statusAt := s.clock }) p xoff b

/-- R216, R286: bring a port's XOFF mask up to date; a change sends LINK_STATUS. [log 49, DEDUCED] -/
def refreshXoff (s : State) (p : Nat) : State :=
  let m := xoffMask s p
  if !working s p ∨ m = (port s p).link.xoffTx then s
  else
    let off := match (port s p).collOff with
      | some c => if bitAt m.toNat 2 then some c else none
      | none => none
    sendStatus (updPort s p fun x => { x with collOff := off, link := { x.link with xoffTx := m } }) p true

/-- R341: a stripe's home inst and port, as in force since the last instance reset. -/
def stripeOf (s : State) (p : Nat) : Option (Nat × Nat) :=
  let b := byteAt (blobAt s 0x2010 1 1) p
  if bitAt b 7 then some (fld b 4 2, fld b 0 4) else none

/-- The home port here of a stripe of this inst. -/
def ownHome (s : State) (p : Nat) : Option Nat :=
  match stripeOf s p with
  | some q => if q.1 = instId s then some q.2 else none
  | none => none

/-- A stripe of this inst as its home inst is told of it. -/
def farStripe (s : State) (p home : Nat) : FarStripe :=
  { home := ⟨home % 12, by omega⟩, works := working s p, width := (port s p).txWidth,
    used0 := charged s (.egress p 0), used1 := charged s (.egress p 1),
    free0 := egressFree s p 0, free1 := egressFree s p 1 }

/-- R342, R344: a stripe of another inst's home port tells it how it stands. -/
def tellStripe (s : State) (p : Nat) : State :=
  match stripeOf s p with
  | some q =>
    if q.1 = instId s then s
    else emit s (.bus (.stripe ⟨instId s % 4, by omega⟩ ⟨p % 12, by omega⟩ (farStripe s p q.2)))
  | none => s

/-- R343: a packet in the ingress share of the stripe that it arrived on, before it is passed to the home port. -/
def forHome (s : State) (x : Pkt) : Bool :=
  match x.acct with
  | .ingress p _ => (stripeOf s p).isSome && x.inPort == some p
  | _ => false

/-- What follows a change of an account: the XOFF that it bears on, and the word of a stripe to its home inst. -/
def refreshAccount (s : State) (a : Account) : State :=
  match a with
  | .ingress p _ => refreshXoff s p
  | .egress p _ => tellStripe s p
  | .staging _ | .pool => twelve.foldl refreshXoff s
  | _ => s

/-- R263: the highest incast and staging occupancy of the open chart interval. -/
def notePeaks (s : State) : State :=
  let staged := ((s.pkts.filter fun x => match x.acct with
    | .staging _ | .pool => true
    | _ => false).map pktCells).foldl (· + ·) 0
  { s with charts := { s.charts with
      incPeak := max s.charts.incPeak (charged s .incast), stgPeak := max s.charts.stgPeak staged } }

/-! ## The chart budget (R265) -/

/-- The raw rate per octet in 1/240 byte per ns (R303). -/
def rawRate : Option Stage → Nat
  | some .a => 2475
  | some .b => 26880
  | some .c => 53760
  | none => 0

/-- R265: the chart budget of a port now, in 1/960,000,000 byte. -/
def chartBudget (s : State) (p : Nat) : Nat :=
  let x := port s p
  min (2176 * 960000000) (x.link.budget + (s.clock - x.link.budgetAt) * rawRate x.stage * x.txWidth * reg s 0xB000 7)

/-- R265: bring a port's chart budget up to now, before its rate changes. -/
def accrue (s : State) (p : Nat) : State :=
  updLink s p fun l => { l with budget := chartBudget s p, budgetAt := s.clock }

/-! ## Old-epoch packets (R260) -/

/-- Whether a packet counts in 0x3800.08: charged to ingress, egress, incast, staging or loop-back. A response in the
egress region's response account has an EPOCH from its first routing on (R259). -/
def epochCounted (x : Pkt) : Bool :=
  match x.acct with
  | .replay _ => false
  | .response | .waiting none => x.routed
  | _ => true

/-- The DRAINING bank. -/
def drainingBank (s : State) : Option Nat :=
  if s.tables.st0 = .draining then some 0 else if s.tables.st1 = .draining then some 1 else none

/-- The packets held whose EPOCH names the draining bank. -/
def oldEpochPkts (s : State) : List Pkt :=
  match drainingBank s with
  | some b => s.pkts.filter fun x => epochCounted x && hEpoch x.header == b
  | none => []

/-- 0x3800.08: their number. -/
def oldEpochHeld (s : State) : Nat := (oldEpochPkts s).length

/-- The quiet time runs from the moment at which the count reached 0. -/
def noteQuiet (s : State) : State :=
  if (drainingBank s).isNone then s
  else
    let q := if oldEpochHeld s = 0 then some (s.tables.quiet.getD s.clock) else none
    { s with tables := { s.tables with quiet := q } }

/-- R211: who writes a packet: the port it came in on, or the device itself. The spec does not say who the writers are. [log 31, DEDUCED] -/
def writerOf (x : Pkt) : Nat := x.inPort.getD 12

/-- R211: a writer's next starting bank. -/
def startBank (s : State) (w : Nat) : Nat := tgetD s.writers w 0

/-- Place a packet in the store, its rows from the next bank of its writer on (R211). -/
def addPkt (s : State) (x : Pkt) : State :=
  let b := startBank s (writerOf x)
  let s1 := { s with pkts := s.pkts ++ [{ x with bank := b }], nextId := s.nextId + 1,
                     writers := tput s.writers (writerOf x) ((b + 1) % 128) }
  refreshAccount (noteQuiet (notePeaks s1)) x.acct

/-- R211: the bank served in which a cell of a packet lies: two cells to a row, rows in consecutive banks. -/
def cellBank (x : Pkt) (cell : Nat) : Nat := (x.bank + cell / 2) % 128

/-- Release a packet's cells. -/
def dropPkt (s : State) (id : Nat) : State :=
  match pktOf s id with
  | some x => refreshAccount (noteQuiet { s with pkts := s.pkts.filter (fun y => y.id != id) }) x.acct
  | none => s

/-- Put a packet's record back. -/
def putPkt (s : State) (x : Pkt) : State :=
  { s with pkts := s.pkts.map fun y => if y.id == x.id then x else y }

/-- R212: move a packet's charge. -/
def rechargePkt (s : State) (x : Pkt) (a : Account) : State :=
  refreshAccount (noteQuiet (putPkt s { x with acct := a })) x.acct

/-- A packet built here, waiting since now. -/
def newPkt (s : State) (h : BitVec 256) (payload : Bytes) (a : Account) (inPort : Option Nat) : Pkt :=
  { id := s.nextId, header := h, payload := payload, acct := a, inPort := inPort, since := s.clock,
    seq := 0, own := none, coll := none, hereToo := false, acked := false,
    routed := false, bank := 0, spoiled := 0 }

/-! ## Response space (R217, R219) -/

/-- The cells of the response a request is answered by. [log 14, DEDUCED] -/
def responseCells (h : BitVec 256) : Nat :=
  if hOp h = opLoad then footprint (64 * ceilDiv (hOffset h % 64 + hLen h) 64)
  else if hOp h = opAtomicFetch then 2
  else 1

/-- Whether a request has been taken for memory and not answered: its access is outstanding. -/
def accessOpen (s : State) (id : Nat) : Bool := s.accesses.any (fun a => a.pkt == some id)

/-- The cells a request waiting in a Sextant unit's queue has reserved. -/
def queuedCells (r : UnitReq) : Nat :=
  match r.work with
  | .atomic h _ _ _ _ loop => if loop then 0 else responseCells h
  | .piece .. => 0

/-- Open reservations of the response account. -/
def reservations (s : State) : Nat :=
  (s.accesses.map (fun a => a.cells)).foldl (· + ·) 0 +
    (s.units.map fun u => (u.2.queue.map queuedCells).foldl (· + ·) 0).foldl (· + ·) 0 +
    s.accums.length + charged s .response

/-- R217: whether a response of `cells` can be reserved. [log 14, DEDUCED] -/
def canReserve (s : State) (cells : Nat) : Bool :=
  let size := (twelve.map fun p => egressShare s p 1).foldl (· + ·) 0
  let used := (twelve.map fun p => charged s (.egress p 1)).foldl (· + ·) 0
  decide (reservations s + used + cells ≤ size)

/-- R219: the loop-back account's use: requests with their responses' cells. A looped-back response is
taken by the host port or the context as it is built. -/
def loopUsed (s : State) : Nat :=
  (s.units.map fun u => (u.2.queue.map fun r => match r.work with
    | .atomic h _ _ _ _ true => responseCells h
    | _ => 0).foldl (· + ·) 0).foldl (· + ·) 0 +
  ((s.pkts.filter (fun x => x.acct == .loopBack)).map fun x =>
    pktCells x + if isRequest (hOp x.header) then responseCells x.header else 0).foldl (· + ·) 0

/-- R219: whether a looped-back request has room for itself and its response. -/
def loopRoom (s : State) (h : BitVec 256) (payload : Nat) : Bool :=
  decide (loopUsed s + footprint payload + responseCells h ≤ regionCells s 5)

end Sys2Proof.Machine
end

