-- ==== Sys2Proof/Machine/Route.lean ====
section
/-! DEFINITION. Routing (chapter 08): directions, datelines and levels, the routing banks, the preferred,
adaptive and Leeway hops with the route exceptions, and the choice of an egress port and channel. -/

namespace Sys2Proof.Machine

/-! ## Directions and levels (R233 to R236) -/

/-- 0x3600.02: the direction code of a port. -/
def dirOf (s : State) (p : Nat) : Nat := regAt s 0x3600 2 p

/-- The dimension and sign of a direction code: 0 is +, 1 is −. -/
def dirDim (d : Nat) : Nat := (d - 1) / 2
def dirMinus (d : Nat) : Nat := (d - 1) % 2
def dirCode (dim minus : Nat) : Nat := 2 * dim + minus + 1

/-- R234: the dateline of a dimension; by default the size minus 1. [log 23, DEDUCED] -/
def dateline (s : State) (d : Nat) : Nat :=
  (tget s.regs (regKey 0x3600 (5 + d) 0)).getD (torusSize s d - 1)

/-- R236: the level of the link of dimension d from coordinate c in direction m (0 +, 1 −). -/
def linkLevel (n t d m c : Nat) : Nat :=
  256 * d + 128 * m + (if m = 0 then (c + 2 * n - t - 1) % n else (t + n - c) % n)

/-- R236: the default out-level and in-level of a port. -/
def defaultLout (s : State) (p : Nat) : Nat :=
  let dir := dirOf s p
  if dir = 0 ∨ 6 < dir then 0
  else
    let d := dirDim dir
    linkLevel (torusSize s d) (dateline s d) d (dirMinus dir) (coord (ownNode s) d)

def defaultLin (s : State) (p : Nat) : Nat :=
  let dir := dirOf s p
  if dir = 0 ∨ 6 < dir then 0
  else
    let d := dirDim dir
    let n := torusSize s d
    let c := coord (ownNode s) d
    if dirMinus dir = 0 then linkLevel n (dateline s d) d 1 ((c + 1) % n)
    else linkLevel n (dateline s d) d 0 ((c + n - 1) % n)

/-- 0x3600.03 and .04: a level as written, else the default. [log 23, DEDUCED] -/
def lout (s : State) (p : Nat) : Nat := (tget s.regs (regKey 0x3600 3 p)).getD (defaultLout s p)
/-- 0x3600.04: the level in, as written, else the default. [log 23, DEDUCED] -/
def lin (s : State) (p : Nat) : Nat := (tget s.regs (regKey 0x3600 4 p)).getD (defaultLin s p)

/-- R233: a port is usable for a key. -/
def usable (s : State) (p key : Nat) : Bool :=
  working s p && dirOf s p != 0 && keyStanding s p key != 0

/-- The usable ports of a direction, lowest first. -/
def usableIn (s : State) (key dir : Nat) : List Nat :=
  twelve.filter fun p => usable s p key && dirOf s p == dir

/-! ## The banks (R239 to R251) -/

/-- The bank in force for stamping: the ACTIVE one. -/
def activeBank (s : State) : Nat := if s.tables.st1 = .active then 1 else 0

/-- The route set that a bank selects for a partition table entry. -/
def routeSetOf (s : State) (bank e : Nat) : Nat := tgetD (bankOf s.tables bank).selector e 0

/-- The route entry of a set for a destination coordinate of a dimension (index of 0x3700.02). -/
def routeEntry (s : State) (bank rs d c : Nat) : Nat :=
  (tgetD (bankOf s.tables bank).routes (rs + 16 * d + 64 * c) 0).toNat

/-- The extent of a route set and axis. -/
def extentOf (s : State) (bank rs axis : Nat) : Nat :=
  (tgetD (bankOf s.tables bank).extents (rs + 16 * axis) 0).toNat

/-- R248: the lowest-numbered exception entry of a class that matches. -/
def exceptionFor (s : State) (bank rs cls : Nat) (dst : NodeId) : Option Nat :=
  ((bankOf s.tables bank).exceptions.find? fun x =>
    let e := x.2.toNat
    bitAt e 56 && (fld e 0 16 ^^^ dst.toNat) &&& fld e 16 16 == 0 && (bitAt e 36 || fld e 32 4 == rs) &&
      fld e 37 1 == cls).map fun x => x.2.toNat

/-- The dimensions in which a node differs from the own node. -/
def differing (s : State) (dst : NodeId) : List Nat :=
  [0, 1, 2].filter fun d => coord (ownNode s) d != coord dst d

/-- What routing knows of a packet. -/
structure RouteReq where
  bank : Nat
  key  : Nat
  src  : NodeId
  dst  : NodeId

def routeReq (h : BitVec 256) : RouteReq :=
  { bank := hEpoch h, key := hKey h, src := hSrc h, dst := hDst h }

/-- The route set a request is routed under. -/
def reqSet (s : State) (r : RouteReq) : Nat :=
  match entryOfKey s r.key with
  | some e => routeSetOf s r.bank e
  | none => 0

/-- R248: the ports that a CLASS 0 entry leaves, and a forced port: none for no entry, `some none` for
no hop at all. -/
def class0 (s : State) (r : RouteReq) : (Nat → Bool) × Option (Option Nat) :=
  match exceptionFor s r.bank (reqSet s r) 0 r.dst with
  | none => (fun _ => true, none)
  | some e =>
    if fld e 38 2 = 0 then
      (fun _ => true, some (if usable s (fld e 40 4) r.key then some (fld e 40 4) else none))
    else if fld e 38 2 = 1 then (fun p => !bitAt e (44 + p), none)
    else (fun _ => false, some none)

/-- R241: the preferred hop. -/
def preferredHop (s : State) (r : RouteReq) : Option Nat :=
  let c := class0 s r
  match c.2 with
  | some f => f
  | none =>
    let rs := reqSet s r
    let dim := (differing s r.dst).find? fun d =>
      let pref := fld (routeEntry s r.bank rs d (coord r.dst d)) 0 2
      pref == 1 || pref == 2
    match dim with
    | none => none
    | some d =>
      let pref := fld (routeEntry s r.bank rs d (coord r.dst d)) 0 2
      let ps := (usableIn s r.key (dirCode d (pref - 1))).filter c.1
      if ps = [] then none else ps[(r.src ^^^ r.dst).toNat % ps.length]?

/-- R242: the adaptive candidates, in the order of dimension and port number. -/
def candidates (s : State) (r : RouteReq) : List Nat :=
  let c := class0 s r
  match c.2 with
  | some f => f.toList
  | none =>
    let rs := reqSet s r
    ((differing s r.dst).map fun d =>
      let e := routeEntry s r.bank rs d (coord r.dst d)
      let plus := fld e 0 2 == 1 || bitAt e 2
      let minus := fld e 0 2 == 2 || bitAt e 3
      twelve.filter fun p => c.1 p &&
        ((plus && usable s p r.key && dirOf s p == dirCode d 0) ||
          (minus && usable s p r.key && dirOf s p == dirCode d 1))).flatten

/-- R235: the direction of the Leeway route. -/
def leewayDir (s : State) (dst : NodeId) : Option Nat :=
  match differing s dst with
  | [] => none
  | d :: _ =>
    let n := torusSize s d
    let rel (c : Nat) := (c + 2 * n - dateline s d - 1) % n
    some (dirCode d (if rel (coord (ownNode s) d) < rel (coord dst d) then 0 else 1))

/-- R235, R248: the Leeway hop of a key. -/
def leewayHop (s : State) (r : RouteReq) : Option Nat :=
  match exceptionFor s r.bank (reqSet s r) 1 r.dst with
  | some e =>
    if fld e 38 2 = 0 then (if usable s (fld e 40 4) r.key then some (fld e 40 4) else none) else none
  | none =>
    match leewayDir s r.dst with
    | some d => (usableIn s r.key d).head?
    | none => none

/-- R293: the Leeway hop of a routed control packet: CLASS 1 exceptions of the ACTIVE bank, no key. Of
the entries only those that match every route set can match a packet without a key. -/
def controlHop (s : State) (dst : NodeId) : Option Nat :=
  let open_ := fun p => working s p && dirOf s p != 0
  match (bankOf s.tables (activeBank s)).exceptions.find? fun x =>
      let e := x.2.toNat
      bitAt e 56 && (fld e 0 16 ^^^ dst.toNat) &&& fld e 16 16 == 0 && bitAt e 36 && bitAt e 37 with
  | some x =>
    let e := x.2.toNat
    if fld e 38 2 = 0 ∧ open_ (fld e 40 4) then some (fld e 40 4) else none
  | none =>
    match leewayDir s dst with
    | some d => twelve.find? fun p => open_ p && dirOf s p == d
    | none => none

/-- R243: the device routes in deterministic mode. -/
def deterministic (s : State) : Bool := reg s 0xB000 9 == 0 || reg s 0x3900 1 == 0

/-- R242: the cost of a candidate, in units of 1/65,536 cell. -/
def routeCost (s : State) (p vc : Nat) : Nat :=
  charged s (.egress p vc) * 65536 + reg s 0x3900 3 * (port s p).busy

/-- The candidate of least cost; the first of equals. -/
def leastCost (s : State) (vc : Nat) : List Nat → Option Nat
  | [] => none
  | p :: r =>
    match leastCost s vc r with
    | some q => if routeCost s q vc < routeCost s p vc then some q else some p
    | none => some p

/-- R238: a packet bound by levels may leave on q after arriving on p. -/
def levelOk (s : State) (inPort : Option Nat) (bound : Bool) (q : Nat) : Bool :=
  match inPort with
  | some p => !bound || decide (lin s p < lout s q)
  | none => true

/-- Where a packet for a home port is placed: on a port of this inst, or on a stripe of another (R342). -/
inductive Way where
  | here (p : Nat)
  | far (inst p : Nat)
  deriving DecidableEq, Repr

/-- R342: the home port and its working stripes, each with the cells in use and free on a VC, and its octets. -/
def ways (s : State) (p vc : Nat) : List (Way × Nat × Nat × Nat) :=
  let own (q : Nat) := (Way.here q, charged s (.egress q vc), egressFree s q vc, (port s q).txWidth)
  own p :: (twelve.filter fun q => ownHome s q == some p && working s q).map own ++
    (s.cascade.stripes.filter fun x => x.2.home.val == p && x.2.works).map fun x =>
      (Way.far (x.1 / 12) (x.1 % 12), if vc = 0 then x.2.used0 else x.2.used1,
        if vc = 0 then x.2.free0 else x.2.free1, x.2.width)

/-- The way of least egress occupancy for its width; the first of equals. -/
def leastUsed : List (Way × Nat × Nat × Nat) → Option (Way × Nat × Nat × Nat)
  | [] => none
  | a :: r =>
    match leastUsed r with
    | some b => if b.2.1 * a.2.2.2 < a.2.1 * b.2.2.2 then some b else some a
    | none => some a

/-- R342: where a packet of `cells` goes that is routed to a home port: of V0 and V1 with DET 0 to the way of least
occupancy that has room, any other to the home port. None where there is no room. -/
def placeOn (s : State) (p vc : Nat) (det : Bool) (cells : Nat) : Option Way :=
  if vc < 2 ∧ !det then (leastUsed ((ways s p vc).filter fun w => decide (cells ≤ w.2.2.1))).map (·.1)
  else if cells ≤ egressFree s p vc then some (.here p) else none

/-- What routing decides for a packet. -/
inductive Hop where
  /-- charge it to this port and VC; the flag tells a move to Leeway (R244) -/
  | go (p vc : Nat) (moved : Bool)
  | wait
  | noRoute
  /-- R238 would be broken -/
  | level
  deriving DecidableEq, Repr

/-- R230, R244, R249: the next hop of a packet of a given footprint that must leave this node; `late` when it has waited
for the escape time. A transit packet on V1 leaves the open reservations of R217 their room. -/
def nextHop (s : State) (h : BitVec 256) (cells : Nat) (inPort : Option Nat) (late : Bool) : Hop :=
  let r := routeReq h
  let vc := hVc h
  let room (p v : Nat) := (placeOn s p v (hDet h) cells).isSome && (v != 1 || inPort.isNone || canReserve s cells)
  match leewayHop s r with
  | none => .noRoute
  | some lw =>
    if inPort.isSome ∧ hHops h = 255 then .noRoute
    else if bankState s.tables r.bank = .free then .noRoute
    else if vc = 3 ∨ vc = 4 ∨ (vc = 2 ∧ hDet h) then
      if !levelOk s inPort true lw then .level
      else if room lw vc then .go lw vc false else .wait
    else
      let up := if vc = 0 then 3 else 4
      let cands := candidates s r
      let first := if deterministic s then
          (match preferredHop s r with
           | some p => some p
           | none => cands.foldl (fun a p =>
               match a with
               | none => some p
               | some q => some (min p q)) none)
        else leastCost s vc (cands.filter fun p => room p vc)
      match first with
      | some p =>
        if room p vc then .go p vc false
        else if late ∧ room lw up then .go lw up true else .wait
      | none =>
        if cands = [] ∧ preferredHop s r = none then
          (if room lw up then .go lw up true else .wait)
        else if late ∧ room lw up then .go lw up true else .wait

/-- Check 7 of R79: a route to the target exists. -/
def routeExists (s : State) (h : BitVec 256) : Bool :=
  match nextHop s h 0 none true with
  | .noRoute | .level => false
  | _ => true

/-! ## Multicast extents (R251, R252) -/

/-- Whether a coordinate lies in an extent modulo the size. -/
def inExtent (n lo hi c : Nat) : Bool := decide ((c + n - lo) % n ≤ (hi + n - lo) % n)

/-- R257: whether the dateline link t to t + 1 lies inside an extent. -/
def datelineInside (n lo hi t : Nat) : Bool := inExtent n lo hi t && t != hi

end Sys2Proof.Machine
end

