-- ==== Sys2Proof/Machine/Context.lean ====
section
/-! DEFINITION. Contexts (chapter 04): states, command slots, completion counters, thresholds, the mirror
block and the completion of commands; and the commands that need no remote operation. -/

namespace Sys2Proof.Machine

/-! ## Counters, thresholds and the mirror (R132 to R137) -/

/-- A completion counter of a context. -/
def counterOf (x : Ctx) (k : Nat) : Nat := tgetD x.counters k 0

/-- A 24-byte first failure record of 0x4000.0B. -/
def failRecord (num type status time : Nat) : FailRecord :=
  leBytes 8 num ++ leBytes 1 type ++ leBytes 1 status ++ zeros 6 ++ leBytes 8 time

/-- R135: the mirror block of a context, bytes 0 to 555, with a state and generation. -/
def mirrorImage (x : Ctx) (st : CtxState) (gen : BitVec 8) : Bytes :=
  ((List.range 64).map fun k => leBytes 8 (counterOf x k)).flatten ++ leBytes 8 x.accept ++
    leBytes 8 x.failed ++ x.first.getD (zeros 24) ++ leBytes 1 st.code ++ leBytes 1 gen.toNat ++ zeros 2

/-- R136: the states in which a context's mirror is written: nothing more is between HALTED and the next enable. -/
def mirrored (x : Ctx) : Bool := x.state == .enabled || x.state == .draining

/-- R136: note that a mirrored value changed. -/
def mirrorTouch (s : State) (c : Nat) : State :=
  updCtx s c fun x =>
    if x.mirror ≠ 0 ∧ mirrored x ∧ x.mirrorDue.isNone then { x with mirrorDue := some s.clock } else x

/-- R135, R144 step 6: what a mirror write shows at this moment: the final one of a disable sequence shows HALTED and
the generation raised. -/
def mirrorNow (x : Ctx) : Bytes :=
  if x.halting then mirrorImage x .halted (x.gen + 1) else mirrorImage x x.state x.gen

/-- R136: issue a mirror write of the present values with the interrupts that it releases; while one is outstanding the
write waits and takes its values when it is issued. Writes that wait together are one write of the whole block: it shows
every change they were due for. [log 53, DESIGN CHOICE] -/
def issueMirror (s : State) (c : Nat) : State :=
  let x := ctx s c
  if x.mirror = 0 ∨ cutOff s then s
  else
    match x.mirrorOut with
    | none =>
      emit (setCtx s c { x with fired := [], mirrorDue := none, mirrorNext := false,
                                mirrorOut := some (mirrorNow x, x.fired) }) (.mirror c x.mirror (mirrorNow x))
    | some _ => setCtx s c { x with mirrorDue := none, mirrorNext := true }

/-- R137: send an interrupt with the context number. -/
def interrupts (s : State) (c : Nat) (vecs : List Nat) : State :=
  if cutOff s then s else vecs.foldl (fun t v => emit t (.interrupt v c)) s

/-- R137: fire every armed threshold that its counter meets; the message waits for the mirror. Where the context has no
mirror block (0x4000.05 is 0) no write can show the firing value and the message is sent at once: the spec does not say. [log 53, DESIGN CHOICE] -/
def fireThresholds (s : State) (c : Nat) : State :=
  let x := ctx s c
  let due := x.arms.filter fun a => decide (a.2.val ≤ counterOf x a.2.ctr)
  if due = [] then s
  else
    let y := { x with arms := x.arms.filter fun a => !decide (a.2.val ≤ counterOf x a.2.ctr) }
    let vecs := due.map fun a => a.2.vec
    if x.mirror = 0 then interrupts (setCtx s c y) c vecs
    else mirrorTouch (setCtx s c { y with fired := x.fired ++ vecs }) c

/-- R132, R134: raise a counter of a context by 1. -/
def raiseCounter (s : State) (c k : Nat) : State :=
  if cutOff s then s
  else
    let s1 := updCtx s c fun x =>
      { x with counters := tput x.counters k ((counterOf x k + 1) % 2 ^ 64) }
    fireThresholds (mirrorTouch s1 c) c

/-- R111, R133: count a failed command and keep the first failure. -/
def recordFailure (s : State) (c num type : Nat) (st : Status) : State :=
  mirrorTouch (updCtx s c fun x =>
    { x with
      failed := (x.failed + 1) % 2 ^ 64
      first := some (x.first.getD (failRecord num type st.code (stamp s))) }) c

/-- R132, R133: complete a command with a status: one raise of CCTR, and the failure record. -/
def finishCommand (s : State) (c num type cctr : Nat) (st : Status) : State :=
  if cutOff s then s
  else raiseCounter (if st = .ok then s else recordFailure s c num type st) c cctr

/-! ## Command bytes (R114) -/

/-- `len` bytes of a command from byte n. -/
def cmdB (b : BitVec 512) (n len : Nat) : Nat := fld b.toNat (8 * n) (8 * len)
def cmdType (b : BitVec 512) : Nat := cmdB b 0 1
def cmdOrd (b : BitVec 512) : Bool := bitAt b.toNat 8
def cmdNtf (b : BitVec 512) : Bool := bitAt b.toNat 9
def cmdSloc (b : BitVec 512) : Bool := bitAt b.toNat 10
def cmdDloc (b : BitVec 512) : Bool := bitAt b.toNat 11
def cmdSeq (b : BitVec 512) : Nat := cmdB b 2 2
def cmdCctr (b : BitVec 512) : Nat := fld b.toNat 32 6
def cmdNctr (b : BitVec 512) : Nat := fld b.toNat 40 6
def cmdNctx (b : BitVec 512) : Nat := fld b.toNat 48 12

/-- Remove a command in progress. -/
def dropCmd (s : State) (c num : Nat) : State :=
  updCtx s c fun x => { x with cmds := x.cmds.filter fun m => m.num != num }

def cmdOf (s : State) (c num : Nat) : Option Cmd := (ctx s c).cmds.find? fun m => m.num == num

def putCmd (s : State) (c : Nat) (m : Cmd) : State :=
  updCtx s c fun x => { x with cmds := x.cmds.map fun y => if y.num == m.num then m else y }

/-- A command in progress completes. -/
def completeCmd (s : State) (c : Nat) (m : Cmd) (st : Status) : State :=
  if cutOff s then s else finishCommand (dropCmd s c m.num) c m.num (cmdType m.bytes) (cmdCctr m.bytes) st

/-! ## Acceptance (R110 to R112, R116) -/

/-- Commands in progress: a STAGE_IN that waits for START does not count (R112). -/
def inProgress (x : Ctx) : Nat := (x.cmds.filter fun m => m.phase != .waiting).length

/-- The command that may be accepted next, when its slot holds it. -/
def nextCommand (x : Ctx) : Option (BitVec 512) := tget x.slots (x.accept % 16)

/-- R110: acceptance empties the slot and raises A. -/
def acceptSlot (s : State) (c : Nat) : State :=
  mirrorTouch (updCtx s c fun x =>
    { x with slots := tdel x.slots (x.accept % 16), accept := (x.accept + 1) % 2 ^ 64 }) c

/-- R112: run `body` on the accepted command of one of the given types of an ENABLED context; nothing
happens while none can be accepted. -/
def accepting (c : Nat) (types : Nat → Bool) (body : State → Nat → BitVec 512 → State) (s : State) : State :=
  let x := ctx s c
  match nextCommand x with
  | none => s
  | some b =>
    if x.state = .enabled ∧ s.phase = .running ∧ types (cmdType b) ∧ inProgress x < 16 then
      body (acceptSlot s c) x.accept b
    else s

/-- The side of a command that names none. -/
def noSide : Side := { node := 0, loop := false, inc := 0 }

/-- A fresh record of an accepted command. -/
def newCmd (num : Nat) (b : BitVec 512) (phase : CmdPhase) : Cmd :=
  { num := num, bytes := b, phase := phase, src := noSide, dst := noSide, key := 0, sinc := 0, pos := 0,
    total := 0, open_ := 0, status := .ok, late := false }

def addCmd (s : State) (c : Nat) (m : Cmd) : State :=
  updCtx s c fun x => { x with cmds := x.cmds ++ [m] }

/-- Complete a command at acceptance. -/
def finishAtOnce (s : State) (c num : Nat) (b : BitVec 512) (st : Status) : State :=
  finishCommand s c num (cmdType b) (cmdCctr b) st

/-! ## Slot writes (R105, R109 to R111) -/

/-- The host port answers in service and after a power cut warning (R416). -/
def hostDown (s : State) : Bool := s.phase != .running && s.phase != .cut

/-- R111: the command number recorded for a refused write: bytes 2 and 3 of the slot that holds its
first byte, as the write sets them. -/
def refusedNumber (offset : Nat) (enables : List Bool) (data : Bytes) : Nat :=
  let base := offset / 64 * 64
  let at_ (n : Nat) : Option Nat :=
    if base + n < offset then none
    else match enables[base + n - offset]?, data[base + n - offset]? with
      | some true, some b => some b.toNat
      | _, _ => none
  match at_ 2, at_ 3 with
  | some lo, some hi => lo + 256 * hi
  | _, _ => 2 ^ 64 - 1

/-- R111, R133: the TYPE recorded for a refused write: byte 0 of the slot as the write sets it; a write that does
not set it leaves the TYPE open, a free value. [log 8, DESIGN CHOICE] -/
def refusedType (s : State) (offset : Nat) (enables : List Bool) (data : Bytes) : Nat × State :=
  if offset % 64 = 0 ∧ enables[0]? = some true ∧ data ≠ [] then (byteAt data 0, s)
  else ((freshValue s 8).1.toNat, (freshValue s 8).2)

/-- R110: the number a slot expects: the smallest n ≥ A with n mod 16 = i. -/
def expectedNumber (x : Ctx) (i : Nat) : Nat := x.accept + (i + 16 - x.accept % 16) % 16

/-- A host write into the command region. -/
def slotWrite (c offset : Nat) (enables : List Bool) (data : Bytes) (s : State) : State :=
  let x := ctx s c
  if s.phase ≠ .running then s
  else if 1024 ≤ offset then bump s 0x4400 1
  else if x.state ≠ .enabled then bump s 0x4400 2
  else
    let i := offset / 64
    let whole := offset % 64 = 0 ∧ data.length = 64 ∧ enables.length = 64 ∧ enables.all id
    let b := BitVec.ofNat 512 (leNat data)
    if whole ∧ (tget x.slots i).isNone ∧ cmdSeq b = expectedNumber x i % 65536 then
      setCtx s c { x with slots := tput x.slots i b }
    else
      let k := refusedType (bump s 0x4400 1) offset enables data
      recordFailure k.2 c (refusedNumber offset enables data) k.1 .slotBusy

/-- R109: a read from the command region returns zeros. -/
def regionRead (thread : BitVec 16) (len : Nat) (s : State) : State :=
  if hostDown s then s else emit s (.loadDone thread .ok (zeros len) 0)

def execSlotWrite (ctx : Fin 4096) (offset : Fin 4096) (access : RegionAccess) (data : Bytes) (s : State) :
    Host.Outcome State Fault Refusal :=
  match access with
  | .write enables => .next (slotWrite ctx offset enables data s)
  | .read thread len => .next (regionRead thread len s)

/-! ## FENCE, PHASE_HINT, ARM and reserved types -/

/-- R127: a FENCE waits until FENCE_COMPLETE. -/
def acceptFence (s : State) (c num : Nat) (b : BitVec 512) : State := addCmd s c (newCmd num b .fencing)

def execFence (ctx : Fin 4096) (s : State) : Host.Outcome State Fault Refusal :=
  .next (accepting ctx (· == 5) (fun t n b => acceptFence t ctx n b) s)

/-- R127: whether a FENCE is met: every command accepted before it has completed, and its counter
condition holds. -/
def fenceMet (x : Ctx) (m : Cmd) : Bool :=
  (x.cmds.all fun y => decide (m.num ≤ y.num)) &&
    (!bitAt m.bytes.toNat 71 || decide (cmdB m.bytes 16 8 ≤ counterOf x (fld m.bytes.toNat 64 6)))

def fenceComplete (c num : Nat) (s : State) : State :=
  match cmdOf s c num with
  | some m =>
    if m.phase = .fencing ∧ fenceMet (ctx s c) m then completeCmd s c m .ok else s
  | none => s

def execFenceComplete (ctx : Fin 4096) (cmd : Nat) (s : State) : Host.Outcome State Fault Refusal :=
  .next (fenceComplete ctx cmd s)

/-- R130: the ranges of PHASE_HINT. DPOW is a signed 16-bit value. -/
def phaseHintOk (b : BitVec 512) : Bool :=
  let dur := cmdB b 16 4
  let dpow := toSigned 16 (cmdB b 20 2)
  decide (1 ≤ dur) && decide (dur ≤ 10000000) && decide (-4200 ≤ dpow) && decide (dpow ≤ 4200) &&
    cmdB b 24 4 != 0

/-- R130: pass the hint on, complete with OK. -/
def phaseHint (s : State) (c num : Nat) (b : BitVec 512) : State :=
  if phaseHintOk b then finishAtOnce (emit s (.hint b (instId s) c)) c num b .ok
  else finishAtOnce s c num b .oversize

def execPhaseHint (ctx : Fin 4096) (s : State) : Host.Outcome State Fault Refusal :=
  .next (accepting ctx (· == 8) (fun t n b => phaseHint t ctx n b) s)

/-- R131, R137: arm or disarm a threshold; one already met fires at once. -/
def armThreshold (s : State) (c num : Nat) (b : BitVec 512) : State :=
  let tidx := fld b.toNat 64 2
  let arm : Threshold :=
    { ctr := fld b.toNat 72 6, vec := fld b.toNat 80 11, val := cmdB b 16 8 }
  let s1 := updCtx s c fun x =>
    { x with arms := if bitAt b.toNat 71 then tdel x.arms tidx else tput x.arms tidx arm }
  finishAtOnce (fireThresholds s1 c) c num b .ok

def execArm (ctx : Fin 4096) (s : State) : Host.Outcome State Fault Refusal :=
  .next (accepting ctx (· == 9) (fun t n b => armThreshold t ctx n b) s)

/-- R115: a reserved TYPE completes with NOT_PERFORMED. -/
def execReservedType (ctx : Fin 4096) (s : State) : Host.Outcome State Fault Refusal :=
  .next (accepting ctx (fun t => t == 0 || decide (10 ≤ t))
    (fun t n b => finishAtOnce t ctx n b .notPerformed) s)

/-! ## The mirror's events (R136) -/

/-- A mirrored change is written. -/
def mirrorWrite (c : Nat) (s : State) : State :=
  let x := ctx s c
  if x.mirrorDue.isSome ∧ mirrored x ∧ !x.halting then issueMirror s c else s

def execMirrorWrite (ctx : Fin 4096) (s : State) : Host.Outcome State Fault Refusal :=
  .next (mirrorWrite ctx s)

/-- R108: enter HALTED: the generation rises and thresholds disarm. -/
def enterHalted (s : State) (c : Nat) : State :=
  updCtx s c fun x =>
    { x with state := .halted, gen := x.gen + 1, arms := [], halting := false, mirrorDue := none }

/-- The mirror write that waits is issued; with none left a finished disable sequence ends in HALTED. [log 53, DESIGN CHOICE] -/
def nextMirror (s : State) (c : Nat) : State :=
  let x := ctx s c
  let s1 := setCtx s c { x with mirrorOut := none }
  if x.mirrorNext then issueMirror s1 c
  else if x.halting then enterHalted s1 c else s1

/-- Memory accepts the outstanding mirror write: the interrupts it carried the values of are sent. -/
def mirrorAccepted (c : Nat) (s : State) : State :=
  match (ctx s c).mirrorOut with
  | some w => nextMirror (interrupts s c w.2) c
  | none => s

def execMirrorWriteAccepted (ctx : Fin 4096) (s : State) : Host.Outcome State Fault Refusal :=
  .next (mirrorAccepted ctx s)

/-- The package fabric answers a mirror write with an error: abandoned at once and reported; the
interrupts that waited for it wait for the next write. [log 53, DESIGN CHOICE] -/
def mirrorError (c : Nat) (s : State) : State :=
  match (ctx s c).mirrorOut with
  | some w =>
    let s1 := updCtx s c fun x => { x with fired := w.2 ++ x.fired }
    nextMirror (reportCtx s1 3 (engineOf c) 3 0 .ok c) c
  | none => s

def execMirrorWriteError (ctx : Fin 4096) (s : State) : Host.Outcome State Fault Refusal :=
  .next (mirrorError ctx s)

/-! ## Enable and release (R106) -/

/-- The context that 0x4000 entries act on for the writer. -/
def selectedCtx (s : State) (w : WriteHdr) : Nat := selected s (ownerOf w.path) 0x4000 1

/-- R106: enable an OFF context whose partition table entry is valid. -/
def applyEnable (c : Nat) (s : State) : Verdict :=
  let x := ctx s c
  require (x.state == .off && partValid s x.partEnt)
    (let y := { x with state := .enabled, counters := [], accept := 0, failed := 0, first := none,
                       arms := [], fired := [], slots := [], cmds := [], lastCmd := 0, mirrorDue := none,
                       mirrorOut := none, mirrorNext := false, halting := false }
     ok (issueMirror (setCtx s c y) c))

/-- R106: release a HALTED context; in OFF it does nothing, elsewhere it is refused. -/
def applyRelease (c : Nat) (s : State) : Verdict :=
  let x := ctx s c
  if x.state = .off then ok s
  else require (x.state == .halted) (ok (setCtx s c { x with state := .off }))

def execContextEnable (w : WriteHdr) (s : State) : Host.Outcome State Fault Refusal :=
  .next (dictWrite w 0x4000 3 [1] (fun t => applyEnable (selectedCtx t w) t) s)

def execContextRelease (w : WriteHdr) (s : State) : Host.Outcome State Fault Refusal :=
  .next (dictWrite w 0x4000 3 [3] (fun t => applyRelease (selectedCtx t w) t) s)

end Sys2Proof.Machine
end

