-- ==== Sys2Proof/Machine/Requester.lean ====
section
/-! DEFINITION. The requester side (chapter 03): tracking blocks and entries, strict streams, the messages
of a command, the completion of an operation to its thread, command or borrower, the cutting of
commands into pieces (R119), and the issue of a held operation under the checks of R79. -/

namespace Sys2Proof.Machine

/-! ## Tracking blocks (R80 to R82) -/

/-- A block that is not listed: free, in its first round. -/
def freshBlock : Block :=
  { owner := none, gen := 0, used := 0, closed := false, round := 0, last := 0, stale := false, hold := none }

def block (s : State) (b : Nat) : Block := tgetD s.blocks b freshBlock
def setBlock (s : State) (b : Nat) (x : Block) : State := { s with blocks := tput s.blocks b x }

/-- Whether a block lies in the free pool. -/
def blockFree (x : Block) : Bool := x.owner.isNone && x.hold.isNone

/-- 0x4500.02. -/
def freeBlocks (s : State) : Nat := 1024 - (s.blocks.filter fun x => !blockFree x.2).length

/-- The blocks a context holds (R81). -/
def blocksOf (s : State) (c : Nat) : Nat := (s.blocks.filter fun x => x.2.owner == some c).length

/-- The block a context fills. -/
def openBlock (s : State) (c : Nat) : Option Nat :=
  (s.blocks.find? fun x => x.2.owner == some c && !x.2.closed).map (·.1)

/-- The lowest-numbered free block. -/
def freeBlock (s : State) : Option Nat := (List.range 1024).find? fun b => blockFree (block s b)

/-- The block that takes the next operation of a context: the open one, or a new one within its limit. -/
def nextBlock (s : State) (c : Nat) : Option Nat :=
  match openBlock s c with
  | some b => some b
  | none => if blocksOf s c < reg s 0x4500 1 then freeBlock s else none

/-- Take an entry of a block: its tag, and the block with the entry used. -/
def takeEntry (s : State) (c b : Nat) : Nat × State :=
  let x := block s b
  (b * 64 + x.used, setBlock s b
    { x with owner := some c, gen := (ctx s c).gen, used := x.used + 1, closed := decide (63 ≤ x.used),
             last := s.clock })

/-- Whether an entry of a block is open. -/
def blockBusy (s : State) (b : Nat) : Bool := s.tracks.any fun t => t.1 / 64 == b

/-- The block back in the free pool, in its next round. -/
def pooled (x : Block) : Block := { freshBlock with round := (x.round + 1) % 64 }

/-- R80, R82: a closed block whose entries have all completed returns to the free pool, or is held for
10 ms first. -/
def releaseBlock (s : State) (b : Nat) : State :=
  let x := block s b
  if x.closed ∧ x.owner.isSome ∧ !blockBusy s b then
    setBlock s b (if x.stale then { x with owner := none, hold := some s.clock } else pooled x)
  else s

/-! ## Streams, credits and the end of an operation's tracking -/

/-- The number of a strict stream: context and target node (R87). -/
def streamNo (c : Nat) (n : NodeId) : Nat := c * 65536 + n.toNat

/-- The number of a sender credit entry: destination node and context (R139). -/
def senderNo (n : NodeId) (nctx : Nat) : Nat := n.toNat * 4096 + nctx

/-- R138: a STORE with NOTIFY = 1 costs its payload's units. -/
def credited (op : Op) : Bool := op.kind == .store && op.notify.isSome
def opUnits (op : Op) : Nat := ceilDiv op.len 64

/-- R90, R92: a strict operation leaves its stream; a synthetic completion holds the stream until every
operation still open completes. 0x4510.02 counts a hold when other operations of the stream are open, also one
that comes while the stream is held already. [log 13, DEDUCED] -/
def leaveStream (s : State) (op : Op) (tag : Nat) (syn : Bool) : State :=
  if !op.strict then s
  else
    let k := streamNo op.ctx op.side.node
    match tget s.streams k with
    | none => s
    | some x =>
      let rest := x.open_.filter (· != tag)
      let y := { x with open_ := rest, hold := if syn then rest else x.hold.filter (· != tag) }
      let s1 := if syn ∧ rest ≠ [] then bump s 0x4510 2 else s
      { s1 with streams := if rest = [] then tdel s.streams k else tput s.streams k y }

/-- R143: a sender entry notes the end of an operation that spent credit. -/
def leaveSender (s : State) (t : Track) : State :=
  match t.paid, t.op.notify with
  | true, some n =>
    let k := senderNo t.op.side.node n.nctx
    match tget s.senders k with
    | some x => { s with senders := tput s.senders k { x with open_ := x.open_ - 1, last := s.clock } }
    | none => s
  | _, _ => s

/-- R82: close a tracking entry. `stale` keeps its block out of the pool for 10 ms. [log 13, DEDUCED] -/
def closeOut (s : State) (tag : Nat) (t : Track) (stale syn : Bool) : State :=
  let b := tag / 64
  let s1 := leaveSender (leaveStream { s with tracks := tdel s.tracks tag } t.op tag syn) t
  let s2 := if stale then setBlock s1 b { block s1 b with stale := true } else s1
  releaseBlock s2 b

/-! ## Completion to a thread (R83, R84, R100) -/

/-- R66: the operation code of an operation. -/
def opCode : OpKind → Nat
  | .load => opLoad | .store => opStore | .atomicFetch => opAtomicFetch | .atomicPost => opAtomicPost
  | .notify => opNotify

/-- The bytes a thread gets back: zeros with a status other than OK or POISONED (R83). -/
def delivered (op : Op) (st : Status) (data : Bytes) : Bytes :=
  if st = .ok ∨ st = .poisoned then data else zeros op.len

/-- R84: count a failed aperture operation, keep the first, and report it. [log 50, DEDUCED] -/
def apertureFailure (s : State) (op : Op) (thread : BitVec 16) (addr : BitVec 64) (st : Status) : State :=
  let rec24 := leBytes 8 addr.toNat ++ leBytes 2 thread.toNat ++ leBytes 1 (opCode op.kind) ++
    leBytes 1 st.code ++ zeros 4 ++ leBytes 8 (stamp s)
  let s1 := updCtx s op.ctx fun x =>
    { x with apFails := (x.apFails + 1) % 2 ^ 64, apFirst := some (x.apFirst.getD rec24) }
  reportCtx s1 3 (engineOf op.ctx) 1 addr.toNat st op.ctx

/-- R83: report an aperture operation's end on the host port. -/
def apertureDone (s : State) (op : Op) (thread : BitVec 16) (addr : BitVec 64) (st : Status) (data : Bytes)
    (poison : BitVec 8) : State :=
  let s1 :=
    if op.kind = .load ∨ op.kind = .atomicFetch then
      emit s (.loadDone thread st (delivered op st data) (if st = .poisoned then poison else 0))
    else emit s (.storeDone thread st)
  if st = .ok then s1 else apertureFailure s1 op thread addr st

/-! ## Completion to a command (R93, R95, R122, R132, R133) -/

/-- R133: how far a status stands before the others. -/
def statusRank : Status → Nat
  | .ok => 0 | .slotBusy => 0 | .cancelled => 1 | .notPerformed => 2 | .targetAbsent => 3 | .oversize => 4
  | .noWindow => 5 | .denied => 6 | .poisoned => 7 | .retired => 8 | .outcomeUnknown => 9

/-- The status of two that R133 names first. -/
def worse (a b : Status) : Status := if statusRank a < statusRank b then b else a

/-- R119: the message size, and the number of the message that holds a stream position. -/
def messageBytes : Nat := 2097152
def messageOf (pos : Nat) : Nat := pos / messageBytes

/-- The MSGID of a message in progress. -/
def msgIdOf (s : State) (c num part : Nat) : Option Nat :=
  (s.msgOut.find? fun x => x.2.ctx == c && x.2.cmd == num && x.2.part == part).map (·.1)

/-- Whether the pieces of a command belong to relaxed messages with notification. -/
def countsMessages (b : BitVec 512) : Bool := cmdNtf b && !cmdOrd b

/-- R95: the NOTIFY of a message. -/
def notifyOp (s : State) (c : Nat) (m : Cmd) (key : BitVec 16) (sinc : BitVec 8) (id part : Nat) : Op :=
  { id := s.nextId, ctx := c, origin := .command m.num false, kind := .notify, strict := false,
    side := m.dst, key := key, sinc := sinc, window := 0, offset := 0, len := 0, data := [], poison := 0,
    args := { afn := 0, opa := 0, opb := 0 },
    notify := some { nctx := cmdNctx m.bytes, nctr := cmdNctr m.bytes, msgid := id,
                     msglen := min messageBytes (m.total - part * messageBytes) - 1, last := false },
    pos := part * messageBytes, dest := none, held := s.clock, probed := s.clock, counted := false,
    room := none, drained := false }

def holdOp (s : State) (op : Op) : State := { s with held := s.held ++ [op], nextId := s.nextId + 1 }

/-- A packet of a message ended: with the last one the message is over, or its NOTIFY is due. -/
def messageEnd (s : State) (op : Op) (m : Cmd) (st : Status) (unc : Bool) : State :=
  match msgIdOf s op.ctx m.num (messageOf op.pos) with
  | none => s
  | some id =>
    match tget s.msgOut id with
    | none => s
    | some x =>
      let y := { x with left := x.left - op.len, unc := x.unc || unc, bad := x.bad || st != .ok }
      if y.left ≠ 0 then { s with msgOut := tput s.msgOut id y }
      else if y.unc ∧ !y.bad then
        let s1 := holdOp { s with msgOut := tput s.msgOut id { y with told := true } }
          (notifyOp s op.ctx m op.key op.sinc id y.part)
        putCmd s1 op.ctx { m with open_ := m.open_ + 1 }
      else { s with msgOut := tdel s.msgOut id }

/-- Free every MSGID of a command. -/
def dropMessages (s : State) (c num : Nat) : State :=
  { s with msgOut := s.msgOut.filter fun x => !(x.2.ctx == c && x.2.cmd == num) }

/-- R132, R133: a command whose pieces have all been cut and ended completes. -/
def settleCmd (s : State) (c num : Nat) : State :=
  match cmdOf s c num with
  | some m =>
    if m.phase = .issuing ∧ m.open_ = 0 ∧ m.total ≤ m.pos then
      completeCmd (dropMessages s c num) c m m.status
    else s
  | none => s

/-- An operation of a command ends for good. -/
def pieceEnd (s : State) (op : Op) (num : Nat) (st : Status) (unc : Bool) : State :=
  match cmdOf s op.ctx num with
  | none => s
  | some m0 =>
    let m := { m0 with open_ := m0.open_ - 1, status := worse m0.status st }
    let s1 := putCmd s op.ctx m
    let s2 :=
      if op.kind = .notify then
        match op.notify with
        | some n => { s1 with msgOut := tdel s1.msgOut n.msgid }
        | none => s1
      else if countsMessages m.bytes then messageEnd s1 op m st unc
      else s1
    settleCmd s2 op.ctx num

/-- R93, R98: the notification fields of a STORE at a stream position of a command; the MSGID of a relaxed
message is filled in at issue. -/
def notifyOf (b : BitVec 512) (pos len total : Nat) : Option Notify :=
  if !cmdNtf b then none
  else
    let last := (messageOf pos + 1) * messageBytes
    let size := min messageBytes (total - messageOf pos * messageBytes)
    if cmdOrd b then
      some { nctx := cmdNctx b, nctr := cmdNctr b, msgid := 0, msglen := 0,
             last := decide (pos + len = min last total) }
    else some { nctx := cmdNctx b, nctr := cmdNctr b, msgid := 0, msglen := size - 1, last := false }

/-- R122: the STORE that follows a LOAD of a copy; a context that is no longer ENABLED sends it no more, and the piece ends
CANCELLED (R104, R144 step 4). Between the two the data stays with the held operation and is charged to no
account of the central store: the spec names none. [log 11, DEDUCED] -/
def feedStore (s : State) (op : Op) (num : Nat) (st : Status) (data : Bytes) (poison : BitVec 8) : State :=
  match cmdOf s op.ctx num, op.dest with
  | some m, some d =>
    let s1 := putCmd s op.ctx { m with status := worse m.status st }
    if (ctx s op.ctx).state ≠ .enabled then pieceEnd s1 op num .cancelled false
    else holdOp s1 { op with
      id := s1.nextId, origin := .command num false, kind := .store, side := d.1, window := d.2.1,
      offset := d.2.2, data := data, poison := if st = .poisoned then poison else 0,
      notify := notifyOf m.bytes op.pos op.len m.total, dest := none, held := s1.clock,
      probed := s1.clock, counted := false, room := none }
  | _, _ => s

/-- An operation ends with a status at the thread or the command that asked for it. -/
def finishOp (s : State) (op : Op) (st : Status) (data : Bytes) (poison : BitVec 8) (unc : Bool) : State :=
  if cutOff s then s
  else match op.origin with
  | .aperture _ thread addr => apertureDone s op thread addr st data poison
  | .command num feeds =>
    if feeds ∧ (st = .ok ∨ st = .poisoned) then feedStore s op num st data poison
    else pieceEnd s op num st unc
  | .lender .. => s

/-- The entry open under a tag, round and generation (R82). -/
def openUnder (s : State) (tag round : Nat) (gen : BitVec 8) : Option Track :=
  (tget s.tracks tag).filter fun t => t.round == round && t.gen == gen

/-- R49, R82: an operation ends at whoever asked for it; one re-issued to a lender ends the operation it was issued
for, in whose tracking entry `stale` and `syn` are as in `closeOut`. -/
def endOp (s : State) (op : Op) (st : Status) (data : Bytes) (poison : BitVec 8) (unc stale syn : Bool) : State :=
  match op.origin with
  | .lender tag round gen =>
    match if cutOff s then none else openUnder s tag round gen with
    | some t => finishOp (closeOut s tag t stale syn) t.op st data poison unc
    | none => s
  | _ => finishOp s op st data poison unc

/-- R82: the operation under a tracking tag completes. -/
def completeTag (s : State) (tag : Nat) (st : Status) (data : Bytes) (poison : BitVec 8)
    (unc stale syn : Bool) : State :=
  match if cutOff s then none else tget s.tracks tag with
  | none => s
  | some t => endOp (closeOut s tag t stale syn) t.op st data poison unc stale syn

/-! ## Cutting a command into pieces (R48, R119 to R125) -/

/-- The total length of a command. -/
def cmdTotal (b : BitVec 512) : Nat :=
  if cmdType b = 3 then cmdB b 32 4 * (cmdB b 36 2 + 1) * (cmdB b 38 2 + 1) else fld b.toNat 256 37

/-- Where a stream position of a command lies: windows, offsets, and the bytes left in its row. -/
structure Spot where
  swin : Nat
  dwin : Nat
  src  : Nat
  dst  : Nat
  left : Nat

def spotOf (b : BitVec 512) (pos total : Nat) : Spot :=
  let off (n : Nat) := fld b.toNat (8 * n) 36
  if cmdType b = 2 then
    { swin := 0, dwin := cmdB b 11 1, src := off 24 + pos, dst := off 24 + pos, left := total - pos }
  else if cmdType b = 3 then
    let len := cmdB b 32 4
    let n1 := cmdB b 36 2 + 1
    let i1 := pos / len % n1
    let i2 := pos / len / n1
    { swin := cmdB b 10 1, dwin := cmdB b 11 1,
      src := off 16 + i1 * off 40 + i2 * off 46 + pos % len,
      dst := off 24 + i1 * off 52 + i2 * off 58 + pos % len, left := len - pos % len }
  else if cmdType b = 4 then
    { swin := cmdB b 8 1, dwin := cmdB b 9 1, src := off 16 + pos, dst := off 24 + pos, left := total - pos }
  else
    { swin := cmdB b 10 1, dwin := cmdB b 11 1, src := off 16 + pos, dst := off 24 + pos,
      left := total - pos }

/-- R119: the length of the piece at a stream position. -/
def pieceLen (pos : Nat) (x : Spot) : Nat :=
  let bound := min (min x.left (messageBytes - pos % messageBytes))
    (min (messageBytes - x.src % messageBytes) (messageBytes - x.dst % messageBytes))
  let lead := (64 - x.dst % 64) % 64
  if lead ≠ 0 then min lead bound
  else if 64 ≤ bound then min 512 (bound / 64 * 64) else bound

/-- R123: the bytes of a fill from a destination offset. -/
def fillBytes (pattern off : Nat) (len : Nat) : Bytes :=
  (List.range len).map fun j => BitVec.ofNat 8 (fld pattern (8 * ((off + j) % 8)) 8)

/-- The key a context's requests are stamped with (R34). -/
def ctxKey (s : State) (c : Nat) : BitVec 16 := BitVec.ofNat 16 (partKey s (ctx s c).partEnt)

/-- The piece at the position of a command: a STORE of the pattern, or the LOAD of a copy. [log 42, DEDUCED] -/
def pieceOf (s : State) (c : Nat) (m : Cmd) : Op :=
  let b := m.bytes
  let x := spotOf b m.pos m.total
  let len := pieceLen m.pos x
  let fill := cmdType b = 2
  { id := s.nextId, ctx := c, origin := .command m.num (!fill), kind := if fill then .store else .load,
    strict := cmdOrd b, side := if fill then m.dst else m.src, key := m.key, sinc := m.sinc,
    window := if fill then x.dwin else x.swin, offset := x.src, len := len,
    data := if fill then fillBytes (cmdB b 16 8) x.dst len else [], poison := 0,
    args := { afn := 0, opa := 0, opb := 0 }, notify := if fill then notifyOf b m.pos len m.total else none,
    pos := m.pos, dest := if fill then none else some (m.dst, x.dwin, x.dst), held := s.clock,
    probed := s.clock, counted := false, room := none, drained := false }

/-- Cut the next piece of a command and hold it for issue. [log 11, DEDUCED; log 42, DEDUCED] -/
def cutNext (s : State) (c num : Nat) : State :=
  match cmdOf s c num with
  | some m =>
    if m.phase = .issuing ∧ m.pos < m.total then
      let op := pieceOf s c m
      holdOp (putCmd s c { m with pos := m.pos + op.len, open_ := m.open_ + 1 }) op
    else s
  | none => s

/-- Whether an operation is a piece as it was cut: a copy's LOAD, or a fill's STORE. -/
def isCut (s : State) (op : Op) : Option Nat :=
  match op.origin with
  | .command num feeds =>
    if feeds then some num
    else match cmdOf s op.ctx num with
      | some m => if cmdType m.bytes = 2 ∧ op.kind = .store then some num else none
      | none => none
  | _ => none

/-! ## Issue (R79) -/

def heldOp (s : State) (id : Nat) : Option Op := s.held.find? fun o => o.id == id
def unhold (s : State) (id : Nat) : State := { s with held := s.held.filter fun o => o.id != id }
def putHeld (s : State) (op : Op) : State :=
  { s with held := s.held.map fun o => if o.id == op.id then op else o }

/-- R127: an unmet FENCE accepted before the operation's command. -/
def fenced (s : State) (op : Op) : Bool :=
  match op.origin with
  | .command num _ => (ctx s op.ctx).cmds.any fun m => m.phase == .fencing && decide (m.num < num)
  | _ => false

/-- The stream of a strict operation. -/
def streamOf (s : State) (op : Op) : Option Stream := tget s.streams (streamNo op.ctx op.side.node)

/-- R92: the stream stands under a hold. -/
def streamHeld (s : State) (op : Op) : Bool :=
  op.strict && (match streamOf s op with
    | some x => x.hold != []
    | none => false)

/-- R90, R91: a strict operation must wait: no stream entry is free, or operations of its stream are
outstanding under the old epoch. -/
def streamWaits (s : State) (op : Op) : Bool :=
  op.strict && (match streamOf s op with
    | some x => x.open_.any fun t => match tget s.tracks t with
        | some k => k.epoch != s.tables.epochNr
        | none => false
    | none => decide (16384 ≤ s.streams.length))

/-- R91: an operation waits for its stream alone. [log 11, DEDUCED] -/
def streamOnly (s : State) (op : Op) : Bool := op.strict && (streamOf s op).isSome && streamWaits s op

/-- Whether a held aperture request keeps a later one of its context waiting: one held for want of a tracking
block or a stream entry holds its context (R81, R90), one that waits under R91 its stream (R89), and one that waits
for room its channel (R219). [log 11, DEDUCED] -/
def holdsBack (s : State) (o op : Op) : Bool :=
  o.ctx == op.ctx && (match o.origin, op.origin with
    | .aperture c _ _, .aperture d _ _ =>
      if o.counted then c == d
      else !streamOnly s o || (op.strict && o.side.node == op.side.node)
    | _, _ => false)

/-- R81, R90, R91, R219: an earlier aperture request holds this one back; R87: an earlier piece of the same strict
command has not been stored yet. [log 11, DEDUCED] -/
def behind (s : State) (op : Op) : Bool :=
  match op.origin with
  | .aperture .. => (s.held.takeWhile fun o => o.id != op.id).any fun o => holdsBack s o op
  | .command num _ =>
    let before (o : Op) := o.ctx == op.ctx && decide (o.pos < op.pos) && (match o.origin with
      | .command n f => n == num && (f || o.kind == .store)
      | _ => false)
    op.strict && op.kind == .store &&
      (s.held.any before || (s.tracks.any fun t => t.2.op.kind == .load && before t.2.op))
  | .lender .. => false

/-- The message an operation's command counts, when it needs a MSGID (R97). -/
def messageNeeded (s : State) (op : Op) : Option (Cmd × Nat) :=
  match op.origin with
  | .command num _ =>
    match cmdOf s op.ctx num with
    | some m => if countsMessages m.bytes ∧ op.kind ≠ .notify then some (m, messageOf op.pos) else none
    | none => none
  | _ => none

/-- R97: take a MSGID for the operation's message; none when all 1,024 are in use. -/
def withMessage (s : State) (op : Op) : Option (State × Op) :=
  match messageNeeded s op with
  | none => some (s, op)
  | some (m, part) =>
    let fill (id : Nat) : Op := { op with notify := op.notify.map fun n => { n with msgid := id } }
    match msgIdOf s op.ctx m.num part with
    | some id => some (s, fill id)
    | none =>
      match (List.range 1024).find? fun i => (tget s.msgOut i).isNone with
      | none => none
      | some id =>
        let x : MsgOut := { ctx := op.ctx, cmd := m.num, part := part,
                            left := min messageBytes (m.total - part * messageBytes), unc := false,
                            bad := false, told := false }
        some ({ s with msgOut := tput s.msgOut id x }, fill id)

/-- R139, R294: whether credit covers an operation; S, L and comparisons are taken modulo 2^32. -/
def senderOf (s : State) (op : Op) : Option Sender :=
  match op.notify with
  | some n => tget s.senders (senderNo op.side.node n.nctx)
  | none => none

/-- R139: a sender credit entry as it is made. [log 12, DEDUCED] -/
def freshSender (s : State) : Sender :=
  { sent := 0, limit := reg s 0x4100 1, gen := none, open_ := 0, last := s.clock }

def creditOk (s : State) (op : Op) : Bool :=
  !credited op || (match senderOf s op with
    | some x => decide ((x.limit + 2 ^ 32 - (x.sent + opUnits op) % 2 ^ 32) % 2 ^ 32 < 2 ^ 31)
    | none => decide (s.senders.length < 16384) && decide (opUnits op ≤ reg s 0x4100 1))

/-- R139: spend credit for an issued operation. -/
def spend (s : State) (op : Op) : State :=
  match credited op, op.notify with
  | true, some n =>
    let x := (senderOf s op).getD (freshSender s)
    { s with senders := tput s.senders (senderNo op.side.node n.nctx)
               { x with sent := (x.sent + opUnits op) % 2 ^ 32, open_ := x.open_ + 1, last := s.clock } }
  | _, _ => s

/-- R269, R74: the payload of a request: stored bytes at their positions in 64-byte units, or the operand
block. -/
def requestPayload (op : Op) : Bytes :=
  match op.kind with
  | .store => padTo (64 * ceilDiv (op.offset % 64 + op.len) 64) (zeros (op.offset % 64) ++ op.data)
  | .atomicFetch | .atomicPost => atomicBlock op.len op.args
  | _ => []

/-- R68, R269: the request header of an operation; a looped-back one is not stamped (R58). Its bank is the one ACTIVE when
the operation is issued, also where it was routed before a flip and has waited for egress room since: R259 does not say
which bank such a request takes. [log 54, DESIGN CHOICE] -/
def requestHeader (s : State) (op : Op) (tag round : Nat) : BitVec 256 :=
  let n := op.notify.getD { nctx := 0, nctr := 0, msgid := 0, msglen := 0, last := false }
  let msg := op.kind == .notify
  let inc (i : BitVec 8) : BitVec 8 := if op.side.loop then 0 else i
  BitVec.ofNat 256 (pack (commonFields (opCode op.kind) (if op.strict then 3 else 0) (activeBank s)
      (bit op.strict) 0 (inc op.side.inc) (inc op.sinc) op.side.node (ownNode s) op.key.toNat ++
    [(13, 2, instId s), (15, 1, bit (op.notify.isSome && !msg)), (88, 16, tag), (104, 6, round),
     (110, 8, op.window), (118, 36, op.offset), (154, 10, op.len), 
     (164, 8, op.poison.toNat % 2 ^ ceilDiv (requestPayload op).length 64),
     (172, 12, n.nctx), (184, 6, n.nctr), (190, 10, n.msgid), (200, 21, n.msglen), (221, 1, bit n.last)]))

/-- R80, R87: the tracking entry and stream of an issued operation. -/
def track (s : State) (op : Op) (tag : Nat) (sent paid : Bool) : State :=
  let b := block s (tag / 64)
  let t : Track := { op := op, round := b.round, gen := b.gen, sent := sent, paid := paid,
                     at_ := stamp s, epoch := s.tables.epochNr }
  let s1 := { s with tracks := tput s.tracks tag t }
  if op.strict then
    let k := streamNo op.ctx op.side.node
    let x := (tget s.streams k).getD { ctx := op.ctx, node := op.side.node, open_ := [], hold := [] }
    { s1 with streams := tput s1.streams k { x with open_ := x.open_ ++ [tag] } }
  else s1

/-- R376: an operation was issued by its context engine. -/
def issued (s : State) (op : Op) : State := bumpAt s 0x7400 5 (engineOf op.ctx)

/-- What the checks after tracking say (R79, R219). -/
inductive Gate where
  | send (port vc : Nat)
  | loop
  | fails (st : Status)
  | wait
  deriving DecidableEq, Repr

/-- R41, R60, R79 checks 5 to 7, R219: where an operation may go. -/
def gate (s : State) (op : Op) (h : BitVec 256) (cells : Nat) : Gate :=
  if s.tables.retiredSelf then .fails .retired
  else if op.side.loop then (if loopRoom s h (requestPayload op).length then .loop else .wait)
  else if !stampsCurrent s h then .fails .retired
  else
    match nextHop s h cells none (op.room.any fun t => passed s t (nsMt (reg s 0x3900 2))) with
    | .go p vc _ => if keyStanding s p op.key.toNat = 1 then .send p vc else .fails .denied
    | .wait => .wait
    | .noRoute | .level => .fails .targetAbsent

/-- R219, R139: count a hold once: of the host port, or for want of credit. R295: the probe time runs from it. -/
def countHold (s : State) (op : Op) (index sub : Nat) : State :=
  if op.counted then s else putHeld (bump s index sub) { op with counted := true, probed := s.clock }

/-- R219, R244: an operation waits for want of room, from now on; a host port hold when an aperture request does. -/
def waitRoom (s : State) (op : Op) : State :=
  let op1 := { op with room := some (op.room.getD s.clock) }
  let s1 := putHeld s op1
  match op.origin with
  | .aperture .. => countHold s1 op1 0x4620 6
  | _ => s1

/-- R59: a request that fails the check of stamps is counted at the port that routing chooses for it; without one no
port counts. [log 12, DEDUCED] -/
def countRetired (s : State) (op : Op) (h : BitVec 256) : State :=
  if s.tables.retiredSelf ∨ op.side.loop ∨ stampsCurrent s h then s
  else match nextHop s h 0 none false with
    | .go p _ _ => bump s 0x3510 (p + 1)
    | _ => s

/-- Take an operation from the held ones; the piece after it is cut. -/
def release (s : State) (op : Op) : State :=
  let s1 := unhold s op.id
  match isCut s op with
  | some num => cutNext s1 op.ctx num
  | none => s1

/-- The request packet of an operation, charged to an account. -/
def sendRequest (s : State) (op : Op) (tag : Nat) (h : BitVec 256) (a : Account) : State :=
  addPkt s { newPkt s h (requestPayload op) a none with own := some tag }

/-- R104: an operation under a tag counts as transmitted. -/
def sentTag (s : State) (tag : Nat) : State :=
  match tget s.tracks tag with
  | some t => { s with tracks := tput s.tracks tag { t with sent := true } }
  | none => s

/-- R219, R342: a request goes to the egress share of its port, or over the cascade bus to a stripe of another inst. -/
def sendRequestOn (s : State) (op : Op) (tag : Nat) (h : BitVec 256) (p vc : Nat) : State :=
  match placeOn s p vc (hDet h) (footprint (requestPayload op).length) with
  | some (.far i q) => emit (sentTag s tag) (.cascadePacket i (some q) h (requestPayload op))
  | some (.here q) => sendRequest s op tag h (.egress q vc)
  | none => sendRequest s op tag h (.egress p vc)

/-- R79 checks 5 to 7 and the charge of R219, a tracking block given. -/
def issueOn (s : State) (op : Op) (b : Nat) : State :=
  let e := takeEntry s op.ctx b
  let h := requestHeader s op e.1 (block s b).round
  let cells := footprint (requestPayload op).length
  match gate s op h cells with
  | .wait => waitRoom s op
  | .fails st =>
    completeTag (track (release (countRetired e.2 op h) op) op e.1 false false) e.1 st [] 0 false (st == .retired)
      false
  | .loop => sendRequest (track (spend (issued (release e.2 op) op) op) op e.1 true (credited op)) op e.1 h .loopBack
  | .send p vc =>
    let h1 := hset h 8 3 vc
    let moved := vc = 4 ∨ (vc = 3 ∧ !op.strict)
    let s1 := track (spend (issued (release e.2 op) op) op) op e.1 false (credited op)
    sendRequestOn (if moved then bump s1 0x3900 5 else s1) op e.1 h1 p vc

/-- R104, R144: an operation that has not been transmitted is cancelled; one re-issued to a lender cancels the
operation it was issued for. [log 13, DEDUCED] -/
def cancelHeld (s : State) (op : Op) : State := endOp (unhold s op.id) op .cancelled [] 0 false true false

/-! ### The turns of contexts and commands (R113) -/

/-- Whether an operation is a re-issue to a lender (R49). -/
def isLent (op : Op) : Bool :=
  match op.origin with
  | .lender .. => true
  | _ => false

/-- R33, R104: whether the context of an operation still sends it: an ENABLED one, and a DRAINING one what it
re-issues for an operation that counts as transmitted. -/
def mayIssue (s : State) (op : Op) : Bool :=
  (ctx s op.ctx).state == .enabled || ((ctx s op.ctx).state == .draining && isLent op)

/-- Whether the gate of an operation with its credit and message at hand lets it go on one block. -/
def passesGate (s : State) (op : Op) (b : Nat) : Bool :=
  gate s op (requestHeader s op (takeEntry s op.ctx b).1 (block s b).round)
    (footprint (requestPayload op).length) != .wait

/-- Whether an operation can be taken from its command now: nothing that R79 to R139 hold it for stands in its
way. -/
def ready (s : State) (op : Op) : Bool :=
  mayIssue s op && !fenced s op && !behind s op &&
    (streamHeld s op || (!streamWaits s op && (match withMessage s op with
      | none => false
      | some (s1, op1) => creditOk s1 op1 && (match nextBlock s1 op.ctx with
        | none => false
        | some b => passesGate s1 op1 b))))

/-- The command that an operation belongs to. -/
def commandOf (op : Op) : Option Nat :=
  match op.origin with
  | .command num _ => some num
  | _ => none

/-- R113: how far an operation's context and command stand behind those that its engine and its context took from
last. -/
def turnOf (s : State) (op : Op) (num : Nat) : Nat :=
  let c := (op.ctx + 4096 - 1 - tgetD s.turns (engineOf op.ctx) 4095 % 4096) % 4096
  let k := (num + 2 ^ 64 - 1 - (ctx s op.ctx).lastCmd) % 2 ^ 64
  c * 2 ^ 64 + k

/-- R113: no operation of a command that is ready in the same engine comes before this one in turn; one that can not be
taken now gives up its turn. Aperture requests and re-issues to a lender belong to no command. [log 11, DEDUCED] -/
def itsTurn (s : State) (op : Op) : Bool :=
  match commandOf op with
  | none => true
  | some num =>
    s.held.all fun o => match commandOf o with
      | none => true
      | some n => engineOf o.ctx != engineOf op.ctx || decide (turnOf s op num ≤ turnOf s o n) || !ready s o

/-- R113: an engine took an operation. -/
def taken (s : State) (op : Op) : State :=
  match commandOf op with
  | none => s
  | some num =>
    updCtx { s with turns := tput s.turns (engineOf op.ctx) op.ctx } op.ctx fun x => { x with lastCmd := num }

/-- R79 check 4 with the holds of R81, R90, R91, R92, R97, R127 and R139, in the turn of R113. [log 7, DESIGN CHOICE] -/
def operationIssue (id : Nat) (s : State) : State :=
  match heldOp s id with
  | none => s
  | some op0 =>
    if s.phase ≠ .running then s
    else if !mayIssue s op0 then cancelHeld s op0
    else if fenced s op0 ∨ behind s op0 then s
    else if ready s op0 ∧ !itsTurn s op0 then s
    else if streamHeld s op0 then endOp (release (taken s op0) op0) op0 .notPerformed [] 0 false false false
    else if streamWaits s op0 then s
    else
      match withMessage s op0 with
      | none => s
      | some (s1, op) =>
        if !creditOk s1 op then countHold s op0 0x4100 7
        else
          match nextBlock s1 op.ctx with
          | none => s
          | some b => issueOn (if passesGate s1 op b then taken s1 op else s1) op b

def execOperationIssue (op : Nat) (s : State) : Host.Outcome State Fault Refusal :=
  .next (operationIssue op s)

/-- R80: a block whose context has issued nothing for 256 ns closes. -/
def trackingBlockClose (b : Nat) (s : State) : State :=
  let x := block s b
  if x.owner.isSome ∧ !x.closed ∧ passed s x.last (nsMt 256) then
    releaseBlock (setBlock s b { x with closed := true }) b
  else s

def execTrackingBlockClose (block : Fin 1024) (s : State) : Host.Outcome State Fault Refusal :=
  .next (trackingBlockClose block s)

/-- R82, R384: the 10 ms hold of a block ends; that of a block held over an inst reset begins when the reset
completes. -/
def trackingHoldExpiry (b : Nat) (s : State) : State :=
  let x := block s b
  match x.hold with
  | some t => if passed s t (msMt 10) ∧ !(instReset s && !x.stale) then setBlock s b (pooled x) else s
  | none => s

def execTrackingHoldExpiry (block : Fin 1024) (s : State) : Host.Outcome State Fault Refusal :=
  .next (trackingHoldExpiry block s)

/-! ## Aperture requests (R31 to R33, R71, R72, R490) -/

/-- The fields of an aperture address (R31). -/
def apTag (a : BitVec 64) : Nat := fld a.toNat 60 4
def apRank (a : BitVec 64) : Nat := fld a.toNat 44 16
def apWindow (a : BitVec 64) : Nat := fld a.toNat 36 8
def apOffset (a : BitVec 64) : Nat := fld a.toNat 0 36

/-- R71: the shape of an aperture access, and of an atomic (R70). -/
def apertureShapeOk (addr : BitVec 64) (len : Nat) (atomic : Bool) : Bool :=
  if atomic then atomicShapeOk (apOffset addr) len
  else [1, 2, 4, 8, 16, 32, 64, 128, 256].contains len && addr.toNat % len == 0

/-- R41: the side a node id names. -/
def sideOf (s : State) (n : NodeId) : Side := { node := n, loop := n == ownNode s, inc := incOf s n }

/-- Checks 1 to 3 of R79. [log 50, DEDUCED] -/
def apertureCheck (s : State) (h : HostReq) (atomic : Bool) : Except Status Side :=
  if (ctx s h.ctx).state ≠ .enabled ∨ s.phase ≠ .running then .error .notPerformed
  else if !apertureShapeOk h.addr h.len atomic then .error .oversize
  else (translateRank s (ctx s h.ctx).partEnt (apRank h.addr)).map (sideOf s)

/-- R81, R90, R219: the request's channel is blocked, or an earlier request holds its context. [log 11, DEDUCED] -/
def hostHeld (s : State) (h : HostReq) : Bool :=
  s.held.any fun o => match o.origin with
    | .aperture ch _ _ => if o.counted then ch == h.chan.val else o.ctx == h.ctx.val && !streamOnly s o
    | _ => false

/-- An operation of an aperture request. -/
def apertureOp (s : State) (h : HostReq) (kind : OpKind) (side : Side) (args : Option AtomicArgs)
    (off len : Nat) (data : Bytes) (poison : BitVec 8) : Op :=
  { id := s.nextId, ctx := h.ctx, origin := .aperture h.chan h.thread h.addr, kind := kind,
    strict := h.strict, side := side, key := ctxKey s h.ctx, sinc := incOf s (ownNode s),
    window := apWindow h.addr, offset := off, len := len, data := data, poison := poison,
    args := args.getD { afn := 0, opa := 0, opb := 0 }, notify := none, pos := 0, dest := none,
    held := s.clock, probed := s.clock, counted := false, room := none, drained := false }

/-- Hold an operation and try to issue it at once. -/
def holdAndIssue (s : State) (op : Op) : State := operationIssue op.id (holdOp s op)

/-- R490: a host port request to an address the device does not serve. -/
def requestError (chan : Nat) (addr : BitVec 64) (s : State) : State :=
  raiseReport s { cls := 0xF, idx := chan, kind := 1, sev := (baseSeverity 0xF 1).getD .note, addr := addr.toNat % 2 ^ 32,
                  status := .notPerformed }

/-- A read through the aperture. -/
def apertureRead (h : HostReq) (atomic : Option AtomicArgs) (s : State) : State :=
  if hostDown s then s
  else if apTag h.addr ≠ 0xE then
    requestError h.chan h.addr (emit s (.loadDone h.thread .notPerformed (zeros h.len) 0))
  else if hostHeld s h ∧ s.phase = .running then s
  else
    let kind := if atomic.isSome then OpKind.atomicFetch else .load
    match apertureCheck s h atomic.isSome with
    | .error st =>
      apertureDone s (apertureOp s h kind (sideOf s 0) atomic (apOffset h.addr) h.len [] 0) h.thread h.addr st
        [] 0
    | .ok side => holdAndIssue s (apertureOp s h kind side atomic (apOffset h.addr) h.len [] 0)

def execApertureRead (h : HostReq) (atomic : Option AtomicArgs) (s : State) :
    Host.Outcome State Fault Refusal := .next (apertureRead h atomic s)

/-- R72: the runs of enabled bytes, as offset and length, from position `at_`. [log 50, DEDUCED] -/
def enabledRuns : List Bool → Nat → List (Nat × Nat)
  | [], _ => []
  | true :: r, n =>
    match enabledRuns r (n + 1) with
    | (o, l) :: t => if o = n + 1 then (n, l + 1) :: t else (n, 1) :: (o, l) :: t
    | [] => [(n, 1)]
  | false :: r, n => enabledRuns r (n + 1)

/-- R79 checks 1 to 3 for one run of a write, and its STORE; the shape is R70's as well as R71's. [log 11, DEDUCED; log 50, DEDUCED] -/
def apertureRun (h : HostReq) (side : Except Status Side) (data : Bytes) (poison : BitVec 8) (s : State)
    (run : Nat × Nat) : State :=
  let off := apOffset h.addr + run.1
  let h1 := { h with addr := h.addr + BitVec.ofNat 64 run.1 }
  let op (x : Side) := apertureOp s h1 .store x none off run.2 ((data.drop run.1).take run.2) poison
  match (if dataShapeOk off run.2 then side else .error .oversize) with
  | .error st => apertureDone s (op (sideOf s 0)) h1.thread h1.addr st [] 0
  | .ok x => holdAndIssue s (op x)

/-- The bytes enabled in a write of `len` bytes. -/
def enablesOf (enables : List Bool) (len : Nat) : List Bool :=
  (enables ++ List.replicate len false).take len

/-- HOST kind DATA_PARITY: data with a parity error is poisoned and reported. [log 15, DEDUCED] -/
def parityPoison (parity : Bool) : BitVec 8 := if parity then 0xFF else 0

/-- R100: a parity error on the host port is reported. [log 15, DEDUCED] -/
def reportParity (s : State) (h : HostReq) (parity : Bool) : State :=
  if parity then reportCtx s 0xF h.chan 2 h.addr.toNat .ok h.ctx else s

/-- A write through the aperture: one STORE for each run of enabled bytes, or a posted atomic. A failure of
one run records that run's own address (`apertureRun`); where the context is not enabled, the address of the whole request.
The spec does not say which. [log 50, DEDUCED] -/
def apertureWrite (h : HostReq) (atomic : Option AtomicArgs) (enables : List Bool) (data : Bytes)
    (parity : Bool) (s : State) : State :=
  if hostDown s then s
  else if apTag h.addr ≠ 0xE then requestError h.chan h.addr (emit s (.storeDone h.thread .notPerformed))
  else if hostHeld s h ∧ s.phase = .running then s
  else
    let side := apertureCheck s h atomic.isSome
    let s1 := reportParity s h parity
    match atomic with
    | some _ =>
      let op (x : Side) := apertureOp s1 h .atomicPost x atomic (apOffset h.addr) h.len [] (parityPoison parity)
      match side with
      | .error st => apertureDone s1 (op (sideOf s1 0)) h.thread h.addr st [] 0
      | .ok x => holdAndIssue s1 (op x)
    | none =>
      let d := padTo h.len data
      match enabledRuns (enablesOf enables h.len) 0, side with
      | [], .ok x => apertureDone s (apertureOp s h .store x none 0 0 [] 0) h.thread h.addr .ok [] 0
      | [], .error st => apertureDone s (apertureOp s h .store (sideOf s 0) none 0 0 [] 0) h.thread h.addr st [] 0
      | runs, .error .notPerformed =>
        runs.foldl (fun t _ => apertureDone t (apertureOp t h .store (sideOf t 0) none 0 0 [] 0) h.thread h.addr
          .notPerformed [] 0) s1
      | runs, x => runs.foldl (apertureRun h x d (parityPoison parity)) s1

def execApertureWrite (h : HostReq) (atomic : Option AtomicArgs) (enables : List Bool) (data : Bytes)
    (parity : Bool) (s : State) : Host.Outcome State Fault Refusal :=
  .next (apertureWrite h atomic enables data parity s)

/-- R490: a request to an address the device does not serve: a read of some width, or a write. -/
def hostRequestError (chan : Nat) (addr : BitVec 64) (read : Option Nat) (thread : BitVec 16) (s : State) : State :=
  if hostDown s then s
  else requestError chan addr
    (emit s (match read with
      | none => .storeDone thread .notPerformed
      | some len => .loadDone thread .notPerformed (zeros len) 0))

def execHostRequestError (chan : Fin 8) (addr : BitVec 64) (read : Option Nat) (thread : BitVec 16) (s : State) :
    Host.Outcome State Fault Refusal := .next (hostRequestError chan addr read thread s)

end Sys2Proof.Machine
end

