-- ==== Sys2Proof/Machine/Command.lean ====
section
/-! DEFINITION. The commands that move data (chapter 04): COPY, FILL, STRIDED and STAGE_IN with the checks
of R116 at acceptance, and the start and deadline of a STAGE_IN. -/

namespace Sys2Proof.Machine

/-! ## Checks at acceptance (R116 to R120) -/

/-- The 36-bit offset or stride of a command from byte n. -/
def cmdOff (b : BitVec 512) (n : Nat) : Nat := fld b.toNat (8 * n) 36

/-- R121, R123 to R125: check 2 of R116, the ranges and alignment of a layout. [log 48, DESIGN CHOICE] -/
def layoutOk (b : BitVec 512) : Bool :=
  let len := fld b.toNat 256 37
  let total := cmdTotal b
  let lenOk := decide (1 ≤ len) && decide (len ≤ 2 ^ 36)
  let aligned := cmdOff b 16 % 64 == cmdOff b 24 % 64
  let ntfOk := !(cmdNtf b && cmdDloc b)
  if cmdType b = 1 then lenOk && aligned && ntfOk
  else if cmdType b = 2 then lenOk && ntfOk
  else if cmdType b = 3 then
    decide (1 ≤ cmdB b 32 4) && decide (total ≤ 2 ^ 36) && aligned && ntfOk &&
      cmdOff b 40 % 64 == cmdOff b 52 % 64 && cmdOff b 46 % 64 == cmdOff b 58 % 64
  else
    lenOk && aligned && cmdB b 1 1 == 0 && (cmdB b 48 8 == 0 || decide (cmdB b 40 8 ≤ cmdB b 48 8))

/-- The bytes from the first to the last byte of a side: rows and strides of STRIDED included. -/
def reach (b : BitVec 512) (s1 s2 : Nat) : Nat :=
  if cmdType b = 3 then
    cmdB b 32 4 + cmdB b 36 2 * cmdOff b s1 + cmdB b 38 2 * cmdOff b s2
  else fld b.toNat 256 37

/-- Check 3 of R116: every byte lies below offset 2^36 of its window. -/
def windowOk (b : BitVec 512) : Bool :=
  decide (cmdOff b 24 + reach b 52 58 ≤ 2 ^ 36) &&
    (cmdType b == 2 || decide (cmdOff b 16 + reach b 40 46 ≤ 2 ^ 36))

/-- R118: the own node as a side. -/
def ownSide (s : State) : Side := { node := ownNode s, loop := true, inc := incOf s (ownNode s) }

/-- R117: one side of a command, the own node when its flag says so. -/
def commandSide (s : State) (c : Nat) (here : Bool) (rank : Nat) : Except Status Side :=
  if here then .ok (ownSide s) else (translateRank s (ctx s c).partEnt rank).map (sideOf s)

/-- Check 4 of R116: source and destination of a command. Where both ranks fail with different statuses the
source's is taken: the spec gives no order. [log 11, DEDUCED] -/
def commandSides (s : State) (c : Nat) (b : BitVec 512) : Except Status (Side × Side) :=
  let stage := cmdType b = 4
  match commandSide s c (stage ∨ cmdType b = 2 ∨ cmdSloc b) (cmdB b 8 2) with
  | .error st => .error st
  | .ok src =>
    match commandSide s c (stage ∨ cmdDloc b) (cmdB b 12 2) with
    | .error st => .error st
    | .ok dst => .ok (src, dst)

/-- R116: the checks in order. -/
def commandCheck (s : State) (c : Nat) (b : BitVec 512) : Except Status (Side × Side) :=
  if !layoutOk b then .error .oversize
  else if !windowOk b then .error .oversize
  else commandSides s c b

/-- R119, R124: a command begins: with bytes to move, its first piece is cut and held for issue. -/
def beginCutting (s : State) (c : Nat) (m : Cmd) : State :=
  if m.pos < m.total then
    let op := pieceOf s c m
    holdOp (addCmd s c { m with pos := m.pos + op.len, open_ := m.open_ + 1 }) op
  else addCmd s c m

/-- An accepted data command begins, waits for its START, or completes at once. -/
def acceptData (s : State) (c num : Nat) (b : BitVec 512) (wait : Bool) : State :=
  match commandCheck s c b with
  | .error st => finishAtOnce s c num b st
  | .ok (src, dst) =>
    let m := { newCmd num b (if wait then .waiting else .issuing) with
      src := src, dst := dst, key := ctxKey s c, sinc := incOf s (ownNode s), total := cmdTotal b }
    if wait then addCmd s c m else beginCutting s c m

/-- R121, R122. -/
def execCopy (ctx : Fin 4096) (s : State) : Host.Outcome State Fault Refusal :=
  .next (accepting ctx (· == 1) (fun t n b => acceptData t ctx n b false) s)

/-- R123. -/
def execFill (ctx : Fin 4096) (s : State) : Host.Outcome State Fault Refusal :=
  .next (accepting ctx (· == 2) (fun t n b => acceptData t ctx n b false) s)

/-- R124, R492: rows are issued in stream order; they land in the order their LOADs are answered and memory
accepts them. -/
def execStrided (ctx : Fin 4096) (s : State) : Host.Outcome State Fault Refusal :=
  .next (accepting ctx (· == 3) (fun t n b => acceptData t ctx n b false) s)

/-! ## STAGE_IN (R125, R126) -/

/-- Waiting STAGE_INs of a context. -/
def waitingIn (x : Ctx) : Nat := (x.cmds.filter fun m => m.phase == .waiting).length

/-- 0x4300.01: waiting STAGE_INs of all engines. -/
def waitingStageIns (s : State) : Nat := (s.ctxs.map fun x => waitingIn x.2).foldl (· + ·) 0

/-- R126: waiting STAGE_INs of the engine of a context. -/
def engineWaiting (s : State) (c : Nat) : Nat :=
  ((s.ctxs.filter fun x => engineOf x.1 == engineOf c).map fun x => waitingIn x.2).foldl (· + ·) 0

/-- R125, R126: a STAGE_IN whose START is past begins at once; one that would have to wait stays in its slot
while the engine's queue is full. -/
def stageIn (c : Nat) (s : State) : State :=
  match nextCommand (ctx s c) with
  | some b =>
    let now := inTurn s 9 (cmdB b 40 8)
    let good := (commandCheck s c b).toBool
    if good ∧ !now ∧ 256 ≤ engineWaiting s c then s
    else accepting c (· == 4) (fun t n b => acceptData t c n b (!now)) s
  | none => s

def execStageIn (ctx : Fin 4096) (s : State) : Host.Outcome State Fault Refusal := .next (stageIn ctx s)

/-- R125: START has come. The command begins also when 16 others are in progress, the spec giving no room to wait for: 0x4000.06
then shows 17. [log 11, DEDUCED] -/
def stageInStart (c num : Nat) (s : State) : State :=
  match cmdOf s c num with
  | some m =>
    if m.phase = .waiting ∧ inTurn s 9 (cmdB m.bytes 40 8) then
      cutNext (putCmd s c { m with phase := .issuing }) c num
    else s
  | none => s

def execStageInStart (ctx : Fin 4096) (cmd : Nat) (s : State) : Host.Outcome State Fault Refusal :=
  .next (stageInStart ctx cmd s)

/-- R126: DEADLINE has passed before completion: counted and reported once. -/
def stageInDeadline (c num : Nat) (s : State) : State :=
  match cmdOf s c num with
  | some m =>
    let dead := cmdB m.bytes 48 8
    if cmdType m.bytes = 4 ∧ dead ≠ 0 ∧ inTurn s 9 dead ∧ !m.late then
      reportCtx (bump (putCmd s c { m with late := true }) 0x4300 2) 3 (engineOf c) 2 num .ok c
    else s
  | none => s

def execStageInDeadline (ctx : Fin 4096) (cmd : Nat) (s : State) : Host.Outcome State Fault Refusal :=
  .next (stageInDeadline ctx cmd s)

end Sys2Proof.Machine
end

