-- ==== Sys2Proof/Machine/Control.lean ====
section
/-! DEFINITION. Control packets at a port (R276, R289, R293, R297, R302): which received blocks are taken,
and the routed control packets with their queues. -/

namespace Sys2Proof.Machine

/-- A port whose lanes have completed their stage, so that blocks arrive. -/
def stageDone (x : Port) : Bool := x.stage.isSome && x.trying.isNone && x.state != .absent

/-- R321: blocks arrive on a port: its own stage is complete, or the peer's stream has begun before its own. -/
def blocksCome (s : State) (p : Nat) : Bool :=
  let x := port s p
  stageDone x || (x.state != .absent && (x.trying == some .b || x.trying == some .c) && x.rxStart.any fun t => decide (t ≤ s.clock))

/-- The control packets a port takes before it works (R302). -/
def beforeUp (ctype : Nat) : Bool := [ctIdle, ctHail, ctDepart, ctLinkStart].contains ctype

/-- The control packets of any link epoch (R297). -/
def anyEpoch (ctype : Nat) : Bool := [ctHail, ctDepart, ctLinkStart].contains ctype

/-- LEPOCH of a control packet. -/
def cLepoch (b : BitVec 256) : Nat := hf b 8 2

/-- Take a received block as a control packet of one type and act on it, or discard and count it. A block whose byte 0 is
below 0xC0 is no control packet (R267). -/
def takeControl (s : State) (p : Nat) (b : BitVec 256) (ctype : Nat) (act : State → State) : State :=
  if !blocksCome s p ∨ cByte b 0 < 0xC0 then s
  else if !controlValid b then (if (port s p).link.discard then s else bumpAt s 0x2400 0x15 p)
  else if cByte b 0 ≠ ctype then s
  else if !working s p ∧ !beforeUp ctype then bumpAt s 0x2400 0x15 p
  else if !anyEpoch ctype ∧ cLepoch b ≠ (port s p).link.rxEpoch then bumpAt s 0x2400 0x10 p
  else act (updLink s p fun l => { l with heard := s.clock })

/-- The first three kinds of R289 that this sends; LINK_STATUS that changes XOFF is the third. -/
def urgentKind (ctype : Nat) : Bool := ctype == ctNak || ctype == ctDepart

/-- R275, R297: send a control packet on a port with its transmit epoch. -/
def sendControl (s : State) (p ctype : Nat) (body : List (Nat × Nat × Nat)) : State :=
  sendBlock s p (urgentKind ctype) (control ctype (port s p).link.txEpoch 0 body)

/-! ## Key arbitration (R254, R255) -/

/-- A distance between sequence numbers modulo 65,536. -/
def seqDist (a b : Nat) : Nat := (a + 65536 - b % 65536) % 65536

/-- The entry of a key for arbitration; keys of no entry share number 64. [log 17, DESIGN CHOICE] -/
def keyNo (s : State) (key : Nat) : Nat := (entryOfKey s key).getD 64

/-- The minimum share of an arbitration number. -/
def minOf (s : State) (p k : Nat) : Nat := if k < 64 then minShare s p k else 0

/-- Packets charged to a port's egress on a VC that the neighbour does not hold off. -/
def sendable (s : State) (p : Nat) : List Pkt :=
  s.pkts.filter fun x => match x.acct with
    | .egress q v => q == p && !bitAt (port s p).link.xoffRx.toNat v
    | _ => false

/-- The waiting keys of a port, by arbitration number, rising. -/
def waitingKeys (s : State) (p : Nat) : List Nat :=
  (sendable s p).foldl (fun l x => insertNat l (keyNo s (hKey x.header))) []

/-- The order in which one key's VCs are served. -/
def vcOrder : List Nat := [4, 3, 1, 0, 2]

/-- The next packet of a key. -/
def nextOfKey (s : State) (p k : Nat) : Option Pkt :=
  vcOrder.findSome? fun v => (sendable s p).find? fun x => x.acct == .egress p v && keyNo s (hKey x.header) == k

/-- R255: the weight of a waiting key, in 1/256 over the number of them: its MIN, and an equal part of what the MINs of the
waiting keys leave. [log 17, DESIGN CHOICE] -/
def keyWeight (s : State) (p : Nat) (keys : List Nat) (k : Nat) : Nat :=
  keys.length * minOf s p k + (256 - (keys.map (minOf s p)).foldl (· + ·) 0)

/-- R255: the quantum of a waiting key for `n` bytes that the port has sent: its weight's part of them, in 1/65,536 byte. [log 17, DESIGN CHOICE] -/
def quantum (s : State) (p : Nat) (keys : List Nat) (n k : Nat) : Int :=
  ((256 * n * keyWeight s p keys k / max keys.length 1 : Nat) : Int)

/-- What a key's next packet costs. -/
def nextCost (s : State) (p k : Nat) : Int :=
  match nextOfKey s p k with
  | some x => ((65536 * (32 + x.payload.length) : Nat) : Int)
  | none => 0

/-- The deficits of the waiting keys: a key that does not wait has none. -/
def deficitsOf (s : State) (p : Nat) : Tbl Int :=
  (port s p).link.deficit.filter fun x => (waitingKeys s p).contains x.1

/-- R255: whether key `j` is served before key `k`: what its next packet lacks is gathered sooner. [log 17, DESIGN CHOICE] -/
def keySooner (s : State) (p : Nat) (j k : Nat) : Bool :=
  let keys := waitingKeys s p
  let lack (i : Nat) : Int := nextCost s p i - tgetD (deficitsOf s p) i 0
  decide (lack j * ((keyWeight s p keys k : Nat) : Int) < lack k * ((keyWeight s p keys j : Nat) : Int))

/-- The waiting keys in turn, the one after the key that sent last first. -/
def keysInTurn (s : State) (p : Nat) : List Nat :=
  let keys := waitingKeys s p
  let k := (port s p).link.turn
  keys.filter (fun j => decide (k < j)) ++ keys.filter fun j => decide (j ≤ k)

/-- R255: the key that sends next: of those whose deficit is not below the mean, in turn, the one whose next packet is due
first. [log 17, DESIGN CHOICE] -/
def chooseKey (s : State) (p : Nat) : Option Nat :=
  let keys := keysInTurn s p
  let sum := (keys.map fun k => tgetD (deficitsOf s p) k 0).foldl (· + ·) 0
  (keys.filter fun k => decide (sum ≤ keys.length * tgetD (deficitsOf s p) k 0)).foldl (fun a k =>
    match a with
    | none => some k
    | some j => if keySooner s p k j then some k else some j) none

/-- R255: the deficits after key `k` has sent a packet of `n` bytes: every waiting key has its quantum of them, and `k` has
spent them. [log 17, DESIGN CHOICE] -/
def deficitsAfter (s : State) (p k n : Nat) : Tbl Int :=
  let keys := waitingKeys s p
  keys.foldl (fun d j => tput d j (tgetD (deficitsOf s p) j 0 + quantum s p keys n j -
    if j = k then ((65536 * n : Nat) : Int) else 0)) []

/-- R280: the data packet that may go now on a port, with its key: none while a replay waits for its overrun delay or its
REPLAY_START may go (R285, R289), 32,768 packets are unacknowledged, or the replay quota has no room. -/
def nextData (s : State) (p : Nat) : Option (Nat × Pkt) :=
  let y := port s p
  if !y.state.works ∨ y.trying.isSome ∨ (y.link.resend.isSome ∧ (s.clock < y.link.waitUntil ∨ y.link.gap < 4)) ∨ 32768 ≤ seqDist y.link.next y.link.unacked then none
  else
    (chooseKey s p).bind fun k => (nextOfKey s p k).bind fun x =>
      if replayQuota s p < replayUsed s p + pktCells x then none else some (k, x)

/-! ## Between two data packets (R289) -/

/-- Data waits at a port's transmitter that may go: a packet, or a replay whose overrun delay is over. -/
def dataWaits (s : State) (p : Nat) : Bool :=
  (nextData s p).isSome ||
    (working s p && (port s p).trying.isNone && (port s p).link.resend.isSome && decide ((port s p).link.waitUntil ≤ s.clock))

def beaconInterval (s : State) : Mt := usMt (reg s 0x9020 1)

/-- R353: a beacon of a port is due. -/
def beaconDue (s : State) (p : Nat) : Bool :=
  let x := port s p
  let d := beaconInterval s
  x.state.works && passed s x.beaconAt d && (decide (0 < x.fresh) || passed s x.beaconAt (4 * d))

/-- R289: one more control packet may stand before the next data packet. -/
def mayControl (s : State) (p : Nat) : Bool :=
  (port s p).trying.isNone && (decide ((port s p).link.gap < 4) || !dataWaits s p)

/-- R289: a REPLAY_START waits to go: that of a data replay whose delay is over, or that of the notices. -/
def replayWaits (s : State) (p : Nat) : Bool :=
  let l := (port s p).link
  l.restart.isSome || (working s p && l.resend.isSome && decide (l.waitUntil ≤ s.clock))

/-- R289: one of the kinds that stand after BEACON in the order may go: no REPLAY_START and no BEACON waits. -/
def mayLower (s : State) (p : Nat) : Bool := !replayWaits s p && !beaconDue s p && mayControl s p

/-- R286: LINK_STATUS is due by the ack threshold, the ack delay or the refresh time. -/
def statusDue (s : State) (p : Nat) : Bool :=
  let l := (port s p).link
  working s p && (port s p).trying.isNone &&
    (decide (reg s 0x2410 1 ≤ l.owed) || (l.owed != 0 && passed s l.owedSince (nsMt (reg s 0x2410 2))) ||
      passed s l.statusAt (nsMt (reg s 0x2410 3)))

/-- R286, R289: LINK_STATUS goes out when it is due, as soon as it may. -/
def statusSoon (s : State) (p : Nat) : State := if statusDue s p ∧ mayLower s p then sendStatus s p false else s

/-! ## Routed control packets (R279, R293) -/

def rDst (b : BitVec 256) : NodeId := BitVec.ofNat 16 (cNum b 5 2)
def rSrc (b : BitVec 256) : NodeId := BitVec.ofNat 16 (cNum b 7 2)
def rHops (b : BitVec 256) : Nat := cByte b 11
def rNctx (b : BitVec 256) : Nat := hf b 96 12
def rSinst (b : BitVec 256) : Nat := hf b 108 2
def rTinst (b : BitVec 256) : Nat := hf b 110 2
def rGen (b : BitVec 256) : BitVec 8 := BitVec.ofNat 8 (cByte b 14)
def rCount (b : BitVec 256) : Nat := cNum b 15 4

/-- R279: a routed control packet built here. -/
def routedBlock (s : State) (ctype : Nat) (dst : NodeId) (nctx sinst tinst gen count : Nat) : BitVec 256 :=
  control ctype 0 0
    [cb 5 2 dst.toNat, cb 7 2 (ownNode s).toNat, cb 9 1 (incOf s dst).toNat,
     cb 10 1 (incOf s (ownNode s)).toNat, (96, 12, nctx), (108, 2, sinst), (110, 2, tinst), cb 14 1 gen,
     cb 15 4 (count % 2 ^ 32)]

/-- R59 for a routed control packet. -/
def routedStampsOk (s : State) (b : BitVec 256) : Bool :=
  let d := incOf s (rDst b)
  let r := incOf s (rSrc b)
  d != 0 && r != 0 && d.toNat == cByte b 9 && r.toNat == cByte b 10

/-- R289: send one routed control packet now. -/
def sendRoutedNow (s : State) (p : Nat) (b : BitVec 256) : State :=
  sendBlock s p false (resealControl (port s p).link.txEpoch b)

/-! ## NAK and reliable control packets (R277, R285, R288) -/

/-- R277: REPLAY_START. -/
def sendReplayStart (s : State) (p kind n : Nat) : State :=
  sendControl s p ctReplayStart [(40, 1, kind), cb 6 2 n]

/-- R277: send a NAK. -/
def sendNak (s : State) (p kind reason seqNr nvc : Nat) : State :=
  sendControl (bumpAt s 0x2400 0xC p) p ctNak [(40, 1, kind), cb 6 1 reason, cb 7 2 seqNr, cb 9 1 nvc]

/-- R288: send a notice now under the next control number. -/
def sendNumbered (s : State) (p : Nat) (b : BitVec 256) : State :=
  let l := (port s p).link
  let b1 := resealControl l.txEpoch (hset b 32 8 l.cnext)
  sendBlock (updLink s p fun l => { l with
    cnext := (l.cnext + 1) % 256, notices := l.notices ++ [(l.cnext, b1)],
    ctimer := some (l.ctimer.getD s.clock) }) p false b1

/-- R288, R289: the notices that wait to go, those sent again first: the next one, none while 64 are unacknowledged. -/
def nextNotice (s : State) (p : Nat) : Option State :=
  let l := (port s p).link
  match l.renotice, l.noticeQ with
  | b :: r, _ => some (sendBlock (updLink s p fun l => { l with renotice := r }) p false b)
  | [], b :: r =>
    if l.notices.length < 64 then some (sendNumbered (updLink s p fun l => { l with noticeQ := r }) p b) else none
  | [], [] => none

/-- R289: the next control packet that waits and may go, in the order of the kinds. -/
def nextWaiting (s : State) (p : Nat) : Option State :=
  match (port s p).link.restart with
  | some n => if mayControl s p then some (sendReplayStart (updLink s p fun l => { l with restart := none }) p 1 n) else none
  | none =>
    if !mayLower s p then none
    else if statusDue s p then some (sendStatus s p false)
    else
      match nextNotice s p, (port s p).link.routedQ with
      | some t, _ => some t
      | none, b :: r => some (sendRoutedNow (updLink s p fun l => { l with routedQ := r }) p b)
      | none, [] => none

/-- R289: send what waits, as far as it may go before the next data packet. -/
def drainControl : Nat → State → Nat → State
  | 0, s, _ => s
  | n + 1, s, p =>
    match nextWaiting s p with
    | some t => drainControl n t p
    | none => s

/-- R289: after a data packet, up to four control packets; all of them when no data waits. -/
def afterData (s : State) (p : Nat) : State := drainControl 256 (updLink s p fun l => { l with gap := 0 }) p

/-- R278, R288: a Caller notice waits its turn, and what may go goes. -/
def sendNotice (s : State) (p nkind key collid card time arg : Nat) : State :=
  let b := control ctNotice 0 0
    [cb 5 1 nkind, cb 6 2 key, cb 8 4 collid, cb 12 2 card, cb 14 8 time, cb 22 4 arg]
  drainControl 256 (updLink s p fun l => { l with noticeQ := l.noticeQ ++ [b] }) p

/-! ## Sending routed control packets (R289, R293) -/

/-- R289, R293: a routed control packet waits its turn, and what may go goes; a full queue of 64 drops it. [log 12, DEDUCED] -/
def queueRouted (s : State) (p : Nat) (b : BitVec 256) : State :=
  if (port s p).link.routedQ.length < 64 then
    drainControl 256 (updLink s p fun l => { l with routedQ := l.routedQ ++ [b] }) p
  else bumpAt s 0x2400 0x16 p

/-- R293: put a routed control packet on its Leeway hop; it is dropped without one, with stale stamps or
with HOPS 255. `inPort` is the port whose drop counter counts it: that of arrival, 0 for one built here. -/
def forwardRouted (s : State) (b : BitVec 256) (inPort : Option Nat) : State :=
  let drop := bumpAt s 0x2400 0x16 (inPort.getD 0)
  if !routedStampsOk s b ∨ (inPort.isSome ∧ rHops b = 255) then drop
  else
    match controlHop s (rDst b) with
    | none => drop
    | some p => queueRouted s p (if inPort.isSome then hset b 88 8 (rHops b + 1) else b)

/-- Whether a control number names notices beyond the last sent one. -/
def beyondNotices (l : Link) (cack : Nat) : Bool :=
  decide ((l.cnext + 256 - l.cunacked) % 256 < (cack + 256 - l.cunacked) % 256)

/-- R288: CACK or a control NAK acknowledges the notices below a number; one beyond the next number is
ignored. [log 16, DEDUCED] -/
def ackNotices (s : State) (p cack : Nat) : State :=
  let l := (port s p).link
  let k := (cack + 256 - l.cunacked) % 256
  if beyondNotices l cack ∨ k = 0 then s
  else
    let rest := l.notices.drop k
    updLink s p fun l => { l with
      cunacked := cack % 256, notices := rest, creplays := 0,
      renotice := l.renotice.filter fun b => rest.any fun x => x.2 == b,
      ctimer := if rest = [] then none else some s.clock }

/-- R288: take a received notice in its sequence, or NAK it once. -/
def takeNotice (s : State) (p : Nat) (b : BitVec 256) (act : State → State) : State :=
  takeControl s p b ctNotice fun t =>
    let l := (port t p).link
    if cByte b 4 = l.cexpect then
      act (updLink t p fun l => { l with cexpect := (l.cexpect + 1) % 256, cnak := false })
    else if l.cnak then t
    else sendNak (updLink t p fun l => { l with cnak := true }) p 1 0 l.cexpect 0

/-- The fields of a notice (R278). -/
def nKind (b : BitVec 256) : Nat := hf b 40 4
def nKey (b : BitVec 256) : Nat := cNum b 6 2
def nCollid (b : BitVec 256) : Nat := cNum b 8 4
def nCard (b : BitVec 256) : Nat := cNum b 12 2
def nTime (b : BitVec 256) : Nat := cNum b 14 8
def nArg (b : BitVec 256) : Nat := cNum b 22 4

end Sys2Proof.Machine
end

