-- ==== Sys2Proof/Machine/Credit.lean ====
section
/-! DEFINITION. End-to-end credits (R138 to R143, R221, R293 to R295): the grant table at the target, the
sender table at the requester, and the routed control packets between them. -/

namespace Sys2Proof.Machine

/-! ## The grant table (R140, R141, R221) -/

/-- The number of a grant entry: context, source node and inst. -/
def grantNo (nctx : Nat) (src : NodeId) (sinst : Nat) : Nat := nctx * 262144 + src.toNat * 4 + sinst

/-- O of R140 for one grant entry. -/
def outstanding (g : Grant) : Nat := g.limit - g.acc

/-- O of a context, and over all contexts. -/
def contextOut (s : State) (nctx : Nat) : Nat :=
  ((s.grants.filter fun g => g.1 / 262144 == nctx).map fun g => outstanding g.2).foldl (· + ·) 0
def totalOut (s : State) : Nat := (s.grants.map fun g => outstanding g.2).foldl (· + ·) 0

/-- A sender entry takes a grant (R141, R294). [log 12, DEDUCED] -/
def applyGrant (s : State) (node : NodeId) (nctx : Nat) (gen : BitVec 8) (g : Nat) : State :=
  let k := senderNo node nctx
  match tget s.senders k with
  | none => s
  | some x =>
    let y := match x.gen with
      | some old =>
        if old ≠ gen then { x with sent := 0, limit := g, gen := some gen }
        else if (g + 2 ^ 32 - x.limit) % 2 ^ 32 < 2 ^ 31 then { x with limit := g } else x
      | none =>
        { x with gen := some gen,
                 limit := if (g + 2 ^ 32 - x.limit) % 2 ^ 32 < 2 ^ 31 then g else x.limit }
    { s with senders := tput s.senders k y }

/-- R141: send the present limit of a grant entry. -/
def sendGrant (s : State) (nctx : Nat) (src : NodeId) (sinst : Nat) : State :=
  let k := grantNo nctx src sinst
  match tget s.grants k with
  | none => s
  | some g =>
    let gen := (ctx s nctx).gen
    let s1 := { s with grants := tput s.grants k { g with told := g.limit, rise := none } }
    if src = ownNode s ∧ sinst = instId s then applyGrant s1 src nctx gen (g.limit % 2 ^ 32)
    else forwardRouted s1 (routedBlock s1 ctGrant src nctx sinst (instId s) gen.toNat g.limit) none

/-- The parts of a grant entry's number. -/
def grantNctx (k : Nat) : Nat := k / 262144
def grantSrc (k : Nat) : NodeId := BitVec.ofNat 16 (k % 262144 / 4)
def grantSinst (k : Nat) : Nat := k % 4

/-- How far the limit of an entry may rise now (R140, R221). -/
def raiseOf (s : State) (k : Nat) (g : Grant) : Nat :=
  min (g.acc + reg s 0x4100 2 - g.limit)
    (min (reg s 0x4100 3 - contextOut s (grantNctx k)) (incastCapacity s - totalOut s))

/-- Raise one entry's limit as far as it may; it keeps its turn while more is due. -/
def raiseOne (s : State) (k : Nat) : State :=
  match tget s.grants k with
  | none => s
  | some g =>
    let r := raiseOf s k g
    let l := g.limit + r
    let done := decide (g.acc + reg s 0x4100 2 ≤ l)
    let y : Grant := { g with limit := l, turn := if done then 0 else g.turn,
                              rise := if 0 < r ∧ g.rise.isNone then some s.clock else g.rise }
    let s1 := { s with grants := tput s.grants k y }
    if g.told + 64 ≤ l then sendGrant s1 (grantNctx k) (grantSrc k) (grantSinst k) else s1

/-- The waiting entries in the order in which their bytes were accepted (R140). -/
def insertTurn (x : Nat × Nat) : List (Nat × Nat) → List (Nat × Nat)
  | [] => [x]
  | y :: r => if x.1 < y.1 then x :: y :: r else y :: insertTurn x r

def waitingGrants (s : State) : List Nat :=
  (((s.grants.filter fun g => g.2.turn != 0).map fun g => (g.2.turn, g.1)).foldl
    (fun l x => insertTurn x l) []).map (·.2)

/-- Serve the waiting entries. -/
def raiseGrants (s : State) : State := (waitingGrants s).foldl raiseOne s

/-- R140: memory accepted `units` of a source: its limit is due to rise. [log 12, DEDUCED] -/
def creditAccepted (s : State) (nctx : Nat) (src : NodeId) (sinst units : Nat) : State :=
  let k := grantNo nctx src sinst
  match tget s.grants k with
  | none => s
  | some g =>
    let s1 := { s with
      grants := tput s.grants k { g with acc := g.acc + units, last := s.clock, turn := if g.turn = 0 then s.nextId + 1 else g.turn },
      nextId := s.nextId + 1 }
    raiseGrants s1

/-- R140: the entry of a source, made when its first credited packet arrives at an ENABLED context; `none`
when the table is full (R142). -/
def grantEntry (s : State) (nctx : Nat) (src : NodeId) (sinst key : Nat) : Option State :=
  let k := grantNo nctx src sinst
  match tget s.grants k with
  | some g => some { s with grants := tput s.grants k { g with last := s.clock } }
  | none =>
    if (ctx s nctx).state ≠ .enabled then some s
    else if 65536 ≤ s.grants.length then none
    else
      let l := reg s 0x4100 1
      let g : Grant := { acc := 0, limit := l, told := l, rise := none, turn := 0, last := s.clock,
                         key := BitVec.ofNat 16 key }
      some { s with grants := tput s.grants k g }

/-- R141: the coalescing time of an unsent rise has passed. -/
def grantCoalesceTimeout (nctx : Nat) (src : NodeId) (sinst : Nat) (s : State) : State :=
  match tget s.grants (grantNo nctx src sinst) with
  | some g =>
    match g.rise with
    | some t => if passed s t (nsMt (reg s 0x4100 8)) then sendGrant s nctx src sinst else s
    | none => s
  | none => s

def execGrantCoalesceTimeout (nctx : Fin 4096) (src : NodeId) (sinst : Fin 4) (s : State) :
    Host.Outcome State Fault Refusal := .next (grantCoalesceTimeout nctx src sinst s)

/-- Free a grant entry; what it held of the budget may raise others. -/
def freeGrant (s : State) (k : Nat) : State := raiseGrants { s with grants := tdel s.grants k }

/-- R143: 100 ms without a credited packet. -/
def grantEntryExpiry (nctx : Nat) (src : NodeId) (sinst : Nat) (s : State) : State :=
  match tget s.grants (grantNo nctx src sinst) with
  | some g => if passed s g.last (msMt 100) then freeGrant s (grantNo nctx src sinst) else s
  | none => s

def execGrantEntryExpiry (nctx : Fin 4096) (src : NodeId) (sinst : Fin 4) (s : State) :
    Host.Outcome State Fault Refusal := .next (grantEntryExpiry nctx src sinst s)

/-- R143, R144: free every grant entry of a context. -/
def freeGrantsOf (s : State) (nctx : Nat) : State :=
  raiseGrants { s with grants := s.grants.filter fun g => g.1 / 262144 != nctx }

/-- R142: a credited packet or probe without room for its entry. -/
def grantTableFull (s : State) (src : NodeId) (nctx : Nat) : State := reportCtx (bump s 0x4100 6) 4 0 1 src.toNat .notPerformed nctx

/-- R295: a probe is answered with the present limit; with no entry for it, the handling of R142. -/
def answerProbe (nctx : Nat) (src : NodeId) (sinst : Nat) (s : State) : State :=
  match tget s.grants (grantNo nctx src sinst) with
  | some _ => sendGrant s nctx src sinst
  | none => grantTableFull s src nctx

/-! ## The sender table (R139, R143, R295) -/

/-- A release or probe of a sender entry (R279). -/
def sendSender (s : State) (ctype : Nat) (node : NodeId) (nctx : Nat) (x : Sender) : State :=
  forwardRouted s (routedBlock s ctype node nctx (instId s) (instId s) (x.gen.getD 0).toNat x.sent) none

/-- R143: an entry idle for 1 ms is freed, and a release sent. -/
def senderEntryExpiry (node : NodeId) (nctx : Nat) (s : State) : State :=
  match tget s.senders (senderNo node nctx) with
  | some x =>
    if x.open_ = 0 ∧ passed s x.last (msMt 1) then
      let s1 := { s with senders := tdel s.senders (senderNo node nctx) }
      if node = ownNode s then freeGrant s1 (grantNo nctx node (instId s))
      else sendSender s1 ctRelease node nctx x
    else s
  | none => s

def execSenderEntryExpiry (node : NodeId) (nctx : Fin 4096) (s : State) : Host.Outcome State Fault Refusal :=
  .next (senderEntryExpiry node nctx s)

/-- R295: an operation held for credit for the probe time sends a probe, and again each probe time. -/
def creditProbeTimer (id : Nat) (s : State) : State :=
  match heldOp s id with
  | none => s
  | some op =>
    match op.notify with
    | some n =>
      let x := (senderOf s op).getD (freshSender s)
      if credited op ∧ op.counted ∧ !creditOk s op ∧ passed s op.probed (nsMt (reg s 0x4100 9)) then
        let s1 := bump (putHeld s { op with probed := s.clock }) 0x4100 0xA
        if op.side.node = ownNode s then answerProbe n.nctx (ownNode s) (instId s) s1
        else sendSender s1 ctProbe op.side.node n.nctx x
      else s
    | none => s

def execCreditProbeTimer (op : Nat) (s : State) : Host.Outcome State Fault Refusal :=
  .next (creditProbeTimer op s)

/-! ## Received routed control packets (R293 to R295) -/

/-- A routed control packet arrives: it is passed on, given to another inst of this package, or taken. -/
def routedArrives (s : State) (b : BitVec 256) (inPort inst : Nat) (take : State → State) : State :=
  if !routedStampsOk s b then bumpAt s 0x2400 0x16 inPort
  else if rDst b ≠ ownNode s then forwardRouted s b (some inPort)
  else if inst ≠ instId s then emit s (.cascadeControl inst b)
  else take s

/-- A grant for a sender entry of this inst. -/
def takeGrant (b : BitVec 256) (s : State) : State := applyGrant s (rSrc b) (rNctx b) (rGen b) (rCount b)

/-- R143: a release frees the grant entry. -/
def takeRelease (b : BitVec 256) (s : State) : State := freeGrant s (grantNo (rNctx b) (rSrc b) (rSinst b))

def takeProbe (b : BitVec 256) (s : State) : State := answerProbe (rNctx b) (rSrc b) (rSinst b) s

def creditGrantReceive (p : Nat) (b : BitVec 256) (s : State) : State :=
  takeControl s p b ctGrant fun t => routedArrives t b p (rSinst b) (takeGrant b)

def execCreditGrantReceive (port : Fin 12) (block : BitVec 256) (s : State) :
    Host.Outcome State Fault Refusal := .next (creditGrantReceive port block s)

def creditReleaseReceive (p : Nat) (b : BitVec 256) (s : State) : State :=
  takeControl s p b ctRelease fun t => routedArrives t b p (rTinst b) (takeRelease b)

def execCreditReleaseReceive (port : Fin 12) (block : BitVec 256) (s : State) :
    Host.Outcome State Fault Refusal := .next (creditReleaseReceive port block s)

def creditProbeReceive (p : Nat) (b : BitVec 256) (s : State) : State :=
  takeControl s p b ctProbe fun t => routedArrives t b p (rTinst b) (takeProbe b)

def execCreditProbeReceive (port : Fin 12) (block : BitVec 256) (s : State) :
    Host.Outcome State Fault Refusal := .next (creditProbeReceive port block s)

end Sys2Proof.Machine
end

