-- ==== Sys2Proof/Machine/Target.lean ====
section
/-! DEFINITION. The target side (chapter 03): requests leaving the ingress region are translated and handed
to memory or a Sextant unit, memory accepts them, and responses, acknowledgements and notifications
follow; and the responses as the requester receives them. -/

namespace Sys2Proof.Machine

/-! ## Answers (R66, R82, R85, R270) -/

/-- The entry a response names is open, in its round and under its context's generation (R82). -/
def matchOpen (s : State) (tag round : Nat) : Option Track :=
  (tget s.tracks tag).filter fun t => t.round == round && t.gen == (ctx s t.op.ctx).gen

/-- R82: an answer for a tag, or a late one, counted. -/
def answerTag (s : State) (tag round : Nat) (st : Status) (data : Bytes) (poison : BitVec 8)
    (unc syn : Bool) : State :=
  match matchOpen s tag round with
  | some _ => completeTag s tag st data poison unc (syn || st == .retired) syn
  | none => bump s 0x4530 2

/-- R70, R270: the bytes of an answer as they lie in its 64-byte units, and as they were asked for. -/
def toUnits (off : Nat) (data : Bytes) : Bytes :=
  padTo (64 * ceilDiv (off % 64 + data.length) 64) (zeros (off % 64) ++ data)
def fromUnits (off len : Nat) (payload : Bytes) : Bytes := (payload.drop (off % 64)).take len

/-- The bytes an operation is answered with, found in the payload of its response. -/
def answerData (op : Op) (payload : Bytes) : Bytes :=
  if op.kind = .load then fromUnits op.offset op.len payload else payload.take op.len

/-- The tag and MAP of a single answer: a WRITE_ACK names its block and sets one bit (R270). -/
def singleTag (h : BitVec 256) : Nat := if answerOp (hOp h) = opWriteAck then hTag h / 64 * 64 else hTag h
def singleMap (h : BitVec 256) : Nat := if answerOp (hOp h) = opWriteAck then 2 ^ (hTag h % 64) else 0

/-- Answer one request at once: in place for a looped-back one, else by a response packet that waits for
routing in the response account (R41, R217). -/
def respond (s : State) (h : BitVec 256) (loop : Bool) (st : Status) (payload : Bytes) (poison : BitVec 8)
    (unc : Bool) : State :=
  if loop then
    match tget s.tracks (hTag h) with
    | some t => answerTag s (hTag h) (hRound h) st (answerData t.op payload) poison unc false
    | none => bump s 0x4530 2
  else
    addPkt s (newPkt s (responseHeader h (answerOp (hOp h)) st (payload.length / 64) poison (singleMap h) unc
      false (singleTag h)) payload .response none)

/-- R85: send an accumulator as one WRITE_ACK. -/
def sendAccum (s : State) (a : Accum) : State :=
  let s1 := { s with accums := s.accums.filter fun x => x.id != a.id }
  addPkt s1 (newPkt s1 (responseHeader a.header opWriteAck .ok 0 0 a.map.toNat false false a.base) [] .response
    none)

/-- The accumulator that gathers for a request. -/
def accumFor (s : State) (h : BitVec 256) : Option Accum :=
  s.accums.find? fun a => a.src == hSrc h && a.sinst == hSinst h && a.base == hTag h / 64 * 64 &&
    a.round == hRound h

/-- R85: gather an OK acknowledgement; send the accumulator once its 64 bits are set. -/
def gatherAck (s : State) (h : BitVec 256) : State :=
  let one : BitVec 64 := BitVec.ofNat 64 (2 ^ (hTag h % 64))
  match accumFor s h with
  | some a =>
    let b := { a with map := a.map ||| one }
    if b.map = BitVec.allOnes 64 then sendAccum s b
    else { s with accums := s.accums.map fun x => if x.id == a.id then b else x }
  | none =>
    if s.accums.length < 256 then
      { s with
        accums := s.accums ++ [{ id := s.nextId, header := h, sinst := hSinst h, src := hSrc h,
                                 base := hTag h / 64 * 64, round := hRound h, map := one,
                                 since := s.clock }],
        nextId := s.nextId + 1 }
    else respond s h false .ok [] 0 false

/-- R85, R95: acknowledge a STORE or ATOMIC_POST. [log 12, DEDUCED] -/
def acknowledge (s : State) (h : BitVec 256) (loop : Bool) (st : Status) (unc : Bool) : State :=
  let s1 := if unc then bump s 0x4520 2 else s
  if loop ∨ st ≠ .ok ∨ unc ∨ reg s 0x4500 3 = 0 then respond s1 h loop st [] 0 unc else gatherAck s1 h

/-- R85: the coalescing time of an accumulator has passed. -/
def writeAckCoalesceTimeout (id : Nat) (s : State) : State :=
  match s.accums.find? fun a => a.id == id with
  | some a => if passed s a.since (nsMt (reg s 0x4500 3)) then sendAccum s a else s
  | none => s

def execWriteAckCoalesceTimeout (accum : Nat) (s : State) : Host.Outcome State Fault Refusal :=
  .next (writeAckCoalesceTimeout accum s)

/-! ## Notification (R93 to R98) -/

/-- R94: the context may be notified with the packet's key. -/
def mayNotify (s : State) (nctx key : Nat) : Bool :=
  (ctx s nctx).state == .enabled && partValid s (ctx s nctx).partEnt && partKey s (ctx s nctx).partEnt == key

/-- R94: raise the counter, or count a denial. -/
def notifyNow (s : State) (nctx nctr key : Nat) : State × Status :=
  if mayNotify s nctx key then (raiseCounter s nctx nctr, .ok) else (bump s 0x4520 4, .denied)

/-- The number of a message table entry: source node, SINST, MSGID. -/
def messageNo (src : NodeId) (sinst msgid : Nat) : Nat := src.toNat * 4096 + sinst * 1024 + msgid
def hMessage (h : BitVec 256) : Nat := messageNo (hSrc h) (hSinst h) (hMsgid h)

/-- R93, R95: a packet of a relaxed message arrives: its entry is made unless the table is full. [log 12, DEDUCED] -/
def messageArrives (s : State) (h : BitVec 256) : State :=
  if hNotify h ∧ !hDet h ∧ (tget s.msgIn (hMessage h)).isNone ∧ s.msgIn.length < 16384 then
    let m : MsgIn := { nctx := hNctx h, nctr := hNctr h, key := BitVec.ofNat 16 (hKey h),
                       want := hMsglen h + 1, got := 0, last := s.clock }
    { s with msgIn := tput s.msgIn (hMessage h) m }
  else s

/-- R93, R95, R98: memory accepted a STORE's bytes: the status its acknowledgement takes from notification, and
UNC, which a packet that had no entry when it arrived has. The context, counter, key and length of a relaxed message are
those of the packet that made its entry: R94 says "the packet's key" and not which packet's where they differ. [log 54, DESIGN CHOICE] -/
def messageGains (s : State) (h : BitVec 256) (unc : Bool) : State × Status × Bool :=
  if !hNotify h then (s, .ok, false)
  else if unc then (s, .ok, true)
  else if hDet h then
    if hLast h then
      let r := notifyNow s (hNctx h) (hNctr h) (hKey h)
      (r.1, r.2, false)
    else (s, .ok, false)
  else
    match tget s.msgIn (hMessage h) with
    | none => (s, .ok, true)
    | some m =>
      let y := { m with got := m.got + hLen h, last := s.clock }
      if y.got < y.want then ({ s with msgIn := tput s.msgIn (hMessage h) y }, .ok, false)
      else
        let r := notifyNow { s with msgIn := tdel s.msgIn (hMessage h) } m.nctx m.nctr m.key.toNat
        (r.1, r.2, false)

/-- R96: an entry that has gained no bytes for 10 ms. -/
def messageEntryExpiry (src : NodeId) (sinst msgid : Nat) (s : State) : State :=
  match tget s.msgIn (messageNo src sinst msgid) with
  | some m =>
    if passed s m.last (msMt 10) then
      bump { s with msgIn := tdel s.msgIn (messageNo src sinst msgid) } 0x4520 3
    else s
  | none => s

def execMessageEntryExpiry (src : NodeId) (sinst : Fin 4) (msgid : Fin 1024) (s : State) :
    Host.Outcome State Fault Refusal := .next (messageEntryExpiry src sinst msgid s)

/-! ## Requests that leave the ingress region (R47, R88, R217) -/

/-- A stored request of one operation code for this node that nothing serves yet. -/
def requestAt (s : State) (id op : Nat) : Option Pkt :=
  match pktOf s id with
  | some x =>
    let here : Bool := match x.acct with
      | .ingress _ _ => !forHome s x
      | .incast | .loopBack => true
      | _ => false
    if hOp x.header = op ∧ hDst x.header = ownNode s ∧ here ∧ !accessOpen s id then some x else none
  | none => none

/-- R41: whether a request goes through the loop-back account. [log 13, DEDUCED] -/
def isLoop (x : Pkt) : Bool := x.acct == .loopBack

/-- R88: two strict requests of one stream as the target sees it. -/
def sameStream (a b : BitVec 256) : Bool :=
  hDet a && hDet b && hSrc a == hSrc b && hSinst a == hSinst b && hKey a == hKey b

/-- R88: a strict request waits for the earlier requests of its stream that are not taken. -/
def streamBehind (s : State) (x : Pkt) : Bool :=
  (s.pkts.takeWhile fun y => y.id != x.id).any fun y =>
    (requestAt s y.id (hOp y.header)).isSome && isRequest (hOp y.header) && sameStream y.header x.header

/-- R49, R88: a strict request waits for what its stream has re-issued to a lender and the lender has not answered. -/
def streamLent (s : State) (x : Pkt) : Bool :=
  let same (o : Op) := isLent o && o.strict && o.key.toNat == hKey x.header
  hDet x.header && hSrc x.header == ownNode s && hSinst x.header == instId s &&
    (s.held.any same || s.tracks.any fun t => same t.2.op)

/-- The number of a Sextant unit among the controllers of R88. -/
def unitCtrl (u : Nat) : Nat := 100 + u

/-- R88: whether a strict atomic of the stream waits in the input queue of a Sextant unit other than `ctrl`: the unit
accepts it when it performs it. -/
def streamQueued (s : State) (x : Pkt) (ctrl : Nat) : Bool :=
  s.units.any fun u => unitCtrl u.1 != ctrl && u.2.queue.any fun r => match r.work with
    | .atomic h .. => sameStream h x.header
    | .piece .. => false

/-- R88: a strict request waits for the earlier requests of its stream at other controllers. [log 24, DEDUCED] -/
def streamElsewhere (s : State) (x : Pkt) (ctrl : Nat) : Bool :=
  streamLent s x || streamQueued s x ctrl || s.accesses.any fun a => sameStream a.header x.header && a.ctrl != ctrl

/-- The number a lender has among the controllers of R88, that no stack, die or unit has. -/
def lenderCtrl : Nat := 1000

/-- R217, R219: room for the response is there; a looped-back request reserved it when it was charged. -/
def roomToAnswer (s : State) (x : Pkt) : Bool := isLoop x || canReserve s (responseCells x.header)

/-- A request that performs nothing: its packet is released and its status sent. -/
def refuseRequest (s : State) (x : Pkt) (st : Status) : State :=
  respond (dropPkt s x.id) x.header (isLoop x) st [] 0 false

/-- R49: re-issue a looped-back request to a lender from the requester side. A STORE of a message keeps its NOTIFY
fields, so the lender counts the message and raises its own counter, and no entry of the message table is made here:
neither R49 nor R73 says whether a re-issue carries them. [log 13, DEDUCED; log 54, DESIGN CHOICE] -/
def lend (s : State) (x : Pkt) (node : NodeId) (window off : Nat) : State :=
  let s1 := dropPkt s x.id
  match matchOpen s1 (hTag x.header) (hRound x.header) with
  | none => s1
  | some t =>
    holdAndIssue s1 { t.op with
      id := s1.nextId, origin := .lender (hTag x.header) t.round t.gen,
      side := { node := node, loop := false, inc := incOf s1 node }, sinc := incOf s1 (ownNode s1),
      window := window, offset := off, dest := none, held := s1.clock, probed := s1.clock,
      counted := false, room := none, drained := false }

/-- A translated request is handed to memory; its packet stays charged until memory accepts it (R212). -/
def openAccess (s : State) (x : Pkt) (kind : AccessKind) (p : Place) (data : Bytes) (unc : Bool) : State :=
  { s with
    accesses := s.accesses ++ [{
      id := s.nextId, kind := kind, pkt := some x.id, header := x.header, addr := p.addr,
      len := hLen x.header, data := data, poison := hPoison x.header, loop := isLoop x, ctrl := p.ctrl,
      drained := false, cells := if isLoop x then 0 else responseCells x.header, unc := unc }],
    nextId := s.nextId + 1 }

/-- R47 for a stored request that the own tables answer: `fails` with the status of a failed check, `lent` with the lender
that a looped-back one is re-issued to (R49), `here` with the place that it names. [log 10, DEDUCED] -/
def serveBy (s : State) (id op : Nat) (fails : State → Pkt → Status → State)
    (lent : State → Pkt → NodeId → Nat → Nat → State) (here : State → Pkt → Place → State) : State :=
  match requestAt s id op with
  | none => s
  | some x =>
    if !roomToAnswer s x ∨ streamBehind s x then s
    else
      match translateRequest s x.header (isLoop x) with
      | .error st => fails s x st
      | .ok (.lender node window off) => if streamElsewhere s x lenderCtrl then s else lent s x node window off
      | .ok (.here p) => here s x p

def serve (s : State) (id op : Nat) (here : State → Pkt → Place → State) : State :=
  serveBy s id op refuseRequest lend here

/-- R70: a LOAD. -/
def loadRequest (id : Nat) (s : State) : State :=
  serve s id opLoad fun t x p => if streamElsewhere t x p.ctrl then t else openAccess t x .load p [] false

def execLoadRequest (pkt : Nat) (s : State) : Host.Outcome State Fault Refusal := .next (loadRequest pkt s)

/-- R138, R140, R142: the grant entry of a credited STORE; none when it finds no room. -/
def creditEntry (s : State) (h : BitVec 256) : Option State :=
  if hNotify h then grantEntry s (hNctx h) (hSrc h) (hSinst h) (hKey h) else some s

/-- R142: a credited STORE finds the grant table full and is not performed. -/
def refuseCredited (s : State) (x : Pkt) : State :=
  refuseRequest (grantTableFull s (hSrc x.header) (hNctx x.header)) x .notPerformed

/-- R93, R140, R142: a STORE arrives: its message's entry and its grant entry are made, whatever R47 then says; one
that finds the grant table full is not performed. The spec gives no order between R142 and the checks of R47: R142 stands
first. [log 12, DEDUCED] -/
def storeArrives (s : State) (x : Pkt) (go : State → State) : State :=
  let s1 := messageArrives s x.header
  match creditEntry s1 x.header with
  | none => refuseCredited s1 x
  | some s2 => go s2

/-- R49, R140: a looped-back STORE to a borrowed page arrives here first: a credited one makes its grant entry, and its
bytes count in Rm when it is re-issued: no memory here will accept them, and the rule does not speak of the case. [log 54, DESIGN CHOICE] -/
def lendStore (s : State) (x : Pkt) (node : NodeId) (window off : Nat) : State :=
  let h := x.header
  match creditEntry s h with
  | none => refuseCredited s x
  | some t =>
    lend (if hNotify h then creditAccepted t (hNctx h) (hSrc h) (hSinst h) (ceilDiv (hOffset h % 64 + hLen h) 64) else t)
      x node window off

/-- R95: a packet of a relaxed message finds no entry of its message. -/
def noEntry (s : State) (h : BitVec 256) : Bool := hNotify h && !hDet h && (tget s.msgIn (hMessage h)).isNone

/-- R47, R93, R142: a STORE. -/
def storeRequest (id : Nat) (s : State) : State :=
  serveBy s id opStore (fun t x st => storeArrives t x fun t1 => refuseRequest t1 x st) lendStore fun t x p =>
    if streamElsewhere t x p.ctrl then t
    else
      storeArrives t x fun t1 =>
        openAccess t1 x .store p (fromUnits (hOffset x.header) (hLen x.header) x.payload) (noEntry t1 x.header)

def execStoreRequest (pkt : Nat) (s : State) : Host.Outcome State Fault Refusal := .next (storeRequest pkt s)

/-! ## Sextant input queues (R181, R199) -/

/-- The bytes in a unit's input queue. -/
def queueBytes (u : SextUnit) : Nat := (u.queue.map (fun r => r.bytes)).foldl (· + ·) 0

/-- R182: a unit counts in 0x5300.`sub`, as every present inst then shows it. -/
def unitCount (s : State) (u sub n : Nat) : State :=
  let t := bumpBy s 0x5300 sub u n
  if n = 0 ∨ t.cascade.present = [] then t
  else emit t (.bus (.unitWork ⟨u % 16, by omega⟩ ⟨sub % 14, by omega⟩ n))

/-- R199: back-pressure follows the watermarks; its time is added when it ends. -/
def settlePress (s : State) (n : Nat) : State :=
  let u := sext s n
  match u.press with
  | none =>
    if reg s 0x5310 3 * 1024 < queueBytes u then
      setSext s n { u with press := some s.clock }
    else s
  | some t =>
    if queueBytes u < reg s 0x5310 4 * 1024 then
      unitCount (setSext s n { u with press := none, slow := none }) n 7 ((s.clock - t) / 4)
    else s

/-- Whether a unit takes a further request of some bytes: no back-pressure, and room in its 64 KiB queue. [log 27, DEDUCED] -/
def unitTakes (s : State) (n bytes : Nat) : Bool :=
  (sext s n).press.isNone && decide (queueBytes (sext s n) + bytes ≤ 65536)

/-- Put a request into a unit's input queue; `paced` when it comes from a paced collective (R175). -/
def enqueueUnit (s : State) (n : Nat) (r : UnitReq) (paced : Bool) : State :=
  settlePress (updSext s n fun u => { u with queue := u.queue ++ [r], other := u.other || !paced }) n

/-- R73, R180, R208: an atomic goes to its unit, or waits while the unit takes none. In the unit's queue it has left the
ingress region (R181); for the hold of R88 the unit accepts it when it performs it: the spec does not say when a unit
accepts an atomic. [log 24, DEDUCED] -/
def atomicRequest (id op : Nat) (s : State) : State :=
  serve s id op fun t x p =>
    if streamElsewhere t x (unitCtrl p.unit) then t
    else if !(sext t p.unit).inService then refuseRequest t x .notPerformed
    else if !unitTakes t p.unit 64 then t
    else
      enqueueUnit (dropPkt t x.id) p.unit
        { work := .atomic x.header p.addr (hLen x.header) (atomicArgs x.payload)
            (bitAt (hPoison x.header).toNat 0) (isLoop x), bytes := 64 } false

def execAtomicFetchRequest (pkt : Nat) (s : State) : Host.Outcome State Fault Refusal :=
  .next (atomicRequest pkt opAtomicFetch s)

def execAtomicPostRequest (pkt : Nat) (s : State) : Host.Outcome State Fault Refusal :=
  .next (atomicRequest pkt opAtomicPost s)

/-- R95: a NOTIFY removes the message's entry, raises the counter once and is acknowledged. -/
def notifyRequest (id : Nat) (s : State) : State :=
  match requestAt s id opNotify with
  | none => s
  | some x =>
    if !roomToAnswer s x then s
    else
      let h := x.header
      let r := notifyNow { dropPkt s id with msgIn := tdel (dropPkt s id).msgIn (hMessage h) } (hNctx h)
        (hNctr h) (hKey h)
      respond r.1 h (isLoop x) r.2 [] 0 false

def execNotifyRequest (pkt : Nat) (s : State) : Host.Outcome State Fault Refusal := .next (notifyRequest pkt s)

/-! ## Memory accepts (R93, R99, R100, R491) -/

/-- R99, R491: write bytes with the poison marks of their 64-byte units: a marked unit marks its line, and
clean bytes that cover a whole line clear its mark. -/
def writeMarked (m : Memory) (addr : Nat) (data : Bytes) (poison : BitVec 8) : Memory :=
  (List.range (ceilDiv (addr % 64 + data.length) 64)).foldl (fun n k =>
    let line := addr / 64 + k
    if bitAt poison.toNat k then memPoison n line true
    else if addr ≤ line * 64 ∧ line * 64 + 64 ≤ addr + data.length then memPoison n line false
    else n) (memWrite m addr data)

/-- HOST kind DATA_PARITY: the spec names no channel for data that memory returns, so its number is a
free value. -/
def parityFault (s : State) (addr : Nat) (h : BitVec 256) (parity : Bool) : State :=
  if parity then
    let c := freshValue s 3
    reportPkt c.2 0xF c.1.toNat 2 addr h
  else s

/-- Count an operation that met poison (R101). [log 15, DEDUCED] -/
def countPoison (s : State) (p : Bool) : State := if p then bump s 0x4530 4 else s

/-- Release an access with its packet. -/
def closeAccess (s : State) (a : Access) : State :=
  let s1 := { s with accesses := s.accesses.filter fun x => x.id != a.id }
  match a.pkt with
  | some id => dropPkt s1 id
  | none => s1

/-- R70, R100: data read for a LOAD. -/
def loadAccepted (s : State) (a : Access) (parity : Bool) : State :=
  let marks := if parity then BitVec.ofNat 8 (2 ^ ceilDiv (a.addr % 64 + a.len) 64 - 1)
    else poisonMarks s.mem (a.addr / 64 * 64) (a.addr % 64 + a.len)
  let bad := marks != 0
  let s1 := countPoison (parityFault (closeAccess s a) a.addr a.header parity) bad
  respond s1 a.header a.loop (if bad then .poisoned else .ok)
    (toUnits a.addr (memRead s.mem a.addr a.len)) marks false

/-- R93, R99: memory accepted a STORE. -/
def storeAccepted (s : State) (a : Access) : State :=
  let h := a.header
  let bad := a.poison != 0
  let s1 := { closeAccess s a with mem := writeMarked s.mem a.addr a.data a.poison }
  let s2 := countPoison s1 bad
  let s3 := if hNotify h then
      creditAccepted s2 (hNctx h) (hSrc h) (hSinst h) (ceilDiv (a.addr % 64 + a.len) 64) else s2
  let m := messageGains s3 h a.unc
  let st := if m.2.1 = .ok ∧ bad then Status.poisoned else m.2.1
  acknowledge m.1 h a.loop st m.2.2

/-- R88: an earlier access of the same strict stream is still open. -/
def accessBehind (s : State) (a : Access) : Bool :=
  (s.accesses.takeWhile fun b => b.id != a.id).any fun b => sameStream b.header a.header

/-! ## Responses at the requester (R69, R82, R85, R100) -/

/-- A stored response of one operation code for this node. -/
def responseAt (s : State) (id op : Nat) : Option Pkt :=
  match pktOf s id with
  | some x =>
    let here : Bool := match x.acct with
      | .ingress _ _ => !forHome s x
      | _ => false
    if hOp x.header = op ∧ hDst x.header = ownNode s ∧ here then some x else none
  | none => none

/-- R69: a response for another inst goes there, before any check on its tag. -/
def takeResponse (s : State) (id op : Nat) (act : State → Pkt → State) : State :=
  match responseAt s id op with
  | none => s
  | some x =>
    let s1 := dropPkt s id
    if hSinst x.header ≠ instId s then emit s1 (.cascadePacket (hSinst x.header) none x.header x.payload)
    else act s1 x

/-- R82, R100: one operation is answered with data. -/
def answerFrom (s : State) (x : Pkt) : State :=
  let h := x.header
  match matchOpen s (hTag h) (hRound h) with
  | none => bump s 0x4530 2
  | some t =>
    let st0 := Status.ofCode (hStatus h)
    let bad := st0 == .ok && hPoison h != 0
    answerTag (countPoison s bad) (hTag h) (hRound h) (if bad then .poisoned else st0) (answerData t.op x.payload)
      (hPoison h) false (hSyn h)

/-- R82. -/
def execLoadRespReceive (pkt : Nat) (s : State) : Host.Outcome State Fault Refusal :=
  .next (takeResponse s pkt opLoadResp answerFrom)

/-- R100. -/
def execAtomicRespReceive (pkt : Nat) (s : State) : Host.Outcome State Fault Refusal :=
  .next (takeResponse s pkt opAtomicResp answerFrom)

/-- R82, R85: a WRITE_ACK completes every entry its MAP names; each named entry that is not open counts once in 0x4530.02,
whose unit is responses: the spec does not say how often one WRITE_ACK counts. [log 54, DESIGN CHOICE] -/
def answerMap (s : State) (h : BitVec 256) : State :=
  (List.range 64).foldl (fun t i =>
    if bitAt (hMap h) i then
      answerTag t (hTag h / 64 * 64 + i) (hRound h) (Status.ofCode (hStatus h)) [] 0 (hUnc h) (hSyn h)
    else t) s

def execWriteAckReceive (pkt : Nat) (s : State) : Host.Outcome State Fault Refusal :=
  .next (takeResponse s pkt opWriteAck fun t x => answerMap t x.header)

end Sys2Proof.Machine
end

