-- ==== Sys2Proof/Machine/Sextant.lean ====
section
/-! DEFINITION. The Sextant units (chapter 06): frequency, open lines and atomics. The combination of
collective pieces stands with the Caller. -/

namespace Sys2Proof.Machine

/-! ## Open lines (R201, R203) -/

/-- The line of a local address. -/
def lineOf (addr : Nat) : Nat := addr / 64

/-- Whether a line lies in far-tier memory. -/
def farLine (line : Nat) : Bool := decide (2 ^ 40 ≤ line * 64)

def lineAt (u : SextUnit) (line : Nat) : Option OpenLine := u.lines.find? fun l => l.line == line

def lineOpen (u : SextUnit) (line : Nat) : Bool := (lineAt u line).isSome

/-- An atomic to the line waits in a queue. -/
def lineWanted (u : SextUnit) (line : Nat) : Bool := u.queue.any fun r => match r.work with
  | .atomic _ addr _ _ _ _ => lineOf addr == line
  | .piece .. => false

/-- R201: a unit reads and opens a line. A near-tier line is held at its memory controller, so that memory itself stands
for what the unit holds; of a far-tier line the unit has the bytes (R203). -/
def openLine (s : State) (u line : Nat) : State :=
  let l : OpenLine :=
    { line := line, since := s.clock, data := if farLine line then memRead s.mem (line * 64) 64 else [],
      bad := linePoisoned s.mem line, dirty := false }
  updSext s u fun x => { x with lines := x.lines ++ [l] }

/-- R201, R491: a unit writes a line back and releases it; a far-tier line that was changed goes back whole, and its
clean bytes clear a poison mark there. [log 27, DEDUCED] -/
def closeLine (s : State) (u line : Nat) : State :=
  match lineAt (sext s u) line with
  | none => s
  | some l =>
    let s1 := updSext s u fun x => { x with lines := x.lines.filter fun k => k.line != line }
    if l.dirty then { s1 with mem := writeMarked s1.mem (line * 64) l.data (if l.bad then 1 else 0) } else s1

/-- Every open line of a unit closes. -/
def closeLines (s : State) (u : Nat) : State :=
  ((sext s u).lines.map fun l => l.line).foldl (fun t l => closeLine t u l) s

/-- A line is written back and released once no atomic to it waits. -/
def closeIdle (s : State) (u line : Nat) : State := if lineWanted (sext s u) line then s else closeLine s u line

/-- R78, R201: some near-tier line of an access is held at its memory controller. -/
def lineHeld (s : State) (addr len : Nat) : Bool :=
  decide (addr < 2 ^ 40) && s.units.any fun u => u.2.lines.any fun l =>
    decide (lineOf addr ≤ l.line) && decide (l.line ≤ lineOf (addr + len - 1))

/-- The accesses that an open line keeps waiting. -/
def keptWaiting (s : State) (line : Nat) : List Nat :=
  if farLine line then []
  else (s.accesses.filter fun a =>
    decide (lineOf a.addr ≤ line) && decide (line ≤ lineOf (a.addr + a.len - 1))).map fun a => a.id

/-- R201: the hold limit of an open line has passed: it is written back and released. While atomics to it still wait
the case is counted; it opens again for them once the accesses that it kept waiting have been accepted. [log 27, DEDUCED] -/
def lineHoldExpiry (u line : Nat) (s : State) : State :=
  match lineAt (sext s u) line with
  | some l =>
    if passed s l.since (nsMt (reg s 0x5310 6)) then
      if lineWanted (sext s u) line then
        unitCount (updSext (closeLine s u line) u fun x => { x with
          yielding := (x.yielding.filter fun y => y.1 != line) ++ (keptWaiting s line).map fun a => (line, a) }) u 9 1
      else closeLine s u line
    else s
  | none => s

def execLineHoldExpiry (unit : Fin 16) (line : Nat) (s : State) : Host.Outcome State Fault Refusal :=
  .next (lineHoldExpiry unit line s)

/-- R201: an access that a line kept waiting goes before the line opens again. -/
def yields (s : State) (u line : Nat) : Bool :=
  (keptWaiting s line).any fun a => (sext s u).yielding.contains (line, a)

/-- Change every open line of a unit. -/
def updLines (s : State) (u : Nat) (f : OpenLine → OpenLine) : State :=
  updSext s u fun x => { x with lines := x.lines.map f }

/-- What a unit sees of local memory: the far-tier lines it holds, in place of what lies there (R202, R203). -/
def unitMem (s : State) (u : Nat) : Memory :=
  (sext s u).lines.foldl (fun m l => if l.dirty then writeMarked m (l.line * 64) l.data (if l.bad then 1 else 0) else m) s.mem

/-- R202, R203: a unit writes bytes with poison marks by line; far-tier lines that it holds take them too. -/
def unitWrite (s : State) (u : Nat) (write : Memory → Memory) (addr len : Nat) : State :=
  let m := write (unitMem s u)
  updLines { s with mem := write s.mem } u fun l =>
    if farLine l.line ∧ l.line * 64 < addr + len ∧ addr < l.line * 64 + 64 then
      { l with data := memRead m (l.line * 64) 64, bad := linePoisoned m l.line, dirty := true }
    else l

/-! ## Frequency (R205 to R208) -/

/-- 0x5300.03: the trimmed maximum of a unit, by default its fused maximum. -/
def trimmedMax (s : State) (u : Nat) : Nat :=
  (tget s.regs (regKey 0x5300 3 u)).getD (if h : u < 16 then Config.fusedMax ⟨u, h⟩ else 850)

/-- A new trimmed maximum: the run of slices that may raise it begins anew (R426). -/
def setTrimmed (s : State) (u v : Nat) : State :=
  journalNote (setRegAt (updSext s u fun x => { x with goodRun := 0 }) 0x5300 3 u v) (regKey 0x5300 3 u) v

/-- R205, R403: the frequency a unit is to run at. -/
def targetFreq (s : State) (u : Nat) : Nat :=
  let f := min (trimmedMax s u) s.power.sextCeil
  (if s.power.unitMarks.contains u then min f (reg s 0x5310 2) else f) / 25 * 25

/-- R182: the master tells the other insts of a unit. -/
def tellUnit (s : State) (u : Nat) : State :=
  if isMaster s ∧ s.cascade.present ≠ [] then
    emit s (.bus (.unitState ⟨u % 16, by omega⟩ (trimmedMax s u) (sext s u).freq (sext s u).inService (sext s u).change))
  else s

/-- R206: schedule a change of frequency where one is due; the other insts learn of it (R182). -/
def scheduleFreq (s : State) (u t : Nat) : State :=
  if (sext s u).inService ∧ targetFreq s u ≠ (sext s u).freq then tellUnit (updSext s u fun x => { x with change := some t }) u
  else s

/-- R206: from 200 ns before a scheduled change until it is done, a unit takes no request. -/
def changing (s : State) (u : Nat) : Bool :=
  match (sext s u).change with
  | some t => timed s && decide (t ≤ s.mer.count + 800)
  | none => false

/-- R206: the scheduled change: open lines close, and the unit runs at its new frequency, of which the master tells the
other insts; until they hear of it they send the unit nothing. -/
def frequencyChange (u : Nat) (s : State) : State :=
  match (sext s u).change with
  | some t =>
    if inTurn s 3 t then
      if !isMaster s then closeLines s u
      else tellUnit (updSext (closeLines s u) u fun x => { x with change := none, freq := targetFreq s u }) u
    else s
  | none => s

def execSextantFrequencyChange (unit : Fin 16) (s : State) : Host.Outcome State Fault Refusal :=
  .next (frequencyChange unit s)

/-! ## Atomics (R75 to R77, R203) -/

/-- R75: the new value of a word of `w` bits; `none` for a function that R76 refuses. -/
def atomicResult (afn w old opa opb : Nat) (post : Bool) : Option Nat :=
  let a := opa % 2 ^ w
  let b := opb % 2 ^ w
  let less := decide (toSigned w old ≤ toSigned w a)
  if afn = 0 then some ((old + a) % 2 ^ w)
  else if afn = 1 then
    if w = 32 then some (combineF .sum (BitVec.ofNat 32 old) (BitVec.ofNat 32 a)).toNat else none
  else if afn = 2 then some (old &&& a)
  else if afn = 3 then some (old ||| a)
  else if afn = 4 then some (old ^^^ a)
  else if afn = 5 then some (if less then old else a)
  else if afn = 6 then some (if less then a else old)
  else if afn = 7 then some (min old a)
  else if afn = 8 then some (max old a)
  else if afn = 9 then (if post then none else some a)
  else if afn = 10 then (if post then none else some (if old = b then a else old))
  else none

/-- Answer an atomic: the old value in a result block, or an acknowledgement. -/
def answerAtomic (s : State) (h : BitVec 256) (loop : Bool) (st : Status) (old : Bytes) : State :=
  if hOp h = opAtomicPost then acknowledge s h loop st false
  else respond s h loop st (if st = .ok then padTo 64 old else []) 0 false

/-- The word of an atomic and whether its line is poisoned, in the open line. -/
def wordIn (s : State) (l : OpenLine) (addr len : Nat) : Bytes × Bool :=
  if farLine l.line then ((l.data.drop (addr % 64)).take len, l.bad)
  else (memRead s.mem addr len, linePoisoned s.mem l.line)

/-- An atomic's new word in the open line. -/
def putWord (s : State) (u addr : Nat) (v : Bytes) : State :=
  if farLine (lineOf addr) then
    updLines s u fun l =>
      if l.line = lineOf addr then
        { l with data := l.data.take (addr % 64) ++ v ++ l.data.drop (addr % 64 + v.length), dirty := true }
      else l
  else { s with mem := memWrite s.mem addr v }

/-- One atomic at its unit, on a line that is open. -/
def runAtomic (s : State) (u : Nat) (h : BitVec 256) (addr len : Nat) (args : AtomicArgs) (bad loop : Bool)
    (l : OpenLine) : State :=
  let word := wordIn s l addr len
  let old := word.1
  if bad ∨ word.2 then answerAtomic (bump s 0x4530 4) h loop .notPerformed []
  else
    match atomicResult (args.afn.toNat % 16) (8 * len) (leNat old) args.opa.toNat args.opb.toNat
        (hOp h == opAtomicPost) with
    | none => answerAtomic s h loop .notPerformed []
    | some v =>
      let s1 := unitCount (putWord s u addr (leBytes len v)) u 6 1
      let nan := args.afn.toNat % 16 = 1 ∧ isNan (BitVec.ofNat 32 v)
      answerAtomic (if nan then unitCount s1 u 0xB 1 else s1) h loop .ok old

/-- R181, R201: the unit takes the atomic at the front of this inst's queue; with 64 lines open an atomic to another
line waits. -/
def atomicExecute (n : Nat) (s : State) : State :=
  let u := sext s n
  match u.queue with
  | ⟨.atomic h addr len args bad loop, _⟩ :: rest =>
    let line := lineOf addr
    if changing s n ∨ (!lineOpen u line ∧ (64 ≤ u.lines.length ∨ yields s n line)) then s
    else
      let s1 := if lineOpen u line then s else openLine s n line
      match lineAt (sext s1 n) line with
      | none => s
      | some l =>
        let s2 := settlePress (updSext s1 n fun x => { x with queue := rest }) n
        closeIdle (runAtomic s2 n h addr len args bad loop l) n line
  | _ => s

end Sys2Proof.Machine
end

