-- ==== Sys2Proof/Machine/Card.lean ====
section
/-! DEFINITION. Cards and figures (R147 to R160): their layout and checks, the order of the pieces of a
figure, the choice of a card, and the collective table. -/

namespace Sys2Proof.Machine

/-! ## The card (R147, R149) -/

/-- One figure. -/
structure FigDesc where
  act   : Nat
  txp   : Nat
  rxp   : Nat
  cbase : Nat
  clen  : Nat
  cidx  : Nat
  cstep : Nat
  cmod  : Nat
  repm1 : Nat
  src0  : Nat
  src   : Nat
  comb  : Nat
  out   : Nat
  outl  : Nat
  axis  : Nat
  rest  : Nat

/-- The figure that a 128-bit value holds. -/
def figDesc (v : Nat) : FigDesc :=
  { act := fld v 0 4, txp := fld v 4 4, rxp := fld v 8 4, cbase := fld v 12 12, clen := fld v 24 12,
    cidx := fld v 36 6, cstep := fld v 42 6, cmod := fld v 48 7, repm1 := fld v 55 6, src0 := fld v 61 2,
    src := fld v 63 2, comb := fld v 65 2, out := fld v 67 2, outl := fld v 69 2, axis := fld v 71 1,
    rest := fld v 72 56 }

def figAt (c : Card) (f : Nat) : FigDesc := figDesc (leAt c (64 + 16 * f) 16)

def cardTag (c : Card) : Nat := leAt c 0 2
def cardSet (c : Card) : Nat := byteAt c 2
def cardKinds (c : Card) : Nat := byteAt c 4
def cardFigs (c : Card) : Nat := byteAt c 5 % 64 + 1
def cardGroup (c : Card) : Nat := leAt c 6 2
def cardPos (c : Card) : Nat := leAt c 8 2
def cardSegs (c : Card) : Nat := leAt c 10 2
def cardSteps (c : Card) : Nat := leAt c 12 2
def cardLoad (c : Card) (p : Nat) : Nat := leAt c (16 + 2 * p) 2

/-- The figures of a card in card order. -/
def figsOf (c : Card) : List FigDesc := (List.range (cardFigs c)).map (figAt c)

/-- Whether a figure sends, and whether it takes pieces (LOCAL takes its own). -/
def hasSend (d : FigDesc) : Bool := (d.act == 1 && d.txp != 15) || d.act == 2
def hasRecv (d : FigDesc) : Bool := (d.act == 1 && d.rxp != 15) || d.act == 3 || d.act == 4

/-- R150: the chunk of a side in a repetition. -/
def ktx (d : FigDesc) (i : Nat) : Nat := (d.cidx + i * d.cstep) % max d.cmod 1
def krx (d : FigDesc) (i : Nat) : Nat := (d.cidx + (i + 1) * d.cstep) % max d.cmod 1
def chunkOf (d : FigDesc) (send : Bool) (i : Nat) : Nat := if send || d.act != 1 then ktx d i else krx d i

/-- The first segment of a side's chunk in a repetition. -/
def chunkBase (d : FigDesc) (send : Bool) (i : Nat) : Nat := d.cbase + chunkOf d send i * d.clen

/-- R149, R150: the source of the send side, and the use of a received chunk. -/
def srcOf (d : FigDesc) (i : Nat) : Nat := if i = 0 then d.src0 else d.src
def useOf (d : FigDesc) (i : Nat) : Nat := if i = d.repm1 then d.outl else d.out
def lands (d : FigDesc) (i : Nat) : Bool := d.act == 4 || bitAt (useOf d i) 0

/-- A received chunk that the next repetition sends on. -/
def passes (d : FigDesc) (i : Nat) : Bool :=
  d.act == 1 && bitAt (useOf d i) 1 && hasSend d && decide (i < d.repm1) && srcOf d (i + 1) == 2

/-- R149: no reserved encoding. -/
def figEncodingOk (barrier : Bool) (d : FigDesc) : Bool :=
  decide (1 ≤ d.act) && decide (d.act ≤ 4) && (decide (d.txp ≤ 11) || d.txp == 15) &&
    (decide (d.rxp ≤ 11) || d.rxp == 15) && (d.clen != 0 || barrier) && decide (1 ≤ d.cmod) &&
    decide (d.cmod ≤ 64) && d.src0 != 3 && d.src != 3 && d.comb != 3 && d.rest == 0 &&
    (!((d.act == 1 || d.act == 3) && d.rxp != 15) || (d.out != 0 && d.outl != 0)) && (d.act != 3 || d.comb == 0)

/-- R148, R150: every PASS has its chunk, and none is passed in the last repetition. -/
def figPassOk (d : FigDesc) : Bool :=
  let recv := hasRecv d && d.act == 1
  (!(hasSend d || d.act == 4) ||
    (d.src0 != 2 && (d.src != 2 || d.repm1 == 0 || (recv && bitAt d.out 1)))) &&
    !((hasRecv d && d.act != 4) && bitAt d.outl 1)

/-- R148: every segment that a repetition of a figure names lies below NSEG. A chunk of no segments names none, nor does
a side that the figure does not have. -/
def figSegsOk (nseg : Nat) (d : FigDesc) : Bool :=
  d.clen == 0 || (List.range (d.repm1 + 1)).all fun i =>
    (!(hasSend d || d.act == 3 || d.act == 4) || decide (chunkBase d true i + d.clen ≤ nseg)) &&
      (!(d.act == 1 && hasRecv d) || decide (chunkBase d false i + d.clen ≤ nseg))

/-- R147, R148: what the device checks of a card. -/
def cardOk (c : Bytes) : Bool :=
  let barrier := bitAt (cardKinds c) 0
  c.length == 1088 && cardTag c != 0 && cardKinds c != 0 && decide (byteAt c 5 < 64) &&
    decide (cardPos c ≤ cardGroup c) && decide (1 ≤ cardSegs c) && decide (cardSegs c ≤ 4096) && (!barrier || cardSegs c == 1) &&
    decide (1 ≤ cardSteps c) && decide (cardSteps c ≤ 4096) && leAt c 14 2 == 0 && leAt c 40 24 == 0 &&
    ((c.drop (64 + 16 * cardFigs c)).all (· == 0)) &&
    (figsOf c).all fun d => figEncodingOk barrier d && figPassOk d && figSegsOk (cardSegs c) d

/-! ## The table of collectives (R156) -/

def collOf (s : State) (c : Nat) : Option Coll := tget s.colls c
def putColl (s : State) (c : Nat) (x : Coll) : State := { s with colls := tput s.colls c x }
def updColl (s : State) (c : Nat) (f : Coll → Coll) : State :=
  match collOf s c with
  | some x => putColl s c (f x)
  | none => s

/-- The entry of a key and COLLID. -/
def collFor (s : State) (key collid : Nat) : Option Nat :=
  (s.colls.find? fun x => x.2.key.toNat == key && x.2.collid.toNat == collid).map (·.1)

/-- A free entry of the 64. -/
def freeColl (s : State) : Option Nat := (List.range 64).find? fun c => (collOf s c).isNone

def isBarrier (x : Coll) : Bool := cmdType x.bytes == 6

/-! ## COLL_START's fields (R129, R153) -/

def ccCollid (b : BitVec 512) : Nat := cmdB b 8 4
def ccGrbase (b : BitVec 512) : Nat := cmdB b 12 2
def ccGroup (b : BitVec 512) : Nat := cmdB b 14 2
def ccCset (b : BitVec 512) : Nat := cmdB b 16 1
def ccRamp (b : BitVec 512) : Nat := fld b.toNat 136 4
def ccKind (b : BitVec 512) : Nat := if cmdType b = 6 then 0 else cmdB b 18 1
def ccRop (b : BitVec 512) : Nat := cmdB b 19 1
def ccWfmt (b : BitVec 512) : Nat := cmdB b 20 1
def ccLfmt (b : BitVec 512) : Nat := cmdB b 21 1
def ccRoot (b : BitVec 512) : Nat := cmdB b 22 2
def ccCount (b : BitVec 512) : Nat := if cmdType b = 6 then 0 else cmdOff b 48

/-- R151: elements of a segment: COUNT ÷ NSEG rounded up, then to a multiple of 64. -/
def segElems (b : BitVec 512) (c : Card) : Nat := ceilDiv (ceilDiv (ccCount b) (max (cardSegs c) 1)) 64 * 64

/-! ## The order of pieces (R150, R151) -/

def placeLt (a b : Place3) : Bool :=
  decide (a.rep < b.rep) || (a.rep == b.rep && (decide (a.seg < b.seg) ||
    (a.seg == b.seg && decide (a.num < b.num))))

/-- The place itself when a piece or token lies there, else the first one after it. -/
def settleAt : Nat → FigDesc → Bool → Nat → Nat → Place3 → Place3
  | 0, d, _, _, _, _ => { rep := d.repm1 + 1, seg := 0, num := 0 }
  | n + 1, d, send, e, count, p =>
    if d.repm1 < p.rep then { rep := d.repm1 + 1, seg := 0, num := 0 }
    else if d.clen = 0 then { p with seg := 0, num := 0 }
    else if p.seg < chunkBase d send p.rep + d.clen ∧ p.seg * e < count then p
    else settleAt n d send e count { rep := p.rep + 1, seg := chunkBase d send (p.rep + 1), num := 0 }

/-- The first piece of a side. -/
def firstPlace (d : FigDesc) (send : Bool) (e count : Nat) : Place3 :=
  settleAt 65 d send e count { rep := 0, seg := chunkBase d send 0, num := 0 }

/-- The elements of a piece: the first and how many. -/
def pieceElems (w e count : Nat) (p : Place3) : Nat × Nat :=
  let start := p.seg * e + p.num * perPacket w
  (start, min (perPacket w) (min ((p.seg + 1) * e) count - start))

/-- The piece after one. -/
def nextPlace (d : FigDesc) (send : Bool) (w e count : Nat) (p : Place3) : Place3 :=
  if d.clen = 0 then settleAt 65 d send e count { p with rep := p.rep + 1 }
  else if p.seg * e + (p.num + 1) * perPacket w < min ((p.seg + 1) * e) count then { p with num := p.num + 1 }
  else settleAt 65 d send e count { rep := p.rep, seg := p.seg + 1, num := 0 }

/-- Whether a side has no piece left. -/
def sideDone (d : FigDesc) (p : Place3) : Bool := decide (d.repm1 < p.rep)

/-- The elements a side still has to move from a place. -/
def remainElems (d : FigDesc) (send : Bool) (w e count : Nat) (p : Place3) : Nat :=
  if d.clen = 0 ∨ sideDone d p then 0
  else
    let span (i : Nat) : Nat × Nat :=
      let b := chunkBase d send i
      (min (b * e) count, min ((b + d.clen) * e) count)
    let here := (span p.rep).2 - (p.seg * e + p.num * perPacket w)
    here + ((List.range (d.repm1 + 1)).map fun i =>
      if p.rep < i then (span i).2 - (span i).1 else 0).foldl (· + ·) 0

/-! ## Ports of a card -/

/-- The distinct ports the figures of a card name. -/
def cardPorts (c : Card) : List Nat :=
  twelve.filter fun p => (figsOf c).any fun d => d.txp == p || d.rxp == p

/-- R305: octets in use in a port's transmit direction, and its payload rate for 512-byte packets in 1/60
byte per ns (R21, R158). -/
def payloadRate (s : State) (p : Nat) : Nat := octetRate (port s p).stage * (port s p).txWidth * 512 / 544

/-! ## The choice of a card (R157, R158) -/

/-- The slots that hold a card, lowest first. -/
def slotsOf (s : State) : List (Nat × Card) := s.cards

/-- R157: a card is eligible for a command of a context. -/
def eligible (s : State) (c : Nat) (b : BitVec 512) (x : Card) : Bool :=
  cardSet x == ccCset b && bitAt (cardKinds x) (ccKind b) && cardGroup x == ccGroup b &&
    (translateRank s (ctx s c).partEnt (ccGrbase b + cardPos x)).toOption == some (ownNode s) &&
    (cardPorts x).all (working s)

/-- The member at a position of the group is this node. -/
def isMember (s : State) (c : Nat) (b : BitVec 512) (pos : Nat) : Bool :=
  (translateRank s (ctx s c).partEnt (ccGrbase b + pos)).toOption == some (ownNode s)

/-- A non-negative rational as numerator and denominator. -/
abbrev Ratio := Nat × Nat
def ratioLt (a b : Ratio) : Bool := decide (a.1 * b.2 < b.1 * a.2)

/-- R158: the transfer time of a card on one port in ns. Rates are in 1/60 byte per ns, the busy share in
1/65,536. -/
def portTime (s : State) (b : BitVec 512) (x : Card) (p : Nat) : Ratio :=
  let avail := max (65536 - (port s p).busy) 4096
  (ccCount b * 512 * cardLoad x p * 60 * 544 * 65536,
   perPacket (ccWfmt b) * 4096 * octetRate (port s p).stage * (port s p).txWidth * 512 * avail)

/-- R158: the estimate of a card in ns. -/
def estimate (s : State) (b : BitVec 512) (x : Card) : Ratio :=
  let t := (twelve.filter fun p => cardLoad x p != 0).foldl (fun a p =>
    let r := portTime s b x p
    if ratioLt a r then r else a) ((0, 1) : Ratio)
  (t.1 + cardSteps x * reg s 0x5000 3 * t.2, t.2)

/-- R158: the card of least estimate, ties to the lower slot; before the first chart interval has closed,
the lowest slot. -/
def chooseCard (s : State) (c : Nat) (b : BitVec 512) : Option (Nat × Card) :=
  let l := (slotsOf s).filter fun x => eligible s c b x.2
  if reg s 0xB000 9 = 0 then l.head?
  else l.foldl (fun a x =>
    match a with
    | none => some x
    | some y => if ratioLt (estimate s b x.2) (estimate s b y.2) then some x else some y) none

/-- R160: the eligible card with an announced tag, lowest slot first. -/
def announcedCard (s : State) (c : Nat) (b : BitVec 512) (tag : Nat) : Option Card :=
  ((slotsOf s).find? fun x => eligible s c b x.2 && cardTag x.2 == tag).map (·.2)

/-- R160: SHAPE of a command. -/
def shapeOf (b : BitVec 512) : Nat :=
  let x := leBytes 64 b.toNat
  crc32c ((x.drop 14).take 2 ++ (x.drop 18).take 3 ++ (x.drop 22).take 2 ++ (x.drop 48).take 8)

/-! ## Local elements (R153, R180, R183) -/

/-- Where a buffer lies: window, byte offset of its element 0, first element of the index space it holds,
and how many. Buffer 0 is S, buffer 1 is D. -/
structure Buffer where
  window : Nat
  off    : Nat
  first  : Nat
  size   : Nat

def bufferOf (b : BitVec 512) (pos : Nat) (which : Nat) : Buffer :=
  let count := ccCount b
  let part := count / (ccGroup b + 1)
  if which = 0 then
    { window := cmdB b 24 1, off := cmdOff b 32, first := if ccKind b = 3 then pos * part else 0,
      size := if ccKind b = 3 then part else count }
  else
    { window := cmdB b 25 1, off := cmdOff b 40, first := if ccKind b = 2 then pos * part else 0,
      size := if ccKind b = 2 then part else count }

/-- The byte offset of an element in the buffer's window, if the buffer holds it. -/
def elemOffset (b : BitVec 512) (x : Buffer) (e : Nat) : Option Nat :=
  if x.first ≤ e ∧ e < x.first + x.size then some (x.off + (e - x.first) * elemBytes (ccLfmt b)) else none

/-- The permission bit of a buffer: RD for S, RED for D. -/
def bufferPerm (which : Nat) : Nat := if which = 0 then 3 else 6

/-- Where elements that do not cross a 2 MiB boundary lie in local memory; the first of them decides. A piece that
straddles an end of the member's part of S or D, where COUNT/G is no multiple of a packet's elements, runs on past the part
when it begins inside and has no place when it begins outside: R153 is silent on it. [log 55, DESIGN CHOICE] -/
def elemPlace (s : State) (x : Coll) (which e : Nat) : Option Place :=
  let b := x.bytes
  let buf := bufferOf b ((x.card.map cardPos).getD 0) which
  match elemOffset b buf e with
  | none => none
  | some off =>
    match translate s x.key.toNat buf.window off 1 (bufferPerm which) true true with
    | .ok (.here p) => some p
    | _ => none

/-- R180: how many of `n` elements from `e` lie before the next 2 MiB boundary of each buffer used. -/
def runLength (x : Coll) (bufs : List Nat) (e n : Nat) : Nat :=
  let b := x.bytes
  bufs.foldl (fun m w =>
    match elemOffset b (bufferOf b ((x.card.map cardPos).getD 0) w) e with
    | some off => min m ((2097152 - off % 2097152) / elemBytes (ccLfmt b))
    | none => m) n

/-- R180: the parts of a piece: first element of the piece and how many, by 2 MiB boundaries. -/
def partsOf (x : Coll) (bufs : List Nat) (start : Nat) : Nat → Nat → Nat → List (Nat × Nat)
  | 0, _, _ => []
  | k + 1, lo, n =>
    if n = 0 then []
    else
      let m := max 1 (runLength x bufs (start + lo) n)
      (lo, m) :: partsOf x bufs start k (lo + m) (n - m)

/-- Whether a line of a byte is poisoned. -/
def bytePoisoned (m : Memory) (a : Nat) : Bool := linePoisoned m (a / 64)

/-- Elements read from one part of a memory: their values in local form, with poison marks; none where no page holds
them. -/
def readPart (s : State) (m : Memory) (x : Coll) (which e n : Nat) : Option (Bytes × List Bool) :=
  match elemPlace s x which e with
  | none => none
  | some p =>
    let k := elemBytes (ccLfmt x.bytes)
    some (memRead m p.addr (n * k), (List.range n).map fun i => bytePoisoned m (p.addr + i * k))

/-- Elements `start` to `start + n - 1` of a buffer, across its pages. -/
def readElems (s : State) (x : Coll) (which start n : Nat) : Option (Bytes × List Bool) :=
  (partsOf x [which] start 8 0 n).foldl (fun a q =>
    match a, readPart s s.mem x which (start + q.1) q.2 with
    | some u, some v => some (u.1 ++ v.1, u.2 ++ v.2)
    | _, _ => none) (some ([], []))

/-- R183: checks 1 to 5 of R47 for every page of a range of elements of a buffer. -/
def rangeCheck (s : State) (key window off len perm : Nat) : Except Status Unit :=
  ((List.range (len / 2097152 + 2)).map fun k => min (off + k * 2097152) (off + len - 1)).foldl
    (fun a o =>
      match a with
      | .error st => .error st
      | .ok () => (translate s key window o 1 perm true true).map fun _ => ()) (.ok ())

end Sys2Proof.Machine
end

