-- ==== Sys2Proof/Machine/Slice.lean ====
section
/-! DEFINITION. Lane management commands as they are sent (R333, R334), and the end of a running lane
self-test slice that must give way (R422). -/

namespace Sys2Proof.Machine

/-- A command of this side that begins now. -/
def ownLmc (cmd : Nat) (arg : BitVec 8) (now : Mt) : Lmc :=
  { cmd := cmd, arg := arg, own := true, at_ := now, acked := false, tx := none, rx := none, txDone := false, rxDone := false }

/-- Send a command, or let it wait for the present one. -/
def startLmc (s : State) (p cmd : Nat) (arg : BitVec 8) : State :=
  let x := port s p
  if x.lmc.isSome then setPort s p { x with lmcQ := x.lmcQ ++ [(cmd, arg)] }
  else emit (setPort s p { x with lmc := some (ownLmc cmd arg s.clock) }) (.lane p cmd arg 0)

/-- Whether a running slice tests a lane. -/
def sliceTests (s : State) (l : Nat) : Bool := twelve.any fun p => (port s p).slice.map (·.1) == some l

/-- The result of a slice of a lane (0x8100.02). -/
def sliceResult (s : State) (l r : Nat) : State :=
  { s with test := { s.test with results := tput s.test.results l r } }

/-- A port with no slice. -/
def endSlice (x : Port) : Port := { x with slice := none, sliceRef := none, sliceTx := none }

/-- R422: a running slice is abandoned: its position returns from SP, except when the link or the power goes. [log 44, DEDUCED] -/
def abandonSlice (s : State) (p : Nat) (cut : Bool) : State :=
  match (port s p).slice with
  | none => s
  | some (l, _) =>
    let s1 := bump (sliceResult (updPort s p endSlice) l 5) 0x8000 6
    if cut ∨ l % 9 = 8 then s1 else startLmc s1 p 2 (lane s1 l).peerLane

end Sys2Proof.Machine
end

