-- ==== Sys2Proof/Machine/Caller.lean ====
section
/-! DEFINITION. The Caller (chapter 05): the collectives' commands, notices, figures, data, Drift, aborts,
completion and release, and the combination of pieces at Sextant units (R190 to R196). -/

namespace Sys2Proof.Machine

/-! ## Notices to the peers (R159, R162, R173, R177) -/

/-- Send a notice of a collective on the distinct ports of its card that work, but for one. -/
def noticeOn (s : State) (x : Coll) (nkind time arg : Nat) (but : Option Nat) : State :=
  match x.card with
  | none => s
  | some c => ((cardPorts c).filter fun p => working s p && some p != but).foldl
      (fun t p => sendNotice t p nkind x.key.toNat x.collid.toNat (cardTag c) time arg) s

/-! ## Lag and marks (R173, R175) -/

/-- R173: a collective's lag in units of 16 ns. -/
def lagOf (x : Coll) : Nat := x.lags.foldl (fun m l => max m l.2) 0

/-- R175: the collectives whose lag is at least 10 µs. -/
def lagging (s : State) : List Coll := (s.colls.map (·.2)).filter fun x => decide (625 ≤ lagOf x)

/-- R175, R422: while a collective lags (`on`), a port that carried no traffic other than paced V2 is marked, where a slice
that runs there is abandoned; any other is not. -/
def markPort (on : Bool) (s : State) (p : Nat) : State :=
  if on ∧ (port s p).onlyPaced then
    if (port s p).marked then s else abandonSlice (updPort s p fun q => { q with marked := true }) p false
  else if (port s p).marked then updPort s p fun q => { q with marked := false }
  else s

/-- R175: the marks as the lags of all collectives in progress ask for them. -/
def remark (s : State) : State :=
  let on := lagging s != []
  (List.range 16).foldl (fun t u =>
    if (sext t u).marked == (on && (sext t u).onlyPaced) then t
    else updSext t u fun x => { x with marked := on && x.onlyPaced }) (twelve.foldl (markPort on) s)

/-! ## Drift (R172, R173, R200) -/

/-- The figure's progress. [log 41, DEDUCED] -/
def figOf (x : Coll) (card : Card) (f : Nat) : Fig :=
  let d := figAt card f
  let e := segElems x.bytes card
  (tget x.figs f).getD
    { send := firstPlace d true e (ccCount x.bytes), recv := firstPlace d false e (ccCount x.bytes),
      busy := [], told := false }

/-- The directions in which a multicast of this node leaves: ports by direction code, none where the
extent has none (R251, R252). -/
def mcastPorts (s : State) (key axis : Nat) : Option (List Nat) :=
  match entryOfKey s key with
  | none => none
  | some e =>
    let x := extentOf s (activeBank s) (routeSetOf s (activeBank s) e) axis
    let me := coord (ownNode s) axis
    let n := torusSize s axis
    if !bitAt x 15 ∨ !inExtent n (fld x 0 6) (fld x 8 6) me then none
    else some (([(0, fld x 8 6), (1, fld x 0 6)].filter fun q => q.2 != me).filterMap fun q =>
      (usableIn s key (dirCode axis q.1)).head?)

/-- Set the lag from a source and pass the notice on when the lag moves by at least 1 µs. -/
def setLag (s : State) (c src lag time : Nat) (always : Bool) : State :=
  match collOf s c with
  | none => s
  | some x =>
    let y := { x with lags := tput x.lags src lag }
    let moved := 1000 ≤ (max (lagOf x) (lagOf y) - min (lagOf x) (lagOf y)) * 16
    let s1 := remark (putColl s c y)
    match x.card with
    | some card =>
      if always ∨ moved then
        let ports := (cardPorts card).filter fun p => working s p && p != src
        bumpBy (noticeOn s1 y 2 time lag (some src)) 0x5000 9 0 ports.length
      else s1
    | none => s1

/-- The ports that the send side of a figure uses: those of its copies for MSEND (R252). -/
def sendPorts (s : State) (x : Coll) (d : FigDesc) : List Nat :=
  if !hasSend d then [] else if d.act = 2 then (mcastPorts s x.key.toNat d.axis).getD [] else [d.txp]

/-- The ports that a collective uses: those of its card, and those of the copies that its figures send. [log 41, DEDUCED] -/
def collPorts (s : State) (x : Coll) (card : Card) : List Nat :=
  twelve.filter fun p => (cardPorts card).contains p || (figsOf card).any fun d => (sendPorts s x d).contains p

/-- The bytes of payload that one side of the figures for which a condition holds still has to move. -/
def sideBytes (x : Coll) (card : Card) (send : Bool) (takes : FigDesc → Bool) : Nat :=
  let w := ccWfmt x.bytes
  ((List.range (cardFigs card)).map fun f =>
    let d := figAt card f
    let g := figOf x card f
    if takes d then
      remainElems d send w (segElems x.bytes card) (ccCount x.bytes) (if send then g.send else g.recv) * 512 / perPacket w
    else 0).foldl (· + ·) 0

/-- R172: the bytes that the figures of a collective still have to move on a port. A port moves both directions at its rate
at once, so the greater of the two counts; the pieces of an MRECV come on a port that its figure does not name and count at
none. [log 41, DEDUCED] -/
def remaining (s : State) (x : Coll) (card : Card) (p : Nat) : Nat :=
  max (sideBytes x card true fun d => (sendPorts s x d).contains p)
    (sideBytes x card false fun d => d.act == 1 && d.rxp == p)

/-- The bytes of payload its receive sides still have to take. -/
def remainingIn (x : Coll) (card : Card) : Nat := sideBytes x card false hasRecv

/-- R172: the lag in ns of moving some bytes at a new rate instead of an old one, in 1/60 byte per ns. -/
def lagNs (bytes new old : Nat) : Nat := if new = 0 ∨ old ≤ new then 0 else bytes * 60 / new - bytes * 60 / old

/-- R200: the rate at which a unit accepted this inst's pieces over the last 10 µs, in 1/60 byte per ns. -/
def unitRate (s : State) (u : Nat) : Nat :=
  (((sext s u).taken.filter fun x => decide (s.clock < x.1 + usMt 10)).map (·.2)).foldl (· + ·) 0 * 60 / 10000

/-- Whether a unit under back-pressure slows a collective. -/
def slowedAt (s : State) (c u : Nat) : Bool := (sext s u).slow.any fun l => l.contains c

/-- R172, R200: the lag that the units under back-pressure give a collective; its old rate there is that of its ports. [log 41, DEDUCED] -/
def unitLag (s : State) (c : Nat) (x : Coll) (card : Card) : Nat :=
  let old := (x.rates.map (·.2)).foldl (· + ·) 0
  (List.range 16).foldl (fun m u =>
    if slowedAt s c u then max m (lagNs (remainingIn x card) (max (unitRate s u) 1) old) else m) 0

/-- The rates that a collective's lag depends on: of its ports, and of the units that slow it. -/
def ratesNow (s : State) (c : Nat) (x : Coll) (card : Card) : List Nat :=
  (collPorts s x card).map (payloadRate s) ++
    (List.range 16).map fun u => if slowedAt s c u then unitRate s u + 1 else 0

/-- R172: originate Drift for one collective when a rate has changed. The rule does not say when old_rate was measured: it
is the rate at which the figures started. A lag below 1 µs is sent only to replace a greater one. [log 41, DEDUCED] -/
def driftColl (s : State) (c : Nat) : State :=
  match collOf s c with
  | none => s
  | some x =>
    match x.card with
    | some card =>
      let now := ratesNow s c x card
      if !x.started ∨ x.abort.isSome ∨ isBarrier x ∨ x.seen = now then s
      else
        let lag := (collPorts s x card).foldl (fun m p =>
          max m (lagNs (remaining s x card p) (payloadRate s p) (tgetD x.rates p 0))) (unitLag s c x card)
        let told := tgetD x.lags 12 0
        let units := min (ceilDiv lag 16) (2 ^ 24 - 1)
        let s1 := putColl s c { x with seen := now }
        if units = told ∨ (lag < 1000 ∧ told = 0) then s1 else setLag s1 c 12 units s.mer.count true
    | none => s

/-- Every collective in progress computes its lag again. -/
def originateDrift (s : State) : State := (s.colls.map (·.1)).foldl driftColl s

/-- Whether a collective has work at a unit. -/
def usesUnit (s : State) (c u : Nat) : Bool := (sext s u).queue.any fun r => match r.work with
  | .piece k _ _ _ _ => k == c
  | .atomic .. => false

/-- R172: where back-pressure that slowed collectives has ended, their lag is computed again. -/
def pressEnded (u : Nat) (before after : State) : State :=
  if (sext before u).slow.isSome ∧ (sext after u).slow.isNone then originateDrift after else after

/-! ## The result buffer (R178, R202) -/

/-- The bytes of S and of D that a member's command names, 0 where it names none. -/
def collBytes (s : State) (c : Nat) (b : BitVec 512) : Nat × Nat :=
  let k := elemBytes (ccLfmt b)
  let n := ccCount b
  let part := n / (ccGroup b + 1)
  let root := isMember s c b (ccRoot b)
  let kind := ccKind b
  (k * (if kind = 3 then part else if kind = 4 ∧ !root then 0 else n),
   k * (if kind = 2 then part else if kind = 5 ∧ !root then 0 else n))

/-- The local memory that holds D of a collective in which it lands: address and length of each run. -/
def resultRuns (s : State) (x : Coll) : List (Nat × Nat) :=
  let b := x.bytes
  let off := cmdOff b 40
  let len := (collBytes s x.ctx b).2
  (List.range (len / 2097152 + 2)).filterMap fun k =>
    let o := max off ((off / 2097152 + k) * 2097152)
    if off + len ≤ o then none
    else match translate s x.key.toNat (cmdB b 25 1) o 1 (bufferPerm 1) true true with
      | .ok (.here p) => some (p.addr, min (2097152 - o % 2097152) (off + len - o))
      | _ => none

/-- R202: bytes with undefined content: free values. [log 8, DESIGN CHOICE] -/
def scramble (s : State) (r : Nat × Nat) : State :=
  let v := freshValue s (8 * r.2)
  { v.2 with mem := memWrite v.2.mem r.1 (leBytes r.2 v.1.toNat) }

/-! ## End of a collective (R166, R177, R178) -/

/-- Whether a stored packet is collective data of a key and COLLID. -/
def dataOf (x : Coll) (k : Pkt) : Bool :=
  isCollective (hOp k.header) && hKey k.header == x.key.toNat &&
    hCollid k.header == x.collid.toNat

/-- R177, R253: what arrived for a collective and its figures have not taken leaves the store; of a multicast copy that
is passed on only the local claim falls. -/
def dropWaiting (s : State) (c : Nat) (x : Coll) : State :=
  let here (k : Pkt) : Bool := k.hereToo && dataOf x k
  let gone := s.pkts.filter fun k => k.acct == .staging c || (here k && k.acked)
  let s1 := gone.foldl (fun t k => dropPkt t k.id) s
  { s1 with pkts := s1.pkts.map fun k => if here k then { k with coll := none, hereToo := false } else k }

/-- Complete a collective's command and free its entry, with what is left of its data. -/
def endColl (s : State) (c : Nat) (st : Status) : State :=
  match collOf s c with
  | none => s
  | some x =>
    let s1 := remark (dropWaiting { s with colls := tdel s.colls c } c x)
    match cmdOf s1 x.ctx x.cmd with
    | some m => completeCmd s1 x.ctx m st
    | none => s1

/-- A landing of a collective that memory has not accepted. -/
def landingOpen (s : State) (c : Nat) : Bool := s.accesses.any fun a => match a.kind with
  | .land k .. => k == c
  | _ => false

/-- R178: the content of D after an abort is not defined: free values. [log 8, DESIGN CHOICE] -/
def undefinedResult (s : State) (x : Coll) : State :=
  if isBarrier x ∨ x.abort.isNone then s else (resultRuns s x).foldl scramble s

/-- R177: an aborted collective completes once its landings have been accepted. -/
def settleAbort (s : State) (c : Nat) : State :=
  match collOf s c with
  | some x => match x.abort with
    | some st => if landingOpen s c then s else endColl (undefinedResult s x) c st
    | none => s
  | none => s

/-- Whether a packet belongs to a collective's own figures. -/
def ofColl (c : Nat) (x : Pkt) : Bool := match x.coll with
  | some k => k.1 == c
  | none => false

/-- Whether a packet has been transmitted. -/
def inReplay (x : Pkt) : Bool := match x.acct with
  | .replay _ => true
  | _ => false

/-- R177: the collective's data leaves the store, also the copies that wait to go on, but for what has been transmitted;
and it leaves the units' queues, whose back-pressure follows (R199). -/
def dropCollData (s : State) (c : Nat) (y : Coll) : State :=
  let gone := s.pkts.filter fun x => (ofColl c x || dataOf y x) && !inReplay x
  let s1 := dropWaiting (gone.foldl (fun t x => dropPkt t x.id) s) c y
  let s2 := { s1 with
    pkts := s1.pkts.map fun x => if ofColl c x then { x with coll := none } else x,
    units := s1.units.map fun u => (u.1, { u.2 with queue := u.2.queue.filter fun r => match r.work with
      | .piece k _ _ _ _ => k != c
      | .atomic .. => true }) }
  (List.range 16).foldl (fun t u => pressEnded u t (settlePress t u)) s2

/-- R177, R179: abort a collective with a status; its own causes count in 0x5000.08. A BARRIER whose RELEASE
has come is not cancelled. -/
def abortColl (s : State) (c : Nat) (st : Status) (own : Bool) : State :=
  match collOf s c with
  | none => s
  | some x =>
    if x.abort.isSome ∨ (x.tRel.isSome ∧ own ∧ st = .cancelled) then s
    else
      let s1 := if own then bump s 0x5000 8 else s
      let s2 := noticeOn s1 x 3 0 st.code none
      settleAbort (dropCollData (putColl s2 c { x with abort := some st, figs := [], parts := [] }) c x) c

/-- Abort every collective for which a cause holds. -/
def abortWhere (s : State) (cause : Coll → Bool) (st : Status) : State :=
  ((s.colls.filter fun x => cause x.2).map (·.1)).foldl (fun t c => abortColl t c st true) s

/-- R176: a port of a collective's card goes down. -/
def abortPort (s : State) (p : Nat) : State :=
  abortWhere s (fun x => match x.card with
    | some c => (cardPorts c).contains p
    | none => false) .targetAbsent

/-- R176, R179: a context is disabled, or a partition table entry becomes invalid. -/
def abortContext (s : State) (c : Nat) : State := abortWhere s (fun x => x.ctx == c) .cancelled
def abortEntry (s : State) (e : Nat) : State := abortWhere s (fun x => (ctx s x.ctx).partEnt == e) .cancelled

/-- The node at the other end of a port, as its admitted HAIL names it. -/
def neighbour (s : State) (p : Nat) : NodeId :=
  match (port s p).admitted with
  | some b => BitVec.ofNat 16 (cNum b 5 2)
  | none => 0

/-- R176: the incarnation of the own node, or of a neighbour on a port of the card, changes. -/
def abortNode (s : State) (n : NodeId) : State :=
  abortWhere s (fun x => n == ownNode s || (match x.card with
    | some c => (cardPorts c).any fun p => neighbour s p == n
    | none => false)) .retired

/-! ## Acceptance (R116, R128, R129, R153 to R156, R183) -/

/-- Check 2 of R116 for BARRIER and COLL_START. -/
def collLayoutOk (s : State) (c : Nat) (b : BitVec 512) : Bool :=
  let g := ccGroup b
  let inPart := decide (ccGrbase b + g < partRcount s (ctx s c).partEnt)
  let kind := ccKind b
  if cmdType b = 6 then inPart && cmdB b 1 1 == 0 && cmdNctr b == 0 && cmdNctx b == 0
  else
    inPart && fld b.toNat 8 1 == 0 && fld b.toNat 10 2 == 0 && cmdNctx b == 0 && decide (1 ≤ kind) &&
      decide (kind ≤ 5) && (kind == 3 || kind == 4 || decide (ccRop b ≤ 2)) && wireFmtOk (ccWfmt b) &&
      localFmtOk (ccLfmt b) && sameClass (ccWfmt b) (ccLfmt b) &&
      (!(kind == 3 || kind == 4) || ccWfmt b == ccLfmt b) && decide (ccRoot b ≤ g) &&
      cmdOff b 32 % 64 == 0 && cmdOff b 40 % 64 == 0 && decide (1 ≤ ccCount b) &&
      (!(kind == 2 || kind == 3) || ccCount b % (g + 1) == 0)

/-- R116, R183: the checks of a COLL_START or BARRIER. [log 41, DEDUCED] -/
def collCheck (s : State) (c : Nat) (b : BitVec 512) : Except Status Unit :=
  if !collLayoutOk s c b then .error .oversize
  else if cmdType b = 6 then .ok ()
  else
    let n := collBytes s c b
    let key := (ctxKey s c).toNat
    if 2 ^ 36 < cmdOff b 32 + n.1 ∨ 2 ^ 36 < cmdOff b 40 + n.2 then .error .oversize
    else
      match (if n.1 = 0 then .ok () else rangeCheck s key (cmdB b 24 1) (cmdOff b 32) n.1 3) with
      | .error st => .error st
      | .ok () => if n.2 = 0 then .ok () else rangeCheck s key (cmdB b 25 1) (cmdOff b 40) n.2 6

/-- R165: what lies under a pending entry becomes the collective's. -/
def adoptData (s : State) (c key collid : Nat) : State :=
  { s with pkts := s.pkts.map fun x =>
      if x.acct == .pool && isCollective (hOp x.header) && hKey x.header == key && hCollid x.header == collid then
        { x with acct := .staging c } else x }

/-- R159: the leader chooses and announces. -/
def leadColl (s : State) (c : Nat) (x : Coll) : State :=
  match chooseCard s x.ctx x.bytes with
  | none => endColl (reportCtx s 7 0 1 x.collid.toNat .notPerformed x.ctx) c .notPerformed
  | some (slot, card) =>
    let t0 := s.mer.count + nsMt (reg s 0x5000 1)
    let y := { x with card := some card, leader := true, t0 := some t0 }
    let s1 := setReg (putColl s c y) 0x5000 0xC (cardTag card + slot * 65536)
    noticeOn s1 y 1 t0 (shapeOf x.bytes) none

/-- R160, R161: a member learns of the announcement that came on a port. On a mismatch of SHAPE the ports of its eligible
card with the announced tag carry the ABORT of R177. -/
def joinColl (s : State) (c : Nat) (x : Coll) (p : Nat) (b : BitVec 256) : State :=
  match announcedCard s x.ctx x.bytes (nCard b) with
  | none => abortColl s c .notPerformed true
  | some card =>
    if nArg b ≠ shapeOf x.bytes then abortColl (putColl s c { x with card := some card }) c .notPerformed true
    else
      let y := { x with card := some card, t0 := some (nTime b) }
      noticeOn (putColl s c y) y 1 (nTime b) (nArg b) (some p)

/-- The pending entry of a key and COLLID (R161, R165). -/
def pendFor (s : State) (key collid : Nat) : Option Pend :=
  s.pends.find? fun x => x.key.toNat == key && x.collid.toNat == collid
def dropPend (s : State) (key collid : Nat) : State :=
  { s with pends := s.pends.filter fun x => !(x.key.toNat == key && x.collid.toNat == collid) }

/-- An accepted collective takes an entry, what is pending for it, and begins to lead or to join; a FENCE accepted before
it that is not met yet holds neither its notices nor its figures, which are no operations of R127. [log 41, DEDUCED] -/
def enterColl (s : State) (c num : Nat) (b : BitVec 512) (e : Nat) : State :=
  let key := ctxKey s c
  let x : Coll := { ctx := c, cmd := num, key := key, collid := BitVec.ofNat 32 (ccCollid b), bytes := b,
                    card := none, leader := false, t0 := none, started := false, figs := [], parts := [],
                    poison := false, abort := none, lags := [], rates := [], seen := [], tRel := none, late := false, driven := false }
  let pend := pendFor s key.toNat (ccCollid b)
  let s1 := addCmd (putColl (dropPend s key.toNat (ccCollid b)) e x) c (newCmd num b (.collective e))
  let s2 := adoptData s1 e key.toNat (ccCollid b)
  if isMember s c b 0 then leadColl s2 e x
  else
    match pend with
    | some q => match q.notice with
      | some (p, blk) => joinColl s2 e x p blk
      | none => s2
    | none => s2

/-- R156: acceptance of a COLL_START or BARRIER; it stays in its slot while the table is full. [log 41, DEDUCED] -/
def acceptColl (c type : Nat) (s : State) : State :=
  match freeColl s with
  | none => s
  | some e =>
    accepting c (· == type) (fun t n b =>
      match collCheck t c b with
      | .error st => finishAtOnce t c n b st
      | .ok () =>
        if (collFor t (ctxKey t c).toNat (ccCollid b)).isSome then finishAtOnce t c n b .notPerformed
        else enterColl t c n b e) s

def execBarrier (ctx : Fin 4096) (s : State) : Host.Outcome State Fault Refusal := .next (acceptColl ctx 6 s)
def execCollStart (ctx : Fin 4096) (s : State) : Host.Outcome State Fault Refusal := .next (acceptColl ctx 7 s)

/-! ## Running figures (R150 to R152) -/

def updFig (s : State) (c f : Nat) (card : Card) (g : Fig → Fig) : State :=
  updColl s c fun x => { x with figs := tput x.figs f (g (figOf x card f)) }

/-- R166: a figure has completed: nothing left to send or take, nothing in the store. -/
def figComplete (s : State) (c : Nat) (x : Coll) (card : Card) (f : Nat) : Bool :=
  let d := figAt card f
  let g := figOf x card f
  (!hasSend d || sideDone d g.send) && (!hasRecv d || (sideDone d g.recv && g.busy.isEmpty)) &&
    !(s.pkts.any fun k => k.coll == some (c, f) && !k.hereToo)

/-- R152: the earliest 16 figures that have not completed. -/
def runningFigs (s : State) (c : Nat) (x : Coll) (card : Card) : List Nat :=
  ((List.range (cardFigs card)).filter fun f => !figComplete s c x card f).take 16

/-- Whether a segment lies in a side's chunk of a repetition. -/
def inChunk (d : FigDesc) (send : Bool) (i seg : Nat) : Bool :=
  decide (chunkBase d send i ≤ seg) && decide (seg < chunkBase d send i + d.clen)

/-- R152: what a figure still has to do to D at a piece before (figure `f0`, repetition `r0`, side: 0 sends,
1 takes) in card order; a write waits for reads and writes, a read for writes. -/
def conflict (x : Coll) (card : Card) (f0 r0 side0 seg num : Nat) (write : Bool) : Bool :=
  (List.range (f0 + 1)).any fun f =>
    let d := figAt card f
    let g := figOf x card f
    (List.range (d.repm1 + 1)).any fun i =>
      let at_ : Place3 := { rep := i, seg := seg, num := num }
      let before (side : Nat) := decide (f < f0) || decide (i < r0) || (i == r0 && decide (side < side0))
      let reads := write && before 0 && hasSend d && srcOf d i == 1 && inChunk d true i seg &&
        !placeLt at_ g.send
      let busy := g.busy.find? fun y => y.1 == at_
      let takes := before 1 && hasRecv d && inChunk d false i seg
      let open_ := !placeLt at_ g.recv
      let combs := write && takes && (d.comb == 2 || (d.act == 4 && srcOf d i == 1)) &&
        (open_ || (match busy with
          | some y => y.2.1 != 0
          | none => false))
      let writes := takes && lands d i && (open_ || busy.isSome)
      reads || combs || writes

/-! ## Sending (R58, R150, R195, R252, R271) -/

/-- R271: a collective header of this node. -/
def collHeader (s : State) (op : Nat) (x : Coll) (card : Card) (dst : NodeId) (mc axis f : Nat) (p : Place3)
    (units : Nat) (poison : BitVec 8) : BitVec 256 :=
  BitVec.ofNat 256 (pack (commonFields op 2 (activeBank s) 0 0 (incOf s dst) (incOf s (ownNode s)) dst (ownNode s)
    x.key.toNat ++
    [(13, 1, mc), (14, 1, axis), (88, 32, x.collid.toNat), (120, 16, cardTag card), (136, 6, f), (142, 6, p.rep),
     (148, 12, p.seg), (160, 30, p.num), (190, 4, units), (194, 8, poison.toNat)]))

/-- Charge one packet of a figure to a port; one whose key the port does not deliver is dropped there
(R54, R55, R56), one whose stamps are not current before that (R59). -/
def ownDrop (s : State) (who : Option Nat) (q : Nat) (h : BitVec 256) : Option State :=
  if !stampsCurrent s h then some (bump s 0x3510 (q + 1))
  else if keyStanding s q (hKey h) ≠ 1 then
    some (reportFor (bump s 0x3500 (q + 1)) 2 q 6 ((hSrc h).toNat + hKey h * 65536) who)
  else none

def sendColl (s : State) (c f q : Nat) (h : BitVec 256) (payload : Bytes) : State :=
  match ownDrop s ((collOf s c).map (·.ctx)) q h with
  | some t => t
  | none => addPkt s { newPkt s h payload (.egress q 2) none with coll := some (c, f) }

/-- The elements a send side takes from S or D, encoded (R193 to R196): payload, marks, saturations. -/
def encodeFrom (s : State) (x : Coll) (card : Card) (which : Nat) (p : Place3) :
    Option (Bytes × BitVec 8 × Nat) :=
  let w := ccWfmt x.bytes
  let l := ccLfmt x.bytes
  let r := pieceElems w (segElems x.bytes card) (ccCount x.bytes) p
  match readElems s x which r.1 r.2 with
  | none => none
  | some (bytes, marks) =>
    let e := if w = l then (padTo (64 * ceilDiv bytes.length 64) bytes, 0) else encodePayload w (unpack l r.2 bytes)
    some (e.1, unitPoison w marks, e.2)

/-- A packet ready to be passed on by a figure (R195). -/
def readyPkt (s : State) (c f : Nat) (p : Place3) : Option Pkt :=
  s.pkts.find? fun k => k.coll == some (c, f) && k.acct == .staging c && k.inPort.isNone &&
    hRep k.header == p.rep && hSeg k.header == p.seg && hPiece k.header == p.num

/-- Note poison met by a collective (R167). -/
def notePoison (s : State) (c : Nat) (bad : Bool) : State :=
  if bad then updColl s c fun x => { x with poison := true } else s

/-- Put the copies of a built packet on their ports, when all have room. -/
def placeCopies (s : State) (c f : Nat) (ports : List Nat) (h : Nat → BitVec 256) (payload : Bytes) :
    Option State :=
  if ports.all fun q => decide (footprint payload.length ≤ egressFree s q 2) then
    some (ports.foldl (fun t q => sendColl t c f q (h q) payload) s)
  else none

/-- Build and place the packet of a send side at a place; none where it has to wait. Poison decides the status of R167 in a
piece that is passed on, and not in one that is only sent from S or D. Saturations of its encoding count at
the unit of its first element's page: the spec names no unit for a send side. [log 41, DEDUCED] -/
def sendPiece (s : State) (c f : Nat) (x : Coll) (card : Card) (p : Place3) : Option State :=
  let d := figAt card f
  let src := srcOf d p.rep
  let multi := d.act == 2
  let ports := if multi then mcastPorts s x.key.toNat d.axis else some [d.txp]
  match ports with
  | none => some (bump s 0x3900 7)
  | some qs =>
    let dst (q : Nat) := if multi then ownNode s else neighbour s q
    let head (op units : Nat) (poison : BitVec 8) (q : Nat) :=
      collHeader s op x card (dst q) (bit multi) (if multi then d.axis else 0) f p units poison
    if d.clen = 0 then placeCopies s c f qs (head opCollToken 0 0) []
    else if src = 2 then
      match readyPkt s c f p with
      | none => none
      | some k =>
        match ownDrop s (some x.ctx) d.txp k.header with
        | some t => some (dropPkt t k.id)
        | none =>
          if pktCells k ≤ egressFree s d.txp 2 then
            some (notePoison (rechargePkt s { k with since := s.clock } (.egress d.txp 2)) c (pktPoison k != 0))
          else none
    else if src = 1 ∧ conflict x card f p.rep 0 p.seg p.num false then none
    else
      match encodeFrom s x card src p with
      | none => some (abortColl s c .noWindow true)
      | some (payload, poison, sat) =>
        let op := if multi then opMcast else opCollData
        match placeCopies s c f qs (head op (payload.length / 64) poison) payload with
        | none => none
        | some t =>
          let r := pieceElems (ccWfmt x.bytes) (segElems x.bytes card) (ccCount x.bytes) p
          some (match elemPlace s x src r.1 with
            | some pl => unitCount t pl.unit 0xA sat
            | none => t)

/-- One packet of a figure's send side. -/
def sendNext (c : Nat) (s : State) (f : Nat) : State :=
  match collOf s c with
  | none => s
  | some x =>
    match x.card with
    | none => s
    | some card =>
      let d := figAt card f
      let p := (figOf x card f).send
      if !x.started ∨ x.abort.isSome ∨ !hasSend d ∨ sideDone d p then s
      else
        match sendPiece s c f x card p with
        | none => s
        | some t => updFig t c f card fun g =>
            { g with send := nextPlace d true (ccWfmt x.bytes) (segElems x.bytes card) (ccCount x.bytes) p }

/-! ## Work for the Sextant units (R180) -/

/-- The buffers whose page boundaries cut a piece, and the one whose page names the unit. -/
def workBuffers (d : FigDesc) (i : Nat) : List Nat × Nat :=
  let comb := if d.comb = 0 then [] else [d.comb - 1]
  let local_ := if d.act = 4 then [srcOf d i] else []
  let land := if lands d i then [1] else []
  (comb ++ local_ ++ land, if d.act = 4 then 1 else if d.comb = 0 then 1 else d.comb - 1)

/-- The units of the parts of a piece: none where a page does not resolve. -/
def partUnits (s : State) (x : Coll) (bufs : List Nat) (main start : Nat) (parts : List (Nat × Nat)) :
    Option (List (Nat × Nat × Nat)) :=
  parts.foldr (fun q a =>
    match a, elemPlace s x main (start + q.1) with
    | some l, some p =>
      if bufs.all fun w => (elemPlace s x w (start + q.1)).isSome then some ((p.unit, q) :: l) else none
    | _, _ => none) (some [])

/-- R174: a collective that lags is paced. -/
def pacedColl (s : State) (c : Nat) : Bool :=
  match collOf s c with
  | some x => decide (0 < lagOf x)
  | none => false

/-- Put every part into its unit's queue; none where one takes no more. The spec does not say what a request takes of the
64 KiB: a piece counts its elements in LFMT, an atomic 64 bytes. [log 27, DEDUCED] -/
def enqueueParts (s : State) (c f : Nat) (p : Place3) (per : Nat) :
    List (Nat × Nat × Nat) → Option State
  | [] => some s
  | (u, lo, n) :: r =>
    if unitTakes s u (n * per) then
      enqueueParts (enqueueUnit s u { work := .piece c f p lo n, bytes := n * per } (pacedColl s c)) c f p per r
    else none

/-- What dispatching a piece comes to. -/
inductive Sent where
  | wait
  | abort (st : Status)
  | done (s : State)

/-- Send a piece's work to its units, under R152, R180, R199 and R208. -/
def dispatch (s : State) (c f : Nat) (x : Coll) (card : Card) (p : Place3) : Sent :=
  let d := figAt card f
  let r := pieceElems (ccWfmt x.bytes) (segElems x.bytes card) (ccCount x.bytes) p
  let land := lands d p.rep
  let readsD := d.comb == 2 || (d.act == 4 && srcOf d p.rep == 1)
  if (land || readsD) && conflict x card f p.rep 1 p.seg p.num land then .wait
  else
    let wb := workBuffers d p.rep
    match partUnits s x wb.1 wb.2 r.1 (partsOf x wb.1 r.1 8 0 r.2) with
    | none => .abort .noWindow
    | some us =>
      if us.any fun u => !(sext s u.1).inService then .abort .notPerformed
      else
        match enqueueParts s c f p (elemBytes (ccLfmt x.bytes)) us with
        | none => .wait
        | some t => .done (updFig t c f card fun g => { g with
            busy := g.busy ++ [(p, r.2, if land then r.2 else 0)],
            recv := nextPlace d false (ccWfmt x.bytes) (segElems x.bytes card) (ccCount x.bytes) p })

/-- One piece of a LOCAL figure. -/
def localNext (c : Nat) (s : State) (f : Nat) : State :=
  match collOf s c with
  | none => s
  | some x =>
    match x.card with
    | none => s
    | some card =>
      let d := figAt card f
      let p := (figOf x card f).recv
      if !x.started ∨ x.abort.isSome ∨ d.act ≠ 4 ∨ sideDone d p then s
      else if d.clen = 0 then updFig s c f card fun g => { g with recv := { rep := d.repm1 + 1, seg := 0, num := 0 } }
      else
        match dispatch s c f x card p with
        | .wait => s
        | .abort st => abortColl s c st true
        | .done t => t

/-- Let the running figures of a collective go on: each may send one packet and start one local piece. -/
def pumpColl (s : State) (c : Nat) : State :=
  match collOf s c with
  | none => s
  | some x =>
    match x.card with
    | none => s
    | some card =>
      if x.started ∧ x.abort.isNone then
        (runningFigs s c x card).foldl (fun t f => localNext c (sendNext c t f) f) s
      else s

/-- Every collective in progress. -/
def pumpAll (s : State) : State := (s.colls.map (·.1)).foldl pumpColl s

/-! ## Taking data (R164, R166, R195) -/

/-- R195, R231: turn a stored packet into the one that its figure passes on in the next repetition. -/
def makeReady (s : State) (c f : Nat) (x : Coll) (card : Card) (k : Pkt) (p : Place3) (payload : Bytes)
    (poison : BitVec 8) : State :=
  let d := figAt card f
  putPkt s { k with
    header := collHeader s opCollData x card (neighbour s d.txp) 0 0 f { p with rep := p.rep + 1 }
      (payload.length / 64) poison,
    payload := payload, inPort := none, coll := some (c, f) }

/-- The local side is done with a received packet (R253). -/
def releaseRaw (s : State) (k : Pkt) : State :=
  if k.hereToo ∧ !k.acked then putPkt s { k with hereToo := false, coll := none } else dropPkt s k.id

/-- The received packet of a piece that a figure has taken. -/
def rawPkt (s : State) (c f : Nat) (p : Place3) : Option Pkt :=
  s.pkts.find? fun k => k.coll == some (c, f) && k.inPort.isSome && hRep k.header == p.rep &&
    hSeg k.header == p.seg && hPiece k.header == p.num

/-- R252, R271: a multicast copy: data, or the token of a barrier's MSEND. -/
def isMulticast (h : BitVec 256) : Bool := hOp h == opMcast || (hOp h == opCollToken && hMc h)

/-- The figure that takes a packet which came on a port. -/
def takingFig (card : Card) (h : BitVec 256) (p : Nat) : Option Nat :=
  let f := hFig h
  let d := figAt card f
  if cardFigs card ≤ f ∨ hCard h ≠ cardTag card then none
  else if isMulticast h then (if d.act = 3 ∧ d.axis = hAxis h then some f else none)
  else if d.act = 1 ∧ d.rxp = p then some f else none

/-- The place a collective header names. -/
def hPlace (h : BitVec 256) : Place3 := { rep := hRep h, seg := hSeg h, num := hPiece h }

/-- Take a packet of data or a token at its figure; it waits in staging until its turn, and what no figure
of the card takes is discarded (R164, R177). -/
def takeData (s : State) (c : Nat) (k : Pkt) : State :=
  match collOf s c with
  | none => s
  | some x =>
    if x.abort.isSome then releaseRaw s k
    else
      match x.card with
      | none => s
      | some card =>
        match takingFig card k.header (k.inPort.getD 15) with
        | none => releaseRaw s k
        | some f =>
          let d := figAt card f
          let g := figOf x card f
          let p := hPlace k.header
          if !x.started ∨ !(runningFigs s c x card).contains f then s
          else if placeLt p g.recv then releaseRaw s k
          else if p ≠ g.recv ∨ sideDone d g.recv then s
          else
            let next := nextPlace d false (ccWfmt x.bytes) (segElems x.bytes card) (ccCount x.bytes) p
            let adv (t : State) := updFig t c f card fun g => { g with recv := next }
            let s1 := notePoison s c (pktPoison k != 0)
            if d.clen = 0 then pumpColl (adv (releaseRaw s1 k)) c
            else if d.comb = 0 ∧ !lands d p.rep then
              if passes d p.rep then
                pumpColl (adv (makeReady s1 c f x card k p k.payload (pktPoison k))) c
              else pumpColl (adv (releaseRaw s1 k)) c
            else
              match dispatch s1 c f x card p with
              | .wait => s
              | .abort st => abortColl s1 c st true
              | .done t => pumpColl (putPkt t { k with coll := some (c, f) }) c

/-- A packet of collective data that waits for its figure, with the entry of its collective. -/
def collAt (s : State) (id op : Nat) : Option (Nat × Pkt) :=
  match pktOf s id with
  | some k =>
    let waiting : Bool := k.coll.isNone && k.inPort.isSome && (match k.acct with
      | .staging _ => true
      | _ => k.hereToo)
    if hOp k.header = op ∧ waiting then (collFor s (hKey k.header) (hCollid k.header)).map fun c => (c, k) else none
  | none => none

def collReceive (id op : Nat) (s : State) : State :=
  match collAt s id op with
  | some (c, k) => takeData s c k
  | none => s

def execCollDataReceive (pkt : Nat) (s : State) : Host.Outcome State Fault Refusal :=
  .next (collReceive pkt opCollData s)
/-! ## Multicast (R251 to R253) -/

/-- What a node does with a multicast copy that arrived on a port: nothing, deliver it, and the port it goes
on by. The direction of travel is opposite to the arrival port's. -/
def mcastStep (s : State) (h : BitVec 256) (p : Nat) : Option (Option Nat) :=
  match entryOfKey s (hKey h) with
  | none => none
  | some e =>
    let bank := hEpoch h
    let x := extentOf s bank (routeSetOf s bank e) (hAxis h)
    let me := coord (ownNode s) (hAxis h)
    if !bitAt x 15 ∨ !inExtent (torusSize s (hAxis h)) (fld x 0 6) (fld x 8 6) me then none
    else
      let minus := if dirMinus (dirOf s p) = 0 then 1 else 0
      let last := if minus = 0 then fld x 8 6 else fld x 0 6
      if me = last then some none else some (usableIn s (hKey h) (dirCode (hAxis h) minus)).head?

/-- A multicast copy that has not been taken yet: neither passed on nor given to its figure. -/
def mcastFresh (k : Pkt) : Bool :=
  isMulticast k.header && k.coll.isNone && !k.hereToo && (match k.acct with
    | .staging _ | .pool => true
    | _ => false)

/-- R232: an earlier packet of one port, VC and key that is to leave on port q still waits. -/
def v2Behind (s : State) (k : Pkt) (q : Nat) : Bool :=
  (s.pkts.takeWhile fun y => y.id != k.id).any fun y =>
    y.inPort == k.inPort && hVc y.header == hVc k.header && hKey y.header == hKey k.header && y.inPort.isSome &&
      ((mcastFresh y && (mcastStep s y.header (y.inPort.getD 0)).join == some q) ||
        (y.acct == .ingress (y.inPort.getD 0) 2 && hDst y.header != ownNode s &&
          leewayHop s (routeReq y.header) == some q))

/-- Whether the collective that a packet of data belongs to has been aborted here. -/
def dataAborted (s : State) (h : BitVec 256) : Bool :=
  ((collFor s (hKey h) (hCollid h)).bind (collOf s)).any fun x => x.abort.isSome

/-- A multicast copy goes on, then its local receive side takes it; one of a collective that has been aborted here is
discarded (R177). A copy outside its extent, or under a FREE bank, is dropped (R249, R252, R260). One that arrives with HOPS
255 and would have to go on is dropped whole, its delivery here with it: R230 speaks only of a packet that is not delivered. [log 55, DESIGN CHOICE] -/
def mcastReceive (id : Nat) (s : State) : State :=
  match pktOf s id with
  | none => s
  | some k =>
    let take (t : State) := collReceive id (hOp k.header) t
    match mcastFresh k, k.inPort with
    | true, some p =>
      if dataAborted s k.header then dropPkt s id
      else if bankState s.tables (hEpoch k.header) = .free then bump (bump (dropPkt s id) 0x3800 9) 0x3900 7
      else
        (match mcastStep s k.header p with
         | none => bump (dropPkt s id) 0x3900 7
         | some none => take s
         | some (some q) =>
           if hHops k.header = 255 then bump (dropPkt s id) 0x3900 7
           else if !levelOk s (some p) true q then
             report (bump (bump (dropPkt s id) 0x3900 6) 0x3900 7) 2 p 8 (hSrc k.header).toNat
           else if egressFree s q 2 < pktCells k ∨ v2Behind s k q then s
           else
             take (rechargePkt s { k with
               header := hset k.header 16 8 (hHops k.header + 1), hereToo := true, since := s.clock } (.egress q 2)))
    | _, _ => if isMulticast k.header then take s else s

def execMcastDataReceive (pkt : Nat) (s : State) : Host.Outcome State Fault Refusal :=
  .next (mcastReceive pkt s)

/-- R168: a token for its figure; one of a multicast goes on like any copy (R252). -/
def tokenReceive (id : Nat) (s : State) : State :=
  match pktOf s id with
  | some k => if isMulticast k.header ∧ hOp k.header = opCollToken then mcastReceive id s else collReceive id opCollToken s
  | none => s

def execCollTokenReceive (pkt : Nat) (s : State) : Host.Outcome State Fault Refusal := .next (tokenReceive pkt s)

/-! ## Combination at a unit (R190 to R196) -/

/-- The marks of poisoned elements set on the lines of a landing; whole clean lines lose theirs (R196, R491). -/
def landMemory (m : Memory) (addr size : Nat) (bytes : Bytes) (marks : List Bool) : Memory :=
  let bad (line : Nat) : Bool := (List.range marks.length).any fun i =>
    marks[i]? == some true && (addr + i * size) / 64 == line
  (List.range (ceilDiv (addr % 64 + bytes.length) 64)).foldl (fun n k =>
    let line := addr / 64 + k
    if bad line then memPoison n line true
    else if addr ≤ line * 64 ∧ line * 64 + 64 ≤ addr + bytes.length then memPoison n line false
    else n) (memWrite m addr bytes)

/-- The elements a unit works on: what enters from the wire (or, for LOCAL, from its source), with poison
marks and the number of decode overflows. -/
def wireElems (s : State) (u c f : Nat) (x : Coll) (card : Card) (p : Place3) (lo n : Nat) :
    List (BitVec 32) × List Bool × Nat :=
  let d := figAt card f
  let w := ccWfmt x.bytes
  let r := pieceElems w (segElems x.bytes card) (ccCount x.bytes) p
  if d.act = 4 then
    match readPart s (unitMem s u) x (srcOf d p.rep) (r.1 + lo) n with
    | some (b, marks) => (unpack (ccLfmt x.bytes) n b, marks, 0)
    | none => ([], [], 0)
  else
    match rawPkt s c f p with
    | some k =>
      let es := ((decodePayload w r.2 k.payload).drop lo).take n
      (es.map (·.1), (List.range n).map fun i => elemPoison w (pktPoison k) (lo + i),
       (es.filter (·.2)).length)
    | none => ([], [], 0)

/-- R191, R192, R196: combine wire elements with local ones. -/
def combineAll (float : Bool) (r : Rop) (a b : List (BitVec 32)) : List (BitVec 32) :=
  List.zipWith (if float then combineF r else combineI r) a b

/-- R155: a figure whose last repetition has landed all its pieces is counted once. [log 41, DEDUCED] -/
def progress (s : State) (c f : Nat) (card : Card) : State :=
  match collOf s c with
  | none => s
  | some x =>
    let d := figAt card f
    let g := figOf x card f
    if cmdNtf x.bytes ∧ !isBarrier x ∧ !g.told ∧ lands d d.repm1 ∧ sideDone d g.recv ∧
        !(g.busy.any fun y => y.1.rep == d.repm1) then
      raiseCounter (updFig s c f card fun g => { g with told := true }) x.ctx (cmdNctr x.bytes)
    else s

/-- A piece with nothing left to combine or land is finished. -/
def finishPiece (s : State) (c f : Nat) (card : Card) (p : Place3) : State :=
  match collOf s c with
  | none => s
  | some x =>
    match (figOf x card f).busy.find? fun y => y.1 == p with
    | some (_, 0, 0) =>
      let s1 := updFig s c f card fun g => { g with busy := g.busy.filter fun y => y.1 != p }
      let s2 := match rawPkt s1 c f p with
        | some k => releaseRaw s1 k
        | none => s1
      progress s2 c f card
    | _ => s

/-- Count down a piece's elements: combined, or landed. -/
def countDown (s : State) (c f : Nat) (card : Card) (p : Place3) (comb land : Nat) : State :=
  updFig s c f card fun g => { g with
    busy := g.busy.map fun y => if y.1 == p then (y.1, y.2.1 - comb, y.2.2 - land) else y }

/-- The combined parts of a piece in order. -/
def gatherParts (l : List Part) : Nat → Nat → List (BitVec 32) × List Bool
  | 0, _ => ([], [])
  | k + 1, lo =>
    match l.find? fun q => q.lo == lo && q.vals != [] with
    | some q =>
      let r := gatherParts l k (lo + q.vals.length)
      (q.vals ++ r.1, q.marks ++ r.2)
    | none => ([], [])

/-- R180, R195: once every element of a piece has been through its unit, what is passed on is ready. Saturations of its
encoding count at unit `u`, which combined the last part: the spec names no unit for a piece of several. [log 41, DEDUCED] -/
def passPiece (s : State) (u c f : Nat) (card : Card) (p : Place3) : State :=
  match collOf s c with
  | none => s
  | some x =>
    let d := figAt card f
    match (figOf x card f).busy.find? fun y => y.1 == p, rawPkt s c f p with
    | some (_, 0, _), some k =>
      if !passes d p.rep then s
      else if d.comb = 0 then makeReady s c f x card k p k.payload (pktPoison k)
      else
        let w := ccWfmt x.bytes
        let mine := x.parts.filter fun q => q.figure == f && q.at_ == p
        let g := gatherParts mine 8 0
        let e := encodePayload w g.1
        let s1 := updColl s c fun y => { y with parts := y.parts.filter fun q => !(q.figure == f && q.at_ == p) }
        unitCount (makeReady s1 c f x card k p e.1 (unitPoison w g.2)) u 0xA e.2
    | _, _ => s

/-- Land the elements of a part in D: memory takes the bytes, and the access waits to be accepted. [log 41, DEDUCED] -/
def landPart (s : State) (u c f : Nat) (x : Coll) (p : Place3) (e n : Nat) (vals : List (BitVec 32))
    (marks : List Bool) : State :=
  match elemPlace s x 1 e with
  | none => abortColl s c .noWindow true
  | some pl =>
    let k := elemBytes (ccLfmt x.bytes)
    let q := packElems (ccLfmt x.bytes) vals
    let s1 := unitCount (unitWrite s u (fun m => landMemory m pl.addr k q.1 marks) pl.addr (n * k)) u 0xA q.2
    { s1 with
      accesses := s1.accesses ++ [{
        id := s1.nextId, kind := .land c f p.rep p.seg p.num n, pkt := none, header := 0, addr := pl.addr,
        len := n * k, data := [], poison := 0, loop := false, ctrl := pl.ctrl, drained := false, cells := 0, unc := false }],
      nextId := s1.nextId + 1 }

/-- One part of a piece at its unit. -/
def combinePart (s : State) (u c f : Nat) (x : Coll) (card : Card) (p : Place3) (lo n : Nat) : State :=
  let d := figAt card f
  let r := pieceElems (ccWfmt x.bytes) (segElems x.bytes card) (ccCount x.bytes) p
  let e := r.1 + lo
  let a := wireElems s u c f x card p lo n
  let float := isFloatFmt (ccWfmt x.bytes)
  let s0 := unitCount s u 0xC a.2.2
  let res : Option (State × List (BitVec 32) × List Bool) :=
    if d.comb = 0 then some (s0, a.1, a.2.1)
    else
      match readPart s (unitMem s u) x (d.comb - 1) e n with
      | none => none
      | some (b, bm) =>
        let v := combineAll float (ropOf (ccRop x.bytes)) a.1 (unpack (ccLfmt x.bytes) n b)
        let m := List.zipWith (· || ·) a.2.1 bm
        let nans := if float then (v.filter isNan).length else 0
        some (unitCount (unitCount (unitCount s0 u 5 v.length) u 0xB nans) u 0xD (m.filter id).length, v, m)
  match res with
  | none => abortColl s0 c .noWindow true
  | some (s1, v, m) =>
    let s2 := notePoison s1 c (m.any id)
    let s3 := if passes d p.rep ∧ d.comb ≠ 0 then
        updColl s2 c fun y => { y with parts := y.parts ++ [{ figure := f, at_ := p, lo := lo, vals := v, marks := m }] }
      else s2
    let s4 := if lands d p.rep then landPart s3 u c f x p e n v m else s3
    pumpColl (finishPiece (passPiece (countDown s4 c f card p n 0) u c f card p) c f card p) c

/-- R200: a unit accepted a piece of some wire bytes; what it accepted more than 10 µs ago is forgotten. -/
def noteTaken (s : State) (n bytes : Nat) : State :=
  updSext s n fun u => { u with
    taken := (s.clock, bytes) :: u.taken.takeWhile fun x => decide (s.clock < x.1 + usMt 10) }

/-- R181, R190 to R196: the unit takes the piece at the front of this inst's queue. -/
def reductionCombine (n : Nat) (s : State) : State :=
  let u := sext s n
  match u.queue with
  | ⟨.piece c f p lo k, _⟩ :: rest =>
    if changing s n then s
    else
      let s1 := settlePress (setSext s n { u with queue := rest }) n
      match collOf s1 c with
      | some x => match x.card with
        | some card => combinePart (noteTaken s1 n (k * 512 / perPacket (ccWfmt x.bytes))) n c f x card p lo k
        | none => s1
      | none => s1
  | _ => s

/-- R152, R166: memory accepted a landing. -/
def landAccepted (s : State) (a : Access) : State :=
  match a.kind with
  | .land c f rep seg num n =>
    let s1 := closeAccess s a
    match collOf s1 c with
    | none => s1
    | some x =>
      if x.abort.isSome then settleAbort s1 c
      else
        match x.card with
        | some card =>
          let p : Place3 := { rep := rep, seg := seg, num := num }
          pumpColl (finishPiece (countDown s1 c f card p 0 n) c f card p) c
        | none => s1
  | _ => s

/-! ## Memory accepts (R64, R78, R93) -/

/-- R264: memory accepted a chart packet's STORE; nothing is answered. -/
def chartAccepted (s : State) (a : Access) : State :=
  { closeAccess s a with mem := writeMarked s.mem a.addr a.data a.poison }

/-- R202: whether an access serves a load or store of a compute die: a looped-back one of the aperture, and no piece of a
command. -/
def byDie (s : State) (a : Access) : Bool :=
  a.loop && (match tget s.tracks (hTag a.header) with
    | some t => match t.op.origin with
      | .aperture .. => true
      | _ => false
    | none => false)

/-- R202: the elements of D, as an address and a length, that an access of a compute die touches while a collective
lands there. -/
def landsUnder (s : State) (a : Access) : Option (Nat × Nat) :=
  if !byDie s a then none
  else (s.colls.map (·.2)).findSome? fun x =>
    if !x.started ∨ isBarrier x ∨ x.abort.isSome then none
    else
      let k := max (elemBytes (ccLfmt x.bytes)) 1
      ((resultRuns s x).find? fun r => decide (r.1 < a.addr + a.len) && decide (a.addr < r.1 + r.2)).map fun r =>
        let lo := max r.1 (a.addr / k * k)
        (lo, min (r.1 + r.2) (ceilDiv (a.addr + a.len) k * k) - lo)

/-- R202: what a plain load or store of a compute die does: into D of a collective that lands there it has an undefined
result, and leaves the elements it touches with undefined content. -/
def plainAccess (s : State) (a : Access) (act : State → State) : State :=
  match landsUnder s a with
  | some r => scramble (act (scramble s r)) r
  | none => act s

/-- Memory accepts an outstanding access, or returns its data. A strict stream's accesses are accepted in
order, and a line held by a unit makes the access wait. -/
def memoryAccept (id : Nat) (parity : Bool) (s : State) : State :=
  match s.accesses.find? fun a => a.id == id with
  | none => s
  | some a =>
    match a.kind with
    | .load => if accessBehind s a ∨ lineHeld s a.addr a.len then s else plainAccess s a fun t => loadAccepted t a parity
    | .store => if accessBehind s a ∨ lineHeld s a.addr a.len then s else plainAccess s a fun t => storeAccepted t a
    | .chart => if lineHeld s a.addr a.len then s else chartAccepted s a
    | .land .. => landAccepted s a

/-- R47, R73, R93, R99: a memory controller accepts an access. [log 42, DEDUCED] -/
def execMemoryAccept (access : Nat) (parity : Bool) (s : State) : Host.Outcome State Fault Refusal :=
  .next (memoryAccept access parity s)

/-! ## Start and completion (R161, R166 to R171) -/

/-- R161, R176: at T0 a member starts its figures, or aborts when a port of its card does not work. -/
def collectiveStart (c : Nat) (s : State) : State :=
  match collOf s c with
  | none => s
  | some x =>
    match x.card, x.t0 with
    | some card, some t0 =>
      if x.started ∨ x.abort.isSome ∨ !inTurn s 8 t0 then s
      else if !(cardPorts card).all (working s) then abortColl s c .targetAbsent true
      else
        let rates := (collPorts s x card).map fun p => (p, payloadRate s p)
        pumpColl (putColl s c { x with started := true, rates := rates, seen := ratesNow s c x card }) c
    | _, _ => s

def execCollectiveStart (coll : Nat) (s : State) : Host.Outcome State Fault Refusal :=
  .next (collectiveStart coll s)

/-- Every figure of a collective has completed. -/
def figuresDone (s : State) (c : Nat) (x : Coll) : Bool :=
  match x.card with
  | some card => x.started && (List.range (cardFigs card)).all (figComplete s c x card)
  | none => false

/-- R166, R167. -/
def collectiveComplete (c : Nat) (s : State) : State :=
  match collOf s c with
  | some x =>
    if !isBarrier x ∧ x.abort.isNone ∧ figuresDone s c x then endColl s c (if x.poison then .poisoned else .ok) else s
  | none => s

def execCollectiveComplete (coll : Nat) (s : State) : Host.Outcome State Fault Refusal :=
  .next (collectiveComplete coll s)

/-- R481: the seven cells of a RELEASE frame. -/
def releaseCells (plan : Nat) : List Bool :=
  let bits := (List.range 4).map (bitAt plan)
  [true] ++ bits ++ [decide ((bits.filter id).length % 2 = 0), false]

/-- The Meridian time of the leading edge for die line d, none when the ramp plan leaves the die out. -/
def edgeOf (s : State) (tRel step plan d : Nat) : Option Nat :=
  let y := byteAt (blobAt s 0x5200 2 plan) (8 * instId s + d)
  if bitAt y 7 then some (releaseTime tRel step + y % 16 * 125) else none

/-- R481, R473: the level of a RELEASE line: that of the cell of its frame that passes, low between frames. -/
def lineLevel (s : State) (d : Nat) : Bool :=
  match tget s.pins.frames d with
  | some f => ((releaseCells f.1)[(s.clock - f.2) / nsMt 8]?).getD false
  | none => false

/-- R475: 64 ns have passed since the end of a line's last frame of seven cells. -/
def lineRests (s : State) (d : Nat) : Bool :=
  match tget s.pins.frames d with
  | some f => passed s f.2 (nsMt 120)
  | none => true

/-- Book a frame behind those whose leading edges fall no later. -/
def bookFrame (f : RelFrame) : List RelFrame → List RelFrame
  | [] => [f]
  | x :: r => if f.edge < x.edge then f :: x :: r else x :: bookFrame f r

def setBooked (s : State) (l : List RelFrame) : State := { s with pins := { s.pins with booked := l } }

/-- R481: the leading edge of a frame. -/
def beginFrame (s : State) (f : RelFrame) : State :=
  emit { s with pins := { s.pins with booked := s.pins.booked.erase f, frames := tput s.pins.frames f.line (f.plan, s.clock) } }
    (.release f.line f.plan s.mer.count)

/-- R360, R481: a booked frame whose leading edge is due begins; one due less than 64 ns after the frame before it waits for
the 64 ns, and is counted. -/
def frameTurn (s : State) (f : RelFrame) : State :=
  if !inTurn s 7 f.edge then s
  else if lineRests s f.line then beginFrame s f
  else if f.gap then s
  else bump (setBooked s (bookFrame { f with gap := true } (s.pins.booked.erase f))) 0x5000 7

/-- R170, R481: the frames that are due begin, in the order of their leading edges. [log 1, DESIGN CHOICE] -/
def sendFrames (s : State) : State := if awake s then s.pins.booked.foldl frameTurn s else s

/-- R170, R171: book a frame on each enabled line of this inst, at its own leading edge; all of them at the release time
when that was past as it was learned. -/
def bookLines (s : State) (tRel step plan : Nat) (late : Bool) (coll : Option Nat) : State :=
  setBooked s <| (List.range 8).foldl (fun l d =>
    match edgeOf s tRel step plan d with
    | some e => bookFrame { line := d, plan := plan, edge := if late then releaseTime tRel step else e, coll := coll, gap := false } l
    | none => l) s.pins.booked

/-- R171: a release time that is past already. -/
def releaseLate (s : State) (tRel step : Nat) : Bool := decide (releaseTime tRel step < s.mer.count)

/-- R170, R358, R360: the release time of a member has come: its frames are booked, and those that are due begin. -/
def releaseLines (s : State) (c : Nat) : State :=
  match collOf s c with
  | none => s
  | some x =>
    match x.tRel with
    | none => s
    | some t =>
      let step := promenadeStep (ownNode s)
      if x.driven ∨ !inTurn s 7 (releaseTime t step) then s
      else sendFrames (putColl (bookLines s t step (ccRamp x.bytes) x.late (some c)) c { x with driven := true })

/-- R170, R171: this member learns T_rel, and tells the other insts of its package; a release that is past counts, and
drives its lines at once. -/
def learnRelease (s : State) (c : Nat) (x : Coll) (t : Nat) : State :=
  let step := promenadeStep (ownNode s)
  let y := { x with tRel := some t, late := releaseLate s t step }
  let s1 := if y.late then releaseLines (putColl (bump s 0x5000 7) c y) c else putColl s c y
  if s.cascade.present = [] then s1 else emit s1 (.cascadeRelease t step (ccRamp x.bytes))

/-- R168: the leader's figures are complete: it sets T_rel and sends RELEASE. -/
def barrierFiguresComplete (c : Nat) (s : State) : State :=
  match collOf s c with
  | some x =>
    if isBarrier x ∧ x.leader ∧ x.tRel.isNone ∧ x.abort.isNone ∧ figuresDone s c x then
      let t := s.mer.count + nsMt (reg s 0x5000 2)
      noticeOn (learnRelease s c x t) x 4 t 0 none
    else s
  | none => s

def execBarrierFiguresComplete (coll : Nat) (s : State) : Host.Outcome State Fault Refusal :=
  .next (barrierFiguresComplete coll s)

/-- R170, R171: the release time has come: the lines are driven; after the leading edge of the last of them the BARRIER
completes, once its member's own figures are complete too, for which the spec gives no other order (R166, R168). [log 41, DEDUCED] -/
def barrierRelease (c : Nat) (s : State) : State :=
  let s1 := sendFrames (releaseLines s c)
  match collOf s1 c with
  | some y =>
    if y.driven ∧ !(s1.pins.booked.any fun f => f.coll == some c) ∧ figuresDone s1 c y then endColl s1 c .ok else s1
  | none => s1

def execBarrierRelease (coll : Nat) (s : State) : Host.Outcome State Fault Refusal :=
  .next (barrierRelease coll s)

/-- R170, R171: another inst of the package gives this one its release; one that is past counts, and drives the lines at
once. -/
def cascadeReleaseReceive (tRel step ramp : Nat) (s : State) : State :=
  let late := releaseLate s tRel step
  if awake s then sendFrames (bookLines (if late then bump s 0x5000 7 else s) tRel step ramp late none) else s

def execCascadeReleaseReceive (tRel : BitVec 64) (step : Fin 16) (ramp : Fin 16) (s : State) :
    Host.Outcome State Fault Refusal := .next (cascadeReleaseReceive tRel.toNat step ramp s)

/-! ## Received notices (R159 to R163, R173, R177) -/

/-- R163: a notice the device does not act on. -/
def noticeForeign (s : State) (p : Nat) (b : BitVec 256) : Bool :=
  nKind b == 0 || decide (4 < nKind b) || keyStanding s p (nKey b) == 0 ||
    (nKind b != 1 && (collFor s (nKey b) (nCollid b)).isNone)

/-- Act on a notice of one kind, or discard and count it. -/
def noticeOf (kind p : Nat) (b : BitVec 256) (act : State → State) (s : State) : State :=
  if nKind b ≠ kind then s
  else takeNotice s p b fun t => if noticeForeign t p b then bump t 0x5000 0xB else act t

/-- R161, R165: discard the oldest pending entry with its pieces. -/
def discardPend (s : State) : State :=
  match s.pends with
  | [] => s
  | q :: r =>
    let mine := s.pkts.filter fun x => x.acct == .pool && isCollective (hOp x.header) &&
      hKey x.header == q.key.toNat && hCollid x.header == q.collid.toNat
    let s1 := mine.foldl (fun t x => dropPkt t x.id) { s with pends := r }
    report (bumpBy (bump s1 0x5000 6) 0x5000 0xD 0 mine.length) 7 0 2 q.collid.toNat

/-- Room for one more pending entry. -/
def addPend (s : State) (q : Pend) : State :=
  let s1 := if 256 ≤ s.pends.length then discardPend s else s
  { s1 with pends := s1.pends ++ [q] }

def announceNotice (p : Nat) (b : BitVec 256) (s : State) : State :=
  match collFor s (nKey b) (nCollid b) with
  | some c =>
    match collOf s c with
    | some x => if x.card.isSome ∨ x.abort.isSome ∨ isMember s x.ctx x.bytes 0 then s else joinColl s c x p b
    | none => s
  | none =>
    match pendFor s (nKey b) (nCollid b) with
    | some q =>
      if q.notice.isSome then bump s 0x5000 0xB
      else
        let fill (y : Pend) : Pend :=
          if y.key == q.key && y.collid == q.collid then { y with notice := some (p, b) } else y
        { s with pends := s.pends.map fill }
    | none =>
      addPend s { key := BitVec.ofNat 16 (nKey b), collid := BitVec.ofNat 32 (nCollid b), notice := some (p, b) }

def execAnnounceNotice (port : Fin 12) (block : BitVec 256) (s : State) : Host.Outcome State Fault Refusal :=
  .next (noticeOf 1 port block (announceNotice port block) s)

def driftNotice (p : Nat) (b : BitVec 256) (s : State) : State :=
  match collFor s (nKey b) (nCollid b) with
  | some c => setLag (bump s 0x5000 0xA) c p (nArg b % 2 ^ 24) (nTime b) false
  | none => s

def execDriftNotice (port : Fin 12) (block : BitVec 256) (s : State) : Host.Outcome State Fault Refusal :=
  .next (noticeOf 2 port block (driftNotice port block) s)

/-- R177: an ABORT notice; a reserved code is OUTCOME_UNKNOWN (R11). -/
def abortNotice (b : BitVec 256) (s : State) : State :=
  match collFor s (nKey b) (nCollid b) with
  | some c => abortColl s c (Status.ofCode (nArg b % 16)) false
  | none => s

def execAbortNotice (port : Fin 12) (block : BitVec 256) (s : State) : Host.Outcome State Fault Refusal :=
  .next (noticeOf 3 port block (abortNotice block) s)

/-- R168: a RELEASE is taken once and floods on. -/
def releaseNotice (p : Nat) (b : BitVec 256) (s : State) : State :=
  match collFor s (nKey b) (nCollid b) with
  | some c =>
    match collOf s c with
    | some x =>
      if !isBarrier x ∨ x.tRel.isSome ∨ x.abort.isSome then s
      else noticeOn (learnRelease s c x (nTime b)) x 4 (nTime b) 0 (some p)
    | none => s
  | none => s

def execReleaseNotice (port : Fin 12) (block : BitVec 256) (s : State) : Host.Outcome State Fault Refusal :=
  .next (noticeOf 4 port block (releaseNotice port block) s)

/-- R163: a notice that is discarded and counted. -/
def callerNoticeDiscard (p : Nat) (b : BitVec 256) (s : State) : State :=
  if noticeForeign s p b then takeNotice s p b fun t => bump t 0x5000 0xB else s

def execCallerNoticeDiscard (port : Fin 12) (block : BitVec 256) (s : State) :
    Host.Outcome State Fault Refusal := .next (callerNoticeDiscard port block s)

/-! ## Drift (R172, R200) -/

/-- R200: back-pressure has lasted 10 µs: it slows the collectives with work at the unit. -/
def backpressureDrift (u : Nat) (s : State) : State :=
  match (sext s u).press with
  | none => s
  | some t =>
    if passed s t (usMt 10) then
      let before := (sext s u).slow.getD []
      let now := (s.colls.map (·.1)).filter fun c => usesUnit s c u || before.contains c
      originateDrift (updSext s u fun x => { x with slow := some now })
    else s

def execSextantBackpressureDrift (unit : Fin 16) (s : State) : Host.Outcome State Fault Refusal :=
  .next (backpressureDrift unit s)

def execReductionCombine (unit : Fin 16) (s : State) : Host.Outcome State Fault Refusal :=
  .next (pressEnded unit s (reductionCombine unit s))

def execAtomicExecute (unit : Fin 16) (s : State) : Host.Outcome State Fault Refusal :=
  .next (pressEnded unit s (atomicExecute unit s))

/-! ## Cards installed (R147, R148) -/

/-- A card slot takes a card or is emptied; what reads it in parts learns of a change (R464). -/
def setCard (s : State) (slot : Nat) (card : Option Bytes) : State :=
  let cards := match card with
    | some b => tput s.cards slot b
    | none => tdel s.cards slot
  if tget s.cards slot = card then s else changedParts { s with cards := cards } 0x5100 slot

/-- R148: a card write installs in the selected slot; a card in use keeps its old form. -/
def applyCard (slot : Nat) (card : Bytes) (s : State) : Verdict :=
  require (cardOk card) (ok (setCard s slot (some card)))

def execCardInstall (w : WriteHdr) (card : Bytes) (s : State) : Host.Outcome State Fault Refusal :=
  .next (dictWrite w 0x5100 2 card (fun t => applyCard (selected t (ownerOf w.path) 0x5100 1) card t) s)

def applyCardClear (slot : Nat) (s : State) : Verdict := ok (setCard s slot none)

def execCardSlotClear (w : WriteHdr) (slot : BitVec 8) (s : State) : Host.Outcome State Fault Refusal :=
  .next (dictWrite w 0x5100 4 [slot] (fun t => applyCardClear slot.toNat t) s)

end Sys2Proof.Machine
end

