-- ==== Sys2Proof/Machine/Transit.lean ====
section
/-! DEFINITION. Routing of the packets that wait in the store (R230, R244, R249, R250), the answers to
packets that are lost (R102, R103), and a link that goes down (R298, R299). -/

namespace Sys2Proof.Machine

/-! ## Synthetic responses (R102, R103, R250, R270) -/

/-- The header of the synthetic response for a lost request with a status, or for a lost response, whose reserved
status code is sent on as OUTCOME_UNKNOWN (R11). -/
def synHeader (h : BitVec 256) (st : Status) : BitVec 256 :=
  if isRequest (hOp h) then responseHeader h (answerOp (hOp h)) st 0 0 (singleMap h) false true (singleTag h)
  else
    let lost := hOp h ≠ opWriteAck ∧ (hStatus h = 0 ∨ hStatus h = 1)
    BitVec.ofNat 256 (pack (commonFields (hOp h) 1 0 0 0 (BitVec.ofNat 8 (hDinc h)) (BitVec.ofNat 8 (hSinc h))
      (hDst h) (hSrc h) (hKey h) ++
      [(13, 2, hSinst h), (15, 1, 1), (88, 16, hTag h), (104, 6, hRound h),
       (110, 4, if lost then 3 else (Status.ofCode (hStatus h)).code), (114, 1, bit (hUnc h)), (128, 64, hMap h)]))

/-- R217: a synthetic response reserves its cell in the response account, or waits until one can be reserved. -/
def owe (s : State) (h : BitVec 256) : State :=
  addPkt s (newPkt s h [] (if canReserve s 1 then .response else .waiting none) none)

/-- Answer for a lost packet: at once when this device issued the request, else by a synthetic response
that waits for routing. Packets of no remote operation have no answer. [log 12, DEDUCED; log 14, DEDUCED] -/
def sendSynthetic (s : State) (x : Pkt) (st : Status) : State :=
  let h := x.header
  if !isRequest (hOp h) && !isResponse (hOp h) then s
  else
    let s1 := bump s 0x4530 1
    match isRequest (hOp h), x.own with
    | true, some tag => answerTag s1 tag (hRound h) st [] 0 false true
    | true, none =>
      if hSrc h = ownNode s then emit s1 (.cascadePacket (hSinst h) none (synHeader h st) [])
      else owe s1 (synHeader h st)
    | false, _ => owe s1 (synHeader h st)

/-- R250: a packet without a route is dropped; a synthetic response is not answered again. [log 14, DEDUCED] -/
def noRouteDrop (s : State) (x : Pkt) : State :=
  let s1 := bump (dropPkt s x.id) 0x3900 7
  if isResponse (hOp x.header) && (hSyn x.header || x.inPort.isNone) then s1 else sendSynthetic s1 x .targetAbsent

/-! ## Arrival (R54, R59, R220, R222, R343) -/

/-- The account a packet is charged to on arrival, none where it finds no room: the staging account of its
collective or the pool, the incast region or its spill, the ingress share. The flag tells a spill. A stripe accepts
everything into its own ingress share (R343). [log 43, DEDUCED] -/
def arrivalAccount (s : State) (p : Nat) (h : BitVec 256) (cells : Nat) : Option (Account × Bool) :=
  let ingress := if cells ≤ ingressFree s p (hVc h) then some (Account.ingress p (hVc h)) else none
  if (stripeOf s p).isSome then ingress.map fun a => (a, false)
  else if isCollective (hOp h) then
    match collFor s (hKey h) (hCollid h) with
    | some c => if cells ≤ stagingFree s c then some (.staging c, false) else none
    | none => if cells ≤ poolFree s then some (.pool, false) else none
  else if hOp h = opStore ∧ hNotify h ∧ hDst h = ownNode s then
    if charged s .incast + cells ≤ regionCells s 4 then some (.incast, false)
    else ingress.map fun a => (a, true)
  else ingress.map fun a => (a, false)

/-- R54: whether this node delivers a packet. [log 10, DEDUCED] -/
def deliveredHere (s : State) (p : Nat) (h : BitVec 256) : Bool :=
  if isMulticast h then (mcastStep s h p).isSome else hDst h == ownNode s

/-- R165: data of an unknown collective makes a pending entry. -/
def pendData (s : State) (h : BitVec 256) (a : Account) : State :=
  if a = .pool ∧ (pendFor s (hKey h) (hCollid h)).isNone then
    addPend s { key := BitVec.ofNat 16 (hKey h), collid := BitVec.ofNat 32 (hCollid h), notice := none }
  else s

/-- An accepted packet passes R59, R54 and R231 into the store, or is dropped. -/
def takeIn (s : State) (p : Nat) (h : BitVec 256) (payload : Bytes) (a : Account) : State :=
  let standing := keyStanding s p (hKey h)
  if !stampsCurrent s h then bump s 0x3510 (p + 1)
  else if standing = 0 ∨ (standing = 2 ∧ deliveredHere s p h) then
    reportPkt (bump s 0x3500 (p + 1)) 2 p 6 ((hSrc h).toNat + hKey h * 65536) h
  else if (hOp h = opCollData ∨ hOp h = opCollToken) ∧ !isMulticast h ∧ hDst h ≠ ownNode s then bump s 0x3900 7
  else addPkt (pendData s h a) (newPkt s h payload a (some p))

/-- R343: a packet leaves the stripe that accepted it, in the order of arrival, for its home port: over the cascade bus,
or in this inst once it finds room there, as if it had arrived on that port. [log 43, DEDUCED] -/
def passHome (s : State) (x : Pkt) : State :=
  if (s.pkts.takeWhile fun y => y.id != x.id).any fun y => forHome s y && y.acct == x.acct then s
  else
    match stripeOf s (x.inPort.getD 12) with
    | none => s
    | some (i, q) =>
      if i ≠ instId s then emit (dropPkt s x.id) (.cascadePacket i (some q) x.header x.payload)
      else
        match arrivalAccount s q x.header (pktCells x) with
        | none => s
        | some (a, spill) =>
          takeIn (bumpBy (dropPkt s x.id) 0x4620 4 0 (bit spill)) q x.header x.payload a

/-! ## Packets of the cascade bus (R217, R342, R343) -/

/-- An earlier packet for the same port waits on the bus. -/
def busBehind (s : State) (x : Pkt) : Bool :=
  (s.pkts.takeWhile fun y => y.id != x.id).any fun y => y.acct == x.acct

/-- A packet that the bus brings for a port here, where it finds room: for a stripe of another inst's home port it is
charged to the stripe's egress share, on V1 while that leaves the reservations of R217 their room; for a home port it is
handled as if it had arrived there. [log 43, DEDUCED] -/
def takeBus (s : State) (p : Nat) (x : Pkt) : Option State :=
  let h := x.header
  if (stripeOf s p).isSome then
    if hVc h = 1 ∧ !canReserve s (pktCells x) then none
    else some (addPkt s (newPkt s h x.payload (.egress p (hVc h)) none))
  else (arrivalAccount s p h (pktCells x)).map fun a => takeIn (bumpBy s 0x4620 4 0 (bit a.2)) p h x.payload a.1

/-- A packet on no account yet finds room, or goes on waiting. [log 43, DEDUCED] -/
def leaveWaiting (s : State) (x : Pkt) : State :=
  match x.acct with
  | .waiting (some p) => if busBehind s x then s else (takeBus (dropPkt s x.id) p x).getD s
  | _ => if canReserve s (pktCells x) then rechargePkt s x .response else s

/-- Whether a packet is on no account yet. -/
def isWaiting (x : Pkt) : Bool := match x.acct with
  | .waiting _ => true
  | _ => false

/-! ## Routing (R230, R232, R244, R249, R259) -/

/-- A stored packet that waits to be routed: in transit, or a response built here. -/
def awaitsRoute (s : State) (x : Pkt) : Bool :=
  match x.acct with
  | .ingress _ _ => forHome s x || hDst x.header != ownNode s
  | .response => true
  | _ => false

/-- R259: a response built here is stamped with the ACTIVE bank when it is first routed. -/
def routeHeader (s : State) (x : Pkt) : BitVec 256 :=
  if x.acct = .response ∧ !x.routed then hset x.header 11 1 (activeBank s) else x.header

/-- R259: a packet with its stamp, from its first routing on. -/
def stamped (s : State) (x : Pkt) : Pkt := { x with header := routeHeader s x, routed := x.acct == .response }

/-- What routing decides for a waiting packet now. -/
def hopOf (s : State) (x : Pkt) : Hop :=
  nextHop s (routeHeader s x) (pktCells x) x.inPort (passed s x.since (nsMt (reg s 0x3900 2)))

/-- R232: an earlier packet of the same port, VC and key waits for room it could take on port q. -/
def orderBehind (s : State) (x : Pkt) (q : Nat) : Bool :=
  (s.pkts.takeWhile fun y => y.id != x.id).any fun y =>
    awaitsRoute s y && y.acct == x.acct && y.acct != .response && hKey y.header == hKey x.header &&
      (let r := routeReq y.header
       (candidates s r).contains q || preferredHop s r == some q || leewayHop s r == some q)

/-- A response for this node, in place: its own inst's, or another's over the cascade bus (R69). -/
def respondHere (s : State) (x : Pkt) : State :=
  let s1 := dropPkt s x.id
  if hSinst x.header ≠ instId s then emit s1 (.cascadePacket (hSinst x.header) none x.header x.payload)
  else if hOp x.header = opWriteAck then answerMap s1 x.header
  else answerFrom s1 x

/-- R230, R244, R342: charge a packet to the egress share it goes to, or hand it to the inst of its stripe. -/
def takeHop (s : State) (x : Pkt) (q vc : Nat) (moved : Bool) : State :=
  let h := hset (routeHeader s x) 8 3 vc
  let h1 := if x.inPort.isSome then hset h 16 8 (hHops h + 1) else h
  let y := { x with header := h1, since := s.clock }
  let s1 := match placeOn s q vc (hDet h) (pktCells x) with
    | some (.far i j) => emit (dropPkt s x.id) (.cascadePacket i (some j) h1 x.payload)
    | some (.here j) => rechargePkt s y (.egress j vc)
    | none => rechargePkt s y (.egress q vc)
  if moved then bump s1 0x3900 5 else s1

/-- Route a stored packet, or leave it waiting. -/
def routePkt (s : State) (x : Pkt) : State :=
  if isWaiting x then leaveWaiting s x
  else if !awaitsRoute s x then s
  else if forHome s x then passHome s x
  else if hDst x.header = ownNode s then respondHere s x
  else
    let wait := if x.acct = .response ∧ !x.routed then putPkt s (stamped s x) else s
    match hopOf s x with
    | .wait => wait
    | .go q vc moved => if orderBehind s x q ∨ v2Behind s x q then wait else takeHop s x q vc moved
    | .noRoute =>
      let s1 := if bankState s.tables (hEpoch (routeHeader s x)) = .free then bump s 0x3800 9 else s
      noRouteDrop s1 x
    | .level =>
      noRouteDrop (reportPkt (bump s 0x3900 6) 2 (x.inPort.getD 0) 8 (hSrc x.header).toNat x.header) x

/-- R244. -/
def packetRoute (id : Nat) (s : State) : State :=
  match pktOf s id with
  | some x => routePkt s x
  | none => s

def execPacketRoute (pkt : Nat) (s : State) : Host.Outcome State Fault Refusal := .next (packetRoute pkt s)

/-- R244: a packet has waited for the escape time. -/
def escapeTimeExpiry (id : Nat) (s : State) : State :=
  match pktOf s id with
  | some x => if passed s x.since (nsMt (reg s 0x3900 2)) then routePkt s x else s
  | none => s

def execEscapeTimeExpiry (pkt : Nat) (s : State) : Host.Outcome State Fault Refusal :=
  .next (escapeTimeExpiry pkt s)

/-! ## Link down (R298, R299) -/

/-- Whether a packet is charged to a port's egress shares. -/
def inEgress (p : Nat) (x : Pkt) : Bool := match x.acct with
  | .egress q _ => q == p
  | _ => false

/-- A multicast copy whose port went down stays for its local receive side (R253), as one that has not gone on yet: where
another port of its direction works it goes on there, with HOPS raised again. R253 does not say what follows. [log 55, DESIGN CHOICE] -/
def keepHere (s : State) (x : Pkt) : State :=
  let y := { x with hereToo := false, header := setPoison x.header (hPoison x.header ||| x.spoiled) }
  match collFor s (hKey x.header) (hCollid x.header) with
  | some c => rechargePkt s y (.staging c)
  | none => if (pendFor s (hKey x.header) (hCollid x.header)).isSome then rechargePkt s y .pool else dropPkt s x.id

/-- R102, R103, R299: one packet of a port that goes down. -/
def loseOnLink (s : State) (x : Pkt) : State :=
  if x.hereToo then keepHere s x
  else sendSynthetic (dropPkt s x.id) x (if inReplay x then .outcomeUnknown else .notPerformed)

/-- A lane that starts training again keeps its detectors, its last measurements, its flags and the precoding that it asks for
in CAP, and no equaliser setting (R340, R489); its
first bit offset is watched from now on (R311). -/
def restartLane (off : Bool) (now : Mt) (l : Nat) (x : Lane) : Lane :=
  { Lane.reset with
    slipAt := now, wantB := x.wantB, wantC := x.wantC, gen := x.gen,
    role := if x.fused || off then 5 else if l % 9 = 8 then 1 else 0,
    los := x.los, lol := x.lol, losAt := x.losAt, lolAt := x.lolAt, errors := x.errors, bits := x.bits,
    flagged := x.flagged, fused := x.fused }

/-- The lanes and octets of a port start again, with the channel types now written (R465); `off` for electrical
idle. -/
def restartLanes (s : State) (p : Nat) (off : Bool) : State :=
  let s1 := (portLanes s p).foldl (fun t l => updLane t l (restartLane off s.clock l)) s
  (portOctets s p).foldl (fun t o => updOctet t o fun x => { x with
    state := 4, channel := regAt t 0x2200 2 o, peerBad := false, rxSpare := none, txSpare := none,
    frame := 0, badWords := [], injectLeft := 0, txData := [], txFreed := false }) s1

/-- R322, R465: the settings of an attempt of a stage that starts now. -/
def attemptOf (s : State) (st : Stage) : Attempt :=
  { limit := reg s 0x2500 (st.code + 1), window := reg s 0x2500 4, ratio := reg s 0x2500 5 }

/-- The record of a port whose link is down, with its transmit epoch raised (R297). -/
def downPort (s : State) (absent : Bool) (x : Port) : Port :=
  { x with
    state := if absent then .absent else .training,
    stage := none, trying := if absent then none else some .a, tryAt := s.clock,
    attempt := attemptOf s .a, highest := reg s 0x2500 6,
    link := { Link.reset with txEpoch := (x.link.txEpoch + 1) % 4, rxEpoch := x.link.rxEpoch,
                              budget := x.link.budget, budgetAt := x.link.budgetAt },
    outcome := if absent then 4 else 0, check := 0, hailed := false, rehailed := false, admitted := none,
    txWidth := 0, rxWidth := 0, txOcts := [], rxOcts := [], peerCap := 0, peerCeil := 12, lmc := none, lmcQ := [],
    shifting := none, readyAt := none, starting := none, rxStart := none, txBlock := 0, streamFrom := 0, widening := false, waking := [], failing := [], failAt := none, stepAt := none, stopped := false, collOff := none,
    fresh := 0, delays := [], peerBeacon := none, missing := false, waitSignal := false,
    xoffAt := none, xoffTime := x.xoffTime + (match x.xoffAt with
      | some t => s.clock - t
      | none => 0) }

/-- R299 step 5: how a cause is reported; `reason` is that of a DEPART. -/
def reportDown (s : State) (p node cause reason : Nat) : State :=
  if cause = 4 then report s 2 p 1 (node + reason * 65536)
  else if cause = 5 ∨ cause = 7 ∨ cause = 8 then report s 2 p 0xF (node + cause * 65536)
  else report s 2 p 2 (node + cause * 65536)

/-- R344: a home port goes on without a stripe. -/
def degradeHome (s : State) (p : Nat) : State :=
  updPort s p fun x => { x with state := if x.state = .up then .degraded else x.state }

/-- R299, R344: declare a port's link down. The device stops for good, so that the port is ABSENT, under a power
cut warning or a power cycle request. -/
def linkDown (s0 : State) (p cause reason : Nat) : State :=
  let s := accrue s0 p
  let absent := decide (cause = 4 ∨ cause = 8 ∨ (cause = 7 ∧ (s.phase = .cut ∨ s.pins.pcycReq)))
  let node := (neighbour s p).toNat
  let gone := s.pkts.filter fun x => x.acct == .replay p || inEgress p x
  let s1 := restartLanes (updPort (abandonSlice s p true) p (downPort s absent)) p (absent && cause != 4)
  let s2 := abortPort (gone.foldl loseOnLink s1) p
  let s3 := setRegAt (bumpAt s2 0x2400 0x12 p) 0x2400 0x14 p cause
  let s4 := match ownHome s p with
    | some q => degradeHome s3 q
    | none => tellStripe s3 p
  reportDown s4 p node cause reason

end Sys2Proof.Machine
end

