-- ==== Sys2Proof/Machine/Link.lean ====
section
/-! DEFINITION. The link layer of a working port (chapter 09): transmission with key arbitration and
replay, reception with its checks, acknowledgement, XON and XOFF, and the control packets between
neighbours. -/

namespace Sys2Proof.Machine

/-! ## Replay (R280, R285, R287) -/

/-- Put a packet into a list ordered by the distance of its number from a base. -/
def insertSeq (base : Nat) (x : Pkt) : List Pkt → List Pkt
  | [] => [x]
  | y :: r => if seqDist x.seq base < seqDist y.seq base then x :: y :: r else y :: insertSeq base x r

/-- The unacknowledged packets of a port, in order of transmission. -/
def unackedPkts (s : State) (p : Nat) : List Pkt :=
  let base := (port s p).link.unacked
  (s.pkts.filter fun x => x.acct == .replay p && !x.acked).foldr (insertSeq base) []

/-- R262: the time that `n` bytes take in a direction of `w` octets, in 1/65,536 mt. -/
def wireTime (x : Port) (w n : Nat) : Nat := n * 15728640 / max (octetRate x.stage * w) 1

/-- The blocks of a data packet leave on a port (R266, R307). -/
def sendPacket (s : State) (p : Nat) (h : BitVec 256) (payload : Bytes) : State :=
  streamOut (emit s (.data p h payload)) p (leBytes 32 h.toNat ++ payload)

/-- R285: send again every packet from a number onward, with the headers it had. -/
def againData (s : State) (p n : Nat) : State :=
  let u := (port s p).link.unacked
  let again := (unackedPkts s p).filter fun x => decide (seqDist n u ≤ seqDist x.seq u)
  let s1 := bumpBy (bumpAt s 0x2400 0xE p) 0x2400 0xF p again.length
  let bytes := (again.map fun x => 32 + x.payload.length).foldl (· + ·) 0
  updPort (again.foldl (fun t x => sendPacket t p x.header x.payload) s1) p fun y => { y with
    txTime := y.txTime + wireTime y y.txWidth bytes,
    link := { y.link with
      replays := y.link.replays + 1, resend := none, timer := y.link.timer.map fun _ => s.clock } }

/-- R285, R289: REPLAY_START, and the replay; a data packet goes before them where four control packets stand already. -/
def replayData (s : State) (p n : Nat) : State :=
  if mayControl s p then againData (sendReplayStart s p 0 n) p n
  else updLink s p fun l => { l with resend := some n, waitUntil := s.clock }

/-- R288: the notices from a number onward are to be sent again, ahead of new ones. -/
def againNotices (s : State) (p n : Nat) : State :=
  let u := (port s p).link.cunacked
  let again := (port s p).link.notices.filter fun x => decide ((n + 256 - u) % 256 ≤ (x.1 + 256 - u) % 256)
  updLink (bumpBy (bumpAt s 0x2400 0xE p) 0x2400 0xF p again.length) p fun l =>
    { l with renotice := again.map (·.2), creplays := l.creplays + 1, ctimer := l.ctimer.map fun _ => s.clock }

/-- R288: REPLAY_START of KIND control, and every notice from a number onward again. -/
def replayNotices (s : State) (p n : Nat) : State :=
  drainControl 256 (updLink (againNotices s p n) p fun l => { l with restart := some n }) p

/-- R287: a replay is due: it is made, or the limit takes the link down. -/
def replayDue (s : State) (p n : Nat) : State :=
  if (port s p).link.replays = reg s 0x2410 6 then linkDown s p 1 0 else replayData s p n

def noticesDue (s : State) (p n : Nat) : State :=
  if (port s p).link.creplays = reg s 0x2410 6 then linkDown s p 1 0 else replayNotices s p n

/-! ## Acknowledgement (R253, R286) -/

/-- R212, R253: the neighbour has acknowledged a packet. -/
def acknowledged (s : State) (x : Pkt) : State :=
  if x.hereToo then putPkt s { x with acked := true } else dropPkt s x.id

/-- Whether a number names packets beyond the last sent one. -/
def beyondSent (l : Link) (d : Nat) : Bool := decide (seqDist l.next l.unacked < seqDist d l.unacked)

/-- R286: every packet below a number is acknowledged. [log 16, DEDUCED] -/
def ackData (s : State) (p d : Nat) : State :=
  let l := (port s p).link
  let k := seqDist d l.unacked
  if beyondSent l d ∨ k = 0 then s
  else
    let done := (unackedPkts s p).filter fun x => decide (seqDist x.seq l.unacked < k)
    updLink (done.foldl acknowledged s) p fun l =>
      { l with unacked := d, replays := 0, timer := if d = l.next then none else some s.clock }

/-! ## Headroom samples (R216, R291) -/

/-- The shares of a port that are short. [log 49, DEDUCED] -/
def shortShares (s : State) (p : Nat) : List Nat := (List.range 5).filter (shareShort s p)

/-- R216: report the shares that are short now and were not among those before. [log 49, DEDUCED] -/
def reportShort (s : State) (p : Nat) (before : List Nat) : State :=
  ((shortShares s p).filter fun v => !before.contains v).foldl (fun t v => report t 2 p 7 v) s

/-- R291: a change that may change H: shares newly short are reported. -/
def withHeadroom (s : State) (p : Nat) (f : State → State) : State :=
  let t := f s
  if working t p ∧ headroom t p ≠ headroom s p then refreshXoff (reportShort t p (shortShares s p)) p else t

/-- R291: the round-trip sample that TSTAMP, ECHO and TURN of a packet give, at a byte offset. [log 16, DEDUCED] -/
def takeStamp (s : State) (p : Nat) (b : BitVec 256) (at_ : Nat) : State :=
  let s1 := updLink s p fun l => { l with peerStamp := BitVec.ofNat 24 (cNum b at_ 3), peerAt := s.clock }
  let echo := cNum b (at_ + 3) 3
  if echo = 0 then s1
  else
    let rtt := (nsCount s + 2 ^ 25 - echo - cNum b (at_ + 6) 2) % 2 ^ 24
    withHeadroom s1 p fun t => updLink t p fun l => { l with rttOpen := max l.rttOpen rtt, rttAny := true }

/-- R262: the time with a VC held by the neighbour. -/
def noteXoff (s : State) (p : Nat) (mask : BitVec 5) : State :=
  updPort s p fun x =>
    let y := { x with link := { x.link with xoffRx := mask } }
    match x.xoffAt with
    | some t => if mask = 0 then { y with xoffAt := none, xoffTime := x.xoffTime + (s.clock - t) } else y
    | none => if mask = 0 then y else { y with xoffAt := some s.clock }

/-- R286, R288, R290: LINK_STATUS. -/
def linkStatusReceive (p : Nat) (b : BitVec 256) (s : State) : State :=
  takeControl s p b ctStatus fun t =>
    let t1 := ackNotices (ackData t p (cNum b 5 2)) p (cByte b 7)
    pumpAll (drainControl 64 (takeStamp (noteXoff t1 p (BitVec.ofNat 5 (cByte b 8))) p b 9) p)

def execLinkStatusReceive (port : Fin 12) (block : BitVec 256) (s : State) : Host.Outcome State Fault Refusal :=
  .next (linkStatusReceive port block s)

/-- R286: LINK_STATUS by the ack delay or the refresh time. -/
def linkStatusTimer (p : Nat) (s : State) : State := statusSoon s p

def execLinkStatusTimer (port : Fin 12) (s : State) : Host.Outcome State Fault Refusal :=
  .next (linkStatusTimer port s)

/-- R285, R288: NAK. -/
def nakReceive (p : Nat) (b : BitVec 256) (s : State) : State :=
  takeControl s p b ctNak fun t0 =>
    let t := bumpAt t0 0x2400 0xD p
    if bitAt (cByte b 5) 0 then
      (if beyondNotices (port t p).link (cByte b 7) then t else noticesDue (ackNotices t p (cByte b 7)) p (cByte b 7))
    else
      let n := cNum b 7 2
      if beyondSent (port t p).link n then t
      else
        let t1 := ackData t p n
        if cByte b 6 = 2 then
          if (port t1 p).link.replays = reg t1 0x2410 6 then linkDown t1 p 1 0
          else updLink t1 p fun l => { l with resend := some n, waitUntil := t.clock + nsMt (reg t 0x2410 7) }
        else replayDue t1 p n

def execNakReceive (port : Fin 12) (block : BitVec 256) (s : State) : Host.Outcome State Fault Refusal :=
  .next (nakReceive port block s)

/-- R284: REPLAY_START of the data stream; one of KIND control goes ahead of notices that carry their own
numbers. -/
def replayStartReceive (p : Nat) (b : BitVec 256) (s : State) : State :=
  takeControl s p b ctReplayStart fun t =>
    let n := cNum b 6 2
    let e := (port t p).link.expect
    if bitAt (cByte b 5) 0 ∨ 32768 ≤ seqDist e n then t
    else updLink t p fun l => { l with discard := false, replaying := if n = e then none else some n }

def execReplayStartReceive (port : Fin 12) (block : BitVec 256) (s : State) : Host.Outcome State Fault Refusal :=
  .next (replayStartReceive port block s)

/-- R287: the limit of the replay timer. -/
def replayLimit (s : State) (p : Nat) : Mt :=
  nsMt (max (reg s 0x2410 5) (2 * headroomRtt (port s p).link + 200))

/-- Whether a replay timer has run out. [log 7, DESIGN CHOICE] -/
def timerOut (s : State) (p : Nat) (t : Option Mt) : Bool := match t with
  | some t => passed s t (replayLimit s p)
  | none => false

/-- R287, R288: a replay timer expires. -/
def replayTimeout (p : Nat) (s : State) : State :=
  let x := port s p
  if !x.state.works ∨ x.shifting.isSome then s
  else
    let s1 := if timerOut s p x.link.timer then replayDue s p x.link.unacked else s
    if working s1 p ∧ timerOut s1 p (port s1 p).link.ctimer then noticesDue s1 p (port s1 p).link.cunacked else s1

def execReplayTimeout (port : Fin 12) (s : State) : Host.Outcome State Fault Refusal :=
  .next (replayTimeout port s)

/-- R292: no valid control packet within the silence limit, at any port whose stage is complete (R302). -/
def silenceLimitExpiry (p : Nat) (s : State) : State :=
  let x := port s p
  if stageDone x ∧ x.shifting.isNone ∧ passed s x.link.heard (usMt (reg s 0x2410 4)) then linkDown s p 2 0 else s

def execSilenceLimitExpiry (port : Fin 12) (s : State) : Host.Outcome State Fault Refusal :=
  .next (silenceLimitExpiry port s)

/-- R276, R297, R302: a block that is no control packet for the port. A sound IDLE shows that the peer is
there (R292). [log 16, DEDUCED] -/
def controlPacketDiscard (p : Nat) (b : BitVec 256) (bad : Bool) (s : State) : State :=
  let x := port s p
  if !blocksCome s p ∨ cByte b 0 < 0xC0 then s
  else if bad then (if x.link.discard then s else bumpAt s 0x2400 0x15 p)
  else if controlValid b ∧ cByte b 0 ≠ ctIdle then s
  else takeControl s p b ctIdle id

def execControlPacketDiscard (port : Fin 12) (block : BitVec 256) (badBlock : Bool) (s : State) :
    Host.Outcome State Fault Refusal := .next (controlPacketDiscard port block badBlock s)

/-! ## Transmission (R265, R268, R274, R280) -/

/-- R262: payload bytes by destination in 16 counters, by the space-saving method. -/
def hotCount (l : List (BitVec 16 × Nat)) (d : BitVec 16) (n : Nat) : List (BitVec 16 × Nat) :=
  if n = 0 then l
  else if l.any fun x => x.1 == d then l.map fun x => if x.1 == d then (d, x.2 + n) else x
  else if l.length < 16 then l ++ [(d, n)]
  else
    let least := l.foldl (fun m x => min m x.2) (l.head?.map (·.2) |>.getD 0)
    match l.findIdx? fun x => x.2 == least with
    | some i => l.set i (d, least + n)
    | none => l

/-- R174, R175: V2 of a collective that lags. -/
def pacedPkt (s : State) (x : Pkt) : Bool :=
  match x.coll with
  | some k => pacedColl s k.1
  | none => false

/-- R104: an own request counts as transmitted. [log 27, DEDUCED] -/
def markSent (s : State) (x : Pkt) : State :=
  match x.own with
  | some tag =>
    match tget s.tracks tag with
    | some t => if isRequest (hOp x.header) ∧ t.round = hRound x.header then
        { s with tracks := tput s.tracks tag { t with sent := true } } else s
    | none => s
  | none => s

/-- Send one packet of key `k`. -/
def transmitPkt (s : State) (p k : Nat) (x : Pkt) : State :=
  let l := (port s p).link
  let n := 32 + x.payload.length
  let h := sealHeader l.next l.txEpoch x.header
  let paced := pacedPkt s x
  let s1 := rechargePkt (markSent s x) { x with header := h, seq := l.next } (.replay p)
  let s2 := updPort s1 p fun y => { y with
    other := y.other || !paced, txTime := y.txTime + wireTime y y.txWidth n,
    hot := hotCount y.hot (hDst h) x.payload.length,
    link := { y.link with
      next := (l.next + 1) % 65536, timer := some (y.link.timer.getD s.clock),
      deficit := deficitsAfter s p k n, turn := k } }
  pumpAll (afterData (sendPacket s2 p h x.payload) p)

/-- R265: a chart packet is sent within the budget, or dropped. [log 17, DESIGN CHOICE] -/
def transmitChart (s : State) (p k : Nat) (x : Pkt) : State :=
  let b := chartBudget s p
  let need := (32 + x.payload.length) * 960000000
  if b < need then bump (dropPkt s x.id) 0xB000 0xB
  else transmitPkt (updLink s p fun l => { l with budget := b - need, budgetAt := s.clock }) p k x

/-- Send a data packet of key `k`. -/
def sendData (s : State) (p k : Nat) (x : Pkt) : State :=
  if hOp x.header = opChart then transmitChart s p k x else transmitPkt s p k x

/-- R280, R285: the transmitter sends its next data packet, a replay that waited for its overrun delay
before any new one. -/
def dataPacketTransmit (p : Nat) (s : State) : State :=
  let y := port s p
  let l := y.link
  if !y.state.works ∨ y.trying.isSome then s
  else
    match l.resend with
    | some n =>
      if s.clock < l.waitUntil then s
      else
        match nextData s p with
        | some (k, x) => sendData s p k x
        | none => againData (sendReplayStart s p 0 n) p n
    | none =>
      match nextData s p with
      | none => s
      | some (k, x) => sendData s p k x

def execDataPacketTransmit (port : Fin 12) (s : State) : Host.Outcome State Fault Refusal :=
  .next (dataPacketTransmit port s)

/-! ## Reception (R281 to R284, R54, R59, R220, R222, R296) -/

/-- R281: send a data NAK and enter the discard state. -/
def nakData (s : State) (p reason nvc : Nat) : State :=
  let t := sendNak s p 0 reason (port s p).link.expect nvc
  updLink t p fun l => { l with discard := true, replaying := none }

/-- R281, R286: a packet is accepted for sequencing. -/
def sequenced (s : State) (p : Nat) : State :=
  updLink s p fun l => { l with
    expect := (l.expect + 1) % 65536, owed := l.owed + 1, owedSince := if l.owed = 0 then s.clock else l.owedSince }

/-- R286: the ack threshold. -/
def ackThreshold (s : State) (p : Nat) : State := if reg s 0x2410 1 ≤ (port s p).link.owed then statusSoon s p else s

/-- R222: data that finds no staging space holds V2 of its port; where pieces of several collectives find none, the free
space of the latest one's decides when V2 goes on: R222 does not say whose. [log 55, DESIGN CHOICE] -/
def holdStaging (s : State) (p : Nat) (h : BitVec 256) : State :=
  if isCollective (hOp h) then
    refreshXoff (updPort s p fun x => { x with collOff := some ((collFor s (hKey h) (hCollid h)).getD 64) }) p
  else s

/-- R296: the header with the poison marks of this link, and how many units it marked. [log 15, DEDUCED] -/
def markUnits (h : BitVec 256) (units : Nat) (bad : List Bool) : BitVec 256 × Nat :=
  let marks := (bad ++ List.replicate 8 false).take (min units 8)
  let m := ((List.range marks.length).map fun i => if marks[i]? == some true then 2 ^ i else 0).foldl (· + ·) 0
  (setPoison h (hPoison h ||| BitVec.ofNat 8 m), (marks.filter id).length)

/-- R175: V2 of a collective that lags here. -/
def pacedHeader (s : State) (h : BitVec 256) : Bool :=
  isCollective (hOp h) && (match collFor s (hKey h) (hCollid h) with
    | some c => match collOf s c with
      | some y => decide (0 < lagOf y)
      | none => false
    | none => false)

/-- The bytes of a packet as they came. -/
def wireBytes (w : WirePacket) : Bytes := leBytes 32 w.header.toNat ++ w.payload

/-- R313, R325: the bytes of a packet with which of them are marked, and the receiver after them: at stage A by the code groups that they came
in, at stages B and C by the codewords. -/
def wireMarks (s : State) (p : Nat) (w : WirePacket) : State × List (Byte × Bool) :=
  if (port s p).stage = some .a then decodeBytes s p w.first 0 (wireBytes w) w.codes
  else (s, (wireBytes w).zipIdx.map fun x => (x.1, byteBad s p (w.first + x.2 / 32) (x.2 % 32)))

/-- A header in sequence that passed checks 1 to 3 of R281. -/
def receiveFramed (s : State) (p : Nat) (w : WirePacket) (bad : List Bool) : State :=
  let h := w.header
  match payloadUnits h with
  | none =>
    let t := bump (sequenced s p) 0x4530 3
    let kind := if isKnownOp (hOp h) then 4 else 5
    nakData (reportPkt t 2 p kind ((hSrc h).toNat + if kind = 5 then hOp h * 65536 else 0) h) p 1 0
  | some units =>
    if 4 < hVc h then
      ackThreshold (reportPkt (bump (sequenced s p) 0x4530 3) 2 p 0xE ((hSrc h).toNat + hVc h * 65536) h) p
    else
      match arrivalAccount s p h (footprint (64 * units)) with
      | none => nakData (holdStaging (bumpAt s 0x4610 0xA p) p h) p 2 (hVc h)
      | some (a, spill) =>
        let m := markUnits h units bad
        let s1 := bumpBy (sequenced s p) 0x2400 0x11 p m.2
        let s2 := updPort s1 p fun x => { x with other := x.other || !pacedHeader s h }
        let s3 := takeIn (if spill then bump s2 0x4620 4 else s2) p m.1 (padTo (64 * units) w.payload) a
        ackThreshold s3 p

/-- R281: a data header at a working port, in sequence: `badHeader` when a byte of it is marked, `bad` for each unit. -/
def receiveNew (s : State) (p : Nat) (w : WirePacket) (badHeader : Bool) (bad : List Bool) : State :=
  let l := (port s p).link
  if badHeader ∨ !headerCrcOk l.expect w.header then nakData (bumpAt s 0x2400 0xB p) p 0 0
  else if hLepoch w.header ≠ l.rxEpoch then nakData (bumpAt s 0x2400 0x10 p) p 3 0
  else receiveFramed s p w bad

/-- R262: the time of receiving a data packet counts, whatever becomes of it. -/
def noteRx (s : State) (p : Nat) (w : WirePacket) : State :=
  updPort s p fun x => { x with rxTime := x.rxTime + wireTime x x.rxWidth (32 + w.payload.length) }

/-- R281, R284: a data packet at a working port that is in step with the stream. -/
def receiveInStep (s : State) (p : Nat) (w : WirePacket) (badHeader : Bool) (bad : List Bool) : State :=
  let l := (port s p).link
  match l.replaying with
  | some n =>
    let next := (n + 1) % 65536
    ackThreshold (updLink s p fun l => { l with
      replaying := if next = l.expect then none else some next, owed := l.owed + 1,
      owedSince := if l.owed = 0 then s.clock else l.owedSince }) p
  | none => receiveNew s p w badHeader bad

end Sys2Proof.Machine
end

