-- ==== Sys2Proof/Machine/Hail.lean ====
section
/-! DEFINITION. From a completed stage to a working port and back: hailing and the plan check (R452 to
R455), link start (R301), departure (R300), and the dictionary writes that disable, enable or retrain a
port. -/

namespace Sys2Proof.Machine

/-! ## Standing of a port -/

/-- R314: the highest stage this end offers. -/
def offeredStage (s : State) (p : Nat) : Nat := min (port s p).highest s.power.stageCeil

/-- R314: the stage a port reaches. -/
def commonStage (s : State) (p : Nat) : Nat := min (offeredStage s p) ((port s p).peerCap.toNat % 4)

/-- A port trains from stage A (R340). -/
def startTraining (s : State) (p : Nat) : State :=
  restartLanes (updPort s p fun x => { x with
    state := .training, stage := none, trying := some .a, tryAt := s.clock, attempt := attemptOf s .a,
    highest := reg s 0x2500 6, outcome := 0, check := 0,
    waitSignal := false }) p false

/-! ## Sending (R277, R300, R301, R453) -/

/-- The HAIL of a port. -/
def sendHail (s : State) (p : Nat) : State :=
  let x := port s p
  let ma := s.cascade.masterAbsent
  sendControl (setPort s p { x with hailAt := s.clock }) p ctHail
    [cb 5 2 (ownNode s).toNat, (56, 4, p), (60, 2, instId s), (62, 1, bit ma), cb 8 1 (incOf s (ownNode s)).toNat,
     cb 9 4 (reg s 0x2600 4), (104, 4, portWidth s p),
     (112, 2, match x.stage with
       | some st => st.code
       | none => 0)]

/-- R301: LINK_START, with SEEN once the peer's is held, and after stage B or C its matching HAIL. -/
def sendLinkStart (s : State) (p : Nat) : State :=
  let x := port s p
  let l := x.link
  let seen := l.kept.isSome && (x.stage == some .a || x.rehailed)
  sendControl (updLink s p fun l => { l with startAt := s.clock }) p ctLinkStart
    ([(40, 2, l.txEpoch), (42, 1, bit seen)] ++ stampFields s l 6)

/-- R300: DEPART on a port that is neither ABSENT nor TRAINING. -/
def sendDepart (s : State) (p reason : Nat) : State :=
  if (port s p).state = .absent ∨ (port s p).state = .training then s
  else sendControl s p ctDepart [cb 5 1 reason, cb 6 8 (stamp s)]

/-! ## Link start (R301, R455) -/

/-- R344: no stripe of a home port is missing. -/
def stripesWork (s : State) (p : Nat) : Bool :=
  !(s.cascade.lost.any fun x => x.2 == p) && (s.cascade.stripes.all fun x => x.2.home.val != p || x.2.works) &&
    twelve.all fun q => ownHome s q != some p || working s q

/-- R13, R303, R322: the state a port enters at its stage. A power cap's stage ceiling makes no port LIMP. -/
def workState (s : State) (p : Nat) : PortState :=
  let x := port s p
  let st := match x.stage with
    | some st => st.code
    | none => 0
  let capped := !x.stopped && decide (s.power.stageCeil ≤ st)
  if st < 2 ∧ !capped then .limp
  else if (workingOctets s p).length = portWidth s p ∧ stripesWork s p then .up else .degraded

/-- R344: a home port whose stripes all work again is UP if it was DEGRADED for want of them. -/
def restoreHome (s : State) (p : Nat) : State :=
  if (port s p).state = .degraded then updPort s p fun x => { x with state := workState s p } else s

/-- R301, R216, R322: the port enters UP, DEGRADED or LIMP. Its last LINK_START tells the peer. [log 18, DEDUCED] -/
def enterWorking (s : State) (p : Nat) : State :=
  let x := port s p
  let st := workState s p
  let s1 := sendLinkStart s p
  let s2 := updPort s1 p fun y => { y with
    state := st, missing := false, beaconAt := s.clock,
    link := { y.link with heard := s.clock, statusAt := s.clock, startFrom := none } }
  let s2h := match ownHome s2 p with
    | some q => restoreHome s2 q
    | none => tellStripe s2 p
  let s3 := { s2h with tables := { s2h.tables with worked := true, retiredSelf := false } }
  let s4 := reportShort s3 p []
  let s5 := if st = .limp then report s4 2 p 3 ((neighbour s p).toNat + (match x.stage with
    | some g => g.code
    | none => 0) * 65536) else s4
  refreshXoff s5 p

/-- R301, R455: the port starts, or steps up, once it is admitted and the peer has shown SEEN. [log 18, DEDUCED] -/
def tryEnter (s : State) (p : Nat) : State :=
  let x := port s p
  if x.outcome ≠ 1 ∨ x.state.works ∨ !x.link.seenByPeer ∨ !stageDone x then s
  else if x.stage = some .a ∧ 0 < commonStage s p ∧ !x.stopped then
    (if x.stepAt.isNone then setPort s p { x with stepAt := some s.clock, link := { x.link with startFrom := none } }
     else s)
  else if x.link.rttAny then enterWorking s p
  else s

/-- R297, R301: LINK_START from the peer is kept, its epoch taken, and both expected numbers begin again. [log 18, DEDUCED] -/
def linkStartReceive (p : Nat) (b : BitVec 256) (s : State) : State :=
  takeControl s p b ctLinkStart fun t =>
    let t1 := updLink t p fun l => { l with
      kept := some b, rxEpoch := hf b 40 2, expect := 0, cexpect := 0,
      seenByPeer := l.seenByPeer || bitAt (cByte b 5) 2 }
    tryEnter (takeStamp t1 p b 6) p

def execLinkStartReceive (port : Fin 12) (block : BitVec 256) (s : State) : Host.Outcome State Fault Refusal :=
  .next (linkStartReceive port block s)

/-- R301: LINK_START every 1 µs from admission until the port works. -/
def linkStartRepeat (p : Nat) (s : State) : State :=
  let x := port s p
  if stageDone x ∧ x.outcome = 1 ∧ !x.state.works ∧ passed s x.link.startAt (usMt 1) then sendLinkStart s p else s

def execLinkStartRepeat (port : Fin 12) (s : State) : Host.Outcome State Fault Refusal :=
  .next (linkStartRepeat port s)

/-- R301: the link start limit. [log 7, DESIGN CHOICE] -/
def linkStartTimeout (p : Nat) (s : State) : State :=
  let x := port s p
  match x.link.startFrom with
  | some t => if !x.state.works ∧ passed s t (usMt (reg s 0x2410 9)) then linkDown s p 6 0 else s
  | none => s

def execLinkStartTimeout (port : Fin 12) (s : State) : Host.Outcome State Fault Refusal :=
  .next (linkStartTimeout port s)

/-! ## The plan check (R452 to R455) -/

/-- A port's plan entry, and its fields. -/
def planEntry (s : State) (p : Nat) : Nat := (tgetD s.tables.plan p 0).toNat
def planned (s : State) (p : Nat) : Bool := bitAt (planEntry s p) 4

/-- The fields of a HAIL. -/
def hailNode (b : BitVec 256) : NodeId := BitVec.ofNat 16 (cNum b 5 2)

/-- Whether a plan entry names the sender of a HAIL: check 5 of R453. -/
def planNames (e : Nat) (b : BitVec 256) : Bool :=
  cNum b 5 2 == fld e 8 16 && hf b 56 4 == fld e 24 4 && hf b 60 2 == fld e 28 2

/-- R453: the first check that applies, 0 for none. -/
def hailCheck (s : State) (p : Nat) (b : BitVec 256) : Nat :=
  let e := planEntry s p
  let inc := (incOf s (BitVec.ofNat 16 (fld e 8 16))).toNat
  if reg s 0x2600 4 = 0 ∨ !planned s p then 1
  else if hf b 62 1 = 1 ∨ s.cascade.masterAbsent then 2
  else if incOf s (ownNode s) = 0 then 3
  else if cNum b 9 4 ≠ reg s 0x2600 4 then 4
  else if !planNames e b then 5
  else if cByte b 8 = 0 ∨ cByte b 8 ≠ inc then 6
  else if hf b 104 4 ≠ portWidth s p then 7
  else 0

/-- The outcome code of 0x2600.05 for a check. -/
def outcomeOf (check : Nat) : Nat := if check = 0 then 1 else if check = 1 then 2 else 3

/-- The ten bytes of a HAIL that the dictionary and the Logbook show. -/
def hailBytes (b : BitVec 256) : Bytes := leBytes 10 (cNum b 5 10)

/-- R433: the HAIL record of a decision. [log 19, DEDUCED] -/
def logHail (s : State) (p outcome check : Nat) (b : BitVec 256) : State :=
  writeLog s 0xB 2 (leBytes 1 p ++ leBytes 1 (outcome + check * 16) ++ hailBytes b)

/-- R453, R454: decide a port's standing by a HAIL. A decision made again is reported only when it differs
from the last one reported. [log 19, DEDUCED] -/
def decideHail (s : State) (p : Nat) (b : BitVec 256) : State :=
  let x := port s p
  let check := hailCheck s p b
  let oc := outcomeOf check
  let again := x.outcome ≠ 0
  let s1 := logHail s p oc check b
  let tell := oc ≠ 1 ∧ !(again && x.reported == some (oc, check))
  let s2 := if tell then report s1 2 p (if oc = 2 then 0xB else 0xC) (hailNode b).toNat else s1
  let y := { port s2 p with
    outcome := oc, check := check, hail := some b, hailed := true,
    reported := if tell then some (oc, check) else x.reported }
  if oc = 1 then
    let z := { y with state := .training, admitted := some b, link := { y.link with startFrom := some s.clock } }
    tryEnter (sendLinkStart (setPort s2 p z) p) p
  else setPort s2 p { y with state := if oc = 2 then .extra else .quarantined, hailAt := s.clock }

/-- R454: a port that was not admitted is decided again. [log 19, DEDUCED] -/
def decideAgain (s : State) (p : Nat) : State :=
  let x := port s p
  match x.hail with
  | some b => if x.state = .extra ∨ x.state = .quarantined then decideHail s p b else s
  | none => s

/-- R453 to R455: HAIL. [log 19, DEDUCED] -/
def hailReceive (p : Nat) (b : BitVec 256) (s : State) : State :=
  takeControl s p b ctHail fun t =>
    let x := port t p
    let note := setPort t p { x with hail := some b, hailed := true }
    if x.state.works ∨ (x.stopped ∧ x.stage = some .a) then t
    else if x.stage = some .a ∧ x.trying.isNone then
      if !compassUp t then (if x.outcome = 0 then note else t)
      else if x.outcome = 0 then decideHail t p b
      else if x.state = .training then note
      else if x.hail.map hailBytes = some (hailBytes b) then t
      else decideHail t p b
    else if x.admitted.map (fun a => cNum a 5 9) = some (cNum b 5 9) then setPort t p { x with hail := some b, rehailed := true }
    else linkDown t p 6 0

def execHailReceive (port : Fin 12) (block : BitVec 256) (s : State) : Host.Outcome State Fault Refusal :=
  .next (hailReceive port block s)

/-- R453, R455: the time between two HAILs of a port now, none when it sends none. -/
def hailPeriod (x : Port) : Option Mt :=
  if !stageDone x ∨ x.state.works then none
  else if x.state = .extra ∨ x.state = .quarantined then some (usMt 100)
  else if x.stage = some .a ∧ x.outcome ≠ 0 then none
  else some (usMt 1)

def hailRepeat (p : Nat) (s : State) : State :=
  match hailPeriod (port s p) with
  | some d => if passed s (port s p).hailAt d then sendHail s p else s
  | none => s

def execHailRepeat (port : Fin 12) (s : State) : Host.Outcome State Fault Refusal := .next (hailRepeat port s)

/-- R453: no HAIL within the hail limit of stage A's completion. -/
def hailTimeout (p : Nat) (s : State) : State :=
  let x := port s p
  if stageDone x ∧ x.stage = some .a ∧ x.state = .training ∧ x.outcome = 0 ∧ !x.hailed ∧
      passed s x.hailFrom (msMt (reg s 0x2600 7)) then linkDown s p 6 0
  else s

def execHailTimeout (port : Fin 12) (s : State) : Host.Outcome State Fault Refusal := .next (hailTimeout port s)

/-- R452: a plan entry write; a working port takes only an entry that its last HAIL matches. -/
def applyPlan (v : BitVec 64) (s : State) : Verdict :=
  let e := v.toNat
  let p := fld e 0 4
  let word := BitVec.ofNat 64 (fld e 0 5 + fld e 8 22 * 256)
  let matched := bitAt e 4 && (match (port s p).hail with
    | some b => planNames e b
    | none => false)
  inRange (decide (p ≤ 11) && decide (fld e 24 4 ≤ 11))
    (require (!working s p || matched)
      (ok (decideAgain { s with tables := { s.tables with plan := tput s.tables.plan p word } } p)))

def execPlanEntryWrite (w : WriteHdr) (value : BitVec 64) (s : State) : Host.Outcome State Fault Refusal :=
  .next (dictWrite w 0x2600 1 (leBytes 8 value.toNat) (applyPlan value) s)

/-- R452, R454: a change of plan hash applies at the next hail of working ports. -/
def applyPlanHash (v : BitVec 32) (s : State) : Verdict :=
  let s1 := journalNote (setReg s 0x2600 4 v.toNat) (regKey 0x2600 4 0) v.toNat
  ok (twelve.foldl decideAgain s1)

def execPlanHashWrite (w : WriteHdr) (value : BitVec 32) (s : State) : Host.Outcome State Fault Refusal :=
  .next (dictWrite w 0x2600 4 (leBytes 4 value.toNat) (applyPlanHash value) s)

/-- R454: the incarnation of a node changed: working ports of this device, or toward the node, hail again;
other decisions are made again. -/
def incarnationPorts (s : State) (n : NodeId) : State :=
  twelve.foldl (fun t p =>
    let toward := n == ownNode t || fld (planEntry t p) 8 16 == n.toNat && planned t p
    if !toward then t else if working t p then linkDown t p 5 0 else decideAgain t p) s

/-! ## Departure, disabling and retraining (R300, R340, R399) -/

/-- R298, R300: DEPART: no training until the lanes detect signal. -/
def departReceive (p : Nat) (b : BitVec 256) (s : State) : State :=
  takeControl s p b ctDepart fun t =>
    updPort (linkDown (bumpAt t 0x2400 0x13 p) p 4 (cByte b 5)) p fun x => { x with waitSignal := true }

def execDepartReceive (port : Fin 12) (block : BitVec 256) (s : State) : Host.Outcome State Fault Refusal :=
  .next (departReceive port block s)

/-- R300, R399: stop a port: DEPART with reason 2, link down with cause 8, electrical idle. -/
def stopPort (s : State) (p : Nat) : State :=
  if (port s p).state = .absent then
    restartLanes (updPort s p fun x => { x with waitSignal := false }) p true
  else linkDown (sendDepart s p 2) p 8 0

/-- R344, R30: the home inst of a stripe is there; with the master absent a stripe trains all the same. -/
def homeThere (s : State) (p : Nat) : Bool :=
  match stripeOf s p with
  | some q => q.1 == instId s || s.cascade.present.contains q.1 || s.cascade.atStart
  | none => true

/-- R479: a warning that came before the persisted values were restored keeps every transmitter in electrical idle
until CUT_WARN_N has been released for 10 ms. [log 45, DEDUCED] -/
def cutWaits (s : State) : Bool := s.pins.cutWarn || s.pins.cutGone.isSome

/-- Whether a port is enabled and nothing holds it off: neither the rack, nor heat, nor the return state
(R456), nor a power cycle request (R482), nor a power cut warning (R479). [log 45, DEDUCED] -/
def portOpen (s : State) (p : Nat) : Bool :=
  regAt s 0x2000 5 p != 0 && !(port s p).heldOff && !(port s p).thermOff && !s.flash.returned &&
    !s.pins.pcycReq && !cutWaits s && homeThere s p

/-- Let an ABSENT port train when it may. -/
def releasePort (s : State) (p : Nat) : State :=
  if portOpen s p ∧ (port s p).state = .absent ∧ 0 < portWidth s p ∧ s.phase = .running then startTraining s p else s

/-- 0x2000.05: disable or enable a port. Enabling a port that is held off is refused and counted (R399). [log 32, DEDUCED] -/
def applyPortEnable (p : Nat) (on : Bool) (s : State) : Verdict :=
  if on then
    if (port s p).heldOff ∨ (port s p).thermOff then
      .counted (report (bump s 0x6000 9) 0xC 0 3 1) .notPerformed 10
    else
      let was := regAt s 0x2000 5 p
      let s1 := storeNumberAt 0x2000 5 p 1 s
      ok (if was = 0 then releasePort s1 p else s1)
  else ok (storeNumberAt 0x2000 5 p 0 (if regAt s 0x2000 5 p = 0 then s else stopPort s p))

def execPortDisable (w : WriteHdr) (s : State) : Host.Outcome State Fault Refusal :=
  .next (dictWrite w 0x2000 5 [0] (fun t =>
    applyPortEnable (selected t (ownerOf w.path) 0x2000 3) false t) s)

def execPortEnable (w : WriteHdr) (s : State) : Host.Outcome State Fault Refusal :=
  .next (dictWrite w 0x2000 5 [1] (fun t =>
    applyPortEnable (selected t (ownerOf w.path) 0x2000 3) true t) s)

/-- 0x2400.17 and 0x2000.0C: true takes the link down with cause 5 and trains again; an ABSENT port that may
train begins. -/
def applyRetrain (p : Nat) (on : Bool) (s : State) : Verdict :=
  ok (if !on then s else if (port s p).state = .absent then releasePort s p else linkDown s p 5 0)

def execTakeLinkDown (w : WriteHdr) (s : State) : Host.Outcome State Fault Refusal :=
  .next (dictWrite w 0x2400 0x17 [1] (fun t => applyRetrain (selected t (ownerOf w.path) 0x2400 1) true t) s)

def execRetrain (w : WriteHdr) (s : State) : Host.Outcome State Fault Refusal :=
  .next (dictWrite w 0x2000 0xC [1] (fun t => applyRetrain (selected t (ownerOf w.path) 0x2000 3) true t) s)

end Sys2Proof.Machine
end

