-- ==== Sys2Proof/Machine/Train.lean ====
section
/-! DEFINITION. Training of a port (chapter 10): stage A from the training sets to the plan check (R309 to
R314), stages B and C from the training frames to the start of the block stream (R317 to R322), pattern
test mode and error injection (R345, R346), and the FEC codewords as they are decoded (R325). -/

namespace Sys2Proof.Machine

/-! ## Widths (R306, R338) -/

/-- R338: the octets each direction uses: the least of the working ones and both ceilings. -/
def usableWidth (s : State) (p : Nat) : Nat :=
  min (workingOctets s p).length (min (port s p).ceiling (port s p).peerCeil)

/-- The state of a working octet in use. -/
def inUse (o : Octet) : Nat := if o.rxSpare.isSome || o.txSpare.isSome then 1 else 0

/-- R308, R338: the lanes of a working octet that is in use or off. -/
def octetLane (on : Bool) (l : Nat) (x : Lane) : Lane :=
  { x with role := if x.role = 4 ∨ x.fused then x.role else if !on then 5 else if x.role ≠ 5 then x.role
      else if l % 9 = 8 then 1 else 0 }

/-- Put an octet into use or off. -/
def turnOctet (s : State) (o : Nat) (on : Bool) : State :=
  (octetLanes o).foldl (fun t l => updLane t l (octetLane on l)) (updOctet s o fun x => { x with state := if on then inUse x else 3 })

/-- R338: an octet that works is in use while either direction uses it, and off otherwise. -/
def turnOctets (s : State) (p : Nat) : State :=
  let on := (port s p).txOcts ++ (port s p).rxOcts
  updPort ((workingOctets s p).foldl (fun t o => turnOctet t o (on.contains o)) s) p fun x => { x with
    widening := false, waking := x.waking.filter fun o => !on.contains o }

/-- R338: the octets that a direction uses now: those of highest number are off. -/
def octetsFor (s : State) (p : Nat) : List Nat := (workingOctets s p).take (usableWidth s p)

/-- R266, R307: IDLE control packets complete the FEC frames that are begun, before a change at a frame boundary. -/
def completeFrames (s : State) (p : Nat) : State :=
  (List.range (blocksMissing s p)).foldl (fun t _ => sendBlock t p true (control ctIdle (port t p).link.txEpoch 0 [])) s

/-- R307, R337, R338: the width of the transmit direction is in force; with a new one the dealing starts from block 0. -/
def widthTx (s : State) (p : Nat) : State :=
  let os := octetsFor s p
  if os = (port s p).txOcts then turnOctets s p
  else tellStripe (turnOctets (updPort (accrue (completeFrames s p) p) p fun x => { x with
    txWidth := os.length, txOcts := os, txBlock := 0, streamFrom := s.clock }) p) p

/-- R307, R337, R338: the width of the receive direction is in force; with a new one the frames received are counted anew. -/
def widthRx (s : State) (p : Nat) : State :=
  let os := octetsFor s p
  if os = (port s p).rxOcts then turnOctets s p
  else
    let s1 := os.foldl (fun t o => updOctet t o fun x => { x with frame := 0, badWords := [] }) s
    turnOctets (withHeadroom s1 p fun t => updPort t p fun x => { x with rxWidth := os.length, rxOcts := os }) p

/-- Both directions take the width in force, as a stream begins. -/
def applyWidth (s : State) (p : Nat) : State := widthRx (widthTx s p) p

/-- The minimum width of a port. -/
def minWidth (s : State) (p : Nat) : Nat := regAt s 0x2000 6 p

/-- R322: one attempt at a stage has ended. [log 18, DEDUCED] -/
def countAttempt (s : State) (p : Nat) : State := bumpAt s 0x2000 0xB p

/-! ## Stage A (R309 to R314) -/

/-- The position a receiver sees on a lane. -/
def lanePos (x : Lane) : Nat := x.peerLane.toNat % 16

/-- A lane without signal or bit lock, or powered down (R312, R427). -/
def deaf (x : Lane) : Bool := x.los || x.lol || x.fused

/-- A lane whose training set content has settled. -/
def settled (x : Lane) : Bool := x.aligned && !deaf x && decide (3 ≤ x.sets)

/-- The time of a training set in mt: 32 characters of 10 bits at 10.3125 GBd. [log 20, DEDUCED] -/
def setSpan : Nat := 124

/-- R312: marks that recur every `span` lie within 12 ns of each other. -/
def skewOk (span : Nat) (marks : List Mt) : Bool :=
  marks.all fun a => marks.all fun b =>
    let d := (a % span + span - b % span) % span
    decide (d ≤ 48) || decide (span ≤ d + 48)

/-- R312: the lanes of a port that are aligned are deskewed by their K28.5. -/
def deskewed (s : State) (p : Nat) : Bool :=
  let ls := (portLanes s p).filter fun l => (lane s l).aligned && !deaf (lane s l)
  ls != [] && skewOk setSpan (ls.map fun l => (lane s l).markAt)

/-- R312: a failed lane: without signal or bit lock; not aligned when the others are deskewed, which it may still become until
it has searched all ten offsets once or every other lane is aligned; or not settled at the end of the stage's limit. [log 20, DEDUCED] -/
def laneFailed (s : State) (p l : Nat) (final : Bool) : Bool :=
  let x := lane s l
  deaf x || (final && !settled x) ||
    (!x.aligned && deskewed s p &&
      (decide (10 ≤ x.slips) || (portLanes s p).all fun k => k == l || deaf (lane s k) || (lane s k).aligned))

/-- What stage A finds of an octet. -/
inductive OctetFit where
  | works (spare : Option Nat)
  | bad
  | pending
  deriving DecidableEq, Repr

/-- R312: an octet works with its eight positions settled, or with SP in place of one failed; a lane that
may still settle is waited for until the stage's limit ends. -/
def octetFit (s : State) (p o : Nat) (final : Bool) : OctetFit :=
  let dead := (octetLanes o).filter fun l => laneFailed s p l final
  let open_ := (octetLanes o).filter fun l => !settled (lane s l) && !laneFailed s p l final
  let seen (n : Nat) := (octetLanes o).any fun l => settled (lane s l) && lanePos (lane s l) == n
  let missing := (List.range 8).filter fun n => !seen n
  if (octet s o).peerBad ∨ 2 ≤ dead.length then .bad
  else if open_ ≠ [] then .pending
  else match missing with
    | [] => .works none
    | [m] => if seen 8 then .works (some m) else .bad
    | _ => .bad

/-- Take an octet into use or out of it. -/
def fitOctet (s : State) (o : Nat) (f : OctetFit) : State :=
  match f with
  | .works spare =>
    let s1 := updOctet s o fun x => { x with rxSpare := spare }
    let s2 := updOctet s1 o fun x => { x with state := inUse x }
    (octetLanes o).foldl (fun t l => updLane t l fun x => { x with
      role := if l % 9 = 8 then (if inUse (octet s2 o) = 1 then 3 else 1) else if settled x then 0 else 4,
      pos := if !settled x then 15 else if lanePos x < 8 then lanePos x
        else if lanePos x = 8 then spare.getD 15 else 15 }) s2
  | _ => updOctet s o fun x => { x with state := 2 }

/-! ### What this device sends at stage A (R309, R310, R313) -/

/-- R312: the position that the receiver asks to have carried on SP, 15 for none. -/
def askedSpare (s : State) (p o : Nat) : Nat :=
  match octetFit s p o false with
  | .works (some m) => m
  | _ => 15

/-- R313: the receiver is deskewed and its lane map is settled. -/
def mapReady (s : State) (p : Nat) : Bool :=
  deskewed s p && (portOctets s p).all fun o => octetFit s p o false != .pending

/-- R310: STATUS of a lane's own training set. -/
def ownStatus (s : State) (p l : Nat) : Nat :=
  let x := lane s l
  bit (!deaf x) + 2 * bit x.aligned + 4 * bit (x.aligned && deskewed s p) + 8 * bit (mapReady s p) +
    16 * bit (octetFit s p (l / 9) false == .bad)

/-- R314, R316: CAP: the highest stage offered, and where this lane's receiver wanted precoding before. [log 20, DEDUCED] -/
def ownCap (s : State) (p l : Nat) : Nat :=
  offeredStage s p + 4 * bit (lane s l).wantB + 8 * bit (lane s l).wantC

/-- R310: the characters of the training set that a lane of this device sends. -/
def ownSet (s : State) (p l : Nat) : List Char8 :=
  [k28_5, .data (l % 9 + 16 * (l / 9 - portBase s p)), .data (portWidth s p), .data (l / 9 + 16 * instId s),
   .data (ownCap s p l), .data (ownStatus s p l), .data (octet s (l / 9)).channel, .data (askedSpare s p (l / 9))] ++
    List.replicate 22 (.data 0) ++ [.data ((lane s l).tscnt % 256), k28_3]

/-- R310: send the next training set on a lane. -/
def sendSet (s : State) (p l : Nat) : State :=
  updLane (sendCharacters s l (ownSet s p l)) l fun x => { x with tscnt := x.tscnt + 1 }

/-- R313, R314: stage A is complete: K27.7 K27.7 on every lane in service, the block stream begins, and hailing with it. -/
def passA (s : State) (p : Nat) : State :=
  let s0 := ((portLanes s p).filter fun l => settled (lane s l)).foldl (fun t l => sendCharacters t l [k27_7, k27_7]) s
  let s1 := countAttempt (updPort (accrue s0 p) p fun x => { x with
    stage := some .a, trying := none, hailFrom := s.clock, hailed := false, outcome := 0, check := 0, txBlock := 0, streamFrom := s.clock,
    link := { x.link with heard := s.clock } }) p
  sendHail (applyWidth s1 p) p

/-- R313: every lane in service shows the peer ready. -/
def lanesReady (s : State) (os : List Nat) : Bool :=
  os.all fun o => (octetLanes o).all fun l => !settled (lane s l) || bitAt (lane s l).peerStatus.toNat 3

/-- Complete stage A when the port is deskewed, every octet of it is decided and enough of them work. [log 20, DEDUCED] -/
def tryStageA (s : State) (p : Nat) (final : Bool) : State :=
  let fits := (portOctets s p).map fun o => (o, octetFit s p o final)
  let good := (fits.filter fun f => match f.2 with
    | .works _ => true
    | _ => false).map (·.1)
  if (fits.any fun f => f.2 == .pending) ∨ good = [] ∨ good.length < minWidth s p ∨ !deskewed s p ∨ !lanesReady s good then s
  else passA (fits.foldl (fun t f => fitOctet t f.1 f.2) s) p

/-- The byte a character stands for in the content of a training set. -/
def charByte : Char8 → Nat
  | .data b => b
  | .ctl b => b

/-- The content of a training set without its count, when it is sound: K28.5, data, K28.3. -/
def setContent (cs : List (Option (Char8 × Bool))) : Option (BitVec 256) :=
  let sound := cs.length == 32 && cs.all (fun c => match c with
      | some (_, fits) => fits
      | none => false) &&
    (cs.head?.bind id).map (·.1) == some k28_5 && (cs.getLast?.bind id).map (·.1) == some k28_3 &&
    ((cs.drop 1).take 30).all (fun c => match c with
      | some (.data _, _) => true
      | _ => false)
  if sound then
    let bytes := cs.map fun c => match c with
      | some (k, _) => BitVec.ofNat 8 (charByte k)
      | none => 0
    some (BitVec.ofNat 256 (leNat (bytes.set 30 0)))
  else none

/-- R310, R312: act on settled content. -/
def actOnSet (s : State) (p l : Nat) (c : BitVec 256) : State :=
  let by_ (n : Nat) := hfByte c n
  let s1 := updPort s p fun x => { x with peerCap := BitVec.ofNat 8 (by_ 4) }
  let s2 := updLane s1 l fun x => { x with
    peerLane := BitVec.ofNat 8 (by_ 1), peerStatus := BitVec.ofNat 8 (by_ 5),
    pos := if by_ 1 % 16 < 8 then by_ 1 % 16 else 15 }
  let s3 := updOctet s2 (l / 9) fun x => { x with
    peerBad := bitAt (by_ 5) 4, txSpare := if by_ 7 % 16 < 8 then some (by_ 7 % 16) else none }
  tryStageA s3 p false
where
  hfByte (c : BitVec 256) (n : Nat) : Nat := fld c.toNat (8 * n) 8

/-- Whether a port trains a stage. -/
def trainsA (x : Port) : Bool := x.state == .training && x.trying == some .a && !x.test

/-- R310, R311, R313: a training set on a lane. [log 47, DESIGN CHOICE] -/
def trainingSetReceive (l : Nat) (groups : List CodeGroup) (s : State) : State :=
  match octetPort s (l / 9) with
  | none => s
  | some p =>
    let x := lane s l
    if !trainsA (port s p) ∨ x.los ∨ x.lol ∨ groups.length ≠ 32 then s
    else
      let d := decodeGroups groups x.disparity
      let bad := (d.1.filter fun c => match c with
        | some (_, fits) => !fits
        | none => true).length
      let comma := (d.1.head?.bind id).map (·.1) == some k28_5
      let commas := if comma then x.commas + 1 else 0
      let s1 := bumpBy s 0x2100 0xD l bad
      let y := { x with
        disparity := d.2, commas := if d.1.all Option.isSome then commas else 0, aligned := x.aligned || decide (4 ≤ commas),
        markAt := if comma then s.clock else x.markAt }
      match (if y.aligned then setContent d.1 else none) with
      | none => setLane s1 l { y with sets := 0 }
      | some c =>
        let sets := if c = x.set_ ∧ x.sets ≠ 0 then x.sets + 1 else 1
        let s2 := setLane s1 l { y with set_ := c, sets := sets }
        if 3 ≤ sets then actOnSet s2 p l c else s2

def execTrainingSetReceive (lane : Fin 108) (groups : List CodeGroup) (s : State) :
    Host.Outcome State Fault Refusal := .next (trainingSetReceive lane groups s)

/-- R311: 256 character times of 10 bits at 10.3125 GBd without alignment on a lane with bit lock: slip one bit. -/
def bitSlip (l : Nat) (s : State) : State :=
  match octetPort s (l / 9) with
  | none => s
  | some p =>
    let x := lane s l
    if trainsA (port s p) ∧ !x.aligned ∧ !x.los ∧ !x.lol ∧ passed s x.slipAt 993 then
      setLane s l { x with offset := (x.offset + 1) % 10, slipAt := s.clock, slips := x.slips + 1, commas := 0 }
    else s

def execBitSlip (lane : Fin 108) (s : State) : Host.Outcome State Fault Refusal := .next (bitSlip lane s)

/-! ## Training frames (R317 to R319, R327, R328) -/

/-- R318: CHK of a control field: the XOR of its fifteen lower groups of four bits. -/
def ctlCheck (c : Nat) : Nat := (List.range 15).foldl (fun a i => a ^^^ fld c (4 * i) 4) 0

/-- R328: the channel type of an octet as it serves: type 0 as type 2. -/
def channelType (s : State) (o : Nat) : Nat := if (octet s o).channel = 0 then 2 else (octet s o).channel

/-- R328: the transmit taps of a preset. -/
def presetTaps (n : Nat) : Int × Int × Int × Int :=
  match n with
  | 1 => (0, -2, 60, -2) | 3 => (2, -8, 48, -6) | 4 => (0, -2, 58, -4) | 5 => (1, -4, 54, -5)
  | 6 => (1, -4, 54, -5) | _ => (1, -6, 52, -5)

/-- R328: the CTLE start of a channel type, in steps of 0.5 dB. -/
def startCtle (n : Nat) : Nat :=
  match n with
  | 1 => 8 | 3 => 28 | 4 => 12 | 5 => 16 | 6 => 18 | _ => 20

/-- R327: the bounds of the taps. -/
def tapsOk (t : Int × Int × Int × Int) : Bool :=
  let (a, b, c, d) := t
  decide (0 ≤ a ∧ a ≤ 8 ∧ -16 ≤ b ∧ b ≤ 0 ∧ 32 ≤ c ∧ c ≤ 64 ∧ -16 ≤ d ∧ d ≤ 0 ∧
    a.natAbs + b.natAbs + c.natAbs + d.natAbs ≤ 64)

/-- Move one tap by a step. -/
def moveTap (t : Int × Int × Int × Int) (i : Nat) (by_ : Int) : Int × Int × Int × Int :=
  let (a, b, c, d) := t
  if i = 0 then (a + by_, b, c, d) else if i = 1 then (a, b + by_, c, d) else if i = 2 then (a, b, c + by_, d)
  else (a, b, c, d + by_)

/-- R319, R327: one tap's request: a new step is applied or stands at its bound; hold clears the status. -/
def tapRequest (req : Nat) (x : (Int × Int × Int × Int) × Nat × Nat) (i : Nat) :
    (Int × Int × Int × Int) × Nat × Nat :=
  let (t, sts, old) := x
  let r := fld req (2 * i) 2
  if r = 0 then (t, setFld sts (2 * i) 2 0, setFld old (2 * i) 2 0)
  else if r = 3 ∨ fld old (2 * i) 2 ≠ 0 then x
  else
    let u := moveTap t i (if r = 1 then 1 else -1)
    if tapsOk u then (u, setFld sts (2 * i) 2 1, setFld old (2 * i) 2 r)
    else (t, setFld sts (2 * i) 2 (if r = 1 then 3 else 2), setFld old (2 * i) 2 r)

/-- R319: the own requests after the peer's STS: a step that shows is followed by hold; with every tap at hold and no status
left, a receiver that is not done asks for the next step of its search. -/
def nextRequest (l : Nat) (x : Lane) (sts : Nat) : Lane :=
  let req := (List.range 4).foldl (fun r i => if fld sts (2 * i) 2 ≠ 0 then setFld r (2 * i) 2 0 else r) x.reqOut.toNat
  if req ≠ 0 ∨ sts ≠ 0 ∨ x.rxReady then { x with reqOut := BitVec.ofNat 8 req }
  else
    let k := (Config.tapSearch l x.steps).val
    let step := if k = 0 then 0 else setFld 0 (2 * ((k - 1) / 2)) 2 (if k % 2 = 1 then 1 else 2)
    { x with reqOut := BitVec.ofNat 8 step, steps := x.steps + bit (k != 0), preset := x.preset && k == 0 }

/-- A lane after a control field received at a local time: marker lock, preset, tap requests, readiness and precoding. -/
def laneControl (l : Nat) (now : Mt) (x : Lane) (c : Nat) : Lane :=
  let preset := fld c 20 3
  let x1 := if 1 ≤ preset ∧ preset ≤ 6 then { x with taps := presetTaps preset } else x
  let r := (List.range 4).foldl (tapRequest (fld c 12 8)) (x1.taps, x1.tapSts.toNat, x1.tapReq.toNat)
  nextRequest l { x1 with
    taps := r.1, tapSts := BitVec.ofNat 8 r.2.1, tapReq := BitVec.ofNat 8 r.2.2, markAt := now,
    marker := some (x.marker.getD now), peerLane := BitVec.ofNat 8 (fld c 0 8), peerReady := x.peerReady || bitAt c 23,
    precodeTx := bitAt c 32 } (fld c 24 8)

/-- R317: the time of a training frame in mt. -/
def frameSpan : Option Stage → Nat
  | some .c => 150
  | _ => 300

/-- R319: a lane of the stage being trained is ready at both ends and holds marker lock. -/
def laneReady (x : Lane) : Bool := x.rxReady && x.peerReady && x.marker.isSome && !deaf x

/-- R319: an octet of the stage being trained has eight lanes ready. -/
def octetReady (s : State) (o : Nat) : Bool :=
  decide (8 ≤ ((octetLanes o).filter fun l => laneReady (lane s l)).length)

/-- R319, R320: two lanes of an octet are without signal or lock, so that it is out of use at this stage. -/
def octetLost (s : State) (o : Nat) : Bool := decide (2 ≤ ((octetLanes o).filter fun l => deaf (lane s l)).length)

/-- R319: the lanes in use that hold marker lock are deskewed by their markers. -/
def framesDeskewed (s : State) (p : Nat) : Bool :=
  skewOk (frameSpan (port s p).trying)
    ((((usedOctets s p).map octetLanes).flatten.filter fun l => (lane s l).marker.isSome && !deaf (lane s l)).map fun l => (lane s l).markAt)

/-- Begin START: the block stream begins at the end of its countdown (R321). -/
def beginStart (s : State) (p : Nat) : State := updPort s p fun x => { x with starting := some (reg s 0x2500 8, s.clock) }

/-- R319, R320: every octet in use is ready, or in training out of use, while enough of them are ready. -/
def portReady (s : State) (p : Nat) : Bool :=
  let os := usedOctets s p
  let shifts := (port s p).shifting.isSome
  (os.all fun o => octetReady s o || (!shifts && octetLost s o)) &&
    (shifts || decide (max 1 (minWidth s p) ≤ (os.filter (octetReady s)).length + (workingOctets s p).length - os.length)) &&
    framesDeskewed s p

/-- Note the moment at which the port is ready; a stage shift then restarts its stream. -/
def noteReady (s : State) (p : Nat) : State :=
  if (port s p).readyAt.isSome ∨ !portReady s p then s
  else
    let s1 := updPort s p fun x => { x with readyAt := some s.clock }
    if (port s p).shifting.isSome then beginStart s1 p else s1

/-- R316, R319, R328: a lane at the first step of stage B or C: its receiver at the start values of the channel type, the peer
asked for its preset. -/
def freshStep (type : Nat) (now : Mt) (x : Lane) : Lane :=
  { x with
    adaptFrom := now,
    rxReady := false, peerReady := false, failed := false, tapReq := 0, tapSts := 0, marker := none, preset := true,
    reqOut := 0, txW := 0, flagFrame := false, flagRun := 0, ctle := startCtle type, dfe := zeros 12, precodeRx := false }

/-- The settings of a lane as they are now. -/
def settingOf (x : Lane) : Setting :=
  { taps := x.taps, ctle := x.ctle, dfe := x.dfe, precodeTx := x.precodeTx, precodeRx := x.precodeRx }

/-- R321: a lane keeps the settings that it found at a stage. -/
def keepSetting (st : Stage) (x : Lane) : Lane :=
  match st with
  | .a => x
  | .b => { x with setB := some (settingOf x), wantB := x.precodeRx }
  | .c => { x with setC := some (settingOf x), wantC := x.precodeRx }

/-- R322, R338, R339: the settings that a lane keeps for a stage are loaded; at stage A main is 64 and every other tap 0
(R327). -/
def loadSetting (st : Stage) (x : Lane) : Lane :=
  match st, x.setB, x.setC with
  | .b, some y, _ | .c, _, some y =>
    { x with taps := y.taps, ctle := y.ctle, dfe := y.dfe, precodeTx := y.precodeTx, precodeRx := y.precodeRx }
  | .a, _, _ => { x with taps := (0, 0, 64, 0), precodeTx := false, precodeRx := false }
  | _, _, _ => x

/-- Change every lane of a port. -/
def updLanes (s : State) (p : Nat) (f : Nat → Lane → Lane) : State :=
  (portLanes s p).foldl (fun t l => updLane t l (f l)) s

/-- R319: a stage begins with its first step, toward a peer that asked for precoding in CAP (R316). -/
def beginStep (s : State) (p : Nat) (st : Stage) (since : Mt) : State :=
  let s1 := updPort s p fun x => { x with
    trying := some st, tryAt := since, attempt := attemptOf s st, readyAt := none, starting := none, rxStart := none, stepAt := none, rehailed := false,
    link := { x.link with kept := none, seenByPeer := false, startFrom := none } }
  updLanes s1 p fun l x => { freshStep (channelType s1 (l / 9)) since x with
    precodeTx := bitAt (port s p).peerCap.toNat (if st = .b then 2 else 3) }

/-- R455: 10 µs after the exchange at stage A, stage B begins. [log 18, DEDUCED] -/
def stepUp (s : State) (p : Nat) : State :=
  match (port s p).stepAt with
  | some t => if passed s t (usMt 10) then beginStep s p .b (t + usMt 10) else s
  | none => s

/-- A port that trains stage B or C, or shifts between them. -/
def trainsFrames (x : Port) : Bool := (x.trying == some .b || x.trying == some .c) && !x.test

/-- R321: the peer's START tells when its block stream begins. -/
def noteStart (s : State) (p c : Nat) : State :=
  if bitAt c 34 then
    updPort s p fun x => { x with rxStart := some (x.rxStart.getD (s.clock + fld c 52 8 * frameSpan (x.trying.or x.stage))) }
  else s

/-- R320: in training, a SPARE in the control field of a frame on SP tells which position the peer's receiver takes from
SP. -/
def noteSpare (s : State) (p c : Nat) : State :=
  if fld c 36 8 = 1 then
    match (portOctets s p)[fld c 48 4]? with
    | some o => updOctet s o fun x => { x with txSpare := some (fld c 44 4 % 8) }
    | none => s
  else s

/-- Whether a port's block stream runs at stage B or C. -/
def runsFec (x : Port) : Bool := stageDone x && (x.stage == some .b || x.stage == some .c)

/-- R338: an octet off sends training frames again, with the settings kept for the stage. -/
def wakeOctet (p : Nat) (s : State) (o : Nat) : State :=
  if (port s p).waking.contains o then s
  else (octetLanes o).foldl (fun t l => updLane t l fun x => { loadSetting ((port s p).stage.getD .b) x with marker := none })
    (updPort s p fun x => { x with waking := x.waking ++ [o] })

/-- R338: a frame on a lane of an octet that is off: the peer switches it on again, and so does this side where its own
ceiling allows the octet. [log 20, DEDUCED] -/
def noteWaking (s : State) (p l : Nat) : State :=
  let o := l / 9
  if (octet s o).state = 3 ∧ runsFec (port s p) ∧ ((workingOctets s p).take (port s p).ceiling).contains o then
    updLane (wakeOctet p s o) l fun x => { x with marker := some (x.marker.getD s.clock), markAt := s.clock }
  else s

/-- R318, R319, R333: a control field on a lane: the commands of a running spare channel come as their own events, and
reserved ones are counted. -/
def trainingFrameReceive (l : Nat) (control : BitVec 64) (s : State) : State :=
  match octetPort s (l / 9) with
  | none => s
  | some p =>
    let c := control.toNat
    if ctlCheck c ≠ fld c 60 4 then s
    else
      let s1 := stepUp s p
      let x := port s1 p
      if bitAt c 33 ∧ 7 ≤ fld c 36 8 then bumpAt s1 0x2400 0x15 p
      else if x.shifting.isSome ∧ x.trying.isNone then noteStart s1 p c
      else if !trainsFrames x ∨ x.trying.map Stage.code ≠ some (fld c 8 2) then noteWaking s1 p l
      else noteReady (noteSpare (noteStart (setLane s1 l (laneControl l s1.clock (lane s1 l) c)) p c) p c) p

/-- R328: at channel type 6 the first DFE tap keeps to half its range. -/
def limitFirst (type : Nat) (dfe : List (BitVec 8)) : Bytes :=
  match padTo 12 dfe with
  | t :: r => if type = 6 then BitVec.ofInt 8 (max (-64) (min 63 t.toInt)) :: r else t :: r
  | [] => []

/-- A value moved toward another by at most `n` steps. -/
def stepToward (n : Nat) (a b : Int) : Int := a + max (-(n : Int)) (min (n : Int) (b - a))

/-- R329: the steps that a receiver may have taken since it began to adapt: one in 10 µs; none once it is done. -/
def adaptSteps (now : Mt) (x : Lane) : Nat := if x.rxReady then 0 else (now - x.adaptFrom) / usMt 10

/-- R319, R329: a lane's receiver is done, as near to the values found as its steps have brought it: it asks for precoding
when its first tap exceeds 0.4 of its main cursor, and sets RXREADY. [log 20, DEDUCED; log 47, DESIGN CHOICE] -/
def adaptationDone (l ctle : Nat) (dfe : List (BitVec 8)) (s : State) : State :=
  match octetPort s (l / 9) with
  | none => s
  | some p =>
    let s1 := stepUp s p
    if !trainsFrames (port s1 p) ∨ (lane s1 l).los then s1
    else
      let x := lane s1 l
      let n := adaptSteps s1.clock x
      let taps := limitFirst (octet s1 (l / 9)).channel
        (((padTo 12 x.dfe).zip (padTo 12 dfe)).map fun t => BitVec.ofInt 8 (stepToward n t.1.toInt t.2.toInt))
      let want := decide (1024 < 10 * (taps.headD 0).toInt)
      noteReady (updLane s1 l fun x => { x with
        ctle := (stepToward n x.ctle ctle).toNat, dfe := taps, precodeRx := want, rxReady := true, reqOut := 0, preset := false }) p

def execReceiverAdaptationDone (lane : Fin 108) (ctle : Fin 41) (dfe : List (BitVec 8)) (s : State) :
    Host.Outcome State Fault Refusal := .next (adaptationDone lane ctle dfe s)

/-! ## The check window and the limits (R320 to R322) -/

/-- Whether errors over bits lie at or below a ratio in F32. -/
def ratioOk (errors bits limit : Nat) : Bool :=
  decide (0 < bits) && (match decodeF fp32 limit with
    | .fin false m e => if 0 ≤ e then decide (errors ≤ m * 2 ^ e.toNat * bits) else decide (errors * 2 ^ (-e).toNat ≤ m * bits)
    | .inf false => true
    | _ => errors == 0)

/-- The count of a lane in a check window. -/
def countOf (counts : List LaneCount) (l : Nat) : Option LaneCount := counts.find? fun c => c.lane.val == l

/-- R320: a lane after the check window. -/
def checkLane (ratio : Nat) (counts : List LaneCount) (l : Nat) (x : Lane) : Lane :=
  match countOf counts l with
  | some c => { x with errors := c.errors, bits := c.bits, failed := deaf x || x.marker.isNone || !ratioOk c.errors c.bits ratio }
  | none => { x with failed := true }

/-- R320: an octet after the check window: eight good lanes, SP in place of a failed one. The position that a failed lane
carries is the one that no good lane does. -/
def checkOctet (s : State) (o : Nat) : OctetFit :=
  let good := (octetLanes o).filter fun l => !(lane s l).failed
  let missing := (List.range 8).find? fun n => !(good.any fun l => lanePos (lane s l) == n)
  if good.length = 9 then .works none
  else if good.length < 8 then .bad
  else if !good.contains (9 * o + 8) then .works none
  else .works missing

/-- Put an octet into or out of use after a check. -/
def useOctet (s : State) (o : Nat) (f : OctetFit) : State :=
  match f with
  | .works spare =>
    let s1 := updOctet s o fun x => { x with rxSpare := spare }
    let s2 := updOctet s1 o fun x => { x with state := inUse x }
    (octetLanes o).foldl (fun t l => updLane t l fun x => { x with
      role := if x.failed then 4 else if l % 9 = 8 then (if inUse (octet s2 o) = 1 then 3 else 1) else 0,
      pos := if l % 9 = 8 then spare.getD 15 else x.pos }) s2
  | _ => updOctet s o fun x => { x with state := 2 }

/-- R345: the pattern checkers of a port in test mode run, in mode 2 or 3. -/
def patternChecked (s : State) (p : Nat) : Bool := (port s p).test && bitAt (reg s 0x2300 2) 1

/-- R345: the checkers of a port have locked and counted: 0x2300.07 to .09 by lane. [log 47, DESIGN CHOICE] -/
def checkerCounts (p : Nat) (counts : List LaneCount) (s : State) : State :=
  (portLanes s p).foldl (fun t l =>
    match countOf counts l with
    | some c => setRegAt (bumpBy (bumpBy t 0x2300 7 l c.bits) 0x2300 8 l c.errors) 0x2300 9 l 1
    | none => t) s

/-- R320, R321: a stage passes or its attempt fails, by the octets that are not off under a ceiling; in test mode the checkers count (R345). [log 47, DESIGN CHOICE] -/
def checkWindowEnd (p : Nat) (counts : List LaneCount) (s0 : State) : State :=
  if patternChecked s0 p then checkerCounts p counts s0 else
  let s := stepUp s0 p
  let x := port s p
  match x.readyAt with
  | none => s
  | some t =>
    if !trainsFrames x ∨ x.shifting.isSome ∨ x.starting.isSome ∨ !passed s t (msMt x.attempt.window) then s
    else
      let s1 := countAttempt ((portLanes s p).foldl (fun t l => updLane t l (checkLane (port s p).attempt.ratio counts l)) s) p
      let fits := ((portOctets s1 p).filter fun o => (octet s1 o).state != 3).map fun o => (o, checkOctet s1 o)
      let good := (fits.filter fun f => f.2 != .bad).length
      if good = 0 ∨ good + (portWidth s1 p - fits.length) < minWidth s1 p then
        let s2 := updPort s1 p fun x => { x with readyAt := none }
        updLanes s2 p fun l x => freshStep (channelType s2 (l / 9)) s.clock x
      else
        let s2 := updLanes (fits.foldl (fun t f => useOctet t f.1 f.2) s1) p fun _ y => keepSetting (x.trying.getD .a) y
        if x.trying = some .b ∧ commonStage s2 p = 2 then
          beginStep (updPort s2 p fun y => { y with stage := some .b }) p .c s.clock
        else beginStart s2 p

def execCheckWindowEnd (port : Fin 12) (counts : List LaneCount) (s : State) :
    Host.Outcome State Fault Refusal := .next (checkWindowEnd port counts s)

/-- R321, R455: the block stream begins after training: HAIL and LINK_START follow. A port that goes back to a lower stage
takes that stage's settings (R322, R327). -/
def streamBegins (s : State) (p : Nat) (st : Stage) (stopped : Bool) : State :=
  let s0 := if stopped then updLanes s p (fun _ x => loadSetting st x) else s
  let s1 := updPort (accrue s0 p) p fun x => { x with
    stage := some st, trying := none, starting := none, readyAt := none, stopped := stopped, txBlock := 0, streamFrom := s.clock,
    link := { x.link with startFrom := some s.clock, heard := s.clock } }
  let s2 := applyWidth ((portOctets s1 p).foldl (fun t o => updOctet t o fun x => { x with frame := 0, badWords := [], txData := [] }) s1) p
  sendLinkStart (if st = .a then s2 else sendHail s2 p) p

/-- R340, R453: a stage A limit that ends without a pass leaves the port ABSENT. -/
def stageAFailed (s : State) (p : Nat) : State :=
  let s1 := countAttempt s p
  let x := port s1 p
  let silent := (portLanes s1 p).all fun l => (lane s1 l).los || (lane s1 l).fused
  let s2 := if planned s1 p ∧ silent ∧ !x.missing then report s1 2 p 0xD (fld (planEntry s1 p) 8 16) else s1
  setPort s2 p { x with
    state := .absent, stage := none, trying := none, tryAt := s.clock,
    outcome := if planned s1 p || reg s1 0x2600 4 == 0 then 4 else 5, missing := x.missing || (planned s1 p && silent) }

/-- R322: a stage has not passed within its limit. -/
def stageTimeout (p : Nat) (s0 : State) : State :=
  let s := stepUp s0 p
  let x := port s p
  match x.trying with
  | none => s
  | some st =>
    if x.test ∨ x.shifting.isSome ∨ x.starting.isSome ∨ !passed s x.tryAt (msMt x.attempt.limit) then s
    else match st with
      | .a =>
        let s1 := tryStageA s p true
        if (port s1 p).trying.isNone then s1 else stageAFailed s1 p
      | .b => streamBegins (countAttempt s p) p .a true
      | .c => streamBegins (countAttempt s p) p .b true

def execStageTimeout (port : Fin 12) (s : State) : Host.Outcome State Fault Refusal :=
  .next (stageTimeout port s)

/-- R322: stage A is tried again 1 s after it failed. -/
def stageARetry (p : Nat) (s : State) : State :=
  let x := port s p
  if x.state = .absent ∧ !x.waitSignal ∧ !x.test ∧ passed s x.tryAt (secMt 1) then releasePort s p else s

def execStageARetry (port : Fin 12) (s : State) : Host.Outcome State Fault Refusal :=
  .next (stageARetry port s)

/-- R339: once both directions have restarted, the shift is over: the replay timers and the silence limit run again. -/
def shiftOver (s : State) (p : Nat) : Bool :=
  let x := port s p
  x.shifting.isSome && x.trying.isNone && x.rxStart.any fun t => decide (t ≤ s.clock)

def afterShift (s : State) (p : Nat) : State :=
  if shiftOver s p then
    updPort s p fun x => { x with
      shifting := none,
      link := { x.link with heard := s.clock, timer := x.link.timer.map fun _ => s.clock, ctimer := x.link.ctimer.map fun _ => s.clock } }
  else s

/-- R339: the own end of a stage shift: the receiver discards until the replay that opens the new stream, whose first blocks are
LINK_STATUS and both REPLAY_STARTs. -/
def shiftDone (s : State) (p : Nat) (st : Stage) : State :=
  let s0 := updLanes (accrue s p) p fun _ x => keepSetting st x
  let s1 := withHeadroom s0 p fun t => updPort t p fun x => { x with
    stage := some st, trying := none, starting := none, readyAt := none, txBlock := 0, streamFrom := s.clock,
    link := { x.link with discard := true, replaying := none, heard := s.clock, gap := 0 } }
  let l := (port s1 p).link
  let s2 := sendReplayStart (sendReplayStart (sendStatus (bumpAt s1 0x2000 0xD p) p true) p 0 l.unacked) p 1 l.cunacked
  afterShift (originateDrift (drainControl 128 (againNotices (againData s2 p l.unacked) p l.cunacked) p)) p

/-- R321: the frames of CDOWN's countdown have passed since START was first sent. -/
def countedDown (s : State) (since : Mt) (frames : Nat) (st : Option Stage) : Bool :=
  passed s since (frames * frameSpan st)

/-- R321: the countdown of START ends. -/
def startCountdownEnd (p : Nat) (s : State) : State :=
  let x := port s p
  match x.starting, x.trying with
  | some (n, t), some st =>
    if !countedDown s t n (some st) then s
    else if x.shifting.isSome then shiftDone s p st else streamBegins s p st false
  | _, _ => s

def execStartCountdownEnd (port : Fin 12) (s : State) : Host.Outcome State Fault Refusal :=
  .next (startCountdownEnd port s)

/-! ## Test mode and injection (R345, R346) -/

/-- R345: the port in test mode. -/
def testPort (s : State) : Option Nat := twelve.find? fun p => (port s p).test

/-- A port leaves test mode and trains again. -/
def endTest (s : State) : State :=
  match testPort s with
  | some p =>
    let s1 := updPort s p fun x => { x with test := false }
    if portOpen s1 p then startTraining s1 p else updPort s1 p fun x => { x with state := .absent }
  | none => s

/-- A port enters test mode: a working port first has its link declared down with cause 5, and no checker is locked. -/
def beginTest (s : State) (p : Nat) : State :=
  let s1 := if working s p then linkDown s p 5 0 else s
  let s2 := (portLanes s1 p).foldl (fun t l => updLane (setRegAt t 0x2300 9 l 0) l fun x => { x with testBits := 0, txW := 0 }) s1
  let s3 := (portOctets s2 p).foldl (fun t o => updOctet t o fun x => { x with txData := [] }) s2
  updPort s3 p fun x => { x with
    test := true, stage := none, trying := none, state := .training, txBlock := 0, link := { x.link with startFrom := none } }

/-- R345: a port enters or leaves pattern test mode. [log 20, DEDUCED] -/
def applyTestMode (owner v : Nat) (s : State) : Verdict :=
  inRange (decide (v ≤ 11) || v == 0xFF)
    (let s1 := endTest s
     ok (storeNumber owner 0x2300 1 v (if v = 0xFF then s1 else beginTest s1 v)))

def execTestMode (w : WriteHdr) (value : BitVec 8) (s : State) : Host.Outcome State Fault Refusal :=
  .next (dictWrite w 0x2300 1 [value] (applyTestMode (ownerOf w.path) value.toNat) s)

/-- R346: the octet of an injection belongs to a running port at stage B or C. -/
def injectable (s : State) (o : Nat) : Bool :=
  match octetPort s o with
  | some p => working s p && runsFec (port s p)
  | none => false

/-- R346: symbol error injection, in force as written, in the next NFR frames that INTV picks; NFR 0 stops it. [log 20, DEDUCED] -/
def applyInject (v : BitVec 64) (s : State) : Verdict :=
  let x := v.toNat
  let n := fld x 4 5
  let stop := fld x 27 32 = 0
  let o := fld x 0 4
  inRange (decide (o ≤ 11) && decide (1 ≤ n) && decide (n ≤ 16) && fld x 11 16 != 0)
    (require (decide stop || injectable s o)
      (ok (updOctet ((List.range 12).foldl (fun t k => updOctet t k fun y => { y with injectLeft := 0 })
          (setRegAt s 0x2300 0xA 0 (fld x 0 59))) o fun y => { y with injectAt := 0, injectLeft := fld x 27 32 })))

def execSymbolErrorInject (w : WriteHdr) (value : BitVec 64) (s : State) : Host.Outcome State Fault Refusal :=
  .next (dictWrite w 0x2300 0xA (leBytes 8 value.toNat) (applyInject value) s)

end Sys2Proof.Machine
end

