-- ==== Sys2Proof/Machine/Lmc.lean ====
section
/-! DEFINITION. Changes of a running port (R325, R330 to R339): codewords decoded and the flags they set,
lanes that fail, the lane management commands of the spare channel, sparing, width and stage shifts. -/

namespace Sys2Proof.Machine

/-! ## The spare channel (R332) -/

/-- Whether an octet in use has an SP that is in service: not failed, off or powered down, and under no test. -/
def spareWorks (s : State) (o : Nat) : Bool :=
  let x := lane s (9 * o + 8)
  ((octet s o).state == 0 || (octet s o).state == 1) && x.role != 4 && x.role != 5 && !x.fused && !sliceTests s (9 * o + 8)

/-- R332: whether an octet's SP is free and working in the receive direction. -/
def spareFreeRx (s : State) (o : Nat) : Bool :=
  spareWorks s o && (octet s o).rxSpare.isNone && !(lane s (9 * o + 8)).los && !(lane s (9 * o + 8)).lol

/-- R332: whether it is in the transmit direction. -/
def spareFreeTx (s : State) (o : Nat) : Bool := spareWorks s o && (octet s o).txSpare.isNone

/-- Whether an octet's SP is free and working in both directions. -/
def spareFree (s : State) (o : Nat) : Bool := spareFreeRx s o && spareFreeTx s o

/-- R332: the octet whose SP carries the spare channel that this device sends. -/
def spareOctet (s : State) (p : Nat) : Option Nat :=
  if runsFec (port s p) then (portOctets s p).find? (spareFreeTx s) else none

/-- R332: the octet whose SP carries the peer's. -/
def spareOctetRx (s : State) (p : Nat) : Option Nat :=
  if runsFec (port s p) then (portOctets s p).find? (spareFreeRx s) else none

/-! ## Lane management commands (R333, R334) -/

/-- The present command is over: the next one is sent. -/
def nextLmc (s : State) (p : Nat) : State :=
  let x := port s p
  match x.lmcQ with
  | [] => setPort s p { x with lmc := none }
  | (c, a) :: r => startLmc (setPort s p { x with lmc := none, lmcQ := r }) p c a

/-- The order of the two ends for commands sent in the same frame (R334). -/
def ownOrder (s : State) (p : Nat) : Nat := (ownNode s).toNat * 64 + instId s * 16 + p
def peerOrder (s : State) (p : Nat) : Nat :=
  match (port s p).admitted with
  | some b => cNum b 5 2 * 64 + hf b 60 2 * 16 + hf b 56 4
  | none => 0

/-- The octet that a SPARE or UNSPARE of the peer names. [log 20, DEDUCED] -/
def argOctet (s : State) (p : Nat) (arg : BitVec 8) : Option Nat := (portOctets s p)[arg.toNat / 16]?

/-- Whether this side knows a command's argument. -/
def argKnown (s : State) (p cmd : Nat) (arg : BitVec 8) : Bool :=
  if cmd = 1 ∨ cmd = 2 then (argOctet s p arg).isSome && decide (arg.toNat % 16 < 8)
  else if cmd = 3 then decide (1 ≤ arg.toNat) && decide (arg.toNat ≤ 12)
  else arg == 1 || arg == 2

/-- R334: the two refusals. -/
def refusesLmc (s : State) (p cmd : Nat) (arg : BitVec 8) : Bool :=
  if cmd = 1 then
    match argOctet s p arg with
    | some o => let x := lane s (9 * o + 8)
                x.role == 4 || x.role == 5 || x.fused || x.los || x.lol
    | none => false
  else cmd == 4 && decide (offeredStage s p < arg.toNat)

/-- The lane on which the peer's position arrives. -/
def laneOfArg (s : State) (p : Nat) (arg : BitVec 8) : Option Nat :=
  (portLanes s p).find? fun l => l % 9 != 8 && (lane s l).peerLane == arg

/-- The state of an octet that stays on or off, after SP was taken or freed. -/
def settleOctet (s : State) (o : Nat) : State :=
  let s1 := updOctet s o fun x => { x with state := if x.state = 0 ∨ x.state = 1 then inUse x else x.state }
  let y := octet s1 o
  updLane s1 (9 * o + 8) fun x => { x with
    role := if x.role = 4 ∨ x.role = 5 then x.role else if y.rxSpare.isSome || y.txSpare.isSome then 3 else 1,
    pos := y.rxSpare.getD (y.txSpare.getD 15) }

/-- Carry a position on SP in the receive direction, or return it. -/
def spareRx (s : State) (p : Nat) (arg : BitVec 8) (on : Bool) : State :=
  match laneOfArg s p arg with
  | some l =>
    let pos := arg.toNat % 16
    let s1 := updOctet s (l / 9) fun x => { x with rxSpare := if on then some pos else none }
    settleOctet (updLane s1 l fun x => { x with
      role := if on then (if x.los || x.lol then 4 else 1) else 0, pos := if on then 15 else pos }) (l / 9)
  | none => s

/-- The same in the transmit direction: SP carries the position from the ACK on, and from the switch frame on alone. -/
def spareTx (s : State) (p : Nat) (arg : BitVec 8) (on switched : Bool) : State :=
  match argOctet s p arg with
  | some o => settleOctet (updOctet s o fun x => { x with
      txSpare := if on then some (arg.toNat % 16) else none, txFreed := on && switched }) o
  | none => s

/-- R334, R336: take a command of the peer: refuse it, or acknowledge it with the countdown; from the ACK onward a position
that is to be spared goes out on SP too. [log 21, DEDUCED] -/
def acceptLmc (s : State) (p cmd : Nat) (arg : BitVec 8) : State :=
  if refusesLmc s p cmd arg then emit s (.lane p 6 (BitVec.ofNat 8 cmd) 0)
  else
    let x := port s p
    let y := { x with
      peerCeil := if cmd = 3 then arg.toNat else x.peerCeil,
      lmc := some { cmd := cmd, arg := arg, own := false, at_ := s.clock, acked := true,
                    tx := some (reg s 0x2500 8, s.clock), rx := none, txDone := false, rxDone := false },
      lmcQ := match x.lmc with
        | some m => (m.cmd, m.arg) :: x.lmcQ
        | none => x.lmcQ }
    let s1 := setPort s p y
    emit (if cmd = 1 then spareTx s1 p arg true false else s1) (.lane p 5 (BitVec.ofNat 8 cmd) (reg s 0x2500 8))

/-- R334: a command of the peer, while one command at a time is in progress on the port. [log 20, DEDUCED] -/
def peerLmc (p cmd : Nat) (arg : BitVec 8) (s : State) : State :=
  let x := port s p
  if !runsFec x ∨ !x.state.works ∨ !argKnown s p cmd arg then s
  else
    match x.lmc with
    | none => acceptLmc s p cmd arg
    | some m =>
      if !m.own ∨ m.acked ∨ ownOrder s p < peerOrder s p then s else acceptLmc s p cmd arg

def execSpare (port : Fin 12) (arg : BitVec 8) (s : State) : Host.Outcome State Fault Refusal :=
  .next (peerLmc port 1 arg s)
def execUnspare (port : Fin 12) (arg : BitVec 8) (s : State) : Host.Outcome State Fault Refusal :=
  .next (peerLmc port 2 arg s)
def execWidth (port : Fin 12) (arg : BitVec 8) (s : State) : Host.Outcome State Fault Refusal :=
  .next (peerLmc port 3 arg s)
def execShift (port : Fin 12) (arg : BitVec 8) (s : State) : Host.Outcome State Fault Refusal :=
  .next (peerLmc port 4 arg s)

/-- R334: whether a command changes both directions. -/
def bothWays (cmd : Nat) : Bool := cmd == 3 || cmd == 4

/-- R334: ACK starts the countdown of the receive direction from its CDOWN; a change of both directions is acknowledged by both
transmitters, each for its own direction. [log 21, DEDUCED] -/
def ackLmc (p : Nat) (arg : BitVec 8) (countdown : Nat) (s : State) : State :=
  let x := port s p
  match x.lmc with
  | some m =>
    if m.cmd ≠ arg.toNat ∨ m.rx.isSome ∨ m.rxDone then s
    else if m.own ∧ !m.acked then
      let y := { m with acked := true, rx := some (countdown, s.clock) }
      if bothWays m.cmd then
        emit (setPort s p { x with lmc := some { y with tx := some (reg s 0x2500 8, s.clock) } }) (.lane p 5 arg (reg s 0x2500 8))
      else setPort s p { x with lmc := some y }
    else if !m.own ∧ bothWays m.cmd then setPort s p { x with lmc := some { m with rx := some (countdown, s.clock) } }
    else s
  | none => s

def execAck (port : Fin 12) (arg : BitVec 8) (countdown : BitVec 8) (s : State) : Host.Outcome State Fault Refusal :=
  .next (ackLmc port arg countdown.toNat s)

/-- R334: REFUSE ends the pending command without change. -/
def refuseLmc (p : Nat) (arg : BitVec 8) (s : State) : State :=
  match (port s p).lmc with
  | some m => if m.own ∧ !m.acked ∧ m.cmd = arg.toNat then nextLmc s p else s
  | none => s

def execRefuse (port : Fin 12) (arg : BitVec 8) (s : State) : Host.Outcome State Fault Refusal :=
  .next (refuseLmc port arg s)

/-- R334: a command is repeated for 20 µs at most. -/
def lmcRepeatTimeout (p : Nat) (s : State) : State :=
  match (port s p).lmc with
  | some m => if m.own ∧ !m.acked ∧ passed s m.at_ (usMt 20) then nextLmc s p else s
  | none => s

def execLmcRepeatTimeout (port : Fin 12) (s : State) : Host.Outcome State Fault Refusal :=
  .next (lmcRepeatTimeout port s)

/-! ## The switch frame (R335 to R339) -/

/-- R339: the transmitter's stage shift begins: the block stream stops at a frame boundary and training frames go out with the
settings kept for the new stage. -/
def beginShift (s : State) (p : Nat) (st : Stage) : State :=
  if (port s p).stage = some st then s
  else
    let s1 := updPort (completeFrames s p) p fun x => { x with
      shifting := some (x.shifting.getD (st, s.clock)), trying := some st, readyAt := none, starting := none, rxStart := none }
    updLanes s1 p fun l x => loadSetting st { freshStep (channelType s1 (l / 9)) s.clock x with preset := false }

/-- R339: the peer's transmitter has begun its shift: the timers are suspended from the first switch frame on. -/
def peerShifts (s : State) (p : Nat) (st : Stage) : State :=
  updPort s p fun x => if x.stage = some st ∨ x.shifting.isSome then x else { x with shifting := some (st, s.clock) }

/-- What an acknowledged command changes in this side's transmit direction. -/
def switchTx (s : State) (p : Nat) (m : Lmc) : State :=
  if m.cmd = 1 ∨ m.cmd = 2 then spareTx s p m.arg (m.cmd == 1) true
  else if m.cmd = 3 then widthTx s p
  else beginShift s p (Stage.ofCode m.arg.toNat)

/-- What it changes in this side's receive direction. -/
def switchRx (s : State) (p : Nat) (m : Lmc) : State :=
  if m.cmd = 1 ∨ m.cmd = 2 then spareRx s p m.arg (m.cmd == 1)
  else if m.cmd = 3 then widthRx s p
  else peerShifts s p (Stage.ofCode m.arg.toNat)

/-- R334: a countdown of a port has passed. -/
def counted (s : State) (p : Nat) (c : Option (Nat × Mt)) : Bool := c.any fun x => countedDown s x.2 x.1 (port s p).stage

/-- R334: every direction concerned has made its change. -/
def lmcOver (m : Lmc) : Bool := (m.txDone || (m.own && !bothWays m.cmd)) && (m.rxDone || (!m.own && !bothWays m.cmd))

/-- Note that directions of the present command have changed; once all have, the next command is sent. -/
def noteSwitched (s : State) (p : Nat) (tx rx : Bool) : State :=
  match (port s p).lmc with
  | some m =>
    let y := { m with txDone := m.txDone || tx, rxDone := m.rxDone || rx,
                      tx := if tx then none else m.tx, rx := if rx then none else m.rx }
    if lmcOver y then nextLmc s p else updPort s p fun x => { x with lmc := some y }
  | none => s

/-- R334, R172: the switch frame of each direction, once its countdown has passed. -/
def switchFrame (p : Nat) (s : State) : State :=
  match (port s p).lmc with
  | some m =>
    let tx := counted s p m.tx
    let rx := counted s p m.rx
    if !tx ∧ !rx then s
    else
      let s1 := if rx then switchRx s p m else s
      let s2 := if tx then switchTx s1 p m else s1
      originateDrift (noteSwitched s2 p tx rx)
  | none => s

def execSwitchFrame (port : Fin 12) (s : State) : Host.Outcome State Fault Refusal := .next (switchFrame port s)

/-- R339: a shift not complete within the shift limit. -/
def shiftTimeout (p : Nat) (s0 : State) : State :=
  let s := afterShift s0 p
  match (port s p).shifting with
  | some (_, t) => if passed s t (usMt (reg s 0x2500 7)) then linkDown s p 3 0 else s
  | none => s

def execShiftTimeout (port : Fin 12) (s : State) : Host.Outcome State Fault Refusal := .next (shiftTimeout port s)

/-- R338: the octets that the usable width adds send training frames again. -/
def wakeOctets (s : State) (p : Nat) : State :=
  ((octetsFor s p).filter fun o => (octet s o).state == 3).foldl (wakeOctet p) (updPort s p fun x => { x with widening := true })

/-- R338: every octet that is to go on again has held marker lock for 20 µs. -/
def octetsAwake (s : State) (p : Nat) : Bool :=
  (((workingOctets s p).take (usableWidth s p)).filter fun o => (octet s o).state == 3).all fun o =>
    decide (8 ≤ ((octetLanes o).filter fun l => !deaf (lane s l) && (lane s l).marker.any fun t => passed s t (usMt 20)).length)

/-- R338: the WIDTH that uses the octets again. -/
def widenWhenAwake (s : State) (p : Nat) : State :=
  if (port s p).widening ∧ octetsAwake s p then
    startLmc (updPort s p fun x => { x with widening := false }) p 3 (BitVec.ofNat 8 (port s p).ceiling)
  else s

/-- R338: the power controller sets a width ceiling: WIDTH tells the peer, at once or when the octets that it switches on are
awake; or the next training takes it. -/
def setCeiling (s : State) (p n : Nat) : State :=
  if (port s p).ceiling = n then s
  else
    let s1 := updPort s p fun x => { x with ceiling := n }
    if working s1 p ∧ (spareOctet s1 p).isSome then
      let s2 := abandonSlice s1 p false
      if (port s2 p).txWidth < usableWidth s2 p then widenWhenAwake (wakeOctets s2 p) p
      else startLmc (updPort s2 p fun x => { x with widening := false }) p 3 (BitVec.ofNat 8 n)
    else s1

/-- R318, R338: a training frame; an octet that is switched on again may be awake by it. -/
def frameReceive (l : Nat) (control : BitVec 64) (s : State) : State :=
  let t := trainingFrameReceive l control s
  match octetPort s (l / 9) with
  | some p => widenWhenAwake t p
  | none => t

def execTrainingFrameReceive (lane : Fin 108) (control : BitVec 64) (s : State) :
    Host.Outcome State Fault Refusal := .next (frameReceive lane control s)

/-- R404: order a port to a stage by SHIFT. -/
def orderShift (s : State) (p : Nat) (st : Stage) : State :=
  if working s p ∧ runsFec (port s p) ∧ (port s p).stage ≠ some st then
    startLmc (abandonSlice s p false) p 4 (BitVec.ofNat 8 st.code)
  else s

/-! ## Lanes that fail (R330, R331, R335) -/

/-- The logical position a failing lane is reported by. -/
def failPos (l : Nat) (x : Lane) : Nat := if l % 9 = 8 then 8 else if x.pos < 8 then x.pos else l % 9

/-- Whether a SPARE of this side for a position of an octet is on its way, so that the SP is spoken for. [log 20, DEDUCED] -/
def sparePending (s : State) (p o : Nat) : Bool :=
  let sent := match (port s p).lmc with
    | some m => if m.own && m.cmd == 1 then [m.arg] else []
    | none => []
  let queued := ((port s p).lmcQ.filter fun c => c.1 == 1).map (·.2)
  (sent ++ queued).any fun a => (laneOfArg s p a).map (· / 9) == some o

/-- R335: an octet that goes out of use needs no SPARE any more: one that is not acknowledged is given up, so that lanes that
fail together are taken as one event. [log 20, DEDUCED] -/
def dropSpares (s : State) (p o : Nat) : State :=
  let here (a : BitVec 8) := (laneOfArg s p a).map (· / 9) == some o
  updPort s p fun x => { x with
    lmcQ := x.lmcQ.filter fun c => !(c.1 == 1 && here c.2)
    lmc := match x.lmc with
      | some m => if m.own && !m.acked && m.cmd == 1 && here m.arg then none else some m
      | none => none }

/-- R335: the failing lanes of a port that are in service: of octets in use, with data or as SP. -/
def failingLanes (s : State) (p : Nat) : List Nat :=
  (port s p).failing.filter fun l =>
    let x := lane s l
    (usedOctets s p).contains (l / 9) && x.role != 4 && x.role != 5 && x.pos != (if l % 9 = 8 then 16 else 15)

/-- Whether an SP carries no position in the receive direction, and none on its way. -/
def spIdle (s : State) (p o : Nat) : Bool := (octet s o).rxSpare.isNone && !sparePending s p o

/-- R335 row 1: an SP that is not in use is marked failed. -/
def failSp (s : State) (l : Nat) : State := report (updLane s l fun z => { z with role := 4 }) 1 (l / 9) 5 8

/-- R335 row 2: SPARE for the position of a lane. -/
def spareLane (p : Nat) (s : State) (l : Nat) : State := startLmc (report s 1 (l / 9) 4 (failPos l (lane s l))) p 1 (lane s l).peerLane

/-- R335 row 3: an octet goes out of use. [log 20, DEDUCED] -/
def removeOctet (p : Nat) (s : State) (l : Nat) : State :=
  let o := l / 9
  if (octet s o).state = 2 then s
  else report (updOctet (dropSpares s p o) o fun x => { x with state := 2 }) 1 o 6 (failPos l (lane s l))

/-- R335: the table for the lanes that have failed together, as one event: the SPs not in use are marked failed; one position of
an octet goes to its SP; an octet that this does not repair goes out of use; where that does not repair all of them, or the
spare channel that it needs is absent, the link goes down. [log 20, DEDUCED] -/
def repairLanes (s : State) (p : Nat) (ls : List Nat) : State :=
  let idle := ls.filter fun l => l % 9 == 8 && spIdle s p (l / 9)
  let rest := ls.filter fun l => !idle.contains l
  let s1 := rest.foldl (fun t l => if l % 9 = 8 then t else updLane t l fun z => { z with role := 4 }) (idle.foldl failSp s)
  let alone (l : Nat) := (rest.filter fun k => k / 9 == l / 9).length == 1
  let spared := rest.filter fun l => l % 9 != 8 && alone l && spareFreeRx s1 (l / 9) && !sparePending s1 p (l / 9)
  let lost := rest.filter fun l => !spared.contains l
  let octets := ((portOctets s p).filter fun o => lost.any fun l => l / 9 == o).length
  if rest = [] then s1
  else if (spareOctet (lost.foldl (removeOctet p) s1) p).isNone ∨
      (lost ≠ [] ∧ (workingOctets s1 p).length < max 1 (minWidth s1 p) + octets) then linkDown s1 p 3 0
  else
    let s2 := spared.foldl (spareLane p) s1
    if lost = [] then s2
    else
      let s3 := updPort (lost.foldl (removeOctet p) s2) p fun x => { x with state := if x.state = .up then .degraded else x.state }
      startLmc s3 p 3 (BitVec.ofNat 8 (usableWidth s3 p))

/-- R422: an UNSPARE of this side is still to take effect. -/
def unsparing (s : State) (p : Nat) : Bool :=
  (match (port s p).lmc with
    | some m => m.own && m.cmd == 2
    | none => false) || (port s p).lmcQ.any fun c => c.1 == 2

/-- R335, R422: the lanes of a port that have failed within 1 µs are taken together, after an UNSPARE that an abandoned slice
sends. [log 20, DEDUCED] -/
def settleFails (s : State) (p : Nat) : State :=
  match (port s p).failAt with
  | some t =>
    if !passed s t (usMt 1) ∨ unsparing s p then s
    else
      let ls := failingLanes s p
      let s1 := updPort s p fun x => { x with failing := [], failAt := none }
      if !runsFec (port s p) then s1 else repairLanes s1 p ls
  | none => s

/-- R335: a lane of a port at stage B or C has failed. [log 20, DEDUCED] -/
def failFec (s : State) (p l : Nat) : State :=
  updPort s p fun x => { x with failing := insertNat x.failing l, failAt := some (x.failAt.getD s.clock) }

/-- What a lane's loss of signal or lock does to its port. -/
def laneFail (s : State) (l : Nat) : State :=
  match octetPort s (l / 9) with
  | none => s
  | some p =>
    let x := port s p
    if x.trying.isSome ∧ !stageDone x then
      updLane s l fun z => { z with aligned := false, commas := 0, sets := 0, marker := none }
    else if !stageDone x then s
    else if x.stage = some .a then
      (if (octet s (l / 9)).state = 0 ∨ (octet s (l / 9)).state = 1 then
        (if (lane s l).role = 4 ∨ (lane s l).role = 5 then s else linkDown s p 3 0) else s)
    else
      let spoiled := l % 9 = 8 ∧ (x.slice.map fun z => z.1 / 9) = some (l / 9)
      let s1 := abandonSlice (settleFails s p) p false
      if spoiled then failSp s1 l else failFec s1 p l

/-- R330: loss of signal. -/
def laneLos (l : Nat) (s : State) : State :=
  let x := lane s l
  if x.los then s
  else
    let s1 := setLane (bumpAt s 0x2100 4 l) l { x with los := true, losAt := s.clock }
    laneFail (report s1 1 (l / 9) 2 (failPos l x)) l

def execLaneLos (lane : Fin 108) (s : State) : Host.Outcome State Fault Refusal := .next (laneLos lane s)

/-- R311: a lane that gains bit lock is watched from the first offset on. -/
def lockAgain (now : Mt) (x : Lane) : Lane :=
  if x.aligned || x.los || x.lol then x else { x with offset := 0, slips := 0, slipAt := now, commas := 0 }

/-- R330, R300, R322: signal again: an ABSENT port that may train begins. -/
def laneLosClear (l : Nat) (s : State) : State :=
  if !(lane s l).los then s
  else
    let s1 := updLane s l fun x => lockAgain s.clock { x with los := false }
    match octetPort s (l / 9) with
    | some p => if (port s1 p).state = .absent then releasePort s1 p else s1
    | none => s1

def execLaneLosClear (lane : Fin 108) (s : State) : Host.Outcome State Fault Refusal :=
  .next (laneLosClear lane s)

/-- R331: loss of lock. -/
def laneLol (l : Nat) (s : State) : State :=
  let x := lane s l
  if x.lol then s
  else
    let s1 := setLane (bumpAt s 0x2100 5 l) l { x with lol := true, lolAt := s.clock }
    laneFail (report s1 1 (l / 9) 3 (failPos l x)) l

def execLaneLol (lane : Fin 108) (s : State) : Host.Outcome State Fault Refusal := .next (laneLol lane s)

/-- R331: lock has held for 10 µs. -/
def laneLolClear (l : Nat) (s : State) : State := updLane s l fun x => if x.lol then lockAgain s.clock { x with lol := false } else x

def execLaneLolClear (lane : Fin 108) (s : State) : Host.Outcome State Fault Refusal :=
  .next (laneLolClear lane s)

/-! ## Codewords (R324, R325, R331) -/

/-- The corrected symbols of a lane in the last 1 µs. -/
def recentOf (s : State) (x : Lane) : List (Mt × Nat) := x.recent.filter fun r => decide (s.clock < r.1 + usMt 1)
def recentSum (s : State) (x : Lane) : Nat := ((recentOf s x).map (·.2)).foldl (· + ·) 0

/-- Count the corrected symbols of a codeword at their lanes. -/
def countSymbols (s : State) (o c : Nat) (errs : List Nat) : State :=
  errs.foldl (fun t e =>
    let l := carrier t o (symbolLane c e)
    updLane (bumpAt t 0x2100 6 l) l fun x => { x with recent := (t.clock, 1) :: recentOf t x }) s

/-- R325: an uncorrectable codeword sets the flags of the lanes with most corrected symbols. [log 21, DEDUCED] -/
def flagLanes (s : State) (o : Nat) : State :=
  let ls := octetLanes o
  let top := (ls.map fun l => recentSum s (lane s l)).foldl max 0
  let hit := ls.filter fun l => decide (top ≤ 2 * recentSum s (lane s l))
  let mask := (hit.map fun l => 2 ^ (l % 9)).foldl (· + ·) 0
  let s1 := hit.foldl (fun t l => updLane t l fun x => { x with flagged := true, flagFrame := true }) s
  report (bumpAt s1 0x2200 4 o) 1 o 1 mask

/-- R325: the data bytes of an uncorrectable codeword of the present frame are marked. -/
def markWord (s : State) (o c : Nat) : State :=
  updOctet s o fun x => { x with badWords := x.badWords ++ [(x.frame, c)] }

/-- The next FEC frame of an octet begins; marks are kept for the packets of the last 16 frames. [log 21, DEDUCED] -/
def nextFrame (x : Octet) : Octet :=
  { x with frame := x.frame + 1, badWords := x.badWords.filter fun w => decide (x.frame < w.1 + 16) }

/-- R331: at the end of a frame, lanes flagged in eight frames in a row lose lock. -/
def endFrame (s : State) (o : Nat) : State :=
  (octetLanes o).foldl (fun t l =>
    let x := lane t l
    let run := if x.flagFrame then x.flagRun + 1 else 0
    let t1 := setLane t l { x with flagFrame := false, flagRun := run }
    if 8 ≤ run then laneLol l t1 else t1) s

/-- R325: a received codeword of an octet is decoded. [log 21, DEDUCED; log 47, DESIGN CHOICE] -/
def codewordDecode (o c : Nat) (symbols : List (BitVec 10)) (s : State) : State :=
  match octetPort s o with
  | none => s
  | some p =>
    let on := (octet s o).state = 0 ∨ (octet s o).state = 1
    if !runsFec (port s p) ∨ ¬ on ∨ symbols.length ≠ 240 then s
    else
      let s1 := match rsErrors (symbols.map BitVec.toNat) with
        | some [] => s
        | some errs => countSymbols (bumpAt s 0x2200 3 o) o c errs
        | none => markWord (flagLanes s o) o c
      if c = 3 then updOctet (endFrame s1 o) o nextFrame else s1

def execCodewordDecode (octet : Fin 12) (codeword : Fin 4) (symbols : List (BitVec 10)) (s : State) :
    Host.Outcome State Fault Refusal := .next (codewordDecode octet codeword symbols s)

end Sys2Proof.Machine
end

