-- ==== Sys2Proof/Machine/Disable.lean ====
section
/-! DEFINITION. Disabling a context with work in flight (R103, R104, R144, R145): the steps of the disable
sequence, the end of its drain time and of its work, and the writes that start it (R106). -/

namespace Sys2Proof.Machine

/-- R144 step 2: the command numbered n, if a slot holds it, is accepted and completes with CANCELLED. -/
def cancelSlot (c : Nat) (s : State) (n : Nat) : State :=
  let x := ctx s c
  match tget x.slots (n % 16) with
  | none => s
  | some b =>
    finishAtOnce (mirrorTouch (setCtx s c { x with slots := tdel x.slots (n % 16), accept := (x.accept + 1) % 2 ^ 64 }) c)
      c n b .cancelled

/-- R144: the commands in the slots of a context end as CANCELLED. [log 22, DEDUCED] -/
def cancelSlots (s : State) (c : Nat) : State :=
  let a := (ctx s c).accept
  ((List.range 16).map (a + ·)).foldl (cancelSlot c) s

/-- R127, R132, R144 step 3: before anything is cancelled the FENCEs that are met complete, in number order: the
completion of one may meet the next. -/
def metFences (s : State) (c : Nat) : State :=
  (ctx s c).cmds.foldl (fun t m => fenceComplete c m.num t) s

/-- R144 steps 3 and 4 for one command: what waits completes with CANCELLED, a FENCE not yet met too; what is being cut
is cut no further. [log 22, DEDUCED] -/
def cancelCmd (c : Nat) (s : State) (m : Cmd) : State :=
  match m.phase with
  | .waiting | .fencing => completeCmd s c m .cancelled
  | .issuing =>
    let open_ := m.pos < m.total
    settleCmd (putCmd s c { m with pos := m.total, status := if open_ then worse m.status .cancelled else m.status })
      c m.num
  | .collective _ => s

/-- R144 steps 4 and 6: the held operations of a context; `lent` with those that R104 counts as transmitted. -/
def cancelHelds (s : State) (c : Nat) (lent : Bool) : State :=
  (s.held.filter fun o => o.ctx == c && (lent || !isLent o)).foldl cancelHeld s

/-- R104: an issued operation that has not been transmitted: its packet leaves the store. -/
def cancelUnsent (s : State) (tag : Nat) : State :=
  let s1 := (s.pkts.filter fun x => x.own == some tag).foldl (fun t x => dropPkt t x.id) s
  completeTag s1 tag .cancelled [] 0 false true false

def cancelUnsents (s : State) (c : Nat) : State :=
  ((s.tracks.filter fun t => t.2.op.ctx == c && !t.2.sent && !isLent t.2.op).map (·.1)).foldl cancelUnsent s

/-- R103: the status of a transmitted operation when the drain time ends. -/
def drainStatus (k : OpKind) : Status := if k = .load then .cancelled else .outcomeUnknown

/-- R144 step 6: the operations still open are completed. -/
def endOpen (s : State) (c : Nat) : State :=
  (s.tracks.filter fun t => t.2.op.ctx == c).foldl
    (fun t x => completeTag t x.1 (drainStatus x.2.op.kind) [] 0 false true false) s

/-- Nothing of a context is in flight. [log 22, DEDUCED] -/
def drained (s : State) (c : Nat) : Bool :=
  !(s.tracks.any fun t => t.2.op.ctx == c) && !(s.held.any fun o => o.ctx == c) && (ctx s c).cmds.isEmpty

/-- R144 step 6: grants freed, the final mirror written, HALTED entered once memory has taken it. [log 22, DEDUCED] -/
def finishDisable (s : State) (c : Nat) : State :=
  let s1 := freeGrantsOf s c
  if (ctx s1 c).mirror = 0 then enterHalted s1 c
  else issueMirror (updCtx s1 c fun x => { x with halting := true }) c

/-- Finish the sequence of a DRAINING context once nothing of it is in flight. -/
def tryFinish (s : State) (c : Nat) : State :=
  let x := ctx s c
  if x.state = .draining ∧ !x.halting ∧ drained s c then finishDisable s c else s

/-- The drain time is over. [log 22, DEDUCED] -/
def drainOver (s : State) (c : Nat) : State := tryFinish (cancelHelds (endOpen s c) c true) c

/-- R144: begin the disable sequence of an ENABLED context with a drain time in µs. -/
def beginDisable (s : State) (c drainUs : Nat) : State :=
  if (ctx s c).state ≠ .enabled then s
  else
    let s1 := mirrorTouch (updCtx s c fun x => { x with
      state := .draining, drainAt := s.clock, drainFor := usMt drainUs }) c
    let s2 := metFences (cancelSlots s1 c) c
    let s3 := abortContext ((ctx s2 c).cmds.foldl (cancelCmd c) s2) c
    let s4 := cancelUnsents (cancelHelds s3 c false) c
    if drainUs = 0 then drainOver s4 c else tryFinish s4 c

/-- R380: reset a context: the sequence with a drain time of 0. -/
def resetContext (s : State) (c : Nat) : State :=
  match (ctx s c).state with
  | .enabled => beginDisable s c 0
  | .draining =>
    if (ctx s c).halting then s else drainOver (updCtx s c fun x => { x with drainFor := s.clock - x.drainAt }) c
  | _ => s

/-- R106: disable. -/
def applyDisable (c : Nat) (s : State) : Verdict :=
  let x := ctx s c
  if x.state = .off then ok s
  else require (x.state == .enabled) (ok (beginDisable s c x.drainUs))

def execContextDisable (w : WriteHdr) (s : State) : Host.Outcome State Fault Refusal :=
  .next (dictWrite w 0x4000 3 [2] (fun t => applyDisable (selectedCtx t w) t) s)

/-- R145: the drain time of a DRAINING context has passed. -/
def drainTimeExpiry (c : Nat) (s : State) : State :=
  let x := ctx s c
  if x.state = .draining ∧ !x.halting ∧ passed s x.drainAt x.drainFor then drainOver s c else s

def execDrainTimeExpiry (ctx : Fin 4096) (s : State) : Host.Outcome State Fault Refusal :=
  .next (drainTimeExpiry ctx s)

/-- R144: every transmitted operation has been answered. -/
def execContextDrainComplete (ctx : Fin 4096) (s : State) : Host.Outcome State Fault Refusal :=
  .next (tryFinish s ctx)

/-- R34, R106: every ENABLED context bound to a partition table entry is disabled. -/
def disableBound (s : State) (e : Nat) : State :=
  (s.ctxs.filter fun x => x.2.partEnt == e && x.2.state == .enabled).foldl
    (fun t x => beginDisable t x.1 x.2.drainUs) s

end Sys2Proof.Machine
end

