-- ==== Sys2Proof/Machine/Tables.lean ====
section
/-! DEFINITION. Writes of the tables of chapters 02 and 08 with what follows from them: partitions, ranks,
incarnations (R60), windows, port directions and datelines (R236, R237), and the routing banks with their
flips (R256 to R260). -/

namespace Sys2Proof.Machine

/-- The selection of the session that writes, in a select entry. -/
def wsel (s : State) (w : WriteHdr) (index sub : Nat) : Nat := selected s (ownerOf w.path) index sub

/-! ## Partitions, keys and shares (R36, R53, R254, R106, R176) -/

/-- A partition table write; the contexts of an entry made invalid are disabled. -/
def applyPartitionWrite (v : BitVec 64) (s : State) : Verdict :=
  let e := fld v.toNat 0 6
  match applyPartition v s with
  | .done t b => .done (if partValid s e ∧ !partValid t e then disableBound t e else t) b
  | x => x

def execPartitionEntryWrite (w : WriteHdr) (value : BitVec 64) (s : State) : Host.Outcome State Fault Refusal :=
  .next (dictWrite w 0x3100 1 (leBytes 8 value.toNat) (applyPartitionWrite value) s)

def execPortKeyWrite (w : WriteHdr) (value : BitVec 32) (s : State) : Host.Outcome State Fault Refusal :=
  .next (dictWrite w 0x3400 1 (leBytes 4 value.toNat) (applyPortKey value) s)

def execShareWrite (w : WriteHdr) (value : BitVec 32) (s : State) : Host.Outcome State Fault Refusal :=
  .next (dictWrite w 0x3A00 1 (leBytes 4 value.toNat) (applyShare value) s)

/-! ## Ranks and incarnations (R38, R60) -/

def execRankEntryWrite (w : WriteHdr) (value : BitVec 32) (s : State) : Host.Outcome State Fault Refusal :=
  .next (dictWrite w 0x3200 2 (leBytes 4 value.toNat) (fun t => applyRank (wsel t w 0x3200 1) value t) s)

/-- R60: every outstanding operation to a node, or with the own node every one, completes with RETIRED. -/
def retireOps (s : State) (n : NodeId) : State :=
  (s.tracks.filter fun t => n == ownNode s || t.2.op.side.node == n).foldl
    (fun t x => completeTag t x.1 .retired [] 0 false true false) s

/-- R60, R176, R454: what follows from a changed incarnation of node n. [log 24, DEDUCED] -/
def incarnationChanged (s : State) (n : NodeId) : State :=
  let s1 := if n = ownNode s then { s with tables := { s.tables with retiredSelf := true } } else s
  incarnationPorts (abortNode (retireOps s1 n) n) n

/-- R60: an incarnation write. -/
def applyIncarnation (v : BitVec 32) (s : State) : Verdict :=
  let n := BitVec.ofNat 16 (fld v.toNat 0 16)
  let inc := BitVec.ofNat 8 (fld v.toNat 16 8)
  let t := shareUpdate (.incarnation n inc) s
  ok (if incOf s n = inc then t else incarnationChanged t n)

def execIncarnationWrite (w : WriteHdr) (value : BitVec 32) (s : State) : Host.Outcome State Fault Refusal :=
  .next (dictWrite w 0x3300 1 (leBytes 4 value.toNat) (applyIncarnation value) s)

/-! ## Windows (R42 to R45, R63, R64) -/

def execWindowEntryWrite (w : WriteHdr) (value : BitVec 64) (s : State) : Host.Outcome State Fault Refusal :=
  .next (dictWrite w 0x4200 2 (leBytes 8 value.toNat) (fun t => applyWindow (wsel t w 0x4200 1) value t) s)

def execWindowDescriptorWrite (w : WriteHdr) (value : BitVec 64) (s : State) :
    Host.Outcome State Fault Refusal :=
  .next (dictWrite w 0x4210 2 (leBytes 8 value.toNat) (fun t => applyDescriptor (wsel t w 0x4210 1) value t) s)

/-- R64: a drain waits for the accesses translated before it, and for what is still to be re-issued to a lender; with
none it ends at once. 0x4200.04 has scope S, and whether the drain also waits for requests that the package's other insts
translated is not said: each inst waits for its own. [log 24, DEDUCED; log 54, DESIGN CHOICE] -/
def applyDrain (q : DictReq) (s : State) : Verdict :=
  if s.accesses = [] ∧ !s.held.any isLent then ok s
  else .later { s with
    accesses := s.accesses.map fun a => { a with drained := true },
    held := s.held.map fun o => { o with drained := isLent o },
    tables := { s.tables with drain := some (s.clock, q) } }

def execWindowDrain (w : WriteHdr) (s : State) : Host.Outcome State Fault Refusal :=
  .next (dictWrite w 0x4200 4 [1] (applyDrain (writeReq w 0x4200 4 [1])) s)

/-! ## Directions, levels and datelines (R233, R234, R236, R237) -/

/-- R236: the default levels of a port, as the present direction and datelines give them. [log 23, DEDUCED] -/
def computeLevels (s : State) (p : Nat) : State :=
  setRegAt (setRegAt s 0x3600 3 p (defaultLout s p)) 0x3600 4 p (defaultLin s p)

/-- R233, R236, R237: a direction write. -/
def applyDirection (p v : Nat) (s : State) : Verdict :=
  inRange (decide (v ≤ 6)) (require (!working s p) (ok (computeLevels (setRegAt s 0x3600 2 p v) p)))

def execPortDirectionWrite (w : WriteHdr) (value : BitVec 8) (s : State) : Host.Outcome State Fault Refusal :=
  .next (dictWrite w 0x3600 2 [value] (fun t => applyDirection (wsel t w 0x3600 1) value.toNat t) s)

/-- R236, R237: a level written by the fabric manager. -/
def applyLevel (sub p v : Nat) (s : State) : Verdict :=
  require (!working s p) (ok (setRegAt s 0x3600 sub p v))

/-- Whether a port lies in a dimension. -/
def inDim (s : State) (d p : Nat) : Bool := dirOf s p != 0 && decide (dirOf s p ≤ 6) && dirDim (dirOf s p) == d

/-- R234, R236, R237, R460: a dateline write. The listed range is a coordinate; the torus size is another
entry's value. [log 23, DEDUCED] -/
def applyDateline (d v : Nat) (s : State) : Verdict :=
  inRange (decide (v < (if d = 0 then 64 else 32)))
    (require (decide (v < torusSize s d) && !(twelve.any fun p => inDim s d p && working s p))
      (ok ((twelve.filter (inDim s d)).foldl computeLevels (setReg s 0x3600 (5 + d) v))))

def execDatelineWrite (w : WriteHdr) (dim : Fin 3) (value : BitVec 8) (s : State) :
    Host.Outcome State Fault Refusal :=
  .next (dictWrite w 0x3600 (5 + dim.val) [value] (applyDateline dim value.toNat) s)

/-! ## The banks (R239, R240, R247, R251, R256, R257) -/

/-- R257, R256: whether a bank takes writes. -/
def bankOpen (s : State) (b : Nat) : Bool :=
  bankState s.tables b == .free || (bankState s.tables b == .active && !s.tables.worked)

/-- A bank of two as an operand of an update. -/
def fin2 (b : Nat) : Fin 2 := if b = 0 then 0 else 1

/-- R240: a route entry write. -/
def applyRouteEntry (b i v : Nat) (s : State) : Verdict :=
  let pref := fld v 0 2
  let ap := bitAt v 2
  let am := bitAt v 3
  inRange (pref != 3)
    (require (bankOpen s b && !(pref == 1 && am && !ap) && !(pref == 2 && ap && !am))
      (ok (shareUpdate (.routeEntry (fin2 b) (BitVec.ofNat 16 i) (BitVec.ofNat 8 (fld v 0 4))) s)))

def execRouteEntryWrite (w : WriteHdr) (value : BitVec 8) (s : State) : Host.Outcome State Fault Refusal :=
  .next (dictWrite w 0x3700 3 [value]
    (fun t => applyRouteEntry (wsel t w 0x3700 1) (wsel t w 0x3700 2) value.toNat t) s)

/-- R239: the route set of a partition table entry. -/
def applySelector (b e v : Nat) (s : State) : Verdict :=
  if h : e < 64 ∧ v < 16 then require (bankOpen s b) (ok (shareUpdate (.selector (fin2 b) ⟨e, h.1⟩ ⟨v, h.2⟩) s))
  else outOfRange

/-- R251: the extent of a route set and axis. -/
def applyExtent (b i v : Nat) (s : State) : Verdict :=
  let word := fld v 0 6 + fld v 8 6 * 256 + fld v 15 1 * 32768
  require (bankOpen s b) (ok (shareUpdate (.extent (fin2 b) (BitVec.ofNat 8 i) (BitVec.ofNat 16 word)) s))

/-- R247: a route exception write. [log 23, DEDUCED] -/
def applyException (b i v : Nat) (s : State) : Verdict :=
  let act := fld v 38 2
  if h : i < 4096 then
    inRange (fld v 57 7 == 0 && act != 3 && !(act == 0 && decide (11 < fld v 40 4)))
      (require (bankOpen s b && !(act == 1 && bitAt v 37))
        (ok (shareUpdate (.exception (fin2 b) ⟨i, h⟩ (BitVec.ofNat 64 v)) s)))
  else outOfRange

def execExceptionWrite (w : WriteHdr) (value : BitVec 64) (s : State) : Host.Outcome State Fault Refusal :=
  .next (dictWrite w 0x3710 2 (leBytes 8 value.toNat)
    (fun t => applyException (wsel t w 0x3700 1) (wsel t w 0x3710 1) value.toNat t) s)

/-- R257: a valid extent of a bank holds the dateline link of its axis inside it. -/
def extentsCross (s : State) (b : Nat) : Bool :=
  (bankOf s.tables b).extents.any fun x =>
    let axis := x.1 / 16 % 2
    bitAt x.2.toNat 15 &&
      datelineInside (torusSize s axis) (fld x.2.toNat 0 6) (fld x.2.toNat 8 6) (dateline s axis)

/-- R257: a FREE bank becomes READY. -/
def applyMarkReady (b : Nat) (s : State) : Verdict :=
  inRange (decide (b < 2))
    (require (bankState s.tables b == .free && !extentsCross s b) (ok (shareUpdate (.markReady (fin2 b)) s)))

def execBankMarkReady (w : WriteHdr) (value : BitVec 8) (s : State) : Host.Outcome State Fault Refusal :=
  .next (dictWrite w 0x3800 3 [value] (applyMarkReady value.toNat) s)

/-- R257: a READY bank returns to FREE. -/
def applyRelease2 (b : Nat) (s : State) : Verdict :=
  inRange (decide (b < 2))
    (require (bankState s.tables b == .ready && s.tables.flipAt == 0) (ok (shareUpdate (.release (fin2 b)) s)))

def execBankRelease (w : WriteHdr) (value : BitVec 8) (s : State) : Host.Outcome State Fault Refusal :=
  .next (dictWrite w 0x3800 0xA [value] (applyRelease2 value.toNat) s)

/-! ## Flips (R258 to R260) -/

/-- R258: the device's Meridian time; the UNSET count before it is set (R358). [log 25, DEDUCED] -/
def applyFlip (t : Nat) (s : State) : Verdict :=
  let due := s.tables.flipAt != 0 && timeCome s s.tables.flipAt
  if t = 0 then require (!due) (ok (if s.tables.flipAt = 0 then s else shareUpdate (.flipAt 0) s))
  else
    require (bankState s.tables (1 - activeBank s) == .ready && s.tables.flipAt == 0 &&
        (drainingBank s).isNone && decide (stamp s + 400000 ≤ t))
      (ok (shareUpdate (.flipAt (BitVec.ofNat 64 t)) s))

def execFlipSchedule (w : WriteHdr) (time : BitVec 64) (s : State) : Host.Outcome State Fault Refusal :=
  .next (dictWrite w 0x3800 4 (leBytes 8 time.toNat) (applyFlip time.toNat) s)

def execFlipCancel (w : WriteHdr) (s : State) : Host.Outcome State Fault Refusal :=
  .next (dictWrite w 0x3800 4 (zeros 8) (applyFlip 0) s)

/-- R259: the flip at T. [log 7, DESIGN CHOICE] -/
def epochFlip (s : State) : State :=
  if s.tables.flipAt = 0 ∨ !inTurn s 4 s.tables.flipAt then s
  else
    let old := activeBank s
    let t1 := setBankState (setBankState s.tables old .draining) (1 - old) .active
    noteQuiet { s with tables := { t1 with
      epochNr := (s.tables.epochNr + 1) % 2 ^ 32, flipped := s.tables.flipAt, flipAt := 0, quiet := none } }

def execEpochFlip (s : State) : Host.Outcome State Fault Refusal := .next (epochFlip s)

/-- The DRAINING bank becomes FREE. -/
def freeDraining (s : State) (b : Nat) : State :=
  { s with tables := { setBankState s.tables b .free with quiet := none } }

/-- R260: the count has stayed at 0 for the quiet time. [log 25, DEDUCED] -/
def drainingBankQuiet (s : State) : State :=
  match drainingBank s, s.tables.quiet with
  | some b, some t => if passed s t (usMt (reg s 0x3800 6)) then freeDraining s b else s
  | _, _ => s

def execDrainingBankQuiet (s : State) : Host.Outcome State Fault Refusal := .next (drainingBankQuiet s)

/-- R102, R103, R260: one old-epoch packet is dropped as not yet transmitted, with the access it waits for. [log 14, DEDUCED; log 25, DEDUCED] -/
def dropOldEpoch (s : State) (x : Pkt) : State :=
  let s1 := { s with accesses := s.accesses.filter fun a => a.pkt != some x.id }
  let s2 := bump (dropPkt s1 x.id) 0x3800 9
  sendSynthetic s2 x .notPerformed

/-- R260: the drain guard is reached. [log 25, DEDUCED] -/
def drainGuardExpiry (s : State) : State :=
  match drainingBank s with
  | some b =>
    if timeCome s (s.tables.flipped + usMt (reg s 0x3800 5)) then
      freeDraining ((oldEpochPkts s).foldl dropOldEpoch s) b
    else s
  | none => s

def execDrainGuardExpiry (s : State) : Host.Outcome State Fault Refusal := .next (drainGuardExpiry s)

end Sys2Proof.Machine
end

