-- ==== Sys2Proof/Machine/Charts.lean ====
section
/-! DEFINITION. The Charts unit (R261 to R265): intervals, samples and port records, the chart packets a
device sends, and those it performs as a collector. -/

namespace Sys2Proof.Machine

/-- The ports that have octets. [log 26, DEDUCED] -/
def formedPorts (s : State) : List Nat := twelve.filter fun p => decide (0 < portWidth s p)

/-! ## Samples (R262) -/

/-- The bucket of a VC of a port. -/
def bucketOf (s : State) (p v : Nat) : Nat :=
  let used := charged s (.egress p v)
  let share := egressShare s p v
  if bitAt (port s p).link.xoffRx.toNat v then 7
  else if used = 0 then 0
  else if used * 8 ≤ share then 1
  else if used * 4 ≤ share then 2
  else if used * 8 ≤ 3 * share then 3
  else if used * 2 ≤ share then 4
  else if used * 4 ≤ 3 * share then 5
  else 6

/-- One sample of a port: each VC in its bucket. -/
def samplePort (s : State) (p : Nat) : State :=
  updPort s p fun x => { x with
    hist := (List.range 5).foldl (fun h v => tput h (v * 8 + bucketOf s p v) (tgetD h (v * 8 + bucketOf s p v) 0 + 1)) x.hist }

/-- Sample k of the open interval is due k × L ÷ 255 after its start. [log 26, DEDUCED] -/
def chartSample (s : State) : State :=
  let k := s.charts.samples
  if k < 255 ∧ timed s ∧ s.charts.start * 255 + k * chartSpan s ≤ s.mer.count * 255 then
    let s1 := (formedPorts s).foldl samplePort s
    { s1 with charts := { s1.charts with samples := k + 1 } }
  else s

def execChartSample (s : State) : Host.Outcome State Fault Refusal := .next (chartSample s)

/-! ## The close of an interval (R261 to R263) -/

/-- A time in 1/65,536 mt as a share of the interval in units of 1/65,536. -/
def shareOf (s : State) (time : Nat) : Nat := min 65535 (time / chartSpan s)

/-- The time of the interval in which XOFF was received. [log 26, DEDUCED] -/
def xoffSpan (s : State) (x : Port) : Mt :=
  x.xoffTime + (match x.xoffAt with
    | some t => min (s.clock - t) (chartSpan s)
    | none => 0)

/-- The four destinations with most bytes, most first, in units of 4 KiB rounded up. -/
def insertHot (x : BitVec 16 × Nat) : List (BitVec 16 × Nat) → List (BitVec 16 × Nat)
  | [] => [x]
  | y :: r => if y.2 < x.2 then x :: y :: r else y :: insertHot x r

/-- R262: the HOT entries of a port record. [log 26, DEDUCED] -/
def hotBytes (l : List (BitVec 16 × Nat)) : Bytes :=
  padTo 16 (((l.foldl (fun a x => insertHot x a) []).take 4).map fun x =>
    leBytes 2 x.1.toNat ++ leBytes 2 (min 65535 (ceilDiv x.2 4096))).flatten

/-- TXBUSY of the interval that closes. [log 26, DEDUCED] -/
def txBusy (s : State) (x : Port) : Nat := shareOf s x.txTime

/-- The record of a port (R263). [log 26, DEDUCED] -/
def portRecord (s : State) (p : Nat) : Bytes :=
  let x := port s p
  ((List.range 40).map fun k => BitVec.ofNat 8 (tgetD x.hist k 0)) ++ leBytes 2 (txBusy s x) ++
    leBytes 2 (shareOf s x.rxTime) ++
    leBytes 2 (min 65535 (xoffSpan s x * 65536 / chartSpan s)) ++ leBytes 1 p ++
    leBytes 1 (x.state.code + portWidth s p * 8) ++ hotBytes x.hot

/-- A port begins the next interval and, with its busy share, the next hint epoch (R243); a reported interval leaves its
record. [log 27, DEDUCED] -/
def rollPort (reported : Bool) (s : State) (p : Nat) : State :=
  let x := port s p
  setPort s p { x with
    record := if reported then portRecord s p else x.record, busy := txBusy s x,
    hist := [], txTime := 0, rxTime := 0, xoffTime := 0, xoffAt := x.xoffAt.map fun _ => s.clock, hot := [],
    onlyPaced := !x.other, other := false }

/-- R291: the largest round-trip sample of the interval that closes serves for the next; XOFF follows. [log 26, DEDUCED] -/
def rollRtt (s : State) (p : Nat) : State :=
  let l := (port s p).link
  if l.rttOpen = 0 then s
  else withHeadroom s p fun t => updLink t p fun l => { l with rttLast := l.rttOpen, rttOpen := 0, rttClosed := true }

/-- Bytes 24 to 39 of the charts of the interval that closes. -/
def chartHead (s : State) : Bytes :=
  leBytes 4 s.tables.epochNr ++ leBytes 1 (bit (s.charts.det || deterministic s)) ++ zeros 3 ++
    leBytes 4 (s.charts.incPeak / 16) ++ leBytes 4 (s.charts.stgPeak / 16)

/-- R243, R261: the interval closes at a multiple of its length; a new length begins at the first multiple of
it. An interval that does not follow the open one is not reported. -/
def chartIntervalClose (s : State) : State :=
  let len := chartSpan s
  let b := s.mer.count / len * len
  if !inTurn s 5 (nextMultiple len s.charts.start) ∨ b = s.charts.start / len * len then s
  else
    let rep := s.charts.reported && s.charts.start + len == b
    let head := chartHead s
    let s1 := (formedPorts s).foldl (fun t p => rollRtt (rollPort rep t p) p) s
    let s2 := (List.range 16).foldl (fun t u => updSext t u fun x => { x with onlyPaced := !x.other, other := false }) s1
    let s3 := bump (if rep then bump (setReg s2 0xB000 9 1) 0xB000 8 else s2) 0x3900 4
    let new := reg s 0xB000 1
    let s4 := { s3 with charts := { s3.charts with
      start := b, reported := true, length := if b % usMt new = 0 then new else s.charts.length, samples := 0,
      det := deterministic s3, incPeak := 0, stgPeak := 0,
      closed := if rep then some (s.charts.start, s.charts.length, head, 0) else s3.charts.closed } }
    remark (notePeaks s4)

def execChartIntervalClose (s : State) : Host.Outcome State Fault Refusal := .next (chartIntervalClose s)

/-- 0xB000.01: the open interval is not reported, and the new length applies from a later boundary. -/
def applyChartLength (v : Nat) (s : State) : Verdict :=
  ok { setReg s 0xB000 1 v with charts := { s.charts with reported := false } }

/-- 0x3900.01: false holds deterministic mode. -/
def applyAdaptive (on : Bool) (s : State) : Verdict :=
  ok { setReg s 0x3900 1 (bit on) with charts := { s.charts with det := s.charts.det || !on } }

/-- 0xB000.06: a multiple of 1,024 below 2^36 (R460). -/
def applyChartBase (v : Nat) (s : State) : Verdict := inRange (v % 1024 == 0) (ok (setReg s 0xB000 6 v))

/-! ## Chart packets (R263, R264) -/

/-- The number of the device among those of the machine. -/
def chartSlot (s : State) : Nat := (ownNode s).toNat * 4 + instId s

/-- The payload of a part. -/
def chartPayload (s : State) (start len : Nat) (head : Bytes) (part : Nat) (ports : List Nat) : Bytes :=
  leBytes 2 (ownNode s).toNat ++ leBytes 1 (instId s + part * 16) ++ leBytes 1 ports.length ++ leBytes 4 len ++
    leBytes 8 (start / usMt len) ++ leBytes 8 start ++ head ++ leBytes 8 (reg s 0xB000 0xB) ++ zeros 16 ++
    (ports.map fun p => padTo 64 (port s p).record).flatten

/-- The header of a chart packet to a node. -/
def chartHeader (s : State) (dst : NodeId) (part units : Nat) : BitVec 256 :=
  BitVec.ofNat 256 (pack (commonFields opChart 2 (activeBank s) 1 0 (incOf s dst) (incOf s (ownNode s)) dst
      (ownNode s) (partKey s (reg s 0xB000 3)) ++
    [(13, 2, instId s), (110, 8, reg s 0xB000 5),
     (118, 36, reg s 0xB000 6 + chartSlot s * 1024 + part * 512), (154, 10, 64 * units)]))

/-- Put a chart packet on its way: none while it finds no room. One that its own port refuses, or that has no
route, is dropped there. [log 26, DEDUCED] -/
def placeChart (s : State) (h : BitVec 256) (payload : Bytes) : Option State :=
  let sent := bump s 0xB000 0xA
  if hDst h = ownNode s then
    if loopUsed s + footprint payload.length ≤ regionCells s 5 then
      some (addPkt sent (newPkt sent h payload .loopBack none))
    else none
  else
    match nextHop s h (footprint payload.length) none false with
    | .wait => none
    | .noRoute | .level => some (bump s 0x3900 7)
    | .go p vc _ =>
      match ownDrop s none p h with
      | some t => some t
      | none => some (addPkt sent (newPkt sent h payload (.egress p vc) none))

/-- The ports of a part: seven records each. -/
def partPorts (s : State) (part : Nat) : List Nat := ((formedPorts s).drop (7 * part)).take 7

/-- R264: the next part of the last closed interval, at its time. Nothing is sent while charts are not
enabled or the collector's rank names no node. -/
def chartSend (s : State) : State :=
  match s.charts.closed with
  | none => s
  | some (start, len, head, part) =>
    let due := start + usMt len + chartSlot s % 128 * usMt len / 256
    if reg s 0xB000 2 = 0 ∨ !timeCome s due then s
    else
      let ports := partPorts s part
      let done := { s with charts := { s.charts with closed := none } }
      match ports, translateRank s (reg s 0xB000 3) (reg s 0xB000 4) with
      | _ :: _, .ok dst =>
        match placeChart s (chartHeader s dst part (1 + ports.length)) (chartPayload s start len head part ports) with
        | some t => { t with charts := { t.charts with
            closed := if part = 0 ∧ partPorts s 1 ≠ [] then some (start, len, head, 1) else none } }
        | none => s
      | _, _ => done

def execChartSend (s : State) : Host.Outcome State Fault Refusal := .next (chartSend s)

/-- A stored chart packet for this node that nothing serves yet. -/
def chartAt (s : State) (id : Nat) : Option Pkt :=
  match pktOf s id with
  | some x =>
    let here : Bool := match x.acct with
      | .ingress _ _ => !forHome s x
      | .loopBack => true
      | _ => false
    if hOp x.header = opChart ∧ hDst x.header = ownNode s ∧ here ∧ !accessOpen s id then some x else none
  | none => none

/-- R264: the collector performs a chart packet as a STORE, or drops and counts it. -/
def chartPacketReceive (id : Nat) (s : State) : State :=
  match chartAt s id with
  | none => s
  | some x =>
    match translateRequest s x.header false with
    | .ok (.here p) =>
      let t := openAccess s x .chart p (fromUnits (hOffset x.header) (hLen x.header) x.payload) false
      { t with accesses := t.accesses.map fun a => if a.id == s.nextId then { a with cells := 0 } else a }
    | _ => bump (dropPkt s id) 0xB000 0xC

def execChartPacketReceive (pkt : Nat) (s : State) : Host.Outcome State Fault Refusal :=
  .next (chartPacketReceive pkt s)

end Sys2Proof.Machine
end

