-- ==== Sys2Proof/Machine/Meridian.lean ====
section
/-! DEFINITION. Meridian time (chapter 11): beacons and their samples, the choice of an upstream, the
discipline of the count, the roles of the Meridian master, holdover, and the time page. -/

namespace Sys2Proof.Machine

def setMer (s : State) (f : Meridian → Meridian) : State := { s with mer := f s.mer }

/-! ## Designations and settings (R350, R353, R354, R493) -/

/-- A designated master or standby, none while its entry is not valid. -/
def designation (s : State) (sub : Nat) : Option NodeId :=
  let v := reg s 0x9010 sub
  if bitAt v 16 then some (BitVec.ofNat 16 (fld v 0 16)) else none

/-- The node of a beacon is a designated master or standby. -/
def designated (s : State) (n : NodeId) : Bool := designation s 1 == some n || designation s 2 == some n

/-- R354: the step threshold in mt, and the slew limit in hundredths of ppm. -/
def stepThreshold (s : State) : Int := (reg s 0x9020 2 : Nat)
def slewLimit (s : State) : Int := (100 * reg s 0x9020 3 : Nat)

/-! ## Correction (R348, R354, R356, R358) -/

/-- R354: a step or half-rate run is counted, reported and flagged for its minute. -/
def noteCorrection (s : State) (f : Int) : State :=
  report (bump (setMer s fun m => { m with flagStepped := true }) 0x9000 7) 9 0 1 (ofSigned 32 f)

/-- R354: a forward step by `n` mt. -/
def forwardStep (s : State) (n : Nat) (f : Int) : State :=
  noteCorrection (setMer s fun m => { m with
    count := (m.count + n) % 2 ^ 64, stepFrom := m.count, stepTo := m.count + n, filtered := 0, halfRate := false, halfPhase := false }) f

/-- The rate change of the loop, within the slew limit. -/
def loopSlew (s : State) (f : Int) : Int :=
  max (-slewLimit s) (min (slewLimit s) (Config.slewLoop f s.mer.slew))

/-- R354: correct by a filtered offset. [log 28, DEDUCED] -/
def correct (s : State) (f : Int) : State :=
  if f < -stepThreshold s then forwardStep s (-f).toNat f
  else if stepThreshold s < f then
    let s1 := setMer s fun m => { m with filtered := f, halfRate := true, halfPhase := m.halfRate && m.halfPhase, flagStepped := true }
    if s.mer.halfRate then s1 else noteCorrection s1 f
  else setMer s fun m => { m with filtered := f, halfRate := false, halfPhase := false, slew := loopSlew s f }

/-- R358, R488: the device first counts as LOCKED: events may fire, and the chart interval in progress is not
reported. [log 28, DEDUCED] -/
def firstLock (s : State) : State :=
  if s.mer.everLocked then s
  else
    let m := { s.mer with everLocked := true, firstAt := s.mer.count, minute := s.mer.count / minuteMt }
    let c := { s.charts with start := s.mer.count / chartSpan s * chartSpan s, reported := false, samples := 0 }
    { s with mer := m, charts := c }

/-- The length of the present or last holdover in ms. -/
def holdoverMs (s : State) : Nat :=
  match s.mer.holdFrom with
  | some t => (s.clock - t) / 4000000
  | none => s.mer.lastHold

/-- R348: reach LOCKED. -/
def enterLocked (s : State) : State :=
  firstLock (setMer s fun m => { m with
    state := .locked, good := 0, bad := 0, holdFrom := none, lastHold := holdoverMs s, holdTold := false })

/-- R357: enter HOLDOVER. [log 28, DEDUCED] -/
def enterHoldover (s : State) : State :=
  if s.mer.state = .holdover then s
  else
    let s1 := setMer s fun m => { m with
      state := .holdover, good := 0, bad := 0, holdFrom := some s.clock, holdTold := false, flagHold := true,
      halfRate := false, halfPhase := false }
    raiseReport s1 { cls := 9, idx := 0, kind := 3, sev := if s.mer.isMaster then .degraded else .note }

/-- R348, R356: the filtered offset lies beyond 32 mt for 16 samples in a row: back to ACQUIRING. -/
def timeFault (s : State) (f : Int) : State :=
  setMer (report s 9 0 2 (ofSigned 32 f)) fun m => { m with state := .acquiring, good := 0, bad := 0 }

/-- R348: a device that has its first usable source leaves UNSET. -/
def haveSource (s : State) : State :=
  if s.mer.state = .unset then setMer s fun m => { m with state := .acquiring, good := 0, bad := 0, first := true } else s

/-- R348: one more accepted sample of the 16 in a row that lead to LOCKED: from ACQUIRING their offsets are all within
±16 mt. -/
def goodSample (s : State) (off : Int) : State :=
  let near := decide (-16 ≤ off) && decide (off ≤ 16)
  let n := if near || s.mer.state == .holdover then s.mer.good + 1 else 0
  let s1 := setMer s fun m => { m with good := n }
  if s.mer.state ≠ .acquiring ∧ s.mer.state ≠ .holdover then s
  else if 16 ≤ n then enterLocked s1 else s1

/-- R348: the first sample since UNSET steps the count to the source's time. -/
def firstSample (s : State) (off : Int) : State :=
  let s1 := setMer (haveSource s) fun m => { m with first := false }
  goodSample (if off < 0 then forwardStep s1 (-off).toNat off else correct s1 off) off

/-- R348: an accepted sample's offset (own count minus the source's): the time state, then the correction. [log 28, DEDUCED] -/
def acceptSample (s : State) (off : Int) : State :=
  if s.mer.first then firstSample s off else
  let f := Config.offsetFilter off s.mer.filtered
  match s.mer.state with
  | .unset => firstSample s off
  | .acquiring | .holdover => goodSample (correct s f) off
  | .locked =>
    let n := if 32 < f ∨ f < -32 then s.mer.bad + 1 else 0
    let s1 := correct (setMer s fun m => { m with bad := n }) f
    if 16 ≤ n then timeFault s1 f else s1

/-! ## The choice of an upstream (R354) -/

/-- A port that may be upstream: code of 0x9000.04, MASTER, STRATUM, holdover flag. -/
structure Cand where
  code    : Nat
  master  : NodeId
  stratum : Nat
  hold    : Bool

/-- A beacon's MASTER, STRATUM and holdover flag. -/
def bMaster (b : BitVec 256) : NodeId := BitVec.ofNat 16 (cNum b 21 2)
def bStratum (b : BitVec 256) : Nat := cByte b 23
def bHold (b : BitVec 256) : Bool := cByte b 24 % 2 == 1

/-- The latest beacon of an own port, while it counts. -/
def localCand (s : State) (p : Nat) : Option Cand :=
  let x := port s p
  match x.peerBeacon with
  | some b =>
    if x.state.works ∧ !passed s x.peerBeaconAt (4 * beaconInterval s + 1) then
      some { code := p + 16 * instId s, master := bMaster b, stratum := bStratum b, hold := bHold b }
    else none
  | none => none

/-- The latest sample of a port of another inst, by its number in `remote`. -/
def remoteCand (s : State) (k : Nat) (r : Int × NodeId × Nat × Bool × Mt) : Option Cand :=
  if !passed s r.2.2.2.2 (4 * beaconInterval s + 1) then
    some { code := k % 12 + 16 * (k / 12), master := r.2.1, stratum := r.2.2.1, hold := r.2.2.2.1 }
  else none

/-- R354: the ports that may be upstream, by inst and port. -/
def upstreams (s : State) : List Cand :=
  ((twelve.filterMap (localCand s)) ++ s.mer.remote.filterMap fun r => remoteCand s r.1 r.2).filter fun c =>
    decide (c.stratum < 128) && designated s c.master

/-- Whether a candidate names the designated master (step 1). -/
def candFirst (s : State) (c : Cand) : Bool := designation s 1 == some c.master

/-- A candidate as a number that is less for the better one: steps 1, 3, 4 and 5 of R354. -/
def candRank (s : State) (c : Cand) : Nat :=
  bit (!candFirst s c) * 131072 + bit c.hold * 65536 + c.stratum * 64 + c.code

def bestCand (s : State) : List Cand → Option Cand
  | [] => none
  | c :: r =>
    match bestCand s r with
    | some d => if candRank s d < candRank s c then some d else some c
    | none => some c

/-- R354: a port better than the present upstream by step 1 or 3, or by at least 2 in STRATUM. -/
def muchBetter (s : State) (c cur : Cand) : Bool :=
  let a := (bit (!candFirst s c), bit c.hold)
  let b := (bit (!candFirst s cur), bit cur.hold)
  decide (a.1 < b.1) || (a.1 == b.1 && decide (a.2 < b.2)) || (a == b && decide (c.stratum + 2 ≤ cur.stratum))

/-- Follow a candidate: its stratum plus 1, its master. -/
def follow (s : State) (c : Cand) : State :=
  setMer (haveSource s) fun m => { m with upstream := c.code, stratum := c.stratum + 1, master := c.master, upAt := s.clock }

/-- R350, R354: inst 0 of a follower chooses its upstream. -/
def reselect (s : State) : State :=
  if !isMaster s ∨ s.mer.isMaster then s
  else
    let l := upstreams s
    match bestCand s l with
    | none => s
    | some best =>
      match l.find? fun c => c.code == s.mer.upstream with
      | some cur => follow s (if muchBetter s best cur then best else cur)
      | none => follow s best

/-- A sample of a port: of use when the port is upstream. -/
def sampleOf (s : State) (code : Nat) (off : Int) : State :=
  if isMaster s ∧ !s.mer.isMaster ∧ s.mer.upstream = code then acceptSample s off else s

/-- R350: note a beacon that names the designated master or the standby. -/
def noteHeard (s : State) (master : NodeId) (stratum : Nat) : State :=
  setMer s fun m => { m with
    heardDes := if designation s 1 = some master ∧ stratum < 128 then some s.clock else m.heardDes,
    heardStb := if designation s 2 = some master ∧ stratum ≠ 255 then some s.clock else m.heardStb }

/-! ## Beacons (R353) -/

/-- R353: BFLAGS bit 0; an inst other than 0 has its upstream at inst 0. -/
def holdFlag (s : State) : Bool :=
  s.mer.state == .holdover || s.mer.upHold || (!s.mer.isMaster && (match (upstreams s).find? fun c => c.code == s.mer.upstream with
    | some c => c.hold
    | none => false))

/-- Send a BEACON on a port. -/
def sendBeacon (s : State) (p : Nat) : State :=
  let x := port s p
  let unset := s.mer.state == .unset
  let s1 := setPort s p { x with
    bseq := (x.bseq + 1) % 256, t1 := s.mer.count, beaconAt := s.clock, fresh := 0 }
  sendControl s1 p ctBeacon
    [cb 5 8 s.mer.count, cb 13 8 x.t2Rx, cb 21 2 (if unset then 0 else s.mer.master.toNat),
     cb 23 1 (if unset then 255 else s.mer.stratum), cb 24 1 (bit (holdFlag s)), cb 25 1 x.bseq]

/-- R353, R289: the next beacon of a port goes out when it is due, as soon as it may. -/
def beaconSend (p : Nat) (s : State) : State := 
  if beaconDue s p ∧ mayControl s p ∧ !replayWaits s p then drainControl 256 (sendBeacon s p) p else s

def execBeaconSend (port : Fin 12) (s : State) : Host.Outcome State Fault Refusal := .next (beaconSend port s)

/-- The mean of a port's delays (0x9020.07). [log 28, DEDUCED] -/
def meanDelay (x : Port) : Int := if x.delays = [] then 0 else (x.delays.foldl (· + ·) 0) / (x.delays.length : Int)

/-- The delay and the offset of the sample that a beacon received now completes. -/
def beaconSample (s : State) (p : Nat) (b : BitVec 256) : Int × Int :=
  let t1 : Int := (port s p).t1
  let t2 : Int := cNum b 13 8
  let t3 : Int := cNum b 5 8
  let t4 : Int := s.mer.count
  let delay := ((t4 - t1) - (t3 - t2)) / 2 + toSigned 32 (regAt s 0x9020 6 p)
  (delay, t4 - (t3 + delay))

/-- R350, R353: an inst other than 0 passes a beacon on to inst 0, with the sample that it gave. -/
def passBeacon (s : State) (p : Nat) (b : BitVec 256) (sample : Option (Int × Int)) : State :=
  if isMaster s then s
  else emit s (.cascadeBeacon p sample (bMaster b) (BitVec.ofNat 8 (bStratum b)) (bHold b))

/-- An accepted sample of an own port: used here, or sent to inst 0. [log 28, DEDUCED] -/
def useSample (s : State) (p : Nat) (b : BitVec 256) (delay off : Int) : State :=
  let s1 := updPort s p fun x => { x with
    delays := (x.delays ++ [delay]).drop (x.delays.length + 1 - 16) }
  if isMaster s then sampleOf s1 (p + 16 * instId s) off else passBeacon s1 p b (some (delay, off))

/-- R353: BEACON. -/
def beaconReceive (p : Nat) (b : BitVec 256) (s : State) : State :=
  takeControl s p b ctBeacon fun t =>
    let x := port t p
    let first := x.fresh = 0 ∧ x.t1 ≠ 0 ∧ cNum b 13 8 ≠ 0 ∧ t.mer.count ≤ x.t1 + 4 * beaconInterval t
    let m := beaconSample t p b
    let t1 := noteHeard (setPort t p { x with
      peerBeacon := some b, peerBeaconAt := t.clock, t2Rx := t.mer.count, fresh := x.fresh + 1 })
      (bMaster b) (bStratum b)
    let t2 := reselect t1
    if !first then passBeacon t2 p b none
    else if x.delays.length = 16 ∧ (20 < m.1 - meanDelay x ∨ m.1 - meanDelay x < -20) then
      bumpAt (passBeacon t2 p b none) 0x9020 8 p
    else useSample t2 p b m.1 m.2

def execBeaconReceive (port : Fin 12) (block : BitVec 256) (s : State) : Host.Outcome State Fault Refusal :=
  .next (beaconReceive port block s)

/-- R350, R354: inst 0 notes a beacon that came on a port of another inst. -/
def remoteBeacon (s : State) (k : Nat) (off : Int) (master : NodeId) (stratum : Nat) (hold : Bool) : State :=
  reselect (noteHeard (setMer s fun m => { m with
    remote := tput m.remote k (off, master, stratum, hold, s.clock) }) master stratum)

/-- R350, R353, R355: inst 0 takes a beacon that another inst received, with the offset of the sample that it gave; the
others take no sample, their time comes from inst 0 (takeTime). -/
def cascadeBeaconSample (src p : Nat) (offset : Option Int) (master : NodeId) (stratum : Nat) (hold : Bool)
    (s : State) : State :=
  if src = instId s ∨ !awake s ∨ !isMaster s then s
  else
    match offset with
    | none => remoteBeacon s (src * 12 + p) 0 master stratum hold
    | some off => sampleOf (remoteBeacon s (src * 12 + p) off master stratum hold) (p + 16 * src) off

def execCascadeBeaconSample (source : Fin 4) (port : Fin 12) (_delay : Int) (offset : Option Int) (master : NodeId)
    (stratum : BitVec 8) (holdover : Bool) (s : State) : Host.Outcome State Fault Refusal :=
  .next (cascadeBeaconSample source port offset master stratum.toNat holdover s)

/-- R348: the time state of a code. -/
def TimeState.ofCode (n : Nat) : TimeState :=
  if n = 0 then .unset else if n = 1 then .acquiring else if n = 2 then .locked else .holdover

/-- R355: take a time state of inst 0. [log 28, DEDUCED] -/
def takeState (s : State) (st : TimeState) : State :=
  if s.mer.state = st then s
  else
    match st with
    | .unset => s
    | .acquiring => setMer s fun m => { m with
        state := .acquiring, good := 0, bad := 0, holdFrom := none, lastHold := holdoverMs s, holdTold := false }
    | .locked => enterLocked s
    | .holdover => enterHoldover s

/-- R353, R355: an inst other than 0 takes inst 0's count, with the bus latency removed, its time state and its holdover
flag; the first count is a step (R348), and the states follow inst 0's own. [log 28, DEDUCED] -/
def takeTime (count : Nat) (st : TimeState) (stratum : Nat) (master : NodeId) (hold : Bool) (s : State) : State :=
  if isMaster s ∨ st = .unset then s
  else
    let off : Int := (s.mer.count : Int) - (count : Int)
    let s1 := setMer s fun m => { m with stratum := stratum, master := master, upstream := 0, upHold := hold, first := false }
    let ahead := s.mer.state = .unset ∧ off < 0
    takeState (if ahead then forwardStep s1 (-off).toNat off else correct s1 off) st

/-! ## MER_REF (R351, R352, R357) -/

/-- One millisecond in mt: the spacing of MER_REF edges. -/
def refSpan : Nat := 4000000

/-- R351: the offset of the count from the nearest multiple of 1 ms. -/
def refOffset (count : Nat) : Int :=
  let r := count % refSpan
  if r * 2 < refSpan then (r : Int) else (r : Int) - (refSpan : Nat)

/-- R480: an edge less than 900 µs after the previous accepted one, or while the device is not inst 0, is not the Meridian
master or is held in reset, is ignored. [log 28, DEDUCED] -/
def edgeIgnored (s : State) : Bool :=
  !isMaster s || !s.mer.isMaster || !awake s || (match s.mer.merRefAt with
    | some t => !passed s t (usMt 900)
    | none => false)

/-- R352: an edge carries out a pending time set, by a forward step. -/
def timeSetNow (s : State) : State :=
  match s.mer.setTo with
  | some t =>
    let s1 := setMer s fun m => { m with setTo := none }
    if s.mer.count < t then forwardStep s1 (t - s.mer.count) ((s.mer.count : Int) - (t : Int)) else s1
  | none => s

/-- R351, R352, R358: an edge of MER_REF is a sample, after a time set that waited for it. The Meridian master counts as
LOCKED from its first sample. [log 28, DEDUCED] -/
def merRefEdge (s : State) : State :=
  if edgeIgnored s then s
  else
    let s1 := timeSetNow (setMer s fun m => { m with merRefAt := some s.clock, refGone := false })
    firstLock (acceptSample s1 (refOffset s1.mer.count))

def execMerRefEdge (s : State) : Host.Outcome State Fault Refusal := .next (merRefEdge s)

/-- No edge of MER_REF for 3 ms. -/
def refLost (s : State) : Bool :=
  match s.mer.merRefAt with
  | some t => passed s t (msMt 3)
  | none => true

/-- R357: the Meridian master loses MER_REF: each loss is counted once, those during HOLDOVER too. -/
def merRefLoss (s : State) : State :=
  if s.mer.isMaster ∧ refLost s ∧ !s.mer.refGone ∧ s.mer.merRefAt.isSome then
    enterHoldover (bump (setMer s fun m => { m with refGone := true }) 0x9010 5)
  else s

def execMerRefLoss (s : State) : Host.Outcome State Fault Refusal := .next (merRefLoss s)

/-- R357: a follower without an upstream for four beacon intervals. -/
def upstreamLoss (s : State) : State :=
  if isMaster s ∧ !s.mer.isMaster ∧ (s.mer.state = .acquiring ∨ s.mer.state = .locked) ∧ upstreams s = [] ∧
      passed s s.mer.upAt (4 * beaconInterval s) then enterHoldover s
  else s

def execUpstreamLoss (s : State) : Host.Outcome State Fault Refusal := .next (upstreamLoss s)

/-- R357: holdover has lasted longer than 0x9020.04. -/
def holdoverLimit (s : State) : State :=
  match s.mer.holdFrom with
  | some t =>
    if s.mer.state = .holdover ∧ !s.mer.holdTold ∧ passed s t (secMt (reg s 0x9020 4)) then
      setMer (report s 9 0 4 ((s.clock - t) / 4000000000)) fun m => { m with holdTold := true }
    else s
  | none => s

def execHoldoverLimit (s : State) : Host.Outcome State Fault Refusal := .next (holdoverLimit s)

/-! ## Roles (R350, R493) -/

/-- Local time since an event that happened since listening began. -/
def quietSince (from_ : Mt) (heard : Option Mt) : Mt :=
  match heard with
  | some t => max from_ t
  | none => from_

/-- R350: whether this device may take the role of Meridian master now. [log 28, DEDUCED] -/
def mayTake (s : State) : Bool :=
  let span := msMt (reg s 0x9010 3)
  if designation s 1 = some (ownNode s) then
    passed s s.mer.listenFrom span && (match s.mer.heardStb with
      | some t => decide (t < s.mer.listenFrom)
      | none => true)
  else
    designation s 2 == some (ownNode s) && passed s (quietSince s.mer.listenStb s.mer.heardDes) (2 * span)

/-- R350, R351, R480: take the role; without an edge of MER_REF accepted in the last 3 ms, which only an earlier turn as
Meridian master leaves, in HOLDOVER from the present count. [log 28, DEDUCED] -/
def masterTakeover (s : State) : State :=
  if isMaster s ∧ !s.mer.isMaster ∧ mayTake s then
    let s1 := setMer s fun m => { m with
      isMaster := true, stratum := 0, upstream := 0xFE, master := ownNode s, good := 0, bad := 0, refGone := refLost s }
    if refLost s then firstLock (enterHoldover s1) else haveSource s1
  else s

def execMasterTakeover (s : State) : Host.Outcome State Fault Refusal := .next (masterTakeover s)

/-- R350, R493: the write that makes the own node's designation valid starts its listening; a standby gives back the role it took, and a node that
is not designated any more gives it up. [log 28, DEDUCED] -/
def applyDesignation (sub : Nat) (v : BitVec 32) (s : State) : Verdict :=
  let s1 := setReg s 0x9010 sub (fld v.toNat 0 17)
  let begins := designation s1 sub == some (ownNode s) && designation s sub != some (ownNode s)
  let keep := s.mer.isMaster && designation s1 1 == some (ownNode s)
  ok (setMer s1 fun m => { m with
    isMaster := keep, upstream := if m.isMaster && !keep then 0xFF else m.upstream, setTo := if keep then m.setTo else none,
    upAt := if m.isMaster && !keep then s.clock else m.upAt,
    listenFrom := if begins && sub == 1 then s.clock else m.listenFrom,
    listenStb := if begins && sub == 2 then s.clock else m.listenStb })

def execDesignationWrite (w : WriteHdr) (standby : Bool) (value : BitVec 32) (s : State) :
    Host.Outcome State Fault Refusal :=
  let sub := if standby then 2 else 1
  .next (dictWrite w 0x9010 sub (leBytes 4 value.toNat) (applyDesignation sub value) s)

/-- The count as it will be at the next edge of MER_REF. [log 29, DESIGN CHOICE] -/
def countAtEdge (s : State) : Nat :=
  match s.mer.merRefAt with
  | some t => s.mer.count + (t + refSpan - s.clock)
  | none => s.mer.count

/-- R352: a time set. [log 29, DESIGN CHOICE] -/
def applyTimeSet (t : Nat) (s : State) : Verdict :=
  require (s.mer.isMaster && t % refSpan == 0 && decide (countAtEdge s < t))
    (ok (setMer s fun m => { m with setTo := some t }))

def execTimeSet (w : WriteHdr) (time : BitVec 64) (s : State) : Host.Outcome State Fault Refusal :=
  .next (dictWrite w 0x9010 4 (leBytes 8 time.toNat) (applyTimeSet time.toNat) s)

/-! ## The time page (R349) -/

/-- The first 64 bytes of the page. [log 29, DESIGN CHOICE] -/
def timeBytes (s : State) : Bytes :=
  let unset := s.mer.state == .unset
  padTo 64 (leBytes 8 s.mer.count ++ leBytes 1 s.mer.state.code ++ leBytes 1 (if unset then 255 else s.mer.stratum) ++
    leBytes 2 (if unset then 0 else s.mer.master.toNat))

def execTimePageRead (offset : Fin 4096) (len : Nat) (thread : BitVec 16) (s : State) :
    Host.Outcome State Fault Refusal :=
  .next (emit s (.timePage thread (padTo len ((timeBytes s).drop offset))))

end Sys2Proof.Machine
end

