-- ==== Sys2Proof/Machine/Scrub.lean ====
section
/-! DEFINITION. Errors of the central store and its spare banks (R224 to R227). -/

namespace Sys2Proof.Machine

/-- A bank in a state, with the spare beside it, whose scrubbing begins anew at a local clock (R225). -/
def bankIn (state : Nat) (spare : Option Nat) (now : Mt) : Bank :=
  { state := state, spare := spare, row := 0, passAt := now }

/-- A physical bank: 0 to 127 in service, 128 to 135 free spares, until the map says otherwise. -/
def bank (s : State) (b : Nat) : Bank := tgetD s.banks b (bankIn (if b < 128 then 0 else 1) none 0)
def setBank2 (s : State) (b : Nat) (x : Bank) : State := { s with banks := tput s.banks b x }

/-- 0x4630.04: the physical bank that serves bank n. -/
def servedBy (s : State) (n : Nat) : Nat := byteAt (blob s 0x4630 4) n

/-- The bank that a physical bank serves. -/
def serves (s : State) (b : Nat) : Option Nat := (List.range 128).find? fun n => servedBy s n == b

/-- A bank that carries traffic and is not being copied. -/
def inService (s : State) (b : Nat) : Bool := (bank s b).state == 0 || (bank s b).state == 4

/-- The free spares, lowest first (0x4630.05 is their number). -/
def freeSpares (s : State) : List Nat := (List.range 136).filter fun b => (bank s b).state == 1

/-- R423: a bank that must wait for the end of the store slice. [log 31, DEDUCED] -/
def waitForSpare (s : State) (b row : Nat) : State :=
  if s.test.waiting.any fun x => x.1 == b then s
  else { s with test := { s.test with waiting := s.test.waiting ++ [(b, row)] } }

/-- R226, R227: a bank must be spared: its copy into the lowest free spare begins, or it stays in service. [log 31, DEDUCED] -/
def spareBank (s : State) (b row : Nat) : State :=
  if !inService s b then s
  else if (s.test.store.map fun x => x.2.2.1) = some b then waitForSpare s b row
  else
    match freeSpares s with
    | [] =>
      if s.test.store.isSome then waitForSpare s b row
      else report (setBank2 s b { bank s b with state := 4 }) 6 b 6 row
    | sp :: rest =>
      let s1 := setBank2 (setBank2 s b (bankIn 2 (some sp) s.clock)) sp (bankIn 2 none s.clock)
      if rest = [] then raiseReplace (report s1 6 b 5 0) 2 else s1

/-- R425: a record of KIND 1 to 4: receiver, transmitter, bank, trim raise. -/
def recordBytes (s : State) (kind target value : Nat) : Bytes :=
  leBytes 1 kind ++ [0] ++ leBytes 2 target ++ leBytes 2 value ++ zeros 2 ++ leBytes 8 (stamp s)

/-- Remove the first element for which a condition holds. -/
def dropFirst {α : Type} (c : α → Bool) : List α → List α
  | [] => []
  | x :: r => if c x then r else x :: dropFirst c r

/-- R425: with 32 records held, the oldest committed one makes room, or failing that the oldest. -/
def makeRoom (l : List Bytes) : List Bytes :=
  if l.length < 32 then l
  else if l.any fun r => byteAt r 1 == 1 then dropFirst (fun r => byteAt r 1 == 1) l
  else l.drop 1

/-- Keep a list of repair records, and persist it. -/
def setRecords (s : State) (l : List Bytes) : State :=
  journalBlob { s with test := { s.test with records := l } } (regKey 0x8200 3 0) l.flatten

/-- R425: make a repair record. [log 31, DEDUCED] -/
def addRecord (s : State) (kind target value : Nat) : State :=
  setRecords s (makeRoom s.test.records ++ [recordBytes s kind target value])

/-- R423: the map of the banks that is persisted: without the temporary mapping of a store slice that runs. -/
def lastingMap (s : State) (map : Bytes) : Bytes :=
  match s.test.store with
  | some (n, b, _, _) => overwrite map n [BitVec.ofNat 8 b]
  | none => map

/-- R226: the copy is done: the map switches to the spare and is persisted. [log 31, DEDUCED] -/
def bankMigrationDone (b : Nat) (s : State) : State :=
  match (bank s b).spare, serves s b with
  | some sp, some n =>
    if (bank s b).state = 2 then
      let map := overwrite (blob s 0x4630 4) n [BitVec.ofNat 8 sp]
      let s1 := setBank2 (setBank2 s b (bankIn 3 none s.clock)) sp (bankIn 0 none s.clock)
      let s2 := addRecord (journalBlob (setBlobAt s1 0x4630 4 0 map) (regKey 0x4630 4 0) (lastingMap s map)) 3 (n + 256 * sp) 0
      report s2 6 b 4 sp
    else s
  | _, _ => s

def execBankMigrationDone (bank : Fin 136) (s : State) : Host.Outcome State Fault Refusal :=
  .next (bankMigrationDone bank s)

/-- R224: an uncorrectable error in a packet's payload poisons its unit, also of an access that memory has still to
accept. The header of a packet in the replay region stays bit-identical for a replay (R285): what its local receive side
still takes is poisoned by its marks, and the spec does not say what a replay of it carries. [log 31, DEDUCED] -/
def poisonUnit (s : State) (id unit : Nat) : State :=
  let mark := BitVec.ofNat 8 (2 ^ unit)
  match pktOf s id with
  | some x =>
    let s1 := putPkt s (if inReplay x then { x with spoiled := x.spoiled ||| mark }
      else { x with header := setPoison x.header (hPoison x.header ||| mark) })
    { s1 with accesses := s1.accesses.map fun a => if a.pkt = some id then { a with poison := a.poison ||| mark } else a }
  | none => s

/-- R224: a packet with an error in its header is dropped, and nothing of it is performed. -/
def dropHeader (s : State) (id : Nat) : State :=
  dropPkt { s with accesses := s.accesses.filter fun a => a.pkt != some id } id

/-- R224: a window table entry in error reads as invalid until it is rewritten; a present inst is asked for its copy. [log 31, DEDUCED; log 36, DEDUCED] -/
def windowError (s : State) (i : Nat) : State :=
  let s1 := { s with tables := { s.tables with badWindow := insertNat s.tables.badWindow i } }
  if s.cascade.present = [] then report s1 5 0 3 i
  else report (if h : i < 4194304 then emit s1 (.bus (.windowAsk ⟨i, h⟩)) else s1) 5 0 2 i

/-- The kinds SHARED_TABLE_ERROR and SHARED_TABLE_LOST: an entry of a shared table in error, rewritten from another
present inst where there is one. [log 36, DEDUCED] -/
def sharedError (s : State) (table entry : Nat) : State :=
  report s 5 0 (if s.cascade.present = [] then 5 else 4) (entry + (table + 1) * 2 ^ 24)

/-- R224: what an uncorrectable error does where it lies. -/
def storeError (s : State) (b row : Nat) (finding : EccFinding) : State :=
  match finding with
  | .payload id unit => report (poisonUnit s id unit) 6 b 2 row
  | .header id => report (dropHeader s id) 6 b 3 row
  | .windowEntry i => windowError s i
  | _ => s

/-- R209, R211: whether what a finding names lies in the rows of a bank. Payload unit u fills the second half of cell u
and the first half of cell u + 1. -/
def findingAt (s : State) (b : Nat) (finding : EccFinding) : Bool :=
  match finding with
  | .payload id unit => match pktOf s id with
    | some x => serves s b == some (cellBank x unit.val) || serves s b == some (cellBank x (unit.val + 1))
    | none => false
  | .header id => match pktOf s id with
    | some x => serves s b == some (cellBank x 0)
    | none => false
  | .windowEntry i => serves s b == some (i / 16 % 128) && decide (i < 4194304)
  | _ => true

/-- R225: the scrubber's next row of a bank is due: the 10,240 rows are spread over the scrub period. -/
def rowDue (s : State) (b row : Nat) : Bool :=
  (bank s b).row == row && passed s (bank s b).passAt (row * msMt (reg s 0x4630 1) / 10240)

/-- R225: the scrubber goes on to the next row, after the last to the next pass. -/
def nextRow (s : State) (b : Nat) : State :=
  let x := bank s b
  setBank2 s b (if x.row < 10239 then { x with row := x.row + 1 }
    else { x with row := 0, passAt := x.passAt + msMt (reg s 0x4630 1) })

/-- R224 to R226: the scrubber reads a row of a bank in service. -/
def scrubRow (b row : Nat) (finding : EccFinding) (clears : Bool) (s : State) : State :=
  if !inService s b ∨ !awake s ∨ !rowDue s b row ∨ !findingAt s b finding then s
  else
    let s0 := nextRow s b
    match finding with
    | .clean => s0
    | .corrected => report (bumpAt (bump s0 0x4630 2) 0x4630 8 b) 6 b 1 row
    | .sharedEntry table entry => sharedError s0 table entry.toNat
    | f =>
      let s1 := storeError (bump s0 0x4630 3) b row f
      if clears then s1 else spareBank s1 b row

def execScrubRow (bank : Fin 136) (row : Fin 10240) (finding : EccFinding) (rewriteClears : Bool) (s : State) :
    Host.Outcome State Fault Refusal := .next (scrubRow bank row finding rewriteClears s)

end Sys2Proof.Machine
end

