-- ==== Sys2Proof/Machine/Power.lean ====
section
/-! DEFINITION. Power and heat (chapter 13): ceiling and floor power, the caps and their schedule, the choice
of settings at cap boundaries, energy, the thermal sensors, and the Meridian minute with the margin trim of
the Sextant units. Powers are in units of 0.1 W. -/

namespace Sys2Proof.Machine

def setPow (s : State) (f : Power → Power) : State := { s with power := f s.power }

/-! ## Ceiling and floor power (R394) -/

/-- Power of an octet in use at a stage. -/
def octetPower : Stage → Nat
  | .c => 129 | .b => 70 | .a => 20

/-- The stage of a port, held to a stage ceiling. -/
def cappedStage (ceil : Nat) (st : Stage) : Stage := if st = .c ∧ ceil < 2 then .b else st

/-- Power of a port with `n` octets in use at a stage. -/
def stagePower (s : State) (stage : Option Stage) (p n : Nat) : Nat :=
  let w := portWidth s p
  if (port s p).state = .training then 129 * w
  else
    match stage with
    | some st => octetPower st * n + 5 * (w - n)
    | none => 5 * w

/-- The octets of a port in use now. -/
def octetsInUse (s : State) (p : Nat) : Nat := ((portOctets s p).filter fun o => (octet s o).state <= 1).length

/-- 0x6000.05: the ceiling power. -/
def ceilingPower (s : State) : Nat :=
  550 + ((formedPorts s).map fun p => stagePower s (port s p).stage p (octetsInUse s p)).foldl (· + ·) 0

/-- 0x6000.06: the floor power. -/
def floorPower (s : State) : Nat :=
  550 + ((formedPorts s).map fun p =>
    let n := min (minWidth s p) (portWidth s p)
    70 * n + 5 * (portWidth s p - n)).foldl (· + ·) 0

/-! ## Sextant power (R395), in units of 1/15 mW -/

def unitPower (f : Nat) : Nat := if f ≤ 850 then 25500 + (f - 600) * 78 else 45000 + (f - 850) * 80

/-- The lower step (0x5310.02). -/
def lowerStep (s : State) : Nat := reg s 0x5310 2

/-- The Sextant ceiling power at a frequency ceiling. -/
def sextPower (s : State) (f : Nat) : Nat :=
  ((List.range 16).map fun u => if (sext s u).inService then unitPower (min f (trimmedMax s u)) else 0).foldl (· + ·) 0

def sextFloor (s : State) : Nat := sextPower s (lowerStep s)

/-! ## Caps (R396, R397, R401) -/

/-- The rack cap and rack Sextant cap in force, in W. -/
def rackCap (s : State) : Nat := s.power.rackCap.getD (reg s 0x6000 8)
def rackScap (s : State) : Nat := s.power.rackScap.getD (reg s 0x6010 5)

/-- The lesser of a cap and one that is 0 when there is none. -/
def capMin (a b : Nat) : Nat := if b = 0 then a else min a b

/-- R396: the effective caps. -/
def effCap (s : State) : Nat := capMin (capMin (rackCap s) s.power.hostCap) s.power.thermCap
def effScap (s : State) : Nat := capMin (rackScap s) s.power.hostScap

/-- R402: the caps that settings are chosen for: those of prepared steps count before their time. [log 32, DEDUCED] -/
def targetCap (s : State) : Nat :=
  s.power.steps.foldl (fun a x => if x.prepared && x.icap != 0xFFFF then min a x.icap else a) (effCap s)
def targetScap (s : State) : Nat :=
  s.power.steps.foldl (fun a x => if x.prepared && x.scap != 0xFFFF then min a x.scap else a) (effScap s)

/-- Keep the highest and lowest effective cap of the minute. -/
def noteCaps (s : State) : State :=
  setPow s fun x => { x with capHi := max x.capHi (effCap s), capLo := min x.capLo (effCap s) }

/-! ## Settings (R404, R405) -/

/-- A port that a ceiling can narrow, its octets in use and its minimum width. -/
structure Lever where
  port : Nat
  n    : Nat
  low  : Nat
  deriving DecidableEq, Repr

/-- R404: the stage that a port has, or is ordered to, under a stage ceiling: a port that the ceiling alone holds at stage B
shifts up again. -/
def stageUnder (s : State) (ceil p : Nat) : Option Stage :=
  let x := port s p
  let common := commonStage (setPow s fun q => { q with stageCeil := ceil }) p
  x.stage.map fun st => if st = .b ∧ 2 ≤ ceil ∧ !x.stopped ∧ 2 ≤ common then .c else cappedStage ceil st

/-- The levers at the start: every port at its working width, those whose mark has taken effect (R403) at their minimum. -/
def levers (s : State) : List Lever :=
  (formedPorts s).map fun p =>
    let x := port s p
    let w := if x.state = .training ∨ x.stage = none then 0 else (workingOctets s p).length
    let low := min (minWidth s p) w
    { port := p, n := if s.power.portMarks.contains p then low else w, low := low }

/-- The ceiling power of a choice: each port at the stage that the choice orders it to. -/
def choicePower (s : State) (ceil : Nat) (l : List Lever) : Nat :=
  550 + (l.map fun x => stagePower s (stageUnder s ceil x.port) x.port x.n).foldl (· + ·) 0

/-- The port with most octets in use above its minimum; of equals the highest number. -/
def widest (l : List Lever) : Option Lever :=
  l.foldl (fun a x =>
    if x.n ≤ x.low then a
    else match a with
      | some y => if y.n - y.low ≤ x.n - x.low then some x else a
      | none => some x) none

/-- R404: lower the levers until the ceiling power meets the cap or none is left. [log 32, DEDUCED] -/
def settleLevers (s : State) (cap : Nat) : Nat → Nat → List Lever → Nat × List Lever
  | 0, ceil, l => (ceil, l)
  | n + 1, ceil, l =>
    if choicePower s ceil l ≤ cap * 10 then (ceil, l)
    else
      match widest l with
      | some x => settleLevers s cap n ceil (l.map fun y => if y.port = x.port then { y with n := y.n - 1 } else y)
      | none => if ceil = 2 then settleLevers s cap n 1 l else (ceil, l)

/-- Apply a lever: a width ceiling, 12 where the port is not narrowed. -/
def applyLever (s : State) (x : Lever) : State :=
  let w := (workingOctets s x.port).length
  if (port s x.port).stage = none ∨ (port s x.port).state = .training then s
  else setCeiling s x.port (if x.n < w then x.n else 12)

/-- R404: a port is ordered to its stage under a stage ceiling. -/
def applyStage (ceil : Nat) (s : State) (p : Nat) : State :=
  match stageUnder s ceil p with
  | some st => if (port s p).stage = some st then s else orderShift s p st
  | none => s

/-- The octets that a lever takes from its port. -/
def octetsTaken (s : State) (x : Lever) : Nat := (workingOctets s x.port).length - x.n

/-- R410: the ports that lost an octet, the last first, after the levers are applied. -/
def lostAfter (s : State) (l : List Lever) : List Nat :=
  l.foldl (fun a x =>
    let have_ := (a.filter (· == x.port)).length
    if have_ ≤ octetsTaken s x then List.replicate (octetsTaken s x - have_) x.port ++ a
    else Nat.repeat (fun b => b.erase x.port) (have_ - octetsTaken s x) a) s.power.lost

/-- A lever among those with a rank. -/
def insertLever (rank : Lever → Nat) (x : Lever) : List Lever → List Lever
  | [] => [x]
  | y :: r => if rank x < rank y then x :: y :: r else y :: insertLever rank x r

/-- R410: the order in which the levers are applied: the ports that lose octets, then those that get octets back, first the one
that lost its octet last. -/
def leverOrder (s : State) (l : List Lever) : List Lever :=
  let gains (x : Lever) : Bool := decide (octetsTaken s x < (s.power.lost.filter (· == x.port)).length)
  let at_ (x : Lever) : Nat := s.power.lost.findIdx (· == x.port)
  (l.filter fun x => !gains x) ++ (l.filter gains).foldl (fun a x => insertLever at_ x a) []

/-- The octets by which ports are narrowed (byte 0 of 0x6000.0A). -/
def narrowings (s : State) (l : List Lever) : Nat := (l.map (octetsTaken s)).foldl (· + ·) 0

/-- R405: the highest Sextant frequency ceiling that a cap allows, in steps of 25 MHz from the lower step. -/
def sextChoice (s : State) (cap : Nat) : Nat :=
  ((List.range 41).map fun k => 1000 - 25 * k).find? (fun f =>
    decide (lowerStep s ≤ f) && decide (sextPower s f ≤ cap * 15000)) |>.getD (lowerStep s)

/-- R405: set the Sextant ceiling; units that change are given their times from `t`. -/
def settleSextant (s : State) (t : Nat) : State :=
  if !isMaster s then s
  else
    let s1 := setPow s fun x => { x with sextCeil := min (sextChoice s (targetScap s)) s.power.sextTherm }
    (List.range 16).foldl (fun a u => scheduleFreq a u (t + 8000 * u)) s1

/-- R404, R405, R410, R172: choose and apply the settings for the caps as they are. -/
def settle (s : State) (cap t : Nat) : State :=
  let c := settleLevers s cap 64 2 (levers s)
  let s1 := setPow s fun x => { x with stageCeil := c.1, narrowings := narrowings s c.2, lost := lostAfter s c.2 }
  let s2 := twelve.foldl (applyStage c.1) ((leverOrder s c.2).foldl applyLever s1)
  originateDrift (noteCaps (settleSextant s2 t))

/-- Settings chosen now. -/
def settleNow (s : State) : State := settle s (targetCap s) (stamp s)

/-- R403, R488: before the first LOCKED a change takes effect at once. -/
def settleEarly (s : State) : State :=
  if timed s then s
  else settleNow (setPow s fun x => { x with hostCap := reg s 0x6000 3, hostScap := reg s 0x6010 3 })

/-! ## Writes of caps (R397 to R401) -/

/-- A cap in W below a floor in 0.1 W, or below the Sextant floor. -/
def belowFloor (s : State) (sextant : Bool) (v : Nat) : Bool :=
  if sextant then decide (v * 15000 < sextFloor s) else decide (v * 10 < floorPower s)

/-- R397: a start-up cap. [log 32, DEDUCED] -/
def applyStartUpCap (sextant : Bool) (v : Nat) (s : State) : Verdict :=
  let index := if sextant then 0x6010 else 0x6000
  let sub := if sextant then 5 else 8
  require (!belowFloor s sextant v)
    (ok (settleNow (journalNote (setReg s index sub v) (regKey index sub 0) v)))

def execStartUpCapWrite (w : WriteHdr) (sextant : Bool) (value : BitVec 16) (s : State) :
    Host.Outcome State Fault Refusal :=
  .next (dictWrite w (if sextant then 0x6010 else 0x6000) (if sextant then 5 else 8) (leBytes 2 value.toNat)
    (applyStartUpCap sextant value.toNat) s)

/-- R398: a refused host request is counted and reported. [log 32, DEDUCED] -/
def refuseHost (v : Nat) (st : Status) (reason : Nat) (s : State) : Verdict :=
  .counted (report (bump s 0x6000 9) 0xC 0 3 v) st reason

/-- R398, R403: a host cap. -/
def applyHostCap (v : Nat) (s : State) : Verdict :=
  if rackCap s < v ∨ (v ≠ 0 ∧ belowFloor s false v) then refuseHost v .notPerformed 10 s
  else ok (settleEarly (setReg s 0x6000 3 v))

def execHostCapWrite (w : WriteHdr) (value : BitVec 16) (s : State) : Host.Outcome State Fault Refusal :=
  .next (dictWrite w 0x6000 3 (leBytes 2 value.toNat) (applyHostCap value.toNat) s)

/-- R398: a host Sextant cap; at the master only. [log 32, DEDUCED] -/
def applyHostScap (v : Nat) (s : State) : Verdict :=
  if !isMaster s then refuseHost v .denied 8 s
  else if rackScap s < v ∨ (v ≠ 0 ∧ belowFloor s true v) then refuseHost v .notPerformed 10 s
  else ok (settleEarly (setReg s 0x6010 3 v))

def execHostSextantCapWrite (w : WriteHdr) (value : BitVec 16) (s : State) : Host.Outcome State Fault Refusal :=
  .next (dictWrite w 0x6010 3 (leBytes 2 value.toNat) (applyHostScap value.toNat) s)

/-- R400: a cap period that divides a minute. -/
def applyCapPeriod (v : Nat) (s : State) : Verdict :=
  require (60000000 % max v 1 == 0) (ok (journalNote (setReg s 0x6000 7 v) (regKey 0x6000 7 0) v))

/-- R399: hold a port off, or release it. -/
def holdPort (v : Nat) (s : State) (p : Nat) : State :=
  let x := port s p
  if bitAt v p then (if x.heldOff then s else stopPort (setPort s p { x with heldOff := true }) p)
  else if x.heldOff then releasePort (setPort s p { x with heldOff := false }) p else s

def applyHoldOff (v : Nat) (s : State) : Verdict :=
  ok (setReg (twelve.foldl (holdPort v) s) 0x6200 1 (fld v 0 12))

def execHoldOffWrite (w : WriteHdr) (value : BitVec 16) (s : State) : Host.Outcome State Fault Refusal :=
  .next (dictWrite w 0x6200 1 (leBytes 2 value.toNat) (applyHoldOff value.toNat) s)

/-! ## The power envelope schedule (R401, R402) -/

/-- The cap period in mt. -/
def capPeriod (s : State) : Mt := usMt (reg s 0x6000 7)

def insertStep (x : CapStep) : List CapStep → List CapStep
  | [] => [x]
  | y :: r => if x.time < y.time then x :: y :: r else y :: insertStep x r

/-- A step that lowers a cap. -/
def lowers (s : State) (x : CapStep) : Bool :=
  (x.icap != 0xFFFF && decide (x.icap < rackCap s)) || (x.scap != 0xFFFF && decide (x.scap < rackScap s))

/-- R402: prepare a step: its settings begin now. -/
def prepare (s : State) (time : Nat) : State :=
  let s1 := setPow s fun p => { p with
    steps := p.steps.map fun x => if x.time = time then { x with prepared := true } else x }
  if s.power.steps.any fun x => x.time == time && lowers s x then settleNow s1 else s1

/-- R401: a step of the schedule as its 16 bytes give it. -/
def stepOf (b : Bytes) : CapStep := { time := leAt b 0 8, icap := leAt b 8 2, scap := leAt b 10 2, prepared := false }

/-- R401: a schedule write. -/
def applySchedule (b : Bytes) (s : State) : Verdict :=
  let x := stepOf b
  let l := s.power.steps
  require (x.time % capPeriod s == 0 && decide (stamp s < x.time) && !(l.any fun y => y.time == x.time) &&
      decide (l.length < 64) && (x.icap == 0xFFFF || !belowFloor s false x.icap) &&
      (x.scap == 0xFFFF || (isMaster s && !belowFloor s true x.scap)))
    (let s1 := setPow s fun p => { p with steps := insertStep x p.steps }
     ok (if timed s ∧ x.time < stamp s + 1600000 then prepare s1 x.time else s1))

def execScheduleWrite (w : WriteHdr) (step : Bytes) (s : State) : Host.Outcome State Fault Refusal :=
  .next (dictWrite w 0x6100 1 step (applySchedule step) s)

def applyScheduleClear (on : Bool) (s : State) : Verdict :=
  ok (if on then setPow s fun p => { p with steps := [] } else s)

def execScheduleClear (w : WriteHdr) (s : State) : Host.Outcome State Fault Refusal :=
  .next (dictWrite w 0x6100 5 [1] (applyScheduleClear true) s)

/-- R402: 300 µs before its time a lowering step is prepared. -/
def stepPrepare (s : State) : State :=
  match s.power.steps.find? fun x => !x.prepared && inTurn s 2 (x.time - 1200000) with
  | some x => prepare s x.time
  | none => s

def execStepPrepare (s : State) : Host.Outcome State Fault Refusal := .next (stepPrepare s)

/-- R401: a step fires and leaves the schedule. -/
def scheduleStep (s : State) : State :=
  match s.power.steps with
  | x :: r =>
    if inTurn s 2 x.time then
      settleNow (setPow s fun p => { p with
        steps := r, rackCap := if x.icap = 0xFFFF then p.rackCap else some x.icap,
        rackScap := if x.scap = 0xFFFF then p.rackScap else some x.scap })
    else s
  | [] => s

def execScheduleStep (s : State) : Host.Outcome State Fault Refusal := .next (scheduleStep s)

/-! ## The thermal model (R411 to R413) -/

/-- The sensors that are present. -/
def sensorPresent (s : State) (n : Nat) : Bool := decide (n < 22) || (decide (32 ≤ n) && decide (n < 48) && isMaster s)
def sensorsHere (s : State) : List Nat := (List.range 64).filter (sensorPresent s)

/-- R411: the neighbours of a sensor. -/
def neighbours (n : Nat) : List Nat :=
  if n < 12 then ((if n = 0 then [] else [n - 1]) ++ (if n = 11 then [] else [n + 1]))
  else if n < 16 then [12 + (n + 1) % 4, 12 + (n + 3) % 4]
  else if n < 20 then [16 + (n + 1) % 4, 16 + (n + 3) % 4]
  else if n = 20 then [12]
  else if n = 21 then [16, 15]
  else ((if n % 4 = 0 then [] else [n - 1]) ++ (if n % 4 = 3 then [] else [n + 1]))

/-- R406: the part of the energy count that a block is in: lanes, store and store bridge, other logic, Sextant units. [log 32, DEDUCED] -/
def blockPart (n : Nat) : Nat := if n < 12 then 0 else if (16 ≤ n ∧ n < 20) ∨ n = 21 then 1 else if n < 32 then 2 else 3

/-- R412: no coolant value for 10 s. -/
def coolantStale (s : State) : Bool := s.power.coolantFrom.isNone || passed s s.power.coolantAt (secMt 10)

/-- The coolant temperature that the model uses. -/
def coolantUsed (s : State) : Int := if coolantStale s then max s.power.coolant 45000 else s.power.coolant

/-- E, U and the bound of a sensor. [log 33, DEDUCED] -/
def modelE (s : State) (n : Nat) : Int := coolantUsed s + (sensor s n).response
def modelU (s : State) : Int := if s.power.settled then 6000 else 40000

/-- 0x6400.06: the temperature used. -/
def tempUsed (s : State) (n : Nat) : Int := if (sensor s n).failed then modelE s n + modelU s else (sensor s n).reading

/-- Counted energy of a block in the last activity sample. -/
def blockNow (s : State) (n : Nat) : Nat := tgetD s.power.blocks n 0

/-- R413: a sensor reads cool against its neighbours, each corrected by the difference of the two sensors' E. -/
def coolNeighbours (s : State) (n : Nat) (reading : Int) : Bool :=
  let l := (neighbours n).filter fun k => sensorPresent s k && !(sensor s k).failed
  let near := l.all fun k =>
    let d := (sensor s k).reading - modelE s k
    decide (-(modelU s) ≤ d) && decide (d ≤ modelU s)
  let sum := (l.map fun k => (sensor s k).reading + (modelE s n - modelE s k)).foldl (· + ·) 0
  !l.isEmpty && near && decide (8000 * (l.length : Int) < sum - reading * (l.length : Int))

/-- R413: no change of 100 mK in 60 s while the power of the block changed by 20 %. [log 33, DEDUCED] -/
def stuck (s : State) (n : Nat) : Bool :=
  let x := sensor s n
  let now := blockNow s n
  passed s x.movedAt (secMt 60) && decide (x.movedPow ≤ 5 * (max now x.movedPow - min now x.movedPow)) && now != x.movedPow

/-- R413: the failing cases that hold for a sensor. -/
def failCases (s : State) (n : Nat) : List Nat :=
  let r := (sensor s n).reading
  (if r < modelE s n - modelU s - 3000 then [0] else []) ++ (if coolNeighbours s n r then [1] else []) ++
    (if r < coolantUsed s - 5000 ∨ 150000 < r then [2] else []) ++ (if stuck s n then [3] else [])

/-- A sensor takes its reading. [log 33, DEDUCED] -/
def takeReading (s : State) (r : Fin 64 × Int) : State :=
  let n := r.1.val
  let x := sensor s n
  if !sensorPresent s n then s
  else
    let far := decide (100 ≤ r.2 - x.moved) || decide (r.2 - x.moved ≤ -100)
    let y := { x with
      reading := r.2, response := Config.thermalResponse n x.response s.power.msBlocks,
      moved := if far then r.2 else x.moved, movedAt := if far then s.clock else x.movedAt,
      movedPow := if far then blockNow s n else x.movedPow }
    setPow s fun p => { p with sensors := tput p.sensors n y }

/-- Since when each failing case holds. -/
def noteCases (s : State) (n : Nat) : State :=
  let x := sensor s n
  let bad := (failCases s n).map fun c => (c, (tget x.badFrom c).getD s.clock)
  setPow s fun p => { p with sensors := tput p.sensors n { x with badFrom := bad } }

/-- Whether some sensor of a kind stands at or above a level. -/
def hotAt (s : State) (level : Int) (sextant : Bool) : Bool :=
  (sensorsHere s).any fun n => (decide (32 ≤ n) == sextant) && decide (level ≤ tempUsed s n)
def anyHot (s : State) (level : Int) : Bool := hotAt s level false || hotAt s level true

/-- R414: report an upward crossing of the warning level. -/
def noteCross (s : State) (n : Nat) : State :=
  let x := sensor s n
  let hot := decide (s.power.warnLevel ≤ tempUsed s n)
  let s1 := setPow s fun p => { p with sensors := tput p.sensors n { x with crossed := hot } }
  if hot && !x.crossed then report s1 0xC n 2 (ofSigned 32 x.reading) else s1

/-- A whole number of W that is not below a power in 0.1 W. -/
def wattsUp (p : Nat) : Nat := ceilDiv p 10

/-- R414, R415: the thermal cap and the Sextant thermal ceiling at a boundary; at the critical level the floor power stays the
cap. [log 32, DEDUCED] -/
def thermalStep (s : State) : State :=
  let warn := s.power.warnLevel
  let cool : Bool := match s.power.coolFrom with
    | some t => passed s t (capPeriod s)
    | none => false
  let cap := s.power.thermCap
  let raised := cap + ceilDiv cap 20
  let s1 :=
    if hotAt s warn false then
      setPow s fun p => { p with
        thermCap := if p.critical then wattsUp (floorPower s) else max (wattsUp (floorPower s)) (ceilingPower s * 9 / 100) }
    else if cool ∧ cap ≠ 0 then
      setPow s fun p => { p with thermCap := if rackCap s < raised then 0 else raised }
    else s
  if hotAt s warn true then
    setPow s1 fun p => { p with sextTherm := max (lowerStep s) (min p.sextTherm p.sextCeil - 50) }
  else if cool then setPow s1 fun p => { p with sextTherm := min 1000 (p.sextTherm + 25) }
  else s1

/-- R415: the critical level: the floor power and, for a Sextant sensor, the lower step at once, when they are not in force
already. -/
def criticalStep (s : State) : State :=
  let crit := s.power.critLevel
  if anyHot s crit then
    let s1 := setPow s fun p => { p with
      critical := true,
      thermCap := wattsUp (floorPower s),
      sextTherm := if hotAt s crit true then lowerStep s else p.sextTherm }
    if s.power.critical ∧ s1.power.thermCap = s.power.thermCap ∧ s1.power.sextTherm = s.power.sextTherm then s1 else settleNow s1
  else setPow s fun p => { p with critical := false }

/-- How long the sensors stand where the rules of R414 and R415 look. [log 33, DEDUCED] -/
def noteLevels (s : State) : State :=
  let since (c : Bool) (o : Option Mt) : Option Mt := if c then some (o.getD s.clock) else none
  let s1 := setPow s fun p => { p with
    coolFrom := since (!anyHot s (p.warnLevel - 5000)) p.coolFrom,
    belowFrom := since (!anyHot s p.warnLevel) p.belowFrom,
    critFrom := since (anyHot s (p.critLevel + 5000)) p.critFrom,
    settled := p.settled || (match p.coolantFrom with
      | some t => passed s t (secMt 10) && !coolantStale s
      | none => false) }
  { s1 with pins := { s1.pins with thermAlert := anyHot s s.power.warnLevel } }

/-- R411 to R415: the sensors are read every 1 ms. [log 47, DESIGN CHOICE] -/
def sensorRead (readings : List (Fin 64 × Int)) (s : State) : State :=
  if s.phase ≠ .running ∨ !passed s s.power.sensorAt (msMt 1) then s
  else
    let s1 := readings.foldl takeReading s
    let s2 := (sensorsHere s1).foldl noteCases (setPow s1 fun p => { p with sensorAt := s.clock, msBlocks := [] })
    let s3 := (sensorsHere s2).foldl noteCross s2
    let hotter := (sensorsHere s3).any fun n => (sensor s3 n).crossed && !(sensor s n).crossed
    let s4 := noteLevels s3
    criticalStep (if !timed s4 ∧ hotter then settleNow (thermalStep s4) else s4)

def execSensorRead (readings : List (Fin 64 × Int)) (s : State) : Host.Outcome State Fault Refusal :=
  .next (sensorRead readings s)

/-- R413: a failing case has held for 1 s. -/
def sensorFailed (n : Nat) (s : State) : State :=
  let x := sensor s n
  if sensorPresent s n ∧ !x.failed ∧ x.badFrom.any fun c => passed s c.2 (secMt 1) then
    raiseReplace (report (setPow s fun p => { p with sensors := tput p.sensors n { x with failed := true } }) 0xC n 1
      (ofSigned 32 x.reading)) 4
  else s

def execSensorFailed (sensor : Fin 64) (s : State) : Host.Outcome State Fault Refusal :=
  .next (sensorFailed sensor s)

/-- R415: critical plus 5 K has held for 10 ms: every port is held off. [log 33, DEDUCED] -/
def criticalHoldTimeout (s : State) : State :=
  match s.power.critFrom with
  | some t =>
    if passed s t (msMt 10) then
      (formedPorts s).foldl (fun a p =>
        if (port a p).thermOff then a else stopPort (updPort a p fun x => { x with thermOff := true }) p) s
    else s
  | none => s

def execCriticalHoldTimeout (s : State) : Host.Outcome State Fault Refusal := .next (criticalHoldTimeout s)

/-- R415: every sensor has been below the warning level for 1 s. -/
def thermalRelease (s : State) : State :=
  match s.power.belowFrom with
  | some t =>
    if passed s t (secMt 1) then
      (formedPorts s).foldl (fun a p =>
        if (port a p).thermOff then releasePort (updPort a p fun x => { x with thermOff := false }) p else a) s
    else s
  | none => s

def execThermalRelease (s : State) : Host.Outcome State Fault Refusal := .next (thermalRelease s)

/-- R415: a critical level at least 5,000 mK above the warning level. -/
def applyCritical (v : Nat) (s : State) : Verdict :=
  require (decide (toSigned 32 (reg s 0x6400 7) + 5000 ≤ toSigned 32 v))
    (ok (journalNote (setReg s 0x6400 8 v) (regKey 0x6400 8 0) v))

/-- R412: the tray controller writes the coolant temperature. -/
def applyCoolant (v : Nat) (s : State) : Verdict :=
  let from_ := if coolantStale s then some s.clock else s.power.coolantFrom
  ok (setPow (setReg s 0x6400 9 v) fun p => { p with
    coolant := toSigned 32 v, coolantAt := s.clock, coolantFrom := from_ })

/-- 0x6400.0B: the rail power of the package. -/
def applyRail (v : Nat) (s : State) : Verdict := ok (setPow (setReg s 0x6400 0xB v) fun p => { p with railAt := some s.clock })

/-! ## Cap boundaries (R400, R403) -/

/-- R360, R403, R414, R465: a cap boundary: what waited for it takes effect, and settings are chosen. -/
def capBoundary (s : State) : State :=
  let b := s.mer.count / max (capPeriod s) 1 * capPeriod s
  if !inTurn s 2 b ∨ b = s.power.boundary then s
  else
    let s1 := setPow s fun p => { p with
      boundary := b, hostCap := reg s 0x6000 3, hostScap := reg s 0x6010 3,
      portMarks := twelve.filter fun q => (port s q).marked, unitMarks := (List.range 16).filter fun u => (sext s u).marked,
      warnLevel := toSigned 32 (reg s 0x6400 7), critLevel := toSigned 32 (reg s 0x6400 8) }
    let s2 := thermalStep s1
    settle s2 (targetCap s2) b

def execCapBoundary (s : State) : Host.Outcome State Fault Refusal := .next (capBoundary s)

/-! ## Energy (R406 to R408) -/

/-- The coefficient of a block. -/
def blockCoeff (s : State) (n : Nat) : Nat := (tget s.power.coeff n).getD (Config.energyCoeff n)

/-- R406: the energy of each block that is present, each counter weighted by its coefficient. -/
def blockEnergies (s : State) (a : Activity) : List (Nat × Nat) :=
  (a.counts.filter fun x => sensorPresent s x.1).map fun x => (x.1.val, x.2 * blockCoeff s x.1)

/-- The energy of a part. -/
def partEnergy (l : List (Nat × Nat)) (part : Nat) : Nat :=
  ((l.filter fun x => blockPart x.1 == part).map (·.2)).foldl (· + ·) 0

/-- Add energies to those of the blocks. -/
def addBlocks (t : Tbl Nat) (l : List (Nat × Nat)) : Tbl Nat := l.foldl (fun a x => tput a x.1 (tgetD a x.1 0 + x.2)) t

def addLists : List Nat → List Nat → List Nat
  | a :: x, b :: y => (a + b) :: addLists x y
  | x, [] => x
  | [], y => y

/-- An average over ten samples of 10 µs of energies in nJ, in 0.1 W. [log 32, DEDUCED] -/
def windowPower (l : List (List Nat)) (parts : List Nat) : Nat :=
  ((l.map fun e => (parts.map fun i => e.getD i 0).foldl (· + ·) 0).foldl (· + ·) 0) / 10000

/-- R406, R407: the activity counters are read every 10 µs. [log 32, DEDUCED; log 47, DESIGN CHOICE] -/
def activitySample (a : Activity) (s : State) : State :=
  if s.phase ≠ .running ∨ !passed s s.power.sampleAt (usMt 10) then s
  else
    let l := blockEnergies s a
    let e := (List.range 4).map (partEnergy l)
    setPow s fun p =>
      let w := (e :: p.window).take 10
      { p with
        sampleAt := s.clock, window := w, energy := addLists p.energy e, blocks := addBlocks [] l,
        msBlocks := addBlocks p.msBlocks l, total := p.total + e.foldl (· + ·) 0,
        peak := if w.length = 10 then max p.peak (windowPower w [0, 1, 2]) else p.peak,
        speak := if w.length = 10 then max p.speak (windowPower w [3]) else p.speak,
        overMt := if effCap s * 10 < ceilingPower s then p.overMt + usMt 10 else p.overMt }

def execActivitySample (counts : Activity) (s : State) : Host.Outcome State Fault Refusal :=
  .next (activitySample counts s)

/-- R406: once a second the coefficients are corrected against the reported rail power. -/
def coefficientCorrection (s : State) : State :=
  match s.power.railAt with
  | some t =>
    if passed s s.power.corrAt (secMt 1) ∧ s.power.corrAt ≤ t then
      setPow s fun p => { p with
        corrAt := s.clock,
        coeff := (sensorsHere s).map fun n => (n, Config.correctedCoeff n (reg s 0x6400 0xB) (blockCoeff s n)) }
    else s
  | none => s

def execCoefficientCorrection (s : State) : Host.Outcome State Fault Refusal := .next (coefficientCorrection s)

/-- R407: the energy report of the minute in progress. -/
def energyReport (s : State) (partial_ : Bool) : Bytes :=
  let p := s.power
  let mj (i : Nat) := p.energy.getD i 0 / 1000000 % 2 ^ 32
  let rail := match p.railAt with
    | some t => decide (p.minuteAt ≤ t)
    | none => false
  let flags := bit s.mer.flagUnlocked + 2 * bit s.mer.flagStepped + 4 * bit s.mer.flagHold + 8 * bit partial_ +
    16 * bit (!rail)
  leBytes 8 s.mer.minute ++ leBytes 1 flags ++ leBytes 1 (instId s) ++ leBytes 2 (ownNode s).toNat ++ zeros 4 ++
    leBytes 4 (mj 0) ++ leBytes 4 (mj 1) ++ leBytes 4 (mj 2) ++ leBytes 4 (mj 3) ++
    leBytes 4 ((mj 0 + mj 1 + mj 2) % 2 ^ 32) ++ leBytes 2 p.capHi ++ leBytes 2 p.capLo ++ leBytes 2 p.peak ++
    leBytes 2 p.speak ++ leBytes 2 (min 65535 (p.overMt / 4000)) ++ zeros 2 ++ leBytes 8 (s.mer.minute * minuteMt) ++
    zeros 8

/-- R407, R408: close the report of a minute: kept, logged and sent. -/
def closeReport (s : State) (partial_ : Bool) : State :=
  let r := energyReport s partial_
  let s1 := setPow s fun p => { p with
    reports := (r :: p.reports).take 16, energy := [0, 0, 0, 0], peak := 0, speak := 0, capHi := effCap s,
    capLo := effCap s, overMt := 0, minuteAt := s.clock }
  pushEvent (writeLog s1 3 6 r) 2 (stamp s) r

/-- The hottest present sensor. -/
def hottest (s : State) : Nat × Int :=
  (sensorsHere s).foldl (fun a n => if a.2 < tempUsed s n then (n, tempUsed s n) else a) (0, tempUsed s 0)

/-- R433: the SENSORS record. -/
def logSensors (s : State) : State :=
  let h := hottest s
  let failed := ((sensorsHere s).filter fun n => (sensor s n).failed).length
  writeLog s 0xA 2 (leBytes 4 (ofSigned 32 h.2) ++ leBytes 1 h.1 ++ leBytes 1 failed ++ zeros 2 ++
    leBytes 4 (ofSigned 32 s.power.coolant))

/-! ## The margin check (R207, R208) -/

/-- A collective that has pieces in a unit's queue. -/
def sendsTo (s : State) (u : Nat) : List Nat := (s.colls.map (·.1)).filter fun c => usesUnit s c u

/-- R208: answer the atomics of a unit's queue with NOT_PERFORMED. -/
def refuseQueue (s : State) (u : Nat) : State :=
  let q := (sext s u).queue
  let s1 := updSext (closeLines s u) u fun x => { x with queue := [] }
  q.foldl (fun t r => match r.work with
    | .atomic h _ _ _ _ loop => respond t h loop .notPerformed [] 0 false
    | .piece .. => t) s1

/-- R208: what follows at each inst when a unit goes out of service. -/
def unitLeaves (s : State) (u : Nat) : State :=
  let cs := sendsTo s u
  let s1 := updSext s u fun x => { x with inService := false, change := none }
  pressEnded u s (settlePress (refuseQueue (cs.foldl (fun t c => abortColl t c .notPerformed true) s1) u) u)

/-- R208: the master takes a unit out of service. -/
def outOfService (s : State) (u : Nat) : State := tellUnit (report (unitLeaves s u) 8 u 2 0) u

/-- R207: a unit's slack in the minute that ended is held against the guard. -/
def marginCheck (minute : Nat) (s : State) (u : Nat) : State :=
  if !(sext s u).inService then s
  else
    let slack := Config.marginSlack (if h : u < 16 then ⟨u, h⟩ else 0) minute (sext s u).freq
    if reg s 0x5310 5 ≤ slack then s
    else if trimmedMax s u ≤ 600 then outOfService s u
    else
      let v := trimmedMax s u - 25
      let s1 := unitCount (setTrimmed s u v) u 8 1
      let s2 := if v < (sext s1 u).freq then updSext (closeLines s1 u) u fun x => { x with freq := v / 25 * 25 } else s1
      let s3 := tellUnit s2 u
      if v < 850 then raiseReplace (report s3 8 u 1 v) 1 else s3

/-! ## The Meridian minute (R362, R433, R488) -/

/-- R362: a minute boundary closes the minute's flags and its energy account. Until the device has locked,
the minute in which it locks is the one in progress. -/
def meridianMinute (s : State) : State :=
  let m := s.mer.count / minuteMt
  if !timed s ∨ m = s.mer.minute then s
  else
    let s1 := logSensors (closeReport s false)
    let s2 := setMer s1 fun x => { x with
      minute := m, flagUnlocked := x.state != .locked, flagStepped := x.halfRate, flagHold := x.state == .holdover }
    if isMaster s then (List.range 16).foldl (marginCheck s.mer.minute) s2 else s2

def execMeridianMinute (s : State) : Host.Outcome State Fault Refusal := .next (meridianMinute s)

end Sys2Proof.Machine
end

