-- ==== Sys2Proof/Machine/Fault.lean ====
section
/-! DEFINITION. The fault collector (R366, R368 to R373, R391) as it handles one message, the counts of the
sources and their windows (R367), forced messages, and the dump (R387 to R390). -/

namespace Sys2Proof.Machine

def setFaults (s : State) (f : Faults → Faults) : State := { s with faults := f s.faults }

/-! ## Handling one message (R366, R368 to R371, R391) -/

/-- R366: a message below DEGRADED is logged within the log rate of its source. -/
def logLow (s : State) (m : Msg) : State :=
  let src := msgSource m
  let x := source s src
  let free := decide (x.logged < reg s 0x7000 0xD)
  let y := if free then { x with logged := x.logged + 1 } else { x with held := x.held + 1 }
  let s1 := setFaults s fun f => { f with sources := tput f.sources src y }
  if free then writeLogAt s1 1 3 m.time (leBytes 16 m.bits.toNat) else s1

/-- R366: the Logbook's record of a message. -/
def logMessage (s : State) (m : Msg) : State :=
  if msgSev m < reg s 0x7000 0xB then s
  else if msgSev m ≤ 1 then logLow s m
  else writeLogAt s 1 3 m.time (leBytes 16 m.bits.toNat)

/-- SOURCE and KIND of a message. -/
def msgKindKey (m : Msg) : Nat := fld m.bits.toNat 0 18

/-- R370: a message that merges into the latched one. -/
def merges (latched m : Msg) : Bool := msgKindKey latched == msgKindKey m || m.roots.any fun r => fld r.toNat 0 18 == msgKindKey latched && fld r.toNat 80 48 == fld latched.bits.toNat 80 48

/-- The latched message with the higher of two severities. -/
def raiseSev (latched m : Msg) : Msg :=
  if msgSev latched < msgSev m then
    { latched with bits := BitVec.ofNat 128 (setFld latched.bits.toNat 18 3 (msgSev m)) }
  else latched

/-- The fault interrupt with the fault sequence number. -/
def faultInterrupt (s : State) : State := emit s (.interrupt (reg s 0x7000 0xA) s.faults.seqNr)

/-- R369 to R371: latch, merge or overflow. [log 51, DEDUCED] -/
def latchMessage (s : State) (m : Msg) : State :=
  if msgSev m < reg s 0x7000 7 then s
  else
    match s.faults.latch with
    | none =>
      faultInterrupt (setFaults s fun f => { f with
        latch := some m, seqNr := (f.seqNr + 1) % 2 ^ 32, overTold := false })
    | some l =>
      if merges l m then
        setFaults s fun f => { f with latch := some (raiseSev l m), merges := min (f.merges + 1) 65535 }
      else
        let s1 := setFaults s fun f => { f with
          overflow := true, overCount := (f.overCount + 1) % 2 ^ 32, overTold := true }
        if s.faults.overTold then s1 else faultInterrupt s1

/-- R391: the FDP event of a message. -/
def eventMessage (s : State) (m : Msg) : State :=
  if msgSev m < reg s 0x7000 0xC then s else pushEvent s 1 m.time (leBytes 16 m.bits.toNat)

/-- The collector handles a message taken from its queue; the actions of its kind come after. [log 34, DEDUCED; log 51, DEDUCED] -/
def collect (s : State) (m : Msg) : State :=
  let s1 := setFaults (bump s 0x7000 0xE) fun f => { f with last := m.bits }
  eventMessage (latchMessage (logMessage s1 m) m) m

/-- Take the first message of the intake queue. -/
def takeIntake (s : State) : State :=
  match s.faults.intake with
  | [] => s
  | m :: r => collect (setFaults s fun f => { f with intake := r }) m

/-- The queue run dry: what the collector handles before the device stops. [log 51, DEDUCED] -/
def drainIntake (s : State) : State := Nat.repeat takeIntake s.faults.intake.length s

/-! ## Clearing and forcing (R372, R373) -/

/-- R372: the latch is emptied by the fault sequence number. -/
def applyFaultClear (v : Nat) (s : State) : Verdict :=
  require (s.faults.latch.isSome && s.faults.seqNr == v)
    (ok (setFaults s fun f => { f with latch := none, overflow := false, overCount := 0, merges := 0 }))

def execFaultClear (w : WriteHdr) (value : BitVec 32) (s : State) : Host.Outcome State Fault Refusal :=
  .next (dictWrite w 0x7000 5 (leBytes 4 value.toNat) (applyFaultClear value.toNat) s)

/-- R365: the base severity of a kind; that of HOLDOVER_ENTERED depends on the role. -/
def severityOf (s : State) (cls kind : Nat) : Option Severity :=
  if cls = 9 ∧ kind = 3 ∧ s.mer.isMaster then some .degraded else baseSeverity cls kind

/-- R373: a forced message of a kind of the selected source. [log 36, DEDUCED] -/
def applyForce (src kind : Nat) (s : State) : Verdict :=
  match severityOf s (src / 256) kind with
  | none => breaksRule
  | some sev =>
    ok (raiseReport s { cls := src / 256, idx := src % 256, kind := kind, sev := sev, forced := true })

def execFaultForce (w : WriteHdr) (kind : BitVec 8) (s : State) : Host.Outcome State Fault Refusal :=
  .next (dictWrite w 0x7100 6 [kind] (fun t => applyForce (wsel t w 0x7100 1) kind.toNat t) s)

/-! ## Counting windows and the log rate (R366, R367) -/

/-- 0x7100.08: whether a source stands at or above its limit. -/
def sourceSevere (s : State) (src : Nat) : Bool :=
  let n := regAt s 0x7100 3 src
  (source s src).severe && n != 0 && decide (n ≤ windowCount (rollSlots s src (source s src)))

/-- R367: a slot boundary passes. -/
def countSlotBoundary (src : Nat) (s : State) : State :=
  let x := rollSlots s src (source s src)
  setFaults s fun f => { f with sources := tput f.sources src { x with severe := sourceSevere s src } }

def execCountSlotBoundary (cls : Fin 16) (idx : BitVec 8) (s : State) : Host.Outcome State Fault Refusal :=
  .next (countSlotBoundary (sourceNo cls idx.toNat) s)

/-- R367: a window write restarts the slots and empties the count. -/
def applyCountWindow (owner v : Nat) (s : State) : Verdict :=
  let src := selected s owner 0x7100 1
  let s1 := storeNumber owner 0x7100 4 v s
  ok (setFaults s1 fun f => { f with
    sources := tput f.sources src { source s src with slots := [], epoch := s.clock, passed := 0, severe := false } })

def execCountWindowWrite (w : WriteHdr) (value : BitVec 32) (s : State) : Host.Outcome State Fault Refusal :=
  .next (dictWrite w 0x7100 4 (leBytes 4 value.toNat) (applyCountWindow (ownerOf w.path) value.toNat) s)

/-- R433: the SUPPRESSED record of one source. -/
def logSuppressed (s : State) (x : Nat × Source) : State :=
  if x.2.held = 0 then s
  else writeLog s 2 2 (leBytes 2 x.1 ++ zeros 2 ++ leBytes 4 x.2.held)

/-- R366: a second of local time ends. [log 51, DEDUCED] -/
def logRateSecond (s : State) : State :=
  let k := s.clock / 4000000000
  if k = s.faults.second ∨ !awake s then s
  else
    setFaults (s.faults.sources.foldl logSuppressed s) fun f => { f with
      second := k, sources := f.sources.map fun x => (x.1, { x.2 with logged := 0, held := 0 }) }

def execLogRateSecond (s : State) : Host.Outcome State Fault Refusal := .next (logRateSecond s)

/-! ## The dump (R387 to R390) -/

/-- R387: the size of a ring unit's snapshot in bytes. -/
def unitBytes (u : Nat) : Nat :=
  if u = 0 ∨ u = 45 ∨ u = 46 then 1024
  else if (2 ≤ u ∧ u < 30) ∨ u = 43 ∨ u = 44 then 4096
  else 2048

/-- The ring units that this inst reads. -/
def ringUnits (s : State) : List Nat := List.range (if isMaster s then 64 else 48)

/-- R388: the transfer time of the units, at 32 bits per 10 ns. [log 35, DEDUCED] -/
def readSpan (s : State) : Mt := ((ringUnits s).map fun u => unitBytes u / 4 * 40).foldl (· + ·) 0

/-- 0x7300.02. -/
def dumpState (s : State) : Nat := if s.faults.dump = 1 ∧ s.faults.dumpRead ≤ s.clock then 2 else s.faults.dump

/-- R388: the words that a unit has given by the end of its reading. -/
def unitWords (marks : Tbl Nat) (u : Nat) : Nat := (tget marks u).getD (unitBytes u / 4)

/-- R388: the time that a unit takes: its words, and 50 µs when it stopped. -/
def unitSpan (marks : Tbl Nat) (u : Nat) : Mt :=
  unitWords marks u * 40 + (if (tget marks u).isSome then usMt 50 else 0)

/-- R388: how much of the reading time is left once a unit has been read: what the units after it take. -/
def readAfter (s : State) (u : Nat) : Mt :=
  (((ringUnits s).filter fun v => decide (u < v)).map (unitSpan s.faults.dumpWords)).foldl (· + ·) 0

/-- R388: the mark of a unit: COMPLETE, PARTIAL or ABSENT. -/
def unitMark (marks : Tbl Nat) (u : Nat) : Nat :=
  match tget marks u with
  | some 0 => 2
  | some _ => 1
  | none => 0

/-- The result of a unit as byte u of 0x7300.03 has it: its mark once it is read, else not read. [log 35, DEDUCED] -/
def unitResult (s : State) (u : Nat) : Nat :=
  if s.faults.dump = 0 ∨ !(ringUnits s).contains u then 3
  else if (tget s.faults.dumpWords u).isNone ∧ dumpState s = 1 ∧ s.clock + readAfter s u < s.faults.dumpRead then 3
  else unitMark s.faults.dumpWords u

def unitResults (s : State) : Bytes := (List.range 64).map fun u => BitVec.ofNat 8 (unitResult s u)

/-- The bytes of a dump: those that its units gave. -/
def dumpSize (s : State) : Nat := ((ringUnits s).map fun u => 4 * unitWords s.faults.dumpWords u).foldl (· + ·) 0

/-- R433: a DUMP record: written, cut or skipped. [log 35, DEDUCED] -/
def logDump (s : State) (st bytes : Nat) (results : Bytes) : State :=
  writeLog s 4 6 (leBytes 1 s.flash.dumpNext ++ leBytes 1 st ++ zeros 2 ++ leBytes 4 bytes ++ results)

/-- R388 to R390: start a dump, unless the buffer holds an unwritten one. [log 35, DEDUCED] -/
def startDump (s : State) : State :=
  if s.faults.dump = 1 then logDump s 2 0 (List.replicate 64 3)
  else
    { setFaults s fun f => { f with
        dump := 1, dumpNr := s.free, dumpWords := [], dumpAt := stamp s, dumpRead := s.clock + readSpan s }
      with free := s.free + 1 }

/-- R389: a dump asked for. -/
def applyDumpRequest (on : Bool) (s : State) : Verdict := ok (if on then startDump s else s)

def execDumpRequest (w : WriteHdr) (s : State) : Host.Outcome State Fault Refusal :=
  .next (dictWrite w 0x7300 1 [1] (applyDumpRequest true) s)

/-- R388: a unit gave no word, or stopped partway, for 50 µs while the dump is read: how many words it gave before is an
open value. [log 35, DEDUCED] -/
def dumpUnitTimeout (u : Nat) (anyWord : Bool) (s : State) : State :=
  if dumpState s = 1 ∧ (ringUnits s).contains u ∧ (tget s.faults.dumpWords u).isNone then
    let f := freshValue s 18
    let n := if anyWord then 1 + f.1.toNat % (unitBytes u / 4 - 1) else 0
    setFaults f.2 fun x => { x with
      dumpWords := tput x.dumpWords u n, dumpRead := x.dumpRead + usMt 50 - (unitBytes u / 4 - n) * 40 }
  else s

def execDumpUnitTimeout (unit : Fin 64) (anyWord : Bool) (s : State) : Host.Outcome State Fault Refusal :=
  .next (dumpUnitTimeout unit anyWord s)

/-- R390, R431: the dump is written to its slot, or stays in the buffer where that fails. -/
def writeDump (s : State) : State :=
  match wornIn s.flash (dumpAddr s.flash.dumpNext) 0x40000 with
  | some a => flashError s a
  | none =>
    let s1 := logDump s 0 (dumpSize s) (unitResults s)
    let s2 := setFaults { s1 with flash := { s1.flash with
        dumpSlots := tput s1.flash.dumpSlots s.flash.dumpNext (s.faults.dumpNr, unitResults s, s.faults.dumpWords),
        dumpNext := (s.flash.dumpNext + 1) % 4 } } fun f => { f with dump := 3 }
    changedParts s2 0x7510 s.flash.dumpNext

/-- R390: the flash write of the dump in the buffer is done. -/
def dumpFlashWriteDone (s : State) : State := if dumpState s = 2 then writeDump s else s

def execDumpFlashWriteDone (s : State) : Host.Outcome State Fault Refusal := .next (dumpFlashWriteDone s)

/-- R388: what a unit gives when it is read: whether it stops, and after how many words, is an open value. [log 35, DEDUCED] -/
def readUnit (s : State) (u : Nat) : State :=
  let f := freshValue s 18
  let n := f.1.toNat % (unitBytes u / 4 + 1)
  if n = unitBytes u / 4 then f.2 else setFaults f.2 fun x => { x with dumpWords := tput x.dumpWords u n }

/-- R383 step 1, R385: the dump before a reset or a power cycle request is read and written before the device
goes on. [log 35, DEDUCED] -/
def dumpNow (s : State) : State :=
  if s.faults.dump = 1 then startDump s
  else writeDump (setFaults ((ringUnits s).foldl readUnit (startDump s)) fun f => { f with dumpRead := s.clock })

/-- R389, R390: a power cut loses a dump that is not written, and the Logbook records it as cut. -/
def cutDump (s : State) : State :=
  if s.faults.dump = 1 then logDump (setFaults s fun f => { f with dump := 0 }) 1 0 (unitResults s) else s

/-- R390, R428: a Compass restart loses it without a record. -/
def loseDump (s : State) : State := if s.faults.dump = 1 then setFaults s fun f => { f with dump := 0 } else s

end Sys2Proof.Machine
end

