-- ==== Sys2Proof/Machine/Start.lean ====
section
/-! DEFINITION. Start-up (R384, R448, R477 to R479, R487): what a reset clears and keeps, the boot ROM's
choice of an image, the persisted values and tables restored, and the ports that begin to train. -/

namespace Sys2Proof.Machine

/-! ## What a reset clears (R383 step 3, R384) -/

/-- A tracking block keeps its round; one out of the free pool stays out. -/
def keepBlock (x : Block) : Block :=
  { freshBlock with round := x.round, hold := if blockFree x then none else some 0 }

/-- R384: everything starts as at power-up but the flash, generations, rounds and epochs; pins and the other
insts are as they are. `txEpoch` gives the transmit epochs. Host submits wait (R468). [log 40, DESIGN CHOICE] -/
def clearAll (s : State) (phase : Phase) (txEpoch : Nat → Nat) : State :=
  let gone := s.pins.cutGone.map fun _ => 0
  let pins := { s.pins with thermAlert := false, replaceReq := false, booked := [], frames := [], cutGone := gone }
  let mgmt := { Mgmt.reset with
    heldReqs := s.mgmt.heldReqs.filter (fun q => q.path.isHost)
    keys := s.mgmt.keys
    plcaOk := s.mgmt.plcaOk }
  let ports := twelve.map fun p => (p, { Port.reset with link := { Link.reset with txEpoch := txEpoch p } })
  let ctxs := s.ctxs.map fun x => (x.1, { Ctx.reset with gen := x.2.gen + 1 })
  { State.reset with
    pending := s.pending
    phase := phase
    pins := pins
    cascade := { Cascade.reset with present := s.cascade.present, lost := s.cascade.lost }
    ctxs := ctxs
    genBase := s.genBase + 1
    blocks := s.blocks.map fun x => (x.1, keepBlock x.2)
    ports := ports
    faults := Faults.reset
    mgmt := mgmt
    flash := { s.flash with bootWrite := none }
    mem := s.mem
    out := s.out
    nextId := s.nextId
    free := s.free }

/-- Transmit epochs that rise by one (R297). -/
def raisedEpoch (s : State) (p : Nat) : Nat := ((port s p).link.txEpoch + 1) % 4

/-- R386: after a loss of power generations, rounds and epochs begin again, and no other inst is present. -/
def clearPower (s : State) : State :=
  { clearAll (tornBoot (tornRecord s)) .held (fun _ => 0) with
    ctxs := [], genBase := 0, blocks := [],
    cascade := Cascade.reset }

/-! ## The boot (R447, R448) -/

def imageOf (f : Flash) (i : Nat) : Image := if i = 0 then f.image0 else f.image1
def setImage (f : Flash) (i : Nat) (x : Image) : Flash := if i = 0 then { f with image0 := x } else { f with image1 := x }

/-- R447: an image that verifies and is not rolled back. -/
def imageValid (f : Flash) (i : Nat) : Bool := (imageOf f i).valid && decide (f.rollback ≤ (imageOf f i).rollback)

/-- R433: an IMAGE record. [log 36, DEDUCED] -/
def logImage (s : State) (event i : Nat) : State :=
  let x := imageOf s.flash i
  writeLog s 7 2 (leBytes 1 event ++ leBytes 1 i ++ zeros 2 ++ leBytes 4 x.rollback ++ leBytes 4 x.version.toNat)

/-- R433: a BOOT record. [log 34, DEDUCED] -/
def logBoot (s : State) (i cause : Nat) : State :=
  writeLog s 8 2 (leBytes 1 i ++ leBytes 1 cause ++ zeros 2 ++
    leBytes 4 (if i = 0xFF then 0 else (imageOf s.flash i).version.toNat))

/-- R448 step 2: the trial count; past 3 trials the other image becomes active. -/
def countTrial (s : State) : State :=
  let f := s.flash
  if !f.trial then s
  else if 3 < f.tries + 1 then
    let s1 := writeBoot s (1 - f.active) false 0
    logImage s1 5 (1 - f.active)
  else writeBoot s f.active true (f.tries + 1)

/-- R448 step 3: the image that boots. -/
def bootChoice (f : Flash) : Option Nat :=
  if imageValid f f.active then some f.active
  else if imageValid f (1 - f.active) then some (1 - f.active) else none

/-- R448: boot an image, or enter recovery mode. -/
def boot (cause : Nat) (s0 : State) : State :=
  let s := countTrial s0
  match bootChoice s.flash with
  | none =>
    let s1 := { s with phase := .recovery, mgmt := { s.mgmt with running := 0xFF } }
    logBoot (if s0.flash.active ≠ s.flash.active then report s1 0xE 0 3 s.flash.active else s1) 0xFF cause
  | some i =>
    let trial := s.flash.trial && i == s.flash.active
    let s1 := { s with phase := .running, mgmt := { s.mgmt with
      running := i, update := if trial then 5 else 0, bootAt := s.clock } }
    let s2 := if s0.flash.active ≠ i ∨ s.flash.active ≠ i then report s1 0xE 0 3 i else s1
    logBoot (if trial then logImage s2 3 i else s2) i cause

/-! ## Persisted values (R430, R487 step 4) -/

/-- The records that a BLOB of them holds. -/
def splitRecords (b : Bytes) : List Bytes := chunks 16 b

/-- The store bank map with the committed banks in force (R427). -/
def startMap (s : State) : Bytes :=
  s.flash.fusedBanks.foldl (fun m x => overwrite m x.1 [BitVec.ofNat 8 x.2]) (blob s 0x4630 4)

/-- A physical bank's state from the map: in service, spared out, or a free spare. [log 31, DEDUCED] -/
def bootBank (map : Bytes) (b : Nat) : Bank :=
  bankIn (if map.contains (BitVec.ofNat 8 b) then 0 else if b < 128 then 3 else 1) none 0

/-- R427: the lanes that fuses power down. -/
def startLanes (s : State) : State :=
  s.flash.fusedLanes.foldl (fun t l => updLane t l fun x => { x with fused := true, role := 5 }) s

/-- R430, R431: the records before the last one of a bank whose CRC fails, by their addresses. -/
def badRecords (addr : Nat) : List JRec → List Nat
  | x :: y :: r => (if x.good then [] else [addr]) ++ badRecords (addr + recSize x) (y :: r)
  | _ => []

/-- R430: the values that the journal gives: those of the bank that serves, and the errors found in reading it. With no valid
bank every value keeps its default. -/
def replayed (s : State) : State × Tbl Stored :=
  match servingBank s.flash with
  | some i => ((badRecords (bankAddr i) (journalBank s.flash i).recs).foldl flashError s, replay (journalBank s.flash i))
  | none => (flashError s (bankAddr 0), [])

/-- The numbers and the byte strings among stored values, by key in rising order. -/
def storedNums (t : Tbl Stored) : Tbl Nat := t.filterMap fun x => match x.2 with
  | .num v => if ownRecord x.1 then none else some (x.1, v)
  | .bytes _ => none
def storedBlobs (t : Tbl Stored) : Tbl Bytes := t.filterMap fun x => match x.2 with
  | .bytes b => some (x.1, b)
  | .num _ => none

/-- R445: the last accepted counter of each slot is its high mark, and the keys are those in flash, in recovery mode too. -/
def restoreAuth (s : State) : State :=
  let marks := [0, 1, 2, 3].filterMap fun k => match storedAt s.flash (markKey k) with
    | some (.num v) => some (k, v)
    | _ => none
  { s with mgmt := { s.mgmt with keys := s.flash.keys, counters := marks, opBase := storedNum s.flash opKey } }

/-- R430, R487: the values that flash and fuses hold. [log 38, DEDUCED] -/
def restore (s0 : State) : State :=
  let v := replayed s0
  let s := v.1
  let s1 := { s with regs := (storedNums v.2).foldl (fun t x => tput t x.1 x.2) s.regs, blobs := storedBlobs v.2 }
  let map := startMap s1
  let s2 := { setBlobAt s1 0x4630 4 0 map with
    banks := (List.range 136).map fun b => (b, bootBank map b),
    test := { s1.test with
      records := splitRecords ((tget s1.blobs (regKey 0x8200 3 0)).getD []),
      fuses := 24 - s.flash.fusesUsed },
    power := { s1.power with
      warnLevel := toSigned 32 (reg s1 0x6400 7), critLevel := toSigned 32 (reg s1 0x6400 8),
      capHi := reg s1 0x6000 8, capLo := reg s1 0x6000 8 } }
  startLanes s2

/-- R392: a unit is trimmed below 850 MHz. -/
def lowestTrim (s : State) : Bool := (List.range 16).any fun u => decide (trimmedMax s u < 850)

/-- A lane device fault that no commit has repaired (R393, R427). -/
def laneUnrepaired (s : State) : Bool := s.test.records.any fun r => (byteAt r 0 == 1 || byteAt r 0 == 2) && byteAt r 1 == 0

/-- R393: the replace request is raised again for what persists. -/
def reasonsAgain (s : State) : State :=
  let s1 := if isMaster s ∧ lowestTrim s then raiseReplace s 1 else s
  let s2 := if freeSpares s1 = [] then raiseReplace s1 2 else s1
  if laneUnrepaired s2 then raiseReplace s2 3 else s2

/-! ## The shared tables (R29, R383 step 4, R487 step 4) -/

/-- The shared tables that a copy holds; what belongs to each inst stays. -/
def copiedTables (c : TableCopy) (own : Tables) : Tables :=
  let t := c.updates.foldl storeUpdate Tables.reset
  let st (n : Nat) : BankState := if n = 0 then .free else if n = 1 then .ready else if n = 2 then .active else .draining
  { own with
    rank := t.rank, inc := t.inc, windowDir := t.windowDir, window := t.window, bank0 := t.bank0, bank1 := t.bank1,
    st0 := st c.bank0.toNat, st1 := st c.bank1.toNat, epochNr := c.epochNr.toNat, flipAt := c.flipAt.toNat,
    flipped := c.flipped.toNat, quiet := none }

/-- R29, R383 step 4: the inst that the shared tables are copied from: the master, or for the master the
lowest-numbered present one. -/
def copySource (s : State) : Option Nat :=
  if isMaster s then s.cascade.present.foldl (fun a i => some (min i (a.getD i))) none
  else if s.cascade.present.contains 0 then some 0 else none

/-- R28: the master does not answer, or is held in reset. [log 43, DEDUCED] -/
def loseMaster (s : State) : State :=
  raiseReplace (report (enterHoldover { s with cascade := { s.cascade with masterAbsent := true } }) 0xA 0 1 0) 0

/-- Take a copy; without one the tables stay empty, and while another inst is present they are still to be
copied. Inst 1 to 3 without inst 0 finds the master absent (R30). [log 43, DEDUCED] -/
def takeTables (copy : Option TableCopy) (s : State) : State :=
  match copySource s, copy with
  | some _, some c =>
    noteQuiet { s with tables := copiedTables c s.tables, cascade := { s.cascade with copying := false } }
  | some _, none => { s with cascade := { s.cascade with copying := true } }
  | none, _ =>
    if isMaster s then { s with cascade := { s.cascade with copying := false } }
    else loseMaster { s with cascade := { s.cascade with copying := false, atStart := true } }

/-! ## Layout, widths and stripes (R228, R305, R341) -/

/-- R228: the checks of a layout: six sizes in MiB, five VC sixteenths, the guarantee in force. -/
def storeLayoutOk (sizes vcs : List Nat) (guarantee : Nat) : Bool :=
  let at_ (i : Nat) := sizes.getD i 0
  (List.range 6).all (fun i => match rowOf 0x4600 (1 + i) with
    | some r => decide (r.lo ≤ at_ i) && decide (at_ i ≤ r.hi)
    | none => false) &&
    at_ 0 + at_ 1 + at_ 2 + at_ 3 + at_ 4 == 128 && decide (at_ 5 < at_ 0) &&
    vcs.all (fun v => decide (1 ≤ v)) && vcs.foldl (· + ·) 0 == 16 &&
    decide (64 * guarantee * 16 ≤ at_ 3 * 16384)

/-- R228: the layout in force. -/
def applyLayout (s : State) : State :=
  let sizes := (List.range 6).map fun i => reg s 0x4600 (1 + i)
  let vcs := (blob s 0x4610 1).map fun b => b.toNat
  if storeLayoutOk sizes vcs (reg s 0x4620 1) then
    setBlobAt (setBlobAt s 0x4600 7 0 (sizes.map (BitVec.ofNat 8))) 0x4610 1 1 (blob s 0x4610 1)
  else
    report (setBlobAt (setBlobAt s 0x4600 7 0 (blobDefault 0x4600 7)) 0x4610 1 1 (blobDefault 0x4610 1)) 6 0xFF 7 0

/-- R305: a width list: no width after the first 0, sum 12. -/
def widthsOk (w : Bytes) : Bool :=
  let head := w.takeWhile fun b => b != 0
  (w.drop head.length).all (fun b => b == 0) && (head.map fun b => b.toNat).foldl (· + ·) 0 == 12

/-- R305: the widths in force. -/
def applyWidths (s : State) : State :=
  let w := blob s 0x2000 1
  if widthsOk w then setBlobAt s 0x2000 2 0 w
  else report (setBlobAt s 0x2000 2 0 (blobDefault 0x2000 2)) 2 0xFF 9 0

/-- The octets of a port by a list of widths. -/
def widthIn (widths : Bytes) (p : Nat) : Nat := byteAt widths p

/-- Whether a port is marked as a stripe in a map. -/
def marked341 (map : Bytes) (p : Nat) : Bool := bitAt (byteAt map p) 7

/-- R341: whether port `p` of inst `i` may be a stripe beside those taken before it, by the maps and widths known. What is
not known of a home inst is not held against a stripe. [log 43, DEDUCED] -/
def stripeOk (maps : Tbl (Bytes × Bytes)) (taken : List (Nat × Nat)) (i p : Nat) : Bool :=
  let at_ (x : Nat × Nat) := byteAt (tgetD maps x.1 ([], [])).1 x.2
  let width (j q : Nat) := widthIn (tgetD maps j ([], [])).2 q
  let home := (fld (at_ (i, p)) 4 2, fld (at_ (i, p)) 0 4)
  let same := taken.filter fun x => (fld (at_ x) 4 2, fld (at_ x) 0 4) == home
  let octets := (same.map fun x => width x.1 x.2).foldl (· + ·) 0
  decide (0 < width i p) && decide (width i p ≤ 2) && decide (home.2 ≤ 11) && home != (i, p) &&
    !marked341 (tgetD maps home.1 ([], [])).1 home.2 && same.all (fun x => x.1 != i) &&
    decide (width home.1 home.2 + octets + width i p ≤ 12)

/-- R341: the stripes that keep the rules, by inst and port, in rising order. -/
def goodStripes (maps : Tbl (Bytes × Bytes)) : List (Nat × Nat) :=
  (([0, 1, 2, 3].map fun i => twelve.map fun p => (i, p)).flatten.filter fun x =>
    marked341 (tgetD maps x.1 ([], [])).1 x.2).foldl
      (fun l x => if stripeOk maps l x.1 x.2 then l ++ [x] else l) []

/-- R341: the ports of an inst that its map marks against the rules. -/
def badStripes (maps : Tbl (Bytes × Bytes)) (i : Nat) : List Nat :=
  twelve.filter fun p => marked341 (tgetD maps i ([], [])).1 p && !(goodStripes maps).contains (i, p)

/-- R341: stripes of this inst that break the rules run as ordinary ports. -/
def dropStripes (s : State) (bad : List Nat) : State :=
  let map := blobAt s 0x2010 1 1
  let m := twelve.map fun p => if bad.contains p then (0 : Byte) else (map[p]?).getD 0
  bad.foldl (fun t p => report t 2 p 0xA 0) (setBlobAt s 0x2010 1 1 m)

/-- The stripes of this inst in force, and its widths, as the master is told of them (R341). -/
def ownMap (s : State) : Bytes × Bytes := (blobAt s 0x2010 1 1, blob s 0x2000 2)

/-- The maps and widths that this inst knows: its own, and at the master those of the others. -/
def mapsKnown (s : State) : Tbl (Bytes × Bytes) := tput s.cascade.maps (instId s) (ownMap s)

/-- R341: an inst other than the master tells it its map. -/
def tellMap (s : State) : State :=
  if isMaster s ∨ s.cascade.present = [] then s
  else emit s (.bus (.stripes ⟨instId s % 4, by omega⟩ (ownMap s).1 (ownMap s).2))

/-- R341: the master takes the stripes against the rules out of the maps it knows, and tells their insts. -/
def checkMaps (s : State) : State :=
  if !isMaster s then dropStripes s (badStripes (mapsKnown s) (instId s))
  else
    let maps := mapsKnown s
    let t := dropStripes s (badStripes maps 0)
    (s.cascade.maps.map (·.1)).foldl (fun t i =>
      let bad := badStripes maps i
      if bad = [] then t
      else emit t (.bus (.stripesBad ⟨i % 4, by omega⟩ (bad.map fun p => ⟨p % 12, by omega⟩)))) t

/-- R341: the stripes in force: those of the map that keep the rules. -/
def applyStripes (s : State) : State :=
  tellMap (checkMaps (setBlobAt s 0x2010 1 1 (blob s 0x2010 1)))

/-! ## Sextant units of a cascade (R182) -/

/-- R182: the master tells the other insts the values of 0x5310 and the state of every unit. -/
def tellSextant (s : State) : State :=
  let t := (List.range 6).foldl (fun t k =>
    emit t (.bus (.sextant ⟨(k + 1) % 7, by omega⟩ (BitVec.ofNat 16 (reg s 0x5310 (k + 1)))))) s
  (List.range 16).foldl (fun t u =>
    emit (tellUnit t u) (.bus (.unitCounts ⟨u % 16, by omega⟩ ((List.range 9).map fun k => regAt s 0x5300 (k + 5) u)))) t

/-- R182: an inst other than the master asks it for them; at the master they go out. -/
def askSextant (s : State) : State :=
  if s.cascade.present = [] then s
  else if isMaster s then tellSextant s
  else emit s (.bus (.sextantAsk ⟨instId s % 4, by omega⟩))

/-! ## Start-up (R487) -/

/-- R308, R344: a port that may train begins; the lanes of any other are in electrical idle. -/
def openPort (s : State) (p : Nat) : State := if portOpen s p then releasePort s p else restartLanes s p true

/-- Steps 4 to 6: values and tables, layout and widths, and the ports that train: none while a power cut warning
keeps every transmitter in electrical idle (R479). -/
def bringUp (copy : Option TableCopy) (s : State) : State :=
  let s1 := applyStripes (applyWidths (applyLayout (takeTables copy (reasonsAgain (restore s)))))
  let s2 := twelve.foldl (fun t p => tellStripe (openPort t p) p) s1
  askSextant (settleNow s2)

/-- Steps 3 to 6 once the clocks are locked; in recovery mode the ports stay ABSENT (R448). -/
def startUp (copy : Option TableCopy) (s : State) : State :=
  let s1 := restoreAuth (boot (if s.pins.cold then 0 else 1) s)
  let s2 := { s1 with pins := { s1.pins with cold := false } }
  if s2.phase = .recovery then s2 else bringUp copy s2

/-- The inst reset that the sequencer bounds (R377, R383). -/
def runningInst (s : State) (causes : List (BitVec 128)) : State :=
  setFaults s fun f => { f with running := [{ level := 4, target := 0, start := s.clock, causes := causes, ctxs := [] }] }

end Sys2Proof.Machine
end

