-- ==== Sys2Proof/Machine/Reset.lean ====
section
/-! DEFINITION. The reset levels (R377 to R386): requests and overlaps, what each level does, completion,
expiry of a bound with escalation, the power cycle request, and the instance reset. -/

namespace Sys2Proof.Machine

/-! ## Running resets (R377 to R379) -/

/-- The bound of a level. -/
def resetBound (level : Nat) : Mt :=
  if level = 1 then usMt 20 else if level = 2 then msMt 2 else if level = 3 then msMt 20 else secMt 3

/-- The running reset of a level and target. -/
def runningAt (s : State) (level target : Nat) : Option Running :=
  s.faults.running.find? fun r => r.level == level && r.target == target

/-- Whether the scope of a running reset contains that of a level and target. [log 34, DEDUCED] -/
def contains (s : State) (level target : Nat) (r : Running) : Bool :=
  if r.level = 4 then true
  else if r.level = level then r.target == target
  else if level = 1 ∧ r.level = 2 then engineOf target == r.target
  else if level = 1 ∧ r.level = 3 then (ctx s target).partEnt == r.target
  else false

/-- R379: a request joins a running reset of a containing scope. [log 34, DEDUCED] -/
def joins (s : State) (level target : Nat) : Bool := s.faults.running.any (contains s level target)

/-- R433: the RESET record. -/
def logReset (s : State) (level target : Nat) (escalated : Bool) : State :=
  writeLog s 5 2 (leBytes 1 level ++ leBytes 1 (bit escalated) ++ zeros 2 ++ leBytes 4 target)

/-- The listed contexts for which a condition holds, by number. -/
def ctxsWhere (s : State) (c : Nat → Ctx → Bool) : List Nat := (s.ctxs.filter fun x => c x.1 x.2).map (·.1)

/-- R381: an engine's contexts. -/
def engineContexts (s : State) (e : Nat) : List Nat := ctxsWhere s fun c _ => engineOf c == e

/-- R379 to R382: the contexts that a new reset reaches first: those of its scope that no reset it does not contain has
reached. -/
def reached (s : State) (level target : Nat) : List Nat :=
  let r : Running := { level := level, target := target, start := 0, causes := [], ctxs := [] }
  let mine := if level = 1 then [target] else if level = 2 then engineContexts s target
    else if level = 3 then ctxsWhere s fun _ x => x.partEnt == target else []
  mine.filter fun c => !(s.faults.running.any fun x => !contains s x.level x.target r && x.ctxs.contains c)

/-- R379: a new reset runs; those within its scope are taken over. -/
def addRunning (s : State) (level target : Nat) (causes : List (BitVec 128)) (escalated : Bool) : State :=
  let r : Running := { level := level, target := target, start := s.clock, causes := causes, ctxs := reached s level target }
  logReset (setFaults s fun f => { f with
    running := f.running.filter (fun x => !contains s x.level x.target r) ++ [r] }) level target escalated

/-- The end of a reset: counted and reported (R380 to R383). -/
def resetDone (s : State) (level target : Nat) : State :=
  raiseReport (bump (setFaults s fun f => { f with
      running := f.running.filter fun r => !(r.level == level && r.target == target) }) 0x7200 (4 + level))
    { cls := 0xB, idx := level, kind := 1, sev := .note, addr := target,
      ctx := if level = 1 then some target else none }

/-! ## Levels 1 to 3 (R380 to R382) -/

def resetAll (s : State) (l : List Nat) : State := l.foldl resetContext s

/-- R379: the contexts that a running reset reached first. -/
def ownContexts (s : State) (level target : Nat) : List Nat := ((runningAt s level target).map (·.ctxs)).getD []

/-- R382 steps 2 and 3: what is held to be performed or delivered here under a key. -/
def heldHere (s : State) (key : Nat) (x : Pkt) : Bool :=
  let h := x.header
  hKey h == key && (match x.acct with
    | .ingress _ _ => hDst h == ownNode s || isCollective (hOp h)
    | .incast | .loopBack | .staging _ | .pool => true
    | _ => false)

/-- R382 steps 2 and 3: one packet is dropped; a request is answered with NOT_PERFORMED. -/
def dropHeld (s : State) (x : Pkt) : State :=
  let s1 := dropPkt { s with accesses := s.accesses.filter fun a => a.pkt != some x.id } x.id
  if isRequest (hOp x.header) then sendSynthetic s1 x .notPerformed else s1

/-- R253, R382 step 3: of a multicast copy that is passed on, only what is held to be delivered here is dropped. -/
def dropClaims (s : State) (key : Nat) : State :=
  let mine (k : Pkt) : Bool := k.hereToo && hKey k.header == key
  let s1 := (s.pkts.filter fun k => mine k && k.acked).foldl (fun t k => dropPkt t k.id) s
  { s1 with pkts := s1.pkts.map fun k => if mine k then { k with coll := none, hereToo := false } else k }

/-- R382. [log 34, DEDUCED] -/
def partitionWork (s : State) (p : Nat) : State :=
  let s1 := dropClaims (resetAll s (ownContexts s 3 p)) (partKey s p)
  let s2 := (s1.pkts.filter (heldHere s1 (partKey s1 p))).foldl dropHeld s1
  let bound (c : Nat) : Bool := (ctx s2 c).partEnt == p
  let gone := (s2.grants.map (·.1)).filter fun k => bound (grantNctx k)
  gone.foldl freeGrant { s2 with msgIn := s2.msgIn.filter fun m => !bound m.2.nctx }

/-- A context that nothing is left to do for. -/
def ctxStopped (x : Ctx) : Bool := x.state == .off || x.state == .halted

/-- R380 to R382: start a reset of level 1 to 3. One of an OFF or HALTED context completes at once. -/
def startReset (s : State) (level target : Nat) (causes : List (BitVec 128)) (escalated : Bool) : State :=
  if joins s level target then s
  else
    let s1 := addRunning s level target causes escalated
    if level = 1 then
      (if ctxStopped (ctx s target) then resetDone s1 1 target else resetContext s1 target)
    else if level = 2 then resetAll s1 (ownContexts s1 2 target)
    else partitionWork s1 target

/-- R377: the targets of a level. -/
def targetOk (level target : Nat) : Bool :=
  if level = 1 then true else if level = 2 then decide (target < 16) else decide (target < 64)

/-- R377, R379: a reset request. [log 34, DEDUCED] -/
def applyReset (v : Nat) (s : State) : Verdict :=
  let level := fld v 0 3
  let target := fld v 4 12
  inRange (decide (1 ≤ level) && decide (level ≤ 3))
    (require (targetOk level target && !instReset s) (ok (startReset s level target [] false)))

/-- The value of 0x7200.01 for a level and target. -/
def resetValue (level : Nat) (target : BitVec 12) : Bytes := leBytes 4 (level + target.toNat * 16)

def execContextReset (w : WriteHdr) (target : BitVec 12) (s : State) : Host.Outcome State Fault Refusal :=
  .next (dictWrite w 0x7200 1 (resetValue 1 target) (applyReset (1 + target.toNat * 16)) s)

def execEngineReset (w : WriteHdr) (target : BitVec 12) (s : State) : Host.Outcome State Fault Refusal :=
  .next (dictWrite w 0x7200 1 (resetValue 2 target) (applyReset (2 + target.toNat * 16)) s)

def execPartitionReset (w : WriteHdr) (target : BitVec 12) (s : State) : Host.Outcome State Fault Refusal :=
  .next (dictWrite w 0x7200 1 (resetValue 3 target) (applyReset (3 + target.toNat * 16)) s)

/-- R380: a DRAINING context that is not HALTED 20 µs after its drain time ended. -/
def autoContextReset (c : Nat) (s : State) : State :=
  let x := ctx s c
  if x.state = .draining ∧ passed s (x.drainAt + x.drainFor) (usMt 20) ∧ s.phase = .running then
    startReset s 1 c [] false
  else s

def execAutoContextReset (ctx : Fin 4096) (s : State) : Host.Outcome State Fault Refusal :=
  .next (autoContextReset ctx s)

/-- R381 step 2: a mirror write that memory has not accepted is abandoned, with its interrupts. -/
def abandonMirror (s : State) (c : Nat) : State :=
  let x := ctx s c
  if x.mirrorOut.isNone ∧ !x.mirrorNext then s
  else
    let s1 := reportCtx (setCtx s c { x with mirrorOut := none, mirrorNext := false, fired := [] }) 3 (engineOf c) 3 0 .ok c
    if x.halting then enterHalted s1 c else s1

/-- R381: 100 µs after the start of an engine reset. -/
def mirrorAbandonTimeout (e : Nat) (s : State) : State :=
  match runningAt s 2 e with
  | some r => if passed s r.start (usMt 100) then r.ctxs.foldl abandonMirror s else s
  | none => s

def execMirrorAbandonTimeout (engine : Fin 16) (s : State) : Host.Outcome State Fault Refusal :=
  .next (mirrorAbandonTimeout engine s)

/-! ## Power cycle request (R385, R482) -/

/-- Stop every port: DEPART with a reason where it is due, link down with cause 7. -/
def departPort (reason : Nat) (s : State) (p : Nat) : State :=
  let x := port s p
  if x.state = .absent ∨ x.state = .training then s else linkDown (sendDepart s p reason) p 7 0

/-- Electrical idle on every transmitter. -/
def idlePort (s : State) (p : Nat) : State :=
  restartLanes (updPort s p fun x => { x with state := .absent, stage := none, trying := none }) p true

def departAll (s : State) (reason : Nat) : State := twelve.foldl (departPort reason) s
def idleAll (s : State) : State := twelve.foldl idlePort s

/-- R385: dump, DEPART with reason 3, PCYC_REQ_N, the event to the tray controller, with the FATAL report of an expired bound;
the replace request is not raised for a forced message (R373). -/
def powerCycle (s : State) (causes : List (BitVec 128)) (expired forced : Bool) : State :=
  if s.pins.pcycReq then s
  else
    let s1 := dumpNow (logReset (setFaults (bump s 0x7200 9) fun f => { f with
      running := [{ level := 5, target := 0, start := s.clock, causes := causes, ctxs := [] }] }) 5 0 expired)
    let s2 := if expired then raiseReport s1 { cls := 0xB, idx := 5, kind := 3, sev := .fatal } else s1
    let s2 := if forced then s2 else raiseReplace s2 5
    let s3 := { s2 with pins := { s2.pins with pcycReq := true } }
    pushEvent (idleAll (departAll s3 3)) 4 (stamp s) []

/-! ## The instance reset (R383, R384) -/

/-- R383: with or without a dump, by which fault, escalated or not. One that runs already is joined. [log 34, DEDUCED] -/
def instanceReset (dump : Bool) (causes : List (BitVec 128)) (escalated : Bool) (copy : Option TableCopy) (s : State) :
    State :=
  if instReset s then s
  else
    let s1 := logReset (if dump then dumpNow s else s) 4 0 escalated
    let s2 := flushJournal (drainIntake (departAll s1 1))
    startUp copy (runningInst (clearAll s2 .running (raisedEpoch s)) causes)

/-- R377: a write of 0x7200.02. [log 34, DEDUCED] -/
def applyInstReset (v : Nat) (copy : Option TableCopy) (s : State) : Verdict :=
  inRange (v == 1 || v == 2) (ok (instanceReset (v == 1) [] false copy s))

/-- The answer to the write that starts an instance reset leaves before the device stops, and its record is
written; the transaction then runs its effect. -/
def resetWrite (w : WriteHdr) (v : Nat) (copy : Option TableCopy) (s : State) : State :=
  let q := writeReq w 0x7200 2 (leBytes 1 v)
  fromPath w.path w.xid (transact q fun t =>
    let u := performWrite q (fun x => inRange (v == 1 || v == 2) (ok x)) t
    if (writeOutcome q (fun x => inRange (v == 1 || v == 2) (ok x)) t).st = .ok then instanceReset (v == 1) [] false copy u
    else u) s

def execInstanceResetDump (w : WriteHdr) (copy : Option TableCopy) (s : State) : Host.Outcome State Fault Refusal :=
  .next (resetWrite w 1 copy s)

def execInstanceResetNoDump (w : WriteHdr) (copy : Option TableCopy) (s : State) : Host.Outcome State Fault Refusal :=
  .next (resetWrite w 2 copy s)

/-! ## Completion (R380 to R383) -/

/-- R383: a port has its stage A outcome, or is ABSENT. -/
def portSettled (s : State) (p : Nat) : Bool := (port s p).outcome != 0 || (port s p).state == .absent

/-- Whether a running reset has completed. -/
def resetOver (s : State) (level target : Nat) : Bool :=
  if level = 1 then ctxStopped (ctx s target)
  else if level = 2 ∨ level = 3 then (ownContexts s level target).all fun c => ctxStopped (ctx s c)
  else decide (level = 4) && (s.phase == .running || s.phase == .recovery) && !s.cascade.copying &&
    (s.phase == .recovery || !cutWaits s) && twelve.all fun p => portWidth s p == 0 || portSettled s p

/-- R384: the blocks held over an instance reset are held for 10 ms more. -/
def restampBlocks (s : State) : State :=
  { s with blocks := s.blocks.map fun x =>
      (x.1, if x.2.hold.isSome && !x.2.stale then { x.2 with hold := some s.clock } else x.2) }

/-- A running reset completes. [log 34, DEDUCED] -/
def resetComplete (level target : Nat) (s : State) : State :=
  if (runningAt s level target).isSome ∧ resetOver s level target then
    resetDone (if level = 4 then restampBlocks s else s) level target
  else s

def execResetComplete (level : Fin 5) (target : BitVec 12) (s : State) : Host.Outcome State Fault Refusal :=
  .next (resetComplete level target.toNat s)

/-! ## Expiry of a bound (R378) -/

/-- 0x7200.04. -/
def escalation (s : State) (level next target : Nat) : Bytes :=
  leBytes 1 level ++ leBytes 1 next ++ zeros 2 ++ leBytes 4 target ++ leBytes 8 (stamp s)

/-- The level that an expiry starts. -/
def nextLevel (level : Nat) : Nat := if level = 1 then 2 else if level = 4 then 5 else 4

/-- R378: start the level that follows an expired one, by the messages that led to it; `forced` for the expiry of a forced
message (R373). 0x7200.04 shows it. -/
def escalate (s0 : State) (level target : Nat) (causes : List (BitVec 128)) (forced : Bool) (copy : Option TableCopy) : State :=
  let s := setFaults s0 fun f => { f with lastEsc := escalation s0 level (nextLevel level) target }
  if level = 1 then startReset s 2 (engineOf target) causes true
  else if level = 2 ∨ level = 3 then instanceReset true causes true copy s
  else if level = 4 then powerCycle s causes true forced
  else s

/-- R378: the report of an expiry and the level it starts. -/
def expire (r : Running) (copy : Option TableCopy) (s : State) : State :=
  let s1 := raiseReport (bump s 0x7200 0xA) { cls := 0xB, idx := r.level, kind := 2, sev := .severe, addr := r.target, ctx := if r.level = 1 then some r.target else none }
  let told := ((s1.faults.intake.getLast?).map fun m => m.bits).toList
  let s2 := setFaults s1 fun f => { f with
    running := f.running.filter fun x => !(x.level == r.level && x.target == r.target) }
  escalate s2 r.level r.target (r.causes ++ told) false copy

/-- R378: the bound of a running reset expires. -/
def resetBoundExpiry (level target : Nat) (copy : Option TableCopy) (s : State) : State :=
  match runningAt s level target with
  | some r => if level ≤ 4 ∧ passed s r.start (resetBound level) ∧ awake s then expire r copy s else s
  | none => s

/-! ## Actions of a message (R366, R367, R373) -/

/-- R373: the escalation of a forced BOUND_EXPIRED, target 0. [log 34, DEDUCED] -/
def forcedExpiry (s : State) (m : Msg) (copy : Option TableCopy) : State :=
  if 1 ≤ msgIndex m ∧ msgIndex m ≤ 4 then escalate s (msgIndex m) 0 [m.bits] true copy else s

/-- R364 to R366: what follows from a message once it is handled. -/
def actOn (copy : Option TableCopy) (s : State) (m : Msg) : State :=
  if msgForced m then
    if reg s 0x7100 7 = 0 then s
    else if msgClass m = 0xB ∧ msgKind m = 2 then forcedExpiry s m copy
    else if msgClass m = 0xB ∧ msgKind m = 3 then powerCycle s [m.bits] false true
    else if msgSev m = 4 then instanceReset true [m.bits] false copy s
    else s
  else if msgClass m = 6 ∧ msgCnt m ∧ msgIndex m < 136 then spareBank s (msgIndex m) 0
  else if msgClass m = 0xB then s
  else if msgSev m = 4 then instanceReset true [m.bits] false copy s
  else s

/-- R368: the collector takes a message. -/
def faultIntake (copy : Option TableCopy) (s : State) : State :=
  match s.faults.intake with
  | [] => s
  | m :: _ => actOn copy (takeIntake s) m

end Sys2Proof.Machine
end

