-- ==== Sys2Proof/Machine/SelfTest.lean ====
section
/-! DEFINITION. Running self-test and repair (R418 to R427): lane slices, store slices, Sextant slices,
repair records and the fuse block. -/

namespace Sys2Proof.Machine

def setTest (s : State) (f : SelfTest → SelfTest) : State := { s with test := f s.test }

/-! ## Lane slices (R418 to R421) -/

/-- R418: the octet that slice k of a port tests. -/
def sliceOctet (s : State) (p k : Nat) : Nat := (portOctets s p).getD (k / 9 % max 1 (portWidth s p)) 0

/-- R418: the lane that carries the position tested. -/
def sliceLane (s : State) (p k : Nat) : Nat :=
  let o := sliceOctet s p k
  if k % 9 = 8 then 9 * o + 8
  else ((octetLanes o).find? fun l => l % 9 != 8 && (lane s l).pos == k % 9).getD (9 * o + k % 9)

/-- The slices that run on this inst. -/
def slicesRunning (s : State) : Nat := (twelve.filter fun p => (port s p).slice.isSome).length

/-- R419: whether SP allows the slice of position `pos` of an octet. -/
def sliceSpOk (s : State) (p o pos : Nat) : Bool :=
  let y := octet s o
  if pos = 8 then
    y.rxSpare.isNone && y.txSpare.isNone &&
      (spareOctet s p != some o || (portOctets s p).any fun q => q != o && spareFree s q)
  else spareFree s o

/-- R419: whether a slice runs at this end. [log 44, DEDUCED] -/
def sliceRuns (s : State) (p k : Nat) : Bool :=
  let x := port s p
  let o := sliceOctet s p k
  reg s 0x8000 1 != 0 && !s.mgmt.restarting && x.state == .up && x.stage == some .c && ((octet s o).state == 0 || (octet s o).state == 1) &&
    sliceSpOk s p o (k % 9) && x.lmc.isNone && x.slice.isNone && decide (slicesRunning s < reg s 0x8000 0xA)

/-- R420: slice k of a port starts: counted, its time kept, and SPARE sent for positions 0 to 7. -/
def startSlice (s : State) (p k : Nat) : State :=
  let l := sliceLane s p k
  let s1 := updPort (bump s 0x8000 5) p fun x => { endSlice x with slice := some (l, s.clock), sliceNo := some k }
  let s2 := setTest s1 fun t => { t with times := tput t.times l (stamp s) }
  if k % 9 = 8 then s2 else startLmc s2 p 1 (lane s l).peerLane

/-- R418, R419: the start of a port's lane slice. [log 44, DEDUCED] -/
def laneSlice (p : Nat) (s : State) : State :=
  match (port s p).admitted with
  | none => s
  | some b =>
    match sliceDue s b with
    | none => s
    | some k =>
      if !inTurn s 6 (k * slicePeriod s + sliceShift s b) ∨ (port s p).sliceNo = some k then s
      else if sliceRuns s p k then startSlice s p k
      else updPort (bump s 0x8000 7) p fun x => { x with sliceNo := some k }

def execLaneSlice (port : Fin 12) (s : State) : Host.Outcome State Fault Refusal := .next (laneSlice port s)

/-- R420: the check passes. -/
def checkPasses (s : State) (bits errors : Nat) : Bool := ratioOk errors bits (reg s 0x8000 4)

/-- R421: a fault found on the device side: report, replace request, record of KIND 1 or 2. -/
def deviceFault (s : State) (l kind : Nat) : State := addRecord (raiseReplace (report s 0xD 0 1 l) 3) kind l 0

/-- R421: what the checks of a slice say: the reference and the receive loop-back, and the transmit
loop-back where it ran. [log 44, DEDUCED] -/
def sliceOutcome (s : State) (l : Nat) (ref rx tx : Bool) : State :=
  let s1 := if !rx then deviceFault s l 1 else if !ref then report s 0xD 0 2 l else s
  let s2 := if tx then s1 else deviceFault s1 l 2
  let r := if !tx then 4 else if !rx then 3 else if !ref then 2 else 1
  let s3 := sliceResult s2 l r
  if r = 1 then s3 else setTest s3 fun t => { t with found := tput t.found l (tgetD t.found l 0 + 1) }

/-- R420 step 5: the slice of a port is over; a position whose receive path is good returns from SP. -/
def finishSlice (s : State) (p l : Nat) (rx : Bool) : State :=
  let x := port s p
  let ref := x.sliceRef.getD true
  let s1 := sliceOutcome (updPort s p endSlice) l ref rx (x.sliceTx.getD true)
  if ref && rx && l % 9 != 8 then startLmc s1 p 2 (lane s1 l).peerLane else s1

/-- R420: the earliest end of a check after the start of its slice. [log 44, DEDUCED] -/
def checkEnd (s : State) (c : SliceCheck) : Mt :=
  match c with
  | .reference | .txLoop => usMt (100 + reg s 0x8000 3)
  | .rxLoop => usMt (300 + 2 * reg s 0x8000 3)

/-- Whether the position of a lane has moved to SP in the receive direction. -/
def freedHere (s : State) (l : Nat) : Bool := l % 9 == 8 || ((octet s (l / 9)).rxSpare.isSome && (lane s l).pos == 15)

/-- R420 step 4: whether the peer has freed this end's transmit lane of the same position. -/
def freedThere (s : State) (l : Nat) : Bool :=
  l % 9 == 8 || ((octet s (l / 9)).txSpare.isSome && (octet s (l / 9)).txSpare == (octet s (l / 9)).rxSpare)

/-- R420: the end of a check of a running slice. -/
def sliceCheck (s : State) (p l : Nat) (c : SliceCheck) (pass : Bool) : State :=
  match c with
  | .reference => updPort s p fun x => { x with sliceRef := some pass }
  | .txLoop => if freedThere s l then updPort s p fun x => { x with sliceTx := some pass } else s
  | .rxLoop => if (port s p).sliceRef.isSome then finishSlice s p l pass else s

def sliceCheckEnd (l : Nat) (c : SliceCheck) (bits errors : Nat) (s : State) : State :=
  match octetPort s (l / 9) with
  | none => s
  | some p =>
    match (port s p).slice with
    | none => s
    | some (m, t) =>
      if m = l ∧ freedHere s l ∧ passed s t (checkEnd s c) then sliceCheck s p l c (checkPasses s bits errors) else s

def execSliceCheckEnd (lane : Fin 108) (check : SliceCheck) (bits errors : Nat) (s : State) :
    Host.Outcome State Fault Refusal := .next (sliceCheckEnd lane check bits errors s)

/-! ## Store slices (R423) -/

/-- The next bank to test, in order of the bank served. -/
def nextStoreBank (s : State) : Option Nat :=
  ((List.range 128).map fun i => (s.test.nextBank + i) % 128).find? fun n => inService s (servedBy s n)

/-- The store bank map with bank n served by a physical bank. -/
def mapBank (s : State) (n b : Nat) : State :=
  setBlobAt s 0x4630 4 0 (overwrite (blob s 0x4630 4) n [BitVec.ofNat 8 b])

/-- R423 steps 1 to 3: a store slice starts; without a free spare, or during a Compass restart (R428), it is skipped. [log 44, DEDUCED] -/
def storeSlice (s : State) : State :=
  if !inTurn s 6 (storeSliceDue s) ∨ s.test.store.isSome then s
  else
    let s1 := setTest s fun t => { t with storeAt := s.mer.count }
    match nextStoreBank s, (if s.mgmt.restarting then [] else freeSpares s) with
    | some n, sp :: _ =>
      let b := servedBy s n
      let s2 := setBank2 (setBank2 s1 b (bankIn 2 (some sp) s.clock)) sp (bankIn 0 none s.clock)
      setTest (mapBank s2 n sp) fun t => { t with store := some (n, b, sp, s.clock), nextBank := (n + 1) % 128 }
    | _, _ => bump s1 0x8000 7

def execStoreSlice (s : State) : Host.Outcome State Fault Refusal := .next (storeSlice s)

/-- R423: banks that waited for the slice's end are spared now. -/
def spareWaiting (s : State) : State :=
  s.test.waiting.foldl (fun t x => spareBank t x.1 x.2) (setTest s fun t => { t with waiting := [] })

/-- R423 step 4: the bank passed; its rows are copied back. -/
def storePassed (s : State) (n b sp : Nat) : State :=
  mapBank (setBank2 (setBank2 s b (bankIn 0 none s.clock)) sp (bankIn 1 none s.clock)) n b

/-- R423 step 5: the bank failed; it stays spared out. -/
def storeFailed (s : State) (n b sp : Nat) : State :=
  let s1 := setBank2 s b (bankIn 3 none s.clock)
  let s2 := report (addRecord (journalBlob s1 (regKey 0x4630 4 0) (blob s1 0x4630 4)) 3 (n + 256 * sp) 0) 0xD 0 3 b
  if freeSpares s2 = [] then raiseReplace (report s2 6 b 5 0) 2 else s2

/-- R423: the march test of 102.4 µs and 1 ms of retention are over, and every row was read again. -/
def retentionWaitEnd (pass : Bool) (s : State) : State :=
  match s.test.store with
  | none => s
  | some (n, b, sp, t) =>
    if passed s t 4409600 then
      let s1 := setTest s fun x => { x with store := none }
      spareWaiting (if pass then storePassed s1 n b sp else storeFailed s1 n b sp)
    else s

def execRetentionWaitEnd (pass : Bool) (s : State) : Host.Outcome State Fault Refusal := .next (retentionWaitEnd pass s)

/-! ## Sextant slices (R424, R426) -/

/-- The next unit to test, in unit order. -/
def nextTestUnit (s : State) : Option Nat :=
  ((List.range 16).map fun i => (s.test.nextUnit + i) % 16).find? fun u => (sext s u).inService

/-- R426: the raise of a trimmed maximum. -/
def raiseTrim (s : State) (u : Nat) : State :=
  let v := trimmedMax s u + 25
  let s1 := addRecord (tellUnit (setTrimmed s u v) u) 4 u v
  if lowestTrim s1 then s1 else clearReplace s1 1

/-- R426: the vectors at 25 MHz above the trimmed maximum; a slice that does not run them breaks the run. -/
def trimRecovery (s : State) (u slack : Nat) : State :=
  if reg s 0x8200 6 = 0 ∨ (if h : u < 16 then Config.fusedMax ⟨u, h⟩ else 850) < trimmedMax s u + 25 then
    updSext s u fun x => { x with goodRun := 0 }
  else
    let run := if reg s 0x5310 5 + 10 ≤ slack then (sext s u).goodRun + 1 else 0
    if 16 ≤ run then raiseTrim s u else updSext s u fun x => { x with goodRun := run }

/-- R424: a Sextant slice at the master: the unit drains, runs its vectors and resumes, or goes out of service when the
repeat fails too. [log 44, DEDUCED] -/
def sextantSlice (pass repeatPass : Bool) (slack : Nat) (s : State) : State :=
  if !inTurn s 6 (sextSliceDue s) ∨ !isMaster s then s
  else
    match nextTestUnit s with
    | none => s
    | some u =>
      let s1 := setTest s fun t => { t with sextAt := s.mer.count, nextUnit := (u + 1) % 16 }
      if s.mgmt.restarting then bump { s1 with test := { s1.test with nextUnit := u } } 0x8000 7 else
      let s2 := closeLines s1 u
      if pass ∨ repeatPass then trimRecovery s2 u slack else outOfService (report s2 0xD 0 4 u) u

def execSextantSlice (pass repeatPass : Bool) (slackAbove : Nat) (s : State) : Host.Outcome State Fault Refusal :=
  .next (sextantSlice pass repeatPass slackAbove s)

/-! ## Commits (R427) -/

/-- R427: commit a repair record. [log 44, DEDUCED] -/
def applyCommit (n : Nat) (s : State) : Verdict :=
  match s.test.records[n]? with
  | none => breaksRule
  | some r =>
    require (decide (1 ≤ byteAt r 0) && decide (byteAt r 0 ≤ 3) && byteAt r 1 == 0 && decide (0 < s.test.fuses) &&
        s.test.commit.isNone && !s.pins.cutWarn)
      (ok (setTest s fun t => { t with commit := some (n, r) }))

def execRepairCommit (w : WriteHdr) (record : BitVec 8) (s : State) : Host.Outcome State Fault Refusal :=
  .next (dictWrite w 0x8200 4 [record] (applyCommit record.toNat) s)

/-- R427: what the fuses take from a record: a bank's map, or a lane powered down. -/
def burnRecord (s0 : State) (r : Bytes) : State :=
  let s := { s0 with flash := { s0.flash with fusesUsed := s0.flash.fusesUsed + 1 } }
  if byteAt r 0 = 3 then
    { s with flash := { s.flash with fusedBanks := tput s.flash.fusedBanks (byteAt r 2) (byteAt r 3) } }
  else
    let l := leAt r 2 2
    updLane { s with flash := { s.flash with fusedLanes := insertNat s.flash.fusedLanes l } } l fun x => { x with fused := true }

/-- The first record equal to `r` is marked committed. [log 44, DEDUCED] -/
def markCommitted (r : Bytes) : List Bytes → List Bytes
  | [] => []
  | x :: l => if x = r then overwrite x 1 [1] :: l else x :: markCommitted r l

/-- R427: a commit is done. -/
def fuseCommitDone (s : State) : State :=
  match s.test.commit with
  | none => s
  | some (n, r) =>
    let s1 := setTest (burnRecord s r) fun t => { t with commit := none, fuses := t.fuses - 1 }
    let s2 := report (setRecords s1 (markCommitted r s1.test.records)) 0xD 0 5 n
    if laneUnrepaired s2 then s2 else clearReplace s2 3

def execFuseCommitDone (s : State) : Host.Outcome State Fault Refusal := .next (fuseCommitDone s)

end Sys2Proof.Machine
end

