-- ==== Sys2Proof/Machine/Manage.lean ====
section
/-! DEFINITION. The management subsystem (chapter 14): frames of the field network, events and
announcements, the journal, keys, firmware update, cable identities, and the return state. -/

namespace Sys2Proof.Machine

def setMgmt (s : State) (f : Mgmt → Mgmt) : State := { s with mgmt := f s.mgmt }

/-! ## Events and announcements (R434, R440) -/

/-- R434: the PHY reports PLCA status OK: waiting frames go out in order. -/
def plcaStatusOk (s : State) : State :=
  setMgmt { s with out := s.out ++ s.mgmt.txQueue.map .frame } fun m => { m with plcaOk := true, txQueue := [] }

def execPlcaStatusOk (s : State) : Host.Outcome State Fault Refusal := .next (plcaStatusOk s)

/-- R440: EVENT_ACK removes its event. -/
def eventAck (eseq : Nat) (s : State) : State :=
  if compassUp s then
    setMgmt (bump s 0x1010 3) fun m => { m with events := m.events.filter fun e => e.eseq != eseq }
  else s

def execEventAck (eseq : BitVec 32) (s : State) : Host.Outcome State Fault Refusal := .next (eventAck eseq.toNat s)

/-- The event after one more sending at a time. [log 40, DESIGN CHOICE] -/
def sentAgain (now : Mt) (e : Event) : Event := { e with sends := e.sends + 1, at_ := now }

/-- R440: an event is sent again 100 ms after its last sending, at most 10 times. [log 40, DESIGN CHOICE] -/
def eventResend (eseq : Nat) (s : State) : State :=
  match s.mgmt.events.find? fun e => e.eseq == eseq with
  | none => s
  | some e =>
    if compassUp s ∧ passed s e.at_ (msMt 100) ∧ e.sends ≤ 10 then
      sendFrame (setMgmt s fun m => { m with
        events := m.events.map fun x => if x.eseq = eseq then sentAgain s.clock x else x }) (eventFrame s e)
    else s

def execEventResend (eseq : BitVec 32) (s : State) : Host.Outcome State Fault Refusal := .next (eventResend eseq.toNat s)

/-- R440: ANNOUNCE_ACK ends the announcements. -/
def announceAck (s : State) : State :=
  if compassUp s then setMgmt (bump s 0x1010 3) fun m => { m with announce := false } else s

def execAnnounceAck (s : State) : Host.Outcome State Fault Refusal := .next (announceAck s)

/-- 0x1000.06: the version of the running image. -/
def runningVersion (s : State) : Nat :=
  if s.mgmt.running ≤ 1 then (imageOf s.flash s.mgmt.running).version.toNat else 0

/-- R436: the payload of ANNOUNCE. -/
def announceBody (s : State) : Bytes :=
  leBytes 8 Config.serial.toNat ++ [0x5A, 0x56, 0x39, 0x36, 0x42, 0x30] ++ leBytes 1 (instId s) ++
    leBytes 1 s.pins.slotId ++ leBytes 4 (runningVersion s) ++
    leBytes 1 (bit s.pins.replaceReq + 2 * bit (s.phase == .recovery))

/-- R440: the ANNOUNCE frame, to the tray controller that acknowledges it. [log 40, DESIGN CHOICE] -/
def announceFrame (s : State) : Bytes :=
  fdpFrame s Config.trayAddress 0x04 (Config.ownXid 0x04 0) .ok 0 (announceBody s)

/-- R440: ANNOUNCE every 1 s until it is acknowledged. [log 40, DESIGN CHOICE] -/
def announceResend (s : State) : State :=
  if compassUp s ∧ s.mgmt.announce ∧ s.mgmt.announceAt.all (passed s · (secMt 1)) then
    sendFrame (setMgmt s fun m => { m with announceAt := some s.clock }) (announceFrame s)
  else s

def execAnnounceResend (s : State) : Host.Outcome State Fault Refusal := .next (announceResend s)

/-! ## The Compass watchdog (R428) -/

/-- R428: the watchdog restarts the Compass processor: its queues, its sessions and the dump buffer are lost. -/
def compassWatchdog (s : State) : State :=
  if compassUp s then
    setMgmt (loseDump (bump s 0x1000 8)) fun m => { m with
      restarting := true, events := [], txQueue := [], sessions := [] }
  else s

def execCompassWatchdog (s : State) : Host.Outcome State Fault Refusal := .next (compassWatchdog s)

/-- R428, R453: a HAIL that waited for the Compass processor is decided. -/
def decideWaiting (s : State) (p : Nat) : State :=
  let x := port s p
  match x.hail with
  | some b => if x.stage = some .a ∧ x.hailed ∧ x.outcome = 0 ∧ !x.state.works then decideHail s p b else s
  | none => s

/-- R440: the first sending of an event that waited. -/
def sendFirst (s : State) (e : Event) : State :=
  sendFrame (setMgmt s fun m => { m with
    events := m.events.map fun x => if x.eseq = e.eseq then sentAgain s.clock x else x }) (eventFrame s e)

/-- R428, R440: the restart is complete: events raised during it are sent; requests and answers that wait are taken by the
boundary (R468). [log 38, DEDUCED] -/
def compassBack (s : State) : State :=
  if s.mgmt.restarting then
    let s1 := setMgmt s fun m => { m with restarting := false, announce := true, announceAt := none }
    let s2 := (s1.mgmt.events.filter fun e => e.sends == 0).foldl sendFirst s1
    twelve.foldl decideWaiting (logBoot s2 s2.mgmt.running 2)
  else s

/-! ## The journal (R430, R431, R466) -/

/-- R431: the Logbook sector being filled fails: it is marked bad and skipped. [log 36, DEDUCED] -/
def badSector (s : State) : State :=
  let sec := s.flash.logSector
  if s.flash.badSectors.contains sec ∨ 703 ≤ s.flash.badSectors.length then s
  else
    flashError { s with flash := { s.flash with badSectors := s.flash.badSectors ++ [sec] } } (logAddr sec)

/-- R430: the oldest pending record is written, or fails and stays pending. -/
def journalRecord (flashOk : Bool) (s : State) : State :=
  match s.mgmt.journal with
  | [] => s
  | x :: r =>
    let addr := journalAddr s.flash
    let size := recSize { key := x.1, val := x.2, good := true }
    let s1 := { s with flash := noteProgram flashOk addr size s.flash }
    if flashOk then setMgmt (appendRec s1 x.1 x.2 true) fun m => { m with journal := r } else flashError s1 addr

/-- R430, R431: the oldest pending record is written to flash, or stays pending where that fails. [log 38, DEDUCED] -/
def journalAppend (flashOk bad : Bool) (s : State) : State :=
  if compassUp s then journalRecord flashOk (if bad then badSector s else s) else s

def execJournalAppend (flashOk : Bool) (badSector : Bool) (s : State) : Host.Outcome State Fault Refusal :=
  .next (journalAppend flashOk badSector s)

/-! ## Keys (R446) -/

/-- The key that unwraps a new one: that of the authorising slot. -/
def wrapKey (s : State) (a : Option Auth) : Bytes :=
  match a with
  | some x => beBytes 32 (slotKey s x.slot.toNat).toNat
  | none => []

/-- R446: replace the key of a slot. [log 38, DEDUCED] -/
def applyKey (slot : Nat) (wrapped : Bytes) (a : Option Auth) (s : State) : Verdict :=
  match keyUnwrap (wrapKey s a) wrapped with
  | none => breaksRule
  | some k =>
    let v := BitVec.ofNat 256 (beNat k)
    ok { s with mgmt := { s.mgmt with keys := tput s.mgmt.keys slot v },
                flash := { s.flash with keys := tput s.flash.keys slot v } }

def execKeyReplace (w : WriteHdr) (slot : Fin 4) (wrapped : Bytes) (s : State) : Host.Outcome State Fault Refusal :=
  .next (dictWrite w 0xA000 (1 + slot.val) wrapped (applyKey slot wrapped w.auth) s)

/-! ## Firmware update (R447 to R450) -/

/-- The image that an update writes: the one that does not run. [log 39, DEDUCED] -/
def updateImage (s : State) : Nat := if s.mgmt.running = 0 then 1 else 0

/-- R450: an update in progress: erasing, receiving or verifying. [log 39, DEDUCED] -/
def updating (s : State) : Bool := s.mgmt.update == 1 || s.mgmt.update == 2 || s.mgmt.update == 3

/-- An erased image. -/
def noImage : Image := { data := [], version := 0, rollback := 0, valid := false }

/-- R449 step 1, R431: the image that does not run is erased. [log 39, DEDUCED] -/
def applyBegin (len : Nat) (s : State) : Verdict :=
  require (!updating s && s.mgmt.update != 5 && decide (len ≤ 8388608))
    (let i := updateImage s
     let t := program s (imageAddr i) 0x800000 fun f => setImage f i noImage
     let t1 := if s.mgmt.update = 4 then writeBoot t s.mgmt.running false 0 else t
     ok (setMgmt (logImage t1 0 i) fun m => { m with update := 1, updLen := len, updGot := 0 }))

def execUpdateBegin (w : WriteHdr) (length : BitVec 32) (s : State) : Host.Outcome State Fault Refusal :=
  .next (dictWrite w 0xA100 1 (leBytes 4 length.toNat) (applyBegin length.toNat) s)

/-- R449: the erase has ended. -/
def updateEraseDone (s : State) : State :=
  if s.mgmt.update = 1 ∧ compassUp s then setMgmt s fun m => { m with update := 2 } else s

def execUpdateEraseDone (s : State) : Host.Outcome State Fault Refusal := .next (updateEraseDone s)

/-- R449 step 2, R431: bytes of the image that follow those before them in flash. -/
def programBlock (s : State) (b : Bytes) : State :=
  let i := updateImage s
  program s (imageAddr i + s.mgmt.updGot) b.length fun f =>
    setImage f i { imageOf f i with data := (imageOf f i).data ++ b }

/-- R449 step 2: a block that follows on. [log 39, DEDUCED] -/
def applyBlock (b : Bytes) (s : State) : Verdict :=
  if s.mgmt.update = 1 then entryBusy
  else
    require (s.mgmt.update == 2 && leAt b 0 4 == s.mgmt.updGot && decide (s.mgmt.updGot + (b.length - 8) ≤ s.mgmt.updLen))
      (ok (setMgmt (programBlock s (b.drop 8)) fun m => { m with updGot := m.updGot + (b.length - 8) }))

def execUpdateBlock (w : WriteHdr) (block : Bytes) (s : State) : Host.Outcome State Fault Refusal :=
  .next (dictWrite w 0xA100 2 block (applyBlock block) s)

/-- R447: MAGIC, DESIG, the signature and the digest of an image. -/
def imageSigned (key : Nat × Nat) (b : Bytes) : Bool :=
  let len := leAt b 12 4
  let body := (b.drop 512).take len
  leAt b 0 4 == 0x5A564657 && ((b.drop 16).take 4) == [0x5A, 0x56, 0x39, 0x36] && body.length == len &&
    ecdsaVerify key.1 key.2 (beNat ((b.drop 120).take 48)) (beNat ((b.drop 168).take 48)) (b.take 120) &&
    sha384 body == (b.drop 24).take 48

/-- R447: what the header of a received image gives. -/
def imageRead (s : State) : Image :=
  let b := (imageOf s.flash (updateImage s)).data
  { data := b, version := BitVec.ofNat 32 (leAt b 4 4), rollback := leAt b 8 4,
    valid := b.length == s.mgmt.updLen && imageSigned s.flash.imageKey b && decide (leAt b 8 4 ≤ 127) }

/-- R449 step 3: verify; a valid image is set for trial, another is refused. [log 39, DEDUCED] -/
def verifyUpdate (s : State) : State :=
  let i := updateImage s
  let x := imageRead s
  let s1 := { s with flash := setImage s.flash i x }
  if imageValid s1.flash i then
    let s2 := logImage s1 1 i
    setMgmt (writeBoot s2 i true 0) fun m => { m with update := 4 }
  else
    let s2 := logImage (report s1 0xE 0 2 x.rollback) 2 i
    { s2 with flash := setImage s2.flash i { x with valid := false }, mgmt := { s2.mgmt with update := 6 } }

/-- R449 step 3. -/
def applyFinish (on : Bool) (s : State) : Verdict :=
  if !on then ok s else if s.mgmt.update = 1 then entryBusy else require (s.mgmt.update == 2) (ok (verifyUpdate s))

def execUpdateFinish (w : WriteHdr) (s : State) : Host.Outcome State Fault Refusal :=
  .next (dictWrite w 0xA100 3 [1] (applyFinish true) s)

/-- R450: the confirm window is open. [log 39, DEDUCED] -/
def confirmOpen (s : State) : Bool := !passed s s.mgmt.bootAt (secMt (reg s 0xA100 6))

/-- R449 step 5: the trial image is confirmed, and the rollback fuses are blown. [log 39, DEDUCED] -/
def applyConfirm (on : Bool) (s : State) : Verdict :=
  if !on then ok s
  else
    require (s.mgmt.update == 5 && s.flash.trial && confirmOpen s)
      (let s1 := logImage s 4 s.mgmt.running
       let s2 := writeBoot s1 s1.flash.active false 0
       ok { s2 with
         flash := { s2.flash with rollback := max s1.flash.rollback (imageOf s1.flash s.mgmt.running).rollback },
         mgmt := { s2.mgmt with update := 0 } })

def execUpdateConfirm (w : WriteHdr) (s : State) : Host.Outcome State Fault Refusal :=
  .next (dictWrite w 0xA100 5 [1] (applyConfirm true) s)

/-- R450: the window ends without confirmation: the previous image is active at the next start. -/
def confirmWindowExpiry (s : State) : State :=
  if s.mgmt.update = 5 ∧ s.flash.trial ∧ !confirmOpen s then
    writeBoot s (1 - s.mgmt.running) false 0
  else s

def execConfirmWindowExpiry (s : State) : Host.Outcome State Fault Refusal := .next (confirmWindowExpiry s)

/-- R450: a power cut warning abandons an update in progress. -/
def abandonUpdate (s : State) : State :=
  if updating s then
    let s1 := logImage s 6 (updateImage s)
    { s1 with
      flash := setImage s1.flash (updateImage s) { imageOf s1.flash (updateImage s) with valid := false },
      mgmt := { s1.mgmt with update := 0, updGot := 0 } }
  else s

/-! ## Cable identities (R451) -/

/-- R451: the channel type that a cable identity gives. -/
def cableChannel (b : Bytes) : Nat :=
  match byteAt b 0 with
  | 1 => if leAt b 2 2 ≤ 100 then 1 else if leAt b 2 2 ≤ 250 then 2 else 0
  | 2 => 3 | 3 => 4 | 4 => 5 | 5 => 6 | _ => 0

/-- R451: an octet's cable identity, and its channel type for the next training. [log 46, DEDUCED] -/
def applyCable (owner : Nat) (b : Bytes) (s : State) : Verdict :=
  inRange (decide (byteAt b 0 ≤ 5))
    (ok (setRegAt (storeBlob owner 0x2200 7 b s) 0x2200 2 (selectionFor s owner 0x2200 7) (cableChannel b)))

def execCableIdentityWrite (w : WriteHdr) (identity : Bytes) (s : State) : Host.Outcome State Fault Refusal :=
  .next (dictWrite w 0x2200 7 identity (applyCable (ownerOf w.path) identity) s)

/-! ## The return state (R456) -/

/-- Every port is ABSENT, held off or disabled, and every context OFF or HALTED. -/
def returnReady (s : State) : Bool :=
  twelve.all (fun p => (port s p).state == .absent || (port s p).heldOff || regAt s 0x2000 5 p == 0) &&
    s.ctxs.all fun x => ctxStopped x.2

/-- R456: the return record. [log 46, DEDUCED] -/
def returnRecord (s : State) : Bytes :=
  let seqs := s.flash.logbook.map fun r => leAt r.2 4 4
  let slots := (List.range 4).map fun d => match tget s.flash.dumpSlots d with
    | some x => leBytes 1 1 ++ x.2.1
    | none => leBytes 1 0 ++ List.replicate 64 3
  leBytes 8 Config.serial.toNat ++ [0x5A, 0x56, 0x39, 0x36, 0x42, 0x30] ++ leBytes 4 s.flash.image0.version.toNat ++
    leBytes 4 s.flash.image1.version.toNat ++ leBytes 1 s.flash.rollback ++ leBytes 4 s.faults.reasons.toNat ++
    leBytes 8 (s.faults.raisedAt.getD 0) ++ leBytes 1 s.test.records.length ++ s.test.records.flatten ++
    leBytes 1 s.test.fuses ++ leBytes 8 (operatingTime s) ++ leBytes 4 (seqs.headD 0) ++ leBytes 4 (seqs.getLastD 0) ++
    slots.flatten

/-- Slots 1 to 3 are emptied. -/
def slotZero {α : Type} (t : Tbl α) : Tbl α := t.filter fun x => x.1 == 0

/-- R456: prepare the device for return. [log 46, DEDUCED] -/
def applyPrepare (on : Bool) (s : State) : Verdict :=
  if !on then ok s
  else
    require (returnReady s)
      (let s0 := program (idleAll s) serviceAddr 0xE0000 fun f => { f with service := returnRecord s }
       let s1 := [1, 2, 3].foldl (fun t k => appendRec t (markKey k) (.num 0) true) s0
       ok { s1 with
         flash := { s1.flash with returned := true, keys := slotZero s1.flash.keys },
         mgmt := { s1.mgmt with keys := slotZero s1.mgmt.keys, counters := slotZero s1.mgmt.counters } })

def execPrepareReturn (w : WriteHdr) (s : State) : Host.Outcome State Fault Refusal :=
  .next (dictWrite w 0xA200 1 [1] (applyPrepare true) s)

/-- R456: leave the return state: ports that may train begin. [log 46, DEDUCED] -/
def applyService (on : Bool) (s : State) : Verdict :=
  ok (if on ∧ s.flash.returned then
      twelve.foldl (fun t p => releasePort t p) { s with flash := { s.flash with returned := false } }
    else s)

def execReturnToService (w : WriteHdr) (s : State) : Host.Outcome State Fault Refusal :=
  .next (dictWrite w 0xA200 3 [1] (applyService true) s)

end Sys2Proof.Machine
end

