-- ==== Sys2Proof/Machine/Entries.lean ====
section
/-! DEFINITION. What every entry of the object dictionary shows when it is read (the entry tables of the
chapters, R457 to R461), and the read of a value in parts (R436, R438, R464). An entry that is not named
here shows its stored value. -/

namespace Sys2Proof.Machine

/-- A ratio as the nearest binary32 (0x2100.0C, 0x6000.05, 0x6000.06). [log 37, DEDUCED] -/
def ratioF32 (n d : Nat) : Nat :=
  if d = 0 then 0
  else
    let m := n * 2 ^ 80 / d
    let sticky := if n * 2 ^ 80 % d = 0 then 0 else 1
    (encodeF fp32 (.fin false (2 * m + sticky) (-81))).1

/-- The mask of the ports for which a condition holds. -/
def portMask (c : Nat → Bool) : Nat := (twelve.map fun p => if c p then 2 ^ p else 0).foldl (· + ·) 0

/-- The mask of the partition table entries that are flagged on a port (0x3400.03, 0x3400.04). -/
def keyMask (s : State) (p flag : Nat) : Nat :=
  ((List.range 64).map fun e => if keyFlag s p e = flag then 2 ^ e else 0).foldl (· + ·) 0

/-- The numbers of 0x1000 to 0x1020. -/
def numberDevice (s : State) (index sub : Nat) : Option Nat :=
  match index, sub with
  | 0x1000, 3 => some Config.serial.toNat
  | 0x1000, 4 => some (instId s)
  | 0x1000, 5 => some s.pins.slotId
  | 0x1000, 6 => some (runningVersion s)
  | 0x1000, 7 => some (operatingTime s)
  | 0x1000, 0xA => some s.mgmt.journal.length
  | 0x1010, 2 => some (1 + 4 * s.pins.slotId + instId s)
  | 0x1010, 4 => some s.mgmt.events.length
  | 0x1020, 1 => some (1 + (s.mgmt.sessions.filter fun x => x.owner != 0).length)
  | _, _ => none

/-- The numbers of a port (0x2000, 0x2400, 0x2600, 0x9020), lane (0x2100) or octet (0x2200), number `n`. -/
def numberPort (s : State) (n index sub : Nat) : Option Nat :=
  let x := port s n
  let l := x.link
  match index, sub with
  | 0x2000, 4 => some x.state.code
  | 0x2000, 7 => some (match x.stage with
    | some st => st.code
    | none => 0xFF)
  | 0x2000, 8 => some (workingOctets s n).length
  | 0x2000, 9 => some (x.txWidth + 16 * x.rxWidth)
  | 0x2000, 0xA => some x.ceiling
  | 0x2400, 2 => some l.txEpoch
  | 0x2400, 3 => some l.rxEpoch
  | 0x2400, 4 => some l.next
  | 0x2400, 5 => some l.unacked
  | 0x2400, 6 => some l.expect
  | 0x2400, 7 => some (headroomRtt l)
  | 0x2400, 8 => some (headroom s n)
  | 0x2400, 9 => some l.xoffRx.toNat
  | 0x2400, 0xA => some l.xoffTx.toNat
  | 0x2600, 3 => some (planEntry s n)
  | 0x2600, 5 => some (x.outcome + 16 * x.check)
  | 0x9020, 7 => some (ofSigned 32 (meanDelay x))
  | _, _ => none

/-- 0x2100.02: the role of a lane; the free spare that carries the spare channel shows 2. -/
def roleOf (s : State) (l : Nat) : Nat :=
  let x := lane s l
  match octetPort s (l / 9) with
  | some p => if x.role = 1 ∧ l % 9 = 8 ∧ spareOctet s p = some (l / 9) then 2 else x.role
  | none => x.role

def numberLane (s : State) (n index sub : Nat) : Option Nat :=
  let x := lane s n
  match index, sub with
  | 0x2100, 2 => some (roleOf s n)
  | 0x2100, 3 => some x.pos
  | 0x2100, 7 => some (bit x.flagged)
  | 0x2100, 9 => some x.ctle
  | 0x2100, 0xB => some (bit x.precodeTx + 2 * bit x.precodeRx)
  | 0x2100, 0xC => some (ratioF32 x.errors x.bits)
  | 0x2200, 5 => some (octet s n).state
  | _, _ => none

/-- R345: what the checker of the lane selected in 0x2100.01 shows; locked only while it checks. -/
def numberChecker (s : State) (owner index sub : Nat) : Option Nat :=
  let l := selected s owner 0x2100 1
  match index, sub with
  | 0x2300, 7 => some (regAt s 0x2300 7 l)
  | 0x2300, 8 => some (regAt s 0x2300 8 l)
  | 0x2300, 9 => some (if twelve.any fun p => patternChecked s p && (portLanes s p).contains l then regAt s 0x2300 9 l else 0)
  | _, _ => none

/-- The numbers of the tables of chapters 2 and 8 under a selection `n`. -/
def numberTable (s : State) (n index sub : Nat) : Option Nat :=
  match index, sub with
  | 0x3100, 3 => some (partEntry s n)
  | 0x3200, 2 => some (rankEntry s n)
  | 0x3300, 3 => some (incOf s (BitVec.ofNat 16 n)).toNat
  | 0x3400, 3 => some (keyMask s n 1)
  | 0x3400, 4 => some (keyMask s n 2)
  | 0x3600, 2 => some (dirOf s n)
  | 0x3600, 3 => some (lout s n)
  | 0x3600, 4 => some (lin s n)
  | 0x3600, 5 => some (dateline s 0)
  | 0x3600, 6 => some (dateline s 1)
  | 0x3600, 7 => some (dateline s 2)
  | 0x3A00, 3 => some (minShare s (fld n 0 4) (fld n 4 6))
  | 0x4200, 2 => some (windowEntry s n)
  | 0x4200, 3 => some (validWindows s)
  | 0x4210, 2 => some (windowDesc s n)
  | _, _ => none

/-- 0x3710.03: the valid exceptions of a bank. -/
def validExceptions (s : State) (b : Nat) : Nat :=
  ((bankOf s.tables b).exceptions.filter fun x => bitAt x.2.toNat 56).length

/-- The numbers of the routing banks, as a session selects them (0x3700, 0x3710, 0x3A00.04), and of 0x3800. -/
def numberRoute (s : State) (owner index sub : Nat) : Option Nat :=
  let b := selected s owner 0x3700 1
  let bank := bankOf s.tables b
  match index, sub with
  | 0x3700, 3 => some (tgetD bank.routes (selected s owner 0x3700 2) 0).toNat
  | 0x3700, 5 => some (tgetD bank.selector (selected s owner 0x3700 4) 0)
  | 0x3700, 7 => some (tgetD bank.extents (selected s owner 0x3700 6) 0).toNat
  | 0x3710, 2 => some (tgetD bank.exceptions (selected s owner 0x3710 1) 0).toNat
  | 0x3710, 3 => some (validExceptions s b)
  | 0x3A00, 4 => some (shareSum s (fld (selected s owner 0x3A00 2) 0 4))
  | 0x3800, 1 => some (activeBank s)
  | 0x3800, 2 => some (s.tables.st0.code + 4 * s.tables.st1.code)
  | 0x3800, 4 => some s.tables.flipAt
  | 0x3800, 7 => some s.tables.epochNr
  | 0x3800, 8 => some (oldEpochHeld s)
  | 0x3900, 8 => some (bit (deterministic s))
  | _, _ => none

/-- R376: the open operations of a context. -/
def openOps (s : State) (c : Nat) : List Track := (s.tracks.map (·.2)).filter fun t => t.op.ctx == c

/-- R376: the Meridian time of issue of the oldest one. -/
def oldestOpen (s : State) (c : Nat) : Nat :=
  match (openOps s c).map fun t => t.at_ with
  | [] => 0
  | a :: r => r.foldl min a

/-- The numbers of contexts (0x4000, 0x4010, 0x4500, 0x7400). -/
def numberContext (s : State) (owner index sub : Nat) : Option Nat :=
  let x := ctx s (selected s owner 0x4000 1)
  match index, sub with
  | 0x4000, 2 => some x.state.code
  | 0x4000, 4 => some x.partEnt
  | 0x4000, 5 => some x.mirror
  | 0x4000, 6 => some (inProgress x)
  | 0x4000, 7 => some x.drainUs
  | 0x4000, 8 => some x.gen.toNat
  | 0x4000, 9 => some x.accept
  | 0x4000, 0xA => some x.failed
  | 0x4010, 2 => some (counterOf x (selected s owner 0x4010 1))
  | 0x4500, 5 => some (ctx s (selected s owner 0x4500 4)).apFails
  | 0x7400, 2 => some (oldestOpen s (selected s owner 0x7400 1))
  | 0x7400, 3 => some (openOps s (selected s owner 0x7400 1)).length
  | 0x7400, 5 => some (regAt s 0x7400 5 (selected s owner 0x7400 4))
  | _, _ => none

/-- The numbers of operations, credit, staging and the store (0x4100 to 0x4630) and of the Caller (0x5000, 0x5100). -/
def numberStore (s : State) (n index sub : Nat) : Option Nat :=
  let p := fld n 0 4
  let v := fld n 4 3
  match index, sub with
  | 0x4100, 4 => some s.grants.length
  | 0x4100, 5 => some s.senders.length
  | 0x4300, 1 => some (waitingStageIns s)
  | 0x4500, 2 => some (freeBlocks s)
  | 0x4510, 1 => some s.streams.length
  | 0x4520, 1 => some s.msgIn.length
  | 0x4610, 4 => some (64 * ingressShare s p v)
  | 0x4610, 5 => some (64 * charged s (.ingress p v))
  | 0x4610, 6 => some (64 * egressShare s p v)
  | 0x4610, 7 => some (64 * charged s (.egress p v))
  | 0x4610, 8 => some (64 * replayQuota s p)
  | 0x4610, 9 => some (64 * replayUsed s p)
  | 0x4610, 0xA => some (regAt s 0x4610 0xA p)
  | 0x4620, 2 => some (64 * (((List.range 64).map (stagingUsed s)).foldl (· + ·) 0 + charged s .pool))
  | 0x4620, 3 => some (64 * charged s .incast)
  | 0x4620, 5 => some (incastCapacity s)
  | 0x4630, 5 => some (freeSpares s).length
  | 0x4630, 7 => some (bank s n).state
  | 0x5000, 4 => some s.colls.length
  | 0x5000, 5 => some s.pends.length
  | 0x5100, 3 => some s.cards.length
  | 0x5300, 2 => some (if h : n < 16 then Config.fusedMax ⟨n, h⟩ else 0)
  | 0x5300, 3 => some (trimmedMax s n)
  | 0x5300, 4 => some (if (sext s n).inService then (sext s n).freq else 0)
  | _, _ => none

/-- The numbers of power and heat (0x6000 to 0x6400) under a selection. -/
def numberPower (s : State) (n index sub : Nat) : Option Nat :=
  match index, sub with
  | 0x6000, 1 => some (effCap s)
  | 0x6000, 2 => some (rackCap s)
  | 0x6000, 4 => some s.power.thermCap
  | 0x6000, 5 => some (ratioF32 (ceilingPower s) 10)
  | 0x6000, 6 => some (ratioF32 (floorPower s) 10)
  | 0x6000, 0xB => some s.power.stageCeil
  | 0x6010, 1 => some (effScap s)
  | 0x6010, 2 => some (rackScap s)
  | 0x6010, 4 => some s.power.sextCeil
  | 0x6100, 2 => some s.power.steps.length
  | 0x6200, 2 => some (portMask fun p => (port s p).heldOff || (port s p).thermOff)
  | 0x6300, 3 => some (s.power.energy.foldl (· + ·) 0 / 1000000)
  | 0x6300, 4 => some (s.power.total / 1000000)
  | 0x6400, 2 => some (ofSigned 32 (sensor s n).reading)
  | 0x6400, 3 => some (ofSigned 32 (modelE s n))
  | 0x6400, 4 => some (ofSigned 32 (modelU s))
  | 0x6400, 5 => some (if !sensorPresent s n then 2 else bit (sensor s n).failed)
  | 0x6400, 6 => some (ofSigned 32 (tempUsed s n))
  | 0x6400, 0xA => some (ofSigned 32 (hottest s).2)
  | _, _ => none

/-- The numbers of the Logbook. -/
def logSeq (r : Option (Nat × Bytes)) : Nat := match r with
  | some x => leAt x.2 4 4
  | none => 0

/-- The numbers of faults, resets, dumps and the Logbook (0x7000 to 0x7500) under a selection. -/
def numberFault (s : State) (n index sub : Nat) : Option Nat :=
  let f := s.faults
  match index, sub with
  | 0x7000, 2 => some (bit f.overflow)
  | 0x7000, 3 => some f.overCount
  | 0x7000, 4 => some f.merges
  | 0x7000, 6 => some f.seqNr
  | 0x7010, 1 => some (bit (f.reasons != 0))
  | 0x7010, 2 => some f.reasons.toNat
  | 0x7010, 3 => some (f.raisedAt.getD 0)
  | 0x7100, 5 => some (windowCount (rollSlots s n (source s n)))
  | 0x7100, 8 => some (bit (sourceSevere s n))
  | 0x7200, 3 => some (((List.range 5).map fun k => if f.running.any (fun r => r.level == k + 1) then 2 ^ k else 0).foldl (· + ·) 0)
  | 0x7300, 2 => some (dumpState s)
  | 0x7300, 4 => some f.dumpAt
  | 0x7500, 1 => some (logSeq s.flash.logbook.head?)
  | 0x7500, 2 => some (logSeq s.flash.logbook.getLast?)
  | 0x7500, 5 => some s.flash.badSectors.length
  | _, _ => none

/-- The numbers of self-test, time, keys, update and return (0x8100 to 0xA200) under a selection. [log 29, DESIGN CHOICE] -/
def numberRest (s : State) (n index sub : Nat) : Option Nat :=
  let m := s.mer
  let shown (i : Nat) := if imageValid s.flash i then (imageOf s.flash i).version.toNat else 0
  match index, sub with
  | 0x8100, 2 => some (tgetD s.test.results n 0)
  | 0x8100, 3 => some (tgetD s.test.times n 0)
  | 0x8100, 4 => some (tgetD s.test.found n 0)
  | 0x8200, 1 => some s.test.records.length
  | 0x8200, 5 => some s.test.fuses
  | 0x9000, 1 => some m.count
  | 0x9000, 2 => some m.state.code
  | 0x9000, 3 => some (if m.state = .unset then 255 else m.stratum)
  | 0x9000, 4 => some m.upstream
  | 0x9000, 5 => some (ofSigned 32 m.filtered)
  | 0x9000, 6 => some (holdoverMs s)
  | 0x9000, 8 => some (m.count / minuteMt)
  | 0x9000, 9 => some (if m.state = .unset then 0 else m.master.toNat)
  | 0xA000, 5 => some (slotCounter s 0)
  | 0xA000, 6 => some (slotCounter s 1)
  | 0xA000, 7 => some (slotCounter s 2)
  | 0xA000, 8 => some (slotCounter s 3)
  | 0xA000, 9 => some (((List.range 4).map fun k => if slotKey s k = 0 then 0 else 2 ^ k).foldl (· + ·) 0)
  | 0xA100, 4 => some s.mgmt.update
  | 0xA100, 7 => some s.mgmt.running
  | 0xA100, 8 => some (shown 0)
  | 0xA100, 9 => some (shown 1)
  | 0xA100, 0xA => some s.flash.rollback
  | 0xA100, 0xB => some s.mgmt.updGot
  | 0xA200, 2 => some (bit s.flash.returned)
  | _, _ => none

/-- The first of several numbers. -/
def firstSome : List (Option Nat) → Option Nat
  | [] => none
  | some v :: _ => some v
  | none :: r => firstSome r

/-- The number that an entry shows to a session. -/
def numberShown (s : State) (owner index sub : Nat) : Nat :=
  if isSelect index sub then selected s owner index sub
  else
    let n := selectionFor s owner index sub
    (firstSome [numberDevice s index sub, numberPort s n index sub, numberLane s n index sub, numberChecker s owner index sub, numberTable s n index sub,
      numberRoute s owner index sub, numberContext s owner index sub, numberStore s n index sub,
      numberPower s n index sub, numberFault s n index sub, numberRest s n index sub]).getD (regAt s index sub n)

/-- R376: the Meridian time since which a host port channel has held a request, 0 for none. -/
def channelHold (s : State) (chan : Nat) : Nat :=
  match s.held.findSome? fun o => match o.origin with
      | .aperture ch _ _ => if ch = chan then o.room else none
      | _ => none with
  | some t => stamp s - (s.clock - t)
  | none => 0

/-- One byte of a dump slot: the units one after the other, as far as they were read; the rest of the slot reads as
erased flash. [log 35, DEDUCED] -/
def dumpByte (s : State) (slot i : Nat) : Byte :=
  match tget s.flash.dumpSlots slot with
  | none => 0xFF
  | some (nr, _, words) =>
    let step (a : Option (Nat × Nat) × Nat) (u : Nat) :=
      let n := 4 * unitWords words u
      if a.1.isSome then a else if i < a.2 + n then (some (u, i - a.2), a.2) else (none, a.2 + n)
    match ((ringUnits s).foldl step (none, 0)).1 with
    | some (u, k) => Config.snapshotByte nr u k
    | none => 0xFF

/-- Four signed transmit taps. -/
def tapBytes (t : Int × Int × Int × Int) : Bytes :=
  [BitVec.ofInt 8 t.1, BitVec.ofInt 8 t.2.1, BitVec.ofInt 8 t.2.2.1, BitVec.ofInt 8 t.2.2.2]

/-- R401: a pending step as it was written. -/
def stepBytes (x : CapStep) : Bytes := leBytes 8 x.time ++ leBytes 2 x.icap ++ leBytes 2 x.scap ++ zeros 4

/-- The Logbook record of a SEQ. -/
def recordOf (s : State) (seq : Nat) : Bytes :=
  match s.flash.logbook.find? fun r => leAt r.2 4 4 == seq with
  | some r => padTo 256 r.2
  | none => zeros 256

/-- The BLOBs that are not stored, under a selection. -/
def bytesShown (s : State) (owner index sub : Nat) : Bytes :=
  let n := selectionFor s owner index sub
  match index, sub with
  | 0x1000, 1 => [0x5A, 0x56, 0x39, 0x36]
  | 0x1000, 2 => [0x42, 0x30]
  | 0x1010, 1 => macAddress s
  | 0x2100, 8 => tapBytes (lane s n).taps
  | 0x2100, 0xA => padTo 12 (lane s n).dfe
  | 0x2600, 6 => match (port s n).hail with
    | some b => hailBytes b
    | none => zeros 10
  | 0x4000, 0xB => (ctx s n).first.getD (zeros 24)
  | 0x4500, 6 => (ctx s n).apFirst.getD (zeros 24)
  | 0x5100, 2 => (tget s.cards n).getD (zeros 1088)
  | 0x6000, 0xA => leBytes 1 s.power.narrowings ++ leBytes 1 s.power.stageCeil ++ leBytes 2 (portMask fun p => (port s p).marked)
  | 0x6100, 4 => match s.power.steps[n]? with
    | some x => stepBytes x
    | none => zeros 16
  | 0x6300, 2 => (s.power.reports[n]?).getD (zeros 64)
  | 0x7000, 1 => match s.faults.latch with
    | some m => leBytes 16 m.bits.toNat ++ leBytes 8 m.time
    | none => zeros 24
  | 0x7000, 8 => leBytes 16 s.faults.last.toNat
  | 0x7200, 4 => s.faults.lastEsc
  | 0x7300, 3 => unitResults s
  | 0x7400, 6 => ((List.range 8).map fun c => leBytes 8 (channelHold s c)).flatten
  | 0x7500, 4 => recordOf s n
  | 0x8200, 3 => (s.test.records[n]?).getD (zeros 16)
  | 0xB000, 0xE => padTo 64 (port s n).record
  | _, _ => blobAt s index sub n

/-- Whether an entry's value is a byte string. -/
def isBytes : Ty → Bool
  | .blob _ | .str => true
  | _ => false

/-- The whole value of an entry and its length: an entry of the master alone reads 0 at any other inst (R458); the 256 KiB of a dump slot are never written out as a whole. -/
def wholeValue (s : State) (owner index sub : Nat) (r : Row) : Bytes :=
  if r.acc = .wo ∨ (scopeOf index sub = .master ∧ !isMaster s) then zeros r.ty.size
  else if isBytes r.ty then bytesShown s owner index sub
  else leBytes r.ty.size (numberShown s owner index sub)

/-- Bytes `off` to `off + len - 1` of an entry's value, and the value's length. -/
def valuePart (s : State) (owner index sub off len : Nat) (r : Row) : Bytes × Nat :=
  if index = 0x7510 ∧ sub = 2 then
    ((List.range (min len (262144 - off))).map fun i => dumpByte s (selectionFor s owner index sub) (off + i), 262144)
  else
    let v := wholeValue s owner index sub r
    ((v.drop off).take len, v.length)

/-! ## Reads (R436, R438, R464) -/

/-- R464: the two values that are read in parts. -/
def inParts (index sub : Nat) : Bool := (index == 0x5100 && sub == 2) || (index == 0x7510 && sub == 2)

/-- R464: a read at OFFSET 0 notes the value; one at another offset needs it unchanged. [log 37, DEDUCED] -/
def notePart (s : State) (owner index sub off : Nat) : Option State :=
  let x := sessionOf s owner
  let k := entryNo index sub
  if !inParts index sub then some s
  else if off = 0 then some (putSession s { x with parts := tput x.parts k (some (selectionFor s owner index sub)) })
  else if tget x.parts k = some none then none else some s

/-- R438: the refusals of a read. [log 37, DEDUCED] -/
def readReason (q : DictReq) (r : Row) (size : Nat) : Option (Status × Nat) :=
  if q.tooLong then some (.oversize, 1)
  else if q.index = 0xA000 ∧ r.acc = .crit then some (.denied, 3)
  else if q.len = 0 ∨ 1024 < q.len ∨ r.ty.size < q.len ∨ size ≤ q.offset then some (.oversize, 1)
  else none

/-- R436: the body of READ_ANS. -/
def readAns (q : DictReq) (r : Row) (size : Nat) (data : Bytes) : Bytes :=
  leBytes 2 q.index ++ leBytes 1 q.sub ++ leBytes 1 r.ty.code ++ leBytes 4 q.offset ++ leBytes 4 size ++ data

/-- Perform a read transaction. -/
def performRead (q : DictReq) (s : State) : State :=
  let owner := ownerOf q.path
  if q.tooLong then answer s q .oversize 1 [] else
  match rowOf q.index q.sub with
  | none => answer s q .notPerformed 2 []
  | some r =>
    let v := valuePart s owner q.index q.sub q.offset q.len r
    match readReason q r v.2 with
    | some e => answer s q e.1 e.2 []
    | none =>
      match notePart s owner q.index q.sub q.offset with
      | some t => answer t q .ok 0 (readAns q r v.2 v.1)
      | none => answer s q .notPerformed 11 []

end Sys2Proof.Machine
end

