-- ==== Sys2Proof/Machine/DictAll.lean ====
section
/-! DEFINITION. Writes of every entry of the object dictionary (R437, R458, R460, R471), transactions as
they come by the host window (R441) and by FDP frames (R436), sessions (R463), and the end of a window drain
(R64). -/

namespace Sys2Proof.Machine

/-! ## What a write does, entry by entry -/

/-- A number stored under its selection. -/
def plain (owner index sub v : Nat) (s : State) : Verdict := ok (storeNumber owner index sub v s)

/-- R463: every select entry of a session returns to its default. -/
def applySessionReset (owner : Nat) (on : Bool) (s : State) : Verdict :=
  ok (if on then putSession s (withSelections (sessionOf s owner) []) else s)

/-- 0x2100.07: writing false clears the flag; true is refused (R462). -/
def applyFlagClear (l : Nat) (on : Bool) (s : State) : Verdict :=
  require (!on) (ok (updLane s l fun x => { x with flagged := false }))

/-- R471: the silence limit in µs stays above the status refresh in ns. -/
def silenceAbove (limit refresh : Nat) : Bool := decide (refresh < 1000 * limit)

/-- 0x4000.03. -/
def applyControl (c v : Nat) (s : State) : Verdict :=
  if v = 1 then applyEnable c s else if v = 2 then applyDisable c s else applyRelease c s

/-- R107: an entry of a context written only in OFF. -/
def whenOff (c : Nat) (f : Ctx → Ctx) (s : State) : Verdict := require ((ctx s c).state == .off) (ok (updCtx s c f))

/-- 0x4500.07 and 0x4000.0C: true clears a first failure. -/
def applyClear (c : Nat) (on : Bool) (f : Ctx → Ctx) (s : State) : Verdict := ok (if on then updCtx s c f else s)

/-- R223: 64 times the staging guarantee stays within the staging region. -/
def applyGuarantee (owner v : Nat) (s : State) : Verdict :=
  require (decide (64 * (v * 16) ≤ regionCells s 3)) (plain owner 0x4620 1 v s)

/-- R345, R463: 0x2300.06 acts on the lane that the writing session selects. -/
def applyErrorRate (owner v : Nat) (s : State) : Verdict :=
  ok (setTest (storeNumber owner 0x2300 6 v s) fun t => { t with errLane := selected s owner 0x2100 1 })

/-- R454: 0x3000.01: ports that were not admitted are decided again. -/
def applyOwnNode (owner v : Nat) (s : State) : Verdict := ok (twelve.foldl decideAgain (storeNumber owner 0x3000 1 v s))

/-- R265: 0xB000.07: the budgets have accrued at the old rate up to the write. -/
def applyChartRate (owner v : Nat) (s : State) : Verdict := plain owner 0xB000 7 v (twelve.foldl accrue s)

/-- R199: every unit's back-pressure follows a watermark that was written. -/
def applyWatermark (owner sub v : Nat) (s : State) : Verdict :=
  ok ((List.range 16).foldl (fun t u => pressEnded u t (settlePress t u)) (storeNumber owner 0x5310 sub v s))

/-- R182: what the master writes to 0x5310 goes to the other present insts. -/
def shareSextant (sub v : Nat) (a : Verdict) : Verdict :=
  match a with
  | .done t b =>
    .done (if h : sub < 7 then
      (if t.cascade.present = [] then t else emit t (.bus (.sextant ⟨sub, h⟩ (BitVec.ofNat 16 v)))) else t) b
  | x => x

/-- Ports: 0x2000, 0x2010, 0x2100, 0x2200, 0x2300, 0x2400, 0x2410, 0x2600. -/
def applyPorts (owner index sub v n : Nat) (value : Bytes) (s : State) : Option Verdict :=
  match index, sub with
  | 0x2000, 5 => some (applyPortEnable n (v == 1) s)
  | 0x2000, 6 => some (require (decide (v ≤ max 1 (portWidth s n))) (plain owner index sub v s))
  | 0x2000, 0xC => some (applyRetrain n (v == 1) s)
  | 0x2400, 0x17 => some (applyRetrain n (v == 1) s)
  | 0x2100, 7 => some (applyFlagClear n (v == 1) s)
  | 0x2200, 7 => some (applyCable owner value s)
  | 0x2300, 1 => some (applyTestMode owner v s)
  | 0x2300, 6 => some (applyErrorRate owner v s)
  | 0x2300, 0xA => some (applyInject (BitVec.ofNat 64 v) s)
  | 0x2410, 3 => some (require (silenceAbove (reg s 0x2410 4) v) (plain owner index sub v s))
  | 0x2410, 4 => some (require (silenceAbove v (reg s 0x2410 3)) (plain owner index sub v s))
  | 0x2600, 1 => some (applyPlan (BitVec.ofNat 64 v) s)
  | 0x2600, 4 => some (applyPlanHash (BitVec.ofNat 32 v) s)
  | _, _ => none

/-- Tables: 0x3100 to 0x3A00, 0x4200, 0x4210. -/
def applyTables (q : DictReq) (owner v n : Nat) (s : State) : Option Verdict :=
  let sel (index sub : Nat) := selected s owner index sub
  match q.index, q.sub with
  | 0x3000, 1 => some (applyOwnNode owner v s)
  | 0x3100, 1 => some (applyPartitionWrite (BitVec.ofNat 64 v) s)
  | 0x3200, 2 => some (applyRank n (BitVec.ofNat 32 v) s)
  | 0x3300, 1 => some (applyIncarnation (BitVec.ofNat 32 v) s)
  | 0x3400, 1 => some (applyPortKey (BitVec.ofNat 32 v) s)
  | 0x3600, 2 => some (applyDirection n v s)
  | 0x3600, 3 => some (applyLevel 3 n v s)
  | 0x3600, 4 => some (applyLevel 4 n v s)
  | 0x3600, 5 => some (applyDateline 0 v s)
  | 0x3600, 6 => some (applyDateline 1 v s)
  | 0x3600, 7 => some (applyDateline 2 v s)
  | 0x3700, 3 => some (applyRouteEntry (sel 0x3700 1) (sel 0x3700 2) v s)
  | 0x3700, 5 => some (applySelector (sel 0x3700 1) (sel 0x3700 4) v s)
  | 0x3700, 7 => some (applyExtent (sel 0x3700 1) (sel 0x3700 6) v s)
  | 0x3710, 2 => some (applyException (sel 0x3700 1) (sel 0x3710 1) v s)
  | 0x3800, 3 => some (applyMarkReady v s)
  | 0x3800, 4 => some (applyFlip v s)
  | 0x3800, 0xA => some (applyRelease2 v s)
  | 0x3900, 1 => some (applyAdaptive (v == 1) s)
  | 0x3A00, 1 => some (applyShare (BitVec.ofNat 32 v) s)
  | 0x4200, 2 => some (applyWindow n (BitVec.ofNat 64 v) s)
  | 0x4200, 4 => some (if v = 1 then applyDrain q s else ok s)
  | 0x4210, 2 => some (applyDescriptor n (BitVec.ofNat 64 v) s)
  | _, _ => none

/-- Contexts, cards and power: 0x4000, 0x4500, 0x5100, 0x5310, 0x6000 to 0x6400. -/
def applyUnits (owner index sub v n : Nat) (value : Bytes) (s : State) : Option Verdict :=
  match index, sub with
  | 0x4000, 3 => some (applyControl n v s)
  | 0x4000, 4 => some (whenOff n (fun x => { x with partEnt := v }) s)
  | 0x4000, 5 => some (inRange (v % 1024 == 0) (whenOff n (fun x => { x with mirror := v }) s))
  | 0x4000, 7 => some (ok (updCtx s n fun x => { x with drainUs := v }))
  | 0x4000, 0xC => some (ok (if v = 1 then mirrorTouch (updCtx s n fun x => { x with first := none }) n else s))
  | 0x4500, 7 => some (applyClear n (v == 1) (fun x => { x with apFirst := none }) s)
  | 0x5100, 2 => some (applyCard n value s)
  | 0x5100, 4 => some (applyCardClear v s)
  | 0x4620, 1 => some (applyGuarantee owner v s)
  | 0x5310, 3 => some (require (decide (reg s 0x5310 4 < v)) (shareSextant 3 v (applyWatermark owner 3 v s)))
  | 0x5310, 4 => some (require (decide (v < reg s 0x5310 3)) (shareSextant 4 v (applyWatermark owner 4 v s)))
  | 0x5310, _ => some (shareSextant sub v (plain owner index sub v s))
  | 0x6000, 3 => some (applyHostCap v s)
  | 0x6000, 7 => some (applyCapPeriod v s)
  | 0x6000, 8 => some (applyStartUpCap false v s)
  | 0x6010, 3 => some (applyHostScap v s)
  | 0x6010, 5 => some (applyStartUpCap true v s)
  | 0x6100, 1 => some (applySchedule value s)
  | 0x6100, 5 => some (applyScheduleClear (v == 1) s)
  | 0x6200, 1 => some (applyHoldOff v s)
  | 0x6400, 7 => some (require (decide (toSigned 32 v + 5000 ≤ toSigned 32 (reg s 0x6400 8))) (plain owner index sub v s))
  | 0x6400, 8 => some (applyCritical v s)
  | 0x6400, 9 => some (applyCoolant v s)
  | 0x6400, 0xB => some (applyRail v s)
  | _, _ => none

/-- Faults, self-test, time, management and Charts: 0x1020, 0x7000 to 0xB000. -/
def applyManage (q : DictReq) (owner v n : Nat) (s : State) : Option Verdict :=
  match q.index, q.sub with
  | 0x1020, 2 => some (applySessionReset owner (v == 1) s)
  | 0x7000, 5 => some (applyFaultClear v s)
  | 0x7100, 4 => some (applyCountWindow owner v s)
  | 0x7100, 6 => some (applyForce n v s)
  | 0x7200, 1 => some (applyReset v s)
  | 0x7200, 2 => some (applyInstReset v none s)
  | 0x7300, 1 => some (applyDumpRequest (v == 1) s)
  | 0x8200, 4 => some (applyCommit v s)
  | 0x9010, 1 => some (applyDesignation 1 (BitVec.ofNat 32 v) s)
  | 0x9010, 2 => some (applyDesignation 2 (BitVec.ofNat 32 v) s)
  | 0x9010, 4 => some (applyTimeSet v s)
  | 0xA000, k => if 1 ≤ k ∧ k ≤ 4 then some (applyKey (k - 1) q.value q.auth s) else none
  | 0xA100, 1 => some (applyBegin v s)
  | 0xA100, 2 => some (applyBlock q.value s)
  | 0xA100, 3 => some (applyFinish (v == 1) s)
  | 0xA100, 5 => some (applyConfirm (v == 1) s)
  | 0xA200, 1 => some (applyPrepare (v == 1) s)
  | 0xA200, 3 => some (applyService (v == 1) s)
  | 0xB000, 1 => some (applyChartLength v s)
  | 0xB000, 6 => some (applyChartBase v s)
  | 0xB000, 7 => some (applyChartRate owner v s)
  | _, _ => none

/-- The first of several verdicts. -/
def firstVerdict (d : Verdict) : List (Option Verdict) → Verdict
  | [] => d
  | some v :: _ => v
  | none :: r => firstVerdict d r

/-- An entry without behaviour of its own: a select entry belongs to the session, anything else is stored. -/
def applyStored (q : DictReq) (owner v : Nat) (s : State) : Verdict :=
  match rowOf q.index q.sub with
  | none => ok s
  | some r =>
    if isSelect q.index q.sub then ok (setSelected s owner q.index q.sub v)
    else if isBytes r.ty then ok (storeBlob owner q.index q.sub q.value s)
    else plain owner q.index q.sub v s

/-- R437: what a write of any entry does once its checks are passed. -/
def applyEntry (q : DictReq) (s : State) : Verdict :=
  let owner := ownerOf q.path
  let v := leNat q.value
  let n := selectionFor s owner q.index q.sub
  firstVerdict (applyStored q owner v s)
    [applyPorts owner q.index q.sub v n q.value s, applyTables q owner v n s,
     applyUnits owner q.index q.sub v n q.value s, applyManage q owner v n s]

/-- R437: any transaction. -/
def performAny (q : DictReq) (s : State) : State :=
  if q.write then performWrite q (applyEntry q) s else performRead q s

def transactAny (s : State) (q : DictReq) : State := transact q (performAny q) s

/-- R468, R437: transactions that waited are taken in the order in which they came, once the dictionary answers and
no drain withholds its answer. -/
def settleHeld (s : State) : State :=
  if dictionaryUp s ∧ withheld s = false then
    s.mgmt.heldReqs.foldl transactAny { s with mgmt := { s.mgmt with heldReqs := [] } }
  else s

/-! ## Commands -/

/-- R437. -/
def dictionaryWrite (w : WriteHdr) (index sub : Nat) (value : Bytes) (s : State) : State :=
  dictWrite w index sub value (applyEntry (writeReq w index sub value)) s

def execDictionaryWrite (w : WriteHdr) (index : BitVec 16) (sub : BitVec 8) (value : Bytes) (s : State) :
    Host.Outcome State Fault Refusal := .next (dictionaryWrite w index.toNat sub.toNat value s)

/-- R463. -/
def execSessionReset (w : WriteHdr) (s : State) : Host.Outcome State Fault Refusal :=
  .next (dictWrite w 0x1020 2 [1] (applySessionReset (ownerOf w.path) true) s)

/-- R435, R436: the operations that a requester or the device sends. -/
def knownFdpOp (op : Nat) : Bool := [1, 0x81, 2, 0x82, 3, 0x83, 4, 0x84].contains op

/-- R436: the payload length that an operation's fields ask for. -/
def fdpLength (b : Bytes) : Nat :=
  match byteAt b 1 with
  | 1 => 10
  | 2 => 8 + leAt b 16 2 + (if byteAt b 15 = 0xFF then 0 else 24)
  | 0x83 => 4
  | 0x84 => 0
  | _ => leAt b 6 2

/-- R436: a frame that is kept. -/
def fdpFrameOk (b : Bytes) : Bool :=
  byteAt b 0 % 16 == 1 && knownFdpOp (byteAt b 1) && leAt b 6 2 == fdpLength b && decide (12 + leAt b 6 2 ≤ b.length)

/-- R436: a malformed frame is counted and reported. -/
def countMalformed (s : State) : State := report (bump s 0x1010 5) 0xE 0 5 0

def fdpMalformed (frame : EthFrame) (s : State) : State :=
  if dictionaryUp s ∧ frameAccepted s frame.env (byteAt frame.payload 1 == 1) ∧ !fdpFrameOk frame.payload then countMalformed s else s

def execFdpMalformed (frame : EthFrame) (s : State) : Host.Outcome State Fault Refusal := .next (fdpMalformed frame s)

/-- R436: READ of a part of a value. -/
def execFdpRead (env : Envelope) (xid : BitVec 16) (index : BitVec 16) (sub : BitVec 8) (offset : BitVec 32)
    (len : BitVec 16) (s : State) : Host.Outcome State Fault Refusal :=
  .next (transactAny s {
    path := .field env, xid := xid.setWidth 32, write := false, index := index.toNat,
    sub := sub.toNat, auth := none, value := [], offset := offset.toNat, len := len.toNat, tooLong := false })

/-- The authentication that a WRITE carries after its value. -/
def authOf (b : Bytes) (vlen : Nat) : Option Auth :=
  if byteAt b 15 = 0xFF then none
  else some { slot := BitVec.ofNat 8 (byteAt b 15), counter := BitVec.ofNat 64 (leAt b (20 + vlen) 8),
              mac := BitVec.ofNat 128 (leAt b (28 + vlen) 16) }

/-- R435, R441: the transaction that the request area holds. -/
def submitReq (number : BitVec 32) (b : Bytes) (tooLong : Bool) : DictReq :=
  let vlen := leAt b 16 2
  let path : Path := .host (BitVec.ofNat 16 (leAt b 2 2))
  if byteAt b 1 = 2 then
    { path := path, xid := number, write := true, index := leAt b 12 2, sub := byteAt b 14, auth := authOf b vlen,
      value := (b.drop 20).take vlen, offset := 0, len := 0, tooLong := tooLong }
  else
    { path := path, xid := number, write := false, index := leAt b 12 2, sub := byteAt b 14, auth := none, value := [],
      offset := leAt b 16 4, len := leAt b 20 2, tooLong := tooLong }

/-- R441: a submit with a new number. [log 37, DEDUCED] -/
def dictionarySubmit (number : BitVec 32) (length : Nat) (request : Bytes) (s : State) : State :=
  let b := request.take length
  fromPath (.host 0) number (fun t =>
    if 1536 < length then transactAny t (submitReq number b true)
    else if fdpFrameOk b ∧ byteAt b 1 ≤ 2 then transactAny t (submitReq number b false)
    else if dictionaryUp t ∧ !fdpFrameOk b then countMalformed t else t) s

def execDictionarySubmit (number : BitVec 32) (length : BitVec 16) (request : Bytes) (s : State) :
    Host.Outcome State Fault Refusal := .next (dictionarySubmit number length.toNat request s)

/-- R64: the drain is over with a status; no transaction is answered during a Compass restart (R428). -/
def drainAnswer (s : State) (q : DictReq) (st : Status) (reason : Nat) : State :=
  settleHeld (lateAnswer { s with tables := { s.tables with drain := none } } q st reason)

/-- R64: something that the drain waits for is left. -/
def drainOpen (s : State) : Bool := s.accesses.any (fun a => a.drained) || s.held.any fun o => o.drained

/-- R64: every access translated before the drain has been accepted. [log 24, DEDUCED] -/
def windowDrainEnd (s : State) : State :=
  match s.tables.drain with
  | some (_, q) => if drainOpen s ∨ s.mgmt.restarting then s else drainAnswer s q .ok 0
  | none => s

def execWindowDrainEnd (s : State) : Host.Outcome State Fault Refusal := .next (windowDrainEnd s)

/-- R64: the drain has not ended 1 ms after its write. [log 24, DEDUCED] -/
def windowDrainTimeout (s : State) : State :=
  match s.tables.drain with
  | some (t, q) =>
    if passed s t (msMt 1) ∧ drainOpen s ∧ !s.mgmt.restarting then
      drainAnswer (report { s with
        accesses := s.accesses.map fun a => { a with drained := false }
        held := s.held.map fun o => { o with drained := false } } 5 0 1 0) q .notPerformed 10
    else s
  | none => s

def execWindowDrainTimeout (s : State) : Host.Outcome State Fault Refusal := .next (windowDrainTimeout s)

end Sys2Proof.Machine
end

