-- ==== Sys2Proof/Machine/Cascade.lean ====
section
/-! DEFINITION. The cascade bus (R23 to R30, R69, R293, R341 to R344): shared-table updates, packets of the
other insts, and insts that are lost and return. -/

namespace Sys2Proof.Machine

/-! ## Shared tables (R24) -/

/-- The node whose incarnation an update writes. -/
def updateNode : TableUpdate → Option NodeId
  | .incarnation n _ => some n
  | _ => none

/-- The number of an inst as a message carries it. -/
def fin4 (n : Nat) : Fin 4 := ⟨n % 4, by omega⟩

/-- R24: an inst other than the master stores an update, with what follows from a changed incarnation
(R60), and acknowledges it. -/
def storeShared (u : TableUpdate) (s : State) : State :=
  if isMaster s then s
  else
    let t := emit { s with tables := storeUpdate s.tables u } (.bus (.stored (fin4 (instId s))))
    match updateNode u with
    | some n => if incOf t n = incOf s n then t else incarnationChanged t n
    | none => t

/-- R24, R428: the write that every present inst has stored is answered, but not during a Compass restart. -/
def settleStored (s : State) : State :=
  match s.cascade.storing, s.cascade.writing, s.mgmt.restarting with
  | [], some q, false => settleHeld (lateAnswer { s with cascade := { s.cascade with writing := none } } q .ok 0)
  | _, _, _ => s

/-- R24: an inst has stored the write in progress, or is no longer present; after the last one the write is
answered, and requests that waited for it are taken. -/
def storedBy (i : Nat) (s : State) : State :=
  let left := s.cascade.storing.filter (· != i)
  settleStored { s with cascade := { s.cascade with storing := left } }

/-- R428: answers that waited for the end of a Compass restart. -/
def settleAnswers (s : State) : State := windowDrainTimeout (windowDrainEnd (settleStored s))

/-- R224: the copy of a window table entry that another inst asks for: none of an entry in error here too. -/
def giveWindow (i : Fin 4194304) (s : State) : State :=
  if s.tables.badWindow.contains i.val then s
  else emit s (.bus (.windowCopy i (BitVec.ofNat 64 (windowEntry s i.val))))

/-- R224: an entry in error is rewritten with another inst's copy. -/
def takeWindow (i : Fin 4194304) (v : BitVec 64) (s : State) : State :=
  if s.tables.badWindow.contains i.val then { s with tables := storeUpdate s.tables (.window i v) } else s

/-- R182: an inst other than the master takes a value of 0x5310. -/
def takeSextant (sub v : Nat) (s : State) : State :=
  if isMaster s then s
  else (List.range 16).foldl (fun t u => pressEnded u t (settlePress t u)) (setReg s 0x5310 sub v)

/-- R182, R206, R208: an inst other than the master takes a unit's trimmed maximum, frequency, service and scheduled
change; where the frequency has changed its open lines there close. -/
def takeUnit (u trimmed freq : Nat) (inService : Bool) (change : Option Nat) (s : State) : State :=
  if isMaster s then s
  else
    let s1 := if (sext s u).freq = freq then s else closeLines s u
    let t := updSext (setTrimmed s1 u trimmed) u fun x => { x with freq := freq, change := change }
    if inService then updSext t u fun x => { x with inService := true }
    else if (sext s u).inService then unitLeaves t u else t

/-- R182, R461: the counters of a unit, which start again only with the master. -/
def takeCounts (u : Nat) (counts : List Nat) (s : State) : State :=
  if isMaster s then s
  else (List.range 9).foldl (fun t k => setRegAt t 0x5300 (k + 5) u (counts.getD k 0)) s

/-- R182: the master gives an inst that starts or asks again what is in force in 0x5310 and at the units. [log 43, DEDUCED] -/
def giveSextant (s : State) : State := if isMaster s then tellSextant s else s

/-- R341: the master takes an inst's map, and checks every map again. -/
def takeMap (i : Nat) (map widths : Bytes) (s : State) : State :=
  if isMaster s then checkMaps { s with cascade := { s.cascade with maps := tput s.cascade.maps i (map, widths) } } else s

/-- R344: a stripe of another inst stands otherwise: its home port runs with it, or goes on without it. -/
def takeStripe (i p : Nat) (x : FarStripe) (s : State) : State :=
  let t := { s with cascade := { s.cascade with stripes := tput s.cascade.stripes (i * 12 + p) x } }
  if x.works then restoreHome t x.home.val else degradeHome t x.home.val

/-- A message of another inst over the cascade bus. -/
def cascadeTableUpdate (m : BusMsg) (s : State) : State :=
  if !awake s then s
  else
    match m with
    | .table u => storeShared u s
    | .stored i => storedBy i.val s
    | .windowAsk i => giveWindow i s
    | .windowCopy i v => takeWindow i v s
    | .sextant sub v => takeSextant sub.val v.toNat s
    | .sextantAsk _ => giveSextant s
    | .unitState u trimmed freq inService change => takeUnit u.val trimmed freq inService change s
    | .unitCounts u counts => takeCounts u.val counts s
    | .unitWork u sub n => bumpBy s 0x5300 sub.val u.val n
    | .stripes i map widths => takeMap i.val map widths s
    | .stripesBad i ports => if i.val = instId s then dropStripes s (ports.map (·.val)) else s
    | .stripe i p x => takeStripe i.val p.val x s
    | .time count st stratum master hold => takeTime count.toNat (TimeState.ofCode st.val) stratum.toNat master hold s

def execCascadeTableUpdate (message : BusMsg) (s : State) : Host.Outcome State Fault Refusal :=
  .next (cascadeTableUpdate message s)

/-! ## Packets (R69, R293, R342, R343) -/

/-- A routed control packet from another inst. -/
def cascadeRouted (p : Nat) (b : BitVec 256) (s : State) : State :=
  if cByte b 0 = ctGrant then routedArrives s b p (rSinst b) (takeGrant b)
  else if cByte b 0 = ctRelease then routedArrives s b p (rTinst b) (takeRelease b)
  else routedArrives s b p (rTinst b) (takeProbe b)

/-- R69: a response for this inst that arrived at another is taken as it comes, on no account here (R215). -/
def ownResponse (h : BitVec 256) (data : Bytes) (s : State) : State :=
  if isResponse (hOp h) ∧ hDst h = ownNode s ∧ hSinst h = instId s then
    (if hOp h = opWriteAck then answerMap s h else answerFrom s (newPkt s h data .response none))
  else s

/-- A data packet from another inst: a response for this one; a packet for a stripe of that inst's home port (R342); or one
for a home port here (R343). One that finds no room waits on the bus. -/
def cascadeData (source : Nat) (port : Option Nat) (w : WirePacket) (s : State) : State :=
  match payloadUnits w.header, port with
  | none, _ => s
  | some units, none => ownResponse w.header (padTo (64 * units) w.payload) s
  | some units, some p =>
    let x := newPkt s w.header (padTo (64 * units) w.payload) (.waiting (some p)) none
    if (stripeOf s p).map (·.1) = some source ∨ (stripeOf s p).isNone then
      (if busBehind s x then addPkt s x else (takeBus s p x).getD (addPkt s x))
    else s

/-- A packet passed over the cascade bus arrives. [log 43, DEDUCED] -/
def cascadePacketReceive (source : Nat) (port : Option Nat) (w : WirePacket) (s : State) : State :=
  if s.phase ≠ .running ∨ source = instId s then s
  else if [ctGrant, ctRelease, ctProbe].contains (cByte w.header 0) then cascadeRouted (port.getD 0) w.header s
  else cascadeData source port w s

def execCascadePacketReceive (source : Fin 4) (port : Option (Fin 12)) (p : WirePacket) (s : State) :
    Host.Outcome State Fault Refusal := .next (cascadePacketReceive source (port.map (·.val)) p s)

/-! ## Insts lost and returned (R28 to R30, R344) -/

/-- R344: a stripe whose home inst is missing holds its lanes idle and is ABSENT. [log 43, DEDUCED] -/
def idleStripe (s : State) (p : Nat) : State :=
  if (port s p).state = .absent then restartLanes s p true
  else idlePort (if (port s p).state = .training then s else linkDown s p 7 0) p

/-- An inst is no longer counted present: its stripes drop from the home ports named, and stripes of this
inst at its home ports go idle. -/
def loseInst (i : Nat) (homes : List Nat) (s : State) : State :=
  let s1 := { s with cascade := { s.cascade with
    present := s.cascade.present.filter (· != i), lost := s.cascade.lost.filter (fun x => x.1 != i) ++ homes.map fun p => (i, p),
    maps := tdel s.cascade.maps i, stripes := s.cascade.stripes.filter fun x => x.1 / 12 != i } }
  let s2 := homes.foldl degradeHome s1
  let s3 := (twelve.filter fun p => (stripeOf s2 p).map (·.1) == some i).foldl idleStripe s2
  let s4 := if s3.cascade.copying ∧ copySource s3 = none then
      { s3 with cascade := { s3.cascade with copying := false, atStart := !isMaster s3 } }
    else s3
  storedBy i s4

/-- R28: the master does not answer on the cascade bus. [log 43, DEDUCED] -/
def masterAbsent (homes : List Nat) (s : State) : State :=
  if isMaster s ∨ s.cascade.masterAbsent ∨ !awake s then s
  else
    loseInst 0 homes (loseMaster s)

def execMasterAbsent (stripes : List (Fin 12)) (s : State) : Host.Outcome State Fault Refusal :=
  .next (masterAbsent (stripes.map (·.val)) s)

/-- R344: an inst other than the master is lost, or found missing at start-up. [log 43, DEDUCED] -/
def cascadeInstanceLoss (i : Nat) (homes : List Nat) (s : State) : State :=
  if i = 0 ∨ i = instId s ∨ !awake s then s else loseInst i homes s

def execCascadeInstanceLoss (inst : Fin 4) (stripes : List (Fin 12)) (s : State) :
    Host.Outcome State Fault Refusal := .next (cascadeInstanceLoss inst (stripes.map (·.val)) s)

/-- R29: a copy served by the inst that returns, where this inst still waits for one from it. [log 43, DEDUCED] -/
def copyFrom (i : Nat) (copy : Option TableCopy) (s : State) : State :=
  if (s.cascade.copying ∨ s.cascade.atStart) ∧ copySource s = some i ∧ copy.isSome then takeTables copy s else s

/-- R28, R30: the master is back: ports held in QUARANTINED for want of it are decided again. -/
def masterBack (s : State) : State :=
  let t := { s with cascade := { s.cascade with masterAbsent := false, atStart := false } }
  if s.cascade.masterAbsent then twelve.foldl decideAgain t else t

/-- R29, R344: an inst answers again: it is present, its stripes serve their home ports, and stripes here
whose home it is train. [log 43, DEDUCED] -/
def cascadeInstanceReturn (i : Nat) (copy : Option TableCopy) (s : State) : State :=
  if i = instId s ∨ !awake s then s
  else
    let homes := (s.cascade.lost.filter fun x => x.1 == i).map (·.2)
    let s1 := { s with cascade := { s.cascade with
      present := s.cascade.present.filter (· != i) ++ [i], lost := s.cascade.lost.filter fun x => x.1 != i } }
    let s2 := copyFrom i copy s1
    let s3 := if i = 0 then masterBack s2 else s2
    let s4 := homes.foldl restoreHome s3
    let s5 := (twelve.filter fun p => (stripeOf s4 p).map (·.1) == some i).foldl (fun t p => tellStripe (releasePort t p) p) s4
    if i = 0 then askSextant (tellMap s5) else giveSextant s5

def execCascadeInstanceReturn (inst : Fin 4) (copy : Option TableCopy) (s : State) :
    Host.Outcome State Fault Refusal := .next (cascadeInstanceReturn inst copy s)

end Sys2Proof.Machine
end

