-- ==== Sys2Proof/Machine/Tap.lean ====
section
/-! DEFINITION. The levels of the sideband pins (R473) and the IEEE 1149.1 TAP (R484): its controller, BYPASS, IDCODE,
SAMPLE/PRELOAD and EXTEST, and the private instruction that reads the scan and debug ring. No command of the table moves the
pins of the TAP: their levels are state, and a tick looks at them. -/

namespace Sys2Proof.Machine

/-! ## Pins (R473) -/

/-- A wired-OR output that is low while it is asserted and else released. -/
def openDrain (on : Bool) : Option Bool := if on then some false else none

/-- R473: the sideband inputs in the order of the boundary register: PWR_GOOD, RESET_N, CUT_WARN_N, and the straps. [log 56, PRESUMED] -/
def inputPins (s : State) : List Bool :=
  [s.pins.pwrGood, s.pins.resetN, !s.pins.cutWarn, bitAt s.pins.instId 1, bitAt s.pins.instId 0, bitAt s.pins.slotId 2,
   bitAt s.pins.slotId 1, bitAt s.pins.slotId 0]

/-- R473: the sideband outputs as the device drives them, none for high impedance: RELEASE_D0 to D7, the open drains, SPI_SCK,
SPI_CS_N and SPI_IO0 to IO3. No access of the flash lasts from one command to the next, so that SPI_CS_N is high. [log 56, PRESUMED] -/
def ownOutputs (s : State) : List (Option Bool) :=
  ((List.range 8).map fun d => if s.phase = .held then some false else some (lineLevel s d)) ++
    [openDrain s.pins.thermAlert, openDrain s.pins.replaceReq, openDrain s.pins.pcycReq] ++
    [none, some true, none, none, none, none]

/-- R484: the outputs at the pins: under EXTEST the cells of the boundary register drive them. [log 56, PRESUMED] -/
def outputPins (s : State) : List (Option Bool) :=
  if s.pins.tap.op = .extest then s.pins.tap.cells.map some else ownOutputs s

/-! ## The controller (IEEE 1149.1) -/

/-- The state that a rising edge of TCK leads to, by TMS. [log 56, PRESUMED] -/
def tapNext (x : TapState) (tms : Bool) : TapState :=
  match x, tms with
  | .testLogicReset, true => .testLogicReset
  | .testLogicReset, false => .runTestIdle
  | .runTestIdle, true => .selectDr
  | .runTestIdle, false => .runTestIdle
  | .selectDr, true => .selectIr
  | .selectDr, false => .captureDr
  | .captureDr, true => .exit1Dr
  | .captureDr, false => .shiftDr
  | .shiftDr, true => .exit1Dr
  | .shiftDr, false => .shiftDr
  | .exit1Dr, true => .updateDr
  | .exit1Dr, false => .pauseDr
  | .pauseDr, true => .exit2Dr
  | .pauseDr, false => .pauseDr
  | .exit2Dr, true => .updateDr
  | .exit2Dr, false => .shiftDr
  | .updateDr, true => .selectDr
  | .updateDr, false => .runTestIdle
  | .selectIr, true => .testLogicReset
  | .selectIr, false => .captureIr
  | .captureIr, true => .exit1Ir
  | .captureIr, false => .shiftIr
  | .shiftIr, true => .exit1Ir
  | .shiftIr, false => .shiftIr
  | .exit1Ir, true => .updateIr
  | .exit1Ir, false => .pauseIr
  | .pauseIr, true => .exit2Ir
  | .pauseIr, false => .pauseIr
  | .exit2Ir, true => .updateIr
  | .exit2Ir, false => .shiftIr
  | .updateIr, true => .selectDr
  | .updateIr, false => .runTestIdle

/-- R484: TRST_N and PWR_GOOD reset the TAP; the levels at its pins stay. -/
def resetTap (t : Tap) : Tap :=
  { Tap.reset with tck := t.tck, tms := t.tms, tdi := t.tdi, trstN := t.trstN, seen := t.tck }

/-- The instruction of a code: BYPASS for all ones (IEEE 1149.1). [log 56, PRESUMED] -/
def tapOpOf (code : List Bool) : TapOp :=
  if code.all id then .bypass
  else match Config.tapCode code with
    | 0 => .bypass
    | 1 => .idcode
    | 2 => .sample
    | 3 => .extest
    | 4 => .ring

/-- Bits of a number, the lowest first. -/
def bitsLow (n x : Nat) : List Bool := (List.range n).map (bitAt x)
def numberLow (l : List Bool) : Nat := l.foldr (fun b a => bit b + 2 * a) 0

/-! ## The ring (R387, R484) -/

/-- R484: the next word of the unit addressed, with a bit that is set when the unit gives one: whether it does within 50 µs is
open. A read stops no unit. [log 56, PRESUMED] -/
def ringWord (s : State) : State × List Bool :=
  let t := s.pins.tap
  let f := freshValue s 1
  let there := (ringUnits s).contains t.unit && decide (4 * t.words < unitBytes t.unit) && f.1 == 1
  let bytes := (List.range 4).map fun k => Config.snapshotByte s.free t.unit (4 * t.words + k)
  ({ f.2 with pins := { f.2.pins with tap := { t with words := t.words + 1 } } },
   bitsLow 32 (if there then leNat bytes else 0) ++ [there])

/-! ## A clock of the TAP -/

/-- What the register selected takes in Capture-DR. [log 56, PRESUMED] -/
def captureDr (s : State) : State × List Bool :=
  match s.pins.tap.op with
  | .bypass => (s, [false])
  | .idcode => (s, bitsLow 32 (Config.idCode.toNat ||| 1))
  | .sample | .extest => (s, inputPins s ++ (outputPins s).map (·.getD true))
  | .ring => ringWord s

/-- What Update-DR does with the register: the output cells are loaded, or a ring unit is addressed. [log 56, PRESUMED] -/
def updateDr (t : Tap) : Tap :=
  match t.op with
  | .sample | .extest => { t with cells := t.shift.drop 8 }
  | .ring => { t with unit := numberLow (t.shift.take 6), words := 0 }
  | .bypass | .idcode => t

def setTap (s : State) (f : Tap → Tap) : State := { s with pins := { s.pins with tap := f s.pins.tap } }

/-- R484: a rising edge of TCK: what the state does, then the next state. -/
def tapRise (s : State) : State :=
  let t := s.pins.tap
  let moved (l : List Bool) := l.drop 1 ++ [t.tdi]
  let s1 := match t.state with
    | .captureDr => let c := captureDr s
                    setTap c.1 fun x => { x with shift := c.2 }
    | .captureIr => setTap s fun x => { x with shift := true :: List.replicate (Config.tapIrLength - 1) false }
    | .shiftDr | .shiftIr => setTap s fun x => { x with shift := moved x.shift }
    | _ => s
  setTap s1 fun x => { x with state := tapNext t.state t.tms }

/-- R484: a falling edge of TCK: TDO takes the register's first bit while it shifts, and the update states act. -/
def tapFall (s : State) : State :=
  setTap s fun t => match t.state with
    | .shiftDr | .shiftIr => { t with tdo := t.shift.head? }
    | .updateDr => { updateDr t with tdo := none }
    | .updateIr => { t with op := tapOpOf t.shift, tdo := none }
    | .testLogicReset => { t with op := .idcode, tdo := none }
    | _ => { t with tdo := none }

/-- R484: what the levels at the TAP's pins ask for in this tick. It works in reset, and while the Compass processor does not
answer; without power it stays in reset. [log 1, DESIGN CHOICE; log 56, PRESUMED] -/
def tapTick (s : State) : State :=
  let t := s.pins.tap
  if !t.trstN ∨ !s.pins.pwrGood then setTap s resetTap
  else if t.tck = t.seen then s
  else setTap (if t.tck then tapRise s else tapFall s) fun x => { x with seen := t.tck }

end Sys2Proof.Machine
end

