-- ==== Sys2Proof/Machine/Boundary.lean ====
section
/-! DEFINITION. The sideband pins and what they do (R416, R417, R476 to R479), the fault collector's intake
and the expiry of a reset bound as commands (R368, R378), and the end of a Compass restart (R428). -/

namespace Sys2Proof.Machine

def setPins (s : State) (f : Pins → Pins) : State := { s with pins := f s.pins }

/-! ## The input filters (R416, R475) -/

/-- An edge that rises. -/
def PinEdge.rises : PinEdge → Bool
  | .fall => false
  | .rise .. => true

/-- An edge comes to a filter whose output has a level: one away from that level begins to wait, one back to it ends a wait,
so that a shorter pulse is ignored, and one that changes nothing is none. [log 4, DESIGN CHOICE] -/
def filterEdge (level : Bool) (held : Option (Nat × PinEdge)) (span : Nat) (e : PinEdge) : Option (Nat × PinEdge) :=
  if e.rises = level then none else if held.isSome then held else some (span, e)

/-- A tick passes at a filter: the ticks left, and the edge that passes now. -/
def filterTick (held : Option (Nat × PinEdge)) : Option (Nat × PinEdge) × Option PinEdge :=
  match held with
  | some (n + 2, e) => (some (n + 1, e), none)
  | some (_, e) => (none, some e)
  | none => (none, none)

/-! ## The power cut warning (R416, R417, R479, R494) -/

/-- R416 at once: reported, and every running reset, dump and self-test slice ends. [log 45, DEDUCED] -/
def cutStops (s : State) : State :=
  let s1 := cutDump (setFaults (report s 0xC 0 4 0) fun f => { f with running := [] })
  let s2 := twelve.foldl (fun t p => abandonSlice t p true) s1
  setTest s2 fun t => { t with store := none }

/-- R416, R450: what the Logbook and the flash get before the power goes. [log 45, DEDUCED] -/
def cutFlush (s : State) : State :=
  flushJournal (abandonUpdate (closeReport (writeLog (drainIntake s) 9 2 []) true))

/-- R416: CUT_WARN_N asserted. Before the persisted values are restored it only keeps the ports idle (R479)
and, in recovery mode, abandons an update (R450). [log 45, DEDUCED] -/
def cutWarnAssert (s : State) : State :=
  let s1 := setPins s fun x => { x with cutWarn := true, cutGone := none }
  if s.phase = .running ∧ s.pins.cutWarn = false then
    cutFlush (idleAll (departAll { cutStops s1 with phase := .cut } 0))
  else if s.phase = .recovery ∧ s.pins.cutWarn = false then abandonUpdate s1
  else s1

/-- R416: CUT_WARN_N falls; the filter passes it after 1 µs. -/
def execCutWarnAssert (s : State) : Host.Outcome State Fault Refusal :=
  .next (setPins s fun x => { x with cutEdge := filterEdge (!x.cutWarn) x.cutEdge (usMt 1) .fall })

/-- R417: CUT_WARN_N released: the 10 ms of good power begin. -/
def cutWarnRelease (s : State) : State :=
  if s.pins.cutWarn then setPins s fun x => { x with cutWarn := false, cutGone := some s.clock } else s

/-- R416: CUT_WARN_N rises; the filter passes it after 1 µs. -/
def execCutWarnRelease (s : State) : Host.Outcome State Fault Refusal :=
  .next (setPins s fun x => { x with cutEdge := filterEdge (!x.cutWarn) x.cutEdge (usMt 1) (.rise none false none) })

/-- R417, R479: what the device does once power has stayed good: an inst reset after a warning in service, and step 6
of its start-up after one that came before. [log 45, DEDUCED] -/
def resumeAfterCut (copy : Option TableCopy) (s : State) : State :=
  match s.phase with
  | .cut => instanceReset false [] false copy s
  | .running => twelve.foldl (fun t p => releasePort t p) s
  | _ => s

/-- R417: 10 ms after the release. -/
def cutWarnRecovery (copy : Option TableCopy) (s : State) : State :=
  match s.pins.cutGone with
  | some t =>
    if passed s t (msMt 10) then settleHeld (resumeAfterCut copy (setPins s fun x => { x with cutGone := none })) else s
  | none => s

def execCutWarnRecovery (copy : Option TableCopy) (s : State) : Host.Outcome State Fault Refusal :=
  .next (cutWarnRecovery copy s)

/-! ## Power, reset and clocks (R476 to R478, R487) -/

/-- R476: PWR_GOOD falls: everything volatile is lost, and every open-drain output released. -/
def pwrGoodFall (s : State) : State :=
  if s.pins.pwrGood then
    let t := clearPower s
    { t with
      pins := { t.pins with pwrGood := false, pcycReq := false, cutGone := none, cold := true, tap := resetTap t.pins.tap },
      mgmt := { t.mgmt with heldReqs := [], plcaOk := false } }
  else s

/-- R475: PWR_GOOD falls; the filter passes it after 100 ns. -/
def execPwrGoodFall (s : State) : Host.Outcome State Fault Refusal :=
  .next (setPins s fun x => { x with goodEdge := filterEdge x.pwrGood x.goodEdge (nsMt 100) .fall })

/-- R477: RESET_N asserted: held in an instance reset without its steps 1 and 2; PCYC_REQ_N is kept. -/
def resetNAssert (s : State) : State :=
  if s.pins.resetN then
    let t := if s.pins.pwrGood then clearAll s .held (raisedEpoch s) else s
    { t with pins := { t.pins with resetN := false, cutGone := none }, mgmt := { t.mgmt with plcaOk := false } }
  else s

/-- R475: RESET_N falls; the filter passes it after 100 ns. -/
def execResetNAssert (s : State) : Host.Outcome State Fault Refusal :=
  .next (setPins s fun x => { x with resetEdge := filterEdge x.resetN x.resetEdge (nsMt 100) .fall })

/-- R477, R487: the bound of the instance reset starts, and the device starts up once its PLLs lock; without
REFCLK it tries again (R476). -/
def releaseStart (refclk : Bool) (copy : Option TableCopy) (s : State) : State :=
  let t := runningInst { s with clock := 0, pins := { s.pins with cutGone := none } } []
  if refclk then startUp copy t else { t with phase := .noPll, pins := { t.pins with pllAt := 0 } }

/-- R478: the straps are sampled at RESET_N release. [log 45, DEDUCED] -/
def resetNRelease (inst slot : Nat) (refclk : Bool) (copy : Option TableCopy) (s : State) : State :=
  if s.pins.resetN then s
  else
    let t := setPins s fun x => { x with resetN := true, instId := inst, slotId := slot }
    if s.pins.pwrGood then settleHeld (releaseStart refclk copy t) else t

/-- R475: RESET_N rises; the filter passes it after 100 ns, and the straps keep their levels for longer. -/
def execResetNRelease (instId : Fin 4) (slotId : Fin 8) (refclk : Bool) (copy : Option TableCopy) (s : State) :
    Host.Outcome State Fault Refusal :=
  .next (setPins s fun x => { x with
    resetEdge := filterEdge x.resetN x.resetEdge (nsMt 100) (.rise (some (instId, slotId)) refclk copy) })

/-- R476: with RESET_N released, PWR_GOOD ends the hold in reset. [log 45, DEDUCED] -/
def pwrGoodRise (refclk : Bool) (copy : Option TableCopy) (s : State) : State :=
  if s.pins.pwrGood then s
  else
    let t := setPins s fun x => { x with pwrGood := true }
    if s.pins.resetN then settleHeld (releaseStart refclk copy t) else t

/-- R475: PWR_GOOD rises; the filter passes it after 100 ns. -/
def execPwrGoodRise (refclk : Bool) (copy : Option TableCopy) (s : State) : Host.Outcome State Fault Refusal :=
  .next (setPins s fun x => { x with goodEdge := filterEdge x.pwrGood x.goodEdge (nsMt 100) (.rise none refclk copy) })

/-- What the device does at an edge of CUT_WARN_N that its filter passes. -/
def cutPass (e : PinEdge) (s : State) : State :=
  match e with
  | .fall => cutWarnAssert s
  | .rise .. => cutWarnRelease s

/-- At one of PWR_GOOD. -/
def goodPass (e : PinEdge) (s : State) : State :=
  match e with
  | .fall => pwrGoodFall s
  | .rise _ refclk copy => pwrGoodRise refclk copy s

/-- At one of RESET_N. -/
def resetPass (e : PinEdge) (s : State) : State :=
  match e with
  | .fall => resetNAssert s
  | .rise straps refclk copy =>
    let w := straps.getD (0, 0)
    resetNRelease w.1 w.2 refclk copy s

/-- R475: a tick passes at the three filters, and the device acts on each edge that passes. -/
def filtersTick (s : State) : State :=
  let c := filterTick s.pins.cutEdge
  let g := filterTick s.pins.goodEdge
  let r := filterTick s.pins.resetEdge
  let s1 := setPins s fun x => { x with cutEdge := c.1, goodEdge := g.1, resetEdge := r.1 }
  let on (f : PinEdge → State → State) (e : Option PinEdge) (t : State) : State :=
    match e with
    | some e => f e t
    | none => t
  on resetPass r.2 (on goodPass g.2 (on cutPass c.2 s1))

/-- R476: every 10 ms the PLLs are tried again. -/
def pllLockRetry (refclk : Bool) (copy : Option TableCopy) (s : State) : State :=
  if s.phase = .noPll ∧ passed s s.pins.pllAt (msMt 10) then
    if refclk then settleHeld (startUp copy s) else setPins s fun x => { x with pllAt := s.clock }
  else s

def execPllLockRetry (refclk : Bool) (copy : Option TableCopy) (s : State) : Host.Outcome State Fault Refusal :=
  .next (pllLockRetry refclk copy s)

/-! ## The collector, the sequencer and the Compass processor (R368, R378, R428) -/

def execFaultIntake (copy : Option TableCopy) (s : State) : Host.Outcome State Fault Refusal :=
  .next (settleHeld (faultIntake copy s))

def execResetBoundExpiry (level : Fin 5) (target : BitVec 12) (copy : Option TableCopy) (s : State) :
    Host.Outcome State Fault Refusal := .next (settleHeld (resetBoundExpiry level target.toNat copy s))

/-- R428, R468: the Compass processor is back, and requests held for it are answered. -/
def execCompassRestartDone (s : State) : Host.Outcome State Fault Refusal := .next (settleHeld (settleAnswers (compassBack s)))

end Sys2Proof.Machine
end

