-- ==== Sys2Proof/Machine/Blocks.lean ====
section
/-! DEFINITION. Received blocks by what their byte 0 makes them: control packets of every type, and data packets with the
discard state of the receiver (R267, R276, R281, R284, R302). -/

namespace Sys2Proof.Machine

/-- A CALLER_NOTICE by its kind (R162, R163). -/
def takeCallerNotice (p : Nat) (b : BitVec 256) (s : State) : State :=
  match nKind b with
  | 1 => noticeOf 1 p b (announceNotice p b) s
  | 2 => noticeOf 2 p b (driftNotice p b) s
  | 3 => noticeOf 3 p b (abortNotice b) s
  | 4 => noticeOf 4 p b (releaseNotice p b) s
  | _ => callerNoticeDiscard p b s

/-- R276: a block that is to be a control packet, taken by its CTYPE, or discarded. -/
def takeBlock (p : Nat) (b : BitVec 256) (s : State) : State :=
  match cByte b 0 with
  | 0xC1 => linkStatusReceive p b s
  | 0xC2 => nakReceive p b s
  | 0xC3 => replayStartReceive p b s
  | 0xC4 => linkStartReceive p b s
  | 0xC5 => hailReceive p b s
  | 0xC6 => departReceive p b s
  | 0xC7 => beaconReceive p b s
  | 0xC8 => takeCallerNotice p b s
  | 0xC9 => creditGrantReceive p b s
  | 0xCA => creditReleaseReceive p b s
  | 0xCB => creditProbeReceive p b s
  | _ => controlPacketDiscard p b false s

/-- A received block: its bytes, whether any of them is marked (R313, R325), and its number in the stream. -/
structure RxBlock where
  bytes : BitVec 256
  bad   : Bool
  nr    : Nat
  deriving DecidableEq, Repr

/-- R267, R276: a block marked as a control packet by its byte 0: discarded where a byte of it is marked. -/
def takeMarked (p : Nat) (x : RxBlock) (s : State) : State :=
  if x.bad then controlPacketDiscard p x.bytes true s else takeBlock p x.bytes s

/-- The 32-byte blocks from number `first` on that bytes make, with their marks. -/
def packetBlocks (first : Nat) (bytes : List (Byte × Bool)) : List RxBlock :=
  (List.range (bytes.length / 32)).map fun i =>
    let own := (bytes.drop (32 * i)).take 32
    { bytes := BitVec.ofNat 256 (leNat (own.map (·.1))), bad := own.any (·.2), nr := first + i }

/-- The data packet that a header block and the blocks after it make, with its marks: those of the header, and one for each
64-byte payload unit. -/
def blocksPacket (x : RxBlock) (rest : List RxBlock) : WirePacket × Bool × List Bool :=
  let n := 2 * (payloadUnits x.bytes).getD 0
  let own := rest.take n
  ({ header := x.bytes, payload := (own.map fun y => leBytes 32 y.bytes.toNat).flatten, codes := [], first := x.nr },
    x.bad, (List.range (n / 2)).map fun u => ((own.drop (2 * u)).take 2).any (·.bad))

/-- R267, R281, R284, R302: the blocks of a receiver that is in step: one with a control packet's byte 0 is one, any other
is a data header, whose payload blocks follow it unclassified. In the discard state, so also after a header that was
answered by NAK, every block is checked as a possible control packet; one with a marked byte is none. [log 16, DEDUCED] -/
def takeBlocks (p : Nat) : Nat → List RxBlock → State → State
  | 0, _, s => s
  | _, [], s => s
  | n + 1, x :: r, s =>
    if !blocksCome s p then s
    else if working s p ∧ (port s p).link.discard then takeBlocks p n r (if x.bad then s else takeBlock p x.bytes s)
    else if 0xC0 ≤ cByte x.bytes 0 then takeBlocks p n r (takeMarked p x s)
    else if !working s p then takeBlocks p n r (bumpAt s 0x2400 0x15 p)
    else
      let w := blocksPacket x r
      let t := receiveInStep s p w.1 w.2.1 w.2.2
      takeBlocks p n (if (port t p).link.discard then r else r.drop (w.1.payload.length / 32)) t

/-- R267, R281, R284, R302, R313: the blocks of a data packet on a port. -/
def dataPacketReceive (p : Nat) (w : WirePacket) (s : State) : State :=
  if !blocksCome s p then s
  else
    let m := wireMarks s p w
    let bs := packetBlocks w.first m.2
    takeBlocks p bs.length bs (if working s p ∧ cByte w.header 0 < 0xC0 then noteRx m.1 p w else m.1)

def execDataPacketReceive (port : Fin 12) (p : WirePacket) (s : State) : Host.Outcome State Fault Refusal :=
  .next (dataPacketReceive port p s)

end Sys2Proof.Machine
end

