-- ==== Sys2Proof/Machine/Dispatch.lean ====
section
/-! DEFINITION. The dispatch: one arm per command, each one call of the meaning of that command. -/

namespace Sys2Proof.Machine

/-- What a command does to everything but the queue. -/
def exec (i : Instr) (s : State) : Host.Outcome State Fault Refusal :=
  match i with
  | .apertureRead h atomic => Sys2Proof.Machine.execApertureRead h atomic s
  | .apertureWrite h atomic enables data parity => Sys2Proof.Machine.execApertureWrite h atomic enables data parity s
  | .hostRequestError chan addr read thread => Sys2Proof.Machine.execHostRequestError chan addr read thread s
  | .timePageRead offset len thread => Sys2Proof.Machine.execTimePageRead offset len thread s
  | .dictionarySubmit number length request => Sys2Proof.Machine.execDictionarySubmit number length request s
  | .dictionaryWrite w index sub value => Sys2Proof.Machine.execDictionaryWrite w index sub value s
  | .fdpRead env xid index sub offset len => Sys2Proof.Machine.execFdpRead env xid index sub offset len s
  | .fdpMalformed frame => Sys2Proof.Machine.execFdpMalformed frame s
  | .sessionReset w => Sys2Proof.Machine.execSessionReset w s
  | .slotWrite ctx offset access data => Sys2Proof.Machine.execSlotWrite ctx offset access data s
  | .copy ctx => Sys2Proof.Machine.execCopy ctx s
  | .fill ctx => Sys2Proof.Machine.execFill ctx s
  | .strided ctx => Sys2Proof.Machine.execStrided ctx s
  | .stageIn ctx => Sys2Proof.Machine.execStageIn ctx s
  | .fence ctx => Sys2Proof.Machine.execFence ctx s
  | .barrier ctx => Sys2Proof.Machine.execBarrier ctx s
  | .collStart ctx => Sys2Proof.Machine.execCollStart ctx s
  | .phaseHint ctx => Sys2Proof.Machine.execPhaseHint ctx s
  | .arm ctx => Sys2Proof.Machine.execArm ctx s
  | .reservedType ctx => Sys2Proof.Machine.execReservedType ctx s
  | .fenceComplete ctx cmd => Sys2Proof.Machine.execFenceComplete ctx cmd s
  | .stageInStart ctx cmd => Sys2Proof.Machine.execStageInStart ctx cmd s
  | .stageInDeadline ctx cmd => Sys2Proof.Machine.execStageInDeadline ctx cmd s
  | .operationIssue op => Sys2Proof.Machine.execOperationIssue op s
  | .trackingBlockClose block => Sys2Proof.Machine.execTrackingBlockClose block s
  | .trackingHoldExpiry block => Sys2Proof.Machine.execTrackingHoldExpiry block s
  | .dataPacketTransmit port => Sys2Proof.Machine.execDataPacketTransmit port s
  | .dataPacketReceive port p => Sys2Proof.Machine.execDataPacketReceive port p s
  | .packetRoute pkt => Sys2Proof.Machine.execPacketRoute pkt s
  | .escapeTimeExpiry pkt => Sys2Proof.Machine.execEscapeTimeExpiry pkt s
  | .loadRequest pkt => Sys2Proof.Machine.execLoadRequest pkt s
  | .storeRequest pkt => Sys2Proof.Machine.execStoreRequest pkt s
  | .atomicFetchRequest pkt => Sys2Proof.Machine.execAtomicFetchRequest pkt s
  | .atomicPostRequest pkt => Sys2Proof.Machine.execAtomicPostRequest pkt s
  | .notifyRequest pkt => Sys2Proof.Machine.execNotifyRequest pkt s
  | .memoryAccept access parity => Sys2Proof.Machine.execMemoryAccept access parity s
  | .writeAckCoalesceTimeout accum => Sys2Proof.Machine.execWriteAckCoalesceTimeout accum s
  | .messageEntryExpiry src sinst msgid => Sys2Proof.Machine.execMessageEntryExpiry src sinst msgid s
  | .loadRespReceive pkt => Sys2Proof.Machine.execLoadRespReceive pkt s
  | .writeAckReceive pkt => Sys2Proof.Machine.execWriteAckReceive pkt s
  | .atomicRespReceive pkt => Sys2Proof.Machine.execAtomicRespReceive pkt s
  | .contextEnable w => Sys2Proof.Machine.execContextEnable w s
  | .contextDisable w => Sys2Proof.Machine.execContextDisable w s
  | .contextRelease w => Sys2Proof.Machine.execContextRelease w s
  | .drainTimeExpiry ctx => Sys2Proof.Machine.execDrainTimeExpiry ctx s
  | .contextDrainComplete ctx => Sys2Proof.Machine.execContextDrainComplete ctx s
  | .mirrorWrite ctx => Sys2Proof.Machine.execMirrorWrite ctx s
  | .mirrorWriteError ctx => Sys2Proof.Machine.execMirrorWriteError ctx s
  | .creditGrantReceive port block => Sys2Proof.Machine.execCreditGrantReceive port block s
  | .creditReleaseReceive port block => Sys2Proof.Machine.execCreditReleaseReceive port block s
  | .creditProbeReceive port block => Sys2Proof.Machine.execCreditProbeReceive port block s
  | .creditProbeTimer op => Sys2Proof.Machine.execCreditProbeTimer op s
  | .grantCoalesceTimeout nctx src sinst => Sys2Proof.Machine.execGrantCoalesceTimeout nctx src sinst s
  | .senderEntryExpiry node nctx => Sys2Proof.Machine.execSenderEntryExpiry node nctx s
  | .grantEntryExpiry nctx src sinst => Sys2Proof.Machine.execGrantEntryExpiry nctx src sinst s
  | .cardInstall w card => Sys2Proof.Machine.execCardInstall w card s
  | .cardSlotClear w slot => Sys2Proof.Machine.execCardSlotClear w slot s
  | .announceNotice port block => Sys2Proof.Machine.execAnnounceNotice port block s
  | .driftNotice port block => Sys2Proof.Machine.execDriftNotice port block s
  | .abortNotice port block => Sys2Proof.Machine.execAbortNotice port block s
  | .releaseNotice port block => Sys2Proof.Machine.execReleaseNotice port block s
  | .callerNoticeDiscard port block => Sys2Proof.Machine.execCallerNoticeDiscard port block s
  | .collectiveStart coll => Sys2Proof.Machine.execCollectiveStart coll s
  | .collDataReceive pkt => Sys2Proof.Machine.execCollDataReceive pkt s
  | .collTokenReceive pkt => Sys2Proof.Machine.execCollTokenReceive pkt s
  | .mcastDataReceive pkt => Sys2Proof.Machine.execMcastDataReceive pkt s
  | .collectiveComplete coll => Sys2Proof.Machine.execCollectiveComplete coll s
  | .barrierFiguresComplete coll => Sys2Proof.Machine.execBarrierFiguresComplete coll s
  | .barrierRelease coll => Sys2Proof.Machine.execBarrierRelease coll s
  | .reductionCombine unit => Sys2Proof.Machine.execReductionCombine unit s
  | .atomicExecute unit => Sys2Proof.Machine.execAtomicExecute unit s
  | .lineHoldExpiry unit line => Sys2Proof.Machine.execLineHoldExpiry unit line s
  | .sextantFrequencyChange unit => Sys2Proof.Machine.execSextantFrequencyChange unit s
  | .scrubRow bank row finding rewriteClears => Sys2Proof.Machine.execScrubRow bank row finding rewriteClears s
  | .bankMigrationDone bank => Sys2Proof.Machine.execBankMigrationDone bank s
  | .partitionEntryWrite w value => Sys2Proof.Machine.execPartitionEntryWrite w value s
  | .portKeyWrite w value => Sys2Proof.Machine.execPortKeyWrite w value s
  | .shareWrite w value => Sys2Proof.Machine.execShareWrite w value s
  | .incarnationWrite w value => Sys2Proof.Machine.execIncarnationWrite w value s
  | .rankEntryWrite w value => Sys2Proof.Machine.execRankEntryWrite w value s
  | .windowEntryWrite w value => Sys2Proof.Machine.execWindowEntryWrite w value s
  | .windowDescriptorWrite w value => Sys2Proof.Machine.execWindowDescriptorWrite w value s
  | .windowDrain w => Sys2Proof.Machine.execWindowDrain w s
  | .windowDrainEnd => Sys2Proof.Machine.execWindowDrainEnd s
  | .windowDrainTimeout => Sys2Proof.Machine.execWindowDrainTimeout s
  | .portDirectionWrite w value => Sys2Proof.Machine.execPortDirectionWrite w value s
  | .datelineWrite w dim value => Sys2Proof.Machine.execDatelineWrite w dim value s
  | .routeEntryWrite w value => Sys2Proof.Machine.execRouteEntryWrite w value s
  | .exceptionWrite w value => Sys2Proof.Machine.execExceptionWrite w value s
  | .bankMarkReady w value => Sys2Proof.Machine.execBankMarkReady w value s
  | .bankRelease w value => Sys2Proof.Machine.execBankRelease w value s
  | .flipSchedule w time => Sys2Proof.Machine.execFlipSchedule w time s
  | .flipCancel w => Sys2Proof.Machine.execFlipCancel w s
  | .epochFlip => Sys2Proof.Machine.execEpochFlip s
  | .drainingBankQuiet => Sys2Proof.Machine.execDrainingBankQuiet s
  | .drainGuardExpiry => Sys2Proof.Machine.execDrainGuardExpiry s
  | .chartSample => Sys2Proof.Machine.execChartSample s
  | .chartIntervalClose => Sys2Proof.Machine.execChartIntervalClose s
  | .chartSend => Sys2Proof.Machine.execChartSend s
  | .chartPacketReceive pkt => Sys2Proof.Machine.execChartPacketReceive pkt s
  | .linkStatusReceive port block => Sys2Proof.Machine.execLinkStatusReceive port block s
  | .nakReceive port block => Sys2Proof.Machine.execNakReceive port block s
  | .replayStartReceive port block => Sys2Proof.Machine.execReplayStartReceive port block s
  | .linkStartReceive port block => Sys2Proof.Machine.execLinkStartReceive port block s
  | .hailReceive port block => Sys2Proof.Machine.execHailReceive port block s
  | .departReceive port block => Sys2Proof.Machine.execDepartReceive port block s
  | .beaconReceive port block => Sys2Proof.Machine.execBeaconReceive port block s
  | .controlPacketDiscard port block badBlock => Sys2Proof.Machine.execControlPacketDiscard port block badBlock s
  | .linkStatusTimer port => Sys2Proof.Machine.execLinkStatusTimer port s
  | .replayTimeout port => Sys2Proof.Machine.execReplayTimeout port s
  | .silenceLimitExpiry port => Sys2Proof.Machine.execSilenceLimitExpiry port s
  | .linkStartRepeat port => Sys2Proof.Machine.execLinkStartRepeat port s
  | .linkStartTimeout port => Sys2Proof.Machine.execLinkStartTimeout port s
  | .takeLinkDown w => Sys2Proof.Machine.execTakeLinkDown w s
  | .portDisable w => Sys2Proof.Machine.execPortDisable w s
  | .portEnable w => Sys2Proof.Machine.execPortEnable w s
  | .retrain w => Sys2Proof.Machine.execRetrain w s
  | .laneLos lane => Sys2Proof.Machine.execLaneLos lane s
  | .laneLosClear lane => Sys2Proof.Machine.execLaneLosClear lane s
  | .laneLol lane => Sys2Proof.Machine.execLaneLol lane s
  | .laneLolClear lane => Sys2Proof.Machine.execLaneLolClear lane s
  | .trainingSetReceive lane groups => Sys2Proof.Machine.execTrainingSetReceive lane groups s
  | .bitSlip lane => Sys2Proof.Machine.execBitSlip lane s
  | .trainingFrameReceive lane control => Sys2Proof.Machine.execTrainingFrameReceive lane control s
  | .checkWindowEnd port counts => Sys2Proof.Machine.execCheckWindowEnd port counts s
  | .stageTimeout port => Sys2Proof.Machine.execStageTimeout port s
  | .stageARetry port => Sys2Proof.Machine.execStageARetry port s
  | .startCountdownEnd port => Sys2Proof.Machine.execStartCountdownEnd port s
  | .codewordDecode octet codeword symbols => Sys2Proof.Machine.execCodewordDecode octet codeword symbols s
  | .spare port arg => Sys2Proof.Machine.execSpare port arg s
  | .unspare port arg => Sys2Proof.Machine.execUnspare port arg s
  | .width port arg => Sys2Proof.Machine.execWidth port arg s
  | .shift port arg => Sys2Proof.Machine.execShift port arg s
  | .ack port arg countdown => Sys2Proof.Machine.execAck port arg countdown s
  | .refuse port arg => Sys2Proof.Machine.execRefuse port arg s
  | .switchFrame port => Sys2Proof.Machine.execSwitchFrame port s
  | .lmcRepeatTimeout port => Sys2Proof.Machine.execLmcRepeatTimeout port s
  | .shiftTimeout port => Sys2Proof.Machine.execShiftTimeout port s
  | .testMode w value => Sys2Proof.Machine.execTestMode w value s
  | .symbolErrorInject w value => Sys2Proof.Machine.execSymbolErrorInject w value s
  | .merRefEdge => Sys2Proof.Machine.execMerRefEdge s
  | .merRefLoss => Sys2Proof.Machine.execMerRefLoss s
  | .beaconSend port => Sys2Proof.Machine.execBeaconSend port s
  | .upstreamLoss => Sys2Proof.Machine.execUpstreamLoss s
  | .holdoverLimit => Sys2Proof.Machine.execHoldoverLimit s
  | .masterTakeover => Sys2Proof.Machine.execMasterTakeover s
  | .designationWrite w standby value => Sys2Proof.Machine.execDesignationWrite w standby value s
  | .timeSet w time => Sys2Proof.Machine.execTimeSet w time s
  | .meridianMinute => Sys2Proof.Machine.execMeridianMinute s
  | .masterAbsent stripes => Sys2Proof.Machine.execMasterAbsent stripes s
  | .faultIntake copy => Sys2Proof.Machine.execFaultIntake copy s
  | .countSlotBoundary cls idx => Sys2Proof.Machine.execCountSlotBoundary cls idx s
  | .countWindowWrite w value => Sys2Proof.Machine.execCountWindowWrite w value s
  | .logRateSecond => Sys2Proof.Machine.execLogRateSecond s
  | .faultClear w value => Sys2Proof.Machine.execFaultClear w value s
  | .faultForce w kind => Sys2Proof.Machine.execFaultForce w kind s
  | .contextReset w target => Sys2Proof.Machine.execContextReset w target s
  | .autoContextReset ctx => Sys2Proof.Machine.execAutoContextReset ctx s
  | .engineReset w target => Sys2Proof.Machine.execEngineReset w target s
  | .mirrorAbandonTimeout engine => Sys2Proof.Machine.execMirrorAbandonTimeout engine s
  | .partitionReset w target => Sys2Proof.Machine.execPartitionReset w target s
  | .instanceResetDump w copy => Sys2Proof.Machine.execInstanceResetDump w copy s
  | .instanceResetNoDump w copy => Sys2Proof.Machine.execInstanceResetNoDump w copy s
  | .resetComplete level target => Sys2Proof.Machine.execResetComplete level target s
  | .resetBoundExpiry level target copy => Sys2Proof.Machine.execResetBoundExpiry level target copy s
  | .dumpRequest w => Sys2Proof.Machine.execDumpRequest w s
  | .dumpUnitTimeout unit anyWord => Sys2Proof.Machine.execDumpUnitTimeout unit anyWord s
  | .dumpFlashWriteDone => Sys2Proof.Machine.execDumpFlashWriteDone s
  | .capBoundary => Sys2Proof.Machine.execCapBoundary s
  | .stepPrepare => Sys2Proof.Machine.execStepPrepare s
  | .scheduleStep => Sys2Proof.Machine.execScheduleStep s
  | .scheduleWrite w step => Sys2Proof.Machine.execScheduleWrite w step s
  | .scheduleClear w => Sys2Proof.Machine.execScheduleClear w s
  | .startUpCapWrite w sextant value => Sys2Proof.Machine.execStartUpCapWrite w sextant value s
  | .hostCapWrite w value => Sys2Proof.Machine.execHostCapWrite w value s
  | .hostSextantCapWrite w value => Sys2Proof.Machine.execHostSextantCapWrite w value s
  | .holdOffWrite w value => Sys2Proof.Machine.execHoldOffWrite w value s
  | .sensorRead readings => Sys2Proof.Machine.execSensorRead readings s
  | .sensorFailed sensor => Sys2Proof.Machine.execSensorFailed sensor s
  | .criticalHoldTimeout => Sys2Proof.Machine.execCriticalHoldTimeout s
  | .thermalRelease => Sys2Proof.Machine.execThermalRelease s
  | .activitySample counts => Sys2Proof.Machine.execActivitySample counts s
  | .coefficientCorrection => Sys2Proof.Machine.execCoefficientCorrection s
  | .cutWarnAssert => Sys2Proof.Machine.execCutWarnAssert s
  | .cutWarnRelease => Sys2Proof.Machine.execCutWarnRelease s
  | .cutWarnRecovery copy => Sys2Proof.Machine.execCutWarnRecovery copy s
  | .laneSlice port => Sys2Proof.Machine.execLaneSlice port s
  | .sliceCheckEnd lane check bits errors => Sys2Proof.Machine.execSliceCheckEnd lane check bits errors s
  | .storeSlice => Sys2Proof.Machine.execStoreSlice s
  | .retentionWaitEnd pass => Sys2Proof.Machine.execRetentionWaitEnd pass s
  | .sextantSlice pass repeatPass slackAbove => Sys2Proof.Machine.execSextantSlice pass repeatPass slackAbove s
  | .repairCommit w record => Sys2Proof.Machine.execRepairCommit w record s
  | .fuseCommitDone => Sys2Proof.Machine.execFuseCommitDone s
  | .compassWatchdog => Sys2Proof.Machine.execCompassWatchdog s
  | .eventAck eseq => Sys2Proof.Machine.execEventAck eseq s
  | .eventResend eseq => Sys2Proof.Machine.execEventResend eseq s
  | .announceAck => Sys2Proof.Machine.execAnnounceAck s
  | .announceResend => Sys2Proof.Machine.execAnnounceResend s
  | .journalAppend flashOk badSector => Sys2Proof.Machine.execJournalAppend flashOk badSector s
  | .keyReplace w slot wrapped => Sys2Proof.Machine.execKeyReplace w slot wrapped s
  | .updateBegin w length => Sys2Proof.Machine.execUpdateBegin w length s
  | .updateEraseDone => Sys2Proof.Machine.execUpdateEraseDone s
  | .updateBlock w block => Sys2Proof.Machine.execUpdateBlock w block s
  | .updateFinish w => Sys2Proof.Machine.execUpdateFinish w s
  | .updateConfirm w => Sys2Proof.Machine.execUpdateConfirm w s
  | .confirmWindowExpiry => Sys2Proof.Machine.execConfirmWindowExpiry s
  | .cableIdentityWrite w identity => Sys2Proof.Machine.execCableIdentityWrite w identity s
  | .planEntryWrite w value => Sys2Proof.Machine.execPlanEntryWrite w value s
  | .planHashWrite w value => Sys2Proof.Machine.execPlanHashWrite w value s
  | .hailRepeat port => Sys2Proof.Machine.execHailRepeat port s
  | .hailTimeout port => Sys2Proof.Machine.execHailTimeout port s
  | .prepareReturn w => Sys2Proof.Machine.execPrepareReturn w s
  | .returnToService w => Sys2Proof.Machine.execReturnToService w s
  | .pwrGoodFall => Sys2Proof.Machine.execPwrGoodFall s
  | .resetNAssert => Sys2Proof.Machine.execResetNAssert s
  | .resetNRelease instId slotId refclk copy => Sys2Proof.Machine.execResetNRelease instId slotId refclk copy s
  | .pllLockRetry refclk copy => Sys2Proof.Machine.execPllLockRetry refclk copy s
  | .pwrGoodRise refclk copy => Sys2Proof.Machine.execPwrGoodRise refclk copy s
  | .compassRestartDone => Sys2Proof.Machine.execCompassRestartDone s
  | .mirrorWriteAccepted ctx => Sys2Proof.Machine.execMirrorWriteAccepted ctx s
  | .cascadeTableUpdate message => Sys2Proof.Machine.execCascadeTableUpdate message s
  | .cascadePacketReceive source port p => Sys2Proof.Machine.execCascadePacketReceive source port p s
  | .cascadeReleaseReceive tRel step ramp => Sys2Proof.Machine.execCascadeReleaseReceive tRel step ramp s
  | .cascadeBeaconSample source port delay offset master stratum holdover => Sys2Proof.Machine.execCascadeBeaconSample source port delay offset master stratum holdover s
  | .cascadeInstanceLoss inst stripes => Sys2Proof.Machine.execCascadeInstanceLoss inst stripes s
  | .cascadeInstanceReturn inst copy => Sys2Proof.Machine.execCascadeInstanceReturn inst copy s
  | .sextantBackpressureDrift unit => Sys2Proof.Machine.execSextantBackpressureDrift unit s
  | .receiverAdaptationDone lane ctle dfe => Sys2Proof.Machine.execReceiverAdaptationDone lane ctle dfe s
  | .plcaStatusOk => Sys2Proof.Machine.execPlcaStatusOk s

end Sys2Proof.Machine
end

