-- ==== Sys2Proof/Machine/Wire.lean ====
section
/-! DEFINITION. What the lanes send of their own as time passes: the training sets of stage A, training frames with their
control fields, test patterns, IDLE control packets and injected errors; and the running adaptation of the receivers (R266,
R308, R317, R318, R329, R332, R345, R346). `tick` is the whole of one tick on an empty queue. -/

namespace Sys2Proof.Machine

/-- How many of the units sent at `num / den` a mt end in this tick. -/
def unitsNow (s : State) (num den : Nat) : Nat := (s.clock + 1) * num / den - s.clock * num / den

/-- Act on every lane of a port that is not in electrical idle. -/
def onLanes (s : State) (p : Nat) (ls : List Nat) (f : State → Nat → Nat → State) : State :=
  (ls.filter fun l => !laneIdle (lane s l)).foldl (fun t l => f t p l) s

/-! ## Stage A (R308, R310) -/

/-- R308: a port in service that is not at a completed stage and trains no later one sends stage A training sets. -/
def sendsSets (s : State) (p : Nat) : Bool :=
  let x := port s p
  s.phase == .running && portOpen s p && !x.test && x.stage.isNone && (x.trying.isNone || x.trying == some .a)

/-- The training sets of a port, one after another. [log 47, DESIGN CHOICE] -/
def sendSets (s : State) (p : Nat) : State :=
  if sendsSets s p ∧ everySpan s (port s p).tryAt setSpan then onLanes s p (portLanes s p) sendSet else s

/-! ## Training frames (R317, R318, R332) -/

/-- What a countdown of frames since a local time shows now. -/
def countdownNow (s : State) (count since span : Nat) : Nat := count - (s.clock - since) / span

/-- R333, R334: LMC, ARG and CDOWN in the spare channel: a command until it is answered, or the ACK of the own transmit
direction with its countdown. -/
def channelCommand (s : State) (p : Nat) : Nat × Nat × Nat :=
  match (port s p).lmc with
  | some m =>
    if m.own ∧ !m.acked then (m.cmd, m.arg.toNat, 0)
    else match m.tx with
      | some c => (5, m.cmd, countdownNow s c.1 c.2 (frameSpan (port s p).stage))
      | none => (0, 0, 0)
  | none => (0, 0, 0)

/-- R320, R321: LMC, ARG and CDOWN while a stage is trained: on SP the position that the receiver takes from it, and the
countdown of START. -/
def trainingCommand (s : State) (p l : Nat) : Nat × Nat × Nat :=
  let spare := match (octet s (l / 9)).rxSpare with
    | some m => if l % 9 = 8 then (1, m + 16 * peerOctet s (l / 9)) else (0, 0)
    | none => (0, 0)
  let down := match (port s p).starting with
    | some (n, t) => countdownNow s n t (frameSpan (port s p).trying)
    | none => 0
  (spare.1, spare.2, down)

/-- R318: the control field of a lane's training frame: at a stage, in the spare channel or not. -/
def ownControl (s : State) (p l : Nat) (st : Stage) (channel : Bool) : BitVec 64 :=
  let x := lane s l
  let training := (port s p).trying.isSome
  let cmd := if channel then channelCommand s p else if training then trainingCommand s p l else (0, 0, 0)
  let low := l % 9 + 2 ^ 4 * (l / 9 - portBase s p) + 2 ^ 8 * st.code + 2 ^ 12 * x.reqOut.toNat +
    2 ^ 20 * (if x.preset then channelType s (l / 9) else 0) + 2 ^ 23 * bit x.rxReady + 2 ^ 24 * x.tapSts.toNat +
    2 ^ 32 * bit x.precodeRx + 2 ^ 33 * bit channel + 2 ^ 34 * bit (training && (port s p).starting.isSome) +
    2 ^ 36 * cmd.1 + 2 ^ 44 * cmd.2.1 + 2 ^ 52 * (cmd.2.2 % 256)
  BitVec.ofNat 64 (low + 2 ^ 60 * ctlCheck low)

/-- R317: send one training frame on a lane, precoded from the last level of its stage on. -/
def sendTrainingFrame (st : Stage) (channel : Bool) (s : State) (p l : Nat) : State :=
  let x := lane s l
  let c := ownControl s p l st channel
  let f := frameLevels c (l % 9) x.precodeTx x.txW
  emit (updLane s l fun y => { y with txW := f.2 }) (.trainingFrame l c f.1)

/-- R319: the frames of a port that trains stage B or C, or shifts between them, on every lane. -/
def sendStageFrames (s : State) (p : Nat) : State :=
  let x := port s p
  let since := match x.shifting with
    | some y => y.2
    | none => x.tryAt
  match x.trying with
  | some .b => if x.test ∨ !everySpan s since 300 then s else onLanes s p (portLanes s p) (sendTrainingFrame .b false)
  | some .c => if x.test ∨ !everySpan s since 150 then s else onLanes s p (portLanes s p) (sendTrainingFrame .c false)
  | _ => s

/-- R332, R338, R420: the lanes of a port that runs stage B or C which send frames: an SP that carries no data, also of an
octet out of use or under a slice, a lane whose position SP carries, and every lane of an octet that is switched on again. -/
def frameLanes (s : State) (p : Nat) : List Nat :=
  (portLanes s p).filter fun l =>
    let y := octet s (l / 9)
    let waking := (port s p).waking.contains (l / 9) && y.state == 3
    waking || (l % 9 == 8 && [0, 1, 2].contains y.state && y.txSpare.isNone) || (y.txFreed && y.txSpare == some (l % 9))

/-- R332: frames beside the block stream, from its start on; those of the first free spare belong to the spare channel. -/
def sendSpares (s : State) (p : Nat) : State :=
  let x := port s p
  if !runsFec x ∨ x.test ∨ !everySpan s x.streamFrom (frameSpan x.stage) then s
  else
    let st := x.stage.getD .b
    let ch := spareOctet s p
    (frameLanes s p).foldl (fun t l => sendTrainingFrame st (l % 9 == 8 && ch == some (l / 9)) t p l) s

/-! ## The block stream (R266, R346) -/

/-- R289: what waits and may go goes: a BEACON that is due, and the kinds after it. -/
def sendWaiting (s : State) (p : Nat) : State := if working s p then drainControl 256 (beaconSend p s) p else s

/-- The blocks of a port that pass in this tick: 32 bytes at the data rate of R303. -/
def blocksNow (s : State) (p : Nat) : Nat := unitsNow s (octetRate (port s p).stage * (port s p).txWidth) 7680

/-- R266: with no data that may go, IDLE control packets fill the stream. [log 47, DESIGN CHOICE] -/
def sendIdle (s0 : State) (p : Nat) : State :=
  let s := sendWaiting s0 p
  let x := port s p
  if !stageDone x ∨ x.test ∨ dataWaits s p then s
  else (List.replicate (blocksNow s p) (control ctIdle x.link.txEpoch 0 [])).foldl (fun t b => sendBlock t p true b) s

/-! ## Pattern test mode (R345) -/

/-- How many bits a lane sends in this tick at a test stage. -/
def bitsNow (s : State) (stage : Nat) : Nat := if stage = 0 then unitsNow s 165 64 else unitsNow s (28 * stage) 1

/-- The register of a lane's pattern generator; one that holds 0, or begins, takes the seed: that of R317 for PRBS13, else all
ones. [log 47, DESIGN CHOICE] -/
def genReg (code l g : Nat) : Nat :=
  let n := (prbsTaps code).1
  if g % 2 ^ n ≠ 0 then g % 2 ^ n else if code = 3 then 0x1000 + 0x0155 * (l % 9) else 2 ^ n - 1

/-- The next `n` bits of a lane's pattern, the first of them bit `at_` of its run, with the generator's register. -/
def patternBits (s : State) (code stage l at_ n : Nat) : List Bool × Nat :=
  let g := (lane s l).gen
  let bits := List.range n
  if code = 6 then
    let span := if stage = 0 then 8 else 16
    (bits.map fun i => (at_ + i) / span % 2 == 0 && (stage == 0 || (at_ + i) % 2 == 0), g)
  else if code = 7 then (bits.map fun i => bitAt (reg s 0x2300 5) ((at_ + i) % 64), g)
  else prbsBits code n (genReg code l g)

/-- The bits as the levels of the UI: NRZ at stage A, else Gray mapped. -/
def testLevels (stage : Nat) (bits : List Bool) : List Nat :=
  if stage = 0 then bits.map fun b => 3 * bit b else pairLevels bits

/-- R345: a lane generates the pattern, with one bit in every N of 0x2300.06 inverted on the lane selected. -/
def sendPattern (s : State) (_p l : Nat) : State :=
  let code := reg s 0x2300 4
  let stage := reg s 0x2300 3
  let n := bitsNow s stage
  let at_ := (lane s l).testBits
  let r := patternBits s code stage l at_ n
  let out := if l = s.test.errLane then invertBits (reg s 0x2300 6) at_ r.1 else r.1
  emit (updLane s l fun x => { x with gen := r.2, testBits := at_ + n }) (.pattern l (testLevels stage out))

/-- A byte of bits, bit 0 first. -/
def bitsByte (bits : List Bool) : Byte :=
  BitVec.ofNat 8 ((bits.zipIdx.map fun x => 2 ^ x.2 * bit x.1).foldl (· + ·) 0)

/-- The next `n` bytes of PRBS31 of a lane. -/
def patternBytes (s : State) (l n : Nat) : Bytes × Nat :=
  let r := prbsBits 5 (8 * n) (genReg 5 l (lane s l).gen)
  ((List.range n).map fun k => bitsByte ((r.1.drop (8 * k)).take 8), r.2)

/-- R345 code 0x08: the next block of PRBS31 bytes of a port is dealt over its octets (R307). -/
def sendTestBlock (st : Stage) (s : State) (p : Nat) : State :=
  let l := 9 * portBase s p
  let b := patternBytes s l 32
  dealBlock st (portOctets s p) (updLane s l fun x => { x with gen := b.2 }) p b.1

/-- R345: what a port in test mode generates in this tick. [log 47, DESIGN CHOICE] -/
def sendTest (s : State) (p : Nat) : State :=
  let st := Stage.ofCode (reg s 0x2300 3)
  if !(port s p).test ∨ s.phase ≠ .running ∨ cutWaits s ∨ !bitAt (reg s 0x2300 2) 0 then s
  else if reg s 0x2300 4 ≠ 8 then onLanes s p (portLanes s p) sendPattern
  else (List.range (unitsNow s (octetRate (some st) * portWidth s p) 7680)).foldl (fun t _ => sendTestBlock st t p) s

/-! ## The running adaptation (R329) -/

/-- A step of -1, 0 or 1 by code. -/
def stepBy (k : Nat) : Int := (k : Int) - 1

/-- R329: the CTLE and the DFE of a lane each move by at most one step. [log 8, DESIGN CHOICE] -/
def adaptLane (type : Nat) (now : Mt) (l : Nat) (x : Lane) : Lane :=
  let move (i : Nat) (t : Byte) : Byte :=
    BitVec.ofInt 8 (max (-128) (min 127 (t.toInt + stepBy (Config.adaptStep l (i + 1) now).val)))
  { x with
    ctle := (max 0 (min 40 ((x.ctle : Int) + stepBy (Config.adaptStep l 0 now).val))).toNat
    dfe := limitFirst type ((padTo 12 x.dfe).zipIdx.map fun t => move t.2 t.1) }

/-- R329: every 10 µs the receivers of a running port adapt, but those of an octet whose adaptation is frozen. -/
def adaptPort (s : State) (p : Nat) : State :=
  if !stageDone (port s p) ∨ (port s p).test ∨ !everySpan s (port s p).streamFrom (usMt 10) then s
  else (portLanes s p).foldl (fun t l =>
    if regAt s 0x2200 6 (l / 9) ≠ 0 ∨ deaf (lane s l) ∨ laneIdle (lane s l) then t
    else updLane t l (adaptLane (octet s (l / 9)).channel s.clock l)) s

/-! ## One tick -/

/-- What a port does and sends in one tick: a stage that is due begins (R455), a shift that is over ends (R339), lanes that
have failed together are handled (R335). -/
def portTick (s0 : State) (p : Nat) : State :=
  let s := settleFails (afterShift (stepUp s0 p) p) p
  adaptPort (sendTest (sendIdle (sendSpares (sendStageFrames (sendSets s p) p) p) p) p) p

/-- R355: inst 0 sends its time to the other insts, once in a beacon interval. [log 28, DEDUCED] -/
def sendTime (s : State) : State :=
  if !isMaster s ∨ s.cascade.present = [] ∨ s.phase ≠ .running ∨ !everySpan s 0 (beaconInterval s) then s
  else emit s (.bus (.time (BitVec.ofNat 64 s.mer.count)
    (match s.mer.state with | .unset => 0 | .acquiring => 1 | .locked => 2 | .holdover => 3)
    (BitVec.ofNat 8 s.mer.stratum) s.mer.master (holdFlag s)))

/-- R357: while inst 0 of a follower has an upstream, its loss has not begun. -/
def keepUpstream (s : State) : State :=
  if isMaster s ∧ !s.mer.isMaster ∧ upstreams s ≠ [] then setMer s fun m => { m with upAt := s.clock } else s

/-- One tick with nothing commanded: the lanes send what they send of their own, inst 0 its time to the others, booked RELEASE frames begin,
and time advances. [log 1, DESIGN CHOICE] -/
def tick (s : State) : State := filtersTick (tapTick (tickTime (keepUpstream (sendTime (noteOperating (sendFrames (twelve.foldl portTick s)))))))

end Sys2Proof.Machine
end

