-- ==== Sys2Proof/Safety.lean ====
section
/-! DEFINITION. The terms that claims are stated in: the invariant of the device, and what it means that the
dictionary takes a write and answers it with OK. -/

namespace Sys2Proof.Machine

/-- The invariant: local memory is in its canonical form, addresses strictly rising and nothing listed that
an unlisted byte reads as, and the poisoned lines rise strictly. -/
def Inv (s : State) : Prop := memWf s.mem = true ∧ risingNats s.mem.poison = true

/-- A run is safe when every step of it answers a next state: no command stops the device. -/
def Answers (o : Host.Outcome State Fault Refusal) : Prop := ∃ t, o = .next t

/-- The bookkeeping of the dictionary before a transaction is performed: the host's submit number, or the
count of received frames (0x1010.03), and the session (R441, R463). -/
def received (q : DictReq) (s : State) : State :=
  touchSession
    (match q.path with
     | .host _ => { s with mgmt := { s.mgmt with lastSubmit := some q.xid } }
     | .field _ => bump s 0x1010 3)
    (ownerOf q.path)

/-- R444 checks 1 to 4: an entry that needs authentication has it, and one that is given passes; the flash takes a new high
mark of its counter (R431, R445). -/
def Authorised (q : DictReq) (s : State) : Prop :=
  match q.auth with
  | none => accessOf q.index q.sub ≠ .crit
  | some a => authReason s q.index q.sub (accessOf q.index q.sub) q.value a = none ∧ s.flash.worn = []

/-- The dictionary takes a write now, and every check before the entry's own rule passes (R437, R444, R460):
its frame is one that the device accepts (R434), the dictionary answers, no answer is withheld, the write is no repeat, its entry exists, its path, access class, length,
authentication, scope and range allow it. -/
def WriteTaken (q : DictReq) (s : State) : Prop :=
  pathAccepted s q = true ∧ dictionaryUp s = true ∧ indexAnswers s q.index = true ∧ withheld s = false ∧ s.cascade.storing = [] ∧ q.tooLong = false ∧ q.write = true ∧
  (q.path.isHost = true → s.mgmt.lastSubmit ≠ some q.xid) ∧
  s.mgmt.answers.find? (fun a => a.owner == ownerOf q.path && a.xid == q.xid) = none ∧
  returnReason s q = none ∧ earlyReason q = none ∧ Authorised q s ∧
  scopeReason s q.index q.sub = none ∧ rangeReason q = none

/-- The state that the rule of an entry sees when its write is taken. -/
def atEntry (q : DictReq) (s : State) : State :=
  match q.auth with
  | none => received q s
  | some a => acceptCounter (received q s) a

/-- Everything of the state but the dictionary's own: the numbers it counts in, the Compass processor, the flash
and what was sent. -/
def beside (s : State) : State :=
  { s with regs := [], mgmt := State.reset.mgmt, flash := State.reset.flash, out := [] }

/-- The answer to a write with OK. -/
def okAnswer (w : WriteHdr) (index sub : Nat) : Answer :=
  { owner := ownerOf w.path, xid := w.xid, status := .ok, reason := 0, op := 0x82,
    body := leBytes 2 index ++ leBytes 1 sub ++ [0] }

/-- The write was answered with OK, last of all answers kept. -/
def AnsweredOk (w : WriteHdr) (index sub : Nat) (t : State) : Prop :=
  t.mgmt.answers.getLast? = some (okAnswer w index sub)

/-- A command runs: it answers a next state of which something holds. -/
def Runs (c : Instr) (s : State) (post : State → Prop) : Prop := ∃ t, exec c s = .next t ∧ post t

/-- A write of an entry works: once the dictionary has taken it, the command answers a next state, the write is
answered with OK, everything that `effect` leaves out of its last argument stays as it was (but what the
dictionary's bookkeeping changes), and `post` holds. -/
def WriteWorks (c : Instr) (w : WriteHdr) (index sub : Nat) (value : Bytes) (s : State) (frame : State → State)
    (post : State → Prop) : Prop :=
  WriteTaken (writeReq w index sub value) s →
    Runs c s fun t => AnsweredOk w index sub t ∧ beside t = beside (frame t) ∧ post t

/-- A request was answered, last of all answers kept, with a status and a reason. -/
def AnsweredLast (q : DictReq) (st : Status) (reason : Nat) (t : State) : Prop :=
  ∃ a, t.mgmt.answers.getLast? = some a ∧ a.owner = ownerOf q.path ∧ a.xid = q.xid ∧ a.status = st ∧ a.reason = reason

/-- The rule of the entry refuses a write that passes every check before it: the answer is NOT_PERFORMED, and nothing
beside the dictionary's own state changes. -/
def WriteRefused (c : Instr) (q : DictReq) (s : State) : Prop :=
  WriteTaken q s → Runs c s fun t => (∃ r, AnsweredLast q .notPerformed r t) ∧ beside t = beside s

/-- A port takes a control packet of a type (R267, R276, R297, R302): blocks arrive on it, the packet is a valid control
packet of the type, and the port works and the link epoch is its own, or the type is one taken before that. -/
def ControlTaken (s : State) (p : Nat) (b : BitVec 256) (ctype : Nat) : Prop :=
  blocksCome s p = true ∧ 0xC0 ≤ ctype ∧ controlValid b = true ∧ cByte b 0 = ctype ∧
    (working s p = true ∨ beforeUp ctype = true) ∧
    (anyEpoch ctype = true ∨ cLepoch b = (port s p).link.rxEpoch)

end Sys2Proof.Machine
end

