-- ==== Sys2Proof/Certificates/Slice0/Obligations.lean ====
section
/-! DEFINITION. The statements for the provers. -/

open Sys2Proof Sys2Proof.Machine

/-! ## The queue and the whole machine -/

/-- A step takes the command at the front of the queue and answers what the command answers with the rest. -/
def Obligations.StepRunsFrontCommand : Prop :=
  ∀ (c : Instr) (s : State), step { s with pending := c :: s.pending } = exec c s

/-- No RELEASE frame is booked, and no port has a stage to begin, a shift to end or a lane that failed. -/
def QuietPorts (s : State) : Prop :=
  s.pins.booked = [] ∧
    ∀ p ∈ twelve, (port s p).stepAt = none ∧ (port s p).shifting = none ∧ (port s p).failing = [] ∧ (port s p).failAt = none

/-- The edges that pass the filters of CUT_WARN_N, PWR_GOOD and RESET_N in the tick that comes, on an empty queue, with nothing
else due of its own (R475). -/
def EdgesPass (s : State) (cut good reset : Option PinEdge) : Prop :=
  s.pending = [] ∧ QuietPorts s ∧ s.pins.cutEdge = cut.map (1, ·) ∧ s.pins.goodEdge = good.map (1, ·) ∧
    s.pins.resetEdge = reset.map (1, ·)

/-- On an empty queue one Meridian tick of 250 ps passes (the model's choice, log entries 1 and 47): the local clock
rises by one, the Meridian count by none, one or two (R347, R354). Where nothing is due of its own, the ports send on their
lanes, the operating time is noted for the journal (R430), the TAP looks at its pins (R484), no port changes its state, and
nothing else happens. -/
def Obligations.EmptyQueueTicks : Prop :=
  ∀ s : State, EdgesPass s none none none → ∃ t, step s = .next t ∧ t.clock = s.clock + 1 ∧
    (s.mer.count + 2 < 2 ^ 64 → s.mer.count ≤ t.mer.count ∧ t.mer.count ≤ s.mer.count + 2) ∧
    t = { s with
      clock := t.clock, mer := t.mer, ports := t.ports, lanes := t.lanes, octets := t.octets, out := t.out,
      pins := { s.pins with tap := t.pins.tap }, mgmt := { s.mgmt with journal := t.mgmt.journal }, free := t.free } ∧
    (∀ p, (port t p).state = (port s p).state) ∧ (∃ sent, t.out = s.out ++ sent) ∧
    (∃ x, t.mgmt.journal = s.mgmt.journal ++ x) ∧ t.mer.state = s.mer.state ∧ t.mer.stratum = s.mer.stratum

/-- R416, R475: an edge of CUT_WARN_N, RESET_N or PWR_GOOD only begins to wait at the pin's filter; an edge back before the
filter's time has passed takes it away, so that the shorter pulse has no effect (log entry 4: the ticks count that time). What
an edge does that has passed its filter, HeatAndEnergy and PowerAndReset state. -/
def Obligations.PulsesFiltered : Prop :=
  (∀ s : State, Runs .cutWarnAssert s fun t =>
      t = { s with pins := { s.pins with cutEdge := t.pins.cutEdge } } ∧
      (s.pins.cutWarn = false → s.pins.cutEdge = none → t.pins.cutEdge = some (usMt 1, .fall)) ∧
      (s.pins.cutWarn = true → t.pins.cutEdge = none)) ∧
  (∀ s : State, Runs .cutWarnRelease s fun t =>
      t = { s with pins := { s.pins with cutEdge := t.pins.cutEdge } } ∧
      (s.pins.cutWarn = true → s.pins.cutEdge = none → t.pins.cutEdge = some (usMt 1, .rise none false none)) ∧
      (s.pins.cutWarn = false → t.pins.cutEdge = none)) ∧
  (∀ s : State, Runs .pwrGoodFall s fun t =>
      t = { s with pins := { s.pins with goodEdge := t.pins.goodEdge } } ∧
      (s.pins.pwrGood = true → s.pins.goodEdge = none → t.pins.goodEdge = some (nsMt 100, .fall)) ∧
      (s.pins.pwrGood = false → t.pins.goodEdge = none)) ∧
  (∀ s : State, Runs .resetNAssert s fun t =>
      t = { s with pins := { s.pins with resetEdge := t.pins.resetEdge } } ∧
      (s.pins.resetN = true → s.pins.resetEdge = none → t.pins.resetEdge = some (nsMt 100, .fall)) ∧
      (s.pins.resetN = false → t.pins.resetEdge = none)) ∧
  (∀ (refclk : Bool) (copy : Option TableCopy) (s : State), Runs (.pwrGoodRise refclk copy) s fun t =>
      t = { s with pins := { s.pins with goodEdge := t.pins.goodEdge } } ∧
      (s.pins.pwrGood = false → s.pins.goodEdge = none → t.pins.goodEdge = some (nsMt 100, .rise none refclk copy)) ∧
      (s.pins.pwrGood = true → t.pins.goodEdge = none)) ∧
  (∀ (i : Fin 4) (slot : Fin 8) (refclk : Bool) (copy : Option TableCopy) (s : State),
    Runs (.resetNRelease i slot refclk copy) s fun t =>
      t = { s with pins := { s.pins with resetEdge := t.pins.resetEdge } } ∧
      (s.pins.resetN = false → s.pins.resetEdge = none →
        t.pins.resetEdge = some (nsMt 100, .rise (some (i, slot)) refclk copy)) ∧
      (s.pins.resetN = true → t.pins.resetEdge = none)) ∧
  (∀ (s : State) (n : Nat) (e : PinEdge), s.pending = [] → QuietPorts s → s.pins.cutEdge = some (n + 2, e) →
    s.pins.goodEdge = none → s.pins.resetEdge = none →
    ∃ t, step s = .next t ∧ t.pins.cutEdge = some (n + 1, e) ∧ t.pins.cutWarn = s.pins.cutWarn ∧ t.phase = s.phase)

/-- No command stops the device: every command answers a next state. -/
def Obligations.EveryCommandAnswers : Prop :=
  ∀ (c : Instr) (s : State), Answers (exec c s)

/-- What reset leaves where the spec gives the values: contexts OFF with every counter 0 (R106), UNSET time
(R348), bank 0 ACTIVE and bank 1 FREE (R256), nothing listed in the tables, no fault latched, no command
waiting, and the dictionary's numbers at the defaults of their listings. -/
def Obligations.ResetLeavesDefaults : Prop :=
  (∀ c, (ctx State.reset c).state = .off ∧ (ctx State.reset c).accept = 0 ∧ (ctx State.reset c).failed = 0 ∧
    ∀ k, counterOf (ctx State.reset c) k = 0) ∧
  State.reset.mer.state = .unset ∧ State.reset.tables.st0 = .active ∧ State.reset.tables.st1 = .free ∧
  State.reset.tables.part = [] ∧ State.reset.tables.window = [] ∧ State.reset.tables.rank = [] ∧
  State.reset.tables.inc = [] ∧ State.reset.faults.latch = none ∧ State.reset.pending = [] ∧
  (∀ i j k, regAt State.reset i j k = regDefault i j k) ∧ ∀ p, (port State.reset p).state.works = false

/-- The invariant holds right after reset. -/
def Obligations.ResetHasInvariant : Prop := Inv State.reset

/-- Every step keeps the invariant: memory stays in its canonical form whatever is commanded. -/
def Obligations.StepKeepsInvariant : Prop := ∀ s t : State, Inv s → step s = .next t → Inv t

/-- The commands whose effect reaches local memory: the acceptance of an access by memory, what a Sextant unit
executes (R73, R93, R152, R201, R264), and what may make it write its open lines back (R201, R206, R208, R424). -/
def touchesMemory : Instr → Bool
  | .memoryAccept .. | .atomicExecute _ | .reductionCombine _ | .lineHoldExpiry .. | .sextantFrequencyChange _
  | .meridianMinute | .sextantSlice .. | .cascadeTableUpdate _ => true
  | _ => false

/-- Every other command leaves every byte of local memory, and every poison mark, as it was. -/
def Obligations.OtherCommandsLeaveMemory : Prop :=
  ∀ (c : Instr) (s t : State), touchesMemory c = false → exec c s = .next t → t.mem = s.mem

/-! ## Tables (chapters 02 and 08) -/

/-- The tables alone may change. -/
def onlyTables (s t : State) : State := { s with tables := t.tables }

/-- R23, R24: a shared-table write that the dictionary takes is stored here, and nothing else changes. With no other inst
present it is answered with OK; else it goes to every present inst, and its answer waits until each has stored it. -/
def ShareWorks (c : Instr) (w : WriteHdr) (index sub : Nat) (value : Bytes) (s : State) (u : TableUpdate)
    (post : State → Prop) : Prop :=
  WriteTaken (writeReq w index sub value) s →
    Runs c s fun t => t.tables = storeUpdate s.tables u ∧ post t ∧
      beside { t with tables := s.tables, cascade := s.cascade } = beside s ∧
      (s.cascade.present = [] → AnsweredOk w index sub t ∧ t.cascade = s.cascade) ∧
      (s.cascade.present ≠ [] → Output.bus (.table u) ∈ t.out ∧ t.mgmt.answers = s.mgmt.answers ∧
        t.cascade = { s.cascade with storing := s.cascade.present, writing := some (writeReq w index sub value) })

/-- R36, R53, R254: a partition table entry, a port key flag and a minimum share are stored as written, every
other entry stays; clearing a flag sets its share to 0.

R38, R43, R45: a rank table entry, a window table entry and a window descriptor are stored as written at the
selected index, and sent to the other insts (R24). -/
def Obligations.TablesWritten : Prop :=
  (∀ (w : WriteHdr) (v : BitVec 64) (s : State),
    fld v.toNat 42 17 ≤ 65536 → fld v.toNat 24 18 + fld v.toNat 42 17 ≤ 262144 →
    (bitAt v.toNat 6 = true → fld v.toNat 8 16 ≠ 0 ∧
      ∀ y ∈ s.tables.part, y.1 ≠ fld v.toNat 0 6 → ¬(bitAt y.2.toNat 6 = true ∧ fld y.2.toNat 8 16 = fld v.toNat 8 16)) →
    (bitAt v.toNat 6 = true ∨ partValid s (fld v.toNat 0 6) = false ∨
      ∀ x ∈ s.ctxs, ¬(x.2.partEnt = fld v.toNat 0 6 ∧ x.2.state = .enabled)) →
    WriteWorks (.partitionEntryWrite w v) w 0x3100 1 (leBytes 8 v.toNat) s (onlyTables s) fun t =>
      partValid t (fld v.toNat 0 6) = bitAt v.toNat 6 ∧ partKey t (fld v.toNat 0 6) = fld v.toNat 8 16 ∧
      partRbase t (fld v.toNat 0 6) = fld v.toNat 24 18 ∧ partRcount t (fld v.toNat 0 6) = fld v.toNat 42 17 ∧
      ∀ e, e ≠ fld v.toNat 0 6 → partEntry t e = partEntry s e) ∧
  (∀ (w : WriteHdr) (v : BitVec 32) (s : State),
    fld v.toNat 0 4 ≤ 11 → fld v.toNat 10 2 ≠ 3 → (fld v.toNat 10 2 = 0 ∨ partValid s (fld v.toNat 4 6) = true) →
    WriteWorks (.portKeyWrite w v) w 0x3400 1 (leBytes 4 v.toNat) s (onlyTables s) fun t =>
      keyFlag t (fld v.toNat 0 4) (fld v.toNat 4 6) = fld v.toNat 10 2 ∧
      (fld v.toNat 10 2 = 0 → minShare t (fld v.toNat 0 4) (fld v.toNat 4 6) = 0) ∧
      ∀ n, n ≠ fld v.toNat 0 4 * 64 + fld v.toNat 4 6 →
        tgetD t.tables.keyFlag n 0 = tgetD s.tables.keyFlag n 0 ∧ tgetD t.tables.share n 0 = tgetD s.tables.share n 0) ∧
  (∀ (w : WriteHdr) (v : BitVec 32) (s : State),
    fld v.toNat 0 4 ≤ 11 → (fld v.toNat 10 8 = 0 ∨ keyFlag s (fld v.toNat 0 4) (fld v.toNat 4 6) ≠ 0) →
    shareSum s (fld v.toNat 0 4) - minShare s (fld v.toNat 0 4) (fld v.toNat 4 6) + fld v.toNat 10 8 ≤ 256 →
    WriteWorks (.shareWrite w v) w 0x3A00 1 (leBytes 4 v.toNat) s (onlyTables s) fun t =>
      minShare t (fld v.toNat 0 4) (fld v.toNat 4 6) = fld v.toNat 10 8 ∧
      ∀ n, n ≠ fld v.toNat 0 4 * 64 + fld v.toNat 4 6 → tgetD t.tables.share n 0 = tgetD s.tables.share n 0) ∧
  (∀ (w : WriteHdr) (v : BitVec 32) (s : State), ∀ i, i = wsel s w 0x3200 1 → ∀ h : i < 262144,
    nodeInTorus s (BitVec.ofNat 16 (fld v.toNat 0 16)) = true →
    ShareWorks (.rankEntryWrite w v) w 0x3200 2 (leBytes 4 v.toNat) s (.rank ⟨i, h⟩ (BitVec.ofNat 32 (fld v.toNat 0 17)))
      fun t => rankEntry t i = fld v.toNat 0 17 ∧ ∀ j, j ≠ i → rankEntry t j = rankEntry s j) ∧
  (∀ (w : WriteHdr) (v : BitVec 64) (s : State), ∀ i, i = wsel s w 0x4200 1 → ∀ h : i < 4194304,
    windowTierOk v.toNat = true → windowEntryOk (ownNode s) v.toNat = true →
    ShareWorks (.windowEntryWrite w v) w 0x4200 2 (leBytes 8 v.toNat) s
      (.window ⟨i, h⟩ (BitVec.ofNat 64 (windowEntryMask v.toNat)))
      fun t => windowEntry t i = windowEntryMask v.toNat ∧ ∀ j, j ≠ i → windowEntry t j = windowEntry s j) ∧
  (∀ (w : WriteHdr) (v : BitVec 64) (s : State), ∀ i, i = wsel s w 0x4210 1 → ∀ h : i < 256,
    descriptorOk v.toNat = true →
    ShareWorks (.windowDescriptorWrite w v) w 0x4210 2 (leBytes 8 v.toNat) s
      (.descriptor ⟨i, h⟩ (BitVec.ofNat 64 (fld v.toNat 0 40)))
      fun t => windowDesc t i = fld v.toNat 0 40 ∧ ∀ j, j ≠ i → windowDesc t j = windowDesc s j)

/-- R240, R247, R257: entries of a bank that takes writes are stored as written; a FREE bank whose extents do not
cross a dateline becomes READY, and a READY bank without a scheduled flip FREE again. -/
def Obligations.RoutingBanksWritten : Prop :=
  (∀ (w : WriteHdr) (v : BitVec 8) (s : State), ∀ b, b = wsel s w 0x3700 1 → ∀ i, i = wsel s w 0x3700 2 → i < 65536 → b < 2 →
    bankOpen s b = true → fld v.toNat 0 2 ≠ 3 →
    ¬(fld v.toNat 0 2 = 1 ∧ bitAt v.toNat 3 = true ∧ bitAt v.toNat 2 = false) →
    ¬(fld v.toNat 0 2 = 2 ∧ bitAt v.toNat 2 = true ∧ bitAt v.toNat 3 = false) →
    ShareWorks (.routeEntryWrite w v) w 0x3700 3 [v] s
      (.routeEntry (fin2 b) (BitVec.ofNat 16 i) (BitVec.ofNat 8 (fld v.toNat 0 4))) fun t =>
      tgetD (bankOf t.tables b).routes i 0 = BitVec.ofNat 8 (fld v.toNat 0 4) ∧
      (∀ j, j ≠ i → tgetD (bankOf t.tables b).routes j 0 = tgetD (bankOf s.tables b).routes j 0) ∧
      bankOf t.tables (1 - b) = bankOf s.tables (1 - b)) ∧
  (∀ (w : WriteHdr) (v : BitVec 64) (s : State), ∀ b, b = wsel s w 0x3700 1 → ∀ i, i = wsel s w 0x3710 1 → ∀ h : i < 4096, b < 2 →
    bankOpen s b = true → fld v.toNat 57 7 = 0 → fld v.toNat 38 2 ≠ 3 → ¬(fld v.toNat 38 2 = 0 ∧ 11 < fld v.toNat 40 4) →
    ¬(fld v.toNat 38 2 = 1 ∧ bitAt v.toNat 37 = true) →
    ShareWorks (.exceptionWrite w v) w 0x3710 2 (leBytes 8 v.toNat) s (.exception (fin2 b) ⟨i, h⟩ v) fun t =>
      tgetD (bankOf t.tables b).exceptions i 0 = v ∧
      (∀ j, j ≠ i → tgetD (bankOf t.tables b).exceptions j 0 = tgetD (bankOf s.tables b).exceptions j 0) ∧
      bankOf t.tables (1 - b) = bankOf s.tables (1 - b)) ∧
  (∀ (w : WriteHdr) (v : BitVec 8) (s : State), v.toNat < 2 →
    bankState s.tables v.toNat = .free → extentsCross s v.toNat = false →
    ShareWorks (.bankMarkReady w v) w 0x3800 3 [v] s (.markReady (fin2 v.toNat)) fun t =>
      bankState t.tables v.toNat = .ready ∧ bankState t.tables (1 - v.toNat) = bankState s.tables (1 - v.toNat) ∧
      bankOf t.tables v.toNat = bankOf s.tables v.toNat) ∧
  (∀ (w : WriteHdr) (v : BitVec 8) (s : State), v.toNat < 2 →
    bankState s.tables v.toNat = .ready → s.tables.flipAt = 0 →
    ShareWorks (.bankRelease w v) w 0x3800 0xA [v] s (.release (fin2 v.toNat)) fun t =>
      bankState t.tables v.toNat = .free ∧ bankState t.tables (1 - v.toNat) = bankState s.tables (1 - v.toNat) ∧
      bankOf t.tables v.toNat = bankOf s.tables v.toNat)

/-- R258: a flip is scheduled at a time at least 100 µs ahead, while the other bank is READY, nothing is DRAINING
and no flip is scheduled; and a scheduled flip that is not due is cancelled.

R259, R260, R360: at T, when no event of a lower class goes first, the READY bank becomes ACTIVE and the ACTIVE one DRAINING, the epoch number rises, and no flip
stays scheduled; a DRAINING bank becomes FREE once the quiet time has passed with no old packet held, or at
the drain guard. -/
def Obligations.RoutingTablesFlip : Prop :=
  (∀ (w : WriteHdr) (time : BitVec 64) (s : State), time ≠ 0 →
    bankState s.tables (1 - activeBank s) = .ready → s.tables.flipAt = 0 → drainingBank s = none →
    stamp s + 400000 ≤ time.toNat →
    ShareWorks (.flipSchedule w time) w 0x3800 4 (leBytes 8 time.toNat) s (.flipAt time) fun t =>
      t.tables = { s.tables with flipAt := time.toNat }) ∧
  (∀ (w : WriteHdr) (s : State), s.tables.flipAt ≠ 0 → timeCome s s.tables.flipAt = false →
    ShareWorks (.flipCancel w) w 0x3800 4 (zeros 8) s (.flipAt 0) fun t =>
      t.tables = { s.tables with flipAt := 0 }) ∧
  (∀ (w : WriteHdr) (s : State), s.tables.flipAt = 0 →
    WriteWorks (.flipCancel w) w 0x3800 4 (zeros 8) s (fun _ => s) fun t => t.tables = s.tables) ∧
  (∀ s : State, s.tables.flipAt ≠ 0 → inTurn s 4 s.tables.flipAt = true → ∃ t, exec .epochFlip s = .next t ∧
    bankState t.tables (activeBank s) = .draining ∧ bankState t.tables (1 - activeBank s) = .active ∧
    t.tables.epochNr = (s.tables.epochNr + 1) % 2 ^ 32 ∧ t.tables.flipAt = 0 ∧ t.tables.flipped = s.tables.flipAt ∧
    t = { s with tables := t.tables }) ∧
  (∀ (s : State) (b : Nat) (q : Mt), drainingBank s = some b → s.tables.quiet = some q →
    passed s q (usMt (reg s 0x3800 6)) = true → ∃ t, exec .drainingBankQuiet s = .next t ∧
    bankState t.tables b = .free ∧ bankState t.tables (1 - b) = bankState s.tables (1 - b) ∧
    t = { s with tables := t.tables }) ∧
  (∀ (s : State) (b : Nat), drainingBank s = some b →
    timeCome s (s.tables.flipped + usMt (reg s 0x3800 5)) = true → ∃ t, exec .drainGuardExpiry s = .next t ∧
    bankState t.tables b = .free)

/-- R233, R234, R236, R237: a port's direction is written while it does not work, and its levels then follow
from the direction; a dateline is written while no port of its dimension works. While the selected port works a write
of its direction or of a level is refused, and so is one of a dateline while a port of its dimension works. -/
def Obligations.DirectionsWritten : Prop :=
  (∀ (w : WriteHdr) (v : BitVec 8) (s : State), ∀ p, p = wsel s w 0x3600 1 → p ≤ 11 → v.toNat ≤ 6 → working s p = false →
    WriteWorks (.portDirectionWrite w v) w 0x3600 2 [v] s (fun _ => s) fun t =>
      dirOf t p = v.toNat ∧ (∀ q, q ≤ 11 → q ≠ p → dirOf t q = dirOf s q) ∧
      lout t p = defaultLout t p ∧ lin t p = defaultLin t p) ∧
  (∀ (w : WriteHdr) (d : Fin 3) (v : BitVec 8) (s : State), v.toNat < torusSize s d →
    (∀ p, p ∈ twelve → inDim s d p = true → working s p = false) →
    WriteWorks (.datelineWrite w d v) w (0x3600) (5 + d.val) [v] s (fun _ => s) fun t =>
      dateline t d = v.toNat) ∧
  (∀ (w : WriteHdr) (v : BitVec 8) (l : BitVec 16) (s : State), working s (wsel s w 0x3600 1) = true →
    WriteRefused (.portDirectionWrite w v) (writeReq w 0x3600 2 [v]) s ∧
    WriteRefused (.dictionaryWrite w 0x3600 3 (leBytes 2 l.toNat)) (writeReq w 0x3600 3 (leBytes 2 l.toNat)) s ∧
    WriteRefused (.dictionaryWrite w 0x3600 4 (leBytes 2 l.toNat)) (writeReq w 0x3600 4 (leBytes 2 l.toNat)) s) ∧
  (∀ (w : WriteHdr) (d : Fin 3) (v : BitVec 8) (p : Nat) (s : State), p ∈ twelve → inDim s d p = true →
    working s p = true → WriteRefused (.datelineWrite w d v) (writeReq w 0x3600 (5 + d.val) [v]) s)

/-- R37: a partition table write beyond the rank space, with too many ranks, or with the key of another valid entry is
refused.

R467: a write through the host window of an entry that takes writes from the field network only is refused with DENIED,
reason 3, and no slot's counter changes. -/
def Obligations.WritesRefused : Prop :=
  (∀ (w : WriteHdr) (v : BitVec 64) (s : State),
    (262144 < fld v.toNat 24 18 + fld v.toNat 42 17 ∨ 65536 < fld v.toNat 42 17 ∨
      (bitAt v.toNat 6 = true ∧ ∃ y ∈ s.tables.part, y.1 ≠ fld v.toNat 0 6 ∧ bitAt y.2.toNat 6 = true ∧
        fld y.2.toNat 8 16 = fld v.toNat 8 16)) →
    WriteRefused (.partitionEntryWrite w v) (writeReq w 0x3100 1 (leBytes 8 v.toNat)) s) ∧
  (∀ (w : WriteHdr) (e : Nat × Nat) (v : Bytes) (s : State),
    e ∈ [(0x2200, 7), (0x6400, 9), (0x6400, 0xB), (0x6000, 8), (0x6010, 5), (0x6100, 1), (0x6100, 5), (0x6200, 1)] →
    w.path.isHost = true → dictionaryUp s = true → indexAnswers s e.1 = true → withheld s = false → s.flash.returned = false →
    s.mgmt.lastSubmit ≠ some w.xid →
    s.mgmt.answers.find? (fun a => a.owner == ownerOf w.path && a.xid == w.xid) = none →
    Runs (.dictionaryWrite w (BitVec.ofNat 16 e.1) (BitVec.ofNat 8 e.2) v) s fun t =>
      AnsweredLast (writeReq w e.1 e.2 v) .denied 3 t ∧ t.mgmt.counters = s.mgmt.counters ∧ beside t = beside s)

/-! ## Contexts and commands (chapter 04) -/

/-- One context and what is sent out may change. -/
def onlyCtx (c : Nat) (s t : State) : Prop :=
  t = { s with ctxs := t.ctxs, out := t.out } ∧ ∀ d, d ≠ c → ctx t d = ctx s d

/-- A number of the dictionary rose by one, wrapping at its width. -/
def Counted (index sub sel : Nat) (s t : State) : Prop :=
  regAt t index sub sel = regAt (bumpAt s index sub sel) index sub sel

/-- The next command of an ENABLED context is `b`, of a type, and R112 lets it be accepted. -/
def Acceptable (s : State) (c type : Nat) (b : BitVec 512) : Prop :=
  s.phase = .running ∧ (ctx s c).state = .enabled ∧ nextCommand (ctx s c) = some b ∧ inProgress (ctx s c) < 16 ∧
    cmdType b = type

/-- R110: the command was accepted: its slot is empty, A rose by one. -/
def SlotTaken (c : Nat) (s t : State) : Prop :=
  (ctx t c).accept = ((ctx s c).accept + 1) % 2 ^ 64 ∧ tget (ctx t c).slots ((ctx s c).accept % 16) = none

/-- R132: a completion counter of a context rose by one. -/
def Raised (c k : Nat) (s t : State) : Prop :=
  counterOf (ctx t c) k = (counterOf (ctx s c) k + 1) % 2 ^ 64

/-- R133: a command completed with a status other than OK: counted, and its counter raised. -/
def CompletedBadly (c cctr : Nat) (s t : State) : Prop :=
  (ctx t c).failed = ((ctx s c).failed + 1) % 2 ^ 64 ∧ Raised c cctr s t

/-- R109, R110, R111: a 64-byte write of an empty slot with the number the slot expects is held there; a write above
the slots is only counted; a write to a context that is not ENABLED is discarded and counted; any other sets no
slot and is recorded as a failure. -/
def Obligations.SlotWrites : Prop :=
  (∀ (c off : Fin 4096) (thread : BitVec 16) (len : Nat) (data : Bytes) (s : State), s.phase = .running →
    exec (.slotWrite c off (.read thread len) data) s = .next (emit s (.loadDone thread .ok (zeros len) 0))) ∧
  (∀ (c off : Fin 4096) (en : List Bool) (data : Bytes) (s : State), s.phase = .running → 1024 ≤ off.val →
    exec (.slotWrite c off (.write en) data) s = .next (bump s 0x4400 1)) ∧
  (∀ (c off : Fin 4096) (en : List Bool) (data : Bytes) (s : State), s.phase = .running → off.val < 1024 →
    (ctx s c).state ≠ .enabled → exec (.slotWrite c off (.write en) data) s = .next (bump s 0x4400 2)) ∧
  (∀ (c off : Fin 4096) (data : Bytes) (s : State) (n : Nat), s.phase = .running → (ctx s c).state = .enabled →
    off.val < 1024 → off.val % 64 = 0 → data.length = 64 → tget (ctx s c).slots (off.val / 64) = none →
    (ctx s c).accept ≤ n → n < (ctx s c).accept + 16 → n % 16 = off.val / 64 →
    cmdSeq (BitVec.ofNat 512 (leNat data)) = n % 65536 →
    exec (.slotWrite c off (.write (List.replicate 64 true)) data) s =
      .next (setCtx s c { ctx s c with
        slots := tput (ctx s c).slots (off.val / 64) (BitVec.ofNat 512 (leNat data)) })) ∧
  (∀ (c off : Fin 4096) (en : List Bool) (data : Bytes) (s : State), s.phase = .running → (ctx s c).state = .enabled →
    off.val < 1024 → (off.val % 64 ≠ 0 ∨ data.length ≠ 64 ∨ (tget (ctx s c).slots (off.val / 64)).isSome = true) →
    Runs (.slotWrite c off (.write en) data) s fun t => Counted 0x4400 1 0 s t ∧
      (ctx t c).failed = ((ctx s c).failed + 1) % 2 ^ 64 ∧ (ctx t c).slots = (ctx s c).slots ∧
      t = { s with ctxs := t.ctxs, regs := t.regs, free := t.free } ∧ ∀ d, d ≠ c.val → ctx t d = ctx s d)

/-- An accepted data command that begins: it is in progress, and its first piece, a LOAD of the source (a STORE for
FILL) of at most 512 bytes, waits for issue (R119, R122, R123). -/
def BeginsMoving (c : Nat) (b : BitVec 512) (side : Side) (kind : OpKind) (s t : State) : Prop :=
  SlotTaken c s t ∧
  (∃ m, (ctx t c).cmds = (ctx s c).cmds ++ [m] ∧ m.num = (ctx s c).accept ∧ m.bytes = b ∧ m.phase = .issuing) ∧
  (∃ op, t.held = s.held ++ [op] ∧ op.ctx = c ∧ op.kind = kind ∧ op.side = side ∧ op.pos = 0 ∧
    1 ≤ op.len ∧ op.len ≤ 512) ∧
  t = { s with ctxs := t.ctxs, held := t.held, nextId := s.nextId + 1 } ∧ ∀ d, d ≠ c → ctx t d = ctx s d

/-- R116, R119, R121 to R124: COPY, FILL and STRIDED that pass their checks begin with their first piece; one that
fails a check completes at once with the status of the check. -/
def Obligations.DataCommandsBegin : Prop :=
  (∀ (c : Fin 4096) (b : BitVec 512) (s : State) (src dst : Side), Acceptable s c 1 b →
    commandCheck s c b = .ok (src, dst) → Runs (.copy c) s (BeginsMoving c b src .load s)) ∧
  (∀ (c : Fin 4096) (b : BitVec 512) (s : State) (src dst : Side), Acceptable s c 2 b →
    commandCheck s c b = .ok (src, dst) → Runs (.fill c) s (BeginsMoving c b dst .store s)) ∧
  (∀ (c : Fin 4096) (b : BitVec 512) (s : State) (src dst : Side), Acceptable s c 3 b →
    commandCheck s c b = .ok (src, dst) → Runs (.strided c) s (BeginsMoving c b src .load s)) ∧
  (∀ (c : Fin 4096) (b : BitVec 512) (s : State) (st : Status) (i : Instr) (k : Nat),
    (i, k) ∈ [(Instr.copy c, 1), (.fill c, 2), (.strided c, 3)] → Acceptable s c k b →
    commandCheck s c b = .error st → st ≠ .ok →
    Runs i s fun t => SlotTaken c s t ∧ CompletedBadly c (cmdCctr b) s t ∧ (ctx t c).cmds = (ctx s c).cmds ∧ onlyCtx c s t)

/-- R125, R126, R360: a STAGE_IN whose START has come, with no event of a lower class waiting, begins at once; another waits in the engine's
queue of 256; at START it begins; a DEADLINE that passes is counted once in 0x4300.02.

R127: a FENCE waits in progress; it completes once every earlier command has and its counter stands high enough. -/
def Obligations.StageInAndFenceRun : Prop :=
  (∀ (c : Fin 4096) (b : BitVec 512) (s : State) (src dst : Side), Acceptable s c 4 b →
    commandCheck s c b = .ok (src, dst) → inTurn s 9 (cmdB b 40 8) = true →
    Runs (.stageIn c) s (BeginsMoving c b src .load s)) ∧
  (∀ (c : Fin 4096) (b : BitVec 512) (s : State) (src dst : Side), Acceptable s c 4 b →
    commandCheck s c b = .ok (src, dst) → inTurn s 9 (cmdB b 40 8) = false → engineWaiting s c < 256 →
    Runs (.stageIn c) s fun t => SlotTaken c s t ∧ onlyCtx c s t ∧
      ∃ m, (ctx t c).cmds = (ctx s c).cmds ++ [m] ∧ m.num = (ctx s c).accept ∧ m.bytes = b ∧ m.phase = .waiting) ∧
  (∀ (c : Fin 4096) (num : Nat) (m : Cmd) (s : State), cmdOf s c num = some m → m.phase = .waiting → m.pos = 0 →
    m.pos < m.total → cmdType m.bytes = 4 → inTurn s 9 (cmdB m.bytes 40 8) = true →
    Runs (.stageInStart c num) s fun t =>
      (∃ n, cmdOf t c num = some n ∧ n.phase = .issuing) ∧
      (∃ op, t.held = s.held ++ [op] ∧ op.ctx = c.val ∧ op.kind = .load ∧ op.side = m.src ∧ op.pos = 0) ∧
      t = { s with ctxs := t.ctxs, held := t.held, nextId := s.nextId + 1 } ∧ ∀ d, d ≠ c.val → ctx t d = ctx s d) ∧
  (∀ (c : Fin 4096) (num : Nat) (m : Cmd) (s : State), cmdOf s c num = some m → cmdType m.bytes = 4 →
    cmdB m.bytes 48 8 ≠ 0 → inTurn s 9 (cmdB m.bytes 48 8) = true → m.late = false →
    Runs (.stageInDeadline c num) s fun t => Counted 0x4300 2 0 s t ∧ cmdOf t c num = some { m with late := true } ∧
      t = { s with ctxs := t.ctxs, regs := t.regs, faults := t.faults } ∧ ∀ d, d ≠ c.val → ctx t d = ctx s d) ∧
  (∀ (c : Fin 4096) (b : BitVec 512) (s : State), Acceptable s c 5 b →
    Runs (.fence c) s fun t => SlotTaken c s t ∧
      (ctx t c).cmds = (ctx s c).cmds ++ [newCmd (ctx s c).accept b .fencing] ∧ onlyCtx c s t) ∧
  (∀ (c : Fin 4096) (num : Nat) (m : Cmd) (s : State), cmdOf s c num = some m → m.phase = .fencing → s.phase ≠ .cut →
    (∀ y ∈ (ctx s c).cmds, m.num ≤ y.num) →
    (bitAt m.bytes.toNat 71 = true → cmdB m.bytes 16 8 ≤ counterOf (ctx s c) (fld m.bytes.toNat 64 6)) →
    Runs (.fenceComplete c num) s fun t => Raised c (cmdCctr m.bytes) s t ∧ cmdOf t c num = none ∧
      (ctx t c).failed = (ctx s c).failed ∧ onlyCtx c s t) ∧
  (∀ (c : Fin 4096) (num : Nat) (m : Cmd) (s : State) (y : Cmd), cmdOf s c num = some m → y ∈ (ctx s c).cmds →
    y.num < m.num → exec (.fenceComplete c num) s = .next s)

/-- R115, R130, R131, R137: PHASE_HINT is passed on and completes; ARM arms a threshold that is not met yet, fires
one that is, and disarms; a reserved TYPE completes with NOT_PERFORMED. -/
def Obligations.ImmediateCommands : Prop :=
  (∀ (c : Fin 4096) (b : BitVec 512) (s : State), Acceptable s c 8 b → phaseHintOk b = true →
    Runs (.phaseHint c) s fun t => SlotTaken c s t ∧ Output.hint b (instId s) c ∈ t.out ∧ Raised c (cmdCctr b) s t ∧
      (ctx t c).failed = (ctx s c).failed ∧ onlyCtx c s t) ∧
  (∀ (c : Fin 4096) (b : BitVec 512) (s : State), Acceptable s c 8 b → phaseHintOk b = false →
    Runs (.phaseHint c) s fun t => SlotTaken c s t ∧ CompletedBadly c (cmdCctr b) s t ∧ onlyCtx c s t) ∧
  (∀ (c : Fin 4096) (b : BitVec 512) (s : State), Acceptable s c 9 b → bitAt b.toNat 71 = true →
    Runs (.arm c) s fun t => SlotTaken c s t ∧ tget (ctx t c).arms (fld b.toNat 64 2) = none ∧
      Raised c (cmdCctr b) s t ∧ onlyCtx c s t) ∧
  (∀ (c : Fin 4096) (b : BitVec 512) (s : State), Acceptable s c 9 b → bitAt b.toNat 71 = false →
    counterOf (ctx s c) (fld b.toNat 72 6) + 1 < cmdB b 16 8 →
    Runs (.arm c) s fun t => SlotTaken c s t ∧ Raised c (cmdCctr b) s t ∧ onlyCtx c s t ∧
      tget (ctx t c).arms (fld b.toNat 64 2) =
        some { ctr := fld b.toNat 72 6, vec := fld b.toNat 80 11, val := cmdB b 16 8 }) ∧
  (∀ (c : Fin 4096) (b : BitVec 512) (s : State), Acceptable s c 9 b → bitAt b.toNat 71 = false →
    (ctx s c).mirror = 0 → cmdB b 16 8 ≤ counterOf (ctx s c) (fld b.toNat 72 6) →
    tget (ctx s c).arms (fld b.toNat 64 2) = none →
    Runs (.arm c) s fun t => SlotTaken c s t ∧ tget (ctx t c).arms (fld b.toNat 64 2) = none ∧
      Output.interrupt (fld b.toNat 80 11) c ∈ t.out ∧ Raised c (cmdCctr b) s t ∧ onlyCtx c s t) ∧
  (∀ (c : Fin 4096) (b : BitVec 512) (s : State) (type : Nat), Acceptable s c type b → (type = 0 ∨ 10 ≤ type) →
    Runs (.reservedType c) s fun t => SlotTaken c s t ∧ CompletedBadly c (cmdCctr b) s t ∧ onlyCtx c s t)

/-- Nothing of a context is in flight, and no collective is its own. -/
def Quiet (s : State) (c : Nat) : Prop :=
  (ctx s c).slots = [] ∧ (ctx s c).cmds = [] ∧ (∀ o ∈ s.held, o.ctx ≠ c) ∧ (∀ x ∈ s.tracks, x.2.op.ctx ≠ c) ∧
    ∀ x ∈ s.colls, x.2.ctx ≠ c

/-- R108: a context has entered HALTED: its generation rose by one and its thresholds are disarmed. -/
def Halted (c : Nat) (s t : State) : Prop :=
  (ctx t c).state = .halted ∧ (ctx t c).gen = (ctx s c).gen + 1 ∧ (ctx t c).arms = [] ∧
    (ctx t c).counters = (ctx s c).counters ∧ (ctx t c).accept = (ctx s c).accept

/-- R106, R107, R108, R144: enabling an OFF context whose partition entry is valid clears its counters and its
first failure; disabling one with nothing in flight and no mirror halts it; releasing a HALTED one turns it OFF.

R144, R145: a DRAINING context without mirror halts once its last operation has been answered, and when its drain
time has passed with nothing left open; one with a mirror first has the HALTED image written. -/
def Obligations.ContextsChangeState : Prop :=
  (∀ (w : WriteHdr) (s : State), ∀ c, c = wsel s w 0x4000 1 → (ctx s c).state = .off →
    partValid s (ctx s c).partEnt = true →
    WriteWorks (.contextEnable w) w 0x4000 3 [1] s (fun t => { s with ctxs := t.ctxs }) fun t =>
      (ctx t c).state = .enabled ∧ (ctx t c).accept = 0 ∧ (ctx t c).failed = 0 ∧ (ctx t c).first = none ∧
      (∀ k, counterOf (ctx t c) k = 0) ∧ (ctx t c).gen = (ctx s c).gen ∧ ∀ d, d ≠ c → ctx t d = ctx s d) ∧
  (∀ (w : WriteHdr) (s : State), ∀ c, c = wsel s w 0x4000 1 → (ctx s c).state = .enabled → (ctx s c).mirror = 0 →
    Quiet s c → WriteTaken (writeReq w 0x4000 3 [2]) s →
    Runs (.contextDisable w) s fun t => AnsweredOk w 0x4000 3 t ∧ Halted c s t ∧ ∀ d, d ≠ c → ctx t d = ctx s d) ∧
  (∀ (w : WriteHdr) (s : State), ∀ c, c = wsel s w 0x4000 1 → (ctx s c).state = .halted →
    WriteWorks (.contextRelease w) w 0x4000 3 [3] s (fun t => { s with ctxs := t.ctxs }) fun t =>
      (ctx t c).state = .off ∧ (ctx t c).gen = (ctx s c).gen ∧ ∀ d, d ≠ c → ctx t d = ctx s d) ∧
  (∀ (c : Fin 4096) (s : State), (ctx s c).state = .draining → (ctx s c).halting = false → (ctx s c).mirror = 0 →
    Quiet s c → Runs (.contextDrainComplete c) s fun t => Halted c s t ∧ ∀ d, d ≠ c.val → ctx t d = ctx s d) ∧
  (∀ (c : Fin 4096) (s : State), (ctx s c).state = .draining → (ctx s c).halting = false → (ctx s c).mirror = 0 →
    Quiet s c → (ctx s c).drainAt + (ctx s c).drainFor ≤ s.clock →
    Runs (.drainTimeExpiry c) s fun t => Halted c s t ∧ ∀ d, d ≠ c.val → ctx t d = ctx s d) ∧
  (∀ (c : Fin 4096) (s : State), (ctx s c).state = .draining → s.clock < (ctx s c).drainAt + (ctx s c).drainFor →
    exec (.drainTimeExpiry c) s = .next s) ∧
  (∀ (c : Fin 4096) (s : State), (ctx s c).state = .draining → (ctx s c).halting = false → (ctx s c).mirror ≠ 0 →
    (ctx s c).mirrorOut = none → s.phase ≠ .cut → Quiet s c →
    Runs (.contextDrainComplete c) s fun t => (ctx t c).state = .draining ∧ (ctx t c).halting = true ∧
      Output.mirror c (ctx s c).mirror (mirrorImage (ctx s c) .halted ((ctx s c).gen + 1)) ∈ t.out)

/-- R135, R136, R137: a mirrored change is written to the mirror address; when memory has accepted it, the interrupts
that waited for it are sent in order; an error leaves them waiting for the next write and is reported. A write that waits
for the outstanding one goes out with the values of that moment (log entry 53). -/
def Obligations.MirrorWrites : Prop :=
  (∀ (c : Fin 4096) (s : State), (ctx s c).mirror ≠ 0 → (ctx s c).mirrorDue.isSome = true → (ctx s c).halting = false →
    ((ctx s c).state = .enabled ∨ (ctx s c).state = .draining) → (ctx s c).mirrorOut = none → s.phase ≠ .cut →
    exec (.mirrorWrite c) s = .next (emit (setCtx s c { ctx s c with
        fired := [], mirrorDue := none, mirrorNext := false,
        mirrorOut := some (mirrorImage (ctx s c) (ctx s c).state (ctx s c).gen, (ctx s c).fired) })
      (.mirror c (ctx s c).mirror (mirrorImage (ctx s c) (ctx s c).state (ctx s c).gen)))) ∧
  (∀ (c : Fin 4096) (s : State) (w : Bytes × List Nat), (ctx s c).mirrorOut = some w → (ctx s c).mirrorNext = false →
    (ctx s c).halting = false → s.phase ≠ .cut →
    Runs (.mirrorWriteAccepted c) s fun t => t.out = s.out ++ w.2.map (fun v => .interrupt v c) ∧
      (ctx t c) = { ctx s c with mirrorOut := none } ∧ onlyCtx c s t) ∧
  (∀ (c : Fin 4096) (s : State) (w : Bytes × List Nat), (ctx s c).mirrorOut = some w → (ctx s c).mirrorNext = false →
    (ctx s c).halting = true → s.phase ≠ .cut → Runs (.mirrorWriteAccepted c) s (Halted c s)) ∧
  (∀ (c : Fin 4096) (s : State) (w : Bytes × List Nat), (ctx s c).mirrorOut = some w → (ctx s c).mirrorNext = false →
    (ctx s c).halting = false → awake s = true →
    Runs (.mirrorWriteError c) s fun t =>
      (ctx t c) = { ctx s c with mirrorOut := none, fired := w.2 ++ (ctx s c).fired } ∧
      Counted 0x7100 2 (sourceNo 3 (engineOf c)) s t ∧
      t = { s with ctxs := t.ctxs, regs := t.regs, faults := t.faults } ∧ ∀ d, d ≠ c.val → ctx t d = ctx s d) ∧
  (∀ (c : Fin 4096) (s : State) (w : Bytes × List Nat), (ctx s c).mirrorOut = some w → (ctx s c).mirrorNext = true →
    (ctx s c).halting = false → (ctx s c).mirror ≠ 0 → s.phase ≠ .cut →
    Runs (.mirrorWriteAccepted c) s fun t => onlyCtx c s t ∧
      (ctx t c).mirrorOut = some (mirrorImage (ctx s c) (ctx s c).state (ctx s c).gen, (ctx s c).fired) ∧
      t.out = s.out ++ w.2.map (fun v => .interrupt v c) ++
        [.mirror c (ctx s c).mirror (mirrorImage (ctx s c) (ctx s c).state (ctx s c).gen)])

/-! ## The host port and the requester (chapters 02 and 03) -/

/-- An event of a source was counted (0x7100.02). -/
def CountedFault (cls idx : Nat) (s t : State) : Prop := Counted 0x7100 2 (sourceNo cls idx) s t

/-- What a report changes besides what is named. -/
def onlyReported (s t : State) : State := { s with out := t.out, regs := t.regs, faults := t.faults }

/-- An aperture request that R79's first checks pass. -/
def ApertureGood (s : State) (h : HostReq) (atomic : Bool) (side : Side) : Prop :=
  s.phase = .running ∧ apTag h.addr = 0xE ∧ hostHeld s h = false ∧ apertureCheck s h atomic = .ok side

/-- The command does what issuing a new operation does, once it is held under the next number. -/
def TriesToIssue (i : Instr) (s : State) (is : Op → Prop) : Prop :=
  Runs i s fun t => ∃ op, op.id = s.nextId ∧ is op ∧
    exec (.operationIssue s.nextId) { s with held := s.held ++ [op], nextId := s.nextId + 1 } = .next t

/-- R33, R490: a request to an address that the device does not serve is answered with NOT_PERFORMED, zeros for a
read, and reported; no operation begins.

R71, R72, R81: an aperture read is one LOAD or ATOMIC_FETCH, a write one STORE for a run of enabled bytes (none:
done at once) or an ATOMIC_POST; it is tried at once. One that a check of R79 fails is answered with the status
of the check, and counted for its context. -/
def Obligations.HostRequests : Prop :=
  (∀ (h : HostReq) (a : Option AtomicArgs) (s : State), s.phase = .running → apTag h.addr ≠ 0xE →
    Runs (.apertureRead h a) s fun t => t.out = s.out ++ [.loadDone h.thread .notPerformed (zeros h.len) 0] ∧
      CountedFault 0xF h.chan s t ∧ t = onlyReported s t) ∧
  (∀ (h : HostReq) (a : Option AtomicArgs) (en : List Bool) (d : Bytes) (pty : Bool) (s : State), s.phase = .running →
    apTag h.addr ≠ 0xE →
    Runs (.apertureWrite h a en d pty) s fun t => t.out = s.out ++ [.storeDone h.thread .notPerformed] ∧
      CountedFault 0xF h.chan s t ∧ t = onlyReported s t) ∧
  (∀ (chan : Fin 8) (addr : BitVec 64) (thread : BitVec 16) (s : State), s.phase = .running →
    Runs (.hostRequestError chan addr none thread) s fun t => t.out = s.out ++ [.storeDone thread .notPerformed] ∧
      CountedFault 0xF chan s t ∧ t = onlyReported s t) ∧
  (∀ (chan : Fin 8) (addr : BitVec 64) (len : Nat) (thread : BitVec 16) (s : State), s.phase = .running →
    Runs (.hostRequestError chan addr (some len) thread) s fun t =>
      t.out = s.out ++ [.loadDone thread .notPerformed (zeros len) 0] ∧
      CountedFault 0xF chan s t ∧ t = onlyReported s t) ∧
  (∀ (h : HostReq) (a : Option AtomicArgs) (s : State) (side : Side), ApertureGood s h a.isSome side →
    TriesToIssue (.apertureRead h a) s fun op =>
      op.kind = (if a.isSome then .atomicFetch else .load) ∧ op.ctx = h.ctx.val ∧ op.side = side ∧
      op.window = apWindow h.addr ∧ op.offset = apOffset h.addr ∧ op.len = h.len ∧ op.strict = h.strict) ∧
  (∀ (h : HostReq) (en : List Bool) (d : Bytes) (s : State) (side : Side) (o l : Nat), ApertureGood s h false side →
    enabledRuns (enablesOf en h.len) 0 = [(o, l)] → dataShapeOk (apOffset h.addr + o) l = true →
    TriesToIssue (.apertureWrite h none en d false) s fun op =>
      op.kind = .store ∧ op.ctx = h.ctx.val ∧ op.side = side ∧
      op.offset = apOffset h.addr + o ∧ op.len = l ∧ op.data = ((padTo h.len d).drop o).take l ∧ op.poison = 0) ∧
  (∀ (h : HostReq) (a : AtomicArgs) (en : List Bool) (d : Bytes) (s : State) (side : Side), ApertureGood s h true side →
    TriesToIssue (.apertureWrite h (some a) en d false) s fun op =>
      op.kind = .atomicPost ∧ op.ctx = h.ctx.val ∧ op.side = side ∧ op.args = a ∧ op.offset = apOffset h.addr) ∧
  (∀ (h : HostReq) (en : List Bool) (d : Bytes) (s : State) (side : Side), ApertureGood s h false side →
    enabledRuns (enablesOf en h.len) 0 = [] →
    exec (.apertureWrite h none en d false) s = .next (emit s (.storeDone h.thread .ok))) ∧
  (∀ (h : HostReq) (a : Option AtomicArgs) (s : State) (st : Status), s.phase = .running → apTag h.addr = 0xE →
    hostHeld s h = false → apertureCheck s h a.isSome = .error st → st ≠ .ok → st ≠ .poisoned →
    Runs (.apertureRead h a) s fun t => t.out = s.out ++ [.loadDone h.thread st (zeros h.len) 0] ∧
      (ctx t h.ctx).apFails = ((ctx s h.ctx).apFails + 1) % 2 ^ 64 ∧
      CountedFault 3 (engineOf h.ctx) s t ∧ t = { onlyReported s t with ctxs := t.ctxs } ∧
      ∀ d, d ≠ h.ctx.val → ctx t d = ctx s d)

/-- R79 to R82, R219: an operation that no rule holds back takes the next entry of its context's tracking block and
goes into the store: charged to the egress share of its port, or, looped back, to the loop-back account; or over the
cascade bus to a stripe of another inst (R342). It must be its turn (R113). Its
block records the context's generation, and closes with its 64th entry.

R80, R82: a block whose context has issued nothing for 256 ns closes; with no open entry it returns to the pool in
its next round, or is held 10 ms; at the end of the hold it returns. -/
def Obligations.OperationsIssuedAndBlocksClosed : Prop :=
  (∀ (id : Nat) (s s1 : State) (op0 op : Op) (b : Nat), heldOp s id = some op0 → s.phase = .running →
    (ctx s op0.ctx).state = .enabled → fenced s op0 = false → behind s op0 = false → op0.strict = false → itsTurn s op0 = true →
    withMessage s op0 = some (s1, op) → creditOk s1 op = true → nextBlock s1 op.ctx = some b →
    (block s1 b).used < 64 →
    (gate s1 op (requestHeader s1 op (b * 64 + (block s1 b).used) (block s1 b).round)
        (footprint (requestPayload op).length) = .loop ∨
      ∃ p vc, gate s1 op (requestHeader s1 op (b * 64 + (block s1 b).used) (block s1 b).round)
        (footprint (requestPayload op).length) = .send p vc) →
    Runs (.operationIssue id) s fun t =>
      (∃ tr, tget t.tracks (b * 64 + (block s1 b).used) = some tr ∧ tr.op = op ∧ tr.round = (block s1 b).round ∧
        tr.gen = (ctx s1 op.ctx).gen) ∧
      ((∃ x ∈ t.pkts, x.own = some (b * 64 + (block s1 b).used)) ∨
        ∃ i q h, Output.cascadePacket i (some q) h (requestPayload op) ∈ t.out) ∧
      (block t b).used = (block s1 b).used + 1 ∧ (block t b).closed = decide (63 ≤ (block s1 b).used) ∧
      (block t b).owner = some op.ctx) ∧
  (∀ (b : Fin 1024) (s : State), (block s b).owner.isSome = true → (block s b).closed = false →
    (block s b).last + 1024 ≤ s.clock → blockBusy s b = true →
    exec (.trackingBlockClose b) s = .next (setBlock s b { block s b with closed := true })) ∧
  (∀ (b : Fin 1024) (s : State), (block s b).owner.isSome = true → (block s b).closed = false →
    (block s b).last + 1024 ≤ s.clock → blockBusy s b = false →
    Runs (.trackingBlockClose b) s fun t => t = { s with blocks := t.blocks } ∧ (block t b).owner = none ∧
      (if (block s b).stale then (block t b).hold = some s.clock ∧ (block t b).round = (block s b).round
       else block t b = { freshBlock with round := ((block s b).round + 1) % 64 }) ∧
      ∀ c, c ≠ b.val → block t c = block s c) ∧
  (∀ (b : Fin 1024) (s : State) (since : Nat), (block s b).hold = some since → since + 40000000 ≤ s.clock →
    (instReset s = false ∨ (block s b).stale = true) →
    exec (.trackingHoldExpiry b) s =
      .next (setBlock s b { freshBlock with round := ((block s b).round + 1) % 64 }))

/-! ## The target and the requester's answers (chapter 03) -/

/-- A stored request that nothing holds back, and the place in local memory that R47 finds for it. -/
def Servable (s : State) (id op : Nat) (x : Pkt) (p : Place) : Prop :=
  requestAt s id op = some x ∧ roomToAnswer s x = true ∧ streamBehind s x = false ∧
    translateRequest s x.header (isLoop x) = .ok (.here p)

/-- R47, R70, R88, R95, R180, R212: a LOAD or a STORE without notification that leaves the ingress region becomes one
access at the local address that its translation finds, its packet stays charged; an atomic goes to the queue of its
Sextant unit; a NOTIFY raises its counter and is acknowledged. -/
def Obligations.RequestsReachMemory : Prop :=
  (∀ (id : Nat) (s : State) (x : Pkt) (p : Place), Servable s id opLoad x p → streamElsewhere s x p.ctrl = false →
    Runs (.loadRequest id) s fun t => ∃ a, t = { s with accesses := s.accesses ++ [a], nextId := s.nextId + 1 } ∧
      a.id = s.nextId ∧ a.kind = .load ∧ a.pkt = some id ∧ a.header = x.header ∧ a.addr = p.addr ∧
      a.len = hLen x.header ∧ a.drained = false) ∧
  (∀ (id : Nat) (s : State) (x : Pkt) (p : Place), Servable s id opStore x p → streamElsewhere s x p.ctrl = false →
    hNotify x.header = false →
    Runs (.storeRequest id) s fun t => ∃ a, t = { s with accesses := s.accesses ++ [a], nextId := s.nextId + 1 } ∧
      a.id = s.nextId ∧ a.kind = .store ∧ a.pkt = some id ∧ a.header = x.header ∧ a.addr = p.addr ∧
      a.data = (x.payload.drop (hOffset x.header % 64)).take (hLen x.header) ∧ a.poison = hPoison x.header) ∧
  (∀ (id : Nat) (s : State) (x : Pkt) (p : Place) (i : Instr) (op : Nat),
    (i, op) ∈ [(Instr.atomicFetchRequest id, opAtomicFetch), (.atomicPostRequest id, opAtomicPost)] →
    Servable s id op x p → streamElsewhere s x (100 + p.unit) = false → (sext s p.unit).inService = true →
    unitTakes s p.unit 64 = true →
    Runs i s fun t => pktOf t id = none ∧ (∃ r, (sext t p.unit).queue = (sext s p.unit).queue ++ [r] ∧ r.bytes = 64 ∧
        r.work = .atomic x.header p.addr (hLen x.header) (atomicArgs x.payload) (bitAt (hPoison x.header).toNat 0) (isLoop x)) ∧
      t.mem = s.mem) ∧
  (∀ (id : Nat) (s : State) (x : Pkt), requestAt s id opNotify = some x → roomToAnswer s x = true → isLoop x = false →
    mayNotify s (hNctx x.header) (hKey x.header) = true → s.phase ≠ .cut →
    Runs (.notifyRequest id) s fun t => Raised (hNctx x.header) (hNctr x.header) s t ∧
      tget t.msgIn (hMessage x.header) = none ∧ t.mem = s.mem ∧
      ∃ y ∈ t.pkts, y.acct = .response ∧
        y.header = responseHeader x.header (answerOp (hOp x.header)) .ok 0 0 (singleMap x.header) false false (singleTag x.header))

/-- R93, R99: memory accepts an access: a STORE's bytes (and a chart's) are in memory and every other byte is as it
was; a LOAD changes no byte, its access is closed, and its response carries the bytes.

R202: a plain access of a compute die into D of a collective that lands there leaves the elements it touches with
undefined content, and every other byte as it was. -/
def Obligations.MemoryAccepts : Prop :=
  (∀ (id : Nat) (pty : Bool) (s : State) (a : Access), s.accesses.find? (fun a => a.id == id) = some a →
    ((a.kind = .store ∧ accessBehind s a = false ∧ landsUnder s a = none) ∨ a.kind = .chart) →
    lineHeld s a.addr a.len = false → Runs (.memoryAccept id pty) s fun t =>
      (∀ k, ∀ h : k < a.data.length, memByte t.mem (a.addr + k) = a.data[k]) ∧
      ∀ b, (b < a.addr ∨ a.addr + a.data.length ≤ b) → memByte t.mem b = memByte s.mem b) ∧
  (∀ (id : Nat) (pty : Bool) (s : State) (a : Access) (r : Nat × Nat), s.accesses.find? (fun a => a.id == id) = some a →
    (a.kind = .store ∨ (a.kind = .load ∧ a.data = [])) → accessBehind s a = false → landsUnder s a = some r →
    lineHeld s a.addr a.len = false →
    Runs (.memoryAccept id pty) s fun t =>
      ∀ b, (b < a.addr ∨ a.addr + a.data.length ≤ b) → (b < r.1 ∨ r.1 + r.2 ≤ b) → memByte t.mem b = memByte s.mem b) ∧
  (∀ (id : Nat) (s : State) (a : Access), s.accesses.find? (fun a => a.id == id) = some a → a.kind = .load →
    accessBehind s a = false → lineHeld s a.addr a.len = false → a.loop = false →
    poisonMarks s.mem (a.addr / 64 * 64) (a.addr % 64 + a.len) = 0 →
    Runs (.memoryAccept id false) s fun t => t.mem = s.mem ∧ (∀ y ∈ t.accesses, y.id ≠ id) ∧
      ∃ x ∈ t.pkts, x.acct = .response ∧ x.payload = toUnits a.addr (memRead s.mem a.addr a.len) ∧
        x.header = responseHeader a.header (answerOp (hOp a.header)) .ok (x.payload.length / 64) 0
          (singleMap a.header) false false (singleTag a.header))

/-- The response `x` for this inst names an open entry of an aperture operation. -/
def Answers7 (s : State) (id op : Nat) (x : Pkt) (tag : Nat) (tr : Track) (chan : Nat) (thread : BitVec 16)
    (addr : BitVec 64) : Prop :=
  responseAt s id op = some x ∧ hSinst x.header = instId s ∧ matchOpen s tag (hRound x.header) = some tr ∧
    tr.op.origin = .aperture chan thread addr ∧ s.phase ≠ .cut

/-- R82, R83, R85, R100: a response with OK completes the operation of the entry it names: its thread gets the data or
the store-done, the entry is free again and the packet is gone; one that names no open entry is counted. -/
def Obligations.ResponsesComplete : Prop :=
  (∀ (id : Nat) (s : State) (x : Pkt) (tr : Track) (chan : Nat) (thread : BitVec 16) (addr : BitVec 64) (i : Instr) (op : Nat),
    (i, op) ∈ [(Instr.loadRespReceive id, opLoadResp), (.atomicRespReceive id, opAtomicResp)] →
    Answers7 s id op x (hTag x.header) tr chan thread addr → (tr.op.kind = .load ∨ tr.op.kind = .atomicFetch) →
    hStatus x.header = 0 → hPoison x.header = 0 →
    Runs i s fun t => Output.loadDone thread .ok (answerData tr.op x.payload) 0 ∈ t.out ∧
      tget t.tracks (hTag x.header) = none ∧ pktOf t id = none) ∧
  (∀ (id : Nat) (s : State) (x : Pkt) (tr : Track) (chan : Nat) (thread : BitVec 16) (addr : BitVec 64) (k : Nat),
    Answers7 s id opWriteAck x (hTag x.header / 64 * 64 + k) tr chan thread addr → k < 64 →
    (∀ j, j < 64 → bitAt (hMap x.header) j = decide (j = k)) → (tr.op.kind = .store ∨ tr.op.kind = .atomicPost) →
    hStatus x.header = 0 →
    Runs (.writeAckReceive id) s fun t => Output.storeDone thread .ok ∈ t.out ∧
      tget t.tracks (hTag x.header / 64 * 64 + k) = none ∧ pktOf t id = none) ∧
  (∀ (id : Nat) (s : State) (x : Pkt) (i : Instr) (op : Nat),
    (i, op) ∈ [(Instr.loadRespReceive id, opLoadResp), (.atomicRespReceive id, opAtomicResp)] →
    responseAt s id op = some x → hSinst x.header = instId s → matchOpen s (hTag x.header) (hRound x.header) = none →
    Runs i s fun t => Counted 0x4530 2 0 s t ∧ pktOf t id = none ∧ t.tracks = s.tracks ∧ t.ctxs = s.ctxs)

/-- A packet that waits to be routed, whose next hop has room and which no earlier packet holds back. -/
def Routable (s : State) (id : Nat) (x : Pkt) (q vc : Nat) (moved : Bool) : Prop :=
  pktOf s id = some x ∧ awaitsRoute s x = true ∧ forHome s x = false ∧ hDst x.header ≠ ownNode s ∧
    hopOf s x = .go q vc moved ∧ orderBehind s x q = false ∧ v2Behind s x q = false

/-- R230, R244, R249, R342: a packet in transit whose next hop has room is charged to an egress share of that hop or of one of its
stripes, at once or at the escape time, or handed to the inst of a stripe; before the escape time that event does
nothing. -/
def Obligations.PacketsAreRouted : Prop :=
  (∀ (id : Nat) (s : State) (x : Pkt) (q vc : Nat) (moved : Bool) (i : Instr),
    (i = .packetRoute id ∨ (i = .escapeTimeExpiry id ∧ x.since + 4 * reg s 0x3900 2 ≤ s.clock)) →
    Routable s id x q vc moved → ∀ j, placeOn s q vc (hDet (hset (routeHeader s x) 8 3 vc)) (pktCells x) = some (.here j) →
    Runs i s fun t => (∃ y ∈ t.pkts, y.id = id ∧ y.acct = .egress j vc ∧ y.since = s.clock ∧ y.payload = x.payload) ∧
      t.pkts.length = s.pkts.length ∧ (moved = true → Counted 0x3900 5 0 s t) ∧ t.mem = s.mem ∧ t.ctxs = s.ctxs) ∧
  (∀ (id : Nat) (s : State) (x : Pkt) (q vc : Nat) (moved : Bool), Routable s id x q vc moved →
    ∀ i j, placeOn s q vc (hDet (hset (routeHeader s x) 8 3 vc)) (pktCells x) = some (.far i j) →
    Runs (.packetRoute id) s fun t => pktOf t id = none ∧
      (∃ h, Output.cascadePacket i (some j) h x.payload ∈ t.out) ∧ t.mem = s.mem ∧ t.ctxs = s.ctxs) ∧
  (∀ (id : Nat) (s : State) (x : Pkt), pktOf s id = some x → s.clock < x.since + 4 * reg s 0x3900 2 →
    exec (.escapeTimeExpiry id) s = .next s)

/-! ## End-to-end credits (R138 to R143, R293 to R295) -/

/-- What a routed control packet may change besides what is named. -/
def onlyLinks (s t : State) : State := { s with ports := t.ports, out := t.out, regs := t.regs }

/-- A routed control packet for this inst. -/
def RoutedHere (s : State) (b : BitVec 256) (inst : Nat) : Prop :=
  routedStampsOk s b = true ∧ rDst b = ownNode s ∧ inst = instId s

/-- R141, R143, R294, R295: a received grant raises the limit of its sender entry, and starts it anew under a new
generation; a release frees its grant entry; a probe is answered with the present limit, or counted without an entry;
what is for another node or with stale stamps is not taken.

R141, R143, R295: an unsent rise is sent after its coalescing time; an idle sender entry is freed after 1 ms and an
idle grant entry after 100 ms; an operation held for credit sends a probe each probe time, counted. -/
def Obligations.CreditMoves : Prop :=
  (∀ (p : Fin 12) (b : BitVec 256) (s : State) (x : Sender), ControlTaken s p b ctGrant → RoutedHere s b (rSinst b) →
    tget s.senders (senderNo (rSrc b) (rNctx b)) = some x →
    Runs (.creditGrantReceive p b) s fun t => t = { s with ports := t.ports, senders := t.senders } ∧
      ∃ y, tget t.senders (senderNo (rSrc b) (rNctx b)) = some y ∧ y.gen = some (rGen b) ∧ y.open_ = x.open_ ∧
        (x.gen = some (rGen b) ∨ x.gen = none → y.sent = x.sent ∧
          y.limit = if (rCount b + 2 ^ 32 - x.limit) % 2 ^ 32 < 2 ^ 31 then rCount b else x.limit) ∧
        (∀ g, x.gen = some g → g ≠ rGen b → y.sent = 0 ∧ y.limit = rCount b)) ∧
  (∀ (p : Fin 12) (b : BitVec 256) (s : State), ControlTaken s p b ctRelease → RoutedHere s b (rTinst b) →
    Runs (.creditReleaseReceive p b) s fun t => tget t.grants (grantNo (rNctx b) (rSrc b) (rSinst b)) = none ∧
      t = { onlyLinks s t with grants := t.grants, senders := t.senders }) ∧
  (∀ (p : Fin 12) (b : BitVec 256) (s : State) (g : Grant), ControlTaken s p b ctProbe → RoutedHere s b (rTinst b) →
    tget s.grants (grantNo (rNctx b) (rSrc b) (rSinst b)) = some g →
    Runs (.creditProbeReceive p b) s fun t =>
      tget t.grants (grantNo (rNctx b) (rSrc b) (rSinst b)) = some { g with told := g.limit, rise := none } ∧
      t = { onlyLinks s t with grants := t.grants, senders := t.senders }) ∧
  (∀ (p : Fin 12) (b : BitVec 256) (s : State), ControlTaken s p b ctProbe → RoutedHere s b (rTinst b) →
    tget s.grants (grantNo (rNctx b) (rSrc b) (rSinst b)) = none →
    Runs (.creditProbeReceive p b) s fun t => Counted 0x4100 6 0 s t ∧ t.grants = s.grants ∧ t.senders = s.senders) ∧
  (∀ (p : Fin 12) (b : BitVec 256) (s : State) (i : Instr) (ct : Nat),
    (i, ct) ∈ [(Instr.creditGrantReceive p b, ctGrant), (.creditReleaseReceive p b, ctRelease), (.creditProbeReceive p b, ctProbe)] →
    ControlTaken s p b ct → routedStampsOk s b = false →
    Runs i s fun t => Counted 0x2400 0x16 p s t ∧ t.grants = s.grants ∧ t.senders = s.senders ∧ t.out = s.out) ∧
  (∀ (nctx : Fin 4096) (src : NodeId) (sinst : Fin 4) (s : State) (g : Grant) (since : Nat),
    tget s.grants (grantNo nctx src sinst) = some g → g.rise = some since → since + 4 * reg s 0x4100 8 ≤ s.clock →
    Runs (.grantCoalesceTimeout nctx src sinst) s fun t =>
      tget t.grants (grantNo nctx src sinst) = some { g with told := g.limit, rise := none } ∧
      t = { onlyLinks s t with grants := t.grants, senders := t.senders }) ∧
  (∀ (node : NodeId) (nctx : Fin 4096) (s : State) (x : Sender), tget s.senders (senderNo node nctx) = some x →
    x.open_ = 0 → x.last + 4000000 ≤ s.clock →
    Runs (.senderEntryExpiry node nctx) s fun t => tget t.senders (senderNo node nctx) = none ∧
      t = { onlyLinks s t with grants := t.grants, senders := t.senders }) ∧
  (∀ (nctx : Fin 4096) (src : NodeId) (sinst : Fin 4) (s : State) (g : Grant),
    tget s.grants (grantNo nctx src sinst) = some g → g.last + 400000000 ≤ s.clock →
    Runs (.grantEntryExpiry nctx src sinst) s fun t => tget t.grants (grantNo nctx src sinst) = none ∧
      t = { onlyLinks s t with grants := t.grants, senders := t.senders }) ∧
  (∀ (nctx : Fin 4096) (src : NodeId) (sinst : Fin 4) (s : State) (g : Grant),
    tget s.grants (grantNo nctx src sinst) = some g → s.clock < g.last + 400000000 →
    exec (.grantEntryExpiry nctx src sinst) s = .next s) ∧
  (∀ (id : Nat) (s : State) (op : Op) (n : Notify), heldOp s id = some op →
    op.notify = some n → credited op = true → op.counted = true → creditOk s op = false →
    op.probed + 4 * reg s 0x4100 9 ≤ s.clock → op.side.node ≠ ownNode s →
    Runs (.creditProbeTimer id) s fun t => Counted 0x4100 0xA 0 s t ∧ heldOp t id = some { op with probed := s.clock } ∧
      t = { onlyLinks s t with held := t.held }) ∧
  (∀ (id : Nat) (s : State) (op : Op) (n : Notify) (g : Grant), heldOp s id = some op →
    op.notify = some n → credited op = true → op.counted = true → creditOk s op = false →
    op.probed + 4 * reg s 0x4100 9 ≤ s.clock → op.side.node = ownNode s →
    tget s.grants (grantNo n.nctx (ownNode s) (instId s)) = some g →
    Runs (.creditProbeTimer id) s fun t => Counted 0x4100 0xA 0 s t ∧ heldOp t id = some { op with probed := s.clock } ∧
      tget t.grants (grantNo n.nctx (ownNode s) (instId s)) = some { g with told := g.limit, rise := none } ∧
      t = { onlyLinks s t with held := t.held, grants := t.grants, senders := t.senders })

/-! ## Collectives (chapter 05) -/

/-- R156: the collective table entry that an accepted command takes. -/
def TakesEntry (c e : Nat) (b : BitVec 512) (s t : State) : Prop :=
  SlotTaken c s t ∧ (ctx t c).cmds = (ctx s c).cmds ++ [newCmd (ctx s c).accept b (.collective e)] ∧
    ∃ x, tget t.colls e = some x ∧ x.ctx = c ∧ x.cmd = (ctx s c).accept ∧ x.key = ctxKey s c ∧
      x.collid = BitVec.ofNat 32 (ccCollid b) ∧ x.bytes = b ∧ x.started = false ∧ x.abort = none

/-- R147, R148: a card that passes the device's checks is installed in the selected slot, and a slot is cleared.

R116, R128, R129, R156, R159: a BARRIER or COLL_START that passes its checks takes a free entry; the member at
position 0 leads, chooses a card and sets T0 one lead time ahead; another member waits for its announcement. One whose
key and COLLID are in use completes with NOT_PERFORMED. -/
def Obligations.CardsAndCollectivesAccepted : Prop :=
  (∀ (w : WriteHdr) (card : Bytes) (s : State), cardOk card = true →
    WriteWorks (.cardInstall w card) w 0x5100 2 card s (fun t => { s with cards := t.cards }) fun t =>
      tget t.cards (wsel s w 0x5100 1) = some card ∧
      ∀ n, n ≠ wsel s w 0x5100 1 → tget t.cards n = tget s.cards n) ∧
  (∀ (w : WriteHdr) (slot : BitVec 8) (s : State),
    WriteWorks (.cardSlotClear w slot) w 0x5100 4 [slot] s (fun t => { s with cards := t.cards }) fun t =>
      tget t.cards slot.toNat = none ∧ ∀ n, n ≠ slot.toNat → tget t.cards n = tget s.cards n) ∧
  (∀ (c : Fin 4096) (b : BitVec 512) (s : State) (e k : Nat) (i : Instr), (i, k) ∈ [(Instr.barrier c, 6), (.collStart c, 7)] →
    Acceptable s c k b → freeColl s = some e → collCheck s c b = .ok () →
    collFor s (ctxKey s c).toNat (ccCollid b) = none → isMember s c b 0 = false →
    pendFor s (ctxKey s c).toNat (ccCollid b) = none →
    Runs i s fun t => TakesEntry c e b s t ∧ t.mem = s.mem) ∧
  (∀ (c : Fin 4096) (b : BitVec 512) (s : State) (e k slot : Nat) (card : Card) (i : Instr),
    (i, k) ∈ [(Instr.barrier c, 6), (.collStart c, 7)] → Acceptable s c k b → freeColl s = some e →
    collCheck s c b = .ok () → collFor s (ctxKey s c).toNat (ccCollid b) = none → isMember s c b 0 = true →
    chooseCard s c b = some (slot, card) →
    Runs i s fun t => TakesEntry c e b s t ∧ (∃ x, tget t.colls e = some x ∧ x.card = some card ∧ x.leader = true ∧
      x.t0 = some (s.mer.count + 4 * reg s 0x5000 1)) ∧ reg t 0x5000 0xC = cardTag card + slot * 65536) ∧
  (∀ (c : Fin 4096) (b : BitVec 512) (s : State) (e k : Nat) (i : Instr), (i, k) ∈ [(Instr.barrier c, 6), (.collStart c, 7)] →
    Acceptable s c k b → freeColl s = some e → collCheck s c b = .ok () →
    (collFor s (ctxKey s c).toNat (ccCollid b)).isSome = true →
    Runs i s fun t => SlotTaken c s t ∧ CompletedBadly c (cmdCctr b) s t ∧ t.colls = s.colls ∧ onlyCtx c s t)

/-- A notice for one of this device's collectives, next in its sequence. -/
def NoticeDue (s : State) (p : Nat) (b : BitVec 256) : Prop :=
  ControlTaken s p b ctNotice ∧ cByte b 4 = (port s p).link.cexpect

/-- R161, R163, R168, R171, R173, R177: an ANNOUNCE before its command is kept as a pending entry; a DRIFT notice sets the lag
of its port; an ABORT ends the collective with its status; a RELEASE is taken once, and one whose release time is past
is counted and drives the enabled lines at once; a foreign notice is counted. -/
def Obligations.NoticesTaken : Prop :=
  (∀ (p : Fin 12) (b : BitVec 256) (s : State), NoticeDue s p b → noticeForeign s p b = false → nKind b = 1 →
    collFor s (nKey b) (nCollid b) = none → pendFor s (nKey b) (nCollid b) = none → s.pends.length < 256 →
    Runs (.announceNotice p b) s fun t => t = { s with ports := t.ports, pends := t.pends } ∧
      ∃ q, t.pends = s.pends ++ [q] ∧ q.key = BitVec.ofNat 16 (nKey b) ∧ q.collid = BitVec.ofNat 32 (nCollid b) ∧
        q.notice = some (p.val, b)) ∧
  (∀ (p : Fin 12) (b : BitVec 256) (s : State) (c : Nat) (x : Coll), NoticeDue s p b → noticeForeign s p b = false →
    nKind b = 2 → collFor s (nKey b) (nCollid b) = some c → collOf s c = some x →
    Runs (.driftNotice p b) s fun t => collOf t c = some { x with lags := tput x.lags p (nArg b % 2 ^ 24) } ∧
      Counted 0x5000 0xA 0 s t ∧ t.mem = s.mem) ∧
  (∀ (p : Fin 12) (b : BitVec 256) (s : State) (c : Nat) (x : Coll) (m : Cmd), NoticeDue s p b → noticeForeign s p b = false →
    nKind b = 3 → collFor s (nKey b) (nCollid b) = some c → collOf s c = some x → x.abort = none →
    landingOpen s c = false → cmdOf s x.ctx x.cmd = some m → nArg b % 16 ≠ 0 → s.phase ≠ .cut →
    Runs (.abortNotice p b) s fun t => collOf t c = none ∧ CompletedBadly x.ctx (cmdCctr m.bytes) s t ∧
      cmdOf t x.ctx x.cmd = none) ∧
  (∀ (p : Fin 12) (b : BitVec 256) (s : State) (c : Nat) (x : Coll), NoticeDue s p b → noticeForeign s p b = false →
    nKind b = 4 → collFor s (nKey b) (nCollid b) = some c → collOf s c = some x → isBarrier x = true →
    x.tRel = none → x.abort = none → releaseLate s (nTime b) (promenadeStep (ownNode s)) = false →
    Runs (.releaseNotice p b) s fun t => collOf t c = some { x with tRel := some (nTime b), late := false } ∧ t.mem = s.mem) ∧
  (∀ (p : Fin 12) (b : BitVec 256) (s : State) (c : Nat) (x : Coll), NoticeDue s p b → noticeForeign s p b = false →
    nKind b = 4 → collFor s (nKey b) (nCollid b) = some c → collOf s c = some x → isBarrier x = true →
    x.tRel = none → x.driven = false → x.abort = none → releaseLate s (nTime b) (promenadeStep (ownNode s)) = true → awake s = true →
    inTurn s 7 (releaseTime (nTime b) (promenadeStep (ownNode s))) = true → s.pins.booked = [] →
    (∀ d, d < 8 → lineRests s d = true) →
    Runs (.releaseNotice p b) s fun t => Counted 0x5000 7 0 s t ∧
      (∃ y, collOf t c = some y ∧ y.tRel = some (nTime b) ∧ y.driven = true) ∧ t.pins.booked = [] ∧
      (∀ d e, d < 8 → edgeOf s (nTime b) (promenadeStep (ownNode s)) (ccRamp x.bytes) d = some e →
        Output.release d (ccRamp x.bytes) s.mer.count ∈ t.out ∧ lineLevel t d = true) ∧ t.mem = s.mem) ∧
  (∀ (p : Fin 12) (b : BitVec 256) (s : State), NoticeDue s p b → noticeForeign s p b = true →
    Runs (.callerNoticeDiscard p b) s fun t => Counted 0x5000 0xB 0 s t ∧
      (port t p).link.cexpect = ((port s p).link.cexpect + 1) % 256 ∧ t = { s with ports := t.ports, regs := t.regs })

/-- R161, R176, R360: at T0, when no event of a lower class waits, a member whose ports all work starts its figures with the rates of its ports noted; with a port
that does not work the collective aborts; before T0 nothing happens. -/
def Obligations.CollectivesStart : Prop :=
  (∀ (c : Nat) (s : State) (x : Coll) (card : Card) (t0 : Nat), collOf s c = some x → x.card = some card → x.t0 = some t0 →
    x.started = false → x.abort = none → inTurn s 8 t0 = true → (∀ p ∈ cardPorts card, working s p = true) →
    ∀ r, r = (collPorts s x card).map (fun p => (p, payloadRate s p)) →
    exec (.collectiveStart c) s =
      .next (pumpColl { s with colls := tput s.colls c { x with started := true, rates := r, seen := ratesNow s c x card } } c)) ∧
  (∀ (c : Nat) (s : State) (x : Coll) (t0 : Nat), collOf s c = some x → x.t0 = some t0 → timeCome s t0 = false →
    exec (.collectiveStart c) s = .next s)

/-- A stored packet that a running figure of a collective takes next. -/
def TakenBy (s : State) (id op c f : Nat) (k : Pkt) (x : Coll) (card : Card) : Prop :=
  collAt s id op = some (c, k) ∧ collOf s c = some x ∧ x.abort = none ∧ x.card = some card ∧ x.started = true ∧
    takingFig card k.header (k.inPort.getD 15) = some f ∧ f ∈ runningFigs s c x card ∧
    hPlace k.header = (figOf x card f).recv ∧ sideDone (figAt card f) (figOf x card f).recv = false

/-- R150, R151, R164, R180, R253: a token moves its figure on and is released; data that a figure combines or lands goes
to its Sextant units and stays in the store; a multicast copy, of data or of a barrier's token, goes on by the next port of its direction and keeps its
local receive side; then the running figures of the collective go on (`pumpColl`). -/
def Obligations.CollectiveDataTaken : Prop :=
  (∀ (id c f : Nat) (s : State) (k : Pkt) (x : Coll) (card : Card), TakenBy s id opCollToken c f k x card →
    (figAt card f).clen = 0 → hMc k.header = false → hPoison k.header = 0 →
    ∀ n, n = nextPlace (figAt card f) false (ccWfmt x.bytes) (segElems x.bytes card) (ccCount x.bytes) (hPlace k.header) →
    exec (.collTokenReceive id) s =
      .next (pumpColl (updFig (releaseRaw s k) c f card (fun g => { g with recv := n })) c)) ∧
  (∀ (id c f : Nat) (s u : State) (k : Pkt) (x : Coll) (card : Card), TakenBy s id opCollData c f k x card →
    (figAt card f).clen ≠ 0 → hPoison k.header = 0 → ((figAt card f).comb ≠ 0 ∨ lands (figAt card f) (hRep k.header) = true) →
    dispatch s c f x card (hPlace k.header) = .done u →
    exec (.collDataReceive id) s = .next (pumpColl (putPkt u { k with coll := some (c, f) }) c)) ∧
  (∀ (id p q op : Nat) (s : State) (k : Pkt) (i : Instr),
    (i, op) ∈ [(Instr.mcastDataReceive id, opMcast), (Instr.collTokenReceive id, opCollToken)] →
    pktOf s id = some k → hOp k.header = op → isMulticast k.header = true → k.coll = none → k.hereToo = false →
    k.acct = .pool → k.inPort = some p → bankState s.tables (hEpoch k.header) ≠ .free →
    mcastStep s k.header p = some (some q) → hHops k.header ≠ 255 → levelOk s (some p) true q = true →
    pktCells k ≤ egressFree s q 2 → v2Behind s k q = false → collFor s (hKey k.header) (hCollid k.header) = none →
    Runs i s fun t => (∃ y ∈ t.pkts, y.id = id ∧ y.acct = .egress q 2 ∧ y.hereToo = true ∧
      y.payload = k.payload) ∧ t.pkts.length = s.pkts.length ∧ t.mem = s.mem)

/-- R166, R167, R168, R170, R171: a COLL_START whose figures are complete completes its command and frees its entry; the
leader of a BARRIER then sets T_rel one lead time ahead; at the release time of this node, when no event of a lower class
waits, a frame is booked on each enabled line at its leading edge, and begins if that is due, for this inst and for another;
once the last of them has begun the BARRIER completes.

R360, R475, R481: a booked frame whose leading edge is due in turn begins: its line goes high for the first cell; one that
would begin less than 64 ns after the frame before it waits and is counted; one that is not due waits. -/
def Obligations.CollectivesComplete : Prop :=
  (∀ (c : Nat) (s : State) (x : Coll) (m : Cmd), collOf s c = some x → isBarrier x = false → x.abort = none →
    x.poison = false → figuresDone s c x = true → cmdOf s x.ctx x.cmd = some m → s.phase ≠ .cut →
    Runs (.collectiveComplete c) s fun t => collOf t c = none ∧ Raised x.ctx (cmdCctr m.bytes) s t ∧
      cmdOf t x.ctx x.cmd = none ∧ (ctx t x.ctx).failed = (ctx s x.ctx).failed ∧
      t.mem = s.mem ∧ t.tracks = s.tracks ∧ t.accesses = s.accesses ∧ t.tables = s.tables) ∧
  (∀ (c : Nat) (s : State) (x : Coll), collOf s c = some x → isBarrier x = true → x.leader = true → x.tRel = none →
    x.abort = none → figuresDone s c x = true →
    Runs (.barrierFiguresComplete c) s fun t =>
      collOf t c = some { x with tRel := some (s.mer.count + 4 * reg s 0x5000 2), late := false } ∧
      t = { s with colls := t.colls, ports := t.ports, lanes := t.lanes, octets := t.octets, out := t.out }) ∧
  (∀ (c : Nat) (s : State) (x : Coll) (tr : Nat), collOf s c = some x → x.tRel = some tr → x.driven = false → x.late = false →
    awake s = true → inTurn s 7 (releaseTime tr (promenadeStep (ownNode s))) = true → figuresDone s c x = false →
    Runs (.barrierRelease c) s fun t => collOf t c = some { x with driven := true } ∧
      ∀ d e, d < 8 → edgeOf s tr (promenadeStep (ownNode s)) (ccRamp x.bytes) d = some e →
        (∃ f ∈ t.pins.booked, f.line = d ∧ f.plan = ccRamp x.bytes ∧ f.edge = e) ∨
          (e ≤ s.mer.count ∧ Output.release d (ccRamp x.bytes) s.mer.count ∈ t.out)) ∧
  (∀ (c : Nat) (s : State) (x : Coll) (tr : Nat) (m : Cmd), collOf s c = some x → x.tRel = some tr → x.driven = true →
    (∀ f ∈ s.pins.booked, f.coll ≠ some c) → figuresDone s c x = true →
    cmdOf s x.ctx x.cmd = some m → s.phase ≠ .cut →
    Runs (.barrierRelease c) s fun t => collOf t c = none ∧ Raised x.ctx (cmdCctr m.bytes) s t) ∧
  (∀ (tRel : BitVec 64) (step ramp : Fin 16) (s : State), awake s = true → releaseLate s tRel.toNat step = false →
    Runs (.cascadeReleaseReceive tRel step ramp) s fun t =>
      (∀ d e, d < 8 → edgeOf s tRel.toNat step ramp d = some e →
        (∃ f ∈ t.pins.booked, f.line = d ∧ f.plan = ramp.val ∧ f.edge = e) ∨
          (e ≤ s.mer.count ∧ Output.release d ramp s.mer.count ∈ t.out)) ∧
      t = { s with pins := t.pins, regs := t.regs, out := t.out }) ∧
  (∀ (c : Nat) (s : State) (f : RelFrame), collOf s c = none → awake s = true → s.pins.booked = [f] → inTurn s 7 f.edge = true →
    lineRests s f.line = true →
    Runs (.barrierRelease c) s fun t => t.out = s.out ++ [.release f.line f.plan s.mer.count] ∧ t.pins.booked = [] ∧
      lineLevel t f.line = true ∧ (∀ d, d ≠ f.line → lineLevel t d = lineLevel s d) ∧
      t = { s with out := t.out, pins := t.pins }) ∧
  (∀ (c : Nat) (s : State) (f : RelFrame), collOf s c = none → awake s = true → s.pins.booked = [f] → inTurn s 7 f.edge = true →
    lineRests s f.line = false → f.gap = false →
    Runs (.barrierRelease c) s fun t => Counted 0x5000 7 0 s t ∧ t.pins.booked = [{ f with gap := true }] ∧
      t = { s with regs := t.regs, pins := t.pins }) ∧
  (∀ (c : Nat) (s : State) (f : RelFrame), collOf s c = none → s.pins.booked = [f] → inTurn s 7 f.edge = false →
    exec (.barrierRelease c) s = .next s)

/-! ## Sextant units and the central store's banks (chapters 06 and 07) -/

/-- The atomic at the front of a unit's queue, with the requests behind it. -/
def AtomicNext (n : Nat) (s : State) (h : BitVec 256) (addr len by_ : Nat) (args : AtomicArgs) (bad loop : Bool)
    (rest : List UnitReq) : Prop :=
  (sext s n).queue = ⟨.atomic h addr len args bad loop, by_⟩ :: rest ∧ changing s n = false

/-- A unit may open a further line. -/
def MayOpen (n : Nat) (s : State) (line : Nat) : Prop :=
  lineAt (sext s n) line = none ∧ (sext s n).lines.length < 64 ∧ yields s n line = false

/-- No changed bytes of a line are held in a unit. -/
def CleanLine (n : Nat) (s : State) (line : Nat) : Prop :=
  ∀ l ∈ (sext s n).lines, l.line = line → l.dirty = false

/-- R75, R77, R201, R203: the unit takes the atomic at the front of its queue: the word in memory becomes the function's
result, every other byte stays as it was; of a far-tier line that the unit holds on for a further atomic the word changes
there, and memory does not; with a poisoned operand or word nothing is written; a line that yields to plain accesses is
not opened. -/
def Obligations.AtomicsExecute : Prop :=
  (∀ (n : Fin 16) (s : State) (h : BitVec 256) (addr len by_ : Nat) (args : AtomicArgs) (loop : Bool) (rest : List UnitReq)
    (v : Nat), AtomicNext n s h addr len by_ args false loop rest → farLine (lineOf addr) = false →
    (lineOpen (sext s n) (lineOf addr) = true ∨ MayOpen n s (lineOf addr)) → CleanLine n s (lineOf addr) →
    linePoisoned s.mem (lineOf addr) = false →
    atomicResult (args.afn.toNat % 16) (8 * len) (leNat (memRead s.mem addr len)) args.opa.toNat args.opb.toNat
      (hOp h == opAtomicPost) = some v →
    Runs (.atomicExecute n) s fun t => memRead t.mem addr len = leBytes len v ∧
      ∀ b, (b < addr ∨ addr + len ≤ b) → memByte t.mem b = memByte s.mem b) ∧
  (∀ (n : Fin 16) (s : State) (h : BitVec 256) (addr len by_ : Nat) (args : AtomicArgs) (loop : Bool) (rest : List UnitReq)
    (v : Nat), AtomicNext n s h addr len by_ args false loop rest → farLine (lineOf addr) = true →
    MayOpen n s (lineOf addr) → addr % 64 + len ≤ 64 → linePoisoned s.mem (lineOf addr) = false →
    lineWanted { sext s n with queue := rest } (lineOf addr) = false →
    atomicResult (args.afn.toNat % 16) (8 * len) (leNat (memRead s.mem addr len)) args.opa.toNat args.opb.toNat
      (hOp h == opAtomicPost) = some v →
    Runs (.atomicExecute n) s fun t => memRead t.mem addr len = leBytes len v ∧
      ∀ b, (b < addr ∨ addr + len ≤ b) → memByte t.mem b = memByte s.mem b) ∧
  (∀ (n : Fin 16) (s : State) (h : BitVec 256) (addr len by_ : Nat) (args : AtomicArgs) (loop : Bool) (rest : List UnitReq)
    (v : Nat) (l : OpenLine), AtomicNext n s h addr len by_ args false loop rest → farLine (lineOf addr) = true →
    lineAt (sext s n) (lineOf addr) = some l → l.bad = false →
    lineWanted { sext s n with queue := rest } (lineOf addr) = true →
    atomicResult (args.afn.toNat % 16) (8 * len) (leNat ((l.data.drop (addr % 64)).take len)) args.opa.toNat args.opb.toNat
      (hOp h == opAtomicPost) = some v →
    Runs (.atomicExecute n) s fun t => t.mem = s.mem ∧ lineAt (sext t n) (lineOf addr) =
      some { l with data := l.data.take (addr % 64) ++ leBytes len v ++ l.data.drop (addr % 64 + len), dirty := true }) ∧
  (∀ (n : Fin 16) (s : State) (h : BitVec 256) (addr len by_ : Nat) (args : AtomicArgs) (bad loop : Bool)
    (rest : List UnitReq), AtomicNext n s h addr len by_ args bad loop rest →
    (lineOpen (sext s n) (lineOf addr) = true ∨ MayOpen n s (lineOf addr)) → CleanLine n s (lineOf addr) →
    (bad = true ∨ (linePoisoned s.mem (lineOf addr) = true ∧
      ∀ l ∈ (sext s n).lines, l.line = lineOf addr → l.bad = true)) →
    Runs (.atomicExecute n) s fun t => t.mem = s.mem) ∧
  (∀ (n : Fin 16) (s : State) (h : BitVec 256) (addr len by_ : Nat) (args : AtomicArgs) (bad loop : Bool)
    (rest : List UnitReq), AtomicNext n s h addr len by_ args bad loop rest → lineOpen (sext s n) (lineOf addr) = false →
    yields s n (lineOf addr) = true → exec (.atomicExecute n) s = .next s)

/-- R192: in the integer class SUM wraps, and MAX and MIN compare as signed INT32.

R180, R190 to R196: the unit combines the elements at the front of its queue with the local ones and lands them: the
bytes of the combined values are in memory, every other byte is as it was. -/
def Obligations.ReductionsLand : Prop :=
  (∀ (r : Rop) (l m : List (BitVec 32)) (i : Nat), (combineAll false r l m)[i]? =
    match l[i]?, m[i]? with
    | some a, some b => some (match r with
      | .sum => BitVec.ofInt 32 (a.toInt + b.toInt)
      | .max => BitVec.ofInt 32 (max a.toInt b.toInt)
      | .min => BitVec.ofInt 32 (min a.toInt b.toInt))
    | _, _ => none) ∧
  (∀ (n : Fin 16) (s : State) (c f lo k by_ : Nat) (p : Place3) (rest : List UnitReq) (x : Coll) (card : Card) (pl : Place)
    (b : Bytes) (bm : List Bool),
    (sext s n).queue = ⟨.piece c f p lo k, by_⟩ :: rest → changing s n = false → collOf s c = some x → x.card = some card →
    lands (figAt card f) p.rep = true → (figAt card f).comb ≠ 0 →
    ∀ e, e = (pieceElems (ccWfmt x.bytes) (segElems x.bytes card) (ccCount x.bytes) p).1 + lo →
    readPart s (unitMem s n) x ((figAt card f).comb - 1) e k = some (b, bm) → elemPlace s x 1 e = some pl →
    ∀ d, d = (packElems (ccLfmt x.bytes) (combineAll (isFloatFmt (ccWfmt x.bytes)) (ropOf (ccRop x.bytes))
      (wireElems s n c f x card p lo k).1 (unpack (ccLfmt x.bytes) k b))).1 →
    Runs (.reductionCombine n) s fun t => (∀ j, ∀ h : j < d.length, memByte t.mem (pl.addr + j) = d[j]) ∧
      ∀ a, (a < pl.addr ∨ pl.addr + d.length ≤ a) → memByte t.mem a = memByte s.mem a)

/-- R85, R96: an accumulator whose coalescing time has passed is sent as one WRITE_ACK with its map; a message entry
that gained nothing for 10 ms is dropped and counted.

R200, R201, R203, R206: a scheduled change of frequency closes the unit's lines, and at the master changes the frequency, of which the others hear from it; a line held for the hold limit is written
back and released, and counted while an atomic to it waits, with the accesses it kept waiting noted; under back-pressure of
10 µs the unit's new rate, for the collectives with work there, is what it accepted in the last 10 µs. -/
def Obligations.TargetAndSextantTimers : Prop :=
  (∀ (id : Nat) (s : State) (a : Accum), s.accums.find? (fun x => x.id == id) = some a →
    a.since + 4 * reg s 0x4500 3 ≤ s.clock →
    Runs (.writeAckCoalesceTimeout id) s fun t => t.accums = s.accums.filter (fun x => x.id != id) ∧
      (∃ x, t.pkts = s.pkts ++ [x] ∧ x.acct = .response ∧ x.payload = [] ∧
        x.header = responseHeader a.header opWriteAck .ok 0 0 a.map.toNat false false a.base) ∧ t.mem = s.mem) ∧
  (∀ (src : NodeId) (sinst : Fin 4) (msgid : Fin 1024) (s : State) (m : MsgIn),
    tget s.msgIn (messageNo src sinst msgid) = some m → m.last + 40000000 ≤ s.clock →
    exec (.messageEntryExpiry src sinst msgid) s =
      .next (bump { s with msgIn := tdel s.msgIn (messageNo src sinst msgid) } 0x4520 3)) ∧
  (∀ (src : NodeId) (sinst : Fin 4) (msgid : Fin 1024) (s : State) (m : MsgIn),
    tget s.msgIn (messageNo src sinst msgid) = some m → s.clock < m.last + 40000000 →
    exec (.messageEntryExpiry src sinst msgid) s = .next s) ∧
  (∀ (u : Fin 16) (s : State) (at_ : Nat), (sext s u).change = some at_ → inTurn s 3 at_ = true →
    isMaster s = true →
    Runs (.sextantFrequencyChange u) s fun t =>
      sext t u = { sext s u with lines := [], change := none, freq := targetFreq s u } ∧
      t = { s with units := t.units, mem := t.mem, out := t.out }) ∧
  (∀ (u : Fin 16) (s : State) (at_ : Nat), (sext s u).change = some at_ → timeCome s at_ = false →
    exec (.sextantFrequencyChange u) s = .next s) ∧
  (∀ (u : Fin 16) (line : Nat) (l : OpenLine) (s : State), lineAt (sext s u) line = some l →
    l.since + 4 * reg s 0x5310 6 ≤ s.clock → lineWanted (sext s u) line = false → l.dirty = false →
    exec (.lineHoldExpiry u line) s = .next (setSext s u { sext s u with
      lines := (sext s u).lines.filter fun k => k.line != line })) ∧
  (∀ (u : Fin 16) (line : Nat) (l : OpenLine) (s : State), lineAt (sext s u) line = some l →
    l.since + 4 * reg s 0x5310 6 ≤ s.clock → lineWanted (sext s u) line = false → l.dirty = true → l.data.length = 64 →
    Runs (.lineHoldExpiry u line) s fun t => lineOpen (sext t u) line = false ∧ memRead t.mem (line * 64) 64 = l.data ∧
      linePoisoned t.mem line = l.bad ∧
      ∀ b, (b < line * 64 ∨ line * 64 + 64 ≤ b) → memByte t.mem b = memByte s.mem b) ∧
  (∀ (u : Fin 16) (line : Nat) (l : OpenLine) (s : State), lineAt (sext s u) line = some l →
    l.since + 4 * reg s 0x5310 6 ≤ s.clock → lineWanted (sext s u) line = true →
    Runs (.lineHoldExpiry u line) s fun t => Counted 0x5300 9 u s t ∧ lineOpen (sext t u) line = false ∧
      (sext t u).yielding = ((sext s u).yielding.filter fun y => y.1 != line) ++ (keptWaiting s line).map (fun a => (line, a)) ∧
      t = { s with units := t.units, regs := t.regs, mem := t.mem, out := t.out }) ∧
  (∀ (u : Fin 16) (since : Mt) (s : State), (sext s u).press = some since → since + 40000 ≤ s.clock →
    Runs (.sextantBackpressureDrift u) s fun t =>
      (∃ cs, (sext t u).slow = some cs ∧
        ∀ c, c ∈ cs ↔ (tget s.colls c).isSome = true ∧ (usesUnit s c u = true ∨ c ∈ ((sext s u).slow).getD [])) ∧
      t.mem = s.mem ∧ t.tracks = s.tracks ∧ t.tables = s.tables) ∧
  (∀ (u : Fin 16) (since : Mt) (s : State), (sext s u).press = some since → s.clock < since + 40000 →
    exec (.sextantBackpressureDrift u) s = .next s) ∧
  (∀ (u : Fin 16) (s : State), (sext s u).press = none → exec (.sextantBackpressureDrift u) s = .next s) ∧
  (∀ (u : Fin 16) (s : State) (at_ : Nat), (sext s u).change = some at_ → inTurn s 3 at_ = true → isMaster s = false →
    Runs (.sextantFrequencyChange u) s fun t =>
      sext t u = { sext s u with lines := [] } ∧ t = { s with units := t.units, mem := t.mem })

/-- R209, R211, R225: the row is the next of a bank in service, its time has come, and what is found lies in it. -/
def ScrubDue (s : State) (b row : Nat) (f : EccFinding) : Prop :=
  inService s b = true ∧ awake s = true ∧ rowDue s b row = true ∧ findingAt s b f = true

/-- R224, R225, R226: a corrected error is counted and reported; an uncorrectable one in a header drops the packet, in
a payload marks its unit poisoned, in a window entry makes the entry read as invalid; the scrubber goes on to the bank's
next row, and reads no row before its time; when the copy of a bank is done its spare serves in its place. -/
def Obligations.StoreErrors : Prop :=
  (∀ (b : Fin 136) (row : Fin 10240) (cl : Bool) (s : State), ScrubDue s b row .corrected →
    Runs (.scrubRow b row .corrected cl) s fun t => Counted 0x4630 2 0 s t ∧ Counted 0x4630 8 b s t ∧
      CountedFault 6 b s t ∧ (bank t b).row = (row + 1) % 10240 ∧
      t = { s with regs := t.regs, faults := t.faults, banks := t.banks, out := t.out }) ∧
  (∀ (b : Fin 136) (row : Fin 10240) (cl : Bool) (s : State), ScrubDue s b row .clean →
    Runs (.scrubRow b row .clean cl) s fun t => (bank t b).row = (row + 1) % 10240 ∧ t = { s with banks := t.banks }) ∧
  (∀ (b : Fin 136) (row : Fin 10240) (id : Nat) (s : State), ScrubDue s b row (.header id) →
    Runs (.scrubRow b row (.header id) true) s fun t => Counted 0x4630 3 0 s t ∧ pktOf t id = none ∧
      (∀ a ∈ t.accesses, a.pkt ≠ some id) ∧ CountedFault 6 b s t ∧ t.mem = s.mem) ∧
  (∀ (b : Fin 136) (row : Fin 10240) (id : Nat) (unit : Fin 8) (x : Pkt) (s : State), ScrubDue s b row (.payload id unit) →
    pktOf s id = some x →
    Runs (.scrubRow b row (.payload id unit) true) s fun t => Counted 0x4630 3 0 s t ∧
      pktOf t id = some { x with header := setPoison x.header (hPoison x.header ||| BitVec.ofNat 8 (2 ^ unit.val)) } ∧
      t = { s with pkts := t.pkts, accesses := t.accesses, regs := t.regs, faults := t.faults, banks := t.banks,
                   out := t.out }) ∧
  (∀ (b : Fin 136) (row : Fin 10240) (i : Nat) (s : State), ScrubDue s b row (.windowEntry i) →
    Runs (.scrubRow b row (.windowEntry i) true) s fun t => Counted 0x4630 3 0 s t ∧ i ∈ t.tables.badWindow ∧
      CountedFault 5 0 s t ∧ t.mem = s.mem) ∧
  (∀ (b : Fin 136) (row : Fin 10240) (table : Fin 4) (entry : BitVec 24) (cl : Bool) (s : State),
    ScrubDue s b row (.sharedEntry table entry) →
    Runs (.scrubRow b row (.sharedEntry table entry) cl) s fun t => CountedFault 5 0 s t ∧
      (bank t b).row = (row + 1) % 10240 ∧
      t = { s with regs := t.regs, faults := t.faults, banks := t.banks, out := t.out }) ∧
  (∀ (b : Fin 136) (row : Fin 10240) (f : EccFinding) (cl : Bool) (s : State), rowDue s b row = false →
    exec (.scrubRow b row f cl) s = .next s) ∧
  (∀ (b : Fin 136) (sp n : Nat) (s : State), (bank s b).spare = some sp → serves s b = some n → (bank s b).state = 2 →
    sp ≠ b.val → sp < 136 → awake s = true → (blob s 0x4630 4).length = 128 →
    Runs (.bankMigrationDone b) s fun t => servedBy t n = sp ∧ (bank t sp).state = 0 ∧ (bank t b).state = 3 ∧
      (∀ m, m ≠ n → servedBy t m = servedBy s m) ∧ CountedFault 6 b s t)

/-! ## The link layer (chapter 09) -/

/-- A port's link went down: its last cause (0x2400.14) names why (R298, R299). -/
def WentDown (p cause : Nat) (t : State) : Prop := regAt t 0x2400 0x14 p = cause

/-- The next data packet that the transmitter of a port sends, and its key (R254, R255, R280). -/
def NextToSend (s : State) (p k : Nat) (x : Pkt) : Prop :=
  (port s p).state.works = true ∧ (port s p).trying = none ∧ (port s p).link.resend = none ∧
    chooseKey s p = some k ∧ nextOfKey s p k = some x ∧
    seqDist (port s p).link.next (port s p).link.unacked < 32768 ∧ replayUsed s p + pktCells x ≤ replayQuota s p ∧
    hOp x.header ≠ opChart ∧ s.colls = []

/-- The blocks of a packet as the receiver has them, with their marks (R313, R325). -/
def rxBlocks (s : State) (p : Nat) (w : WirePacket) : List RxBlock := packetBlocks w.first (wireMarks s p w).2

/-- A data packet that arrives in sequence as the block `x` with the blocks `rest`, passes the checks of R281, and finds room in
account `a`. -/
def ArrivesWell (s : State) (p : Nat) (w : WirePacket) (x : RxBlock) (rest : List RxBlock) (units : Nat) (a : Account) : Prop :=
  stageDone (port s p) = true ∧ (port s p).state.works = true ∧ (port s p).link.discard = false ∧
    (port s p).link.replaying = none ∧ rxBlocks s p w = x :: rest ∧ cByte w.header 0 < 0xC0 ∧ cByte x.bytes 0 < 0xC0 ∧ x.bad = false ∧
    headerCrcOk (port s p).link.expect x.bytes = true ∧ hLepoch x.bytes = (port s p).link.rxEpoch ∧
    payloadUnits x.bytes = some units ∧ rest.length = 2 * units ∧ hVc x.bytes ≤ 4 ∧
    isCollective (hOp x.bytes) = false ∧ arrivalAccount s p x.bytes (footprint (64 * units)) = some (a, false) ∧
    stripeOf s p = none ∧
    ∀ h, h = (markUnits x.bytes units (blocksPacket x rest).2.2).1 → stampsCurrent s h = true ∧ keyStanding s p (hKey h) = 1 ∧
      isCollective (hOp h) = false

/-- What the decoding of received bytes may change besides what is named. -/
def onlyDecoded (s t : State) : State := { s with regs := t.regs, lanes := t.lanes, octets := t.octets }

/-- What sending blocks on a port may change. -/
def onlySent (s t : State) : State := { s with ports := t.ports, lanes := t.lanes, octets := t.octets, out := t.out }

/-- R267, R274, R280, R281, R283, R284: the transmitter sends its next packet sealed with the next number and the link epoch, and
keeps it for replay; a packet that arrives well is stored and the expected number rises; one with a bad CRC is counted,
answered with a NAK and the port discards; a port that does not work counts the blocks; what begins with a control
packet's byte 0 is one; in the discard state a packet in whose blocks no control packet begins has no effect but on the
receive time. -/
def Obligations.DataPacketsSentAndReceived : Prop :=
  (∀ (p : Fin 12) (k : Nat) (s : State) (x : Pkt), NextToSend s p k x →
    Runs (.dataPacketTransmit p) s fun t =>
      Output.data p (sealHeader (port s p).link.next (port s p).link.txEpoch x.header) x.payload ∈ t.out ∧
      (port t p).link.next = ((port s p).link.next + 1) % 65536 ∧ (port t p).link.turn = k ∧
      (∃ y ∈ t.pkts, y.id = x.id ∧ y.acct = .replay p ∧ y.seq = (port s p).link.next ∧ y.payload = x.payload) ∧
      t.pkts.length = s.pkts.length ∧ t.mem = s.mem ∧ t.ctxs = s.ctxs) ∧
  (∀ (p : Fin 12) (w : WirePacket) (s : State) (x : RxBlock) (rest : List RxBlock) (units : Nat) (a : Account),
    ArrivesWell s p w x rest units a →
    Runs (.dataPacketReceive p w) s fun t =>
      (∃ y, t.pkts = s.pkts ++ [y] ∧ y.acct = a ∧ y.inPort = some p.val ∧
        y.payload = (rest.map fun b => leBytes 32 b.bytes.toNat).flatten ∧
        y.header = (markUnits x.bytes units (blocksPacket x rest).2.2).1) ∧
      (port t p).link.expect = ((port s p).link.expect + 1) % 65536 ∧ t.mem = s.mem ∧ t.ctxs = s.ctxs) ∧
  (∀ (p : Fin 12) (w : WirePacket) (s : State) (x : RxBlock) (rest : List RxBlock), stageDone (port s p) = true →
    (port s p).state.works = true → (port s p).link.discard = false → (port s p).link.replaying = none →
    rxBlocks s p w = x :: rest → cByte x.bytes 0 < 0xC0 → (x.bad = true ∨ headerCrcOk (port s p).link.expect x.bytes = false) →
    (∀ y ∈ rest, cByte y.bytes 0 < 0xC0) →
    Runs (.dataPacketReceive p w) s fun t => Counted 0x2400 0xB p s t ∧ Counted 0x2400 0xC p s t ∧
      (port t p).link.discard = true ∧ (port t p).link.expect = (port s p).link.expect ∧
      t = { onlySent s t with regs := t.regs }) ∧
  (∀ (p : Fin 12) (w : WirePacket) (s : State), stageDone (port s p) = true → (port s p).state.works = false →
    (∀ y ∈ rxBlocks s p w, cByte y.bytes 0 < 0xC0) →
    Runs (.dataPacketReceive p w) s fun t => t = onlyDecoded s t ∧
      regAt t 0x2400 0x15 p = regAt (bumpBy s 0x2400 0x15 p (rxBlocks s p w).length) 0x2400 0x15 p) ∧
  (∀ (p : Fin 12) (w : WirePacket) (s : State) (b : BitVec 256), stageDone (port s p) = true → (port s p).link.discard = false →
    (port s p).stage ≠ some .a → 0xC0 ≤ cByte w.header 0 → rxBlocks s p w = [⟨b, false, w.first⟩] → cByte b 0 = 0xC1 →
    exec (.dataPacketReceive p w) s = exec (.linkStatusReceive p b) s) ∧
  (∀ (p : Fin 12) (w : WirePacket) (s : State), stageDone (port s p) = true → (port s p).state.works = true →
    (port s p).link.discard = true → (port s p).stage ≠ some .a → cByte w.header 0 < 0xC0 →
    (∀ y ∈ rxBlocks s p w, cByte y.bytes 0 < 0xC0) →
    exec (.dataPacketReceive p w) s = .next (updPort s p fun x => { x with
      rxTime := x.rxTime + wireTime x x.rxWidth (32 + w.payload.length) }))

/-- A control packet of a type is the next thing that is sent, on a port; what follows is its block on the lanes. -/
def SendsControl (p ctype : Nat) (s t : State) : Prop :=
  ∃ body, (t.out.drop s.out.length).head? = some (.control p (control ctype (port s p).link.txEpoch 0 body)) ∧
    t.out.take s.out.length = s.out

/-- R284, R285, R286, R290: LINK_STATUS acknowledges what its DACK covers and sets the XOFF mask; a data NAK has every
unacknowledged packet sent again; REPLAY_START ends the discarding; a control block with an error is counted.

R286, R287, R289, R292: a LINK_STATUS goes out when the refresh time has passed and the order of control packets lets it; a replay timer
that runs out has everything unacknowledged sent again, or, at the replay limit, takes the link down with cause 1; silence
takes it down with cause 2. -/
def Obligations.LinkControl : Prop :=
  (∀ (p : Fin 12) (b : BitVec 256) (s : State), ControlTaken s p b ctStatus → s.colls = [] →
    beyondSent (port s p).link (cNum b 5 2) = false →
    Runs (.linkStatusReceive p b) s fun t => (port t p).link.unacked % 65536 = cNum b 5 2 ∧
      (port t p).link.xoffRx = BitVec.ofNat 5 (cByte b 8) ∧ (port t p).link.heard = s.clock ∧ t.ctxs = s.ctxs ∧ t.mem = s.mem) ∧
  (∀ (p : Fin 12) (b : BitVec 256) (s : State), ControlTaken s p b ctNak → bitAt (cByte b 5) 0 = false → cByte b 6 ≠ 2 →
    cNum b 7 2 = (port s p).link.unacked → (port s p).link.replays ≠ reg s 0x2410 6 → (port s p).trying = none →
    (port s p).link.gap < 4 →
    Runs (.nakReceive p b) s fun t => Counted 0x2400 0xD p s t ∧ Counted 0x2400 0xE p s t ∧
      (∀ x ∈ unackedPkts s p, Output.data p x.header x.payload ∈ t.out) ∧
      (port t p).link.replays = (port s p).link.replays + 1 ∧
      t = { onlySent s t with regs := t.regs }) ∧
  (∀ (p : Fin 12) (b : BitVec 256) (s : State), ControlTaken s p b ctReplayStart → bitAt (cByte b 5) 0 = false →
    seqDist (port s p).link.expect (cNum b 6 2) < 32768 →
    Runs (.replayStartReceive p b) s fun t => (port t p).link.discard = false ∧
      (port t p).link.replaying = (if cNum b 6 2 = (port s p).link.expect then none else some (cNum b 6 2)) ∧
      t = { s with ports := t.ports }) ∧
  (∀ (p : Fin 12) (b : BitVec 256) (s : State), stageDone (port s p) = true → 0xC0 ≤ cByte b 0 →
    (port s p).link.discard = false →
    exec (.controlPacketDiscard p b true) s = .next (bumpAt s 0x2400 0x15 p)) ∧
  (∀ (p : Fin 12) (b : BitVec 256) (s : State), ControlTaken s p b ctIdle →
    exec (.controlPacketDiscard p b false) s = .next (updLink s p fun l => { l with heard := s.clock })) ∧
  (∀ (p : Fin 12) (s : State), (port s p).state.works = true → (port s p).shifting = none →
    (port s p).trying = none → (port s p).link.statusAt + 4 * reg s 0x2410 3 ≤ s.clock → mayLower s p = true →
    Runs (.linkStatusTimer p) s fun t => SendsControl p ctStatus s t ∧ (port t p).link.owed = 0 ∧
      (port t p).link.statusAt = s.clock ∧ t = onlySent s t) ∧
  (∀ (p : Fin 12) (s : State) (since : Nat), (port s p).state.works = true → (port s p).shifting = none →
    (port s p).link.timer = some since → since + replayLimit s p ≤ s.clock → (port s p).link.ctimer = none →
    (port s p).link.replays ≠ reg s 0x2410 6 → (port s p).trying = none → (port s p).link.gap < 4 →
    Runs (.replayTimeout p) s fun t => Counted 0x2400 0xE p s t ∧
      (∀ x ∈ unackedPkts s p, Output.data p x.header x.payload ∈ t.out) ∧
      (port t p).link.replays = (port s p).link.replays + 1 ∧ (port t p).link.timer = some s.clock ∧
      t = { onlySent s t with regs := t.regs }) ∧
  (∀ (p : Fin 12) (s : State) (since : Nat), (port s p).state.works = true → (port s p).shifting = none →
    (port s p).link.timer = some since → since + replayLimit s p ≤ s.clock → (port s p).link.ctimer = none →
    (port s p).link.replays = reg s 0x2410 6 →
    Runs (.replayTimeout p) s fun t => WentDown p 1 t) ∧
  (∀ (p : Fin 12) (s : State), stageDone (port s p) = true → (port s p).shifting = none →
    (port s p).link.heard + 4000 * reg s 0x2410 4 ≤ s.clock →
    Runs (.silenceLimitExpiry p) s fun t => WentDown p 2 t) ∧
  (∀ (p : Fin 12) (s : State), s.clock < (port s p).link.heard + 4000 * reg s 0x2410 4 →
    exec (.silenceLimitExpiry p) s = .next s)

/-! ## Hailing, link start and the standing of ports (chapters 09, 10 and 14) -/

/-- R297, R301, R322: LINK_START is kept, its epoch taken and the expected numbers begin again; an admitted port at its
last stage that the peer has shown SEEN then works; LINK_START is repeated each µs until it does, and the link start
limit takes the link down with cause 6. -/
def Obligations.LinkStarts : Prop :=
  (∀ (p : Fin 12) (b : BitVec 256) (s : State), ControlTaken s p b ctLinkStart → (port s p).outcome ≠ 1 →
    Runs (.linkStartReceive p b) s fun t => (port t p).link.kept = some b ∧ (port t p).link.rxEpoch = hf b 40 2 ∧
      (port t p).link.expect = 0 ∧ (port t p).link.cexpect = 0 ∧ t.tables = s.tables ∧ t.mem = s.mem) ∧
  (∀ (p : Fin 12) (b : BitVec 256) (s : State), ControlTaken s p b ctLinkStart → (port s p).outcome = 1 →
    stageDone (port s p) = true → (port s p).state.works = false → bitAt (cByte b 5) 2 = true → (port s p).stopped = true → (port s p).link.rttAny = true →
    Runs (.linkStartReceive p b) s fun t => (port t p).state.works = true ∧ t.tables.worked = true ∧
      t.tables.retiredSelf = false ∧ t.mem = s.mem) ∧
  (∀ (p : Fin 12) (s : State), stageDone (port s p) = true → (port s p).outcome = 1 → (port s p).state.works = false →
    (port s p).link.startAt + 4000 ≤ s.clock →
    Runs (.linkStartRepeat p) s fun t => SendsControl p ctLinkStart s t ∧ (port t p).link.startAt = s.clock ∧
      t = onlySent s t) ∧
  (∀ (p : Fin 12) (s : State) (since : Nat), (port s p).link.startFrom = some since → (port s p).state.works = false →
    since + 4000 * reg s 0x2410 9 ≤ s.clock → Runs (.linkStartTimeout p) s fun t => WentDown p 6 t) ∧
  (∀ (p : Fin 12) (s : State), (port s p).link.startFrom = none → exec (.linkStartTimeout p) s = .next s)

/-- R298, R300, R453 to R455: the first HAIL after stage A that passes every check admits the port; one that fails check 2
or a later one quarantines it, with the check's number; a HAIL is repeated at its period; without one in the hail limit the
link goes down with cause 6; DEPART takes the link down with cause 4, until its lanes detect signal. -/
def Obligations.Hailing : Prop :=
  (∀ (p : Fin 12) (b : BitVec 256) (s : State), ControlTaken s p b ctHail → (port s p).state.works = false →
    (port s p).stopped = false → (port s p).stage = some .a → (port s p).trying = none → compassUp s = true → (port s p).outcome = 0 →
    hailCheck s p b = 0 →
    Runs (.hailReceive p b) s fun t => (port t p).outcome = 1 ∧ (port t p).check = 0 ∧ (port t p).admitted = some b ∧
      (port t p).hail = some b ∧ t.mem = s.mem ∧ t.ctxs = s.ctxs) ∧
  (∀ (p : Fin 12) (b : BitVec 256) (s : State), ControlTaken s p b ctHail → (port s p).state.works = false →
    (port s p).stopped = false → (port s p).stage = some .a → (port s p).trying = none → compassUp s = true → (port s p).outcome = 0 →
    2 ≤ hailCheck s p b →
    Runs (.hailReceive p b) s fun t => (port t p).state = .quarantined ∧ (port t p).outcome = 3 ∧
      (port t p).check = hailCheck s p b ∧ (port t p).hail = some b ∧ CountedFault 2 p s t ∧ t.tables = s.tables ∧ t.mem = s.mem) ∧
  (∀ (p : Fin 12) (s : State) (d : Nat), hailPeriod (port s p) = some d → (port s p).hailAt + d ≤ s.clock →
    Runs (.hailRepeat p) s fun t => SendsControl p ctHail s t ∧ (port t p).hailAt = s.clock ∧
      t = onlySent s t) ∧
  (∀ (p : Fin 12) (s : State), stageDone (port s p) = true → (port s p).stage = some .a → (port s p).state = .training →
    (port s p).outcome = 0 → (port s p).hailed = false → (port s p).hailFrom + 4000000 * reg s 0x2600 7 ≤ s.clock →
    Runs (.hailTimeout p) s fun t => WentDown p 6 t) ∧
  (∀ (p : Fin 12) (b : BitVec 256) (s : State), ControlTaken s p b ctDepart →
    Runs (.departReceive p b) s fun t => WentDown p 4 t ∧ (port t p).waitSignal = true)

/-- The part of a state that ports, their lanes and what they report may change is left out. -/
def onlyPorts (s t : State) : State := { s with ports := t.ports, lanes := t.lanes, octets := t.octets }

/-- R300, R340, R345, R399: disabling a port stops it with cause 8; enabling an ABSENT one that nothing holds off trains it
from stage A; taking the link down and retraining act on the selected port with cause 5; test mode takes a port, and
symbol error injection (R346) is stored,
and an octet of a running port at stage B or C has that many frames to invert.

R452: a topology plan entry and the plan hash are stored as written. -/
def Obligations.PortsAndPlanWritten : Prop :=
  (∀ (w : WriteHdr) (s : State), ∀ p, p = wsel s w 0x2000 3 → regAt s 0x2000 5 p ≠ 0 → (port s p).state ≠ .absent →
    WriteWorks (.portDisable w) w 0x2000 5 [0] s id fun t => regAt t 0x2000 5 p = 0 ∧ WentDown p 8 t) ∧
  (∀ (w : WriteHdr) (s : State), ∀ p, p = wsel s w 0x2000 3 → regAt s 0x2000 5 p = 0 → (port s p).state = .absent →
    (port s p).heldOff = false → (port s p).thermOff = false → s.flash.returned = false → s.pins.pcycReq = false →
    s.pins.cutWarn = false → s.pins.cutGone = none → homeThere s p = true → 0 < portWidth s p → s.phase = .running →
    WriteWorks (.portEnable w) w 0x2000 5 [1] s (onlyPorts s) fun t => regAt t 0x2000 5 p = 1 ∧
      (port t p).state = .training ∧ (port t p).trying = some .a ∧ ∀ q, q ≠ p → port t q = port s q) ∧
  (∀ (w : WriteHdr) (s : State), ∀ p, p = wsel s w 0x2400 1 → (port s p).state ≠ .absent →
    WriteWorks (.takeLinkDown w) w 0x2400 0x17 [1] s id fun t => WentDown p 5 t) ∧
  (∀ (w : WriteHdr) (s : State), ∀ p, p = wsel s w 0x2000 3 → (port s p).state ≠ .absent →
    WriteWorks (.retrain w) w 0x2000 0xC [1] s id fun t => WentDown p 5 t) ∧
  (∀ (w : WriteHdr) (v : BitVec 8) (s : State), v.toNat ≤ 11 → testPort s = none → working s v.toNat = false →
    WriteWorks (.testMode w v) w 0x2300 1 [v] s (onlyPorts s) fun t => (port t v.toNat).test = true ∧
      (port t v.toNat).state = .training ∧ (port t v.toNat).trying = none ∧ reg t 0x2300 1 = v.toNat ∧
      ∀ q, q ≠ v.toNat → port t q = port s q) ∧
  (∀ (w : WriteHdr) (v : BitVec 64) (s : State), fld v.toNat 0 4 ≤ 11 → 1 ≤ fld v.toNat 4 5 → fld v.toNat 4 5 ≤ 16 →
    fld v.toNat 11 16 ≠ 0 → fld v.toNat 27 32 = 0 →
    WriteWorks (.symbolErrorInject w v) w 0x2300 0xA (leBytes 8 v.toNat) s (fun t => { s with octets := t.octets }) fun t =>
      regAt t 0x2300 0xA 0 = fld v.toNat 0 59 ∧ ∀ o, o < 12 → (octet t o).injectLeft = 0) ∧
  (∀ (w : WriteHdr) (v : BitVec 64) (s : State), ∀ o, o = fld v.toNat 0 4 → o ≤ 11 → 1 ≤ fld v.toNat 4 5 → fld v.toNat 4 5 ≤ 16 →
    fld v.toNat 11 16 ≠ 0 → injectable s o = true →
    WriteWorks (.symbolErrorInject w v) w 0x2300 0xA (leBytes 8 v.toNat) s (fun t => { s with octets := t.octets }) fun t =>
      regAt t 0x2300 0xA 0 = fld v.toNat 0 59 ∧ (octet t o).injectLeft = fld v.toNat 27 32 ∧ (octet t o).injectAt = 0) ∧
  (∀ (w : WriteHdr) (v : BitVec 64) (s : State), ∀ p, p = fld v.toNat 0 4 → p ≤ 11 → fld v.toNat 24 4 ≤ 11 →
    (port s p).state ≠ .extra → (port s p).state ≠ .quarantined → working s p = false →
    WriteWorks (.planEntryWrite w v) w 0x2600 1 (leBytes 8 v.toNat) s (fun t => { s with tables := t.tables }) fun t =>
      planEntry t p = fld v.toNat 0 5 + fld v.toNat 8 22 * 256 ∧
      t.tables = { s.tables with plan := t.tables.plan } ∧ ∀ q, q ≠ p → planEntry t q = planEntry s q) ∧
  (∀ (w : WriteHdr) (v : BitVec 32) (s : State),
    (∀ p, (port s p).state ≠ .extra ∧ (port s p).state ≠ .quarantined) →
    WriteWorks (.planHashWrite w v) w 0x2600 4 (leBytes 4 v.toNat) s (fun _ => s) fun t => reg t 0x2600 4 = v.toNat)

/-! ## Training and lanes (chapter 10) -/

/-- R330, R331: loss of signal and of lock are counted, reported and held until they clear; on a port that trains stage A
the lane aligns anew, on a port that runs at stage A on it the link goes down with cause 3. -/
def Obligations.LanesLoseSignal : Prop :=
  (∀ (l : Fin 108) (p : Nat) (s : State), (lane s l).los = false → octetPort s (l / 9) = some p → (port s p).trying = some .a →
    awake s = true →
    Runs (.laneLos l) s fun t => (lane t l).los = true ∧ (lane t l).losAt = s.clock ∧ (lane t l).aligned = false ∧
      Counted 0x2100 4 l s t ∧ CountedFault 1 (l / 9) s t ∧
      t = { s with lanes := t.lanes, regs := t.regs, faults := t.faults } ∧ ∀ k, k ≠ l.val → lane t k = lane s k) ∧
  (∀ (l : Fin 108) (p : Nat) (s : State), (lane s l).lol = false → octetPort s (l / 9) = some p → (port s p).trying = some .a →
    awake s = true →
    Runs (.laneLol l) s fun t => (lane t l).lol = true ∧ (lane t l).lolAt = s.clock ∧ (lane t l).aligned = false ∧
      Counted 0x2100 5 l s t ∧ CountedFault 1 (l / 9) s t ∧
      t = { s with lanes := t.lanes, regs := t.regs, faults := t.faults } ∧ ∀ k, k ≠ l.val → lane t k = lane s k) ∧
  (∀ (l : Fin 108) (p : Nat) (s : State) (i : Instr),
    ((i = .laneLos l ∧ (lane s l).los = false) ∨ (i = .laneLol l ∧ (lane s l).lol = false)) →
    octetPort s (l / 9) = some p → stageDone (port s p) = true → (port s p).stage = some .a →
    ((octet s (l / 9)).state = 0 ∨ (octet s (l / 9)).state = 1) → (lane s l).role ≠ 4 → (lane s l).role ≠ 5 →
    Runs i s fun t => WentDown p 3 t) ∧
  (∀ (l : Fin 108) (p : Nat) (s : State), (lane s l).los = true → octetPort s (l / 9) = some p → (port s p).state ≠ .absent →
    exec (.laneLosClear l) s = .next (setLane s l (lockAgain s.clock { lane s l with los := false }))) ∧
  (∀ (l : Fin 108) (s : State), (lane s l).lol = true →
    exec (.laneLolClear l) s = .next (setLane s l (lockAgain s.clock { lane s l with lol := false }))) ∧
  (∀ (l : Fin 108) (s : State), (lane s l).los = true → exec (.laneLos l) s = .next s)

/-- A lane whose port trains stage A and that sees signal and holds bit lock. -/
def SeesSets (s : State) (l p : Nat) : Prop :=
  octetPort s (l / 9) = some p ∧ trainsA (port s p) = true ∧ (lane s l).los = false ∧ (lane s l).lol = false

/-- A lane whose port trains stage B or C by frames of that stage, with no step still due. -/
def SeesFrames (s : State) (l p : Nat) (st : Stage) : Prop :=
  octetPort s (l / 9) = some p ∧ (port s p).stepAt = none ∧ (port s p).trying = some st ∧ st ≠ .a ∧ (port s p).test = false ∧
    (port s p).widening = false

/-- R310, R311, R318, R319: the fourth sound training set in a row aligns its lane; without alignment a bit is slipped
after 256 character times; a control field with a good CHK sets the lane's readiness and precoding as the peer asks, one
with a bad CHK changes nothing, and START tells when the peer's stream begins; a receiver that is done is ready, its CTLE and
its taps no further from where they were than one step in 10 µs, and asks for precoding by its first tap. -/
def Obligations.LanesTrain : Prop :=
  (∀ (l : Fin 108) (p : Nat) (groups : List CodeGroup) (s : State), SeesSets s l p → groups.length = 32 →
    (((decodeGroups groups (lane s l).disparity).1.head?.bind id).map (·.1)) = some k28_5 →
    (decodeGroups groups (lane s l).disparity).1.all Option.isSome = true → 3 ≤ (lane s l).commas → (lane s l).sets = 0 →
    Runs (.trainingSetReceive l groups) s fun t => (lane t l).aligned = true ∧ (lane t l).commas = (lane s l).commas + 1 ∧
      t = { s with lanes := t.lanes, regs := t.regs } ∧ ∀ k, k ≠ l.val → lane t k = lane s k) ∧
  (∀ (l : Fin 108) (p : Nat) (s : State), SeesSets s l p → (lane s l).aligned = false → (lane s l).slipAt + 993 ≤ s.clock →
    exec (.bitSlip l) s = .next (setLane s l { lane s l with
      offset := ((lane s l).offset + 1) % 10, slipAt := s.clock, slips := (lane s l).slips + 1, commas := 0 })) ∧
  (∀ (l : Fin 108) (p : Nat) (st : Stage) (c : BitVec 64) (s : State), SeesFrames s l p st →
    ctlCheck c.toNat = fld c.toNat 60 4 → bitAt c.toNat 33 = false → fld c.toNat 8 2 = st.code →
    Runs (.trainingFrameReceive l c) s fun t => (lane t l).precodeTx = bitAt c.toNat 32 ∧
      (lane t l).peerReady = ((lane s l).peerReady || bitAt c.toNat 23) ∧
      (lane t l).peerLane = BitVec.ofNat 8 (fld c.toNat 0 8) ∧ (lane t l).marker.isSome = true ∧
      (bitAt c.toNat 34 = true → (port s p).rxStart = none →
        (port t p).rxStart = some (s.clock + fld c.toNat 52 8 * frameSpan (some st))) ∧
      t = onlyPorts s t ∧ ∀ k, k ≠ l.val → lane t k = lane s k) ∧
  (∀ (l : Fin 108) (c : BitVec 64) (s : State), ctlCheck c.toNat ≠ fld c.toNat 60 4 →
    (∀ p, octetPort s (l / 9) = some p → (port s p).widening = false) →
    exec (.trainingFrameReceive l c) s = .next s) ∧
  (∀ (l : Fin 108) (p : Nat) (ctle : Fin 41) (dfe : List (BitVec 8)) (s : State), octetPort s (l / 9) = some p → dfe.length = 12 →
    (port s p).stepAt = none → trainsFrames (port s p) = true → (lane s l).los = false →
    Runs (.receiverAdaptationDone l ctle dfe) s fun t => (lane t l).rxReady = true ∧
      (∀ n, n = adaptSteps s.clock (lane s l) →
        (lane t l).ctle = (stepToward n (lane s l).ctle ctle.val).toNat ∧
        ∀ i, 1 ≤ i → i < 12 →
          (lane t l).dfe.getD i 0 = BitVec.ofInt 8 (stepToward n ((lane s l).dfe.getD i 0).toInt (dfe.getD i 0).toInt)) ∧
      (lane t l).precodeRx = decide (1024 < 10 * ((lane t l).dfe.headD 0).toInt) ∧
      t = { s with lanes := t.lanes, ports := t.ports, out := t.out } ∧ ∀ k, k ≠ l.val → lane t k = lane s k)

/-- Every lane of a port passed its check window: it holds marker lock, with errors over bits at or below the pass ratio
(R320). -/
def WindowPassed (s : State) (p : Nat) (counts : List LaneCount) : Prop :=
  ∀ l ∈ portLanes s p, deaf (lane s l) = false ∧ (lane s l).marker.isSome = true ∧
    ∃ c, countOf counts l = some c ∧ ratioOk c.errors c.bits (port s p).attempt.ratio = true

/-- R320 to R322: a check window that every lane passed has START begin, and counts the attempt; the end of START's
countdown begins the block stream of the stage; a stage C limit falls back to stage B, a stage B limit to stage A; a port
whose stage A failed 1 s ago trains again. In test mode the checkers of the lanes count and lock (R345, whose window
is CHECK_WINDOW_END by log entry 47). -/
def Obligations.StagesEnd : Prop :=
  (∀ (p : Fin 12) (counts : List LaneCount) (s : State) (since : Nat), (port s p).stepAt = none →
    (port s p).readyAt = some since → (port s p).trying = some .c → (port s p).test = false → (port s p).shifting = none →
    (port s p).starting = none → since + 4000000 * (port s p).attempt.window ≤ s.clock →
    (∃ o ∈ portOctets s p, (octet s o).state ≠ 3) →
    minWidth s p ≤ portWidth s p → WindowPassed s p counts →
    Runs (.checkWindowEnd p counts) s fun t => (port t p).starting = some (reg s 0x2500 8, s.clock) ∧ (port t p).trying = some .c ∧
      Counted 0x2000 0xB p s t ∧ (∀ l ∈ portLanes s p, (lane t l).failed = false) ∧
      t = { onlyPorts s t with regs := t.regs }) ∧
  (∀ (p : Fin 12) (counts : List LaneCount) (s : State), (port s p).test = true → bitAt (reg s 0x2300 2) 1 = true →
    Runs (.checkWindowEnd p counts) s fun t => t = { s with regs := t.regs } ∧
      ∀ l ∈ portLanes s p, ∀ c, countOf counts l = some c →
        regAt t 0x2300 7 l = (regAt s 0x2300 7 l + c.bits) % 2 ^ 64 ∧
        regAt t 0x2300 8 l = (regAt s 0x2300 8 l + c.errors) % 2 ^ 64 ∧ regAt t 0x2300 9 l = 1) ∧
  (∀ (p : Fin 12) (s : State) (st : Stage) (n since : Nat), (port s p).starting = some (n, since) → (port s p).trying = some st →
    (port s p).shifting = none → since + n * frameSpan (some st) ≤ s.clock →
    Runs (.startCountdownEnd p) s fun t => (port t p).stage = some st ∧ (port t p).trying = none ∧
      (port t p).starting = none ∧ (port t p).link.startFrom = some s.clock ∧ t.mem = s.mem ∧ t.ctxs = s.ctxs) ∧
  (∀ (p : Fin 12) (s : State), (port s p).starting = none → exec (.startCountdownEnd p) s = .next s) ∧
  (∀ (p : Fin 12) (s : State) (st : Stage) (n since : Nat), (port s p).starting = some (n, since) → (port s p).trying = some st →
    s.clock < since + n * frameSpan (some st) → exec (.startCountdownEnd p) s = .next s) ∧
  (∀ (p : Fin 12) (s : State) (hi lo : Stage), (hi, lo) ∈ [(Stage.b, Stage.a), (.c, .b)] →
    (port s p).stepAt = none → (port s p).trying = some hi → (port s p).test = false → (port s p).shifting = none →
    (port s p).starting = none → (port s p).tryAt + 4000000 * (port s p).attempt.limit ≤ s.clock →
    Runs (.stageTimeout p) s fun t => (port t p).stage = some lo ∧ (port t p).trying = none ∧ (port t p).stopped = true ∧
      Counted 0x2000 0xB p s t ∧ t.mem = s.mem ∧ t.ctxs = s.ctxs) ∧
  (∀ (p : Fin 12) (s : State), (port s p).state = .absent → (port s p).waitSignal = false → (port s p).test = false →
    (port s p).tryAt + 4000000000 ≤ s.clock → portOpen s p = true → 0 < portWidth s p → s.phase = .running →
    Runs (.stageARetry p) s fun t => (port t p).state = .training ∧ (port t p).trying = some .a ∧ t = onlyPorts s t ∧
      ∀ q, q ≠ p.val → port t q = port s q)

/-! ## Codewords and lane management (chapter 10) -/

/-- A peer's lane management command that this side takes: the port runs at stage B or C, and no command is in progress. -/
def PeerMayCommand (s : State) (p cmd : Nat) (arg : BitVec 8) : Prop :=
  runsFec (port s p) = true ∧ (port s p).state.works = true ∧ argKnown s p cmd arg = true ∧ (port s p).lmc = none

/-- R323, R325: a sound codeword changes nothing; one that is corrected is counted at its octet, one that cannot be is
counted and reported, and its bytes are marked.

R333, R334, R336: a SPARE, UNSPARE, WIDTH or SHIFT of the peer is acknowledged with the countdown and in progress, or
refused, and from the ACK on the position of a SPARE goes out on SP; an ACK starts the countdown of the receive direction, and of
a command of both directions this side sends its own; a REFUSE and 20 µs without an answer end the own command. -/
def Obligations.CodewordsAndLaneCommands : Prop :=
  (∀ (o : Fin 12) (c : Fin 4) (symbols : List (BitVec 10)) (s : State) (p : Nat), octetPort s o = some p →
    runsFec (port s p) = true → ((octet s o).state = 0 ∨ (octet s o).state = 1) → symbols.length = 240 → c.val ≠ 3 →
    Runs (.codewordDecode o c symbols) s fun t =>
      (match rsErrors (symbols.map BitVec.toNat) with
       | some [] => t = s
       | some _ => Counted 0x2200 3 o s t ∧ t = { s with lanes := t.lanes, regs := t.regs }
       | none => Counted 0x2200 4 o s t ∧ ((octet s o).frame, c.val) ∈ (octet t o).badWords ∧
           t = { s with lanes := t.lanes, octets := t.octets, regs := t.regs, faults := t.faults })) ∧
  (∀ (p : Fin 12) (arg : BitVec 8) (s : State) (i : Instr) (cmd : Nat),
    (i, cmd) ∈ [(Instr.spare p arg, 1), (.unspare p arg, 2), (.width p arg, 3), (.shift p arg, 4)] →
    PeerMayCommand s p cmd arg → refusesLmc s p cmd arg = false →
    Runs i s fun t => t.out = s.out ++ [.lane p 5 (BitVec.ofNat 8 cmd) (reg s 0x2500 8)] ∧
      (port t p).lmc = some { cmd := cmd, arg := arg, own := false, at_ := s.clock, acked := true,
                              tx := some (reg s 0x2500 8, s.clock), rx := none, txDone := false, rxDone := false } ∧
      (cmd = 3 → (port t p).peerCeil = arg.toNat) ∧
      (cmd = 1 → ∃ o, argOctet s p arg = some o ∧ (octet t o).txSpare = some (arg.toNat % 16)) ∧
      (cmd ≠ 1 → t.octets = s.octets ∧ t.lanes = s.lanes) ∧ t = { onlyPorts s t with out := t.out } ∧
      ∀ q, q ≠ p.val → port t q = port s q) ∧
  (∀ (p : Fin 12) (arg : BitVec 8) (s : State) (i : Instr) (cmd : Nat),
    (i, cmd) ∈ [(Instr.spare p arg, 1), (.shift p arg, 4)] → PeerMayCommand s p cmd arg → refusesLmc s p cmd arg = true →
    exec i s = .next (emit s (.lane p 6 (BitVec.ofNat 8 cmd) 0))) ∧
  (∀ (p : Fin 12) (arg cd : BitVec 8) (s : State) (m : Lmc), (port s p).lmc = some m → m.own = true → m.acked = false →
    m.cmd = arg.toNat → m.rx = none → m.rxDone = false →
    Runs (.ack p arg cd) s fun t =>
      (port t p).lmc = some { m with acked := true, rx := some (cd.toNat, s.clock),
                                     tx := if bothWays m.cmd then some (reg s 0x2500 8, s.clock) else m.tx } ∧
      t.out = s.out ++ (if bothWays m.cmd then [.lane p 5 arg (reg s 0x2500 8)] else []) ∧
      t = { s with ports := t.ports, out := t.out } ∧ ∀ q, q ≠ p.val → port t q = port s q) ∧
  (∀ (p : Fin 12) (arg cd : BitVec 8) (s : State) (m : Lmc), (port s p).lmc = some m → m.own = false → bothWays m.cmd = true →
    m.cmd = arg.toNat → m.rx = none → m.rxDone = false →
    exec (.ack p arg cd) s =
      .next (setPort s p { port s p with lmc := some { m with rx := some (cd.toNat, s.clock) } })) ∧
  (∀ (p : Fin 12) (arg : BitVec 8) (s : State) (m : Lmc) (i : Instr), (port s p).lmc = some m → m.own = true →
    m.acked = false → (port s p).lmcQ = [] →
    ((i = .refuse p arg ∧ m.cmd = arg.toNat) ∨ (i = .lmcRepeatTimeout p ∧ m.at_ + 80000 ≤ s.clock)) →
    exec i s = .next (setPort s p { port s p with lmc := none }))

/-- A countdown of a port has passed. -/
def CountedDown (s : State) (p : Nat) (c : Option (Nat × Mt)) : Prop :=
  ∃ n since, c = some (n, since) ∧ since + n * frameSpan (port s p).stage ≤ s.clock

/-- R334, R336, R338, R339: at the switch frame of a direction, once its countdown's frames have passed, an acknowledged WIDTH
puts the octets in use that both ceilings leave, a SPARE of the peer carries its position on SP, and a SPARE of this side
has it taken from SP; the command is over when every direction concerned has changed. A shift past its limit takes the
link down with cause 3. -/
def Obligations.SwitchFrames : Prop :=
  (∀ (p : Fin 12) (s : State) (m : Lmc), (port s p).lmc = some m → m.cmd = 3 → (port s p).lmcQ = [] →
    CountedDown s p m.tx → CountedDown s p m.rx → s.colls = [] →
    Runs (.switchFrame p) s fun t => (port t p).txOcts = octetsFor s p ∧ (port t p).rxOcts = octetsFor s p ∧
      ((port s p).txOcts ≠ octetsFor s p → (port t p).txWidth = (octetsFor s p).length) ∧
      ((port s p).rxOcts ≠ octetsFor s p → (port t p).rxWidth = (octetsFor s p).length) ∧
      (port t p).lmc = none ∧ t.mem = s.mem ∧ t.ctxs = s.ctxs) ∧
  (∀ (p : Fin 12) (s : State) (m : Lmc), (port s p).lmc = some m → m.cmd = 3 → CountedDown s p m.tx →
    m.rx = none → m.rxDone = false → s.colls = [] →
    Runs (.switchFrame p) s fun t => (port t p).txOcts = octetsFor s p ∧ (port t p).rxOcts = (port s p).rxOcts ∧
      (port t p).lmc = some { m with tx := none, txDone := true } ∧ t.mem = s.mem ∧ t.ctxs = s.ctxs) ∧
  (∀ (p : Fin 12) (s : State) (m : Lmc) (o : Nat), (port s p).lmc = some m → m.own = false → m.cmd = 1 →
    argOctet s p m.arg = some o → (port s p).lmcQ = [] → CountedDown s p m.tx → m.rx = none → s.colls = [] →
    Runs (.switchFrame p) s fun t => (octet t o).txSpare = some (m.arg.toNat % 16) ∧ (octet t o).txFreed = true ∧
      (port t p).lmc = none ∧ t = onlyPorts s t) ∧
  (∀ (p : Fin 12) (s : State) (m : Lmc) (l : Nat), (port s p).lmc = some m → m.own = true → m.cmd = 1 →
    laneOfArg s p m.arg = some l → (port s p).lmcQ = [] → CountedDown s p m.rx → m.tx = none → s.colls = [] →
    Runs (.switchFrame p) s fun t => (octet t (l / 9)).rxSpare = some (m.arg.toNat % 16) ∧
      (port t p).lmc = none ∧ t = onlyPorts s t) ∧
  (∀ (p : Fin 12) (s : State) (m : Lmc), (port s p).lmc = some m →
    (∀ n since, m.tx = some (n, since) ∨ m.rx = some (n, since) → s.clock < since + n * frameSpan (port s p).stage) →
    exec (.switchFrame p) s = .next s) ∧
  (∀ (p : Fin 12) (s : State) (st : Stage) (since : Nat), (port s p).shifting = some (st, since) → shiftOver s p = false →
    since + 4000 * reg s 0x2500 7 ≤ s.clock → Runs (.shiftTimeout p) s fun t => WentDown p 3 t) ∧
  (∀ (p : Fin 12) (s : State), (port s p).shifting = none → exec (.shiftTimeout p) s = .next s)

/-! ## Meridian time and Charts (chapters 08 and 11) -/

/-- R349: byte `i` of the time page. -/
def pageByte (s : State) (i : Nat) : Byte :=
  BitVec.ofNat 8 (if i < 8 then s.mer.count / 256 ^ i
    else if i = 8 then s.mer.state.code
    else if i = 9 then (if s.mer.state = .unset then 255 else s.mer.stratum)
    else if i = 10 then (if s.mer.state = .unset then 0 else s.mer.master.toNat % 256)
    else if i = 11 then (if s.mer.state = .unset then 0 else s.mer.master.toNat / 256)
    else 0)

/-- An accepted edge of MER_REF (R480). -/
def EdgeAccepted (s : State) : Prop :=
  isMaster s = true ∧ s.mer.isMaster = true ∧ awake s = true ∧ ∀ a, s.mer.merRefAt = some a → a + 3600000 ≤ s.clock

/-- A sample at a count `n` just set corrects no further by a step: the first one at a multiple of 1 ms, or one whose filtered
offset lies within 32 mt and the step threshold (R348, R354, R356). -/
def SmallSample (s : State) (n : Nat) : Prop :=
  ((s.mer.first = true ∨ s.mer.state = .unset) ∧ n % 4000000 = 0) ∨
    (s.mer.first = false ∧ s.mer.state ≠ .unset ∧
      ∀ f, f = Config.offsetFilter (refOffset n) 0 → -32 ≤ f ∧ f ≤ 32 ∧ -stepThreshold s ≤ f ∧ f ≤ stepThreshold s)

/-- The device enters HOLDOVER and reports it (R357). -/
def EntersHoldover (s t : State) : Prop :=
  t.mer.state = .holdover ∧ t.mer.holdFrom = some s.clock ∧ t.mer.count = s.mer.count ∧ CountedFault 9 0 s t ∧
    t = { s with mer := t.mer, regs := t.regs, faults := t.faults }

/-- R350: the device may take the role of Meridian master: the designated master after listening without hearing of
the standby, the standby after twice that without the designated master. -/
def RoleFree (s : State) : Prop :=
  (designation s 1 = some (ownNode s) ∧ s.mer.listenFrom + 4000000 * reg s 0x9010 3 ≤ s.clock ∧
    ∀ a, s.mer.heardStb = some a → a < s.mer.listenFrom) ∨
  (designation s 1 ≠ some (ownNode s) ∧ designation s 2 = some (ownNode s) ∧
    s.mer.listenStb + 8000000 * reg s 0x9010 3 ≤ s.clock ∧
    ∀ a, s.mer.heardDes = some a → a + 8000000 * reg s 0x9010 3 ≤ s.clock)

/-- R349, R351, R352, R357, R480: the time page reads the count, the state, the stratum and the master; an edge of MER_REF
at the Meridian master is a sample, and first sets the count to a time that was set; a device that is not the master ignores
it; no edge for 3 ms, and an upstream lost for four beacon intervals, lead into HOLDOVER, and a long holdover is reported.

R350, R351, R352, R493: a node whose turn it is takes the role at stratum 0; without MER_REF it holds over from its
present count. A designation is stored, and the write that makes the own node's valid starts its listening time; a time set waits for the next
edge of MER_REF. -/
def Obligations.MeridianTime : Prop :=
  (∀ (o : Fin 4096) (len : Nat) (th : BitVec 16) (s : State), Runs (.timePageRead o len th) s fun t =>
    ∃ data, t = emit s (.timePage th data) ∧ data.length = len ∧
      ∀ k, k < len → data[k]? = some (pageByte s (o.val + k))) ∧
  (∀ s : State, (isMaster s = false ∨ s.mer.isMaster = false) → exec .merRefEdge s = .next s) ∧
  (∀ s : State, EdgeAccepted s → s.mer.setTo = none →
    Runs .merRefEdge s fun t => t.mer.everLocked = true ∧ t.mer.merRefAt = some s.clock ∧
      t = { s with mer := t.mer, regs := t.regs, faults := t.faults, charts := t.charts }) ∧
  (∀ (s : State) (n : Nat), EdgeAccepted s → s.mer.setTo = some n → s.mer.count < n → n < 2 ^ 64 → SmallSample s n →
    Runs .merRefEdge s fun t => t.mer.count = n ∧ t.mer.setTo = none ∧ t.mer.merRefAt = some s.clock ∧ t.mer.everLocked = true ∧
      Counted 0x9000 7 0 s t ∧ CountedFault 9 0 s t ∧
      t = { s with mer := t.mer, regs := t.regs, faults := t.faults, charts := t.charts }) ∧
  (∀ (s : State) (a : Nat), s.mer.merRefAt = some a → s.clock < a + 3600000 → exec .merRefEdge s = .next s) ∧
  (∀ (s : State) (a : Nat), awake s = true → s.mer.isMaster = true → s.mer.refGone = false → s.mer.merRefAt = some a →
    a + 12000000 ≤ s.clock → Runs .merRefLoss s fun t => t.mer.refGone = true ∧ Counted 0x9010 5 0 s t ∧
      t.mer.state = .holdover ∧ (s.mer.state ≠ .holdover → EntersHoldover s t)) ∧
  (∀ s : State, s.mer.refGone = true → exec .merRefLoss s = .next s) ∧
  (∀ s : State, awake s = true → isMaster s = true → s.mer.isMaster = false →
    (s.mer.state = .acquiring ∨ s.mer.state = .locked) → upstreams s = [] →
    s.mer.upAt + 16000 * reg s 0x9020 1 ≤ s.clock → Runs .upstreamLoss s fun t => EntersHoldover s t) ∧
  (∀ (s : State) (a : Nat), awake s = true → s.mer.state = .holdover → s.mer.holdTold = false → s.mer.holdFrom = some a →
    a + 4000000000 * reg s 0x9020 4 ≤ s.clock →
    Runs .holdoverLimit s fun t => t.mer = { s.mer with holdTold := true } ∧ CountedFault 9 0 s t ∧
      t = { s with mer := t.mer, regs := t.regs, faults := t.faults }) ∧
  (∀ (s : State) (a : Nat), isMaster s = true → s.mer.isMaster = false → RoleFree s → s.mer.merRefAt = some a →
    s.clock < a + 12000000 →
    Runs .masterTakeover s fun t => t.mer.isMaster = true ∧ t.mer.stratum = 0 ∧ t.mer.master = ownNode s ∧
      t.mer.state = (if s.mer.state = .unset then .acquiring else s.mer.state) ∧ t.mer.count = s.mer.count ∧
      t = { s with mer := t.mer }) ∧
  (∀ s : State, isMaster s = true → s.mer.isMaster = false → RoleFree s → s.mer.merRefAt = none →
    Runs .masterTakeover s fun t => t.mer.isMaster = true ∧ t.mer.stratum = 0 ∧ t.mer.master = ownNode s ∧
      t.mer.state = .holdover ∧ t.mer.everLocked = true ∧ t.mer.count = s.mer.count ∧
      t = { s with mer := t.mer, regs := t.regs, faults := t.faults, charts := t.charts }) ∧
  (∀ (w : WriteHdr) (standby : Bool) (v : BitVec 32) (s : State), ∀ sub, sub = (if standby then 2 else 1) →
    WriteWorks (.designationWrite w standby v) w 0x9010 sub (leBytes 4 v.toNat) s (fun t => { s with mer := t.mer }) fun t =>
      reg t 0x9010 sub = fld v.toNat 0 17 ∧
      t.mer.listenFrom = (if standby = false ∧ designation t 1 = some (ownNode s) ∧ designation s 1 ≠ some (ownNode s)
        then s.clock else s.mer.listenFrom) ∧
      t.mer.listenStb = (if standby = true ∧ designation t 2 = some (ownNode s) ∧ designation s 2 ≠ some (ownNode s)
        then s.clock else s.mer.listenStb) ∧
      t.mer.isMaster = (s.mer.isMaster && designation t 1 == some (ownNode s)) ∧
      t.mer.count = s.mer.count ∧ t.mer.state = s.mer.state) ∧
  (∀ (w : WriteHdr) (time : BitVec 64) (s : State), s.mer.isMaster = true → time.toNat % 4000000 = 0 →
    countAtEdge s < time.toNat →
    WriteWorks (.timeSet w time) w 0x9010 4 (leBytes 8 time.toNat) s (fun t => { s with mer := t.mer }) fun t =>
      t.mer = { s.mer with setTo := some time.toNat })

/-- A received beacon that completes a sample (R353): the first since the own last one, in time. -/
def Completes (s : State) (p : Nat) (b : BitVec 256) : Prop :=
  (port s p).fresh = 0 ∧ (port s p).t1 ≠ 0 ∧ cNum b 13 8 ≠ 0 ∧ s.mer.count ≤ (port s p).t1 + 16000 * reg s 0x9020 1

/-- R353: the delay of the sample. -/
def SampleDelay (s : State) (p : Nat) (b : BitVec 256) : Int :=
  (((s.mer.count : Int) - ((port s p).t1 : Int)) - ((cNum b 5 8 : Int) - (cNum b 13 8 : Int))) / 2 +
    toSigned 32 (regAt s 0x9020 6 p)

/-- R289, R350, R353 to R355: a working port sends a beacon once the interval has passed with one received since, or after
four, and the data stream lets it; a
beacon received is noted, an upstream chosen, and a sample whose delay lies near the mean is used, or sent to inst 0; one
further off is counted. Beacons and samples of other insts are noted at inst 0; the others take none. -/
def Obligations.Beacons : Prop :=
  (∀ (p : Fin 12) (s : State), (port s p).state.works = true →
    (((port s p).beaconAt + 4000 * reg s 0x9020 1 ≤ s.clock ∧ 0 < (port s p).fresh) ∨
      (port s p).beaconAt + 16000 * reg s 0x9020 1 ≤ s.clock) → mayControl s p = true →
    replayWaits s p = false →
    Runs (.beaconSend p) s fun t => SendsControl p ctBeacon s t ∧ (port t p).t1 = s.mer.count ∧
      (port t p).beaconAt = s.clock ∧ (port t p).fresh = 0 ∧ (port t p).bseq = ((port s p).bseq + 1) % 256 ∧
      t = onlySent s t ∧ ∀ q, q ≠ p.val → port t q = port s q) ∧
  (∀ (p : Fin 12) (s : State), s.clock < (port s p).beaconAt + 4000 * reg s 0x9020 1 → exec (.beaconSend p) s = .next s) ∧
  (∀ (p : Fin 12) (b : BitVec 256) (s : State), ControlTaken s p b ctBeacon → (port s p).fresh ≠ 0 →
    Runs (.beaconReceive p b) s fun t => (port t p).peerBeacon = some b ∧ (port t p).peerBeaconAt = s.clock ∧
      (port t p).t2Rx = s.mer.count ∧ (port t p).fresh = (port s p).fresh + 1 ∧ t.mer.count = s.mer.count ∧
      (isMaster s = true → s.mer.isMaster = false → upstreams t ≠ [] →
        ∃ c ∈ upstreams t, t.mer.upstream = c.code ∧ (t.mer.stratum = c.stratum + 1) ∧ t.mer.master = c.master) ∧
      t.out = (if isMaster s then s.out
        else s.out ++ [.cascadeBeacon p none (bMaster b) (BitVec.ofNat 8 (bStratum b)) (bHold b)]) ∧
      t = { s with ports := t.ports, mer := t.mer, out := t.out } ∧ ∀ q, q ≠ p.val → port t q = port s q) ∧
  (∀ (p : Fin 12) (b : BitVec 256) (s : State) (d off : Int), ControlTaken s p b ctBeacon → isMaster s = false →
    Completes s p b → (port s p).delays.length < 16 → d = SampleDelay s p b →
    off = (s.mer.count : Int) - ((cNum b 5 8 : Int) + d) →
    Runs (.beaconReceive p b) s fun t => (port t p).delays = (port s p).delays ++ [d] ∧
      t.out = s.out ++ [.cascadeBeacon p (some (d, off)) (bMaster b) (BitVec.ofNat 8 (bStratum b)) (bHold b)] ∧
      t = { s with ports := t.ports, mer := t.mer, out := t.out }) ∧
  (∀ (p : Fin 12) (b : BitVec 256) (s : State) (d : Int), ControlTaken s p b ctBeacon → isMaster s = false →
    Completes s p b → (port s p).delays.length = 16 → d = SampleDelay s p b → 20 < d - meanDelay (port s p) →
    Runs (.beaconReceive p b) s fun t => (port t p).delays = (port s p).delays ∧ Counted 0x9020 8 p s t ∧
      t.out = s.out ++ [.cascadeBeacon p none (bMaster b) (BitVec.ofNat 8 (bStratum b)) (bHold b)] ∧
      t = { s with ports := t.ports, mer := t.mer, regs := t.regs, out := t.out }) ∧
  (∀ (src : Fin 4) (p : Fin 12) (delay off : Int) (m : NodeId) (st : BitVec 8) (h : Bool) (s : State), awake s = true →
    isMaster s = true → src.val ≠ 0 →
    Runs (.cascadeBeaconSample src p delay (some off) m st h) s fun t =>
      tget t.mer.remote (src.val * 12 + p.val) = some (off, m, st.toNat, h, s.clock) ∧
      t = { s with mer := t.mer, regs := t.regs, faults := t.faults, charts := t.charts }) ∧
  (∀ (src : Fin 4) (p : Fin 12) (delay : Int) (m : NodeId) (st : BitVec 8) (h : Bool) (s : State), awake s = true →
    isMaster s = true → src.val ≠ 0 →
    Runs (.cascadeBeaconSample src p delay none m st h) s fun t =>
      t.mer.heardDes = (if designation s 1 = some m ∧ st.toNat < 128 then some s.clock else s.mer.heardDes) ∧
      t.mer.heardStb = (if designation s 2 = some m ∧ st.toNat ≠ 255 then some s.clock else s.mer.heardStb) ∧
      t.mer.count = s.mer.count ∧ t = { s with mer := t.mer }) ∧
  (∀ (src : Fin 4) (p : Fin 12) (delay : Int) (off : Option Int) (m : NodeId) (st : BitVec 8) (h : Bool) (s : State),
    isMaster s = false → exec (.cascadeBeaconSample src p delay off m st h) s = .next s)

/-- R243, R261 to R264: a sample puts each VC of each formed port in one bucket; an interval that ends, when no event of a
lower class waits, begins a hint epoch; one that follows the one before it is counted and kept for its chart, and the next
begins empty; the chart of a closed interval goes out at the device's place
in the next one, here to its own node; and the collector hands one that arrives to memory, or counts it as dropped. -/
def Obligations.ChartsAreMade : Prop :=
  (∀ s : State, timed s = true → s.charts.samples < 255 →
    s.charts.start * 255 + s.charts.samples * (4000 * s.charts.length) ≤ s.mer.count * 255 →
    Runs .chartSample s fun t => t.charts = { s.charts with samples := s.charts.samples + 1 } ∧
      (∀ p v, p < 12 → 0 < portWidth s p → v < 5 →
        tgetD (port t p).hist (v * 8 + bucketOf s p v) 0 = tgetD (port s p).hist (v * 8 + bucketOf s p v) 0 + 1) ∧
      t = { s with ports := t.ports, charts := t.charts }) ∧
  (∀ (s : State) (b : Nat), inTurn s 5 (nextMultiple (chartSpan s) s.charts.start) = true → b = s.mer.count / chartSpan s * chartSpan s →
    b ≠ s.charts.start / chartSpan s * chartSpan s → s.colls = [] →
    Runs .chartIntervalClose s fun t => t.charts.start = b ∧ t.charts.samples = 0 ∧ t.charts.reported = true ∧ Counted 0x3900 4 0 s t ∧
      (s.charts.reported = true → s.charts.start + chartSpan s = b → Counted 0xB000 8 0 s t ∧
        t.charts.closed = some (s.charts.start, s.charts.length, chartHead s, 0)) ∧
      (s.charts.reported = false → t.charts.closed = s.charts.closed) ∧
      (∀ p, p < 12 → 0 < portWidth s p → (port t p).hist = [] ∧ (port t p).txTime = 0 ∧ (port t p).rxTime = 0) ∧
      t.mem = s.mem ∧ t.ctxs = s.ctxs) ∧
  (∀ s : State, reg s 0xB000 2 = 0 → exec .chartSend s = .next s) ∧
  (∀ (s : State) (start len : Nat) (head : Bytes) (part : Nat), s.charts.closed = some (start, len, head, part) →
    reg s 0xB000 2 ≠ 0 → timeCome s (start + usMt len + chartSlot s % 128 * usMt len / 256) = true →
    partPorts s part ≠ [] → translateRank s (reg s 0xB000 3) (reg s 0xB000 4) = .ok (ownNode s) →
    loopUsed s + footprint (chartPayload s start len head part (partPorts s part)).length ≤ regionCells s 5 →
    Runs .chartSend s fun t => Counted 0xB000 0xA 0 s t ∧
      (∃ x, t.pkts = s.pkts ++ [x] ∧ x.header = chartHeader s (ownNode s) part (1 + (partPorts s part).length) ∧
        x.payload = chartPayload s start len head part (partPorts s part) ∧ x.acct = .loopBack) ∧
      t.charts.closed = (if part = 0 ∧ partPorts s 1 ≠ [] then some (start, len, head, 1) else none) ∧
      t.mem = s.mem ∧ t.ctxs = s.ctxs) ∧
  (∀ (id : Nat) (x : Pkt) (p : Place) (s : State), chartAt s id = some x → translateRequest s x.header false = .ok (.here p) →
    Runs (.chartPacketReceive id) s fun t =>
      (∃ a ∈ t.accesses, a.pkt = some x.id ∧ a.kind = .chart ∧ a.addr = p.addr ∧ a.len = hLen x.header ∧ a.cells = 0) ∧
      t = { s with accesses := t.accesses, nextId := s.nextId + 1 }) ∧
  (∀ (id : Nat) (x : Pkt) (st : Status) (s : State), chartAt s id = some x → translateRequest s x.header false = .error st →
    Runs (.chartPacketReceive id) s fun t => Counted 0xB000 0xC 0 s t ∧ t.mem = s.mem ∧ t.ctxs = s.ctxs ∧
      t.accesses = s.accesses)

/-! ## The object dictionary (chapters 14 and 15) -/

/-- A transaction is accepted and taken now, and has not been answered before (R434, R437, R439, R441). -/
def Taken (q : DictReq) (s : State) : Prop :=
  pathAccepted s q = true ∧ dictionaryUp s = true ∧ indexAnswers s q.index = true ∧ withheld s = false ∧
  (q.path.isHost = true → s.mgmt.lastSubmit ≠ some q.xid) ∧
  s.mgmt.answers.find? (fun a => a.owner == ownerOf q.path && a.xid == q.xid) = none

/-- A read that fits its entry of row `r`, which is not read in parts (R438, R464). -/
def ReadFits (q : DictReq) (r : Row) (size : Nat) : Prop :=
  rowOf q.index q.sub = some r ∧ q.tooLong = false ∧ (q.index ≠ 0xA000 ∨ r.acc ≠ .crit) ∧ inParts q.index q.sub = false ∧
    1 ≤ q.len ∧ q.len ≤ 1024 ∧ q.len ≤ r.ty.size ∧ q.offset < size

/-- A read was answered with OK, its type, its whole length and the bytes read, and nothing but the dictionary's own
numbers changed (R436). -/
def ReadAnswered (q : DictReq) (r : Row) (v : Bytes × Nat) (s t : State) : Prop :=
  t.mgmt.answers.getLast? = some {
    owner := ownerOf q.path, xid := q.xid, status := .ok, reason := 0, op := 0x81,
    body := leBytes 2 q.index ++ leBytes 1 q.sub ++ leBytes 1 r.ty.code ++ leBytes 4 q.offset ++ leBytes 4 v.2 ++ v.1 } ∧
  beside t = beside s

/-- The read that an FDP frame asks for. -/
def fieldRead (env : Envelope) (xid i : BitVec 16) (j : BitVec 8) (off : BitVec 32) (len : BitVec 16) : DictReq :=
  { path := .field env, xid := xid.setWidth 32, write := false, index := i.toNat, sub := j.toNat, auth := none, value := [],
    offset := off.toNat, len := len.toNat, tooLong := false }

/-- R436 to R438, R441, R463: a read from the field network or the host window is answered with the entry's value; a
submit number that repeats the last one starts nothing; a select entry that is written selects for its own session, a
stored number is stored, and a session reset returns every selection to its default; a malformed frame is counted and
reported. R434: a READ frame to another address, tagged, of another EtherType or with a bad FCS has no effect. -/
def Obligations.DictionaryTransactions : Prop :=
  (∀ (env : Envelope) (xid i : BitVec 16) (j : BitVec 8) (off : BitVec 32) (len : BitVec 16) (s : State) (q : DictReq)
    (r : Row) (v : Bytes × Nat), q = fieldRead env xid i j off len → Taken q s →
    v = valuePart (received q s) (ownerOf q.path) q.index q.sub q.offset q.len r → ReadFits q r v.2 →
    Runs (.fdpRead env xid i j off len) s (ReadAnswered q r v s)) ∧
  (∀ (n : BitVec 32) (length : BitVec 16) (request : Bytes) (s : State) (q : DictReq) (r : Row) (v : Bytes × Nat),
    q = submitReq n (request.take length.toNat) false → length.toNat ≤ 1536 →
    fdpFrameOk (request.take length.toNat) = true → byteAt (request.take length.toNat) 1 = 1 → Taken q s →
    v = valuePart (received q s) (ownerOf q.path) q.index q.sub q.offset q.len r → ReadFits q r v.2 →
    Runs (.dictionarySubmit n length request) s (ReadAnswered q r v s)) ∧
  (∀ (n : BitVec 32) (length : BitVec 16) (request : Bytes) (s : State), s.mgmt.lastSubmit = some n →
    exec (.dictionarySubmit n length request) s = .next s) ∧
  (∀ (w : WriteHdr) (v : Nat) (s : State), v < 4096 →
    WriteWorks (.dictionaryWrite w 0x4000 1 (leBytes 2 v)) w 0x4000 1 (leBytes 2 v) s (fun _ => s) fun t =>
      selected t (ownerOf w.path) 0x4000 1 = v ∧
      ∀ o i j, o ≠ ownerOf w.path → sessionOf s o ∈ s.mgmt.sessions → sessionOf t o ∈ t.mgmt.sessions →
        selected t o i j = selected s o i j) ∧
  (∀ (w : WriteHdr) (v : Nat) (s : State), 2 ≤ v → v ≤ 100 →
    WriteWorks (.dictionaryWrite w 0x9020 1 (leBytes 2 v)) w 0x9020 1 (leBytes 2 v) s (fun _ => s) fun t =>
      reg t 0x9020 1 = v) ∧
  (∀ (w : WriteHdr) (s : State), WriteWorks (.sessionReset w) w 0x1020 2 [1] s (fun _ => s) fun t =>
    ∀ i j, selected t (ownerOf w.path) i j = regDefault i j 0) ∧
  (∀ (env : Envelope) (xid i : BitVec 16) (j : BitVec 8) (off : BitVec 32) (len : BitVec 16) (s : State),
    (env.fcs = false ∨ env.vlan = true ∨ env.etherType ≠ 0x88B5 ∨ (env.dst ≠ ownMac s ∧ env.dst ≠ BitVec.allOnes 48)) →
    exec (.fdpRead env xid i j off len) s = .next s) ∧
  (∀ (frame : EthFrame) (s : State), dictionaryUp s = true → fdpFrameOk frame.payload = false →
    frameAccepted s frame.env (byteAt frame.payload 1 == 1) = true →
    Runs (.fdpMalformed frame) s fun t => Counted 0x1010 5 0 s t ∧ CountedFault 0xE 0 s t ∧
      t = { s with regs := t.regs, faults := t.faults })

/-- R24, R60, R64: an incarnation is stored and shared, and no other changes; with other insts present the answer waits for
them; a window drain withholds its answer until every access translated before it has been accepted, and is refused with
reason 10 and reported 1 ms after the write. -/
def Obligations.IncarnationsAndDrains : Prop :=
  (∀ (w : WriteHdr) (v : BitVec 32) (s : State) (n : NodeId) (inc : BitVec 8), n = BitVec.ofNat 16 (fld v.toNat 0 16) →
    inc = BitVec.ofNat 8 (fld v.toNat 16 8) → s.cascade.present = [] →
    WriteWorks (.incarnationWrite w v) w 0x3300 1 (leBytes 4 v.toNat) s id fun t =>
      incOf t n = inc ∧ (∀ m, m ≠ n → incOf t m = incOf s m) ∧
      (n = ownNode s → incOf s n ≠ inc → t.tables.retiredSelf = true)) ∧
  (∀ (w : WriteHdr) (v : BitVec 32) (s : State) (n : NodeId) (inc : BitVec 8), n = BitVec.ofNat 16 (fld v.toNat 0 16) →
    inc = BitVec.ofNat 8 (fld v.toNat 16 8) → s.cascade.present ≠ [] →
    WriteTaken (writeReq w 0x3300 1 (leBytes 4 v.toNat)) s →
    Runs (.incarnationWrite w v) s fun t =>
      incOf t n = inc ∧ (∀ m, m ≠ n → incOf t m = incOf s m) ∧ Output.bus (.table (.incarnation n inc)) ∈ t.out ∧
      t.mgmt.answers = s.mgmt.answers ∧ t.cascade.storing = s.cascade.present ∧
      t.cascade.writing = some (writeReq w 0x3300 1 (leBytes 4 v.toNat))) ∧
  (∀ (w : WriteHdr) (v : BitVec 32) (s : State), incOf s (BitVec.ofNat 16 (fld v.toNat 0 16)) = BitVec.ofNat 8 (fld v.toNat 16 8) →
    ShareWorks (.incarnationWrite w v) w 0x3300 1 (leBytes 4 v.toNat) s
      (.incarnation (BitVec.ofNat 16 (fld v.toNat 0 16)) (BitVec.ofNat 8 (fld v.toNat 16 8))) fun _ => True) ∧
  (∀ (w : WriteHdr) (s : State), s.accesses = [] → s.held.any isLent = false →
    WriteWorks (.windowDrain w) w 0x4200 4 [1] s (fun _ => s) fun _ => True) ∧
  (∀ (w : WriteHdr) (s : State), (s.accesses ≠ [] ∨ s.held.any isLent = true) → WriteTaken (writeReq w 0x4200 4 [1]) s →
    Runs (.windowDrain w) s fun t => t.mgmt.answers = s.mgmt.answers ∧ t.out = s.out ∧
      t.tables = { s.tables with drain := some (s.clock, writeReq w 0x4200 4 [1]) } ∧
      (∀ a ∈ t.accesses, a.drained = true) ∧ (∀ o ∈ t.held, o.drained = isLent o) ∧
      beside t = beside { s with accesses := t.accesses, held := t.held, tables := t.tables }) ∧
  (∀ (s : State) (a : Mt) (q : DictReq), s.tables.drain = some (a, q) → drainOpen s = false → s.mgmt.restarting = false → s.mgmt.heldReqs = [] →
    Runs .windowDrainEnd s fun t => AnsweredLast q .ok 0 t ∧
      beside t = beside { s with tables := { s.tables with drain := none } }) ∧
  (∀ (s : State) (a : Mt) (q : DictReq), s.tables.drain = some (a, q) → a + 4000000 ≤ s.clock → drainOpen s = true →
    s.mgmt.restarting = false → s.mgmt.heldReqs = [] → awake s = true →
    Runs .windowDrainTimeout s fun t => AnsweredLast q .notPerformed 10 t ∧ CountedFault 5 0 s t ∧ t.tables.drain = none ∧
      drainOpen t = false ∧ t.mem = s.mem ∧ t.ctxs = s.ctxs) ∧
  (∀ (s : State) (x : Access) (q : Mt × DictReq), s.tables.drain = some q → x ∈ s.accesses → x.drained = true →
    exec .windowDrainEnd s = .next s)

/-! ## Management (chapter 14) -/

/-- A frame is sent on the field network, or waits for it (R434). -/
def FrameGoes (f : Bytes) (s t : State) : Prop :=
  if s.mgmt.plcaOk then t.out = s.out ++ [.frame f] ∧ t.mgmt.txQueue = s.mgmt.txQueue
  else t.mgmt.txQueue = s.mgmt.txQueue ++ [f] ∧ t.out = s.out

/-- No request and no answer waits for a Compass restart to end (R428, R468). -/
def NoneWaits (s : State) : Prop := s.mgmt.heldReqs = [] ∧ s.cascade.writing = none ∧ s.tables.drain = none

/-- R434, R440: waiting frames go out when the field network is ready; EVENT_ACK removes its event, an unacknowledged one is
sent again every 100 ms and at most 10 times; ANNOUNCE goes out every second until it is acknowledged.

R428, R430, R431: a Compass restart loses the events, frames, sessions and the dump buffer, is counted, and nothing else
changes; it ends with announcements, a BOOT record and the events raised during it. The oldest pending persisted value is
written to the journal bank that serves, compacted or not, and every other value stays; where
that fails it stays pending, is reported, and the replace request is raised. -/
def Obligations.CompassServes : Prop :=
  (∀ s : State, exec .plcaStatusOk s =
    .next { s with out := s.out ++ s.mgmt.txQueue.map .frame, mgmt := { s.mgmt with plcaOk := true, txQueue := [] } }) ∧
  (∀ (n : BitVec 32) (s : State), compassUp s = true →
    Runs (.eventAck n) s fun t => (∀ e, e ∈ t.mgmt.events ↔ e ∈ s.mgmt.events ∧ e.eseq ≠ n.toNat) ∧ Counted 0x1010 3 0 s t ∧
      t = { s with mgmt := { s.mgmt with events := t.mgmt.events }, regs := t.regs }) ∧
  (∀ (n : BitVec 32) (s : State) (e : Event), compassUp s = true →
    s.mgmt.events.find? (fun x => x.eseq == n.toNat) = some e → e.at_ + 400000000 ≤ s.clock → e.sends ≤ 10 →
    Runs (.eventResend n) s fun t => FrameGoes (eventFrame s e) s t ∧
      { e with sends := e.sends + 1, at_ := s.clock } ∈ t.mgmt.events ∧ t.mgmt.events.length = s.mgmt.events.length ∧
      t = { s with out := t.out, mgmt := { s.mgmt with events := t.mgmt.events, txQueue := t.mgmt.txQueue } }) ∧
  (∀ (n : BitVec 32) (s : State) (e : Event), s.mgmt.events.find? (fun x => x.eseq == n.toNat) = some e →
    (10 < e.sends ∨ s.clock < e.at_ + 400000000) → exec (.eventResend n) s = .next s) ∧
  (∀ s : State, compassUp s = true → Runs .announceAck s fun t => t.mgmt = { s.mgmt with announce := false } ∧
    Counted 0x1010 3 0 s t ∧ t = { s with mgmt := t.mgmt, regs := t.regs }) ∧
  (∀ s : State, compassUp s = true → s.mgmt.announce = true → (∀ a, s.mgmt.announceAt = some a → a + 4000000000 ≤ s.clock) →
    Runs .announceResend s fun t => FrameGoes (announceFrame s) s t ∧ t.mgmt.announceAt = some s.clock ∧
      t = { s with out := t.out, mgmt := { s.mgmt with announceAt := some s.clock, txQueue := t.mgmt.txQueue } }) ∧
  (∀ s : State, s.mgmt.announce = false → exec .announceResend s = .next s) ∧
  (∀ s : State, compassUp s = true →
    Runs .compassWatchdog s fun t => t.mgmt = { s.mgmt with restarting := true, events := [], txQueue := [], sessions := [] } ∧
      Counted 0x1000 8 0 s t ∧ (s.faults.dump = 1 → t.faults = { s.faults with dump := 0 }) ∧
      (s.faults.dump ≠ 1 → t.faults = s.faults) ∧
      t = { s with mgmt := t.mgmt, faults := t.faults, regs := t.regs }) ∧
  (∀ s : State, s.mgmt.restarting = true → NoneWaits s → (∀ p, p < 12 → (port s p).hail = none) →
    Runs .compassRestartDone s fun t => t.mgmt.restarting = false ∧ t.mgmt.announce = true ∧ t.mgmt.announceAt = none ∧
      t.flash.logNext = (s.flash.logNext + 1) % 2 ^ 32 ∧
      (∀ e ∈ s.mgmt.events, e.sends = 0 → ∃ y ∈ t.mgmt.events, y.eseq = e.eseq ∧ y.at_ = s.clock ∧ 0 < y.sends) ∧
      t = { s with mgmt := t.mgmt, flash := t.flash, out := t.out }) ∧
  (∀ s : State, s.mgmt.restarting = false → NoneWaits s → exec .compassRestartDone s = .next s) ∧
  (∀ (s : State) (x : Nat × Stored) (r : List (Nat × Stored)), compassUp s = true → s.mgmt.journal = x :: r →
    s.flash.worn = [] → (servingBank s.flash = none → s.flash.bank0.recs = []) →
    Runs (.journalAppend true false) s fun t => storedAt t.flash x.1 = some x.2 ∧ t.mgmt = { s.mgmt with journal := r } ∧
      (∀ k, k ≠ x.1 → storedAt t.flash k = storedAt s.flash k) ∧ t = { s with mgmt := t.mgmt, flash := t.flash }) ∧
  (∀ (s : State) (x : Nat × Stored) (r : List (Nat × Stored)), compassUp s = true → s.mgmt.journal = x :: r →
    Runs (.journalAppend false false) s fun t => t.mgmt.journal = s.mgmt.journal ∧ CountedFault 0xE 0 s t ∧
      t.faults.reasons = s.faults.reasons ||| 64#32 ∧ sectorOf (journalAddr s.flash) ∈ t.flash.worn ∧
      t.flash = { s.flash with worn := t.flash.worn } ∧ t.mem = s.mem ∧ t.ctxs = s.ctxs) ∧
  (∀ s : State, compassUp s = true → s.mgmt.journal = [] → exec (.journalAppend true false) s = .next s)

/-- R446, R449, R450: a wrapped key that unwraps replaces the key of its slot; an update erases the image that does not
run, takes blocks that follow on, and ends with a valid image set for trial, or with one refused and reported; a trial is
confirmed within its window, or the previous image becomes active at the next start. -/
def Obligations.KeysAndUpdates : Prop :=
  (∀ (w : WriteHdr) (k : Fin 4) (wrapped key : Bytes) (s : State), keyUnwrap (wrapKey s w.auth) wrapped = some key →
    WriteWorks (.keyReplace w k wrapped) w 0xA000 (1 + k.val) wrapped s (fun _ => s) fun t =>
      slotKey t k = BitVec.ofNat 256 (beNat key) ∧ ∀ j, j ≠ k.val → slotKey t j = slotKey s j) ∧
  (∀ (w : WriteHdr) (len : BitVec 32) (s : State), s.mgmt.update = 0 ∨ s.mgmt.update = 6 → len.toNat ≤ 8388608 →
    WriteWorks (.updateBegin w len) w 0xA100 1 (leBytes 4 len.toNat) s (fun _ => s) fun t =>
      t.mgmt.update = 1 ∧ t.mgmt.updLen = len.toNat ∧ t.mgmt.updGot = 0 ∧
      (imageOf t.flash (updateImage s)).valid = false ∧ imageOf t.flash (1 - updateImage s) = imageOf s.flash (1 - updateImage s)) ∧
  (∀ s : State, compassUp s = true → s.mgmt.update = 1 →
    exec .updateEraseDone s = .next { s with mgmt := { s.mgmt with update := 2 } }) ∧
  (∀ s : State, s.mgmt.update ≠ 1 → exec .updateEraseDone s = .next s) ∧
  (∀ (w : WriteHdr) (b : Bytes) (s : State), s.mgmt.update = 2 → leAt b 0 4 = s.mgmt.updGot →
    s.mgmt.updGot + (b.length - 8) ≤ s.mgmt.updLen → s.flash.worn = [] →
    WriteWorks (.updateBlock w b) w 0xA100 2 b s (fun _ => s) fun t =>
      t.mgmt.updGot = s.mgmt.updGot + (b.length - 8) ∧ t.mgmt.update = 2 ∧
        (imageOf t.flash (updateImage s)).data = (imageOf s.flash (updateImage s)).data ++ b.drop 8) ∧
  (∀ (w : WriteHdr) (s : State), s.mgmt.update = 2 → (imageRead s).valid = true → s.flash.rollback ≤ (imageRead s).rollback →
    WriteWorks (.updateFinish w) w 0xA100 3 [1] s (fun _ => s) fun t => t.mgmt.update = 4 ∧
      t.flash.active = updateImage s ∧ t.flash.trial = true ∧ t.flash.tries = 0 ∧
      imageOf t.flash (updateImage s) = imageRead s) ∧
  (∀ (w : WriteHdr) (s : State), s.mgmt.update = 2 →
    ((imageRead s).valid = false ∨ (imageRead s).rollback < s.flash.rollback) →
    WriteWorks (.updateFinish w) w 0xA100 3 [1] s (fun t => { s with faults := t.faults }) fun t => t.mgmt.update = 6 ∧
      (imageOf t.flash (updateImage s)).valid = false ∧ t.flash.active = s.flash.active ∧ CountedFault 0xE 0 s t) ∧
  (∀ (w : WriteHdr) (s : State), s.mgmt.update = 5 → s.flash.trial = true →
    s.clock < s.mgmt.bootAt + 4000000000 * reg s 0xA100 6 →
    WriteWorks (.updateConfirm w) w 0xA100 5 [1] s (fun _ => s) fun t => t.mgmt.update = 0 ∧ t.flash.trial = false ∧
      t.flash.rollback = max s.flash.rollback (imageOf s.flash s.mgmt.running).rollback ∧ t.flash.active = s.flash.active) ∧
  (∀ s : State, s.mgmt.update = 5 → s.flash.trial = true → s.mgmt.bootAt + 4000000000 * reg s 0xA100 6 ≤ s.clock →
    s.flash.worn = [] →
    Runs .confirmWindowExpiry s fun t => t.flash.active = 1 - s.mgmt.running ∧ t.flash.trial = false ∧ t.flash.tries = 0 ∧
      t = { s with flash := t.flash }) ∧
  (∀ s : State, s.mgmt.update ≠ 5 → exec .confirmWindowExpiry s = .next s)

/-- R451, R456: an octet's cable identity is stored and sets its channel type by medium and length; a device with no port
and no context at work enters the return state, which empties key slots 1 to 3, and leaves it by a write under slot 0. -/
def Obligations.CablesAndReturn : Prop :=
  (∀ (w : WriteHdr) (b : Bytes) (s : State), ∀ o, o = wsel s w 0x2200 1 → byteAt b 0 ≤ 5 →
    WriteWorks (.cableIdentityWrite w b) w 0x2200 7 b s (fun t => { s with blobs := t.blobs }) fun t =>
      blobAt t 0x2200 7 o = b ∧ (byteAt b 0 = 0 → regAt t 0x2200 2 o = 0) ∧
      (byteAt b 0 = 1 → leAt b 2 2 ≤ 100 → regAt t 0x2200 2 o = 1) ∧
      (byteAt b 0 = 1 → 101 ≤ leAt b 2 2 → leAt b 2 2 ≤ 250 → regAt t 0x2200 2 o = 2) ∧
      (byteAt b 0 = 1 → 251 ≤ leAt b 2 2 → regAt t 0x2200 2 o = 0) ∧
      (2 ≤ byteAt b 0 → regAt t 0x2200 2 o = byteAt b 0 + 1)) ∧
  (∀ (w : WriteHdr) (s : State),
    (∀ p, p < 12 → (port s p).state = .absent ∨ (port s p).heldOff = true ∨ regAt s 0x2000 5 p = 0) →
    (∀ x ∈ s.ctxs, x.2.state = .off ∨ x.2.state = .halted) →
    WriteWorks (.prepareReturn w) w 0xA200 1 [1] s id fun t => t.flash.returned = true ∧
      (∀ k, k ≠ 0 → slotKey t k = 0 ∧ slotCounter t k = 0) ∧ slotKey t 0 = slotKey s 0 ∧ t.ctxs = s.ctxs ∧ t.mem = s.mem ∧
      t.tables = s.tables) ∧
  (∀ (w : WriteHdr) (s : State), s.flash.returned = true →
    WriteWorks (.returnToService w) w 0xA200 3 [1] s id fun t => t.flash.returned = false ∧ t.ctxs = s.ctxs ∧ t.mem = s.mem ∧
      t.tables = s.tables) ∧
  (∀ (w : WriteHdr) (s : State), s.flash.returned = false →
    WriteWorks (.returnToService w) w 0xA200 3 [1] s (fun _ => s) fun t => t.flash.returned = false)

/-! ## Faults, resets and dumps (chapter 12) -/

/-- The collector's queue has `m` at its front, of a kind without action, and no transaction waits. -/
def Handled (s : State) (m : Msg) (r : List Msg) : Prop :=
  s.faults.intake = m :: r ∧ s.mgmt.heldReqs = [] ∧ msgForced m = false ∧ msgClass m ≠ 6 ∧ msgClass m ≠ 0xB ∧ msgSev m < 4

/-- What the collector changes in handling a message. -/
def onlyCollected (s t : State) : State :=
  { s with faults := t.faults, regs := t.regs, out := t.out, flash := t.flash, mgmt := t.mgmt }

/-- No port carries traffic or waits for it. -/
def PortsIdle (s : State) : Prop := ∀ p, p < 12 → (port s p).state = .absent ∨ (port s p).state = .training

/-- R383, R384: what an inst reset clears and keeps. Meridian time is UNSET, but where an inst other than the master starts
without it (R28, R30). -/
def Cleared (s t : State) : Prop :=
  (∀ c, (ctx t c).state = .off ∧ (ctx t c).gen = (ctx s c).gen + 1) ∧ t.accesses = [] ∧ t.tracks = [] ∧ t.held = [] ∧
    t.pkts = [] ∧ t.colls = [] ∧ t.mer.count = 0 ∧ t.mem = s.mem ∧
    t.mer.state = (if t.phase ≠ .running ∨ isMaster t = true ∨ t.cascade.present.contains 0 = true then TimeState.unset else TimeState.holdover)

/-- A reset of a level and target runs. -/
def ResetRuns (level target : Nat) (t : State) : Prop := ∃ r ∈ t.faults.running, r.level = level ∧ r.target = target

/-- Every context of a kind but one is OFF or HALTED, and that one is ENABLED with nothing in flight and no mirror. -/
def OnlyOneWorks (s : State) (c : Nat) (of : Nat → Ctx → Prop) : Prop :=
  (ctx s c).state = .enabled ∧ (ctx s c).mirror = 0 ∧ Quiet s c ∧
    ∀ x ∈ s.ctxs, of x.1 x.2 → x.1 ≠ c → ctxStopped (ctx s x.1) = true

/-- R377 to R384: a context, engine or partition reset halts the contexts in its scope that work and leaves those that are
OFF or HALTED; a DRAINING context is reset once its drain time has passed by 20 µs; a mirror write that memory has not
accepted in 100 µs is abandoned; an inst reset clears everything but what is kept; a completed reset is counted and
reported, and a bound that expires escalates. -/
def Obligations.ResetsRun : Prop :=
  (∀ (w : WriteHdr) (c : BitVec 12) (s : State), s.faults.running = [] → OnlyOneWorks s c.toNat (fun n _ => n = c.toNat) →
    WriteTaken (writeReq w 0x7200 1 (resetValue 1 c)) s →
    Runs (.contextReset w c) s fun t => AnsweredOk w 0x7200 1 t ∧ Halted c.toNat s t ∧ ResetRuns 1 c.toNat t ∧
      ∀ d, d ≠ c.toNat → ctx t d = ctx s d) ∧
  (∀ (w : WriteHdr) (c : BitVec 12) (s : State), s.faults.running = [] → ctxStopped (ctx s c.toNat) = true →
    WriteWorks (.contextReset w c) w 0x7200 1 (resetValue 1 c) s (fun t => { s with faults := t.faults }) fun t =>
      Counted 0x7200 5 0 s t ∧ CountedFault 0xB 1 s t ∧ t.faults.running = []) ∧
  (∀ (w : WriteHdr) (e : BitVec 12) (c : Nat) (s : State), e.toNat < 16 → engineOf c = e.toNat → s.faults.running = [] →
    (∃ x ∈ s.ctxs, x.1 = c) → OnlyOneWorks s c (fun n _ => engineOf n = e.toNat) →
    WriteTaken (writeReq w 0x7200 1 (resetValue 2 e)) s →
    Runs (.engineReset w e) s fun t => AnsweredOk w 0x7200 1 t ∧ Halted c s t ∧ ResetRuns 2 e.toNat t ∧
      ∀ d, d ≠ c → ctx t d = ctx s d) ∧
  (∀ (w : WriteHdr) (p : BitVec 12) (c : Nat) (s : State), p.toNat < 64 → (ctx s c).partEnt = p.toNat → s.faults.running = [] →
    (∃ x ∈ s.ctxs, x.1 = c ∧ x.2.partEnt = p.toNat) → OnlyOneWorks s c (fun _ x => x.partEnt = p.toNat) →
    s.pkts = [] → s.grants = [] → WriteTaken (writeReq w 0x7200 1 (resetValue 3 p)) s →
    Runs (.partitionReset w p) s fun t => AnsweredOk w 0x7200 1 t ∧ Halted c s t ∧ ResetRuns 3 p.toNat t ∧
      (∀ m, m ∈ t.msgIn → (ctx s m.2.nctx).partEnt ≠ p.toNat) ∧ ∀ d, d ≠ c → ctx t d = ctx s d) ∧
  (∀ (c : Fin 4096) (s : State), (ctx s c).state = .draining → (ctx s c).halting = false → (ctx s c).mirror = 0 → Quiet s c →
    s.faults.running = [] → s.phase = .running → (ctx s c).drainAt + (ctx s c).drainFor + 80000 ≤ s.clock →
    Runs (.autoContextReset c) s fun t => Halted c s t ∧ ResetRuns 1 c t ∧ ∀ d, d ≠ c.val → ctx t d = ctx s d) ∧
  (∀ (e : Fin 16) (r : Running) (s : State), runningAt s 2 e = some r → r.start + 400000 ≤ s.clock →
    (∀ c ∈ r.ctxs, (ctx s c).halting = false) →
    Runs (.mirrorAbandonTimeout e) s fun t =>
      (∀ c ∈ r.ctxs, (ctx t c).mirrorOut = none ∧ (ctx t c).mirrorNext = false) ∧
      (∀ d, d ∉ r.ctxs → ctx t d = ctx s d) ∧
      t = { s with ctxs := t.ctxs, regs := t.regs, faults := t.faults }) ∧
  (∀ (w : WriteHdr) (v : Nat) (i : Instr) (s : State), (i, v) ∈ [(Instr.instanceResetDump w none, 1), (.instanceResetNoDump w none, 2)] →
    PortsIdle s → instReset s = false → imageValid s.flash s.flash.active = true → s.flash.trial = false → s.pins.cutWarn = false →
    WriteTaken (writeReq w 0x7200 2 (leBytes 1 v)) s →
    Runs i s fun t => Cleared s t ∧ ResetRuns 4 0 t ∧ t.phase = .running) ∧
  (∀ (level : Fin 5) (target : BitVec 12) (r : Running) (s : State), awake s = true → 1 ≤ level.val →
    runningAt s level target.toNat = some r → resetOver s level target.toNat = true →
    Runs (.resetComplete level target) s fun t => Counted 0x7200 (4 + level.val) 0 s t ∧ CountedFault 0xB level s t ∧
      runningAt t level target.toNat = none ∧ t = { s with regs := t.regs, faults := t.faults, blocks := t.blocks } ∧
      (level.val ≠ 4 → t.blocks = s.blocks)) ∧
  (∀ (level : Fin 5) (target : BitVec 12) (s : State), resetOver s level target.toNat = false →
    exec (.resetComplete level target) s = .next s) ∧
  (∀ (target : BitVec 12) (r : Running) (s : State), awake s = true → runningAt s 4 target.toNat = some r →
    r.start + 12000000000 ≤ s.clock → PortsIdle s → s.pins.pcycReq = false → s.mgmt.heldReqs = [] →
    Runs (.resetBoundExpiry 4 target none) s fun t => t.pins.pcycReq = true ∧ CountedFault 0xB 4 s t ∧
      Counted 0x7200 0xA 0 s t ∧ (∀ p, p < 12 → (port t p).state = .absent) ∧ t.ctxs = s.ctxs ∧ t.mem = s.mem) ∧
  (∀ (level : Fin 5) (target : BitVec 12) (r : Running) (s : State), (level.val = 2 ∨ level.val = 3) → awake s = true →
    runningAt s level target.toNat = some r → r.start + (if level.val = 2 then 8000000 else 80000000) ≤ s.clock →
    (∀ x ∈ s.faults.running, x.level ≠ 4) → PortsIdle s → s.mgmt.heldReqs = [] →
    Runs (.resetBoundExpiry level target none) s fun t => Cleared s t ∧ ResetRuns 4 0 t) ∧
  (∀ (level : Fin 5) (target : BitVec 12) (s : State), runningAt s level target.toNat = none → s.mgmt.heldReqs = [] →
    exec (.resetBoundExpiry level target none) s = .next s)

/-- R366 to R373: the collector takes the oldest message: it latches, with the fault sequence number and the interrupt,
merges into the latched one, or overflows; one below the threshold does not reach the latch. The latch is emptied by
its sequence number alone. Windows count by slots; a window write empties the count; forced messages are raised as such.

R388 to R390: a dump asked for begins, unless the buffer holds one that is not written; a unit that gives no word, or
stops, is marked with the words it gave and costs 50 µs more; a dump that was read is written to the next slot, with the
results of its units, or stays in the buffer where the flash fails. -/
def Obligations.FaultsAndDumps : Prop :=
  (∀ (m : Msg) (r : List Msg) (s : State), Handled s m r → reg s 0x7000 7 ≤ msgSev m → s.faults.latch = none →
    Runs (.faultIntake none) s fun t => t.faults.latch = some m ∧ t.faults.seqNr = (s.faults.seqNr + 1) % 2 ^ 32 ∧
      Output.interrupt (reg s 0x7000 0xA) t.faults.seqNr ∈ t.out ∧ t.faults.intake = r ∧ t.faults.last = m.bits ∧
      Counted 0x7000 0xE 0 s t ∧ t = onlyCollected s t) ∧
  (∀ (m l : Msg) (r : List Msg) (s : State), Handled s m r → reg s 0x7000 7 ≤ msgSev m → s.faults.latch = some l →
    merges l m = true →
    Runs (.faultIntake none) s fun t => t.faults.latch = some (raiseSev l m) ∧ t.faults.merges = min (s.faults.merges + 1) 65535 ∧
      t.faults.seqNr = s.faults.seqNr ∧ t.faults.overflow = s.faults.overflow ∧ t.faults.intake = r ∧ t = onlyCollected s t) ∧
  (∀ (m l : Msg) (r : List Msg) (s : State), Handled s m r → reg s 0x7000 7 ≤ msgSev m → s.faults.latch = some l →
    merges l m = false →
    Runs (.faultIntake none) s fun t => t.faults.latch = some l ∧ t.faults.overflow = true ∧
      t.faults.overCount = (s.faults.overCount + 1) % 2 ^ 32 ∧ t.faults.seqNr = s.faults.seqNr ∧ t.faults.intake = r ∧
      t = onlyCollected s t) ∧
  (∀ (m : Msg) (r : List Msg) (s : State), Handled s m r → msgSev m < reg s 0x7000 7 →
    Runs (.faultIntake none) s fun t => t.faults.latch = s.faults.latch ∧ t.faults.seqNr = s.faults.seqNr ∧
      t.faults.intake = r ∧ t.faults.last = m.bits ∧ t = onlyCollected s t) ∧
  (∀ s : State, s.faults.intake = [] → s.mgmt.heldReqs = [] → exec (.faultIntake none) s = .next s) ∧
  (∀ (w : WriteHdr) (v : BitVec 32) (s : State), s.faults.latch.isSome = true → s.faults.seqNr = v.toNat →
    WriteWorks (.faultClear w v) w 0x7000 5 (leBytes 4 v.toNat) s (fun t => { s with faults := t.faults }) fun t =>
      t.faults = { s.faults with latch := none, overflow := false, overCount := 0, merges := 0 }) ∧
  (∀ (w : WriteHdr) (v : BitVec 32) (s : State), (s.faults.latch = none ∨ s.faults.seqNr ≠ v.toNat) →
    WriteTaken (writeReq w 0x7000 5 (leBytes 4 v.toNat)) s →
    Runs (.faultClear w v) s fun t => AnsweredLast (writeReq w 0x7000 5 (leBytes 4 v.toNat)) .notPerformed 10 t ∧
      beside t = beside s) ∧
  (∀ (w : WriteHdr) (k : BitVec 8) (sev : Severity) (s : State), ∀ n, n = wsel s w 0x7100 1 → n < 4096 → n / 256 ≠ 9 →
    baseSeverity (n / 256) k.toNat = some sev → s.faults.intake.length < 256 →
    WriteWorks (.faultForce w k) w 0x7100 6 [k] s (fun t => { s with faults := t.faults }) fun t =>
      CountedFault (n / 256) (n % 256) s t ∧
      ∃ m, t.faults.intake = s.faults.intake ++ [m] ∧ msgForced m = true ∧ msgSource m = n ∧ msgKind m = k.toNat ∧ msgAddr m = 0) ∧
  (∀ (cls : Fin 16) (i : BitVec 8) (s : State), ∀ n, n = sourceNo cls i.toNat →
    Runs (.countSlotBoundary cls i) s fun t =>
      windowCount (source t n) = windowCount (rollSlots s n (source s n)) ∧
      ((source t n).severe = true → regAt s 0x7100 3 n ≠ 0 ∧ regAt s 0x7100 3 n ≤ windowCount (source t n)) ∧
      (∀ k, k ≠ n → source t k = source s k) ∧ t = { s with faults := t.faults }) ∧
  (∀ (w : WriteHdr) (v : BitVec 32) (s : State), ∀ n, n = wsel s w 0x7100 1 →
    WriteWorks (.countWindowWrite w v) w 0x7100 4 (leBytes 4 v.toNat) s (fun t => { s with faults := t.faults }) fun t =>
      windowCount (source t n) = 0 ∧ (source t n).severe = false ∧ (source t n).epoch = s.clock ∧
      regAt t 0x7100 4 n = v.toNat ∧ ∀ k, k ≠ n → source t k = source s k) ∧
  (∀ s : State, awake s = true → s.clock / 4000000000 ≠ s.faults.second →
    Runs .logRateSecond s fun t => t.faults.second = s.clock / 4000000000 ∧
      (∀ x ∈ t.faults.sources, x.2.logged = 0 ∧ x.2.held = 0) ∧
      ((∀ x ∈ s.faults.sources, x.2.held = 0) → t.flash = s.flash) ∧ t = { s with faults := t.faults, flash := t.flash }) ∧
  (∀ s : State, s.clock / 4000000000 = s.faults.second → exec .logRateSecond s = .next s) ∧
  (∀ (w : WriteHdr) (s : State), s.faults.dump ≠ 1 →
    WriteWorks (.dumpRequest w) w 0x7300 1 [1] s (fun t => { s with faults := t.faults, free := s.free + 1 }) fun t =>
      t.faults = { s.faults with dump := 1, dumpNr := s.free, dumpWords := [], dumpAt := stamp s, dumpRead := t.faults.dumpRead } ∧
      s.clock ≤ t.faults.dumpRead) ∧
  (∀ (w : WriteHdr) (s : State), s.faults.dump = 1 →
    WriteWorks (.dumpRequest w) w 0x7300 1 [1] s (fun _ => s) fun t => t.faults = s.faults) ∧
  (∀ (u : Fin 64) (any : Bool) (s : State), s.faults.dump = 1 → s.clock < s.faults.dumpRead → u.val ∈ ringUnits s →
    tget s.faults.dumpWords u = none →
    Runs (.dumpUnitTimeout u any) s fun t => ∃ n, tget t.faults.dumpWords u = some n ∧
      (if any then 1 ≤ n ∧ n < unitBytes u / 4 else n = 0) ∧
      t.faults.dumpRead = s.faults.dumpRead + 200000 - (unitBytes u / 4 - n) * 40 ∧
      t = { s with faults := t.faults, free := s.free + 1 }) ∧
  (∀ (u : Fin 64) (any : Bool) (s : State), s.faults.dump ≠ 1 → s.faults.dump ≠ 2 →
    exec (.dumpUnitTimeout u any) s = .next s) ∧
  (∀ s : State, s.faults.dump = 1 → s.faults.dumpRead ≤ s.clock →
    wornIn s.flash (dumpAddr s.flash.dumpNext) 0x40000 = none →
    Runs .dumpFlashWriteDone s fun t => t.faults = { s.faults with dump := 3 } ∧
      tget t.flash.dumpSlots s.flash.dumpNext = some (s.faults.dumpNr, unitResults s, s.faults.dumpWords) ∧
      t.flash.dumpNext = (s.flash.dumpNext + 1) % 4 ∧ t = { s with faults := t.faults, flash := t.flash, mgmt := t.mgmt }) ∧
  (∀ s : State, s.faults.dump = 1 → s.faults.dumpRead ≤ s.clock → awake s = true →
    wornIn s.flash (dumpAddr s.flash.dumpNext) 0x40000 ≠ none →
    Runs .dumpFlashWriteDone s fun t => t.faults.dump = 1 ∧ CountedFault 0xE 0 s t ∧
      t.flash = s.flash) ∧
  (∀ s : State, s.faults.dump = 1 → s.clock < s.faults.dumpRead → exec .dumpFlashWriteDone s = .next s)

/-! ## Power and heat (chapter 13) -/

/-- A step that the schedule accepts (R397, R401). -/
def StepFits (s : State) (x : CapStep) : Prop :=
  x.time % capPeriod s = 0 ∧ stamp s < x.time ∧ (∀ y ∈ s.power.steps, y.time ≠ x.time) ∧ s.power.steps.length < 64 ∧
    (x.icap = 0xFFFF ∨ floorPower s ≤ x.icap * 10) ∧
    (x.scap = 0xFFFF ∨ (isMaster s = true ∧ sextFloor s ≤ x.scap * 15000))

/-- R396: the effective caps are the least of the caps in force, and never above the rack's.

R397 to R403, R465: rack caps come by start-up caps and by the steps of the schedule, which a step leaves when its time
comes; host caps at or below the rack cap and not below the floor are stored, and take effect with the temperature levels
at the next cap boundary, when no event of a lower class waits; others are refused, counted and reported. A held-off port is stopped. -/
def Obligations.CapsAndSchedule : Prop :=
  (∀ s : State, effCap s ≤ rackCap s ∧ (s.power.hostCap ≠ 0 → effCap s ≤ s.power.hostCap) ∧
    (s.power.thermCap ≠ 0 → effCap s ≤ s.power.thermCap) ∧
    (effCap s = rackCap s ∨ (s.power.hostCap ≠ 0 ∧ effCap s = s.power.hostCap) ∨
      (s.power.thermCap ≠ 0 ∧ effCap s = s.power.thermCap)) ∧
    effScap s ≤ rackScap s ∧ (s.power.hostScap ≠ 0 → effScap s ≤ s.power.hostScap) ∧
    (effScap s = rackScap s ∨ (s.power.hostScap ≠ 0 ∧ effScap s = s.power.hostScap))) ∧
  (∀ (s : State) (b : Nat), b = s.mer.count / max (capPeriod s) 1 * capPeriod s → inTurn s 2 b = true → b ≠ s.power.boundary →
    s.colls = [] →
    Runs .capBoundary s fun t => t.power.boundary = b ∧ t.power.hostCap = reg s 0x6000 3 ∧ t.power.hostScap = reg s 0x6010 3 ∧
      t.power.warnLevel = toSigned 32 (reg s 0x6400 7) ∧ t.power.critLevel = toSigned 32 (reg s 0x6400 8) ∧
      rackCap t = rackCap s ∧ rackScap t = rackScap s ∧ t.mem = s.mem ∧ t.ctxs = s.ctxs) ∧
  (∀ s : State, timed s = false → exec .capBoundary s = .next s) ∧
  (∀ (s : State) (x : CapStep),
    s.power.steps.find? (fun y => !y.prepared && inTurn s 2 (y.time - 1200000)) = some x → s.colls = [] →
    Runs .stepPrepare s fun t => (∀ y ∈ t.power.steps, y.time = x.time → y.prepared = true) ∧
      t.power.steps.map (·.time) = s.power.steps.map (·.time) ∧ rackCap t = rackCap s ∧ t.mem = s.mem ∧ t.ctxs = s.ctxs) ∧
  (∀ (s : State) (x : CapStep) (r : List CapStep), s.power.steps = x :: r → inTurn s 2 x.time = true → s.colls = [] →
    Runs .scheduleStep s fun t => t.power.steps = r ∧
      rackCap t = (if x.icap = 0xFFFF then rackCap s else x.icap) ∧
      rackScap t = (if x.scap = 0xFFFF then rackScap s else x.scap) ∧ t.mem = s.mem ∧ t.ctxs = s.ctxs) ∧
  (∀ (s : State) (x : CapStep) (r : List CapStep), s.power.steps = x :: r → inTurn s 2 x.time = false →
    exec .scheduleStep s = .next s) ∧
  (∀ (w : WriteHdr) (b : Bytes) (s : State), StepFits s (stepOf b) → stamp s + 1600000 ≤ (stepOf b).time →
    WriteWorks (.scheduleWrite w b) w 0x6100 1 b s (fun t => { s with power := t.power }) fun t =>
      (∀ y, y ∈ t.power.steps ↔ y = stepOf b ∨ y ∈ s.power.steps) ∧
      t.power = { s.power with steps := t.power.steps }) ∧
  (∀ (w : WriteHdr) (s : State), WriteWorks (.scheduleClear w) w 0x6100 5 [1] s (fun t => { s with power := t.power }) fun t =>
    t.power = { s.power with steps := [] }) ∧
  (∀ (w : WriteHdr) (v : BitVec 16) (s : State), floorPower s ≤ v.toNat * 10 → s.colls = [] →
    WriteWorks (.startUpCapWrite w false v) w 0x6000 8 (leBytes 2 v.toNat) s id fun t => reg t 0x6000 8 = v.toNat ∧
      (s.power.rackCap = none → rackCap t = v.toNat) ∧ t.mem = s.mem ∧ t.ctxs = s.ctxs) ∧
  (∀ (w : WriteHdr) (v : BitVec 16) (s : State), sextFloor s ≤ v.toNat * 15000 → s.colls = [] →
    WriteWorks (.startUpCapWrite w true v) w 0x6010 5 (leBytes 2 v.toNat) s id fun t => reg t 0x6010 5 = v.toNat ∧
      (s.power.rackScap = none → rackScap t = v.toNat) ∧ t.mem = s.mem ∧ t.ctxs = s.ctxs) ∧
  (∀ (w : WriteHdr) (v : BitVec 16) (s : State), v.toNat ≤ rackCap s → (v.toNat = 0 ∨ floorPower s ≤ v.toNat * 10) →
    timed s = true →
    WriteWorks (.hostCapWrite w v) w 0x6000 3 (leBytes 2 v.toNat) s (fun _ => s) fun t => reg t 0x6000 3 = v.toNat) ∧
  (∀ (w : WriteHdr) (v : BitVec 16) (s : State), (rackCap s < v.toNat ∨ (v.toNat ≠ 0 ∧ v.toNat * 10 < floorPower s)) →
    WriteTaken (writeReq w 0x6000 3 (leBytes 2 v.toNat)) s →
    Runs (.hostCapWrite w v) s fun t => AnsweredLast (writeReq w 0x6000 3 (leBytes 2 v.toNat)) .notPerformed 10 t ∧
      Counted 0x6000 9 0 s t ∧ CountedFault 0xC 0 s t ∧ beside t = beside { s with faults := t.faults }) ∧
  (∀ (w : WriteHdr) (v : BitVec 16) (s : State), isMaster s = true → v.toNat ≤ rackScap s →
    (v.toNat = 0 ∨ sextFloor s ≤ v.toNat * 15000) → timed s = true →
    WriteWorks (.hostSextantCapWrite w v) w 0x6010 3 (leBytes 2 v.toNat) s (fun _ => s) fun t => reg t 0x6010 3 = v.toNat) ∧
  (∀ (w : WriteHdr) (v : BitVec 16) (s : State), isMaster s = false →
    WriteTaken (writeReq w 0x6010 3 (leBytes 2 v.toNat)) s →
    Runs (.hostSextantCapWrite w v) s fun t => AnsweredLast (writeReq w 0x6010 3 (leBytes 2 v.toNat)) .denied 8 t ∧
      Counted 0x6000 9 0 s t ∧ CountedFault 0xC 0 s t ∧ beside t = beside { s with faults := t.faults }) ∧
  (∀ (w : WriteHdr) (v : BitVec 16) (s : State),
    (∀ p, p < 12 → bitAt v.toNat p = true → (port s p).heldOff = true ∨ (port s p).state = .absent) →
    WriteWorks (.holdOffWrite w v) w 0x6200 1 (leBytes 2 v.toNat) s (onlyPorts s) fun t =>
      reg t 0x6200 1 = fld v.toNat 0 12 ∧ ∀ p, p < 12 → (port t p).heldOff = bitAt v.toNat p) ∧
  (∀ (w : WriteHdr) (v : BitVec 16) (p : Nat) (s : State), p < 12 → bitAt v.toNat p = true → (port s p).heldOff = false →
    (port s p).state ≠ .absent → (∀ q, q < 12 → q ≠ p → (port s q).heldOff = bitAt v.toNat q) →
    WriteWorks (.holdOffWrite w v) w 0x6200 1 (leBytes 2 v.toNat) s id fun t =>
      reg t 0x6200 1 = fld v.toNat 0 12 ∧ (port t p).heldOff = true ∧ WentDown p 8 t)

/-- R362, R406 to R408, R411 to R417, R207: sensors are read each ms and the thermal alert follows them; a sensor whose
failing case has held for 1 s is failed, reported, and raises the replace request; the critical level held for 10 ms holds
every port off until 1 s below the warning level; energy is counted and reported each Meridian minute; and a power cut
warning stops the device until 10 ms of good power have passed. -/
def Obligations.HeatAndEnergy : Prop :=
  (∀ (n : Fin 64) (r : Int) (s : State), s.phase = .running → s.power.sensorAt + 4000000 ≤ s.clock → s.colls = [] →
    (∀ k, (sensor s k).failed = false) → sensorPresent s n = true →
    Runs (.sensorRead [(n, r)]) s fun t => (sensor t n).reading = r ∧ t.power.sensorAt = s.clock ∧
      (∀ k, k ≠ n.val → (sensor t k).reading = (sensor s k).reading) ∧
      (t.pins.thermAlert = true ↔ ∃ k, sensorPresent s k = true ∧ s.power.warnLevel ≤ (sensor t k).reading) ∧
      t.mem = s.mem ∧ t.ctxs = s.ctxs) ∧
  (∀ (l : List (Fin 64 × Int)) (s : State), s.clock < s.power.sensorAt + 4000000 → exec (.sensorRead l) s = .next s) ∧
  (∀ (n : Fin 64) (s : State) (x : Nat × Mt), awake s = true → sensorPresent s n = true → (sensor s n).failed = false →
    x ∈ (sensor s n).badFrom → x.2 + 4000000000 ≤ s.clock →
    Runs (.sensorFailed n) s fun t => sensor t n = { sensor s n with failed := true } ∧ CountedFault 0xC n s t ∧
      t.faults.reasons = s.faults.reasons ||| 16#32 ∧ t.pins.replaceReq = (s.pins.replaceReq || t.faults.reasons != s.faults.reasons) ∧
      (∀ k, k ≠ n.val → sensor t k = sensor s k) ∧ t.mem = s.mem ∧ t.ctxs = s.ctxs) ∧
  (∀ (s : State) (a : Mt), s.power.critFrom = some a → a + 40000000 ≤ s.clock → (∀ p, (port s p).state = .absent) →
    Runs .criticalHoldTimeout s fun t => (∀ p ∈ formedPorts s, (port t p).thermOff = true) ∧ t = onlyPorts s t) ∧
  (∀ (s : State) (a : Mt) (p : Nat), s.power.critFrom = some a → a + 40000000 ≤ s.clock → formedPorts s = [p] →
    (port s p).state ≠ .absent → (port s p).thermOff = false →
    Runs .criticalHoldTimeout s fun t => (port t p).thermOff = true ∧ WentDown p 8 t) ∧
  (∀ s : State, s.power.critFrom = none → exec .criticalHoldTimeout s = .next s) ∧
  (∀ (s : State) (a : Mt), s.power.belowFrom = some a → a + 4000000000 ≤ s.clock →
    Runs .thermalRelease s fun t => (∀ p ∈ formedPorts s, (port t p).thermOff = false) ∧ t = onlyPorts s t) ∧
  (∀ s : State, s.power.belowFrom = none → exec .thermalRelease s = .next s) ∧
  (∀ (a : Activity) (s : State), s.phase = .running → s.power.sampleAt + 40000 ≤ s.clock →
    Runs (.activitySample a) s fun t => t.power.sampleAt = s.clock ∧
      t.power.total = s.power.total +
        ((a.counts.filter fun x => sensorPresent s x.1).map fun x => x.2 * blockCoeff s x.1).sum ∧
      t = { s with power := t.power }) ∧
  (∀ (s : State) (a : Mt), s.power.railAt = some a → s.power.corrAt + 4000000000 ≤ s.clock → s.power.corrAt ≤ a →
    Runs .coefficientCorrection s fun t =>
      (∀ n, sensorPresent s n = true →
        tget t.power.coeff n = some (Config.correctedCoeff n (reg s 0x6400 0xB) (blockCoeff s n))) ∧
      t = { s with power := { s.power with corrAt := s.clock, coeff := t.power.coeff } }) ∧
  (∀ s : State, s.power.railAt = none → exec .coefficientCorrection s = .next s) ∧
  (∀ s : State, timed s = true → s.mer.count / 240000000000 ≠ s.mer.minute →
    (isMaster s = false ∨ ∀ u, u < 16 → (sext s u).inService = false) →
    Runs .meridianMinute s fun t => t.mer.minute = s.mer.count / 240000000000 ∧
      t.mer.flagUnlocked = (s.mer.state != .locked) ∧ t.mer.flagHold = (s.mer.state == .holdover) ∧
      t.mer.flagStepped = s.mer.halfRate ∧ t.power.reports = (energyReport s false :: s.power.reports).take 16 ∧
      t.power.energy = [0, 0, 0, 0] ∧ t.ctxs = s.ctxs ∧ t.mem = s.mem ∧ t.units = s.units) ∧
  (∀ (s : State) (u : Fin 16), timed s = true → s.mer.count / 240000000000 ≠ s.mer.minute → isMaster s = true →
    (∀ k, k < 16 → ((sext s k).inService = true ↔ k = u.val)) →
    Config.marginSlack u s.mer.minute (sext s u).freq < reg s 0x5310 5 → 600 < trimmedMax s u →
    Runs .meridianMinute s fun t => trimmedMax t u = trimmedMax s u - 25 ∧ Counted 0x5300 8 u s t ∧
      (∀ k, k < 16 → k ≠ u.val → trimmedMax t k = trimmedMax s k) ∧ ((∀ l ∈ (sext s u).lines, l.dirty = false) → t.mem = s.mem)) ∧
  (∀ s : State, timed s = false → exec .meridianMinute s = .next s) ∧
  (∀ s : State, EdgesPass s (some .fall) none none → s.phase = .running → s.pins.cutWarn = false → PortsIdle s →
    s.flash.worn = [] → ∃ t, step s = .next t ∧ t.phase = .cut ∧ t.pins.cutWarn = true ∧ t.faults.running = [] ∧ t.test.store = none ∧
      (∀ p, p < 12 → (port t p).state = .absent) ∧ t.mgmt.journal = [] ∧ t.ctxs = s.ctxs ∧ t.mem = s.mem) ∧
  (∀ s : State, EdgesPass s (some .fall) none none → s.phase ≠ .running → s.phase ≠ .recovery →
    ∃ t, step s = .next t ∧ t.phase = s.phase ∧ t.pins.cutWarn = true ∧ t.pins.cutGone = none) ∧
  (∀ (s : State) (a b : Bool), EdgesPass s (some (.rise none a none)) none none → s.pins.cutWarn = b →
    ∃ t, step s = .next t ∧ t.phase = s.phase ∧ t.pins.cutWarn = false ∧
      t.pins.cutGone = if b then some (s.clock + 1) else s.pins.cutGone) ∧
  (∀ (s : State) (a : Mt), s.phase = .cut → s.pins.cutGone = some a → a + 40000000 ≤ s.clock → PortsIdle s →
    instReset s = false → s.mgmt.heldReqs = [] → imageValid s.flash s.flash.active = true → s.flash.trial = false →
    s.pins.cutWarn = false →
    Runs (.cutWarnRecovery none) s fun t => Cleared s t ∧ t.phase = .running ∧ t.pins.cutGone = none) ∧
  (∀ s : State, s.pins.cutGone = none → exec (.cutWarnRecovery none) s = .next s)

/-! ## Self-test and repair (chapter 13) -/

/-- R418 to R427: a lane slice that its conditions allow takes its position to SP, and is counted; another is skipped and
counted. A check is noted, and at the receive loop-back's end the slice is decided. A store slice moves a bank to a spare
and back, or leaves it spared out; a Sextant slice passes, or takes its unit out of service. A commit burns a record. -/
def Obligations.SelfTestRuns : Prop :=
  (∀ (p : Fin 12) (b : BitVec 256) (k : Nat) (s : State), (port s p).admitted = some b → sliceDue s b = some k →
    inTurn s 6 (k * slicePeriod s + sliceShift s b) = true → (port s p).sliceNo ≠ some k → sliceRuns s p k = true →
    Runs (.laneSlice p) s fun t => (port t p).slice = some (sliceLane s p k, s.clock) ∧ (port t p).sliceNo = some k ∧
      Counted 0x8000 5 0 s t ∧ (k % 9 ≠ 8 → Output.lane p 1 (lane s (sliceLane s p k)).peerLane 0 ∈ t.out) ∧
      t = { s with ports := t.ports, regs := t.regs, test := t.test, out := t.out }) ∧
  (∀ (p : Fin 12) (b : BitVec 256) (k : Nat) (s : State), (port s p).admitted = some b → sliceDue s b = some k →
    inTurn s 6 (k * slicePeriod s + sliceShift s b) = true → (port s p).sliceNo ≠ some k → sliceRuns s p k = false →
    exec (.laneSlice p) s = .next (setPort (bump s 0x8000 7) p { port s p with sliceNo := some k })) ∧
  (∀ (l : Fin 108) (p : Nat) (since : Mt) (bits errors : Nat) (s : State), octetPort s (l / 9) = some p →
    (port s p).slice = some (l.val, since) → freedHere s l = true → since + 4000 * (100 + reg s 0x8000 3) ≤ s.clock →
    exec (.sliceCheckEnd l .reference bits errors) s =
      .next (setPort s p { port s p with sliceRef := some (ratioOk errors bits (reg s 0x8000 4)) })) ∧
  (∀ (l : Fin 108) (p : Nat) (since : Mt) (bits errors : Nat) (s : State), octetPort s (l / 9) = some p →
    (port s p).slice = some (l.val, since) → freedHere s l = true → freedThere s l = true →
    since + 4000 * (100 + reg s 0x8000 3) ≤ s.clock →
    exec (.sliceCheckEnd l .txLoop bits errors) s =
      .next (setPort s p { port s p with sliceTx := some (ratioOk errors bits (reg s 0x8000 4)) })) ∧
  (∀ (l : Fin 108) (p : Nat) (since : Mt) (bits errors : Nat) (s : State), octetPort s (l / 9) = some p →
    (port s p).slice = some (l.val, since) → freedHere s l = true → since + 4000 * (300 + 2 * reg s 0x8000 3) ≤ s.clock →
    (port s p).sliceRef = some true → (port s p).sliceTx ≠ some false → ratioOk errors bits (reg s 0x8000 4) = true →
    (port s p).lmc = none →
    Runs (.sliceCheckEnd l .rxLoop bits errors) s fun t => (port t p).slice = none ∧ tget t.test.results l = some 1 ∧
      (l.val % 9 ≠ 8 → Output.lane p 2 (lane s l).peerLane 0 ∈ t.out) ∧
      t = { s with ports := t.ports, test := t.test, out := t.out }) ∧
  (∀ (l : Fin 108) (p : Nat) (since : Mt) (bits errors : Nat) (s : State), octetPort s (l / 9) = some p →
    (port s p).slice = some (l.val, since) → freedHere s l = true → since + 4000 * (300 + 2 * reg s 0x8000 3) ≤ s.clock →
    (port s p).sliceRef.isSome = true → (port s p).sliceTx ≠ some false → ratioOk errors bits (reg s 0x8000 4) = false →
    awake s = true →
    Runs (.sliceCheckEnd l .rxLoop bits errors) s fun t => (port t p).slice = none ∧ tget t.test.results l = some 3 ∧
      CountedFault 0xD 0 s t ∧ t.faults.reasons = s.faults.reasons ||| 8#32 ∧
      (∃ r, t.test.records.getLast? = some r ∧ byteAt r 0 = 1 ∧ byteAt r 1 = 0 ∧ leAt r 2 2 = l.val) ∧ t.mem = s.mem ∧
      t.ctxs = s.ctxs) ∧
  (∀ (s : State) (n sp : Nat) (rest : List Nat), inTurn s 6 (storeSliceDue s) = true → s.test.store = none → s.mgmt.restarting = false → nextStoreBank s = some n → freeSpares s = sp :: rest →
    (blob s 0x4630 4).length = 128 →
    Runs .storeSlice s fun t => t.test.store = some (n, servedBy s n, sp, s.clock) ∧ servedBy t n = sp ∧
      (bank t (servedBy s n)).state = 2 ∧ (bank t sp).state = 0 ∧ (∀ m, m ≠ n → servedBy t m = servedBy s m) ∧ t.test.storeAt = s.mer.count ∧
      t = { s with banks := t.banks, blobs := t.blobs, test := t.test }) ∧
  (∀ s : State, inTurn s 6 (storeSliceDue s) = true → s.test.store = none → (freeSpares s = [] ∨ s.mgmt.restarting = true) →
    Runs .storeSlice s fun t => Counted 0x8000 7 0 s t ∧ t.test = { s.test with storeAt := s.mer.count } ∧
      t = { s with regs := t.regs, test := t.test }) ∧
  (∀ (s : State) (n b sp : Nat) (since : Mt), s.test.store = some (n, b, sp, since) → since + 4409600 ≤ s.clock →
    s.test.waiting = [] → b < 136 → b ≠ sp → n < 128 → (blob s 0x4630 4).length = 128 →
    Runs (.retentionWaitEnd true) s fun t => t.test.store = none ∧ servedBy t n = b ∧ (bank t b).state = 0 ∧
      (bank t sp).state = 1 ∧ (∀ m, m ≠ n → servedBy t m = servedBy s m) ∧
      t = { s with banks := t.banks, blobs := t.blobs, test := t.test }) ∧
  (∀ (s : State) (n b sp : Nat) (since : Mt), s.test.store = some (n, b, sp, since) → since + 4409600 ≤ s.clock →
    s.test.waiting = [] → awake s = true →
    Runs (.retentionWaitEnd false) s fun t => t.test.store = none ∧ (bank t b).state = 3 ∧ CountedFault 0xD 0 s t ∧
      (∀ m, servedBy t m = servedBy s m) ∧ (∃ r, t.test.records.getLast? = some r ∧ byteAt r 0 = 3) ∧ t.mem = s.mem ∧
      t.ctxs = s.ctxs) ∧
  (∀ s : State, s.test.store = none → exec (.retentionWaitEnd true) s = .next s) ∧
  (∀ (s : State) (u slack : Nat) (a b : Bool), inTurn s 6 (sextSliceDue s) = true → isMaster s = true → s.mgmt.restarting = false → nextTestUnit s = some u → (a = true ∨ b = true) →
    Runs (.sextantSlice a b slack) s fun t => t.test.sextAt = s.mer.count ∧ t.test.nextUnit = (u + 1) % 16 ∧
      (sext t u).inService = true ∧ (sext t u).lines = [] ∧ (∀ k, k ≠ u → sext t k = sext s k) ∧
      ((∀ l ∈ (sext s u).lines, l.dirty = false) → t.mem = s.mem) ∧ t.ctxs = s.ctxs) ∧
  (∀ (s : State) (u slack : Nat), inTurn s 6 (sextSliceDue s) = true → isMaster s = true → s.mgmt.restarting = false → nextTestUnit s = some u → s.colls = [] → (sext s u).queue = [] →
    Runs (.sextantSlice false false slack) s fun t => (sext t u).inService = false ∧ CountedFault 0xD 0 s t ∧
      CountedFault 8 u s t ∧ (∀ k, k ≠ u → sext t k = sext s k) ∧
      ((∀ l ∈ (sext s u).lines, l.dirty = false) → t.mem = s.mem) ∧ t.ctxs = s.ctxs) ∧
  (∀ (w : WriteHdr) (n : BitVec 8) (r : Bytes) (s : State), s.test.records[n.toNat]? = some r → 1 ≤ byteAt r 0 →
    byteAt r 0 ≤ 3 → byteAt r 1 = 0 → 0 < s.test.fuses → s.test.commit = none → s.pins.cutWarn = false →
    WriteWorks (.repairCommit w n) w 0x8200 4 [n] s (fun t => { s with test := t.test }) fun t =>
      t.test = { s.test with commit := some (n.toNat, r) }) ∧
  (∀ (s : State) (n : Nat) (r : Bytes), s.test.commit = some (n, r) → awake s = true →
    Runs .fuseCommitDone s fun t => t.test.commit = none ∧ t.test.fuses = s.test.fuses - 1 ∧
      t.flash.fusesUsed = s.flash.fusesUsed + 1 ∧ CountedFault 0xD 0 s t ∧
      (byteAt r 0 = 3 → tget t.flash.fusedBanks (byteAt r 2) = some (byteAt r 3)) ∧
      (byteAt r 0 ≠ 3 → (lane t (leAt r 2 2)).fused = true ∧ leAt r 2 2 ∈ t.flash.fusedLanes) ∧ t.mem = s.mem ∧ t.ctxs = s.ctxs) ∧
  (∀ s : State, s.test.commit = none → exec .fuseCommitDone s = .next s)

/-! ## The boundary, start-up and the cascade bus (chapters 01 and 16) -/

/-- What the flash holds boots: the active image is valid and no trial runs. -/
def Boots (s : State) : Prop := imageValid s.flash s.flash.active = true ∧ s.flash.trial = false

/-- R386, R448, R475 to R479, R487: a loss of power clears everything but the flash, the memory and the pins; RESET_N holds
the device in an inst reset; at its release, and when power comes back, the straps are taken and a device whose clocks
lock boots, or enters recovery mode without a valid image; without REFCLK it tries again every 10 ms. Each pin acts once
its edge has passed its filter, in the tick that comes. -/
def Obligations.PowerAndReset : Prop :=
  (∀ s : State, EdgesPass s none (some .fall) none → s.pins.pwrGood = true →
    ∃ t, step s = .next t ∧ t.phase = .held ∧ t.pins.pwrGood = false ∧ t.pins.cold = true ∧
      (∀ c, (ctx t c).state = .off ∧ (ctx t c).gen = 0) ∧ t.blocks = [] ∧ t.pkts = [] ∧ t.accesses = [] ∧ t.tracks = [] ∧
      t.regs = [] ∧ t.tables = State.reset.tables ∧ t.mer = State.reset.mer ∧ t.mem = s.mem ∧
      t.flash = { s.flash with bank0 := t.flash.bank0, bank1 := t.flash.bank1, boot0 := t.flash.boot0, boot1 := t.flash.boot1,
                               bootWrite := none } ∧ t.pins.booked = [] ∧ t.pins.frames = []) ∧
  (∀ s : State, EdgesPass s none none (some .fall) → s.pins.resetN = true → s.pins.pwrGood = true →
    ∃ t, step s = .next t ∧ t.phase = .held ∧ t.pins.resetN = false ∧ t.pins.pcycReq = s.pins.pcycReq ∧ Cleared s t ∧
      t.flash = { s.flash with bootWrite := none } ∧ t.pins.booked = [] ∧ t.pins.frames = []) ∧
  (∀ (i : Fin 4) (slot : Fin 8) (s : State), EdgesPass s none none (some (.rise (some (i, slot)) true none)) → s.pins.resetN = false →
    s.pins.pwrGood = true → Boots s → s.pins.cutWarn = false → s.mgmt.heldReqs = [] → s.colls = [] →
    ∃ t, step s = .next t ∧ t.pins.resetN = true ∧ t.pins.instId = i.val ∧ t.pins.slotId = slot.val ∧
      t.phase = .running ∧ t.clock = 0 ∧ ResetRuns 4 0 t ∧ t.mem = s.mem ∧ t.ctxs = s.ctxs) ∧
  (∀ (i : Fin 4) (slot : Fin 8) (s : State), EdgesPass s none none (some (.rise (some (i, slot)) true none)) → s.pins.resetN = false →
    s.pins.pwrGood = true → imageValid s.flash 0 = false → imageValid s.flash 1 = false → s.flash.active < 2 →
    s.mgmt.heldReqs = [] →
    ∃ t, step s = .next t ∧ t.phase = .recovery ∧ (∀ p, (port t p).state = (port s p).state) ∧ t.mem = s.mem) ∧
  (∀ (i : Fin 4) (slot : Fin 8) (s : State), EdgesPass s none none (some (.rise (some (i, slot)) false none)) → s.pins.resetN = false →
    s.pins.pwrGood = true → s.mgmt.heldReqs = [] →
    ∃ t, step s = .next t ∧ t.phase = .noPll ∧ t.pins.instId = i.val ∧ t.pins.slotId = slot.val ∧ t.pins.pllAt = 0 ∧ t.clock = 0) ∧
  (∀ s : State, EdgesPass s none (some (.rise none true none)) none → s.pins.pwrGood = false → s.pins.resetN = true → Boots s →
    s.pins.cutWarn = false → s.mgmt.heldReqs = [] → s.colls = [] →
    ∃ t, step s = .next t ∧ t.pins.pwrGood = true ∧ t.phase = .running ∧ ResetRuns 4 0 t ∧ t.mem = s.mem) ∧
  (∀ s : State, EdgesPass s none (some (.rise none true none)) none → s.pins.pwrGood = false → s.pins.resetN = false →
    ∃ t, step s = .next t ∧ t.pins.pwrGood = true ∧ t.phase = s.phase ∧ t.mem = s.mem ∧ t.ctxs = s.ctxs) ∧
  (∀ s : State, s.phase = .noPll → s.pins.pllAt + 40000000 ≤ s.clock → Boots s → s.pins.cutWarn = false →
    s.mgmt.heldReqs = [] → s.colls = [] → Runs (.pllLockRetry true none) s fun t => t.phase = .running ∧ t.mem = s.mem) ∧
  (∀ s : State, s.phase = .noPll → s.pins.pllAt + 40000000 ≤ s.clock →
    exec (.pllLockRetry false none) s = .next { s with pins := { s.pins with pllAt := s.clock } }) ∧
  (∀ s : State, s.phase ≠ .noPll → exec (.pllLockRetry true none) s = .next s)

/-- No port of this inst is a stripe of another inst's home port. -/
def NoStripes (s : State) : Prop := ∀ p, p < 12 → stripeOf s p = none

/-- The cascade bus brings what is no routed control packet. -/
def NotRouted (h : BitVec 256) : Prop := cByte h 0 ≠ ctGrant ∧ cByte h 0 ≠ ctRelease ∧ cByte h 0 ≠ ctProbe

/-- R24, R28 to R30, R69, R182, R224, R343, R344: an update of the master is stored and acknowledged, and the master answers
its write once the last present inst has stored it; copies of window entries, counts and settings of the Sextant units go
between insts; a response and a stripe's packet that another inst passes on are taken; an absent master is reported and held
over; insts that are lost and return are counted present or not, and a copy of the shared tables is taken where one is due. -/
def Obligations.CascadeBus : Prop :=
  (∀ (u : TableUpdate) (s : State), isMaster s = false → awake s = true →
    (updateNode u = none ∨ ∃ n, u = .incarnation n (incOf s n)) →
    exec (.cascadeTableUpdate (.table u)) s =
      .next (emit { s with tables := storeUpdate s.tables u } (.bus (.stored (fin4 (instId s)))))) ∧
  (∀ (n : NodeId) (inc : BitVec 8) (s : State), isMaster s = false → awake s = true →
    Runs (.cascadeTableUpdate (.table (.incarnation n inc))) s fun t => incOf t n = inc ∧ ∀ m, m ≠ n → incOf t m = incOf s m) ∧
  (∀ (u : TableUpdate) (s : State), isMaster s = true → exec (.cascadeTableUpdate (.table u)) s = .next s) ∧
  (∀ (i : Fin 4) (q : DictReq) (s : State), awake s = true → s.cascade.writing = some q →
    s.cascade.storing.filter (· != i.val) = [] → s.mgmt.restarting = false → s.mgmt.heldReqs = [] →
    Runs (.cascadeTableUpdate (.stored i)) s fun t => AnsweredLast q .ok 0 t ∧
      beside t = beside { s with cascade := { s.cascade with storing := [], writing := none } }) ∧
  (∀ (i : Fin 4) (s : State), awake s = true → (s.cascade.writing = none ∨ s.cascade.storing.filter (· != i.val) ≠ []) →
    exec (.cascadeTableUpdate (.stored i)) s =
      .next { s with cascade := { s.cascade with storing := s.cascade.storing.filter (· != i.val) } }) ∧
  (∀ (i : Fin 4194304) (s : State), awake s = true → i.val ∉ s.tables.badWindow →
    exec (.cascadeTableUpdate (.windowAsk i)) s =
      .next (emit s (.bus (.windowCopy i (BitVec.ofNat 64 (windowEntry s i.val)))))) ∧
  (∀ (i : Fin 4194304) (v : BitVec 64) (s : State), awake s = true → i.val ∈ s.tables.badWindow →
    Runs (.cascadeTableUpdate (.windowCopy i v)) s fun t => windowEntry t i.val = v.toNat ∧ i.val ∉ t.tables.badWindow ∧
      (∀ j, j ≠ i.val → windowEntry t j = windowEntry s j) ∧ t = { s with tables := t.tables }) ∧
  (∀ (u : Fin 16) (f : Nat) (ch : Option Nat) (s : State), awake s = true → isMaster s = false →
    (sext s u).inService = true → ((sext s u).freq = f ∨ ∀ l ∈ (sext s u).lines, l.dirty = false) →
    Runs (.cascadeTableUpdate (.unitState u (trimmedMax s u) f true ch)) s fun t => (sext t u).freq = f ∧ (sext t u).change = ch ∧
      (∀ k, k ≠ u.val → sext t k = sext s k) ∧ t.mem = s.mem ∧ t.ctxs = s.ctxs) ∧
  (∀ (u : Fin 16) (sub : Fin 14) (n : Nat) (s : State), awake s = true →
    exec (.cascadeTableUpdate (.unitWork u sub n)) s = .next (bumpBy s 0x5300 sub u n)) ∧
  (∀ (n : BitVec 64) (st : Fin 4) (k : BitVec 8) (m : NodeId) (h : Bool) (s : State), awake s = true → isMaster s = false → st.val ≠ 0 →
    s.mer.count ≤ n.toNat →
    Runs (.cascadeTableUpdate (.time n st k m h)) s fun t => t.mer.state = TimeState.ofCode st.val ∧ t.mer.stratum = k.toNat ∧
      t.mer.master = m ∧ t.mer.upHold = h ∧ s.mer.count ≤ t.mer.count ∧
      (s.mer.count + reg s 0x9020 2 < n.toNat → t.mer.count = n.toNat) ∧
      t = { s with mer := t.mer, regs := t.regs, faults := t.faults, charts := t.charts }) ∧
  (∀ (src : Fin 4) (w : WirePacket) (units : Nat) (s : State), s.phase = .running → src.val ≠ instId s → NotRouted w.header →
    payloadUnits w.header = some units → isResponse (hOp w.header) = true → hDst w.header = ownNode s →
    hSinst w.header = instId s →
    exec (.cascadePacketReceive src none w) s = .next (if hOp w.header = opWriteAck then answerMap s w.header
      else answerFrom s (newPkt s w.header (padTo (64 * units) w.payload) .response none))) ∧
  (∀ (src : Fin 4) (p : Fin 12) (w : WirePacket) (units : Nat) (a : Account) (s : State), s.phase = .running → src.val ≠ instId s →
    NotRouted w.header → payloadUnits w.header = some units → stripeOf s p = none →
    (∀ y ∈ s.pkts, y.acct ≠ .waiting (some p)) → arrivalAccount s p w.header (footprint (64 * units)) = some (a, false) →
    stampsCurrent s w.header = true → keyStanding s p (hKey w.header) = 1 → isResponse (hOp w.header) = true →
    Runs (.cascadePacketReceive src (some p) w) s fun t =>
      (∃ x, t.pkts = s.pkts ++ [x] ∧ x.header = w.header ∧ x.payload = padTo (64 * units) w.payload ∧ x.inPort = some p.val ∧
        x.acct = a ∧ x.id = s.nextId) ∧ t.nextId = s.nextId + 1 ∧ t.mem = s.mem ∧ t.ctxs = s.ctxs) ∧
  (∀ (src : Fin 4) (p : Fin 12) (w : WirePacket) (units q : Nat) (s : State), s.phase = .running → src.val ≠ instId s →
    NotRouted w.header → payloadUnits w.header = some units → stripeOf s p = some (src.val, q) →
    (∀ y ∈ s.pkts, y.acct ≠ .waiting (some p)) → (hVc w.header ≠ 1 ∨ canReserve s (footprint (64 * units)) = true) →
    Runs (.cascadePacketReceive src (some p) w) s fun t =>
      (∃ x, t.pkts = s.pkts ++ [x] ∧ x.header = w.header ∧ x.acct = .egress p (hVc w.header) ∧ x.id = s.nextId) ∧
      t.nextId = s.nextId + 1 ∧ t.mem = s.mem ∧ t.ctxs = s.ctxs) ∧
  (∀ (src : Fin 4) (p : Fin 12) (w : WirePacket) (units : Nat) (s : State), s.phase = .running → src.val ≠ instId s →
    NotRouted w.header → payloadUnits w.header = some units → (∃ y ∈ s.pkts, y.acct = .waiting (some p)) →
    (∀ y ∈ s.pkts, y.id ≠ s.nextId) → (stripeOf s p = none ∨ ∃ q, stripeOf s p = some (src.val, q)) →
    Runs (.cascadePacketReceive src (some p) w) s fun t =>
      (∃ x, t.pkts = s.pkts ++ [x] ∧ x.header = w.header ∧ x.acct = .waiting (some p) ∧ x.id = s.nextId) ∧
      t.nextId = s.nextId + 1 ∧ t.mem = s.mem ∧ t.ctxs = s.ctxs) ∧
  (∀ (src : Fin 4) (p : Option (Fin 12)) (w : WirePacket) (s : State), (s.phase ≠ .running ∨ src.val = instId s) →
    exec (.cascadePacketReceive src p w) s = .next s) ∧
  (∀ s : State, isMaster s = false → s.cascade.masterAbsent = false → awake s = true → NoStripes s →
    s.cascade.copying = false → s.cascade.writing = none →
    Runs (.masterAbsent []) s fun t => t.cascade.masterAbsent = true ∧ t.mer.state = .holdover ∧ CountedFault 0xA 0 s t ∧
      t.faults.reasons = s.faults.reasons ||| 1#32 ∧ 0 ∉ t.cascade.present ∧ t.tables = s.tables ∧ t.pkts = s.pkts ∧ t.mem = s.mem) ∧
  (∀ s : State, (isMaster s = true ∨ s.cascade.masterAbsent = true) → exec (.masterAbsent []) s = .next s) ∧
  (∀ (i : Fin 4) (s : State), i.val ≠ 0 → i.val ≠ instId s → awake s = true → NoStripes s → s.cascade.copying = false →
    s.cascade.writing = none →
    Runs (.cascadeInstanceLoss i []) s fun t => t.cascade.present = s.cascade.present.filter (· != i.val) ∧
      t.cascade.storing = s.cascade.storing.filter (· != i.val) ∧ t.cascade.lost = s.cascade.lost.filter (fun x => x.1 != i.val) ∧
      t = { s with cascade := t.cascade }) ∧
  (∀ (i : Fin 4) (l : List (Fin 12)) (s : State), (i.val = 0 ∨ i.val = instId s) →
    exec (.cascadeInstanceLoss i l) s = .next s) ∧
  (∀ (i : Fin 4) (s : State), i.val ≠ 0 → i.val ≠ instId s → awake s = true → NoStripes s →
    (∀ x ∈ s.cascade.lost, x.1 ≠ i.val) → s.cascade.copying = false → s.cascade.atStart = false →
    Runs (.cascadeInstanceReturn i none) s fun t => i.val ∈ t.cascade.present ∧
      (∀ j, j ≠ i.val → (j ∈ t.cascade.present ↔ j ∈ s.cascade.present)) ∧
      t = { s with cascade := t.cascade, out := t.out }) ∧
  (∀ (c : TableCopy) (s : State), instId s ≠ 0 → awake s = true → NoStripes s → (∀ x ∈ s.cascade.lost, x.1 ≠ 0) →
    s.cascade.copying = true → (∀ p, (port s p).hail = none) →
    Runs (.cascadeInstanceReturn 0 (some c)) s fun t => t.tables = { copiedTables c s.tables with quiet := t.tables.quiet } ∧
      t.cascade.copying = false ∧ t.cascade.masterAbsent = false ∧ 0 ∈ t.cascade.present ∧
      t = { s with cascade := t.cascade, tables := t.tables, out := t.out })
end

