-- ==== Sys2Proof/Laws/State.lean ====
section
/-! SUPPORT. The small laws of the state: sparse tables, memory, the accessors of the groups of registers,
and what "a function leaves a part of the state as it is" means for folds and verdicts. -/

namespace Sys2Proof.Machine
open Sys2Proof

/-! ## Sparse tables -/

@[simp] theorem tget_tput_self {α : Type} (t : Tbl α) (n : Nat) (x : α) : tget (tput t n x) n = some x := by
  induction t with
  | nil => simp [tput, tget]
  | cons a r ih => unfold tput; split <;> [simp [tget]; (split <;> simp_all [tget])]

theorem tget_tput_ne {α : Type} (t : Tbl α) (n m : Nat) (x : α) (h : n ≠ m) :
    tget (tput t n x) m = tget t m := by
  induction t with
  | nil => simp [tput, tget, h.symm]
  | cons a r ih =>
    unfold tput
    split
    · simp [tget, h.symm]
    · split
      · rename_i e; subst e; simp [tget, Ne.symm h]
      · simp [tget, ih]

@[simp] theorem tget_tdel_self {α : Type} (t : Tbl α) (n : Nat) : tget (tdel t n) n = none := by
  induction t with
  | nil => rfl
  | cons a r ih => unfold tdel; split <;> simp_all [tget]

theorem tget_tdel_ne {α : Type} (t : Tbl α) (n m : Nat) (h : n ≠ m) : tget (tdel t n) m = tget t m := by
  induction t with
  | nil => rfl
  | cons a r ih =>
    unfold tdel
    split
    · rename_i e; subst e; simp [tget, Ne.symm h, ih]
    · simp [tget, ih]

@[simp] theorem tgetD_tput_self {α : Type} (t : Tbl α) (n : Nat) (x d : α) : tgetD (tput t n x) n d = x := by
  simp [tgetD]

theorem tgetD_tput_ne {α : Type} (t : Tbl α) (n m : Nat) (x d : α) (h : n ≠ m) :
    tgetD (tput t n x) m d = tgetD t m d := by
  simp [tgetD, tget_tput_ne t n m x h]

/-! ## Parts that a function leaves as they are -/

/-- A verdict on a state leaves a part of it as it was. -/
def verdictKeeps {β : Type} (π : State → β) (s : State) : Verdict → Prop
  | .done t _ => π t = π s
  | .refuse _ _ => True
  | .counted t _ _ => π t = π s
  | .later t => π t = π s

@[simp] theorem verdictKeeps_done {β : Type} (π : State → β) (s t : State) (b : Bytes) :
    verdictKeeps π s (.done t b) = (π t = π s) := rfl
@[simp] theorem verdictKeeps_refuse {β : Type} (π : State → β) (s : State) (st : Status) (n : Nat) :
    verdictKeeps π s (.refuse st n) = True := rfl
@[simp] theorem verdictKeeps_counted {β : Type} (π : State → β) (s t : State) (st : Status) (n : Nat) :
    verdictKeeps π s (.counted t st n) = (π t = π s) := rfl
@[simp] theorem verdictKeeps_later {β : Type} (π : State → β) (s t : State) :
    verdictKeeps π s (.later t) = (π t = π s) := rfl
@[simp] theorem verdictKeeps_ok {β : Type} (π : State → β) (s t : State) :
    verdictKeeps π s (ok t) = (π t = π s) := rfl
@[simp] theorem verdictKeeps_outOfRange {β : Type} (π : State → β) (s : State) :
    verdictKeeps π s outOfRange = True := rfl
@[simp] theorem verdictKeeps_breaksRule {β : Type} (π : State → β) (s : State) :
    verdictKeeps π s breaksRule = True := rfl
@[simp] theorem verdictKeeps_entryBusy {β : Type} (π : State → β) (s : State) :
    verdictKeeps π s entryBusy = True := rfl

theorem verdictKeeps_require {β : Type} (π : State → β) (s : State) (c : Bool) (v : Verdict)
    (h : verdictKeeps π s v) : verdictKeeps π s (require c v) := by
  cases c <;> simp [require, h]

theorem verdictKeeps_inRange {β : Type} (π : State → β) (s : State) (c : Bool) (v : Verdict)
    (h : verdictKeeps π s v) : verdictKeeps π s (inRange c v) := by
  cases c <;> simp [inRange, h]

/-- The same of a verdict that may be absent. -/
def optKeeps {β : Type} (π : State → β) (s : State) : Option Verdict → Prop
  | some v => verdictKeeps π s v
  | none => True

@[simp] theorem optKeeps_some {β : Type} (π : State → β) (s : State) (v : Verdict) :
    optKeeps π s (some v) = verdictKeeps π s v := rfl
@[simp] theorem optKeeps_none {β : Type} (π : State → β) (s : State) : optKeeps π s none = True := rfl

/-- The same of a meaning's outcome. -/
def nextKeeps {β : Type} (π : State → β) (s : State) : Host.Outcome State Fault Refusal → Prop
  | .next t => π t = π s
  | _ => True

@[simp] theorem nextKeeps_next {β : Type} (π : State → β) (s t : State) :
    nextKeeps π s (.next t) = (π t = π s) := rfl

/-- A fold whose steps leave a part as it is leaves it as it is. -/
theorem foldl_keeps {α β : Type} (π : State → β) (f : State → α → State) (h : ∀ t x, π (f t x) = π t) (l : List α)
    (s : State) : π (l.foldl f s) = π s := by
  induction l generalizing s with
  | nil => rfl
  | cons a r ih => simp [List.foldl_cons, ih, h]

theorem repeat_keeps {β : Type} (π : State → β) (f : State → State) (h : ∀ t, π (f t) = π t) (n : Nat)
    (s : State) : π (Nat.repeat f n s) = π s := by
  induction n with
  | zero => rfl
  | succ n ih => simp [Nat.repeat, ih, h]

end Sys2Proof.Machine
end

