-- ==== Sys2Proof/Laws/Dict.lean ====
section
/-! SUPPORT. What a dictionary write does once it is taken: the state its entry's rule sees, the answer, and
what the dictionary's own bookkeeping leaves as it was. -/

namespace Sys2Proof.Machine
open Sys2Proof

/-! ## What the bookkeeping keeps -/

theorem beside_putSession (s : State) (x : Session) : beside (putSession s x) = beside s := rfl
theorem beside_bumpBy (s : State) (i j k n : Nat) : beside (bumpBy s i j k n) = beside s := rfl
theorem beside_writeLog (s : State) (a b : Nat) (p : Bytes) : beside (writeLog s a b p) = beside s := rfl

theorem beside_touchSession (s : State) (o : Nat) : beside (touchSession s o) = beside s := by
  unfold touchSession
  simp only []
  split
  · rfl
  · split
    · split <;> rfl
    · rfl

theorem beside_received (q : DictReq) (s : State) : beside (received q s) = beside s := by
  unfold received
  rw [beside_touchSession]
  split <;> rfl

/-- A program of a flash none of whose sectors fails. -/
theorem program_clean {s : State} (a n : Nat) (f : Flash → Flash) (h : s.flash.worn = []) :
    program s a n f = { s with flash := f s.flash } := by
  simp [program, wornIn, h]

theorem worn_setJournalBank (f : Flash) (i : Nat) (b : JBank) : (setJournalBank f i b).worn = f.worn := by
  unfold setJournalBank; split <;> rfl

/-- A record appended to such a flash changes nothing but the flash. -/
theorem appendRec_clean {s : State} (k : Nat) (v : Stored) (g : Bool) (h : s.flash.worn = []) :
    ∃ f : Flash, appendRec s k v g = { s with flash := f } ∧ f.worn = [] ∧ f.returned = s.flash.returned := by
  have hr (f : Flash) (i : Nat) (b : JBank) : (setJournalBank f i b).returned = f.returned := by
    unfold setJournalBank; split <;> rfl
  unfold appendRec compact
  simp only []
  rw [program_clean _ _ _ h]
  split
  · exact ⟨_, rfl, by rw [worn_setJournalBank, h], by rw [hr]⟩
  · rw [program_clean _ _ _ (by rw [worn_setJournalBank, h])]
    exact ⟨_, rfl, by simp only [worn_setJournalBank, h], by simp only [hr]⟩

/-- A counter accepted on such a flash changes nothing but the flash and the slot's counter. -/
theorem acceptCounter_clean {s : State} (a : Auth) (h : s.flash.worn = []) :
    ∃ f : Flash, acceptCounter s a =
      { s with flash := f, mgmt := { s.mgmt with counters := tput s.mgmt.counters a.slot.toNat a.counter.toNat } } := by
  unfold acceptCounter
  simp only []
  split
  · obtain ⟨f, hf, -, -⟩ := appendRec_clean (markKey a.slot.toNat) (.num (a.counter.toNat + 65536)) true h
    rw [hf]
    exact ⟨f, rfl⟩
  · exact ⟨s.flash, rfl⟩

theorem worn_received (q : DictReq) (s : State) : (received q s).flash.worn = s.flash.worn := by
  unfold received touchSession
  simp only []
  cases q.path <;> (simp only []; split <;> first | rfl | (split <;> first | rfl | (split <;> rfl)))

theorem beside_atEntry (q : DictReq) (s : State) (h : Authorised q s) : beside (atEntry q s) = beside s := by
  unfold atEntry
  unfold Authorised at h
  split
  · exact beside_received q s
  · rename_i a hq
    simp only [hq] at h
    obtain ⟨f, hf⟩ := acceptCounter_clean (s := received q s) a (by rw [worn_received]; exact h.2)
    rw [hf]
    exact beside_received q s

theorem beside_answer (s : State) (q : DictReq) (st : Status) (n : Nat) (b : Bytes) :
    beside (answer s q st n b) = beside s := by
  unfold answer sendAnswer sendFrame
  simp only []
  split
  · rfl
  · split <;> rfl

/-- The end of a write that took effect: its Logbook record and its answer. -/
def written (q : DictReq) (u : State) : State :=
  answer (logCritWrite q ⟨u, .ok, 0, [], false⟩) q .ok 0 (writeAns q)

theorem beside_written (q : DictReq) (u : State) : beside (written q u) = beside u := by
  unfold written logCritWrite
  rw [beside_answer]
  split <;> rfl

/-- A part of the state that the dictionary does not own is read through `beside`. -/
theorem part_of_beside {β : Type} (π : State → β) (h : ∀ s, π (beside s) = π s) {s t : State}
    (e : beside s = beside t) : π s = π t := by
  rw [← h s, ← h t, e]

/-! ## A write that is taken -/

theorem keys_touchSession (s : State) (o : Nat) : (touchSession s o).mgmt.keys = s.mgmt.keys := by
  unfold touchSession
  simp only []
  split
  · rfl
  · split
    · split <;> rfl
    · rfl

theorem counters_touchSession (s : State) (o : Nat) :
    (touchSession s o).mgmt.counters = s.mgmt.counters := by
  unfold touchSession
  simp only []
  split
  · rfl
  · split
    · split <;> rfl
    · rfl

theorem authReason_received (q : DictReq) (s : State) (i j : Nat) (acc : Access7) (v : Bytes) (a : Auth) :
    authReason (received q s) i j acc v a = authReason s i j acc v a := by
  have hk : (received q s).mgmt.keys = s.mgmt.keys := by
    unfold received; rw [keys_touchSession]; split <;> rfl
  have hc : (received q s).mgmt.counters = s.mgmt.counters := by
    unfold received; rw [counters_touchSession]; split <;> rfl
  have h1 : slotKey (received q s) a.slot.toNat = slotKey s a.slot.toNat := by simp only [slotKey, hk]
  have h2 : slotCounter (received q s) a.slot.toNat = slotCounter s a.slot.toNat := by simp only [slotCounter, hc]
  unfold authReason
  simp only []
  rw [h1, h2]

theorem scopeReason_atEntry (q : DictReq) (s : State) (i j : Nat) (h : Authorised q s) :
    scopeReason (atEntry q s) i j = scopeReason s i j :=
  part_of_beside (fun s => scopeReason s i j) (fun _ => rfl) (beside_atEntry q s h)

/-- Once received, a write whose checks pass and whose rule is met ends as `written`. -/
theorem performWrite_done (q : DictReq) (apply : State → Verdict) (s u : State) (b : Bytes)
    (ht : q.tooLong = false) (hr : returnReason (received q s) q = none) (he : earlyReason q = none)
    (ha : Authorised q s) (hs : scopeReason s q.index q.sub = none) (hg : rangeReason q = none)
    (hd : apply (atEntry q s) = .done u b) (hst : u.cascade.storing = []) :
    performWrite q apply (received q s) = written q u := by
  have own : ownChecks q apply (atEntry q s) = ⟨u, .ok, 0, b, false⟩ := by
    simp [ownChecks, scopeReason_atEntry _ _ _ _ ha, hs, hg, firstReason, hd, verdict7]
  have out : writeOutcome q apply (received q s) = ⟨u, .ok, 0, b, false⟩ := by
    unfold writeOutcome
    simp only [hr, he, firstReason]
    unfold Authorised at ha
    unfold atEntry at own
    cases hq : q.auth with
    | none =>
      simp only [hq] at ha own ⊢
      rw [if_neg ha]
      exact own
    | some a =>
      simp only [hq] at ha own ⊢
      rw [authReason_received]
      rw [ha.1]
      exact own
  unfold performWrite written logCritWrite
  simp only [ht, out]
  cases q.auth <;> simp [hst]

/-- R456 reads nothing that the bookkeeping changes. -/
theorem returned_received (q : DictReq) (s : State) : (received q s).flash.returned = s.flash.returned := by
  unfold received touchSession
  simp only []
  cases q.path <;> (simp only []; split <;> first | rfl | (split <;> first | rfl | (split <;> rfl)))

/-- A write that is taken and whose rule is met: the command's state after it. -/
theorem dictWrite_done (w : WriteHdr) (i j : Nat) (v : Bytes) (apply : State → Verdict) (s u : State)
    (b : Bytes) (h : WriteTaken (writeReq w i j v) s)
    (hd : apply (atEntry (writeReq w i j v) s) = .done u b) (hst : u.cascade.storing = []) :
    dictWrite w i j v apply s = written (writeReq w i j v) u := by
  obtain ⟨hpa, hup, hidx, hdr, -, htl, -, hnew, hans, hret, hear, haut, hsc, hrg⟩ := h
  have key := performWrite_done (writeReq w i j v) apply s u b htl
    (by simpa [returnReason, returned_received] using hret) hear haut hsc hrg hd hst
  unfold dictWrite fromPath
  simp only [show (writeReq w i j v).path = w.path from rfl, show (writeReq w i j v).xid = w.xid from rfl,
    show (writeReq w i j v).index = i from rfl] at *
  unfold received at key
  simp only [show (writeReq w i j v).path = w.path from rfl, show (writeReq w i j v).xid = w.xid from rfl] at key
  cases hp : w.path with
  | host x =>
    simp only [hp, Path.isHost] at key hnew hans
    have hpa' : pathAccepted { s with mgmt := { s.mgmt with lastSubmit := some w.xid } } (writeReq w i j v) = true := hpa
    have hup' : dictionaryUp { s with mgmt := { s.mgmt with lastSubmit := some w.xid } } = true := hup
    have hidx' : indexAnswers { s with mgmt := { s.mgmt with lastSubmit := some w.xid } } i = true := hidx
    have hdr' : withheld { s with mgmt := { s.mgmt with lastSubmit := some w.xid } } = false := hdr
    rw [if_pos (by simp [Path.isHost]), if_neg (by simpa using hnew)]
    unfold transact
    rw [if_neg (by simp [hpa']), if_neg (by simp [hup']), if_neg (by simp [writeReq, hidx']), if_neg (by simp [hdr'])]
    simp only [show (writeReq w i j v).path = w.path from rfl, show (writeReq w i j v).xid = w.xid from rfl, hp,
      Path.isHost, if_true, hans]
    exact key
  | field e =>
    simp only [hp] at key hans
    rw [if_neg (by simp [Path.isHost])]
    unfold transact
    rw [if_neg (by simp [hpa]), if_neg (by simp [hup]), if_neg (by simp [writeReq, hidx]), if_neg (by simp [hdr])]
    have hans' : (bump s 4112 3).mgmt.answers.find? (fun a => a.owner == ownerOf (.field e) && a.xid == w.xid) = none := hans
    simp only [show (writeReq w i j v).path = w.path from rfl, show (writeReq w i j v).xid = w.xid from rfl, hp,
      Path.isHost, Bool.false_eq_true, if_false, hans']
    exact key

theorem keepAnswer_last (s : State) (a : Answer) : (keepAnswer s a).mgmt.answers.getLast? = some a := by
  simp only [keepAnswer, List.getLast?_drop, List.length_append, List.length_singleton, List.getLast?_concat]
  rw [if_neg (by omega)]

theorem written_answered (w : WriteHdr) (i j : Nat) (v : Bytes) (u : State) :
    AnsweredOk w i j (written (writeReq w i j v) u) := by
  have h (s : State) (p : Path) (a : Answer) : (sendAnswer s p a).mgmt.answers = s.mgmt.answers := by
    unfold sendAnswer sendFrame
    simp only []
    split
    · rfl
    · split <;> rfl
  unfold AnsweredOk written answer
  rw [h, keepAnswer_last]
  rfl

/-- A write command works when its entry's rule gives a state, named here, that meets the frame and the effect. -/
theorem writeWorks {c : Instr} {w : WriteHdr} {i j : Nat} {v : Bytes} {s : State} {frame : State → State}
    {post : State → Prop} (apply : State → Verdict) (u : State) (b : Bytes)
    (hc : exec c s = .next (dictWrite w i j v apply s))
    (hd : apply (atEntry (writeReq w i j v) s) = .done u b)
    (hf : beside u = beside (frame (written (writeReq w i j v) u)))
    (hp : post (written (writeReq w i j v) u)) (hst : s.cascade.storing = [] → u.cascade.storing = []) : WriteWorks c w i j v s frame post := by
  intro hT
  refine ⟨written (writeReq w i j v) u, ?_, written_answered w i j v u, ?_, hp⟩
  · rw [hc, dictWrite_done w i j v apply s u b hT hd (hst hT.2.2.2.2.1)]
  · rw [beside_written, hf]

/-! ## What an entry's rule reads -/

theorem regs_touchSession (s : State) (o : Nat) :
    (touchSession s o).regs = s.regs ∨
      (touchSession s o).regs = (bump s 0x1020 3).regs := by
  unfold touchSession
  simp only []
  split
  · exact .inl rfl
  · split
    · split
      · exact .inr rfl
      · exact .inl rfl
    · exact .inl rfl

theorem regAt_bumpBy_ne (s : State) (i j k n a b c : Nat) (h : regKey i j k ≠ regKey a b c) :
    regAt (bumpBy s a b c n) i j k = regAt s i j k := by
  simp only [bumpBy, setRegAt, regAt]
  rw [tget_tput_ne _ _ _ _ (Ne.symm h)]

/-- A number that is not one of the dictionary's own counts is read as it was before the write. -/
theorem regAt_atEntry (q : DictReq) (s : State) (i j k : Nat) (h : Authorised q s) (h1 : regKey i j k ≠ regKey 0x1010 3 0)
    (h2 : regKey i j k ≠ regKey 0x1020 3 0) : regAt (atEntry q s) i j k = regAt s i j k := by
  have ht (t : State) (o : Nat) : regAt (touchSession t o) i j k = regAt t i j k := by
    rcases regs_touchSession t o with h | h
    · simp only [regAt, h]
    · simp only [regAt, h]
      exact regAt_bumpBy_ne t i j k 1 0x1020 3 0 h2
  have hr : regAt (received q s) i j k = regAt s i j k := by
    unfold received
    rw [ht]
    split
    · rfl
    · exact regAt_bumpBy_ne s i j k 1 0x1010 3 0 h1
  unfold atEntry
  unfold Authorised at h
  split
  · exact hr
  · rename_i a hq
    simp only [hq] at h
    obtain ⟨f, hf⟩ := acceptCounter_clean (s := received q s) a (by rw [worn_received]; exact h.2)
    rw [← hr, hf]
    rfl

theorem sessionOf_putSession (s : State) (x : Session) (o : Nat) (h : x.owner = o) :
    sessionOf (putSession s x) o = x := by
  simp [sessionOf, putSession, h]

theorem sel_touchSession (s : State) (o : Nat) : (sessionOf (touchSession s o) o).sel = (sessionOf s o).sel := by
  unfold touchSession
  simp only []
  split
  · rename_i h
    obtain ⟨x, hx, ho⟩ := List.any_eq_true.mp h
    have hs : (sessionOf s o).owner = o := by
      unfold sessionOf
      cases hf : s.mgmt.sessions.find? (fun x => x.owner == o) with
      | none => rfl
      | some y => simpa using List.find?_some hf
    rw [sessionOf_putSession _ _ _ (by exact hs)]
  · rename_i h
    have hn : s.mgmt.sessions.find? (fun x => x.owner == o) = none := by
      rw [List.find?_eq_none]
      intro x hx
      simpa using (fun e => h (List.any_eq_true.mpr ⟨x, hx, e⟩))
    have hs : (sessionOf s o).sel = [] := by simp [sessionOf, hn, freshSession]
    rw [hs]
    rw [sessionOf_putSession _ (freshSession o (s.mgmt.clockTx + 1)) o rfl]
    rfl

/-- The selection that the writer's session holds is read as it was before the write. -/
theorem selected_atEntry (q : DictReq) (s : State) (i j : Nat) (h0 : Authorised q s) :
    selected (atEntry q s) (ownerOf q.path) i j = selected s (ownerOf q.path) i j := by
  have h : (sessionOf (received q s) (ownerOf q.path)).sel = (sessionOf s (ownerOf q.path)).sel := by
    unfold received
    rw [sel_touchSession]
    cases q.path <;> rfl
  have h2 : (sessionOf (atEntry q s) (ownerOf q.path)).sel = (sessionOf s (ownerOf q.path)).sel := by
    unfold atEntry
    split
    · exact h
    · rename_i a hq
      unfold Authorised at h0
      simp only [hq] at h0
      obtain ⟨f, hf⟩ := acceptCounter_clean (s := received q s) a (by rw [worn_received]; exact h0.2)
      rw [← h, hf]
      rfl
  simp only [selected, h2]

end Sys2Proof.Machine
end

