-- ==== Sys2Proof/Laws/Fields.lean ====
section
/-! SUPPORT. One law per field of the state and per update of a group of registers: what the update leaves as it was,
and what an accessor of a group reads after it. -/

namespace Sys2Proof.Machine
open Sys2Proof

/-! ## After `setPort` -/

@[simp] theorem setPort_pending (s p x) : (setPort s p x).pending = s.pending := rfl
@[simp] theorem setPort_clock (s p x) : (setPort s p x).clock = s.clock := rfl
@[simp] theorem setPort_phase (s p x) : (setPort s p x).phase = s.phase := rfl
@[simp] theorem setPort_pins (s p x) : (setPort s p x).pins = s.pins := rfl
@[simp] theorem setPort_cascade (s p x) : (setPort s p x).cascade = s.cascade := rfl
@[simp] theorem setPort_regs (s p x) : (setPort s p x).regs = s.regs := rfl
@[simp] theorem setPort_blobs (s p x) : (setPort s p x).blobs = s.blobs := rfl
@[simp] theorem setPort_tables (s p x) : (setPort s p x).tables = s.tables := rfl
@[simp] theorem setPort_ctxs (s p x) : (setPort s p x).ctxs = s.ctxs := rfl
@[simp] theorem setPort_genBase (s p x) : (setPort s p x).genBase = s.genBase := rfl
@[simp] theorem setPort_held (s p x) : (setPort s p x).held = s.held := rfl
@[simp] theorem setPort_turns (s p x) : (setPort s p x).turns = s.turns := rfl
@[simp] theorem setPort_tracks (s p x) : (setPort s p x).tracks = s.tracks := rfl
@[simp] theorem setPort_blocks (s p x) : (setPort s p x).blocks = s.blocks := rfl
@[simp] theorem setPort_streams (s p x) : (setPort s p x).streams = s.streams := rfl
@[simp] theorem setPort_msgOut (s p x) : (setPort s p x).msgOut = s.msgOut := rfl
@[simp] theorem setPort_msgIn (s p x) : (setPort s p x).msgIn = s.msgIn := rfl
@[simp] theorem setPort_accums (s p x) : (setPort s p x).accums = s.accums := rfl
@[simp] theorem setPort_senders (s p x) : (setPort s p x).senders = s.senders := rfl
@[simp] theorem setPort_grants (s p x) : (setPort s p x).grants = s.grants := rfl
@[simp] theorem setPort_accesses (s p x) : (setPort s p x).accesses = s.accesses := rfl
@[simp] theorem setPort_pkts (s p x) : (setPort s p x).pkts = s.pkts := rfl
@[simp] theorem setPort_writers (s p x) : (setPort s p x).writers = s.writers := rfl
@[simp] theorem setPort_lanes (s p x) : (setPort s p x).lanes = s.lanes := rfl
@[simp] theorem setPort_octets (s p x) : (setPort s p x).octets = s.octets := rfl
@[simp] theorem setPort_cards (s p x) : (setPort s p x).cards = s.cards := rfl
@[simp] theorem setPort_colls (s p x) : (setPort s p x).colls = s.colls := rfl
@[simp] theorem setPort_pends (s p x) : (setPort s p x).pends = s.pends := rfl
@[simp] theorem setPort_units (s p x) : (setPort s p x).units = s.units := rfl
@[simp] theorem setPort_banks (s p x) : (setPort s p x).banks = s.banks := rfl
@[simp] theorem setPort_charts (s p x) : (setPort s p x).charts = s.charts := rfl
@[simp] theorem setPort_mer (s p x) : (setPort s p x).mer = s.mer := rfl
@[simp] theorem setPort_faults (s p x) : (setPort s p x).faults = s.faults := rfl
@[simp] theorem setPort_power (s p x) : (setPort s p x).power = s.power := rfl
@[simp] theorem setPort_test (s p x) : (setPort s p x).test = s.test := rfl
@[simp] theorem setPort_mgmt (s p x) : (setPort s p x).mgmt = s.mgmt := rfl
@[simp] theorem setPort_flash (s p x) : (setPort s p x).flash = s.flash := rfl
@[simp] theorem setPort_mem (s p x) : (setPort s p x).mem = s.mem := rfl
@[simp] theorem setPort_out (s p x) : (setPort s p x).out = s.out := rfl
@[simp] theorem setPort_nextId (s p x) : (setPort s p x).nextId = s.nextId := rfl
@[simp] theorem setPort_free (s p x) : (setPort s p x).free = s.free := rfl
@[simp] theorem ctx_setPort (s p x c1) : ctx (setPort s p x) c1 = ctx s c1 := rfl
@[simp] theorem lane_setPort (s p x l1) : lane (setPort s p x) l1 = lane s l1 := rfl
@[simp] theorem octet_setPort (s p x o1) : octet (setPort s p x) o1 = octet s o1 := rfl
@[simp] theorem sext_setPort (s p x u1) : sext (setPort s p x) u1 = sext s u1 := rfl
@[simp] theorem block_setPort (s p x b1) : block (setPort s p x) b1 = block s b1 := rfl
@[simp] theorem regAt_setPort (s p x i1 j1 k1) : regAt (setPort s p x) i1 j1 k1 = regAt s i1 j1 k1 := rfl

/-! ## After `setCtx` -/

@[simp] theorem setCtx_pending (s c x) : (setCtx s c x).pending = s.pending := rfl
@[simp] theorem setCtx_clock (s c x) : (setCtx s c x).clock = s.clock := rfl
@[simp] theorem setCtx_phase (s c x) : (setCtx s c x).phase = s.phase := rfl
@[simp] theorem setCtx_pins (s c x) : (setCtx s c x).pins = s.pins := rfl
@[simp] theorem setCtx_cascade (s c x) : (setCtx s c x).cascade = s.cascade := rfl
@[simp] theorem setCtx_regs (s c x) : (setCtx s c x).regs = s.regs := rfl
@[simp] theorem setCtx_blobs (s c x) : (setCtx s c x).blobs = s.blobs := rfl
@[simp] theorem setCtx_tables (s c x) : (setCtx s c x).tables = s.tables := rfl
@[simp] theorem setCtx_genBase (s c x) : (setCtx s c x).genBase = s.genBase := rfl
@[simp] theorem setCtx_held (s c x) : (setCtx s c x).held = s.held := rfl
@[simp] theorem setCtx_turns (s c x) : (setCtx s c x).turns = s.turns := rfl
@[simp] theorem setCtx_tracks (s c x) : (setCtx s c x).tracks = s.tracks := rfl
@[simp] theorem setCtx_blocks (s c x) : (setCtx s c x).blocks = s.blocks := rfl
@[simp] theorem setCtx_streams (s c x) : (setCtx s c x).streams = s.streams := rfl
@[simp] theorem setCtx_msgOut (s c x) : (setCtx s c x).msgOut = s.msgOut := rfl
@[simp] theorem setCtx_msgIn (s c x) : (setCtx s c x).msgIn = s.msgIn := rfl
@[simp] theorem setCtx_accums (s c x) : (setCtx s c x).accums = s.accums := rfl
@[simp] theorem setCtx_senders (s c x) : (setCtx s c x).senders = s.senders := rfl
@[simp] theorem setCtx_grants (s c x) : (setCtx s c x).grants = s.grants := rfl
@[simp] theorem setCtx_accesses (s c x) : (setCtx s c x).accesses = s.accesses := rfl
@[simp] theorem setCtx_pkts (s c x) : (setCtx s c x).pkts = s.pkts := rfl
@[simp] theorem setCtx_writers (s c x) : (setCtx s c x).writers = s.writers := rfl
@[simp] theorem setCtx_ports (s c x) : (setCtx s c x).ports = s.ports := rfl
@[simp] theorem setCtx_lanes (s c x) : (setCtx s c x).lanes = s.lanes := rfl
@[simp] theorem setCtx_octets (s c x) : (setCtx s c x).octets = s.octets := rfl
@[simp] theorem setCtx_cards (s c x) : (setCtx s c x).cards = s.cards := rfl
@[simp] theorem setCtx_colls (s c x) : (setCtx s c x).colls = s.colls := rfl
@[simp] theorem setCtx_pends (s c x) : (setCtx s c x).pends = s.pends := rfl
@[simp] theorem setCtx_units (s c x) : (setCtx s c x).units = s.units := rfl
@[simp] theorem setCtx_banks (s c x) : (setCtx s c x).banks = s.banks := rfl
@[simp] theorem setCtx_charts (s c x) : (setCtx s c x).charts = s.charts := rfl
@[simp] theorem setCtx_mer (s c x) : (setCtx s c x).mer = s.mer := rfl
@[simp] theorem setCtx_faults (s c x) : (setCtx s c x).faults = s.faults := rfl
@[simp] theorem setCtx_power (s c x) : (setCtx s c x).power = s.power := rfl
@[simp] theorem setCtx_test (s c x) : (setCtx s c x).test = s.test := rfl
@[simp] theorem setCtx_mgmt (s c x) : (setCtx s c x).mgmt = s.mgmt := rfl
@[simp] theorem setCtx_flash (s c x) : (setCtx s c x).flash = s.flash := rfl
@[simp] theorem setCtx_mem (s c x) : (setCtx s c x).mem = s.mem := rfl
@[simp] theorem setCtx_out (s c x) : (setCtx s c x).out = s.out := rfl
@[simp] theorem setCtx_nextId (s c x) : (setCtx s c x).nextId = s.nextId := rfl
@[simp] theorem setCtx_free (s c x) : (setCtx s c x).free = s.free := rfl
@[simp] theorem port_setCtx (s c x p1) : port (setCtx s c x) p1 = port s p1 := rfl
@[simp] theorem lane_setCtx (s c x l1) : lane (setCtx s c x) l1 = lane s l1 := rfl
@[simp] theorem octet_setCtx (s c x o1) : octet (setCtx s c x) o1 = octet s o1 := rfl
@[simp] theorem sext_setCtx (s c x u1) : sext (setCtx s c x) u1 = sext s u1 := rfl
@[simp] theorem block_setCtx (s c x b1) : block (setCtx s c x) b1 = block s b1 := rfl
@[simp] theorem regAt_setCtx (s c x i1 j1 k1) : regAt (setCtx s c x) i1 j1 k1 = regAt s i1 j1 k1 := rfl

/-! ## After `setLane` -/

@[simp] theorem setLane_pending (s l x) : (setLane s l x).pending = s.pending := rfl
@[simp] theorem setLane_clock (s l x) : (setLane s l x).clock = s.clock := rfl
@[simp] theorem setLane_phase (s l x) : (setLane s l x).phase = s.phase := rfl
@[simp] theorem setLane_pins (s l x) : (setLane s l x).pins = s.pins := rfl
@[simp] theorem setLane_cascade (s l x) : (setLane s l x).cascade = s.cascade := rfl
@[simp] theorem setLane_regs (s l x) : (setLane s l x).regs = s.regs := rfl
@[simp] theorem setLane_blobs (s l x) : (setLane s l x).blobs = s.blobs := rfl
@[simp] theorem setLane_tables (s l x) : (setLane s l x).tables = s.tables := rfl
@[simp] theorem setLane_ctxs (s l x) : (setLane s l x).ctxs = s.ctxs := rfl
@[simp] theorem setLane_genBase (s l x) : (setLane s l x).genBase = s.genBase := rfl
@[simp] theorem setLane_held (s l x) : (setLane s l x).held = s.held := rfl
@[simp] theorem setLane_turns (s l x) : (setLane s l x).turns = s.turns := rfl
@[simp] theorem setLane_tracks (s l x) : (setLane s l x).tracks = s.tracks := rfl
@[simp] theorem setLane_blocks (s l x) : (setLane s l x).blocks = s.blocks := rfl
@[simp] theorem setLane_streams (s l x) : (setLane s l x).streams = s.streams := rfl
@[simp] theorem setLane_msgOut (s l x) : (setLane s l x).msgOut = s.msgOut := rfl
@[simp] theorem setLane_msgIn (s l x) : (setLane s l x).msgIn = s.msgIn := rfl
@[simp] theorem setLane_accums (s l x) : (setLane s l x).accums = s.accums := rfl
@[simp] theorem setLane_senders (s l x) : (setLane s l x).senders = s.senders := rfl
@[simp] theorem setLane_grants (s l x) : (setLane s l x).grants = s.grants := rfl
@[simp] theorem setLane_accesses (s l x) : (setLane s l x).accesses = s.accesses := rfl
@[simp] theorem setLane_pkts (s l x) : (setLane s l x).pkts = s.pkts := rfl
@[simp] theorem setLane_writers (s l x) : (setLane s l x).writers = s.writers := rfl
@[simp] theorem setLane_ports (s l x) : (setLane s l x).ports = s.ports := rfl
@[simp] theorem setLane_octets (s l x) : (setLane s l x).octets = s.octets := rfl
@[simp] theorem setLane_cards (s l x) : (setLane s l x).cards = s.cards := rfl
@[simp] theorem setLane_colls (s l x) : (setLane s l x).colls = s.colls := rfl
@[simp] theorem setLane_pends (s l x) : (setLane s l x).pends = s.pends := rfl
@[simp] theorem setLane_units (s l x) : (setLane s l x).units = s.units := rfl
@[simp] theorem setLane_banks (s l x) : (setLane s l x).banks = s.banks := rfl
@[simp] theorem setLane_charts (s l x) : (setLane s l x).charts = s.charts := rfl
@[simp] theorem setLane_mer (s l x) : (setLane s l x).mer = s.mer := rfl
@[simp] theorem setLane_faults (s l x) : (setLane s l x).faults = s.faults := rfl
@[simp] theorem setLane_power (s l x) : (setLane s l x).power = s.power := rfl
@[simp] theorem setLane_test (s l x) : (setLane s l x).test = s.test := rfl
@[simp] theorem setLane_mgmt (s l x) : (setLane s l x).mgmt = s.mgmt := rfl
@[simp] theorem setLane_flash (s l x) : (setLane s l x).flash = s.flash := rfl
@[simp] theorem setLane_mem (s l x) : (setLane s l x).mem = s.mem := rfl
@[simp] theorem setLane_out (s l x) : (setLane s l x).out = s.out := rfl
@[simp] theorem setLane_nextId (s l x) : (setLane s l x).nextId = s.nextId := rfl
@[simp] theorem setLane_free (s l x) : (setLane s l x).free = s.free := rfl
@[simp] theorem port_setLane (s l x p1) : port (setLane s l x) p1 = port s p1 := rfl
@[simp] theorem ctx_setLane (s l x c1) : ctx (setLane s l x) c1 = ctx s c1 := rfl
@[simp] theorem octet_setLane (s l x o1) : octet (setLane s l x) o1 = octet s o1 := rfl
@[simp] theorem sext_setLane (s l x u1) : sext (setLane s l x) u1 = sext s u1 := rfl
@[simp] theorem block_setLane (s l x b1) : block (setLane s l x) b1 = block s b1 := rfl
@[simp] theorem regAt_setLane (s l x i1 j1 k1) : regAt (setLane s l x) i1 j1 k1 = regAt s i1 j1 k1 := rfl

/-! ## After `setOctet` -/

@[simp] theorem setOctet_pending (s o x) : (setOctet s o x).pending = s.pending := rfl
@[simp] theorem setOctet_clock (s o x) : (setOctet s o x).clock = s.clock := rfl
@[simp] theorem setOctet_phase (s o x) : (setOctet s o x).phase = s.phase := rfl
@[simp] theorem setOctet_pins (s o x) : (setOctet s o x).pins = s.pins := rfl
@[simp] theorem setOctet_cascade (s o x) : (setOctet s o x).cascade = s.cascade := rfl
@[simp] theorem setOctet_regs (s o x) : (setOctet s o x).regs = s.regs := rfl
@[simp] theorem setOctet_blobs (s o x) : (setOctet s o x).blobs = s.blobs := rfl
@[simp] theorem setOctet_tables (s o x) : (setOctet s o x).tables = s.tables := rfl
@[simp] theorem setOctet_ctxs (s o x) : (setOctet s o x).ctxs = s.ctxs := rfl
@[simp] theorem setOctet_genBase (s o x) : (setOctet s o x).genBase = s.genBase := rfl
@[simp] theorem setOctet_held (s o x) : (setOctet s o x).held = s.held := rfl
@[simp] theorem setOctet_turns (s o x) : (setOctet s o x).turns = s.turns := rfl
@[simp] theorem setOctet_tracks (s o x) : (setOctet s o x).tracks = s.tracks := rfl
@[simp] theorem setOctet_blocks (s o x) : (setOctet s o x).blocks = s.blocks := rfl
@[simp] theorem setOctet_streams (s o x) : (setOctet s o x).streams = s.streams := rfl
@[simp] theorem setOctet_msgOut (s o x) : (setOctet s o x).msgOut = s.msgOut := rfl
@[simp] theorem setOctet_msgIn (s o x) : (setOctet s o x).msgIn = s.msgIn := rfl
@[simp] theorem setOctet_accums (s o x) : (setOctet s o x).accums = s.accums := rfl
@[simp] theorem setOctet_senders (s o x) : (setOctet s o x).senders = s.senders := rfl
@[simp] theorem setOctet_grants (s o x) : (setOctet s o x).grants = s.grants := rfl
@[simp] theorem setOctet_accesses (s o x) : (setOctet s o x).accesses = s.accesses := rfl
@[simp] theorem setOctet_pkts (s o x) : (setOctet s o x).pkts = s.pkts := rfl
@[simp] theorem setOctet_writers (s o x) : (setOctet s o x).writers = s.writers := rfl
@[simp] theorem setOctet_ports (s o x) : (setOctet s o x).ports = s.ports := rfl
@[simp] theorem setOctet_lanes (s o x) : (setOctet s o x).lanes = s.lanes := rfl
@[simp] theorem setOctet_cards (s o x) : (setOctet s o x).cards = s.cards := rfl
@[simp] theorem setOctet_colls (s o x) : (setOctet s o x).colls = s.colls := rfl
@[simp] theorem setOctet_pends (s o x) : (setOctet s o x).pends = s.pends := rfl
@[simp] theorem setOctet_units (s o x) : (setOctet s o x).units = s.units := rfl
@[simp] theorem setOctet_banks (s o x) : (setOctet s o x).banks = s.banks := rfl
@[simp] theorem setOctet_charts (s o x) : (setOctet s o x).charts = s.charts := rfl
@[simp] theorem setOctet_mer (s o x) : (setOctet s o x).mer = s.mer := rfl
@[simp] theorem setOctet_faults (s o x) : (setOctet s o x).faults = s.faults := rfl
@[simp] theorem setOctet_power (s o x) : (setOctet s o x).power = s.power := rfl
@[simp] theorem setOctet_test (s o x) : (setOctet s o x).test = s.test := rfl
@[simp] theorem setOctet_mgmt (s o x) : (setOctet s o x).mgmt = s.mgmt := rfl
@[simp] theorem setOctet_flash (s o x) : (setOctet s o x).flash = s.flash := rfl
@[simp] theorem setOctet_mem (s o x) : (setOctet s o x).mem = s.mem := rfl
@[simp] theorem setOctet_out (s o x) : (setOctet s o x).out = s.out := rfl
@[simp] theorem setOctet_nextId (s o x) : (setOctet s o x).nextId = s.nextId := rfl
@[simp] theorem setOctet_free (s o x) : (setOctet s o x).free = s.free := rfl
@[simp] theorem port_setOctet (s o x p1) : port (setOctet s o x) p1 = port s p1 := rfl
@[simp] theorem ctx_setOctet (s o x c1) : ctx (setOctet s o x) c1 = ctx s c1 := rfl
@[simp] theorem lane_setOctet (s o x l1) : lane (setOctet s o x) l1 = lane s l1 := rfl
@[simp] theorem sext_setOctet (s o x u1) : sext (setOctet s o x) u1 = sext s u1 := rfl
@[simp] theorem block_setOctet (s o x b1) : block (setOctet s o x) b1 = block s b1 := rfl
@[simp] theorem regAt_setOctet (s o x i1 j1 k1) : regAt (setOctet s o x) i1 j1 k1 = regAt s i1 j1 k1 := rfl

/-! ## After `setSext` -/

@[simp] theorem setSext_pending (s u x) : (setSext s u x).pending = s.pending := rfl
@[simp] theorem setSext_clock (s u x) : (setSext s u x).clock = s.clock := rfl
@[simp] theorem setSext_phase (s u x) : (setSext s u x).phase = s.phase := rfl
@[simp] theorem setSext_pins (s u x) : (setSext s u x).pins = s.pins := rfl
@[simp] theorem setSext_cascade (s u x) : (setSext s u x).cascade = s.cascade := rfl
@[simp] theorem setSext_regs (s u x) : (setSext s u x).regs = s.regs := rfl
@[simp] theorem setSext_blobs (s u x) : (setSext s u x).blobs = s.blobs := rfl
@[simp] theorem setSext_tables (s u x) : (setSext s u x).tables = s.tables := rfl
@[simp] theorem setSext_ctxs (s u x) : (setSext s u x).ctxs = s.ctxs := rfl
@[simp] theorem setSext_genBase (s u x) : (setSext s u x).genBase = s.genBase := rfl
@[simp] theorem setSext_held (s u x) : (setSext s u x).held = s.held := rfl
@[simp] theorem setSext_turns (s u x) : (setSext s u x).turns = s.turns := rfl
@[simp] theorem setSext_tracks (s u x) : (setSext s u x).tracks = s.tracks := rfl
@[simp] theorem setSext_blocks (s u x) : (setSext s u x).blocks = s.blocks := rfl
@[simp] theorem setSext_streams (s u x) : (setSext s u x).streams = s.streams := rfl
@[simp] theorem setSext_msgOut (s u x) : (setSext s u x).msgOut = s.msgOut := rfl
@[simp] theorem setSext_msgIn (s u x) : (setSext s u x).msgIn = s.msgIn := rfl
@[simp] theorem setSext_accums (s u x) : (setSext s u x).accums = s.accums := rfl
@[simp] theorem setSext_senders (s u x) : (setSext s u x).senders = s.senders := rfl
@[simp] theorem setSext_grants (s u x) : (setSext s u x).grants = s.grants := rfl
@[simp] theorem setSext_accesses (s u x) : (setSext s u x).accesses = s.accesses := rfl
@[simp] theorem setSext_pkts (s u x) : (setSext s u x).pkts = s.pkts := rfl
@[simp] theorem setSext_writers (s u x) : (setSext s u x).writers = s.writers := rfl
@[simp] theorem setSext_ports (s u x) : (setSext s u x).ports = s.ports := rfl
@[simp] theorem setSext_lanes (s u x) : (setSext s u x).lanes = s.lanes := rfl
@[simp] theorem setSext_octets (s u x) : (setSext s u x).octets = s.octets := rfl
@[simp] theorem setSext_cards (s u x) : (setSext s u x).cards = s.cards := rfl
@[simp] theorem setSext_colls (s u x) : (setSext s u x).colls = s.colls := rfl
@[simp] theorem setSext_pends (s u x) : (setSext s u x).pends = s.pends := rfl
@[simp] theorem setSext_banks (s u x) : (setSext s u x).banks = s.banks := rfl
@[simp] theorem setSext_charts (s u x) : (setSext s u x).charts = s.charts := rfl
@[simp] theorem setSext_mer (s u x) : (setSext s u x).mer = s.mer := rfl
@[simp] theorem setSext_faults (s u x) : (setSext s u x).faults = s.faults := rfl
@[simp] theorem setSext_power (s u x) : (setSext s u x).power = s.power := rfl
@[simp] theorem setSext_test (s u x) : (setSext s u x).test = s.test := rfl
@[simp] theorem setSext_mgmt (s u x) : (setSext s u x).mgmt = s.mgmt := rfl
@[simp] theorem setSext_flash (s u x) : (setSext s u x).flash = s.flash := rfl
@[simp] theorem setSext_mem (s u x) : (setSext s u x).mem = s.mem := rfl
@[simp] theorem setSext_out (s u x) : (setSext s u x).out = s.out := rfl
@[simp] theorem setSext_nextId (s u x) : (setSext s u x).nextId = s.nextId := rfl
@[simp] theorem setSext_free (s u x) : (setSext s u x).free = s.free := rfl
@[simp] theorem port_setSext (s u x p1) : port (setSext s u x) p1 = port s p1 := rfl
@[simp] theorem ctx_setSext (s u x c1) : ctx (setSext s u x) c1 = ctx s c1 := rfl
@[simp] theorem lane_setSext (s u x l1) : lane (setSext s u x) l1 = lane s l1 := rfl
@[simp] theorem octet_setSext (s u x o1) : octet (setSext s u x) o1 = octet s o1 := rfl
@[simp] theorem block_setSext (s u x b1) : block (setSext s u x) b1 = block s b1 := rfl
@[simp] theorem regAt_setSext (s u x i1 j1 k1) : regAt (setSext s u x) i1 j1 k1 = regAt s i1 j1 k1 := rfl

/-! ## After `setBlock` -/

@[simp] theorem setBlock_pending (s b x) : (setBlock s b x).pending = s.pending := rfl
@[simp] theorem setBlock_clock (s b x) : (setBlock s b x).clock = s.clock := rfl
@[simp] theorem setBlock_phase (s b x) : (setBlock s b x).phase = s.phase := rfl
@[simp] theorem setBlock_pins (s b x) : (setBlock s b x).pins = s.pins := rfl
@[simp] theorem setBlock_cascade (s b x) : (setBlock s b x).cascade = s.cascade := rfl
@[simp] theorem setBlock_regs (s b x) : (setBlock s b x).regs = s.regs := rfl
@[simp] theorem setBlock_blobs (s b x) : (setBlock s b x).blobs = s.blobs := rfl
@[simp] theorem setBlock_tables (s b x) : (setBlock s b x).tables = s.tables := rfl
@[simp] theorem setBlock_ctxs (s b x) : (setBlock s b x).ctxs = s.ctxs := rfl
@[simp] theorem setBlock_genBase (s b x) : (setBlock s b x).genBase = s.genBase := rfl
@[simp] theorem setBlock_held (s b x) : (setBlock s b x).held = s.held := rfl
@[simp] theorem setBlock_turns (s b x) : (setBlock s b x).turns = s.turns := rfl
@[simp] theorem setBlock_tracks (s b x) : (setBlock s b x).tracks = s.tracks := rfl
@[simp] theorem setBlock_streams (s b x) : (setBlock s b x).streams = s.streams := rfl
@[simp] theorem setBlock_msgOut (s b x) : (setBlock s b x).msgOut = s.msgOut := rfl
@[simp] theorem setBlock_msgIn (s b x) : (setBlock s b x).msgIn = s.msgIn := rfl
@[simp] theorem setBlock_accums (s b x) : (setBlock s b x).accums = s.accums := rfl
@[simp] theorem setBlock_senders (s b x) : (setBlock s b x).senders = s.senders := rfl
@[simp] theorem setBlock_grants (s b x) : (setBlock s b x).grants = s.grants := rfl
@[simp] theorem setBlock_accesses (s b x) : (setBlock s b x).accesses = s.accesses := rfl
@[simp] theorem setBlock_pkts (s b x) : (setBlock s b x).pkts = s.pkts := rfl
@[simp] theorem setBlock_writers (s b x) : (setBlock s b x).writers = s.writers := rfl
@[simp] theorem setBlock_ports (s b x) : (setBlock s b x).ports = s.ports := rfl
@[simp] theorem setBlock_lanes (s b x) : (setBlock s b x).lanes = s.lanes := rfl
@[simp] theorem setBlock_octets (s b x) : (setBlock s b x).octets = s.octets := rfl
@[simp] theorem setBlock_cards (s b x) : (setBlock s b x).cards = s.cards := rfl
@[simp] theorem setBlock_colls (s b x) : (setBlock s b x).colls = s.colls := rfl
@[simp] theorem setBlock_pends (s b x) : (setBlock s b x).pends = s.pends := rfl
@[simp] theorem setBlock_units (s b x) : (setBlock s b x).units = s.units := rfl
@[simp] theorem setBlock_banks (s b x) : (setBlock s b x).banks = s.banks := rfl
@[simp] theorem setBlock_charts (s b x) : (setBlock s b x).charts = s.charts := rfl
@[simp] theorem setBlock_mer (s b x) : (setBlock s b x).mer = s.mer := rfl
@[simp] theorem setBlock_faults (s b x) : (setBlock s b x).faults = s.faults := rfl
@[simp] theorem setBlock_power (s b x) : (setBlock s b x).power = s.power := rfl
@[simp] theorem setBlock_test (s b x) : (setBlock s b x).test = s.test := rfl
@[simp] theorem setBlock_mgmt (s b x) : (setBlock s b x).mgmt = s.mgmt := rfl
@[simp] theorem setBlock_flash (s b x) : (setBlock s b x).flash = s.flash := rfl
@[simp] theorem setBlock_mem (s b x) : (setBlock s b x).mem = s.mem := rfl
@[simp] theorem setBlock_out (s b x) : (setBlock s b x).out = s.out := rfl
@[simp] theorem setBlock_nextId (s b x) : (setBlock s b x).nextId = s.nextId := rfl
@[simp] theorem setBlock_free (s b x) : (setBlock s b x).free = s.free := rfl
@[simp] theorem port_setBlock (s b x p1) : port (setBlock s b x) p1 = port s p1 := rfl
@[simp] theorem ctx_setBlock (s b x c1) : ctx (setBlock s b x) c1 = ctx s c1 := rfl
@[simp] theorem lane_setBlock (s b x l1) : lane (setBlock s b x) l1 = lane s l1 := rfl
@[simp] theorem octet_setBlock (s b x o1) : octet (setBlock s b x) o1 = octet s o1 := rfl
@[simp] theorem sext_setBlock (s b x u1) : sext (setBlock s b x) u1 = sext s u1 := rfl
@[simp] theorem regAt_setBlock (s b x i1 j1 k1) : regAt (setBlock s b x) i1 j1 k1 = regAt s i1 j1 k1 := rfl

/-! ## After `setRegAt` -/

@[simp] theorem setRegAt_pending (s i j k v) : (setRegAt s i j k v).pending = s.pending := rfl
@[simp] theorem setRegAt_clock (s i j k v) : (setRegAt s i j k v).clock = s.clock := rfl
@[simp] theorem setRegAt_phase (s i j k v) : (setRegAt s i j k v).phase = s.phase := rfl
@[simp] theorem setRegAt_pins (s i j k v) : (setRegAt s i j k v).pins = s.pins := rfl
@[simp] theorem setRegAt_cascade (s i j k v) : (setRegAt s i j k v).cascade = s.cascade := rfl
@[simp] theorem setRegAt_blobs (s i j k v) : (setRegAt s i j k v).blobs = s.blobs := rfl
@[simp] theorem setRegAt_tables (s i j k v) : (setRegAt s i j k v).tables = s.tables := rfl
@[simp] theorem setRegAt_ctxs (s i j k v) : (setRegAt s i j k v).ctxs = s.ctxs := rfl
@[simp] theorem setRegAt_genBase (s i j k v) : (setRegAt s i j k v).genBase = s.genBase := rfl
@[simp] theorem setRegAt_held (s i j k v) : (setRegAt s i j k v).held = s.held := rfl
@[simp] theorem setRegAt_turns (s i j k v) : (setRegAt s i j k v).turns = s.turns := rfl
@[simp] theorem setRegAt_tracks (s i j k v) : (setRegAt s i j k v).tracks = s.tracks := rfl
@[simp] theorem setRegAt_blocks (s i j k v) : (setRegAt s i j k v).blocks = s.blocks := rfl
@[simp] theorem setRegAt_streams (s i j k v) : (setRegAt s i j k v).streams = s.streams := rfl
@[simp] theorem setRegAt_msgOut (s i j k v) : (setRegAt s i j k v).msgOut = s.msgOut := rfl
@[simp] theorem setRegAt_msgIn (s i j k v) : (setRegAt s i j k v).msgIn = s.msgIn := rfl
@[simp] theorem setRegAt_accums (s i j k v) : (setRegAt s i j k v).accums = s.accums := rfl
@[simp] theorem setRegAt_senders (s i j k v) : (setRegAt s i j k v).senders = s.senders := rfl
@[simp] theorem setRegAt_grants (s i j k v) : (setRegAt s i j k v).grants = s.grants := rfl
@[simp] theorem setRegAt_accesses (s i j k v) : (setRegAt s i j k v).accesses = s.accesses := rfl
@[simp] theorem setRegAt_pkts (s i j k v) : (setRegAt s i j k v).pkts = s.pkts := rfl
@[simp] theorem setRegAt_writers (s i j k v) : (setRegAt s i j k v).writers = s.writers := rfl
@[simp] theorem setRegAt_ports (s i j k v) : (setRegAt s i j k v).ports = s.ports := rfl
@[simp] theorem setRegAt_lanes (s i j k v) : (setRegAt s i j k v).lanes = s.lanes := rfl
@[simp] theorem setRegAt_octets (s i j k v) : (setRegAt s i j k v).octets = s.octets := rfl
@[simp] theorem setRegAt_cards (s i j k v) : (setRegAt s i j k v).cards = s.cards := rfl
@[simp] theorem setRegAt_colls (s i j k v) : (setRegAt s i j k v).colls = s.colls := rfl
@[simp] theorem setRegAt_pends (s i j k v) : (setRegAt s i j k v).pends = s.pends := rfl
@[simp] theorem setRegAt_units (s i j k v) : (setRegAt s i j k v).units = s.units := rfl
@[simp] theorem setRegAt_banks (s i j k v) : (setRegAt s i j k v).banks = s.banks := rfl
@[simp] theorem setRegAt_charts (s i j k v) : (setRegAt s i j k v).charts = s.charts := rfl
@[simp] theorem setRegAt_mer (s i j k v) : (setRegAt s i j k v).mer = s.mer := rfl
@[simp] theorem setRegAt_faults (s i j k v) : (setRegAt s i j k v).faults = s.faults := rfl
@[simp] theorem setRegAt_power (s i j k v) : (setRegAt s i j k v).power = s.power := rfl
@[simp] theorem setRegAt_test (s i j k v) : (setRegAt s i j k v).test = s.test := rfl
@[simp] theorem setRegAt_mgmt (s i j k v) : (setRegAt s i j k v).mgmt = s.mgmt := rfl
@[simp] theorem setRegAt_flash (s i j k v) : (setRegAt s i j k v).flash = s.flash := rfl
@[simp] theorem setRegAt_mem (s i j k v) : (setRegAt s i j k v).mem = s.mem := rfl
@[simp] theorem setRegAt_out (s i j k v) : (setRegAt s i j k v).out = s.out := rfl
@[simp] theorem setRegAt_nextId (s i j k v) : (setRegAt s i j k v).nextId = s.nextId := rfl
@[simp] theorem setRegAt_free (s i j k v) : (setRegAt s i j k v).free = s.free := rfl
@[simp] theorem port_setRegAt (s i j k v p1) : port (setRegAt s i j k v) p1 = port s p1 := rfl
@[simp] theorem ctx_setRegAt (s i j k v c1) : ctx (setRegAt s i j k v) c1 = ctx s c1 := rfl
@[simp] theorem lane_setRegAt (s i j k v l1) : lane (setRegAt s i j k v) l1 = lane s l1 := rfl
@[simp] theorem octet_setRegAt (s i j k v o1) : octet (setRegAt s i j k v) o1 = octet s o1 := rfl
@[simp] theorem sext_setRegAt (s i j k v u1) : sext (setRegAt s i j k v) u1 = sext s u1 := rfl
@[simp] theorem block_setRegAt (s i j k v b1) : block (setRegAt s i j k v) b1 = block s b1 := rfl

/-! ## After `bumpBy` -/

@[simp] theorem bumpBy_pending (s i j k n) : (bumpBy s i j k n).pending = s.pending := rfl
@[simp] theorem bumpBy_clock (s i j k n) : (bumpBy s i j k n).clock = s.clock := rfl
@[simp] theorem bumpBy_phase (s i j k n) : (bumpBy s i j k n).phase = s.phase := rfl
@[simp] theorem bumpBy_pins (s i j k n) : (bumpBy s i j k n).pins = s.pins := rfl
@[simp] theorem bumpBy_cascade (s i j k n) : (bumpBy s i j k n).cascade = s.cascade := rfl
@[simp] theorem bumpBy_blobs (s i j k n) : (bumpBy s i j k n).blobs = s.blobs := rfl
@[simp] theorem bumpBy_tables (s i j k n) : (bumpBy s i j k n).tables = s.tables := rfl
@[simp] theorem bumpBy_ctxs (s i j k n) : (bumpBy s i j k n).ctxs = s.ctxs := rfl
@[simp] theorem bumpBy_genBase (s i j k n) : (bumpBy s i j k n).genBase = s.genBase := rfl
@[simp] theorem bumpBy_held (s i j k n) : (bumpBy s i j k n).held = s.held := rfl
@[simp] theorem bumpBy_turns (s i j k n) : (bumpBy s i j k n).turns = s.turns := rfl
@[simp] theorem bumpBy_tracks (s i j k n) : (bumpBy s i j k n).tracks = s.tracks := rfl
@[simp] theorem bumpBy_blocks (s i j k n) : (bumpBy s i j k n).blocks = s.blocks := rfl
@[simp] theorem bumpBy_streams (s i j k n) : (bumpBy s i j k n).streams = s.streams := rfl
@[simp] theorem bumpBy_msgOut (s i j k n) : (bumpBy s i j k n).msgOut = s.msgOut := rfl
@[simp] theorem bumpBy_msgIn (s i j k n) : (bumpBy s i j k n).msgIn = s.msgIn := rfl
@[simp] theorem bumpBy_accums (s i j k n) : (bumpBy s i j k n).accums = s.accums := rfl
@[simp] theorem bumpBy_senders (s i j k n) : (bumpBy s i j k n).senders = s.senders := rfl
@[simp] theorem bumpBy_grants (s i j k n) : (bumpBy s i j k n).grants = s.grants := rfl
@[simp] theorem bumpBy_accesses (s i j k n) : (bumpBy s i j k n).accesses = s.accesses := rfl
@[simp] theorem bumpBy_pkts (s i j k n) : (bumpBy s i j k n).pkts = s.pkts := rfl
@[simp] theorem bumpBy_writers (s i j k n) : (bumpBy s i j k n).writers = s.writers := rfl
@[simp] theorem bumpBy_ports (s i j k n) : (bumpBy s i j k n).ports = s.ports := rfl
@[simp] theorem bumpBy_lanes (s i j k n) : (bumpBy s i j k n).lanes = s.lanes := rfl
@[simp] theorem bumpBy_octets (s i j k n) : (bumpBy s i j k n).octets = s.octets := rfl
@[simp] theorem bumpBy_cards (s i j k n) : (bumpBy s i j k n).cards = s.cards := rfl
@[simp] theorem bumpBy_colls (s i j k n) : (bumpBy s i j k n).colls = s.colls := rfl
@[simp] theorem bumpBy_pends (s i j k n) : (bumpBy s i j k n).pends = s.pends := rfl
@[simp] theorem bumpBy_units (s i j k n) : (bumpBy s i j k n).units = s.units := rfl
@[simp] theorem bumpBy_banks (s i j k n) : (bumpBy s i j k n).banks = s.banks := rfl
@[simp] theorem bumpBy_charts (s i j k n) : (bumpBy s i j k n).charts = s.charts := rfl
@[simp] theorem bumpBy_mer (s i j k n) : (bumpBy s i j k n).mer = s.mer := rfl
@[simp] theorem bumpBy_faults (s i j k n) : (bumpBy s i j k n).faults = s.faults := rfl
@[simp] theorem bumpBy_power (s i j k n) : (bumpBy s i j k n).power = s.power := rfl
@[simp] theorem bumpBy_test (s i j k n) : (bumpBy s i j k n).test = s.test := rfl
@[simp] theorem bumpBy_mgmt (s i j k n) : (bumpBy s i j k n).mgmt = s.mgmt := rfl
@[simp] theorem bumpBy_flash (s i j k n) : (bumpBy s i j k n).flash = s.flash := rfl
@[simp] theorem bumpBy_mem (s i j k n) : (bumpBy s i j k n).mem = s.mem := rfl
@[simp] theorem bumpBy_out (s i j k n) : (bumpBy s i j k n).out = s.out := rfl
@[simp] theorem bumpBy_nextId (s i j k n) : (bumpBy s i j k n).nextId = s.nextId := rfl
@[simp] theorem bumpBy_free (s i j k n) : (bumpBy s i j k n).free = s.free := rfl
@[simp] theorem port_bumpBy (s i j k n p1) : port (bumpBy s i j k n) p1 = port s p1 := rfl
@[simp] theorem ctx_bumpBy (s i j k n c1) : ctx (bumpBy s i j k n) c1 = ctx s c1 := rfl
@[simp] theorem lane_bumpBy (s i j k n l1) : lane (bumpBy s i j k n) l1 = lane s l1 := rfl
@[simp] theorem octet_bumpBy (s i j k n o1) : octet (bumpBy s i j k n) o1 = octet s o1 := rfl
@[simp] theorem sext_bumpBy (s i j k n u1) : sext (bumpBy s i j k n) u1 = sext s u1 := rfl
@[simp] theorem block_bumpBy (s i j k n b1) : block (bumpBy s i j k n) b1 = block s b1 := rfl

/-! ## After `setBlobAt` -/

@[simp] theorem setBlobAt_pending (s i j k v) : (setBlobAt s i j k v).pending = s.pending := rfl
@[simp] theorem setBlobAt_clock (s i j k v) : (setBlobAt s i j k v).clock = s.clock := rfl
@[simp] theorem setBlobAt_phase (s i j k v) : (setBlobAt s i j k v).phase = s.phase := rfl
@[simp] theorem setBlobAt_pins (s i j k v) : (setBlobAt s i j k v).pins = s.pins := rfl
@[simp] theorem setBlobAt_cascade (s i j k v) : (setBlobAt s i j k v).cascade = s.cascade := rfl
@[simp] theorem setBlobAt_regs (s i j k v) : (setBlobAt s i j k v).regs = s.regs := rfl
@[simp] theorem setBlobAt_tables (s i j k v) : (setBlobAt s i j k v).tables = s.tables := rfl
@[simp] theorem setBlobAt_ctxs (s i j k v) : (setBlobAt s i j k v).ctxs = s.ctxs := rfl
@[simp] theorem setBlobAt_genBase (s i j k v) : (setBlobAt s i j k v).genBase = s.genBase := rfl
@[simp] theorem setBlobAt_held (s i j k v) : (setBlobAt s i j k v).held = s.held := rfl
@[simp] theorem setBlobAt_turns (s i j k v) : (setBlobAt s i j k v).turns = s.turns := rfl
@[simp] theorem setBlobAt_tracks (s i j k v) : (setBlobAt s i j k v).tracks = s.tracks := rfl
@[simp] theorem setBlobAt_blocks (s i j k v) : (setBlobAt s i j k v).blocks = s.blocks := rfl
@[simp] theorem setBlobAt_streams (s i j k v) : (setBlobAt s i j k v).streams = s.streams := rfl
@[simp] theorem setBlobAt_msgOut (s i j k v) : (setBlobAt s i j k v).msgOut = s.msgOut := rfl
@[simp] theorem setBlobAt_msgIn (s i j k v) : (setBlobAt s i j k v).msgIn = s.msgIn := rfl
@[simp] theorem setBlobAt_accums (s i j k v) : (setBlobAt s i j k v).accums = s.accums := rfl
@[simp] theorem setBlobAt_senders (s i j k v) : (setBlobAt s i j k v).senders = s.senders := rfl
@[simp] theorem setBlobAt_grants (s i j k v) : (setBlobAt s i j k v).grants = s.grants := rfl
@[simp] theorem setBlobAt_accesses (s i j k v) : (setBlobAt s i j k v).accesses = s.accesses := rfl
@[simp] theorem setBlobAt_pkts (s i j k v) : (setBlobAt s i j k v).pkts = s.pkts := rfl
@[simp] theorem setBlobAt_writers (s i j k v) : (setBlobAt s i j k v).writers = s.writers := rfl
@[simp] theorem setBlobAt_ports (s i j k v) : (setBlobAt s i j k v).ports = s.ports := rfl
@[simp] theorem setBlobAt_lanes (s i j k v) : (setBlobAt s i j k v).lanes = s.lanes := rfl
@[simp] theorem setBlobAt_octets (s i j k v) : (setBlobAt s i j k v).octets = s.octets := rfl
@[simp] theorem setBlobAt_cards (s i j k v) : (setBlobAt s i j k v).cards = s.cards := rfl
@[simp] theorem setBlobAt_colls (s i j k v) : (setBlobAt s i j k v).colls = s.colls := rfl
@[simp] theorem setBlobAt_pends (s i j k v) : (setBlobAt s i j k v).pends = s.pends := rfl
@[simp] theorem setBlobAt_units (s i j k v) : (setBlobAt s i j k v).units = s.units := rfl
@[simp] theorem setBlobAt_banks (s i j k v) : (setBlobAt s i j k v).banks = s.banks := rfl
@[simp] theorem setBlobAt_charts (s i j k v) : (setBlobAt s i j k v).charts = s.charts := rfl
@[simp] theorem setBlobAt_mer (s i j k v) : (setBlobAt s i j k v).mer = s.mer := rfl
@[simp] theorem setBlobAt_faults (s i j k v) : (setBlobAt s i j k v).faults = s.faults := rfl
@[simp] theorem setBlobAt_power (s i j k v) : (setBlobAt s i j k v).power = s.power := rfl
@[simp] theorem setBlobAt_test (s i j k v) : (setBlobAt s i j k v).test = s.test := rfl
@[simp] theorem setBlobAt_mgmt (s i j k v) : (setBlobAt s i j k v).mgmt = s.mgmt := rfl
@[simp] theorem setBlobAt_flash (s i j k v) : (setBlobAt s i j k v).flash = s.flash := rfl
@[simp] theorem setBlobAt_mem (s i j k v) : (setBlobAt s i j k v).mem = s.mem := rfl
@[simp] theorem setBlobAt_out (s i j k v) : (setBlobAt s i j k v).out = s.out := rfl
@[simp] theorem setBlobAt_nextId (s i j k v) : (setBlobAt s i j k v).nextId = s.nextId := rfl
@[simp] theorem setBlobAt_free (s i j k v) : (setBlobAt s i j k v).free = s.free := rfl
@[simp] theorem port_setBlobAt (s i j k v p1) : port (setBlobAt s i j k v) p1 = port s p1 := rfl
@[simp] theorem ctx_setBlobAt (s i j k v c1) : ctx (setBlobAt s i j k v) c1 = ctx s c1 := rfl
@[simp] theorem lane_setBlobAt (s i j k v l1) : lane (setBlobAt s i j k v) l1 = lane s l1 := rfl
@[simp] theorem octet_setBlobAt (s i j k v o1) : octet (setBlobAt s i j k v) o1 = octet s o1 := rfl
@[simp] theorem sext_setBlobAt (s i j k v u1) : sext (setBlobAt s i j k v) u1 = sext s u1 := rfl
@[simp] theorem block_setBlobAt (s i j k v b1) : block (setBlobAt s i j k v) b1 = block s b1 := rfl
@[simp] theorem regAt_setBlobAt (s i j k v i1 j1 k1) : regAt (setBlobAt s i j k v) i1 j1 k1 = regAt s i1 j1 k1 := rfl

/-! ## After `emit` -/

@[simp] theorem emit_pending (s o) : (emit s o).pending = s.pending := rfl
@[simp] theorem emit_clock (s o) : (emit s o).clock = s.clock := rfl
@[simp] theorem emit_phase (s o) : (emit s o).phase = s.phase := rfl
@[simp] theorem emit_pins (s o) : (emit s o).pins = s.pins := rfl
@[simp] theorem emit_cascade (s o) : (emit s o).cascade = s.cascade := rfl
@[simp] theorem emit_regs (s o) : (emit s o).regs = s.regs := rfl
@[simp] theorem emit_blobs (s o) : (emit s o).blobs = s.blobs := rfl
@[simp] theorem emit_tables (s o) : (emit s o).tables = s.tables := rfl
@[simp] theorem emit_ctxs (s o) : (emit s o).ctxs = s.ctxs := rfl
@[simp] theorem emit_genBase (s o) : (emit s o).genBase = s.genBase := rfl
@[simp] theorem emit_held (s o) : (emit s o).held = s.held := rfl
@[simp] theorem emit_turns (s o) : (emit s o).turns = s.turns := rfl
@[simp] theorem emit_tracks (s o) : (emit s o).tracks = s.tracks := rfl
@[simp] theorem emit_blocks (s o) : (emit s o).blocks = s.blocks := rfl
@[simp] theorem emit_streams (s o) : (emit s o).streams = s.streams := rfl
@[simp] theorem emit_msgOut (s o) : (emit s o).msgOut = s.msgOut := rfl
@[simp] theorem emit_msgIn (s o) : (emit s o).msgIn = s.msgIn := rfl
@[simp] theorem emit_accums (s o) : (emit s o).accums = s.accums := rfl
@[simp] theorem emit_senders (s o) : (emit s o).senders = s.senders := rfl
@[simp] theorem emit_grants (s o) : (emit s o).grants = s.grants := rfl
@[simp] theorem emit_accesses (s o) : (emit s o).accesses = s.accesses := rfl
@[simp] theorem emit_pkts (s o) : (emit s o).pkts = s.pkts := rfl
@[simp] theorem emit_writers (s o) : (emit s o).writers = s.writers := rfl
@[simp] theorem emit_ports (s o) : (emit s o).ports = s.ports := rfl
@[simp] theorem emit_lanes (s o) : (emit s o).lanes = s.lanes := rfl
@[simp] theorem emit_octets (s o) : (emit s o).octets = s.octets := rfl
@[simp] theorem emit_cards (s o) : (emit s o).cards = s.cards := rfl
@[simp] theorem emit_colls (s o) : (emit s o).colls = s.colls := rfl
@[simp] theorem emit_pends (s o) : (emit s o).pends = s.pends := rfl
@[simp] theorem emit_units (s o) : (emit s o).units = s.units := rfl
@[simp] theorem emit_banks (s o) : (emit s o).banks = s.banks := rfl
@[simp] theorem emit_charts (s o) : (emit s o).charts = s.charts := rfl
@[simp] theorem emit_mer (s o) : (emit s o).mer = s.mer := rfl
@[simp] theorem emit_faults (s o) : (emit s o).faults = s.faults := rfl
@[simp] theorem emit_power (s o) : (emit s o).power = s.power := rfl
@[simp] theorem emit_test (s o) : (emit s o).test = s.test := rfl
@[simp] theorem emit_mgmt (s o) : (emit s o).mgmt = s.mgmt := rfl
@[simp] theorem emit_flash (s o) : (emit s o).flash = s.flash := rfl
@[simp] theorem emit_mem (s o) : (emit s o).mem = s.mem := rfl
@[simp] theorem emit_nextId (s o) : (emit s o).nextId = s.nextId := rfl
@[simp] theorem emit_free (s o) : (emit s o).free = s.free := rfl
@[simp] theorem port_emit (s o p1) : port (emit s o) p1 = port s p1 := rfl
@[simp] theorem ctx_emit (s o c1) : ctx (emit s o) c1 = ctx s c1 := rfl
@[simp] theorem lane_emit (s o l1) : lane (emit s o) l1 = lane s l1 := rfl
@[simp] theorem octet_emit (s o o1) : octet (emit s o) o1 = octet s o1 := rfl
@[simp] theorem sext_emit (s o u1) : sext (emit s o) u1 = sext s u1 := rfl
@[simp] theorem block_emit (s o b1) : block (emit s o) b1 = block s b1 := rfl
@[simp] theorem regAt_emit (s o i1 j1 k1) : regAt (emit s o) i1 j1 k1 = regAt s i1 j1 k1 := rfl

/-! ## After `setMgmt` -/

@[simp] theorem setMgmt_pending (s f) : (setMgmt s f).pending = s.pending := rfl
@[simp] theorem setMgmt_clock (s f) : (setMgmt s f).clock = s.clock := rfl
@[simp] theorem setMgmt_phase (s f) : (setMgmt s f).phase = s.phase := rfl
@[simp] theorem setMgmt_pins (s f) : (setMgmt s f).pins = s.pins := rfl
@[simp] theorem setMgmt_cascade (s f) : (setMgmt s f).cascade = s.cascade := rfl
@[simp] theorem setMgmt_regs (s f) : (setMgmt s f).regs = s.regs := rfl
@[simp] theorem setMgmt_blobs (s f) : (setMgmt s f).blobs = s.blobs := rfl
@[simp] theorem setMgmt_tables (s f) : (setMgmt s f).tables = s.tables := rfl
@[simp] theorem setMgmt_ctxs (s f) : (setMgmt s f).ctxs = s.ctxs := rfl
@[simp] theorem setMgmt_genBase (s f) : (setMgmt s f).genBase = s.genBase := rfl
@[simp] theorem setMgmt_held (s f) : (setMgmt s f).held = s.held := rfl
@[simp] theorem setMgmt_turns (s f) : (setMgmt s f).turns = s.turns := rfl
@[simp] theorem setMgmt_tracks (s f) : (setMgmt s f).tracks = s.tracks := rfl
@[simp] theorem setMgmt_blocks (s f) : (setMgmt s f).blocks = s.blocks := rfl
@[simp] theorem setMgmt_streams (s f) : (setMgmt s f).streams = s.streams := rfl
@[simp] theorem setMgmt_msgOut (s f) : (setMgmt s f).msgOut = s.msgOut := rfl
@[simp] theorem setMgmt_msgIn (s f) : (setMgmt s f).msgIn = s.msgIn := rfl
@[simp] theorem setMgmt_accums (s f) : (setMgmt s f).accums = s.accums := rfl
@[simp] theorem setMgmt_senders (s f) : (setMgmt s f).senders = s.senders := rfl
@[simp] theorem setMgmt_grants (s f) : (setMgmt s f).grants = s.grants := rfl
@[simp] theorem setMgmt_accesses (s f) : (setMgmt s f).accesses = s.accesses := rfl
@[simp] theorem setMgmt_pkts (s f) : (setMgmt s f).pkts = s.pkts := rfl
@[simp] theorem setMgmt_writers (s f) : (setMgmt s f).writers = s.writers := rfl
@[simp] theorem setMgmt_ports (s f) : (setMgmt s f).ports = s.ports := rfl
@[simp] theorem setMgmt_lanes (s f) : (setMgmt s f).lanes = s.lanes := rfl
@[simp] theorem setMgmt_octets (s f) : (setMgmt s f).octets = s.octets := rfl
@[simp] theorem setMgmt_cards (s f) : (setMgmt s f).cards = s.cards := rfl
@[simp] theorem setMgmt_colls (s f) : (setMgmt s f).colls = s.colls := rfl
@[simp] theorem setMgmt_pends (s f) : (setMgmt s f).pends = s.pends := rfl
@[simp] theorem setMgmt_units (s f) : (setMgmt s f).units = s.units := rfl
@[simp] theorem setMgmt_banks (s f) : (setMgmt s f).banks = s.banks := rfl
@[simp] theorem setMgmt_charts (s f) : (setMgmt s f).charts = s.charts := rfl
@[simp] theorem setMgmt_mer (s f) : (setMgmt s f).mer = s.mer := rfl
@[simp] theorem setMgmt_faults (s f) : (setMgmt s f).faults = s.faults := rfl
@[simp] theorem setMgmt_power (s f) : (setMgmt s f).power = s.power := rfl
@[simp] theorem setMgmt_test (s f) : (setMgmt s f).test = s.test := rfl
@[simp] theorem setMgmt_mgmt (s f) : (setMgmt s f).mgmt = f s.mgmt := rfl
@[simp] theorem setMgmt_flash (s f) : (setMgmt s f).flash = s.flash := rfl
@[simp] theorem setMgmt_mem (s f) : (setMgmt s f).mem = s.mem := rfl
@[simp] theorem setMgmt_out (s f) : (setMgmt s f).out = s.out := rfl
@[simp] theorem setMgmt_nextId (s f) : (setMgmt s f).nextId = s.nextId := rfl
@[simp] theorem setMgmt_free (s f) : (setMgmt s f).free = s.free := rfl
@[simp] theorem port_setMgmt (s f p1) : port (setMgmt s f) p1 = port s p1 := rfl
@[simp] theorem ctx_setMgmt (s f c1) : ctx (setMgmt s f) c1 = ctx s c1 := rfl
@[simp] theorem lane_setMgmt (s f l1) : lane (setMgmt s f) l1 = lane s l1 := rfl
@[simp] theorem octet_setMgmt (s f o1) : octet (setMgmt s f) o1 = octet s o1 := rfl
@[simp] theorem sext_setMgmt (s f u1) : sext (setMgmt s f) u1 = sext s u1 := rfl
@[simp] theorem block_setMgmt (s f b1) : block (setMgmt s f) b1 = block s b1 := rfl
@[simp] theorem regAt_setMgmt (s f i1 j1 k1) : regAt (setMgmt s f) i1 j1 k1 = regAt s i1 j1 k1 := rfl

/-! ## After `setPins` -/

@[simp] theorem setPins_pending (s f) : (setPins s f).pending = s.pending := rfl
@[simp] theorem setPins_clock (s f) : (setPins s f).clock = s.clock := rfl
@[simp] theorem setPins_phase (s f) : (setPins s f).phase = s.phase := rfl
@[simp] theorem setPins_pins (s f) : (setPins s f).pins = f s.pins := rfl
@[simp] theorem setPins_cascade (s f) : (setPins s f).cascade = s.cascade := rfl
@[simp] theorem setPins_regs (s f) : (setPins s f).regs = s.regs := rfl
@[simp] theorem setPins_blobs (s f) : (setPins s f).blobs = s.blobs := rfl
@[simp] theorem setPins_tables (s f) : (setPins s f).tables = s.tables := rfl
@[simp] theorem setPins_ctxs (s f) : (setPins s f).ctxs = s.ctxs := rfl
@[simp] theorem setPins_genBase (s f) : (setPins s f).genBase = s.genBase := rfl
@[simp] theorem setPins_held (s f) : (setPins s f).held = s.held := rfl
@[simp] theorem setPins_turns (s f) : (setPins s f).turns = s.turns := rfl
@[simp] theorem setPins_tracks (s f) : (setPins s f).tracks = s.tracks := rfl
@[simp] theorem setPins_blocks (s f) : (setPins s f).blocks = s.blocks := rfl
@[simp] theorem setPins_streams (s f) : (setPins s f).streams = s.streams := rfl
@[simp] theorem setPins_msgOut (s f) : (setPins s f).msgOut = s.msgOut := rfl
@[simp] theorem setPins_msgIn (s f) : (setPins s f).msgIn = s.msgIn := rfl
@[simp] theorem setPins_accums (s f) : (setPins s f).accums = s.accums := rfl
@[simp] theorem setPins_senders (s f) : (setPins s f).senders = s.senders := rfl
@[simp] theorem setPins_grants (s f) : (setPins s f).grants = s.grants := rfl
@[simp] theorem setPins_accesses (s f) : (setPins s f).accesses = s.accesses := rfl
@[simp] theorem setPins_pkts (s f) : (setPins s f).pkts = s.pkts := rfl
@[simp] theorem setPins_writers (s f) : (setPins s f).writers = s.writers := rfl
@[simp] theorem setPins_ports (s f) : (setPins s f).ports = s.ports := rfl
@[simp] theorem setPins_lanes (s f) : (setPins s f).lanes = s.lanes := rfl
@[simp] theorem setPins_octets (s f) : (setPins s f).octets = s.octets := rfl
@[simp] theorem setPins_cards (s f) : (setPins s f).cards = s.cards := rfl
@[simp] theorem setPins_colls (s f) : (setPins s f).colls = s.colls := rfl
@[simp] theorem setPins_pends (s f) : (setPins s f).pends = s.pends := rfl
@[simp] theorem setPins_units (s f) : (setPins s f).units = s.units := rfl
@[simp] theorem setPins_banks (s f) : (setPins s f).banks = s.banks := rfl
@[simp] theorem setPins_charts (s f) : (setPins s f).charts = s.charts := rfl
@[simp] theorem setPins_mer (s f) : (setPins s f).mer = s.mer := rfl
@[simp] theorem setPins_faults (s f) : (setPins s f).faults = s.faults := rfl
@[simp] theorem setPins_power (s f) : (setPins s f).power = s.power := rfl
@[simp] theorem setPins_test (s f) : (setPins s f).test = s.test := rfl
@[simp] theorem setPins_mgmt (s f) : (setPins s f).mgmt = s.mgmt := rfl
@[simp] theorem setPins_flash (s f) : (setPins s f).flash = s.flash := rfl
@[simp] theorem setPins_mem (s f) : (setPins s f).mem = s.mem := rfl
@[simp] theorem setPins_out (s f) : (setPins s f).out = s.out := rfl
@[simp] theorem setPins_nextId (s f) : (setPins s f).nextId = s.nextId := rfl
@[simp] theorem setPins_free (s f) : (setPins s f).free = s.free := rfl
@[simp] theorem port_setPins (s f p1) : port (setPins s f) p1 = port s p1 := rfl
@[simp] theorem ctx_setPins (s f c1) : ctx (setPins s f) c1 = ctx s c1 := rfl
@[simp] theorem lane_setPins (s f l1) : lane (setPins s f) l1 = lane s l1 := rfl
@[simp] theorem octet_setPins (s f o1) : octet (setPins s f) o1 = octet s o1 := rfl
@[simp] theorem sext_setPins (s f u1) : sext (setPins s f) u1 = sext s u1 := rfl
@[simp] theorem block_setPins (s f b1) : block (setPins s f) b1 = block s b1 := rfl
@[simp] theorem regAt_setPins (s f i1 j1 k1) : regAt (setPins s f) i1 j1 k1 = regAt s i1 j1 k1 := rfl

/-! ## After `setPow` -/

@[simp] theorem setPow_pending (s f) : (setPow s f).pending = s.pending := rfl
@[simp] theorem setPow_clock (s f) : (setPow s f).clock = s.clock := rfl
@[simp] theorem setPow_phase (s f) : (setPow s f).phase = s.phase := rfl
@[simp] theorem setPow_pins (s f) : (setPow s f).pins = s.pins := rfl
@[simp] theorem setPow_cascade (s f) : (setPow s f).cascade = s.cascade := rfl
@[simp] theorem setPow_regs (s f) : (setPow s f).regs = s.regs := rfl
@[simp] theorem setPow_blobs (s f) : (setPow s f).blobs = s.blobs := rfl
@[simp] theorem setPow_tables (s f) : (setPow s f).tables = s.tables := rfl
@[simp] theorem setPow_ctxs (s f) : (setPow s f).ctxs = s.ctxs := rfl
@[simp] theorem setPow_genBase (s f) : (setPow s f).genBase = s.genBase := rfl
@[simp] theorem setPow_held (s f) : (setPow s f).held = s.held := rfl
@[simp] theorem setPow_turns (s f) : (setPow s f).turns = s.turns := rfl
@[simp] theorem setPow_tracks (s f) : (setPow s f).tracks = s.tracks := rfl
@[simp] theorem setPow_blocks (s f) : (setPow s f).blocks = s.blocks := rfl
@[simp] theorem setPow_streams (s f) : (setPow s f).streams = s.streams := rfl
@[simp] theorem setPow_msgOut (s f) : (setPow s f).msgOut = s.msgOut := rfl
@[simp] theorem setPow_msgIn (s f) : (setPow s f).msgIn = s.msgIn := rfl
@[simp] theorem setPow_accums (s f) : (setPow s f).accums = s.accums := rfl
@[simp] theorem setPow_senders (s f) : (setPow s f).senders = s.senders := rfl
@[simp] theorem setPow_grants (s f) : (setPow s f).grants = s.grants := rfl
@[simp] theorem setPow_accesses (s f) : (setPow s f).accesses = s.accesses := rfl
@[simp] theorem setPow_pkts (s f) : (setPow s f).pkts = s.pkts := rfl
@[simp] theorem setPow_writers (s f) : (setPow s f).writers = s.writers := rfl
@[simp] theorem setPow_ports (s f) : (setPow s f).ports = s.ports := rfl
@[simp] theorem setPow_lanes (s f) : (setPow s f).lanes = s.lanes := rfl
@[simp] theorem setPow_octets (s f) : (setPow s f).octets = s.octets := rfl
@[simp] theorem setPow_cards (s f) : (setPow s f).cards = s.cards := rfl
@[simp] theorem setPow_colls (s f) : (setPow s f).colls = s.colls := rfl
@[simp] theorem setPow_pends (s f) : (setPow s f).pends = s.pends := rfl
@[simp] theorem setPow_units (s f) : (setPow s f).units = s.units := rfl
@[simp] theorem setPow_banks (s f) : (setPow s f).banks = s.banks := rfl
@[simp] theorem setPow_charts (s f) : (setPow s f).charts = s.charts := rfl
@[simp] theorem setPow_mer (s f) : (setPow s f).mer = s.mer := rfl
@[simp] theorem setPow_faults (s f) : (setPow s f).faults = s.faults := rfl
@[simp] theorem setPow_power (s f) : (setPow s f).power = f s.power := rfl
@[simp] theorem setPow_test (s f) : (setPow s f).test = s.test := rfl
@[simp] theorem setPow_mgmt (s f) : (setPow s f).mgmt = s.mgmt := rfl
@[simp] theorem setPow_flash (s f) : (setPow s f).flash = s.flash := rfl
@[simp] theorem setPow_mem (s f) : (setPow s f).mem = s.mem := rfl
@[simp] theorem setPow_out (s f) : (setPow s f).out = s.out := rfl
@[simp] theorem setPow_nextId (s f) : (setPow s f).nextId = s.nextId := rfl
@[simp] theorem setPow_free (s f) : (setPow s f).free = s.free := rfl
@[simp] theorem port_setPow (s f p1) : port (setPow s f) p1 = port s p1 := rfl
@[simp] theorem ctx_setPow (s f c1) : ctx (setPow s f) c1 = ctx s c1 := rfl
@[simp] theorem lane_setPow (s f l1) : lane (setPow s f) l1 = lane s l1 := rfl
@[simp] theorem octet_setPow (s f o1) : octet (setPow s f) o1 = octet s o1 := rfl
@[simp] theorem sext_setPow (s f u1) : sext (setPow s f) u1 = sext s u1 := rfl
@[simp] theorem block_setPow (s f b1) : block (setPow s f) b1 = block s b1 := rfl
@[simp] theorem regAt_setPow (s f i1 j1 k1) : regAt (setPow s f) i1 j1 k1 = regAt s i1 j1 k1 := rfl

/-! ## After `setTest` -/

@[simp] theorem setTest_pending (s f) : (setTest s f).pending = s.pending := rfl
@[simp] theorem setTest_clock (s f) : (setTest s f).clock = s.clock := rfl
@[simp] theorem setTest_phase (s f) : (setTest s f).phase = s.phase := rfl
@[simp] theorem setTest_pins (s f) : (setTest s f).pins = s.pins := rfl
@[simp] theorem setTest_cascade (s f) : (setTest s f).cascade = s.cascade := rfl
@[simp] theorem setTest_regs (s f) : (setTest s f).regs = s.regs := rfl
@[simp] theorem setTest_blobs (s f) : (setTest s f).blobs = s.blobs := rfl
@[simp] theorem setTest_tables (s f) : (setTest s f).tables = s.tables := rfl
@[simp] theorem setTest_ctxs (s f) : (setTest s f).ctxs = s.ctxs := rfl
@[simp] theorem setTest_genBase (s f) : (setTest s f).genBase = s.genBase := rfl
@[simp] theorem setTest_held (s f) : (setTest s f).held = s.held := rfl
@[simp] theorem setTest_turns (s f) : (setTest s f).turns = s.turns := rfl
@[simp] theorem setTest_tracks (s f) : (setTest s f).tracks = s.tracks := rfl
@[simp] theorem setTest_blocks (s f) : (setTest s f).blocks = s.blocks := rfl
@[simp] theorem setTest_streams (s f) : (setTest s f).streams = s.streams := rfl
@[simp] theorem setTest_msgOut (s f) : (setTest s f).msgOut = s.msgOut := rfl
@[simp] theorem setTest_msgIn (s f) : (setTest s f).msgIn = s.msgIn := rfl
@[simp] theorem setTest_accums (s f) : (setTest s f).accums = s.accums := rfl
@[simp] theorem setTest_senders (s f) : (setTest s f).senders = s.senders := rfl
@[simp] theorem setTest_grants (s f) : (setTest s f).grants = s.grants := rfl
@[simp] theorem setTest_accesses (s f) : (setTest s f).accesses = s.accesses := rfl
@[simp] theorem setTest_pkts (s f) : (setTest s f).pkts = s.pkts := rfl
@[simp] theorem setTest_writers (s f) : (setTest s f).writers = s.writers := rfl
@[simp] theorem setTest_ports (s f) : (setTest s f).ports = s.ports := rfl
@[simp] theorem setTest_lanes (s f) : (setTest s f).lanes = s.lanes := rfl
@[simp] theorem setTest_octets (s f) : (setTest s f).octets = s.octets := rfl
@[simp] theorem setTest_cards (s f) : (setTest s f).cards = s.cards := rfl
@[simp] theorem setTest_colls (s f) : (setTest s f).colls = s.colls := rfl
@[simp] theorem setTest_pends (s f) : (setTest s f).pends = s.pends := rfl
@[simp] theorem setTest_units (s f) : (setTest s f).units = s.units := rfl
@[simp] theorem setTest_banks (s f) : (setTest s f).banks = s.banks := rfl
@[simp] theorem setTest_charts (s f) : (setTest s f).charts = s.charts := rfl
@[simp] theorem setTest_mer (s f) : (setTest s f).mer = s.mer := rfl
@[simp] theorem setTest_faults (s f) : (setTest s f).faults = s.faults := rfl
@[simp] theorem setTest_power (s f) : (setTest s f).power = s.power := rfl
@[simp] theorem setTest_test (s f) : (setTest s f).test = f s.test := rfl
@[simp] theorem setTest_mgmt (s f) : (setTest s f).mgmt = s.mgmt := rfl
@[simp] theorem setTest_flash (s f) : (setTest s f).flash = s.flash := rfl
@[simp] theorem setTest_mem (s f) : (setTest s f).mem = s.mem := rfl
@[simp] theorem setTest_out (s f) : (setTest s f).out = s.out := rfl
@[simp] theorem setTest_nextId (s f) : (setTest s f).nextId = s.nextId := rfl
@[simp] theorem setTest_free (s f) : (setTest s f).free = s.free := rfl
@[simp] theorem port_setTest (s f p1) : port (setTest s f) p1 = port s p1 := rfl
@[simp] theorem ctx_setTest (s f c1) : ctx (setTest s f) c1 = ctx s c1 := rfl
@[simp] theorem lane_setTest (s f l1) : lane (setTest s f) l1 = lane s l1 := rfl
@[simp] theorem octet_setTest (s f o1) : octet (setTest s f) o1 = octet s o1 := rfl
@[simp] theorem sext_setTest (s f u1) : sext (setTest s f) u1 = sext s u1 := rfl
@[simp] theorem block_setTest (s f b1) : block (setTest s f) b1 = block s b1 := rfl
@[simp] theorem regAt_setTest (s f i1 j1 k1) : regAt (setTest s f) i1 j1 k1 = regAt s i1 j1 k1 := rfl

/-! ## After `setFaults` -/

@[simp] theorem setFaults_pending (s f) : (setFaults s f).pending = s.pending := rfl
@[simp] theorem setFaults_clock (s f) : (setFaults s f).clock = s.clock := rfl
@[simp] theorem setFaults_phase (s f) : (setFaults s f).phase = s.phase := rfl
@[simp] theorem setFaults_pins (s f) : (setFaults s f).pins = s.pins := rfl
@[simp] theorem setFaults_cascade (s f) : (setFaults s f).cascade = s.cascade := rfl
@[simp] theorem setFaults_regs (s f) : (setFaults s f).regs = s.regs := rfl
@[simp] theorem setFaults_blobs (s f) : (setFaults s f).blobs = s.blobs := rfl
@[simp] theorem setFaults_tables (s f) : (setFaults s f).tables = s.tables := rfl
@[simp] theorem setFaults_ctxs (s f) : (setFaults s f).ctxs = s.ctxs := rfl
@[simp] theorem setFaults_genBase (s f) : (setFaults s f).genBase = s.genBase := rfl
@[simp] theorem setFaults_held (s f) : (setFaults s f).held = s.held := rfl
@[simp] theorem setFaults_turns (s f) : (setFaults s f).turns = s.turns := rfl
@[simp] theorem setFaults_tracks (s f) : (setFaults s f).tracks = s.tracks := rfl
@[simp] theorem setFaults_blocks (s f) : (setFaults s f).blocks = s.blocks := rfl
@[simp] theorem setFaults_streams (s f) : (setFaults s f).streams = s.streams := rfl
@[simp] theorem setFaults_msgOut (s f) : (setFaults s f).msgOut = s.msgOut := rfl
@[simp] theorem setFaults_msgIn (s f) : (setFaults s f).msgIn = s.msgIn := rfl
@[simp] theorem setFaults_accums (s f) : (setFaults s f).accums = s.accums := rfl
@[simp] theorem setFaults_senders (s f) : (setFaults s f).senders = s.senders := rfl
@[simp] theorem setFaults_grants (s f) : (setFaults s f).grants = s.grants := rfl
@[simp] theorem setFaults_accesses (s f) : (setFaults s f).accesses = s.accesses := rfl
@[simp] theorem setFaults_pkts (s f) : (setFaults s f).pkts = s.pkts := rfl
@[simp] theorem setFaults_writers (s f) : (setFaults s f).writers = s.writers := rfl
@[simp] theorem setFaults_ports (s f) : (setFaults s f).ports = s.ports := rfl
@[simp] theorem setFaults_lanes (s f) : (setFaults s f).lanes = s.lanes := rfl
@[simp] theorem setFaults_octets (s f) : (setFaults s f).octets = s.octets := rfl
@[simp] theorem setFaults_cards (s f) : (setFaults s f).cards = s.cards := rfl
@[simp] theorem setFaults_colls (s f) : (setFaults s f).colls = s.colls := rfl
@[simp] theorem setFaults_pends (s f) : (setFaults s f).pends = s.pends := rfl
@[simp] theorem setFaults_units (s f) : (setFaults s f).units = s.units := rfl
@[simp] theorem setFaults_banks (s f) : (setFaults s f).banks = s.banks := rfl
@[simp] theorem setFaults_charts (s f) : (setFaults s f).charts = s.charts := rfl
@[simp] theorem setFaults_mer (s f) : (setFaults s f).mer = s.mer := rfl
@[simp] theorem setFaults_faults (s f) : (setFaults s f).faults = f s.faults := rfl
@[simp] theorem setFaults_power (s f) : (setFaults s f).power = s.power := rfl
@[simp] theorem setFaults_test (s f) : (setFaults s f).test = s.test := rfl
@[simp] theorem setFaults_mgmt (s f) : (setFaults s f).mgmt = s.mgmt := rfl
@[simp] theorem setFaults_flash (s f) : (setFaults s f).flash = s.flash := rfl
@[simp] theorem setFaults_mem (s f) : (setFaults s f).mem = s.mem := rfl
@[simp] theorem setFaults_out (s f) : (setFaults s f).out = s.out := rfl
@[simp] theorem setFaults_nextId (s f) : (setFaults s f).nextId = s.nextId := rfl
@[simp] theorem setFaults_free (s f) : (setFaults s f).free = s.free := rfl
@[simp] theorem port_setFaults (s f p1) : port (setFaults s f) p1 = port s p1 := rfl
@[simp] theorem ctx_setFaults (s f c1) : ctx (setFaults s f) c1 = ctx s c1 := rfl
@[simp] theorem lane_setFaults (s f l1) : lane (setFaults s f) l1 = lane s l1 := rfl
@[simp] theorem octet_setFaults (s f o1) : octet (setFaults s f) o1 = octet s o1 := rfl
@[simp] theorem sext_setFaults (s f u1) : sext (setFaults s f) u1 = sext s u1 := rfl
@[simp] theorem block_setFaults (s f b1) : block (setFaults s f) b1 = block s b1 := rfl
@[simp] theorem regAt_setFaults (s f i1 j1 k1) : regAt (setFaults s f) i1 j1 k1 = regAt s i1 j1 k1 := rfl

/-! ## After `setMer` -/

@[simp] theorem setMer_pending (s f) : (setMer s f).pending = s.pending := rfl
@[simp] theorem setMer_clock (s f) : (setMer s f).clock = s.clock := rfl
@[simp] theorem setMer_phase (s f) : (setMer s f).phase = s.phase := rfl
@[simp] theorem setMer_pins (s f) : (setMer s f).pins = s.pins := rfl
@[simp] theorem setMer_cascade (s f) : (setMer s f).cascade = s.cascade := rfl
@[simp] theorem setMer_regs (s f) : (setMer s f).regs = s.regs := rfl
@[simp] theorem setMer_blobs (s f) : (setMer s f).blobs = s.blobs := rfl
@[simp] theorem setMer_tables (s f) : (setMer s f).tables = s.tables := rfl
@[simp] theorem setMer_ctxs (s f) : (setMer s f).ctxs = s.ctxs := rfl
@[simp] theorem setMer_genBase (s f) : (setMer s f).genBase = s.genBase := rfl
@[simp] theorem setMer_held (s f) : (setMer s f).held = s.held := rfl
@[simp] theorem setMer_turns (s f) : (setMer s f).turns = s.turns := rfl
@[simp] theorem setMer_tracks (s f) : (setMer s f).tracks = s.tracks := rfl
@[simp] theorem setMer_blocks (s f) : (setMer s f).blocks = s.blocks := rfl
@[simp] theorem setMer_streams (s f) : (setMer s f).streams = s.streams := rfl
@[simp] theorem setMer_msgOut (s f) : (setMer s f).msgOut = s.msgOut := rfl
@[simp] theorem setMer_msgIn (s f) : (setMer s f).msgIn = s.msgIn := rfl
@[simp] theorem setMer_accums (s f) : (setMer s f).accums = s.accums := rfl
@[simp] theorem setMer_senders (s f) : (setMer s f).senders = s.senders := rfl
@[simp] theorem setMer_grants (s f) : (setMer s f).grants = s.grants := rfl
@[simp] theorem setMer_accesses (s f) : (setMer s f).accesses = s.accesses := rfl
@[simp] theorem setMer_pkts (s f) : (setMer s f).pkts = s.pkts := rfl
@[simp] theorem setMer_writers (s f) : (setMer s f).writers = s.writers := rfl
@[simp] theorem setMer_ports (s f) : (setMer s f).ports = s.ports := rfl
@[simp] theorem setMer_lanes (s f) : (setMer s f).lanes = s.lanes := rfl
@[simp] theorem setMer_octets (s f) : (setMer s f).octets = s.octets := rfl
@[simp] theorem setMer_cards (s f) : (setMer s f).cards = s.cards := rfl
@[simp] theorem setMer_colls (s f) : (setMer s f).colls = s.colls := rfl
@[simp] theorem setMer_pends (s f) : (setMer s f).pends = s.pends := rfl
@[simp] theorem setMer_units (s f) : (setMer s f).units = s.units := rfl
@[simp] theorem setMer_banks (s f) : (setMer s f).banks = s.banks := rfl
@[simp] theorem setMer_charts (s f) : (setMer s f).charts = s.charts := rfl
@[simp] theorem setMer_mer (s f) : (setMer s f).mer = f s.mer := rfl
@[simp] theorem setMer_faults (s f) : (setMer s f).faults = s.faults := rfl
@[simp] theorem setMer_power (s f) : (setMer s f).power = s.power := rfl
@[simp] theorem setMer_test (s f) : (setMer s f).test = s.test := rfl
@[simp] theorem setMer_mgmt (s f) : (setMer s f).mgmt = s.mgmt := rfl
@[simp] theorem setMer_flash (s f) : (setMer s f).flash = s.flash := rfl
@[simp] theorem setMer_mem (s f) : (setMer s f).mem = s.mem := rfl
@[simp] theorem setMer_out (s f) : (setMer s f).out = s.out := rfl
@[simp] theorem setMer_nextId (s f) : (setMer s f).nextId = s.nextId := rfl
@[simp] theorem setMer_free (s f) : (setMer s f).free = s.free := rfl
@[simp] theorem port_setMer (s f p1) : port (setMer s f) p1 = port s p1 := rfl
@[simp] theorem ctx_setMer (s f c1) : ctx (setMer s f) c1 = ctx s c1 := rfl
@[simp] theorem lane_setMer (s f l1) : lane (setMer s f) l1 = lane s l1 := rfl
@[simp] theorem octet_setMer (s f o1) : octet (setMer s f) o1 = octet s o1 := rfl
@[simp] theorem sext_setMer (s f u1) : sext (setMer s f) u1 = sext s u1 := rfl
@[simp] theorem block_setMer (s f b1) : block (setMer s f) b1 = block s b1 := rfl
@[simp] theorem regAt_setMer (s f i1 j1 k1) : regAt (setMer s f) i1 j1 k1 = regAt s i1 j1 k1 := rfl

/-! ## Reading back -/

@[simp] theorem port_setPort_self (s p x) : port (setPort s p x) p = x := by simp [port, setPort]
theorem port_setPort_ne (s p p1 x) (h : p ≠ p1) : port (setPort s p x) p1 = port s p1 :=
  tgetD_tput_ne _ _ _ _ _ h
@[simp] theorem ctx_setCtx_self (s c x) : ctx (setCtx s c x) c = x := by simp [ctx, setCtx]
theorem ctx_setCtx_ne (s c c1 x) (h : c ≠ c1) : ctx (setCtx s c x) c1 = ctx s c1 :=
  tgetD_tput_ne _ _ _ _ _ h
@[simp] theorem lane_setLane_self (s l x) : lane (setLane s l x) l = x := by simp [lane, setLane]
theorem lane_setLane_ne (s l l1 x) (h : l ≠ l1) : lane (setLane s l x) l1 = lane s l1 :=
  tgetD_tput_ne _ _ _ _ _ h
@[simp] theorem octet_setOctet_self (s o x) : octet (setOctet s o x) o = x := by simp [octet, setOctet]
theorem octet_setOctet_ne (s o o1 x) (h : o ≠ o1) : octet (setOctet s o x) o1 = octet s o1 :=
  tgetD_tput_ne _ _ _ _ _ h
@[simp] theorem sext_setSext_self (s u x) : sext (setSext s u x) u = x := by simp [sext, setSext]
theorem sext_setSext_ne (s u u1 x) (h : u ≠ u1) : sext (setSext s u x) u1 = sext s u1 :=
  tgetD_tput_ne _ _ _ _ _ h
@[simp] theorem block_setBlock_self (s b x) : block (setBlock s b x) b = x := by simp [block, setBlock]
theorem block_setBlock_ne (s b b1 x) (h : b ≠ b1) : block (setBlock s b x) b1 = block s b1 :=
  tgetD_tput_ne _ _ _ _ _ h
@[simp] theorem regAt_setRegAt_self (s i j k v) : regAt (setRegAt s i j k v) i j k = v := by simp [regAt, setRegAt]
theorem regAt_setRegAt_ne (s i j k v i1 j1 k1) (h : regKey i j k ≠ regKey i1 j1 k1) :
    regAt (setRegAt s i j k v) i1 j1 k1 = regAt s i1 j1 k1 := by
  simp only [regAt, setRegAt, tget_tput_ne _ _ _ _ h]

end Sys2Proof.Machine
end

