-- ==== Sys2Proof/Laws/Memory.lean ====
section
/-! SUPPORT. The laws of local memory: what a byte reads after a write, and that every operation on memory keeps
the canonical form. -/

namespace Sys2Proof.Machine
open Sys2Proof

/-! ## Reading after writing -/

@[simp] theorem memByte_memPut_self (m : Memory) (a : Nat) (b : Byte) : memByte (memPut m a b) a = b := by
  unfold memByte memPut
  split
  · rename_i h; simp [h]
  · simp

theorem memByte_memPut_ne (m : Memory) (a c : Nat) (b : Byte) (h : a ≠ c) :
    memByte (memPut m a b) c = memByte m c := by
  unfold memByte memPut
  split
  · simp only [tget_tdel_ne _ _ _ h]
  · simp only [tget_tput_ne _ _ _ _ h]

@[simp] theorem memByte_memPoison (m : Memory) (l : Nat) (p : Bool) (a : Nat) :
    memByte (memPoison m l p) a = memByte m a := rfl

/-- A write leaves every byte outside it as it was. -/
theorem memByte_memWrite_outside (v : Bytes) (m : Memory) (a c : Nat) (h : c < a ∨ a + v.length ≤ c) :
    memByte (memWrite m a v) c = memByte m c := by
  induction v generalizing m a with
  | nil => rfl
  | cons b r ih =>
    simp only [List.length_cons] at h
    rw [memWrite, ih _ _ (by omega), memByte_memPut_ne _ _ _ _ (by omega)]

/-- A write puts its bytes at the addresses that follow its own. -/
theorem memByte_memWrite_inside (v : Bytes) (m : Memory) (a k : Nat) (h : k < v.length) :
    memByte (memWrite m a v) (a + k) = v[k] := by
  induction v generalizing m a k with
  | nil => simp at h
  | cons b r ih =>
    rw [memWrite]
    cases k with
    | zero => rw [memByte_memWrite_outside _ _ _ _ (by omega)]; simp
    | succ k =>
      have := ih (memPut m a b) (a + 1) k (by simpa using h)
      rw [show a + (k + 1) = a + 1 + k by omega, this]
      simp

/-- Reading back what was written gives it. -/
theorem memRead_memWrite (v : Bytes) (m : Memory) (a : Nat) : memRead (memWrite m a v) a v.length = v := by
  induction v generalizing m a with
  | nil => rfl
  | cons b r ih =>
    rw [List.length_cons, memRead, memWrite, memByte_memWrite_outside _ _ _ _ (by omega), ih]
    simp

/-! ## The canonical form -/
theorem risingFrom_lower {α : Type} (t : Tbl α) (a b : Nat) (h : a ≤ b) (ht : risingFrom (some b) t = true) :
    risingFrom (some a) t = true := by
  cases t with
  | nil => rfl
  | cons x r => simp only [risingFrom, Bool.and_eq_true, decide_eq_true_eq] at ht ⊢; exact ⟨by omega, ht.2⟩

theorem risingFrom_tput {α : Type} (t : Tbl α) (b n : Nat) (x : α) (hb : b < n) (ht : risingFrom (some b) t = true) :
    risingFrom (some b) (tput t n x) = true := by
  induction t generalizing b with
  | nil => simp [tput, risingFrom, hb]
  | cons y r ih =>
    obtain ⟨k, v⟩ := y
    simp only [risingFrom, Bool.and_eq_true, decide_eq_true_eq] at ht
    unfold tput
    split
    · simp [risingFrom, ht.2, *]
    · split
      · rename_i e; subst e; simp [risingFrom, hb, ht.2]
      · simp only [risingFrom, Bool.and_eq_true, decide_eq_true_eq]
        exact ⟨ht.1, ih k (by omega) ht.2⟩

theorem rising_tput {α : Type} (t : Tbl α) (n : Nat) (x : α) (ht : risingFrom none t = true) :
    risingFrom none (tput t n x) = true := by
  cases t with
  | nil => rfl
  | cons y r =>
    obtain ⟨k, v⟩ := y
    simp only [risingFrom] at ht
    unfold tput
    split
    · simp [risingFrom, *]
    · split
      · rename_i e; subst e; simpa [risingFrom] using ht
      · simpa only [risingFrom] using risingFrom_tput r k n x (by omega) ht

theorem risingFrom_tdel {α : Type} (t : Tbl α) (b n : Nat) (ht : risingFrom (some b) t = true) :
    risingFrom (some b) (tdel t n) = true := by
  induction t generalizing b with
  | nil => rfl
  | cons y r ih =>
    obtain ⟨k, v⟩ := y
    simp only [risingFrom, Bool.and_eq_true, decide_eq_true_eq] at ht
    unfold tdel
    split
    · exact risingFrom_lower _ b k (by omega) (ih k ht.2)
    · simp only [risingFrom, Bool.and_eq_true, decide_eq_true_eq]
      exact ⟨ht.1, ih k ht.2⟩

theorem rising_of_above {α : Type} (t : Tbl α) (b : Nat) (ht : risingFrom (some b) t = true) :
    risingFrom none t = true := by
  cases t with
  | nil => rfl
  | cons y r => simp only [risingFrom, Bool.and_eq_true] at ht ⊢; exact ht.2

theorem rising_tdel {α : Type} (t : Tbl α) (n : Nat) (ht : risingFrom none t = true) :
    risingFrom none (tdel t n) = true := by
  cases t with
  | nil => rfl
  | cons y r =>
    obtain ⟨k, v⟩ := y
    simp only [risingFrom] at ht
    unfold tdel
    split
    · exact rising_of_above _ k (risingFrom_tdel r k n ht)
    · simpa only [risingFrom] using risingFrom_tdel r k n ht

/-- What is listed after a record is put is the record or was listed before. -/
theorem mem_tput {α : Type} (t : Tbl α) (n : Nat) (x : α) (y : Nat × α) (h : y ∈ tput t n x) : y = (n, x) ∨ y ∈ t := by
  induction t with
  | nil => simpa [tput] using h
  | cons z r ih =>
    obtain ⟨k, v⟩ := z
    unfold tput at h
    split at h
    · simpa using h
    · split at h
      · simp only [List.mem_cons] at h ⊢; tauto
      · simp only [List.mem_cons] at h ⊢; tauto

theorem mem_tdel {α : Type} (t : Tbl α) (n : Nat) (y : Nat × α) (h : y ∈ tdel t n) : y ∈ t := by
  induction t with
  | nil => simp [tdel] at h
  | cons z r ih =>
    obtain ⟨k, v⟩ := z
    unfold tdel at h
    split at h
    · exact List.mem_cons_of_mem _ (ih h)
    · simp only [List.mem_cons] at h ⊢; tauto

/-- Writing a byte keeps the canonical form. -/
theorem memWf_memPut (m : Memory) (a : Nat) (b : Byte) (h : memWf m = true) : memWf (memPut m a b) = true := by
  simp only [memWf, Bool.and_eq_true, List.all_eq_true, bne_iff_ne] at h ⊢
  unfold memPut
  split
  · exact ⟨rising_tdel _ _ h.1, fun y hy => h.2 y (mem_tdel _ _ _ hy)⟩
  · rename_i hb
    refine ⟨rising_tput _ _ _ h.1, fun y hy => ?_⟩
    rcases mem_tput _ _ _ _ hy with rfl | hy
    · exact hb
    · exact h.2 y hy

/-- Writing bytes keeps the canonical form. -/
theorem memWf_memWrite (v : Bytes) (m : Memory) (a : Nat) (h : memWf m = true) : memWf (memWrite m a v) = true := by
  induction v generalizing m a with
  | nil => exact h
  | cons b r ih => exact ih _ _ (memWf_memPut m a b h)

/-- Marking or clearing poison keeps the canonical form of the bytes. -/
@[simp] theorem memWf_memPoison (m : Memory) (l : Nat) (p : Bool) : memWf (memPoison m l p) = memWf m := rfl

@[simp] theorem poison_memPut (m : Memory) (a : Nat) (b : Byte) : (memPut m a b).poison = m.poison := rfl

@[simp] theorem poison_memWrite (v : Bytes) (m : Memory) (a : Nat) : (memWrite m a v).poison = m.poison := by
  induction v generalizing m a with
  | nil => rfl
  | cons b r ih => rw [memWrite, ih]; rfl

theorem risingNats_iff (l : List Nat) : risingNats l = true ↔ l.Pairwise (· < ·) := by
  induction l with
  | nil => simp [risingNats]
  | cons a r ih =>
    cases r with
    | nil => simp [risingNats]
    | cons b r =>
      simp only [risingNats, Bool.and_eq_true, decide_eq_true_eq, ih, List.pairwise_cons, List.mem_cons]
      constructor
      · rintro ⟨h, h1, h2⟩
        refine ⟨?_, h1, h2⟩
        rintro x (rfl | hx)
        · exact h
        · exact Nat.lt_trans h (h1 x hx)
      · rintro ⟨h, h1, h2⟩
        exact ⟨h b (.inl rfl), h1, h2⟩

theorem mem_insertNat (l : List Nat) (n x : Nat) : x ∈ insertNat l n ↔ x = n ∨ x ∈ l := by
  induction l with
  | nil => simp [insertNat]
  | cons k r ih =>
    unfold insertNat
    split
    · simp
    · split
      · rename_i e; subst e; simp
      · simp only [List.mem_cons, ih]; tauto

theorem risingNats_insertNat (l : List Nat) (n : Nat) (h : risingNats l = true) : risingNats (insertNat l n) = true := by
  rw [risingNats_iff] at h ⊢
  induction l with
  | nil => simp [insertNat]
  | cons k r ih =>
    obtain ⟨h1, h2⟩ := List.pairwise_cons.mp h
    unfold insertNat
    split
    · rename_i hk
      refine List.pairwise_cons.mpr ⟨?_, h⟩
      rintro x hx
      rcases List.mem_cons.mp hx with rfl | hx
      · exact hk
      · exact Nat.lt_trans hk (h1 x hx)
    · split
      · exact h
      · refine List.pairwise_cons.mpr ⟨?_, ih h2⟩
        intro x hx
        rcases (mem_insertNat _ _ _).mp hx with rfl | hx
        · omega
        · exact h1 x hx

/-- Marking or clearing poison keeps the poisoned lines rising. -/
theorem risingNats_memPoison (m : Memory) (l : Nat) (p : Bool) (h : risingNats m.poison = true) :
    risingNats (memPoison m l p).poison = true := by
  unfold memPoison
  cases p with
  | true => exact risingNats_insertNat _ _ h
  | false =>
    simp only [Bool.false_eq_true, if_false]
    rw [risingNats_iff] at h ⊢
    exact h.filter _

/-- Memory after reset is in its canonical form. -/
theorem memWf_reset : memWf State.reset.mem = true := rfl

end Sys2Proof.Machine
end

