-- ==== Sys2Proof/Laws/Control.lean ====
section
/-! SUPPORT. What taking a control packet does, once for all control packets: it is acted on, or discarded and
counted; and which parts of the state the dictionary's bookkeeping leaves as they were. -/

namespace Sys2Proof.Machine
open Sys2Proof

/-- R276, R297, R302: a control packet that is taken is acted on, its receipt noted. -/
theorem takeControl_taken {s : State} {p : Nat} {b : BitVec 256} {ctype : Nat} (h : ControlTaken s p b ctype)
    (act : State → State) :
    takeControl s p b ctype act = act (updLink s p fun l => { l with heard := s.clock }) := by
  obtain ⟨h1, h0, h2, h3, h4, h5⟩ := h
  unfold takeControl
  rw [if_neg (by simp [h1, h3]; omega), if_neg (by simp [h2]), if_neg (by simp [h3])]
  rw [if_neg (by rcases h4 with h | h <;> simp [h]), if_neg (by rcases h5 with h | h <;> simp [h])]

/-- All that taking a control packet can do: nothing, one count, or the packet's action. -/
theorem takeControl_cases (s : State) (p : Nat) (b : BitVec 256) (ctype : Nat) (act : State → State) :
    takeControl s p b ctype act = s ∨ takeControl s p b ctype act = bumpAt s 0x2400 0x15 p ∨
      takeControl s p b ctype act = bumpAt s 0x2400 0x10 p ∨
      (ControlTaken s p b ctype ∧
        takeControl s p b ctype act = act (updLink s p fun l => { l with heard := s.clock })) := by
  unfold takeControl
  by_cases h1 : blocksCome s p = true ∧ ¬ cByte b 0 < 0xC0
  · rw [if_neg (by simp only [h1]; simp)]
    by_cases h2 : controlValid b = true
    · rw [if_neg (by simp [h2])]
      by_cases h3 : cByte b 0 = ctype
      · rw [if_neg (by simp [h3])]
        split
        · exact .inr (.inl rfl)
        · rename_i h4
          split
          · exact .inr (.inr (.inl rfl))
          · rename_i h5
            refine .inr (.inr (.inr ⟨⟨h1.1, by omega, h2, h3, ?_, ?_⟩, rfl⟩))
            · by_cases h : working s p = true
              · exact .inl h
              · exact .inr (by simpa [h] using h4)
            · by_cases h : anyEpoch ctype = true
              · exact .inl h
              · exact .inr (by simpa [h] using h5)
      · rw [if_pos h3]; exact .inl rfl
    · rw [if_pos (by simpa using h2)]
      split
      · exact .inl rfl
      · exact .inr (.inl rfl)
  · rw [if_pos (by rcases Classical.not_and_iff_not_or_not.mp h1 with h | h <;> simp_all)]; exact .inl rfl

/-- R288: a notice that is taken with the number expected is acted on, and the next number is expected. -/
theorem takeNotice_taken {s : State} {p : Nat} {b : BitVec 256} (h : ControlTaken s p b ctNotice)
    (hn : cByte b 4 = (port s p).link.cexpect) (act : State → State) :
    takeNotice s p b act = act (updLink (updLink s p fun l => { l with heard := s.clock }) p fun l =>
      { l with cexpect := (l.cexpect + 1) % 256, cnak := false }) := by
  unfold takeNotice
  rw [takeControl_taken h]
  simp [updLink, updPort, hn]

/-! ## What the dictionary's bookkeeping leaves as it was -/

@[simp] theorem pending_atEntry (q s) (h : Authorised q s) : (atEntry q s).pending = s.pending :=
  part_of_beside (·.pending) (fun _ => rfl) (beside_atEntry q s h)
@[simp] theorem pending_written (q u) : (written q u).pending = u.pending :=
  part_of_beside (·.pending) (fun _ => rfl) (beside_written q u)
@[simp] theorem clock_atEntry (q s) (h : Authorised q s) : (atEntry q s).clock = s.clock :=
  part_of_beside (·.clock) (fun _ => rfl) (beside_atEntry q s h)
@[simp] theorem clock_written (q u) : (written q u).clock = u.clock :=
  part_of_beside (·.clock) (fun _ => rfl) (beside_written q u)
@[simp] theorem phase_atEntry (q s) (h : Authorised q s) : (atEntry q s).phase = s.phase :=
  part_of_beside (·.phase) (fun _ => rfl) (beside_atEntry q s h)
@[simp] theorem phase_written (q u) : (written q u).phase = u.phase :=
  part_of_beside (·.phase) (fun _ => rfl) (beside_written q u)
@[simp] theorem pins_atEntry (q s) (h : Authorised q s) : (atEntry q s).pins = s.pins :=
  part_of_beside (·.pins) (fun _ => rfl) (beside_atEntry q s h)
@[simp] theorem pins_written (q u) : (written q u).pins = u.pins :=
  part_of_beside (·.pins) (fun _ => rfl) (beside_written q u)
@[simp] theorem cascade_atEntry (q s) (h : Authorised q s) : (atEntry q s).cascade = s.cascade :=
  part_of_beside (·.cascade) (fun _ => rfl) (beside_atEntry q s h)
@[simp] theorem cascade_written (q u) : (written q u).cascade = u.cascade :=
  part_of_beside (·.cascade) (fun _ => rfl) (beside_written q u)
@[simp] theorem blobs_atEntry (q s) (h : Authorised q s) : (atEntry q s).blobs = s.blobs :=
  part_of_beside (·.blobs) (fun _ => rfl) (beside_atEntry q s h)
@[simp] theorem blobs_written (q u) : (written q u).blobs = u.blobs :=
  part_of_beside (·.blobs) (fun _ => rfl) (beside_written q u)
@[simp] theorem tables_atEntry (q s) (h : Authorised q s) : (atEntry q s).tables = s.tables :=
  part_of_beside (·.tables) (fun _ => rfl) (beside_atEntry q s h)
@[simp] theorem tables_written (q u) : (written q u).tables = u.tables :=
  part_of_beside (·.tables) (fun _ => rfl) (beside_written q u)
@[simp] theorem ctxs_atEntry (q s) (h : Authorised q s) : (atEntry q s).ctxs = s.ctxs :=
  part_of_beside (·.ctxs) (fun _ => rfl) (beside_atEntry q s h)
@[simp] theorem ctxs_written (q u) : (written q u).ctxs = u.ctxs :=
  part_of_beside (·.ctxs) (fun _ => rfl) (beside_written q u)
@[simp] theorem held_atEntry (q s) (h : Authorised q s) : (atEntry q s).held = s.held :=
  part_of_beside (·.held) (fun _ => rfl) (beside_atEntry q s h)
@[simp] theorem held_written (q u) : (written q u).held = u.held :=
  part_of_beside (·.held) (fun _ => rfl) (beside_written q u)
@[simp] theorem tracks_atEntry (q s) (h : Authorised q s) : (atEntry q s).tracks = s.tracks :=
  part_of_beside (·.tracks) (fun _ => rfl) (beside_atEntry q s h)
@[simp] theorem tracks_written (q u) : (written q u).tracks = u.tracks :=
  part_of_beside (·.tracks) (fun _ => rfl) (beside_written q u)
@[simp] theorem accesses_atEntry (q s) (h : Authorised q s) : (atEntry q s).accesses = s.accesses :=
  part_of_beside (·.accesses) (fun _ => rfl) (beside_atEntry q s h)
@[simp] theorem accesses_written (q u) : (written q u).accesses = u.accesses :=
  part_of_beside (·.accesses) (fun _ => rfl) (beside_written q u)
@[simp] theorem pkts_atEntry (q s) (h : Authorised q s) : (atEntry q s).pkts = s.pkts :=
  part_of_beside (·.pkts) (fun _ => rfl) (beside_atEntry q s h)
@[simp] theorem pkts_written (q u) : (written q u).pkts = u.pkts :=
  part_of_beside (·.pkts) (fun _ => rfl) (beside_written q u)
@[simp] theorem ports_atEntry (q s) (h : Authorised q s) : (atEntry q s).ports = s.ports :=
  part_of_beside (·.ports) (fun _ => rfl) (beside_atEntry q s h)
@[simp] theorem ports_written (q u) : (written q u).ports = u.ports :=
  part_of_beside (·.ports) (fun _ => rfl) (beside_written q u)
@[simp] theorem cards_atEntry (q s) (h : Authorised q s) : (atEntry q s).cards = s.cards :=
  part_of_beside (·.cards) (fun _ => rfl) (beside_atEntry q s h)
@[simp] theorem cards_written (q u) : (written q u).cards = u.cards :=
  part_of_beside (·.cards) (fun _ => rfl) (beside_written q u)
@[simp] theorem colls_atEntry (q s) (h : Authorised q s) : (atEntry q s).colls = s.colls :=
  part_of_beside (·.colls) (fun _ => rfl) (beside_atEntry q s h)
@[simp] theorem colls_written (q u) : (written q u).colls = u.colls :=
  part_of_beside (·.colls) (fun _ => rfl) (beside_written q u)
@[simp] theorem mer_atEntry (q s) (h : Authorised q s) : (atEntry q s).mer = s.mer :=
  part_of_beside (·.mer) (fun _ => rfl) (beside_atEntry q s h)
@[simp] theorem mer_written (q u) : (written q u).mer = u.mer :=
  part_of_beside (·.mer) (fun _ => rfl) (beside_written q u)
@[simp] theorem faults_atEntry (q s) (h : Authorised q s) : (atEntry q s).faults = s.faults :=
  part_of_beside (·.faults) (fun _ => rfl) (beside_atEntry q s h)
@[simp] theorem faults_written (q u) : (written q u).faults = u.faults :=
  part_of_beside (·.faults) (fun _ => rfl) (beside_written q u)
@[simp] theorem power_atEntry (q s) (h : Authorised q s) : (atEntry q s).power = s.power :=
  part_of_beside (·.power) (fun _ => rfl) (beside_atEntry q s h)
@[simp] theorem power_written (q u) : (written q u).power = u.power :=
  part_of_beside (·.power) (fun _ => rfl) (beside_written q u)
@[simp] theorem test_atEntry (q s) (h : Authorised q s) : (atEntry q s).test = s.test :=
  part_of_beside (·.test) (fun _ => rfl) (beside_atEntry q s h)
@[simp] theorem test_written (q u) : (written q u).test = u.test :=
  part_of_beside (·.test) (fun _ => rfl) (beside_written q u)
@[simp] theorem mem_atEntry (q s) (h : Authorised q s) : (atEntry q s).mem = s.mem :=
  part_of_beside (·.mem) (fun _ => rfl) (beside_atEntry q s h)
@[simp] theorem mem_written (q u) : (written q u).mem = u.mem :=
  part_of_beside (·.mem) (fun _ => rfl) (beside_written q u)
@[simp] theorem nextId_atEntry (q s) (h : Authorised q s) : (atEntry q s).nextId = s.nextId :=
  part_of_beside (·.nextId) (fun _ => rfl) (beside_atEntry q s h)
@[simp] theorem nextId_written (q u) : (written q u).nextId = u.nextId :=
  part_of_beside (·.nextId) (fun _ => rfl) (beside_written q u)
@[simp] theorem free_atEntry (q s) (h : Authorised q s) : (atEntry q s).free = s.free :=
  part_of_beside (·.free) (fun _ => rfl) (beside_atEntry q s h)
@[simp] theorem free_written (q u) : (written q u).free = u.free :=
  part_of_beside (·.free) (fun _ => rfl) (beside_written q u)

end Sys2Proof.Machine
end

