-- ==== Sys2Proof/WellFormed.lean ====
section
/-! DEFINITION. When a command is well formed: its byte strings have the length that their carrier gives
them, and its lists name each thing once. A meaning is total on every command; these are the commands that
the outside world can give. -/

namespace Sys2Proof

/-- No element of a list stands in it twice. -/
def distinct {α : Type} [DecidableEq α] : List α → Bool
  | [] => true
  | x :: r => !r.contains x && distinct r

/-- A host port access carries at least one byte; which lengths an aperture access may have, R71 says. -/
def HostReq.wf (h : HostReq) : Bool := decide (1 ≤ h.len)

/-- A packet on a port: a payload of whole 64-byte units, at most eight (R266). -/
def WirePacket.wf (p : WirePacket) : Bool := decide (p.payload.length % 64 = 0) && decide (p.payload.length ≤ 512)

/-- The commands whose operands fit their carriers. -/
def Instr.wf : Instr → Bool
  | .apertureRead h _ => h.wf
  | .apertureWrite h _ enables data _ => h.wf && decide (enables.length = h.len) && decide (data.length = h.len)
  | .timePageRead o len _ => decide (1 ≤ len) && decide (o.val + len ≤ 4096)
  | .dictionaryWrite _ _ _ value => decide (value.length < 65536)
  | .slotWrite _ o (.read _ len) data => decide (1 ≤ len) && decide (o.val + len ≤ 4096) && data.isEmpty
  | .slotWrite _ o (.write enables) data =>
    decide (enables.length = data.length) && decide (data.length ≤ 64) && decide (o.val + data.length ≤ 4096)
  | .dataPacketReceive _ p => p.wf
  | .cascadePacketReceive _ _ p => p.wf
  | .cardInstall _ card => decide (card.length = 1088)
  | .trainingSetReceive _ groups => decide (groups.length = 32)
  | .checkWindowEnd _ counts => distinct (counts.map fun c => c.lane) && counts.all fun c => decide (c.errors ≤ c.bits)
  | .codewordDecode _ _ symbols => decide (symbols.length = 240)
  | .scheduleWrite _ b => decide (b.length = 16)
  | .sensorRead readings => distinct (readings.map fun r => r.1)
  | .sliceCheckEnd _ _ bits errors => decide (errors ≤ bits)
  | .keyReplace _ _ wrapped => decide (wrapped.length = 40)
  | .updateBlock _ b => decide (8 ≤ b.length) && decide (b.length ≤ 1032)
  | .cableIdentityWrite _ b => decide (b.length = 32)
  | .masterAbsent stripes => distinct stripes
  | .cascadeInstanceLoss _ stripes => distinct stripes
  | .receiverAdaptationDone _ _ dfe => decide (dfe.length = 12)
  | _ => true

end Sys2Proof
end

