-- ==== Sys2Proof/Tests/Slice0.lean ====
section
/-! SUPPORT. Tests: words and values that the spec writes out, ill-formed commands that the checks refuse, and for every
statement a state and operands that meet its hypotheses together. -/

namespace Sys2Proof.Tests
open Sys2Proof Sys2Proof.Machine

set_option Elab.async false
set_option linter.unusedVariables false

/-! ## States to test in -/

/-- A device in service: no reset runs, 2,500 s of local time have passed, and every key slot holds the key 1. -/
def base : State := { State.reset with
  clock := 10000000000000,
  faults := { Faults.reset with running := [] },
  mgmt := { Mgmt.reset with keys := [(0, 1), (1, 1), (2, 1), (3, 1)] } }

/-- An envelope from an address to the device of an inst in package slot 0 (R434: 02:4E:5A:96, slot, inst). -/
def envelopeTo (inst : Nat) : Envelope :=
  { dst := BitVec.ofNat 48 (0x024E5A960000 + inst), src := 7, vlan := false, etherType := 0x88B5, fcs := true }

/-- A write from the field network without authentication. -/
def w0 : WriteHdr := { path := .field (envelopeTo 0), xid := 1, auth := none }

/-- A write under a key slot, with the first counter and the right MAC. -/
def keyed (s : State) (i j : Nat) (v : Bytes) (slot : Nat) : WriteHdr :=
  { w0 with auth := some ⟨BitVec.ofNat 8 slot, 1, macOf (slotKey s slot) (macMessage i j slot v 1)⟩ }

/-- The checks of a write that need no authentication. -/
def takes (q : DictReq) (s : State) : Bool :=
  pathAccepted s q && dictionaryUp s && indexAnswers s q.index && !withheld s && s.cascade.storing.isEmpty && !q.tooLong &&
  q.write && decide (q.path.isHost = true → s.mgmt.lastSubmit ≠ some q.xid) &&
  !(s.mgmt.answers.any fun a => a.owner == ownerOf q.path && a.xid == q.xid) &&
  (returnReason s q).isNone && (earlyReason q).isNone && (scopeReason s q.index q.sub).isNone && (rangeReason q).isNone

theorem taken_of {q : DictReq} {s : State} (h : takes q s = true) (ha : Authorised q s) : WriteTaken q s := by
  simp only [takes, Bool.and_eq_true, Option.isNone_iff_eq_none, List.isEmpty_iff] at h
  simp_all [WriteTaken]
  intro e
  simp_all

/-- Parts of a conjunction that are decided together, and the rest of it. -/
theorem then2 {a b r : Prop} (h : a ∧ b) (hr : r) : a ∧ b ∧ r := ⟨h.1, h.2, hr⟩
theorem then4 {a b c d r : Prop} (h : a ∧ b ∧ c ∧ d) (hr : r) : a ∧ b ∧ c ∧ d ∧ r :=
  ⟨h.1, h.2.1, h.2.2.1, h.2.2.2, hr⟩

/-- A write without authentication is taken where the entry needs none. -/
theorem taken {w : WriteHdr} {i j : Nat} {v : Bytes} {s : State}
    (h : (takes (writeReq w i j v) s && w.auth.isNone && decide (accessOf i j ≠ .crit)) = true) :
    WriteTaken (writeReq w i j v) s := by
  simp only [Bool.and_eq_true, decide_eq_true_eq, Option.isNone_iff_eq_none] at h
  refine taken_of h.1.1 ?_
  simp only [Authorised, writeReq, h.1.2]
  exact h.2

/-- A write under a slot that the entry accepts, with a key and counter 0, is taken. -/
theorem taken_keyed {i j slot : Nat} {v : Bytes} {s : State}
    (h : takes (writeReq (keyed s i j v slot) i j v) s = true ∧ slot < 4 ∧
      (if accessOf i j = .crit then slotsFor i j else [0, 1, 2, 3]).contains slot = true ∧
      slotKey s slot ≠ 0 ∧ slotCounter s slot = 0 ∧ s.flash.worn = []) :
    WriteTaken (writeReq (keyed s i j v slot) i j v) s := by
  obtain ⟨h1, h2, h3, h4, h5, hw⟩ := h
  refine taken_of h1 ?_
  have hs : (BitVec.ofNat 8 slot).toNat = slot := by simp; omega
  simp only [Authorised, writeReq, keyed, authReason, hs, if_neg h4, ne_eq, h5, hw, and_true]
  by_cases hc : accessOf i j = .crit <;> simp [hc] at h3 ⊢ <;> first | exact h3 | omega

/-! ## Values that the spec writes out -/

/-- R273: the check value of CRC-32C over the string "123456789". -/
theorem test_crc_check_value : crc32c [0x31, 0x32, 0x33, 0x34, 0x35, 0x36, 0x37, 0x38, 0x39] = 0xE3069283 := by
  decide +kernel

/-- R210: a full packet of 512 bytes occupies nine cells, one of 64 bytes two, one without payload one. -/
theorem test_footprint : footprint 512 = 9 ∧ footprint 64 = 2 ∧ footprint 0 = 1 := by decide

/-- R221: at the defaults the incast capacity is 524,288 units. -/
theorem test_incast_capacity : incastCapacity State.reset = 524288 := by decide +kernel

/-- A port of two octets at stage C whose round trip of the last interval is given, in ns. -/
def roundTrip (ns : Nat) : State := { base with
  ports := [(0, { Port.reset with
    state := .up, stage := some .c, txWidth := 2, rxWidth := 2,
    link := { Link.reset with rttClosed := true, rttLast := ns } })] }

/-- R291: the headroom of a 2-octet port at 94 ns is 41,600 bytes, and at 6,076 ns it is 2,542,656 bytes. -/
theorem test_headroom : headroom (roundTrip 94) 0 = 41600 ∧ headroom (roundTrip 6076) 0 = 2542656 := by
  decide +kernel

/-- R291: over 600 m of fibre the threshold of a V0 share of 1,638,400 bytes is half of it. -/
theorem test_threshold : xoffThreshold (roundTrip 6076) 0 0 = 819200 := by decide +kernel

/-- FIPS 197: the substitution of 0x53 is 0xED, and the two tables undo each other. -/
theorem test_aes_tables : aesSub 0x53 = 0xED ∧ ∀ x < 256, aesInvSub (aesSub x) = x := by decide +kernel

/-- R384: after reset every context is off. -/
theorem test_reset_context : (ctx State.reset 77).state = .off := by decide

/-- An empty queue lets one tick pass. -/
theorem test_idle : step State.reset = .next (tick State.reset) := rfl

/-! ## Ill-formed commands -/

/-- A host access and a data packet as they should be. -/
def fitReq : HostReq := { chan := 0, ctx := 0, strict := false, thread := 0, addr := 0, len := 2 }
def fitPacket : WirePacket := { header := 0, payload := zeros 64, codes := [], first := 0 }

theorem test_wf_fit : (Instr.apertureWrite fitReq none [true, true] [1, 2] false).wf = true ∧
    (Instr.dataPacketReceive 0 fitPacket).wf = true ∧ (Instr.sensorRead [(0, 1), (1, 1)]).wf = true := by decide

theorem test_wf_host : (Instr.apertureRead { fitReq with len := 0 } none).wf = false ∧
    (Instr.apertureWrite { fitReq with len := 0 } none [] [] false).wf = false ∧
    (Instr.apertureWrite fitReq none [true] [1, 2] false).wf = false ∧
    (Instr.apertureWrite fitReq none [true, true] [1] false).wf = false ∧
    (Instr.timePageRead 0 0 0).wf = false ∧ (Instr.timePageRead 4095 2 0).wf = false := by decide

theorem test_wf_dictionary : (Instr.dictionaryWrite w0 0 0 (List.replicate 65536 0)).wf = false := by decide +kernel

theorem test_wf_slot : (Instr.slotWrite 0 0 (.write [true]) []).wf = false ∧
    (Instr.slotWrite 0 0 (.write (List.replicate 65 true)) (List.replicate 65 0)).wf = false ∧
    (Instr.slotWrite 0 4095 (.write [true, true]) [1, 2]).wf = false ∧
    (Instr.slotWrite 0 4000 (.read 0 97) []).wf = false := by decide

theorem test_wf_packet : (Instr.dataPacketReceive 0 { fitPacket with payload := zeros 63 }).wf = false ∧
    (Instr.cascadePacketReceive 1 (some 0) { fitPacket with payload := zeros 576 }).wf = false := by decide +kernel

theorem test_wf_lengths : (Instr.cardInstall w0 [0]).wf = false ∧ (Instr.trainingSetReceive 0 []).wf = false ∧
    (Instr.codewordDecode 0 0 [0]).wf = false ∧ (Instr.scheduleWrite w0 [0]).wf = false ∧
    (Instr.keyReplace w0 0 [0]).wf = false ∧ (Instr.updateBlock w0 [0]).wf = false ∧
    (Instr.updateBlock w0 (zeros 1033)).wf = false ∧ (Instr.cableIdentityWrite w0 [0]).wf = false ∧
    (Instr.receiverAdaptationDone 0 0 [0]).wf = false := by decide +kernel

theorem test_wf_lists : (Instr.checkWindowEnd 0 [⟨3, 10, 1⟩, ⟨3, 10, 2⟩]).wf = false ∧
    (Instr.checkWindowEnd 0 [⟨3, 1, 2⟩]).wf = false ∧ (Instr.sensorRead [(4, 1), (4, 2)]).wf = false ∧
    (Instr.sliceCheckEnd 0 .reference 1 2).wf = false ∧ (Instr.masterAbsent [2, 2]).wf = false ∧
    (Instr.cascadeInstanceLoss 1 [5, 5]).wf = false := by decide

/-! ## The hypotheses of the statements -/

/-- The hypotheses of EmptyQueueTicks are met. -/
theorem test_hypotheses_of_EmptyQueueTicks :
  (∃ s : State, EdgesPass s none none none) :=
  ⟨base, (by unfold EdgesPass QuietPorts; decide +kernel)⟩

/-- The hypotheses of PulsesFiltered are met. -/
theorem test_hypotheses_of_PulsesFiltered :
  (∃ (s : State) (n : Nat) (e : PinEdge), (s.pending = []) ∧ (QuietPorts s) ∧ (s.pins.cutEdge = some (n + 2, e)) ∧ (s.pins.goodEdge = none) ∧ s.pins.resetEdge = none) :=
  ⟨{ base with pins := { Pins.reset with cutEdge := some (5, .fall) } }, 3, .fall, (by decide +kernel), (by unfold QuietPorts; decide +kernel), by decide +kernel⟩

/-- The hypotheses of StepKeepsInvariant are met. -/
theorem test_hypotheses_of_StepKeepsInvariant :
  (∃ s t : State, (Inv s) ∧ step s = .next t) :=
  ⟨base, tick base, (by unfold Machine.Inv; decide +kernel), rfl⟩

/-- The hypotheses of OtherCommandsLeaveMemory are met. -/
theorem test_hypotheses_of_OtherCommandsLeaveMemory :
  (∃ (c : Instr) (s t : State), (touchesMemory c = false) ∧ exec c s = .next t) :=
  ⟨.epochFlip, base, epochFlip base, (by decide +kernel), rfl⟩

/-- A table with one valid partition. -/
def oneKey : State := { base with tables := { base.tables with part := [(0, 0x0004000000000540)], keyFlag := [(0, 1)] } }

/-- The hypotheses of TablesWritten are met. -/
theorem test_hypotheses_of_TablesWritten :
  (∃ (w : WriteHdr) (v : BitVec 64) (s : State), (fld v.toNat 42 17 ≤ 65536) ∧ (fld v.toNat 24 18 + fld v.toNat 42 17 ≤ 262144) ∧ ((bitAt v.toNat 6 = true → fld v.toNat 8 16 ≠ 0 ∧ ∀ y ∈ s.tables.part, y.1 ≠ fld v.toNat 0 6 → ¬(bitAt y.2.toNat 6 = true ∧ fld y.2.toNat 8 16 = fld v.toNat 8 16))) ∧ ((bitAt v.toNat 6 = true ∨ partValid s (fld v.toNat 0 6) = false ∨ ∀ x ∈ s.ctxs, ¬(x.2.partEnt = fld v.toNat 0 6 ∧ x.2.state = .enabled))) ∧ WriteTaken (writeReq w 0x3100 1 (leBytes 8 v.toNat)) s) ∧
  (∃ (w : WriteHdr) (v : BitVec 32) (s : State), (fld v.toNat 0 4 ≤ 11) ∧ (fld v.toNat 10 2 ≠ 3) ∧ ((fld v.toNat 10 2 = 0 ∨ partValid s (fld v.toNat 4 6) = true)) ∧ WriteTaken (writeReq w 0x3400 1 (leBytes 4 v.toNat)) s) ∧
  (∃ (w : WriteHdr) (v : BitVec 32) (s : State), (fld v.toNat 0 4 ≤ 11) ∧ ((fld v.toNat 10 8 = 0 ∨ keyFlag s (fld v.toNat 0 4) (fld v.toNat 4 6) ≠ 0)) ∧ (shareSum s (fld v.toNat 0 4) - minShare s (fld v.toNat 0 4) (fld v.toNat 4 6) + fld v.toNat 10 8 ≤ 256) ∧ WriteTaken (writeReq w 0x3A00 1 (leBytes 4 v.toNat)) s) ∧
  (∃ (w : WriteHdr) (v : BitVec 32) (s : State), ∃ i, (i = wsel s w 0x3200 1) ∧ ∃ h : i < 262144, (nodeInTorus s (BitVec.ofNat 16 (fld v.toNat 0 16)) = true) ∧ WriteTaken (writeReq w 0x3200 2 (leBytes 4 v.toNat)) s) ∧
  (∃ (w : WriteHdr) (v : BitVec 64) (s : State), ∃ i, (i = wsel s w 0x4200 1) ∧ ∃ h : i < 4194304, (windowTierOk v.toNat = true) ∧ (windowEntryOk (ownNode s) v.toNat = true) ∧ WriteTaken (writeReq w 0x4200 2 (leBytes 8 v.toNat)) s) ∧
  (∃ (w : WriteHdr) (v : BitVec 64) (s : State), ∃ i, (i = wsel s w 0x4210 1) ∧ ∃ h : i < 256, (descriptorOk v.toNat = true) ∧ WriteTaken (writeReq w 0x4210 2 (leBytes 8 v.toNat)) s) :=
  ⟨⟨keyed (base) 0x3100 1 (leBytes 8 0x0004000000000540) 2, 0x0004000000000540, base, then4 (by decide +kernel) (taken_keyed (by decide +kernel))⟩,
   ⟨keyed (oneKey) 0x3400 1 (leBytes 4 0x400) 2, 0x400, oneKey, (by decide +kernel), then2 (by decide +kernel) (taken_keyed (by decide +kernel))⟩,
   ⟨keyed (oneKey) 0x3A00 1 (leBytes 4 0x40000) 2, 0x40000, oneKey, (by decide +kernel), then2 (by decide +kernel) (taken_keyed (by decide +kernel))⟩,
   ⟨w0, 0x10000, base, _, rfl, (by decide), (by decide +kernel), (taken (by decide +kernel))⟩,
   ⟨w0, 0, base, _, rfl, (by decide), then2 (by decide +kernel) (taken (by decide +kernel))⟩,
   ⟨w0, 0, base, _, rfl, (by decide), (by decide +kernel), (taken (by decide +kernel))⟩⟩

/-- The hypotheses of RoutingBanksWritten are met. -/
theorem test_hypotheses_of_RoutingBanksWritten :
  (∃ (w : WriteHdr) (v : BitVec 8) (s : State), ∃ b, (b = wsel s w 0x3700 1) ∧ ∃ i, (i = wsel s w 0x3700 2) ∧ (i < 65536) ∧ (b < 2) ∧ (bankOpen s b = true) ∧ (fld v.toNat 0 2 ≠ 3) ∧ (¬(fld v.toNat 0 2 = 1 ∧ bitAt v.toNat 3 = true ∧ bitAt v.toNat 2 = false)) ∧ (¬(fld v.toNat 0 2 = 2 ∧ bitAt v.toNat 2 = true ∧ bitAt v.toNat 3 = false)) ∧ WriteTaken (writeReq w 0x3700 3 [v]) s) ∧
  (∃ (w : WriteHdr) (v : BitVec 64) (s : State), ∃ b, (b = wsel s w 0x3700 1) ∧ ∃ i, (i = wsel s w 0x3710 1) ∧ ∃ h : i < 4096, (b < 2) ∧ (bankOpen s b = true) ∧ (fld v.toNat 57 7 = 0) ∧ (fld v.toNat 38 2 ≠ 3) ∧ (¬(fld v.toNat 38 2 = 0 ∧ 11 < fld v.toNat 40 4)) ∧ (¬(fld v.toNat 38 2 = 1 ∧ bitAt v.toNat 37 = true)) ∧ WriteTaken (writeReq w 0x3710 2 (leBytes 8 v.toNat)) s) ∧
  (∃ (w : WriteHdr) (v : BitVec 8) (s : State), (v.toNat < 2) ∧ (bankState s.tables v.toNat = .free) ∧ (extentsCross s v.toNat = false) ∧ WriteTaken (writeReq w 0x3800 3 [v]) s) ∧
  (∃ (w : WriteHdr) (v : BitVec 8) (s : State), (v.toNat < 2) ∧ (bankState s.tables v.toNat = .ready) ∧ (s.tables.flipAt = 0) ∧ WriteTaken (writeReq w 0x3800 0xA [v]) s) :=
  ⟨⟨w0, 0x04, { base with mgmt := setSelected base 8 0x3700 1 1 |>.mgmt }, _, rfl, _, rfl, then2 (by decide +kernel) (then4 (by decide +kernel) (taken (by decide +kernel)))⟩,
   ⟨w0, 0x2000000000, setSelected base 8 0x3700 1 1, _, rfl, _, rfl, (by decide), then2 (by decide +kernel) (then4 (by decide +kernel) (taken (by decide +kernel)))⟩,
   ⟨w0, 1, base, (by decide +kernel), then2 (by decide +kernel) (taken (by decide +kernel))⟩,
   ⟨w0, 1, { base with tables := { base.tables with st1 := .ready } }, (by decide +kernel), then2 (by decide +kernel) (taken (by decide +kernel))⟩⟩

/-- The same device with its time LOCKED since 1,000 s. -/
def locked (s : State) : State := { s with mer := { s.mer with state := .locked, everLocked := true, count := 4000000000000 } }

/-- The same, its minute and chart interval having begun. -/
def minuted (s : State) : State := { locked s with
  mer := { (locked s).mer with minute := 16 }, charts := { s.charts with start := 4000000000000 } }

/-- The hypotheses of RoutingTablesFlip are met. -/
theorem test_hypotheses_of_RoutingTablesFlip :
  (∃ (w : WriteHdr) (time : BitVec 64) (s : State), (time ≠ 0) ∧ (bankState s.tables (1 - activeBank s) = .ready) ∧ (s.tables.flipAt = 0) ∧ (drainingBank s = none) ∧ (stamp s + 400000 ≤ time.toNat) ∧ WriteTaken (writeReq w 0x3800 4 (leBytes 8 time.toNat)) s) ∧
  (∃ (w : WriteHdr) (s : State), (s.tables.flipAt ≠ 0) ∧ (timeCome s s.tables.flipAt = false) ∧ WriteTaken (writeReq w 0x3800 4 (zeros 8)) s) ∧
  (∃ (w : WriteHdr) (s : State), (s.tables.flipAt = 0) ∧ WriteTaken (writeReq w 0x3800 4 (zeros 8)) s) ∧
  (∃ s : State, (s.tables.flipAt ≠ 0) ∧ inTurn s 4 s.tables.flipAt = true) ∧
  (∃ (s : State) (b : Nat) (q : Mt), (drainingBank s = some b) ∧ (s.tables.quiet = some q) ∧ passed s q (usMt (reg s 0x3800 6)) = true) ∧
  (∃ (s : State) (b : Nat), (drainingBank s = some b) ∧ timeCome s (s.tables.flipped + usMt (reg s 0x3800 5)) = true) :=
  ⟨⟨w0, 20000000000000, { base with tables := { base.tables with st1 := .ready } }, (by decide +kernel), then4 (by decide +kernel) (taken (by decide +kernel))⟩,
   ⟨w0, { base with tables := { base.tables with flipAt := 5 } }, then2 (by decide +kernel) (taken (by decide +kernel))⟩,
   ⟨w0, base, (by decide +kernel), (taken (by decide +kernel))⟩,
   ⟨locked { base with tables := { base.tables with flipAt := 5 } }, by decide +kernel⟩,
   ⟨{ base with tables := { base.tables with st1 := .draining, quiet := some 0 } }, 1, 0, by decide +kernel⟩,
   ⟨locked { base with tables := { base.tables with st1 := .draining } }, 1, by decide +kernel⟩⟩

/-- A port of two octets that works at stage C, heard and beaconed just now. -/
def upPort : Port := { Port.reset with state := .up, stage := some .c, outcome := 1, txWidth := 2, rxWidth := 2, link := { Link.reset with heard := 10000000000000, seenByPeer := true, rttAny := true, rttOpen := 94 } }

/-- Port P0 works. -/
def upBase : State := { base with ports := tput base.ports 0 upPort }

/-- Port P0 works and leads along +x. -/
def dirUp : State := setRegAt upBase 0x3600 2 0 1

/-- The hypotheses of DirectionsWritten are met. -/
theorem test_hypotheses_of_DirectionsWritten :
  (∃ (w : WriteHdr) (v : BitVec 8) (s : State), ∃ p, (p = wsel s w 0x3600 1) ∧ (p ≤ 11) ∧ (v.toNat ≤ 6) ∧ (working s p = false) ∧ WriteTaken (writeReq w 0x3600 2 [v]) s) ∧
  (∃ (w : WriteHdr) (d : Fin 3) (v : BitVec 8) (s : State), (v.toNat < torusSize s d) ∧ ((∀ p, p ∈ twelve → inDim s d p = true → working s p = false)) ∧ WriteTaken (writeReq w (0x3600) (5 + d.val) [v]) s) ∧
  (∃ (w : WriteHdr) (v : BitVec 8) (l : BitVec 16) (s : State), (working s (wsel s w 0x3600 1) = true) ∧ (WriteTaken (writeReq w 0x3600 2 [v]) s) ∧ (WriteTaken (writeReq w 0x3600 3 (leBytes 2 l.toNat)) s) ∧ WriteTaken (writeReq w 0x3600 4 (leBytes 2 l.toNat)) s) ∧
  (∃ (w : WriteHdr) (d : Fin 3) (v : BitVec 8) (p : Nat) (s : State), (p ∈ twelve) ∧ (inDim s d p = true) ∧ (working s p = true) ∧ WriteTaken (writeReq w 0x3600 (5 + d.val) [v]) s) :=
  ⟨⟨w0, 6, base, _, rfl, (by decide +kernel), then2 (by decide +kernel) (taken (by decide +kernel))⟩,
   ⟨w0, 2, 3, base, then2 (by decide +kernel) (taken (by decide +kernel))⟩,
   ⟨w0, 1, 1, upBase, (by decide +kernel), (taken (by decide +kernel)), (taken (by decide +kernel)), (taken (by decide +kernel))⟩,
   ⟨w0, 0, 1, 0, dirUp, (by decide +kernel), then2 (by decide +kernel) (taken (by decide +kernel))⟩⟩

/-- The hypotheses of WritesRefused are met. -/
theorem test_hypotheses_of_WritesRefused :
  (∃ (w : WriteHdr) (v : BitVec 64) (s : State), ((262144 < fld v.toNat 24 18 + fld v.toNat 42 17 ∨ 65536 < fld v.toNat 42 17 ∨ (bitAt v.toNat 6 = true ∧ ∃ y ∈ s.tables.part, y.1 ≠ fld v.toNat 0 6 ∧ bitAt y.2.toNat 6 = true ∧ fld y.2.toNat 8 16 = fld v.toNat 8 16))) ∧ WriteTaken (writeReq w 0x3100 1 (leBytes 8 v.toNat)) s) ∧
  (∃ (w : WriteHdr) (e : Nat × Nat) (v : Bytes) (s : State), (e ∈ [(0x2200, 7), (0x6400, 9), (0x6400, 0xB), (0x6000, 8), (0x6010, 5), (0x6100, 1), (0x6100, 5), (0x6200, 1)]) ∧ (w.path.isHost = true) ∧ (dictionaryUp s = true) ∧ (indexAnswers s e.1 = true) ∧ (withheld s = false) ∧ (s.flash.returned = false) ∧ (s.mgmt.lastSubmit ≠ some w.xid) ∧ s.mgmt.answers.find? (fun a => a.owner == ownerOf w.path && a.xid == w.xid) = none) :=
  ⟨⟨keyed (base) 0x3100 1 (leBytes 8 0x0400040000000000) 2, 0x0400040000000000, base, (by decide +kernel), (taken_keyed (by decide +kernel))⟩,
   ⟨{ path := .host 9, xid := 1, auth := none }, (0x6200, 1), [0], base, by decide +kernel⟩⟩

/-- A word with the given bytes at the given places. -/
def bytesAt (l : List (Nat × Nat)) : Nat := l.foldl (fun a x => a + x.2 * 2 ^ (8 * x.1)) 0

/-- The same device with context 5 as given. -/
def ctxBase (x : Ctx) : State := setCtx base 5 x

/-- A context that is ENABLED. -/
def onCtx : Ctx := { Ctx.reset with state := .enabled }

/-- The hypotheses of SlotWrites are met. -/
theorem test_hypotheses_of_SlotWrites :
  (∃ (c off : Fin 4096) (thread : BitVec 16) (len : Nat) (data : Bytes) (s : State), s.phase = .running) ∧
  (∃ (c off : Fin 4096) (en : List Bool) (data : Bytes) (s : State), (s.phase = .running) ∧ 1024 ≤ off.val) ∧
  (∃ (c off : Fin 4096) (en : List Bool) (data : Bytes) (s : State), (s.phase = .running) ∧ (off.val < 1024) ∧ (ctx s c).state ≠ .enabled) ∧
  (∃ (c off : Fin 4096) (data : Bytes) (s : State) (n : Nat), (s.phase = .running) ∧ ((ctx s c).state = .enabled) ∧ (off.val < 1024) ∧ (off.val % 64 = 0) ∧ (data.length = 64) ∧ (tget (ctx s c).slots (off.val / 64) = none) ∧ ((ctx s c).accept ≤ n) ∧ (n < (ctx s c).accept + 16) ∧ (n % 16 = off.val / 64) ∧ cmdSeq (BitVec.ofNat 512 (leNat data)) = n % 65536) ∧
  (∃ (c off : Fin 4096) (en : List Bool) (data : Bytes) (s : State), (s.phase = .running) ∧ ((ctx s c).state = .enabled) ∧ (off.val < 1024) ∧ (off.val % 64 ≠ 0 ∨ data.length ≠ 64 ∨ (tget (ctx s c).slots (off.val / 64)).isSome = true)) :=
  ⟨⟨5, 1024, 3, 8, [], base, (by decide +kernel)⟩,
   ⟨5, 1024, [], [], base, by decide +kernel⟩,
   ⟨5, 1023, [], [], base, by decide +kernel⟩,
   ⟨5, 64, bytesAt [(2, 17)] |> leBytes 64, ctxBase { onCtx with accept := 2 }, 17, by decide +kernel⟩,
   ⟨5, 63, [], [], ctxBase onCtx, by decide +kernel⟩⟩

/-- Context 5 is ENABLED and holds one command in its next slot. -/
def offered (l : List (Nat × Nat)) : State := ctxBase { onCtx with slots := [(0, BitVec.ofNat 512 (bytesAt l))] }

/-- The same on a device whose time is LOCKED. -/
def offeredLocked (l : List (Nat × Nat)) : State := locked (offered l)

/-- The command with the given bytes. -/
def word512 (l : List (Nat × Nat)) : BitVec 512 := BitVec.ofNat 512 (bytesAt l)

/-- The hypotheses of DataCommandsBegin are met. -/
theorem test_hypotheses_of_DataCommandsBegin :
  (∃ (c : Fin 4096) (b : BitVec 512) (s : State) (src dst : Side), (Acceptable s c 1 b) ∧ commandCheck s c b = .ok (src, dst)) ∧
  (∃ (c : Fin 4096) (b : BitVec 512) (s : State) (src dst : Side), (Acceptable s c 2 b) ∧ commandCheck s c b = .ok (src, dst)) ∧
  (∃ (c : Fin 4096) (b : BitVec 512) (s : State) (src dst : Side), (Acceptable s c 3 b) ∧ commandCheck s c b = .ok (src, dst)) ∧
  (∃ (c : Fin 4096) (b : BitVec 512) (s : State) (st : Status) (i : Instr) (k : Nat), ((i, k) ∈ [(Instr.copy c, 1), (.fill c, 2), (.strided c, 3)]) ∧ (Acceptable s c k b) ∧ (commandCheck s c b = .error st) ∧ st ≠ .ok) :=
  ⟨⟨5, word512 [(0, 1), (1, 12), (16, 64), (24, 128), (32, 1), (36, 8)], offered [(0, 1), (1, 12), (16, 64), (24, 128), (32, 1), (36, 8)], ownSide base, ownSide base, (by unfold Acceptable; decide +kernel), (by decide +kernel)⟩,
   ⟨5, word512 [(0, 2), (1, 8), (24, 128), (33, 1)], offered [(0, 2), (1, 8), (24, 128), (33, 1)], ownSide base, ownSide base, (by unfold Acceptable; decide +kernel), (by decide +kernel)⟩,
   ⟨5, word512 [(0, 3), (1, 12), (16, 64), (24, 128), (32, 3), (36, 1), (38, 2), (40, 64), (52, 128)], offered [(0, 3), (1, 12), (16, 64), (24, 128), (32, 3), (36, 1), (38, 2), (40, 64), (52, 128)], ownSide base, ownSide base, (by unfold Acceptable; decide +kernel), (by decide +kernel)⟩,
   ⟨5, word512 [(0, 1), (1, 12)], offered [(0, 1), (1, 12)], .oversize, .copy 5, 1, (by decide +kernel), (by unfold Acceptable; decide +kernel), by decide +kernel⟩⟩

/-- A command in progress. -/
def aCmd (num : Nat) (l : List (Nat × Nat)) (ph : CmdPhase) (total : Nat) : Cmd := { newCmd num (word512 l) ph with total := total }

/-- Context 5 is ENABLED and has commands in progress. -/
def running5 (l : List Cmd) : State := locked (ctxBase { onCtx with accept := 3, cmds := l })

/-- The hypotheses of StageInAndFenceRun are met. -/
theorem test_hypotheses_of_StageInAndFenceRun :
  (∃ (c : Fin 4096) (b : BitVec 512) (s : State) (src dst : Side), (Acceptable s c 4 b) ∧ (commandCheck s c b = .ok (src, dst)) ∧ inTurn s 9 (cmdB b 40 8) = true) ∧
  (∃ (c : Fin 4096) (b : BitVec 512) (s : State) (src dst : Side), (Acceptable s c 4 b) ∧ (commandCheck s c b = .ok (src, dst)) ∧ (inTurn s 9 (cmdB b 40 8) = false) ∧ engineWaiting s c < 256) ∧
  (∃ (c : Fin 4096) (num : Nat) (m : Cmd) (s : State), (cmdOf s c num = some m) ∧ (m.phase = .waiting) ∧ (m.pos = 0) ∧ (m.pos < m.total) ∧ (cmdType m.bytes = 4) ∧ inTurn s 9 (cmdB m.bytes 40 8) = true) ∧
  (∃ (c : Fin 4096) (num : Nat) (m : Cmd) (s : State), (cmdOf s c num = some m) ∧ (cmdType m.bytes = 4) ∧ (cmdB m.bytes 48 8 ≠ 0) ∧ (inTurn s 9 (cmdB m.bytes 48 8) = true) ∧ m.late = false) ∧
  (∃ (c : Fin 4096) (b : BitVec 512) (s : State), Acceptable s c 5 b) ∧
  (∃ (c : Fin 4096) (num : Nat) (m : Cmd) (s : State), (cmdOf s c num = some m) ∧ (m.phase = .fencing) ∧ (s.phase ≠ .cut) ∧ ((∀ y ∈ (ctx s c).cmds, m.num ≤ y.num)) ∧ (bitAt m.bytes.toNat 71 = true → cmdB m.bytes 16 8 ≤ counterOf (ctx s c) (fld m.bytes.toNat 64 6))) ∧
  (∃ (c : Fin 4096) (num : Nat) (m : Cmd) (s : State) (y : Cmd), (cmdOf s c num = some m) ∧ (y ∈ (ctx s c).cmds) ∧ y.num < m.num) :=
  ⟨⟨5, word512 [(0, 4), (16, 64), (24, 128), (32, 1)], offeredLocked [(0, 4), (16, 64), (24, 128), (32, 1)], ownSide base, ownSide base, (by unfold Acceptable; decide +kernel), by decide +kernel⟩,
   ⟨5, word512 [(0, 4), (16, 64), (24, 128), (32, 1), (47, 1)], offeredLocked [(0, 4), (16, 64), (24, 128), (32, 1), (47, 1)], ownSide base, ownSide base, (by unfold Acceptable; decide +kernel), by decide +kernel⟩,
   ⟨5, 2, aCmd 2 [(0, 4), (32, 1)] .waiting 1, running5 [aCmd 2 [(0, 4), (32, 1)] .waiting 1], by decide +kernel⟩,
   ⟨5, 2, aCmd 2 [(0, 4), (32, 1), (48, 1)] .waiting 1, running5 [aCmd 2 [(0, 4), (32, 1), (48, 1)] .waiting 1], by decide +kernel⟩,
   ⟨5, word512 [(0, 5)], offered [(0, 5)], (by unfold Acceptable; decide +kernel)⟩,
   ⟨5, 2, aCmd 2 [(0, 5)] .fencing 0, running5 [aCmd 2 [(0, 5)] .fencing 0], by decide +kernel⟩,
   ⟨5, 2, aCmd 2 [(0, 5)] .fencing 0, running5 [aCmd 1 [(0, 4)] .waiting 1, aCmd 2 [(0, 5)] .fencing 0], aCmd 1 [(0, 4)] .waiting 1, by decide +kernel⟩⟩

/-- The hypotheses of ImmediateCommands are met. -/
theorem test_hypotheses_of_ImmediateCommands :
  (∃ (c : Fin 4096) (b : BitVec 512) (s : State), (Acceptable s c 8 b) ∧ phaseHintOk b = true) ∧
  (∃ (c : Fin 4096) (b : BitVec 512) (s : State), (Acceptable s c 8 b) ∧ phaseHintOk b = false) ∧
  (∃ (c : Fin 4096) (b : BitVec 512) (s : State), (Acceptable s c 9 b) ∧ bitAt b.toNat 71 = true) ∧
  (∃ (c : Fin 4096) (b : BitVec 512) (s : State), (Acceptable s c 9 b) ∧ (bitAt b.toNat 71 = false) ∧ counterOf (ctx s c) (fld b.toNat 72 6) + 1 < cmdB b 16 8) ∧
  (∃ (c : Fin 4096) (b : BitVec 512) (s : State), (Acceptable s c 9 b) ∧ (bitAt b.toNat 71 = false) ∧ ((ctx s c).mirror = 0) ∧ (cmdB b 16 8 ≤ counterOf (ctx s c) (fld b.toNat 72 6)) ∧ tget (ctx s c).arms (fld b.toNat 64 2) = none) ∧
  (∃ (c : Fin 4096) (b : BitVec 512) (s : State) (type : Nat), (Acceptable s c type b) ∧ (type = 0 ∨ 10 ≤ type)) :=
  ⟨⟨5, word512 [(0, 8), (16, 1), (24, 1)], offered [(0, 8), (16, 1), (24, 1)], (by unfold Acceptable; decide +kernel), (by decide +kernel)⟩,
   ⟨5, word512 [(0, 8)], offered [(0, 8)], (by unfold Acceptable; decide +kernel), (by decide +kernel)⟩,
   ⟨5, word512 [(0, 9), (8, 128)], offered [(0, 9), (8, 128)], (by unfold Acceptable; decide +kernel), (by decide +kernel)⟩,
   ⟨5, word512 [(0, 9), (16, 2)], offered [(0, 9), (16, 2)], (by unfold Acceptable; decide +kernel), by decide +kernel⟩,
   ⟨5, word512 [(0, 9)], offered [(0, 9)], (by unfold Acceptable; decide +kernel), by decide +kernel⟩,
   ⟨5, word512 [(0, 10)], offered [(0, 10)], 10, (by unfold Acceptable; decide +kernel), (by decide +kernel)⟩⟩

/-- Context 0 as given, and a valid partition entry 0. -/
def ctx0 (x : Ctx) : State := setCtx oneKey 0 x

/-- The hypotheses of ContextsChangeState are met. -/
theorem test_hypotheses_of_ContextsChangeState :
  (∃ (w : WriteHdr) (s : State), ∃ c, (c = wsel s w 0x4000 1) ∧ ((ctx s c).state = .off) ∧ (partValid s (ctx s c).partEnt = true) ∧ WriteTaken (writeReq w 0x4000 3 [1]) s) ∧
  (∃ (w : WriteHdr) (s : State), ∃ c, (c = wsel s w 0x4000 1) ∧ ((ctx s c).state = .enabled) ∧ ((ctx s c).mirror = 0) ∧ (Quiet s c) ∧ WriteTaken (writeReq w 0x4000 3 [2]) s) ∧
  (∃ (w : WriteHdr) (s : State), ∃ c, (c = wsel s w 0x4000 1) ∧ ((ctx s c).state = .halted) ∧ WriteTaken (writeReq w 0x4000 3 [3]) s) ∧
  (∃ (c : Fin 4096) (s : State), ((ctx s c).state = .draining) ∧ ((ctx s c).halting = false) ∧ ((ctx s c).mirror = 0) ∧ Quiet s c) ∧
  (∃ (c : Fin 4096) (s : State), ((ctx s c).state = .draining) ∧ ((ctx s c).halting = false) ∧ ((ctx s c).mirror = 0) ∧ (Quiet s c) ∧ (ctx s c).drainAt + (ctx s c).drainFor ≤ s.clock) ∧
  (∃ (c : Fin 4096) (s : State), ((ctx s c).state = .draining) ∧ s.clock < (ctx s c).drainAt + (ctx s c).drainFor) ∧
  (∃ (c : Fin 4096) (s : State), ((ctx s c).state = .draining) ∧ ((ctx s c).halting = false) ∧ ((ctx s c).mirror ≠ 0) ∧ ((ctx s c).mirrorOut = none) ∧ (s.phase ≠ .cut) ∧ Quiet s c) :=
  ⟨⟨w0, oneKey, _, rfl, then2 (by decide +kernel) (taken (by decide +kernel))⟩,
   ⟨w0, ctx0 onCtx, _, rfl, then2 (by decide +kernel) ⟨(by unfold Quiet; decide +kernel), (taken (by decide +kernel))⟩⟩,
   ⟨w0, ctx0 { onCtx with state := .halted }, _, rfl, (by decide +kernel), (taken (by decide +kernel))⟩,
   ⟨5, ctxBase { onCtx with state := .draining }, (by decide +kernel), then2 (by decide +kernel) (by unfold Quiet; decide +kernel)⟩,
   ⟨5, ctxBase { onCtx with state := .draining }, (by decide +kernel), then2 (by decide +kernel) ⟨(by unfold Quiet; decide +kernel), (by decide +kernel)⟩⟩,
   ⟨5, ctxBase { onCtx with state := .draining, drainAt := 10000000000000, drainFor := 1 }, by decide +kernel⟩,
   ⟨5, ctxBase { onCtx with state := .draining, mirror := 64 }, (by decide +kernel), then4 (by decide +kernel) (by unfold Quiet; decide +kernel)⟩⟩

/-- The hypotheses of MirrorWrites are met. -/
theorem test_hypotheses_of_MirrorWrites :
  (∃ (c : Fin 4096) (s : State), ((ctx s c).mirror ≠ 0) ∧ ((ctx s c).mirrorDue.isSome = true) ∧ ((ctx s c).halting = false) ∧ (((ctx s c).state = .enabled ∨ (ctx s c).state = .draining)) ∧ ((ctx s c).mirrorOut = none) ∧ s.phase ≠ .cut) ∧
  (∃ (c : Fin 4096) (s : State) (w : Bytes × List Nat), ((ctx s c).mirrorOut = some w) ∧ ((ctx s c).mirrorNext = false) ∧ ((ctx s c).halting = false) ∧ s.phase ≠ .cut) ∧
  (∃ (c : Fin 4096) (s : State) (w : Bytes × List Nat), ((ctx s c).mirrorOut = some w) ∧ ((ctx s c).mirrorNext = false) ∧ ((ctx s c).halting = true) ∧ s.phase ≠ .cut) ∧
  (∃ (c : Fin 4096) (s : State) (w : Bytes × List Nat), ((ctx s c).mirrorOut = some w) ∧ ((ctx s c).mirrorNext = false) ∧ ((ctx s c).halting = false) ∧ awake s = true) ∧
  (∃ (c : Fin 4096) (s : State) (w : Bytes × List Nat), ((ctx s c).mirrorOut = some w) ∧ ((ctx s c).mirrorNext = true) ∧ ((ctx s c).halting = false) ∧ ((ctx s c).mirror ≠ 0) ∧ s.phase ≠ .cut) :=
  ⟨⟨5, ctxBase { onCtx with mirror := 64, mirrorDue := some 0 }, by decide +kernel⟩,
   ⟨5, ctxBase { onCtx with mirror := 64, mirrorOut := some ([], [7]) }, ([], [7]), by decide +kernel⟩,
   ⟨5, ctxBase { onCtx with mirror := 64, state := .draining, halting := true, mirrorOut := some ([], [7]) }, ([], [7]), by decide +kernel⟩,
   ⟨5, ctxBase { onCtx with mirror := 64, mirrorOut := some ([], [7]) }, ([], [7]), by decide +kernel⟩,
   ⟨5, ctxBase { onCtx with mirror := 64, mirrorOut := some ([], [7]), mirrorNext := true }, ([], [7]), by decide +kernel⟩⟩

/-- A request of context 5 at an aperture address. -/
def req5 (addr : BitVec 64) (len : Nat) : HostReq := { chan := 1, ctx := 5, strict := false, thread := 7, addr := addr, len := len }

/-- Partition 0 with key 5, whose ranks 0 and 1 are the nodes 0 and 1; both have incarnation 1. -/
def rankHere (s : State) : State := { s with
  tables := { s.tables with part := [(0, 0x0004000000000540)], rank := [(0, 0x10000), (1, 0x10001)], inc := [(0, 1), (1, 1)] } }

/-- The hypotheses of HostRequests are met. -/
theorem test_hypotheses_of_HostRequests :
  (∃ (h : HostReq) (a : Option AtomicArgs) (s : State), (s.phase = .running) ∧ apTag h.addr ≠ 0xE) ∧
  (∃ (h : HostReq) (a : Option AtomicArgs) (en : List Bool) (d : Bytes) (pty : Bool) (s : State), (s.phase = .running) ∧ apTag h.addr ≠ 0xE) ∧
  (∃ (chan : Fin 8) (addr : BitVec 64) (thread : BitVec 16) (s : State), s.phase = .running) ∧
  (∃ (chan : Fin 8) (addr : BitVec 64) (len : Nat) (thread : BitVec 16) (s : State), s.phase = .running) ∧
  (∃ (h : HostReq) (a : Option AtomicArgs) (s : State) (side : Side), ApertureGood s h a.isSome side) ∧
  (∃ (h : HostReq) (en : List Bool) (d : Bytes) (s : State) (side : Side) (o l : Nat), (ApertureGood s h false side) ∧ (enabledRuns (enablesOf en h.len) 0 = [(o, l)]) ∧ dataShapeOk (apOffset h.addr + o) l = true) ∧
  (∃ (h : HostReq) (a : AtomicArgs) (en : List Bool) (d : Bytes) (s : State) (side : Side), ApertureGood s h true side) ∧
  (∃ (h : HostReq) (en : List Bool) (d : Bytes) (s : State) (side : Side), (ApertureGood s h false side) ∧ enabledRuns (enablesOf en h.len) 0 = []) ∧
  (∃ (h : HostReq) (a : Option AtomicArgs) (s : State) (st : Status), (s.phase = .running) ∧ (apTag h.addr = 0xE) ∧ (hostHeld s h = false) ∧ (apertureCheck s h a.isSome = .error st) ∧ (st ≠ .ok) ∧ st ≠ .poisoned) :=
  ⟨⟨req5 0 8, none, base, by decide +kernel⟩,
   ⟨req5 0 8, none, [], [], false, base, by decide +kernel⟩,
   ⟨1, 0, 7, base, (by decide +kernel)⟩,
   ⟨1, 0, 8, 7, base, (by decide +kernel)⟩,
   ⟨req5 0xE000000000000000 8, none, rankHere (ctxBase onCtx), ownSide (rankHere base), (by unfold ApertureGood; decide +kernel)⟩,
   ⟨req5 0xE000000000000000 8, List.replicate 8 true, zeros 8, rankHere (ctxBase onCtx), ownSide (rankHere base), 0, 8, (by unfold ApertureGood; decide +kernel), by decide +kernel⟩,
   ⟨req5 0xE000000000000000 8, ⟨0, 1, 0⟩, List.replicate 8 true, zeros 8, rankHere (ctxBase onCtx), ownSide (rankHere base), (by unfold ApertureGood; decide +kernel)⟩,
   ⟨req5 0xE000000000000000 8, List.replicate 8 false, zeros 8, rankHere (ctxBase onCtx), ownSide (rankHere base), (by unfold ApertureGood; decide +kernel), (by decide +kernel)⟩,
   ⟨req5 0xE000000000000000 8, none, base, .notPerformed, by decide +kernel⟩⟩

/-- A loaded operation of context 5 that loops back. -/
def anOp : Op :=
  { id := 9, ctx := 5, origin := .aperture 1 7 0, kind := .load, strict := false, side := ownSide base, key := 0,
    sinc := 0, window := 0, offset := 0, len := 8, data := [], poison := 0, args := ⟨0, 0, 0⟩, notify := none,
    pos := 0, dest := none, held := 0, probed := 0, counted := false, room := none, drained := false }

/-- It is held for issue. -/
def heldBase : State := { ctxBase onCtx with held := [anOp], nextId := 10 }

/-- Tracking block 3 as given. -/
def blockBase (b : Block) : State := { base with blocks := [(3, b)] }

/-- The hypotheses of OperationsIssuedAndBlocksClosed are met. -/
theorem test_hypotheses_of_OperationsIssuedAndBlocksClosed :
  (∃ (id : Nat) (s s1 : State) (op0 op : Op) (b : Nat), (heldOp s id = some op0) ∧ (s.phase = .running) ∧ ((ctx s op0.ctx).state = .enabled) ∧ (fenced s op0 = false) ∧ (behind s op0 = false) ∧ (op0.strict = false) ∧ (itsTurn s op0 = true) ∧ (withMessage s op0 = some (s1, op)) ∧ (creditOk s1 op = true) ∧ (nextBlock s1 op.ctx = some b) ∧ ((block s1 b).used < 64) ∧ (gate s1 op (requestHeader s1 op (b * 64 + (block s1 b).used) (block s1 b).round) (footprint (requestPayload op).length) = .loop ∨ ∃ p vc, gate s1 op (requestHeader s1 op (b * 64 + (block s1 b).used) (block s1 b).round) (footprint (requestPayload op).length) = .send p vc)) ∧
  (∃ (b : Fin 1024) (s : State), ((block s b).owner.isSome = true) ∧ ((block s b).closed = false) ∧ ((block s b).last + 1024 ≤ s.clock) ∧ blockBusy s b = true) ∧
  (∃ (b : Fin 1024) (s : State), ((block s b).owner.isSome = true) ∧ ((block s b).closed = false) ∧ ((block s b).last + 1024 ≤ s.clock) ∧ blockBusy s b = false) ∧
  (∃ (b : Fin 1024) (s : State) (since : Nat), ((block s b).hold = some since) ∧ (since + 40000000 ≤ s.clock) ∧ (instReset s = false ∨ (block s b).stale = true)) :=
  ⟨⟨9, heldBase, heldBase, anOp, anOp, 0, (by decide +kernel), then2 (by decide +kernel) (then4 (by decide +kernel) ⟨rfl, (by decide +kernel), then2 (by decide +kernel) (Or.inl (by decide +kernel))⟩)⟩,
   ⟨3, { blockBase { freshBlock with owner := some 5 } with tracks := [(192, { op := anOp, round := 0, gen := 0, sent := true, paid := false, at_ := 0, epoch := 0 })] }, by decide +kernel⟩,
   ⟨3, blockBase { freshBlock with owner := some 5 }, by decide +kernel⟩,
   ⟨3, blockBase { freshBlock with hold := some 0 }, 0, by decide +kernel⟩⟩

/-- A header with the given fields at the given bits. -/
def hdr (l : List (Nat × Nat)) : BitVec 256 := BitVec.ofNat 256 (l.foldl (fun a x => a + x.2 * 2 ^ x.1) 0)

/-- The stored packet 9 from port P0. -/
def aPkt (l : List (Nat × Nat)) (data : Bytes) : Pkt :=
  { id := 9, header := hdr l, payload := data, acct := .ingress 0 0, inPort := some 0, since := 0, seq := 0, own := none,
    coll := none, hereToo := false, acked := false, routed := false, bank := 0, spoiled := 0 }

/-- Window 0 opens the first page of local memory to key 5 for everything. -/
def windowed : State := { rankHere base with
  tables := { (rankHere base).tables with windowDir := [(0, 0x8000400000)], window := [(0, 0x39)] } }

/-- It holds the packet. -/
def served (l : List (Nat × Nat)) (data : Bytes) : State := { windowed with pkts := [aPkt l data], nextId := 10 }

/-- A request of 64 bytes from node 1 for the first unit of window 0. -/
def reqTo (op : Nat) : List (Nat × Nat) := [(0, op), (24, 1), (32, 1), (56, 1), (72, 5), (154, 64)]

/-- The same for eight bytes. -/
def reqTo8 (op : Nat) : List (Nat × Nat) := [(0, op), (24, 1), (32, 1), (56, 1), (72, 5), (154, 8)]

/-- The hypotheses of RequestsReachMemory are met. -/
theorem test_hypotheses_of_RequestsReachMemory :
  (∃ (id : Nat) (s : State) (x : Pkt) (p : Place), (Servable s id opLoad x p) ∧ streamElsewhere s x p.ctrl = false) ∧
  (∃ (id : Nat) (s : State) (x : Pkt) (p : Place), (Servable s id opStore x p) ∧ (streamElsewhere s x p.ctrl = false) ∧ hNotify x.header = false) ∧
  (∃ (id : Nat) (s : State) (x : Pkt) (p : Place) (i : Instr) (op : Nat), ((i, op) ∈ [(Instr.atomicFetchRequest id, opAtomicFetch), (.atomicPostRequest id, opAtomicPost)]) ∧ (Servable s id op x p) ∧ (streamElsewhere s x (100 + p.unit) = false) ∧ ((sext s p.unit).inService = true) ∧ unitTakes s p.unit 64 = true) ∧
  (∃ (id : Nat) (s : State) (x : Pkt), (requestAt s id opNotify = some x) ∧ (roomToAnswer s x = true) ∧ (isLoop x = false) ∧ (mayNotify s (hNctx x.header) (hKey x.header) = true) ∧ s.phase ≠ .cut) :=
  ⟨⟨9, served (reqTo 0x10) [], aPkt (reqTo 0x10) [], placeOf false 0 0, (by unfold Servable; exact ⟨by decide +kernel, by decide +kernel, by decide +kernel, rfl⟩), (by decide +kernel)⟩,
   ⟨9, served (reqTo 0x20) (zeros 64), aPkt (reqTo 0x20) (zeros 64), placeOf false 0 0, (by unfold Servable; exact ⟨by decide +kernel, by decide +kernel, by decide +kernel, rfl⟩), by decide +kernel⟩,
   ⟨9, served (reqTo8 0x30) (zeros 64), aPkt (reqTo8 0x30) (zeros 64), placeOf false 0 0, .atomicFetchRequest 9, 0x30, (by decide +kernel), (by unfold Servable; exact ⟨by decide +kernel, by decide +kernel, by decide +kernel, rfl⟩), by decide +kernel⟩,
   ⟨9, { setCtx (served (reqTo 0x40 ++ [(172, 7)]) []) 7 onCtx with nextId := 10 }, aPkt (reqTo 0x40 ++ [(172, 7)]) [], by decide +kernel⟩⟩

/-- The entry of an operation of context 5. -/
def aTrack (op : Op) : Track := { op := op, round := 0, gen := 0, sent := true, paid := false, at_ := 0, epoch := 0 }

/-- An access to local memory for a request from node 1. -/
def anAccess (k : AccessKind) (n : Nat) (data : Bytes) : Access :=
  { id := 4, kind := k, pkt := none, header := hdr (reqTo 0x10), addr := 128, len := n, data := data, poison := 0, loop := false,
    ctrl := 0, drained := false, cells := 0, unc := false }

/-- It waits for memory. -/
def accessing (a : Access) : State := { windowed with accesses := [a], nextId := 10 }

/-- A card of two members with one figure. -/
def aCard (kinds fig : Nat) : Card := leBytes 64 (bytesAt [(0, 1), (4, kinds), (6, 1), (10, 1), (12, 1)]) ++ leBytes 1024 fig

/-- The fields of a figure, by bit. -/
def figure (l : List (Nat × Nat)) : Nat := l.foldl (fun a x => a + x.2 * 2 ^ x.1) 0

/-- A barrier that exchanges one token on P0, and a reduction whose data comes in there and lands. -/
def barrierCard : Card := aCard 1 (figure [(0, 1), (48, 1), (67, 1), (69, 1)])
def reduceCard : Card := aCard 2 (figure [(0, 1), (4, 15), (24, 1), (48, 1), (65, 1), (67, 1), (69, 1)])

/-- A BARRIER and a reduction of 64 INT32 elements in window 0, of ranks 0 and 1. -/
def barrierCmd : List (Nat × Nat) := [(0, 6), (8, 1), (14, 1)]
def reduceCmd : List (Nat × Nat) := [(0, 7), (8, 1), (14, 1), (18, 1), (20, 5), (21, 5), (41, 16), (48, 64)]

/-- P0 works for key 5, window 0 is open, slot 2 holds the card and context 5 is as given. -/
def casting (card : Card) (x : Ctx) : State :=
  { setCtx (locked windowed) 5 x with
    cards := [(2, card)], ports := (upBase).ports,
    tables := { windowed.tables with window := [(0, 0x79)], keyFlag := [(0, 2)] } }

/-- Context 5 offers a command. -/
def offering (l : List (Nat × Nat)) : Ctx := { onCtx with slots := [(0, word512 l)] }

/-- A collective of context 5 in the table. -/
def aColl (l : List (Nat × Nat)) (card : Card) : Coll :=
  { ctx := 5, cmd := 3, key := 5, collid := 1, bytes := word512 l, card := some card, leader := true, t0 := some 0,
    started := false, figs := [], parts := [], poison := false, abort := none, lags := [], rates := [], seen := [], tRel := none,
    late := false, driven := false }

/-- A running reduction lands where a store of a compute die waits for memory. -/
def landing (a : Access) : State := { casting reduceCard onCtx with
  colls := [(1, { aColl reduceCmd reduceCard with started := true })], tracks := [(0, aTrack anOp)], accesses := [a], nextId := 10 }

/-- The hypotheses of MemoryAccepts are met. -/
theorem test_hypotheses_of_MemoryAccepts :
  (∃ (id : Nat) (pty : Bool) (s : State) (a : Access), (s.accesses.find? (fun a => a.id == id) = some a) ∧ (((a.kind = .store ∧ accessBehind s a = false ∧ landsUnder s a = none) ∨ a.kind = .chart)) ∧ lineHeld s a.addr a.len = false) ∧
  (∃ (id : Nat) (pty : Bool) (s : State) (a : Access) (r : Nat × Nat), (s.accesses.find? (fun a => a.id == id) = some a) ∧ ((a.kind = .store ∨ (a.kind = .load ∧ a.data = []))) ∧ (accessBehind s a = false) ∧ (landsUnder s a = some r) ∧ lineHeld s a.addr a.len = false) ∧
  (∃ (id : Nat) (s : State) (a : Access), (s.accesses.find? (fun a => a.id == id) = some a) ∧ (a.kind = .load) ∧ (accessBehind s a = false) ∧ (lineHeld s a.addr a.len = false) ∧ (a.loop = false) ∧ poisonMarks s.mem (a.addr / 64 * 64) (a.addr % 64 + a.len) = 0) :=
  ⟨⟨4, false, accessing (anAccess .store 2 [3, 4]), anAccess .store 2 [3, 4], by decide +kernel⟩,
   ⟨4, false, landing { anAccess .store 2 [3, 4] with addr := 4096, loop := true }, { anAccess .store 2 [3, 4] with addr := 4096, loop := true }, (4096, 4), by decide +kernel⟩,
   ⟨4, accessing (anAccess .load 64 []), anAccess .load 64 [], by decide +kernel⟩⟩

/-- That entry is open, and a response for it is stored. -/
def answered (op : Op) (l : List (Nat × Nat)) (data : Bytes) : State :=
  { ctxBase onCtx with tracks := [(192, aTrack op)], blocks := [(3, { freshBlock with owner := some 5, used := 1 })], pkts := [aPkt l data] }

/-- The hypotheses of ResponsesComplete are met. -/
theorem test_hypotheses_of_ResponsesComplete :
  (∃ (id : Nat) (s : State) (x : Pkt) (tr : Track) (chan : Nat) (thread : BitVec 16) (addr : BitVec 64) (i : Instr) (op : Nat), ((i, op) ∈ [(Instr.loadRespReceive id, opLoadResp), (.atomicRespReceive id, opAtomicResp)]) ∧ (Answers7 s id op x (hTag x.header) tr chan thread addr) ∧ ((tr.op.kind = .load ∨ tr.op.kind = .atomicFetch)) ∧ (hStatus x.header = 0) ∧ hPoison x.header = 0) ∧
  (∃ (id : Nat) (s : State) (x : Pkt) (tr : Track) (chan : Nat) (thread : BitVec 16) (addr : BitVec 64) (k : Nat), (Answers7 s id opWriteAck x (hTag x.header / 64 * 64 + k) tr chan thread addr) ∧ (k < 64) ∧ ((∀ j, j < 64 → bitAt (hMap x.header) j = decide (j = k))) ∧ ((tr.op.kind = .store ∨ tr.op.kind = .atomicPost)) ∧ hStatus x.header = 0) ∧
  (∃ (id : Nat) (s : State) (x : Pkt) (i : Instr) (op : Nat), ((i, op) ∈ [(Instr.loadRespReceive id, opLoadResp), (.atomicRespReceive id, opAtomicResp)]) ∧ (responseAt s id op = some x) ∧ (hSinst x.header = instId s) ∧ matchOpen s (hTag x.header) (hRound x.header) = none) :=
  ⟨⟨9, answered anOp [(0, 0x18), (88, 192)] (zeros 64), aPkt [(0, 0x18), (88, 192)] (zeros 64), aTrack anOp, 1, 7, 0, .loadRespReceive 9, 0x18, (by decide +kernel), (by unfold Answers7; decide +kernel), by decide +kernel⟩,
   ⟨9, answered { anOp with kind := .store } [(0, 0x28), (88, 192), (128, 1)] [], aPkt [(0, 0x28), (88, 192), (128, 1)] [], aTrack { anOp with kind := .store }, 1, 7, 0, 0, (by unfold Answers7; decide +kernel), by decide +kernel⟩,
   ⟨9, answered anOp [(0, 0x18), (88, 200)] (zeros 64), aPkt [(0, 0x18), (88, 200)] (zeros 64), .loadRespReceive 9, 0x18, by decide +kernel⟩⟩

/-- A packet under key 5 from P1 for the next node along +x. -/
def passing : Pkt := { aPkt [(0, 0x10), (50, 1), (72, 5)] [] with acct := .ingress 1 0, inPort := some 1 }

/-- P0 leads along +x, key 5 may pass it, and the packet waits. -/
def routing : State := { dirUp with pkts := [passing], tables := { oneKey.tables with bank0 := { RouteBank.reset with routes := [(64, 4)] } } }

/-- The home port P0 has a stripe in inst 1 with room, and holds a packet itself. -/
def farRouting : State := { routing with
  pkts := [passing, { passing with id := 8, acct := .egress 0 0, routed := true }],
  cascade := { base.cascade with
    present := [1],
    stripes := [(15, { home := 0, works := true, width := 2, free0 := 100, free1 := 100, used0 := 0, used1 := 0 })] } }

/-- The hypotheses of PacketsAreRouted are met. -/
theorem test_hypotheses_of_PacketsAreRouted :
  (∃ (id : Nat) (s : State) (x : Pkt) (q vc : Nat) (moved : Bool) (i : Instr), ((i = .packetRoute id ∨ (i = .escapeTimeExpiry id ∧ x.since + 4 * reg s 0x3900 2 ≤ s.clock))) ∧ (Routable s id x q vc moved) ∧ ∃ j, placeOn s q vc (hDet (hset (routeHeader s x) 8 3 vc)) (pktCells x) = some (.here j)) ∧
  (∃ (id : Nat) (s : State) (x : Pkt) (q vc : Nat) (moved : Bool), (Routable s id x q vc moved) ∧ ∃ i j, placeOn s q vc (hDet (hset (routeHeader s x) 8 3 vc)) (pktCells x) = some (.far i j)) ∧
  (∃ (id : Nat) (s : State) (x : Pkt), (pktOf s id = some x) ∧ s.clock < x.since + 4 * reg s 0x3900 2) :=
  ⟨⟨9, routing, passing, 0, 0, false, .packetRoute 9, (by decide +kernel), (by unfold Routable; decide +kernel), 0, (by decide +kernel)⟩,
   ⟨9, farRouting, passing, 0, 0, false, (by unfold Routable; decide +kernel), 1, 3, (by decide +kernel)⟩,
   ⟨9, { routing with clock := 0 }, passing, by decide +kernel⟩⟩

/-- P0 works and both nodes are known. -/
def linked : State := rankHere upBase

/-- A routed control packet of a type for context 7 of this node. -/
def routed (ct : Nat) : BitVec 256 := routedBlock linked ct 0 7 0 0 3 9

/-- A sender credit entry and a grant table entry that nothing uses. -/
def aSender : Sender := { sent := 0, limit := 8, gen := none, open_ := 0, last := 0 }
def aGrant : Grant := { acc := 0, limit := 8, told := 4, rise := some 0, turn := 0, last := 0, key := 5 }

/-- Entries for node 0, context 7. -/
def withCredit : State := { linked with senders := [(senderNo 0 7, aSender)], grants := [(grantNo 7 0 0, aGrant)] }

/-- A STORE of 1,024 bytes with notification that waits for credit. -/
def waitingOp : Op := { anOp with kind := .store, len := 1024, notify := some ⟨7, 0, 0, 0, true⟩, counted := true }

/-- The same for node 1. -/
def farOp : Op := { waitingOp with side := { ownSide base with node := 1 } }

/-- The hypotheses of CreditMoves are met. -/
theorem test_hypotheses_of_CreditMoves :
  (∃ (p : Fin 12) (b : BitVec 256) (s : State) (x : Sender), (ControlTaken s p b ctGrant) ∧ (RoutedHere s b (rSinst b)) ∧ tget s.senders (senderNo (rSrc b) (rNctx b)) = some x) ∧
  (∃ (p : Fin 12) (b : BitVec 256) (s : State), (ControlTaken s p b ctRelease) ∧ RoutedHere s b (rTinst b)) ∧
  (∃ (p : Fin 12) (b : BitVec 256) (s : State) (g : Grant), (ControlTaken s p b ctProbe) ∧ (RoutedHere s b (rTinst b)) ∧ tget s.grants (grantNo (rNctx b) (rSrc b) (rSinst b)) = some g) ∧
  (∃ (p : Fin 12) (b : BitVec 256) (s : State), (ControlTaken s p b ctProbe) ∧ (RoutedHere s b (rTinst b)) ∧ tget s.grants (grantNo (rNctx b) (rSrc b) (rSinst b)) = none) ∧
  (∃ (p : Fin 12) (b : BitVec 256) (s : State) (i : Instr) (ct : Nat), ((i, ct) ∈ [(Instr.creditGrantReceive p b, ctGrant), (.creditReleaseReceive p b, ctRelease), (.creditProbeReceive p b, ctProbe)]) ∧ (ControlTaken s p b ct) ∧ routedStampsOk s b = false) ∧
  (∃ (nctx : Fin 4096) (src : NodeId) (sinst : Fin 4) (s : State) (g : Grant) (since : Nat), (tget s.grants (grantNo nctx src sinst) = some g) ∧ (g.rise = some since) ∧ since + 4 * reg s 0x4100 8 ≤ s.clock) ∧
  (∃ (node : NodeId) (nctx : Fin 4096) (s : State) (x : Sender), (tget s.senders (senderNo node nctx) = some x) ∧ (x.open_ = 0) ∧ x.last + 4000000 ≤ s.clock) ∧
  (∃ (nctx : Fin 4096) (src : NodeId) (sinst : Fin 4) (s : State) (g : Grant), (tget s.grants (grantNo nctx src sinst) = some g) ∧ g.last + 400000000 ≤ s.clock) ∧
  (∃ (nctx : Fin 4096) (src : NodeId) (sinst : Fin 4) (s : State) (g : Grant), (tget s.grants (grantNo nctx src sinst) = some g) ∧ s.clock < g.last + 400000000) ∧
  (∃ (id : Nat) (s : State) (op : Op) (n : Notify), (heldOp s id = some op) ∧ (op.notify = some n) ∧ (credited op = true) ∧ (op.counted = true) ∧ (creditOk s op = false) ∧ (op.probed + 4 * reg s 0x4100 9 ≤ s.clock) ∧ op.side.node ≠ ownNode s) ∧
  (∃ (id : Nat) (s : State) (op : Op) (n : Notify) (g : Grant), (heldOp s id = some op) ∧ (op.notify = some n) ∧ (credited op = true) ∧ (op.counted = true) ∧ (creditOk s op = false) ∧ (op.probed + 4 * reg s 0x4100 9 ≤ s.clock) ∧ (op.side.node = ownNode s) ∧ tget s.grants (grantNo n.nctx (ownNode s) (instId s)) = some g) :=
  ⟨⟨0, routed 0xC9, withCredit, aSender, (by unfold ControlTaken; decide +kernel), (by unfold RoutedHere; decide +kernel), (by decide +kernel)⟩,
   ⟨0, routed 0xCA, withCredit, (by unfold ControlTaken; decide +kernel), (by unfold RoutedHere; decide +kernel)⟩,
   ⟨0, routed 0xCB, withCredit, aGrant, (by unfold ControlTaken; decide +kernel), (by unfold RoutedHere; decide +kernel), (by decide +kernel)⟩,
   ⟨0, routed 0xCB, linked, (by unfold ControlTaken; decide +kernel), (by unfold RoutedHere; decide +kernel), (by decide +kernel)⟩,
   ⟨0, routed 0xC9, upBase, .creditGrantReceive 0 (routed 0xC9), 0xC9, (by decide +kernel), (by unfold ControlTaken; decide +kernel), (by decide +kernel)⟩,
   ⟨7, 0, 0, withCredit, aGrant, 0, by decide +kernel⟩,
   ⟨0, 7, withCredit, aSender, by decide +kernel⟩,
   ⟨7, 0, 0, withCredit, aGrant, by decide +kernel⟩,
   ⟨7, 0, 0, { withCredit with clock := 0 }, aGrant, by decide +kernel⟩,
   ⟨9, { withCredit with held := [farOp], senders := [(senderNo 1 7, aSender)] }, farOp, ⟨7, 0, 0, 0, true⟩, by decide +kernel⟩,
   ⟨9, { withCredit with held := [waitingOp] }, waitingOp, ⟨7, 0, 0, 0, true⟩, aGrant, by decide +kernel⟩⟩

/-- The hypotheses of CardsAndCollectivesAccepted are met. -/
theorem test_hypotheses_of_CardsAndCollectivesAccepted :
  (∃ (w : WriteHdr) (card : Bytes) (s : State), (cardOk card = true) ∧ WriteTaken (writeReq w 0x5100 2 card) s) ∧
  (∃ (w : WriteHdr) (slot : BitVec 8) (s : State), WriteTaken (writeReq w 0x5100 4 [slot]) s) ∧
  (∃ (c : Fin 4096) (b : BitVec 512) (s : State) (e k : Nat) (i : Instr), ((i, k) ∈ [(Instr.barrier c, 6), (.collStart c, 7)]) ∧ (Acceptable s c k b) ∧ (freeColl s = some e) ∧ (collCheck s c b = .ok ()) ∧ (collFor s (ctxKey s c).toNat (ccCollid b) = none) ∧ (isMember s c b 0 = false) ∧ pendFor s (ctxKey s c).toNat (ccCollid b) = none) ∧
  (∃ (c : Fin 4096) (b : BitVec 512) (s : State) (e k slot : Nat) (card : Card) (i : Instr), ((i, k) ∈ [(Instr.barrier c, 6), (.collStart c, 7)]) ∧ (Acceptable s c k b) ∧ (freeColl s = some e) ∧ (collCheck s c b = .ok ()) ∧ (collFor s (ctxKey s c).toNat (ccCollid b) = none) ∧ (isMember s c b 0 = true) ∧ chooseCard s c b = some (slot, card)) ∧
  (∃ (c : Fin 4096) (b : BitVec 512) (s : State) (e k : Nat) (i : Instr), ((i, k) ∈ [(Instr.barrier c, 6), (.collStart c, 7)]) ∧ (Acceptable s c k b) ∧ (freeColl s = some e) ∧ (collCheck s c b = .ok ()) ∧ (collFor s (ctxKey s c).toNat (ccCollid b)).isSome = true) :=
  ⟨⟨w0, barrierCard, base, (by decide +kernel), (taken (by decide +kernel))⟩,
   ⟨w0, 2, base, (taken (by decide +kernel))⟩,
   ⟨5, word512 [(0, 6), (8, 1), (12, 1), (14, 1)], casting barrierCard (offering [(0, 6), (8, 1), (12, 1), (14, 1)]), 0, 6, .barrier 5, (by decide +kernel), (by unfold Acceptable; decide +kernel), by decide +kernel⟩,
   ⟨5, word512 reduceCmd, casting reduceCard (offering reduceCmd), 0, 7, 2, reduceCard, .collStart 5, (by decide +kernel), (by unfold Acceptable; decide +kernel), by decide +kernel⟩,
   ⟨5, word512 barrierCmd, { casting barrierCard (offering barrierCmd) with colls := [(1, aColl barrierCmd barrierCard)] }, 0, 6, .barrier 5, (by decide +kernel), (by unfold Acceptable; decide +kernel), by decide +kernel⟩⟩

/-- A RELEASE for key 5, COLLID 1 at a time. -/
def aRelease (t : Nat) : BitVec 256 := control 0xC8 0 0 [(40, 4, 4), cb 6 2 5, cb 8 4 1, cb 12 2 1, cb 14 8 t]

/-- A notice of a kind for key 5, COLLID 1. -/
def aNotice (kind key arg : Nat) : BitVec 256 := control 0xC8 0 0 [(40, 4, kind), cb 6 2 key, cb 8 4 1, cb 12 2 1, cb 14 8 9, cb 22 4 arg]

/-- The collective of context 5 is in the table, and its command in progress. -/
def collState (l : List (Nat × Nat)) (card : Card) (f : Coll → Coll) : State :=
  { casting card { onCtx with accept := 4, cmds := [aCmd 3 l (.collective 1) 0] } with colls := [(1, f (aColl l card))] }

/-- The hypotheses of NoticesTaken are met. -/
theorem test_hypotheses_of_NoticesTaken :
  (∃ (p : Fin 12) (b : BitVec 256) (s : State), (NoticeDue s p b) ∧ (noticeForeign s p b = false) ∧ (nKind b = 1) ∧ (collFor s (nKey b) (nCollid b) = none) ∧ (pendFor s (nKey b) (nCollid b) = none) ∧ s.pends.length < 256) ∧
  (∃ (p : Fin 12) (b : BitVec 256) (s : State) (c : Nat) (x : Coll), (NoticeDue s p b) ∧ (noticeForeign s p b = false) ∧ (nKind b = 2) ∧ (collFor s (nKey b) (nCollid b) = some c) ∧ collOf s c = some x) ∧
  (∃ (p : Fin 12) (b : BitVec 256) (s : State) (c : Nat) (x : Coll) (m : Cmd), (NoticeDue s p b) ∧ (noticeForeign s p b = false) ∧ (nKind b = 3) ∧ (collFor s (nKey b) (nCollid b) = some c) ∧ (collOf s c = some x) ∧ (x.abort = none) ∧ (landingOpen s c = false) ∧ (cmdOf s x.ctx x.cmd = some m) ∧ (nArg b % 16 ≠ 0) ∧ s.phase ≠ .cut) ∧
  (∃ (p : Fin 12) (b : BitVec 256) (s : State) (c : Nat) (x : Coll), (NoticeDue s p b) ∧ (noticeForeign s p b = false) ∧ (nKind b = 4) ∧ (collFor s (nKey b) (nCollid b) = some c) ∧ (collOf s c = some x) ∧ (isBarrier x = true) ∧ (x.tRel = none) ∧ (x.abort = none) ∧ releaseLate s (nTime b) (promenadeStep (ownNode s)) = false) ∧
  (∃ (p : Fin 12) (b : BitVec 256) (s : State) (c : Nat) (x : Coll), (NoticeDue s p b) ∧ (noticeForeign s p b = false) ∧ (nKind b = 4) ∧ (collFor s (nKey b) (nCollid b) = some c) ∧ (collOf s c = some x) ∧ (isBarrier x = true) ∧ (x.tRel = none) ∧ (x.driven = false) ∧ (x.abort = none) ∧ (releaseLate s (nTime b) (promenadeStep (ownNode s)) = true) ∧ (awake s = true) ∧ (inTurn s 7 (releaseTime (nTime b) (promenadeStep (ownNode s))) = true) ∧ (s.pins.booked = []) ∧ (∀ d, d < 8 → lineRests s d = true)) ∧
  (∃ (p : Fin 12) (b : BitVec 256) (s : State), (NoticeDue s p b) ∧ noticeForeign s p b = true) :=
  ⟨⟨0, aNotice 1 5 0, casting barrierCard onCtx, (by unfold NoticeDue ControlTaken; decide +kernel), by decide +kernel⟩,
   ⟨0, aNotice 2 5 7, collState barrierCmd barrierCard id, 1, aColl barrierCmd barrierCard, (by unfold NoticeDue ControlTaken; decide +kernel), by decide +kernel⟩,
   ⟨0, aNotice 3 5 7, collState barrierCmd barrierCard id, 1, aColl barrierCmd barrierCard, aCmd 3 barrierCmd (.collective 1) 0, (by unfold NoticeDue ControlTaken; decide +kernel), by decide +kernel⟩,
   ⟨0, aRelease 5000000000000, collState barrierCmd barrierCard id, 1, aColl barrierCmd barrierCard, (by unfold NoticeDue ControlTaken; decide +kernel), by decide +kernel⟩,
   ⟨0, aNotice 4 5 0, collState barrierCmd barrierCard id, 1, aColl barrierCmd barrierCard, (by unfold NoticeDue ControlTaken; decide +kernel), by decide +kernel⟩,
   ⟨0, aNotice 1 6 0, casting barrierCard onCtx, (by unfold NoticeDue ControlTaken; decide +kernel), (by decide +kernel)⟩⟩

/-- The hypotheses of CollectivesStart are met. -/
theorem test_hypotheses_of_CollectivesStart :
  (∃ (c : Nat) (s : State) (x : Coll) (card : Card) (t0 : Nat), (collOf s c = some x) ∧ (x.card = some card) ∧ (x.t0 = some t0) ∧ (x.started = false) ∧ (x.abort = none) ∧ (inTurn s 8 t0 = true) ∧ ((∀ p ∈ cardPorts card, working s p = true)) ∧ ∃ r, r = (collPorts s x card).map (fun p => (p, payloadRate s p))) ∧
  (∃ (c : Nat) (s : State) (x : Coll) (t0 : Nat), (collOf s c = some x) ∧ (x.t0 = some t0) ∧ timeCome s t0 = false) :=
  ⟨⟨1, collState barrierCmd barrierCard id, aColl barrierCmd barrierCard, barrierCard, 0, (by decide +kernel), then2 (by decide +kernel) (then4 (by decide +kernel) ⟨_, rfl⟩)⟩,
   ⟨1, collState barrierCmd barrierCard (fun x => { x with t0 := some 5000000000000 }), { aColl barrierCmd barrierCard with t0 := some 5000000000000 }, 5000000000000, by decide +kernel⟩⟩

/-- The collective runs. -/
def begun (x : Coll) : Coll := { x with started := true }

/-- A packet of the collective that came on P0 and lies in its staging account. -/
def dataPkt (op : Nat) (data : Bytes) : Pkt :=
  { aPkt [(0, op), (72, 5), (88, 1), (120, 1)] data with acct := .staging 1, inPort := some 0 }

/-- The collective runs and holds the packet. -/
def dataState (l : List (Nat × Nat)) (card : Card) (k : Pkt) : State := { collState l card begun with pkts := [k] }

/-- A multicast copy from P1, which leads along +x, for the nodes up to x = 1, or from P0 along −x. -/
def copyPkt : Pkt := { aPkt [(0, 0x82), (72, 5), (88, 1), (120, 1)] (zeros 64) with acct := .pool, inPort := some 1 }

/-- The extent of axis 0 ends at the next node, P0 leads there and P1 comes from the other side. -/
def copyState : State := setRegAt (setReg { routing with
  pkts := [copyPkt],
  tables := { routing.tables with bank0 := { RouteBank.reset with extents := [(0, 0x8100)] } } } 0x3600 5 1) 0x3600 2 1 2

/-- The hypotheses of CollectiveDataTaken are met. -/
theorem test_hypotheses_of_CollectiveDataTaken :
  (∃ (id c f : Nat) (s : State) (k : Pkt) (x : Coll) (card : Card), (TakenBy s id opCollToken c f k x card) ∧ ((figAt card f).clen = 0) ∧ (hMc k.header = false) ∧ (hPoison k.header = 0) ∧ ∃ n, n = nextPlace (figAt card f) false (ccWfmt x.bytes) (segElems x.bytes card) (ccCount x.bytes) (hPlace k.header)) ∧
  (∃ (id c f : Nat) (s u : State) (k : Pkt) (x : Coll) (card : Card), (TakenBy s id opCollData c f k x card) ∧ ((figAt card f).clen ≠ 0) ∧ (hPoison k.header = 0) ∧ (((figAt card f).comb ≠ 0 ∨ lands (figAt card f) (hRep k.header) = true)) ∧ dispatch s c f x card (hPlace k.header) = .done u) ∧
  (∃ (id p q op : Nat) (s : State) (k : Pkt) (i : Instr), ((i, op) ∈ [(Instr.mcastDataReceive id, opMcast), (Instr.collTokenReceive id, opCollToken)]) ∧ (pktOf s id = some k) ∧ (hOp k.header = op) ∧ (isMulticast k.header = true) ∧ (k.coll = none) ∧ (k.hereToo = false) ∧ (k.acct = .pool) ∧ (k.inPort = some p) ∧ (bankState s.tables (hEpoch k.header) ≠ .free) ∧ (mcastStep s k.header p = some (some q)) ∧ (hHops k.header ≠ 255) ∧ (levelOk s (some p) true q = true) ∧ (pktCells k ≤ egressFree s q 2) ∧ (v2Behind s k q = false) ∧ collFor s (hKey k.header) (hCollid k.header) = none) :=
  ⟨⟨9, 1, 0, dataState barrierCmd barrierCard (dataPkt 0x81 []), dataPkt 0x81 [], begun (aColl barrierCmd barrierCard), barrierCard, (by unfold TakenBy; decide +kernel), (by decide +kernel), then2 (by decide +kernel) ⟨_, rfl⟩⟩,
   ⟨9, 1, 0, dataState reduceCmd reduceCard (dataPkt 0x80 (zeros 256)), _, dataPkt 0x80 (zeros 256), begun (aColl reduceCmd reduceCard), reduceCard, (by unfold TakenBy; decide +kernel), (by decide +kernel), then2 (by decide +kernel) rfl⟩,
   ⟨9, 1, 0, 0x82, copyState, copyPkt, .mcastDataReceive 9, (List.mem_cons_self ..), by decide +kernel⟩⟩

/-- Its figures are complete. -/
def doneFig : Fig := { send := ⟨1, 0, 0⟩, recv := ⟨1, 0, 0⟩, busy := [], told := true }
def done (x : Coll) : Coll := { begun x with figs := [(0, doneFig)] }

/-- A RELEASE frame for line 3, and the only booked one, with the frames that the lines sent last. -/
def aFrame (edge : Nat) : RelFrame := { line := 3, plan := 2, edge := edge, coll := none, gap := false }
def bookedFrame (f : RelFrame) (sent : List (Nat × Nat × Mt)) : State :=
  { locked base with pins := { Pins.reset with booked := [f], frames := sent } }

/-- The hypotheses of CollectivesComplete are met. -/
theorem test_hypotheses_of_CollectivesComplete :
  (∃ (c : Nat) (s : State) (x : Coll) (m : Cmd), (collOf s c = some x) ∧ (isBarrier x = false) ∧ (x.abort = none) ∧ (x.poison = false) ∧ (figuresDone s c x = true) ∧ (cmdOf s x.ctx x.cmd = some m) ∧ s.phase ≠ .cut) ∧
  (∃ (c : Nat) (s : State) (x : Coll), (collOf s c = some x) ∧ (isBarrier x = true) ∧ (x.leader = true) ∧ (x.tRel = none) ∧ (x.abort = none) ∧ figuresDone s c x = true) ∧
  (∃ (c : Nat) (s : State) (x : Coll) (tr : Nat), (collOf s c = some x) ∧ (x.tRel = some tr) ∧ (x.driven = false) ∧ (x.late = false) ∧ (awake s = true) ∧ (inTurn s 7 (releaseTime tr (promenadeStep (ownNode s))) = true) ∧ figuresDone s c x = false) ∧
  (∃ (c : Nat) (s : State) (x : Coll) (tr : Nat) (m : Cmd), (collOf s c = some x) ∧ (x.tRel = some tr) ∧ (x.driven = true) ∧ ((∀ f ∈ s.pins.booked, f.coll ≠ some c)) ∧ (figuresDone s c x = true) ∧ (cmdOf s x.ctx x.cmd = some m) ∧ s.phase ≠ .cut) ∧
  (∃ (tRel : BitVec 64) (step ramp : Fin 16) (s : State), (awake s = true) ∧ releaseLate s tRel.toNat step = false) ∧
  (∃ (c : Nat) (s : State) (f : RelFrame), (collOf s c = none) ∧ (awake s = true) ∧ (s.pins.booked = [f]) ∧ (inTurn s 7 f.edge = true) ∧ lineRests s f.line = true) ∧
  (∃ (c : Nat) (s : State) (f : RelFrame), (collOf s c = none) ∧ (awake s = true) ∧ (s.pins.booked = [f]) ∧ (inTurn s 7 f.edge = true) ∧ (lineRests s f.line = false) ∧ f.gap = false) ∧
  (∃ (c : Nat) (s : State) (f : RelFrame), (collOf s c = none) ∧ (s.pins.booked = [f]) ∧ inTurn s 7 f.edge = false) :=
  ⟨⟨1, collState reduceCmd reduceCard done, done (aColl reduceCmd reduceCard), aCmd 3 reduceCmd (.collective 1) 0, by decide +kernel⟩,
   ⟨1, collState barrierCmd barrierCard done, done (aColl barrierCmd barrierCard), by decide +kernel⟩,
   ⟨1, setBlobAt (collState barrierCmd barrierCard (fun x => { begun x with tRel := some 0, figs := [(0, { doneFig with send := ⟨0, 0, 0⟩ })] })) 0x5200 2 0 (0x8F :: zeros 31), { begun (aColl barrierCmd barrierCard) with tRel := some 0, figs := [(0, { doneFig with send := ⟨0, 0, 0⟩ })] }, 0, by decide +kernel⟩,
   ⟨1, collState barrierCmd barrierCard (fun x => { done x with tRel := some 0, driven := true }), { done (aColl barrierCmd barrierCard) with tRel := some 0, driven := true }, 0, aCmd 3 barrierCmd (.collective 1) 0, by decide +kernel⟩,
   ⟨5000000000000, 0, 0, locked base, by decide +kernel⟩,
   ⟨0, bookedFrame (aFrame 0) [], aFrame 0, by decide +kernel⟩,
   ⟨0, bookedFrame (aFrame 0) [(3, 2, 9999999999900)], aFrame 0, by decide +kernel⟩,
   ⟨0, bookedFrame (aFrame 5000000000000) [], aFrame 5000000000000, by decide +kernel⟩⟩

/-- Unit 0 has one request in its queue. -/
def atUnit (s : State) (w : UnitWork) : State := { s with units := [(0, { SextUnit.reset with queue := [⟨w, 64⟩] })] }

/-- Unit 0 holds a far-tier line, and two atomics to it wait. -/
def heldLine : OpenLine := { line := lineOf (2 ^ 40 + 64), since := 0, data := zeros 64, bad := false, dirty := false }
def farUnit : State := { windowed with units := [(0, { SextUnit.reset with
  lines := [heldLine],
  queue := List.replicate 2 ⟨.atomic (hdr (reqTo8 0x30)) (2 ^ 40 + 64) 8 ⟨0, 5, 0⟩ false false, 64⟩ })] }

/-- Unit 0 yields a line to a store that waits for it. -/
def yieldUnit : State := { accessing { anAccess .store 2 [3, 4] with addr := 64 } with
  units := [(0, { SextUnit.reset with yielding := [(1, 4)], queue := [⟨.atomic (hdr (reqTo8 0x30)) 64 8 ⟨0, 5, 0⟩ false false, 64⟩] })] }

/-- The hypotheses of AtomicsExecute are met. -/
theorem test_hypotheses_of_AtomicsExecute :
  (∃ (n : Fin 16) (s : State) (h : BitVec 256) (addr len by_ : Nat) (args : AtomicArgs) (loop : Bool) (rest : List UnitReq) (v : Nat), (AtomicNext n s h addr len by_ args false loop rest) ∧ (farLine (lineOf addr) = false) ∧ ((lineOpen (sext s n) (lineOf addr) = true ∨ MayOpen n s (lineOf addr))) ∧ (CleanLine n s (lineOf addr)) ∧ (linePoisoned s.mem (lineOf addr) = false) ∧ atomicResult (args.afn.toNat % 16) (8 * len) (leNat (memRead s.mem addr len)) args.opa.toNat args.opb.toNat (hOp h == opAtomicPost) = some v) ∧
  (∃ (n : Fin 16) (s : State) (h : BitVec 256) (addr len by_ : Nat) (args : AtomicArgs) (loop : Bool) (rest : List UnitReq) (v : Nat), (AtomicNext n s h addr len by_ args false loop rest) ∧ (farLine (lineOf addr) = true) ∧ (MayOpen n s (lineOf addr)) ∧ (addr % 64 + len ≤ 64) ∧ (linePoisoned s.mem (lineOf addr) = false) ∧ (lineWanted { sext s n with queue := rest } (lineOf addr) = false) ∧ atomicResult (args.afn.toNat % 16) (8 * len) (leNat (memRead s.mem addr len)) args.opa.toNat args.opb.toNat (hOp h == opAtomicPost) = some v) ∧
  (∃ (n : Fin 16) (s : State) (h : BitVec 256) (addr len by_ : Nat) (args : AtomicArgs) (loop : Bool) (rest : List UnitReq) (v : Nat) (l : OpenLine), (AtomicNext n s h addr len by_ args false loop rest) ∧ (farLine (lineOf addr) = true) ∧ (lineAt (sext s n) (lineOf addr) = some l) ∧ (l.bad = false) ∧ (lineWanted { sext s n with queue := rest } (lineOf addr) = true) ∧ atomicResult (args.afn.toNat % 16) (8 * len) (leNat ((l.data.drop (addr % 64)).take len)) args.opa.toNat args.opb.toNat (hOp h == opAtomicPost) = some v) ∧
  (∃ (n : Fin 16) (s : State) (h : BitVec 256) (addr len by_ : Nat) (args : AtomicArgs) (bad loop : Bool) (rest : List UnitReq), (AtomicNext n s h addr len by_ args bad loop rest) ∧ ((lineOpen (sext s n) (lineOf addr) = true ∨ MayOpen n s (lineOf addr))) ∧ (CleanLine n s (lineOf addr)) ∧ (bad = true ∨ (linePoisoned s.mem (lineOf addr) = true ∧ ∀ l ∈ (sext s n).lines, l.line = lineOf addr → l.bad = true))) ∧
  (∃ (n : Fin 16) (s : State) (h : BitVec 256) (addr len by_ : Nat) (args : AtomicArgs) (bad loop : Bool) (rest : List UnitReq), (AtomicNext n s h addr len by_ args bad loop rest) ∧ (lineOpen (sext s n) (lineOf addr) = false) ∧ yields s n (lineOf addr) = true) :=
  ⟨⟨0, atUnit windowed (.atomic (hdr (reqTo8 0x30)) 64 8 ⟨0, 5, 0⟩ false false), hdr (reqTo8 0x30), 64, 8, 64, ⟨0, 5, 0⟩, false, [], 5, (by unfold AtomicNext; decide +kernel), (by decide +kernel), (Or.inr (by unfold MayOpen; decide +kernel)), (by unfold CleanLine; decide +kernel), by decide +kernel⟩,
   ⟨0, atUnit windowed (.atomic (hdr (reqTo8 0x30)) (2 ^ 40 + 64) 8 ⟨0, 5, 0⟩ false false), hdr (reqTo8 0x30), 2 ^ 40 + 64, 8, 64, ⟨0, 5, 0⟩, false, [], 5, (by unfold AtomicNext; decide +kernel), (by decide +kernel), (by unfold MayOpen; decide +kernel), by decide +kernel⟩,
   ⟨0, farUnit, hdr (reqTo8 0x30), 2 ^ 40 + 64, 8, 64, ⟨0, 5, 0⟩, false, [⟨.atomic (hdr (reqTo8 0x30)) (2 ^ 40 + 64) 8 ⟨0, 5, 0⟩ false false, 64⟩], 5, heldLine, (by unfold AtomicNext; decide +kernel), by decide +kernel⟩,
   ⟨0, atUnit windowed (.atomic (hdr (reqTo8 0x30)) 64 8 ⟨0, 5, 0⟩ true false), hdr (reqTo8 0x30), 64, 8, 64, ⟨0, 5, 0⟩, true, false, [], (by unfold AtomicNext; decide +kernel), (Or.inr (by unfold MayOpen; decide +kernel)), (by unfold CleanLine; decide +kernel), (Or.inl rfl)⟩,
   ⟨0, yieldUnit, hdr (reqTo8 0x30), 64, 8, 64, ⟨0, 5, 0⟩, false, false, [], (by unfold AtomicNext; decide +kernel), by decide +kernel⟩⟩

/-- The hypotheses of ReductionsLand are met. -/
theorem test_hypotheses_of_ReductionsLand :
  (∃ (n : Fin 16) (s : State) (c f lo k by_ : Nat) (p : Place3) (rest : List UnitReq) (x : Coll) (card : Card) (pl : Place) (b : Bytes) (bm : List Bool), ((sext s n).queue = ⟨.piece c f p lo k, by_⟩ :: rest) ∧ (changing s n = false) ∧ (collOf s c = some x) ∧ (x.card = some card) ∧ (lands (figAt card f) p.rep = true) ∧ ((figAt card f).comb ≠ 0) ∧ ∃ e, (e = (pieceElems (ccWfmt x.bytes) (segElems x.bytes card) (ccCount x.bytes) p).1 + lo) ∧ (readPart s (unitMem s n) x ((figAt card f).comb - 1) e k = some (b, bm)) ∧ (elemPlace s x 1 e = some pl) ∧ ∃ d, d = (packElems (ccLfmt x.bytes) (combineAll (isFloatFmt (ccWfmt x.bytes)) (ropOf (ccRop x.bytes)) (wireElems s n c f x card p lo k).1 (unpack (ccLfmt x.bytes) k b))).1) :=
  ⟨0, atUnit (collState reduceCmd reduceCard begun) (.piece 1 0 ⟨0, 0, 0⟩ 0 64), 1, 0, 0, 64, 64, ⟨0, 0, 0⟩, [], begun (aColl reduceCmd reduceCard), reduceCard, _, zeros 256, List.replicate 64 false, then2 (by decide +kernel) (then4 (by decide +kernel) ⟨_, rfl, (by decide +kernel), rfl, _, rfl⟩)⟩

/-- An accumulator of acknowledgements for node 1. -/
def anAccum : Accum := { id := 4, header := hdr (reqTo 0x20), sinst := 0, src := 1, base := 64, round := 0, map := 3, since := 0 }

/-- A message of which half has come. -/
def aMsgIn : MsgIn := { nctx := 7, nctr := 0, key := 5, want := 128, got := 64, last := 0 }

/-- Unit 3 as given. -/
def unit3 (x : SextUnit) : State := locked (setSext base 3 x)

/-- The device is inst 1. -/
def notFirst (s : State) : State := { s with pins := { s.pins with instId := 1 } }

/-- The line at 4,096, open with or without changes. -/
def lineOf64 (d : Bool) : OpenLine := { line := 64, since := 0, data := zeros 64, bad := false, dirty := d }

/-- The hypotheses of TargetAndSextantTimers are met. -/
theorem test_hypotheses_of_TargetAndSextantTimers :
  (∃ (id : Nat) (s : State) (a : Accum), (s.accums.find? (fun x => x.id == id) = some a) ∧ a.since + 4 * reg s 0x4500 3 ≤ s.clock) ∧
  (∃ (src : NodeId) (sinst : Fin 4) (msgid : Fin 1024) (s : State) (m : MsgIn), (tget s.msgIn (messageNo src sinst msgid) = some m) ∧ m.last + 40000000 ≤ s.clock) ∧
  (∃ (src : NodeId) (sinst : Fin 4) (msgid : Fin 1024) (s : State) (m : MsgIn), (tget s.msgIn (messageNo src sinst msgid) = some m) ∧ s.clock < m.last + 40000000) ∧
  (∃ (u : Fin 16) (s : State) (at_ : Nat), ((sext s u).change = some at_) ∧ (inTurn s 3 at_ = true) ∧ isMaster s = true) ∧
  (∃ (u : Fin 16) (s : State) (at_ : Nat), ((sext s u).change = some at_) ∧ timeCome s at_ = false) ∧
  (∃ (u : Fin 16) (line : Nat) (l : OpenLine) (s : State), (lineAt (sext s u) line = some l) ∧ (l.since + 4 * reg s 0x5310 6 ≤ s.clock) ∧ (lineWanted (sext s u) line = false) ∧ l.dirty = false) ∧
  (∃ (u : Fin 16) (line : Nat) (l : OpenLine) (s : State), (lineAt (sext s u) line = some l) ∧ (l.since + 4 * reg s 0x5310 6 ≤ s.clock) ∧ (lineWanted (sext s u) line = false) ∧ (l.dirty = true) ∧ l.data.length = 64) ∧
  (∃ (u : Fin 16) (line : Nat) (l : OpenLine) (s : State), (lineAt (sext s u) line = some l) ∧ (l.since + 4 * reg s 0x5310 6 ≤ s.clock) ∧ lineWanted (sext s u) line = true) ∧
  (∃ (u : Fin 16) (since : Mt) (s : State), ((sext s u).press = some since) ∧ since + 40000 ≤ s.clock) ∧
  (∃ (u : Fin 16) (since : Mt) (s : State), ((sext s u).press = some since) ∧ s.clock < since + 40000) ∧
  (∃ (u : Fin 16) (s : State), (sext s u).press = none) ∧
  (∃ (u : Fin 16) (s : State) (at_ : Nat), ((sext s u).change = some at_) ∧ (inTurn s 3 at_ = true) ∧ isMaster s = false) :=
  ⟨⟨4, { windowed with accums := [anAccum] }, anAccum, by decide +kernel⟩,
   ⟨1, 0, 5, { base with msgIn := [(messageNo 1 0 5, aMsgIn)] }, aMsgIn, by decide +kernel⟩,
   ⟨1, 0, 5, { base with clock := 0, msgIn := [(messageNo 1 0 5, aMsgIn)] }, aMsgIn, by decide +kernel⟩,
   ⟨3, unit3 { SextUnit.reset with change := some 7 }, 7, by decide +kernel⟩,
   ⟨3, unit3 { SextUnit.reset with change := some 5000000000000 }, 5000000000000, by decide +kernel⟩,
   ⟨3, 64, lineOf64 false, unit3 { SextUnit.reset with lines := [lineOf64 false] }, by decide +kernel⟩,
   ⟨3, 64, lineOf64 true, unit3 { SextUnit.reset with lines := [lineOf64 true] }, by decide +kernel⟩,
   ⟨3, 64, lineOf64 false, unit3 { SextUnit.reset with lines := [lineOf64 false], queue := [⟨.atomic (hdr (reqTo8 0x30)) 4096 8 ⟨0, 5, 0⟩ false false, 64⟩] }, by decide +kernel⟩,
   ⟨3, 0, unit3 { SextUnit.reset with press := some 0, taken := [(10000000000000, 60)] }, by decide +kernel⟩,
   ⟨3, 10000000000000, unit3 { SextUnit.reset with press := some 10000000000000 }, by decide +kernel⟩,
   ⟨3, base, (by decide +kernel)⟩,
   ⟨3, notFirst (unit3 { SextUnit.reset with change := some 7 }), 7, by decide +kernel⟩⟩

/-- Bank 4 is being copied into bank 130. -/
def migrating : State := { base with banks := [(4, { state := 2, spare := some 130, row := 0, passAt := 0 })] }

/-- The hypotheses of StoreErrors are met. -/
theorem test_hypotheses_of_StoreErrors :
  (∃ (b : Fin 136) (row : Fin 10240) (cl : Bool) (s : State), ScrubDue s b row .corrected) ∧
  (∃ (b : Fin 136) (row : Fin 10240) (cl : Bool) (s : State), ScrubDue s b row .clean) ∧
  (∃ (b : Fin 136) (row : Fin 10240) (id : Nat) (s : State), ScrubDue s b row (.header id)) ∧
  (∃ (b : Fin 136) (row : Fin 10240) (id : Nat) (unit : Fin 8) (x : Pkt) (s : State), (ScrubDue s b row (.payload id unit)) ∧ pktOf s id = some x) ∧
  (∃ (b : Fin 136) (row : Fin 10240) (i : Nat) (s : State), ScrubDue s b row (.windowEntry i)) ∧
  (∃ (b : Fin 136) (row : Fin 10240) (table : Fin 4) (entry : BitVec 24) (cl : Bool) (s : State), ScrubDue s b row (.sharedEntry table entry)) ∧
  (∃ (b : Fin 136) (row : Fin 10240) (f : EccFinding) (cl : Bool) (s : State), rowDue s b row = false) ∧
  (∃ (b : Fin 136) (sp n : Nat) (s : State), ((bank s b).spare = some sp) ∧ (serves s b = some n) ∧ ((bank s b).state = 2) ∧ (sp ≠ b.val) ∧ (sp < 136) ∧ (awake s = true) ∧ (blob s 0x4630 4).length = 128) :=
  ⟨⟨0, 0, true, base, (by unfold ScrubDue; decide +kernel)⟩,
   ⟨0, 0, true, base, (by unfold ScrubDue; decide +kernel)⟩,
   ⟨0, 0, 9, served (reqTo 0x20) (zeros 64), (by unfold ScrubDue; decide +kernel)⟩,
   ⟨0, 0, 9, 0, aPkt (reqTo 0x20) (zeros 64), served (reqTo 0x20) (zeros 64), (by unfold ScrubDue; decide +kernel), (by decide +kernel)⟩,
   ⟨0, 0, 5, base, (by unfold ScrubDue; decide +kernel)⟩,
   ⟨0, 0, 1, 77, true, base, (by unfold ScrubDue; decide +kernel)⟩,
   ⟨0, 7, .corrected, true, base, (by decide +kernel)⟩,
   ⟨4, 130, 4, migrating, by decide +kernel⟩⟩

/-- P0 works and key 5 of partition 0 is delivered there. -/
def keyed5 : State := { linked with tables := { linked.tables with keyFlag := [(0, 1)] } }

/-- A packet waits to go out on P0. -/
def outPkt : Pkt := { aPkt (reqTo 0x10) [] with acct := .egress 0 0, inPort := none }

/-- A packet as it comes in on P0 with number 0. -/
def arriving (h : BitVec 256) : WirePacket := { header := h, payload := [], codes := [], first := 0 }

/-- P0 as given. -/
def onP0 (x : Port) : State := { base with ports := [(0, x)] }

/-- The hypotheses of DataPacketsSentAndReceived are met. -/
theorem test_hypotheses_of_DataPacketsSentAndReceived :
  (∃ (p : Fin 12) (k : Nat) (s : State) (x : Pkt), NextToSend s p k x) ∧
  (∃ (p : Fin 12) (w : WirePacket) (s : State) (x : RxBlock) (rest : List RxBlock) (units : Nat) (a : Account), ArrivesWell s p w x rest units a) ∧
  (∃ (p : Fin 12) (w : WirePacket) (s : State) (x : RxBlock) (rest : List RxBlock), (stageDone (port s p) = true) ∧ ((port s p).state.works = true) ∧ ((port s p).link.discard = false) ∧ ((port s p).link.replaying = none) ∧ (rxBlocks s p w = x :: rest) ∧ (cByte x.bytes 0 < 0xC0) ∧ ((x.bad = true ∨ headerCrcOk (port s p).link.expect x.bytes = false)) ∧ (∀ y ∈ rest, cByte y.bytes 0 < 0xC0)) ∧
  (∃ (p : Fin 12) (w : WirePacket) (s : State), (stageDone (port s p) = true) ∧ ((port s p).state.works = false) ∧ (∀ y ∈ rxBlocks s p w, cByte y.bytes 0 < 0xC0)) ∧
  (∃ (p : Fin 12) (w : WirePacket) (s : State) (b : BitVec 256), (stageDone (port s p) = true) ∧ ((port s p).link.discard = false) ∧ ((port s p).stage ≠ some .a) ∧ (0xC0 ≤ cByte w.header 0) ∧ (rxBlocks s p w = [⟨b, false, w.first⟩]) ∧ cByte b 0 = 0xC1) ∧
  (∃ (p : Fin 12) (w : WirePacket) (s : State), (stageDone (port s p) = true) ∧ ((port s p).state.works = true) ∧ ((port s p).link.discard = true) ∧ ((port s p).stage ≠ some .a) ∧ (cByte w.header 0 < 0xC0) ∧ (∀ y ∈ rxBlocks s p w, cByte y.bytes 0 < 0xC0)) :=
  ⟨⟨0, (chooseKey { keyed5 with pkts := [outPkt] } 0).getD 0, { keyed5 with pkts := [outPkt] }, outPkt, (by unfold NextToSend; decide +kernel)⟩,
   ⟨0, arriving (sealHeader 0 0 (hdr (reqTo 0x10))), keyed5, ⟨sealHeader 0 0 (hdr (reqTo 0x10)), false, 0⟩, [], 0, .ingress 0 0, (then4 (by decide +kernel) (then4 (by decide +kernel) (then4 (by decide +kernel) (then4 (by decide +kernel) (fun h e => by subst e; decide +kernel)))))⟩,
   ⟨0, arriving (hdr (reqTo 0x10)), keyed5, ⟨hdr (reqTo 0x10), false, 0⟩, [], by decide +kernel⟩,
   ⟨0, arriving (hdr (reqTo 0x10)), { base with ports := [(0, { upPort with state := .training })] }, by decide +kernel⟩,
   ⟨0, arriving 0xC1, keyed5, 0xC1, by decide +kernel⟩,
   ⟨0, arriving (hdr (reqTo 0x10)), onP0 { upPort with link := { upPort.link with discard := true } }, by decide +kernel⟩⟩

/-- A control packet of a type with the given bytes. -/
def ctl (ct : Nat) (l : List (Nat × Nat)) : BitVec 256 := control ct 0 0 (l.map fun x => cb x.1 1 x.2)

/-- The hypotheses of LinkControl are met. -/
theorem test_hypotheses_of_LinkControl :
  (∃ (p : Fin 12) (b : BitVec 256) (s : State), (ControlTaken s p b ctStatus) ∧ (s.colls = []) ∧ beyondSent (port s p).link (cNum b 5 2) = false) ∧
  (∃ (p : Fin 12) (b : BitVec 256) (s : State), (ControlTaken s p b ctNak) ∧ (bitAt (cByte b 5) 0 = false) ∧ (cByte b 6 ≠ 2) ∧ (cNum b 7 2 = (port s p).link.unacked) ∧ ((port s p).link.replays ≠ reg s 0x2410 6) ∧ ((port s p).trying = none) ∧ (port s p).link.gap < 4) ∧
  (∃ (p : Fin 12) (b : BitVec 256) (s : State), (ControlTaken s p b ctReplayStart) ∧ (bitAt (cByte b 5) 0 = false) ∧ seqDist (port s p).link.expect (cNum b 6 2) < 32768) ∧
  (∃ (p : Fin 12) (b : BitVec 256) (s : State), (stageDone (port s p) = true) ∧ (0xC0 ≤ cByte b 0) ∧ (port s p).link.discard = false) ∧
  (∃ (p : Fin 12) (b : BitVec 256) (s : State), ControlTaken s p b ctIdle) ∧
  (∃ (p : Fin 12) (s : State), ((port s p).state.works = true) ∧ ((port s p).shifting = none) ∧ ((port s p).trying = none) ∧ ((port s p).link.statusAt + 4 * reg s 0x2410 3 ≤ s.clock) ∧ mayLower s p = true) ∧
  (∃ (p : Fin 12) (s : State) (since : Nat), ((port s p).state.works = true) ∧ ((port s p).shifting = none) ∧ ((port s p).link.timer = some since) ∧ (since + replayLimit s p ≤ s.clock) ∧ ((port s p).link.ctimer = none) ∧ ((port s p).link.replays ≠ reg s 0x2410 6) ∧ ((port s p).trying = none) ∧ (port s p).link.gap < 4) ∧
  (∃ (p : Fin 12) (s : State) (since : Nat), ((port s p).state.works = true) ∧ ((port s p).shifting = none) ∧ ((port s p).link.timer = some since) ∧ (since + replayLimit s p ≤ s.clock) ∧ ((port s p).link.ctimer = none) ∧ (port s p).link.replays = reg s 0x2410 6) ∧
  (∃ (p : Fin 12) (s : State), (stageDone (port s p) = true) ∧ ((port s p).shifting = none) ∧ (port s p).link.heard + 4000 * reg s 0x2410 4 ≤ s.clock) ∧
  (∃ (p : Fin 12) (s : State), s.clock < (port s p).link.heard + 4000 * reg s 0x2410 4) :=
  ⟨⟨0, ctl 0xC1 [], upBase, (by unfold ControlTaken; decide +kernel), by decide +kernel⟩,
   ⟨0, ctl 0xC2 [], upBase, (by unfold ControlTaken; decide +kernel), by decide +kernel⟩,
   ⟨0, ctl 0xC3 [(6, 3)], onP0 { upPort with link := { upPort.link with expect := 5 } }, (by unfold ControlTaken; decide +kernel), by decide +kernel⟩,
   ⟨0, 0xC1, upBase, by decide +kernel⟩,
   ⟨0, ctl 0xC0 [], upBase, (by unfold ControlTaken; decide +kernel)⟩,
   ⟨0, onP0 { upPort with beaconAt := 10000000000000 }, by decide +kernel⟩,
   ⟨0, onP0 { upPort with link := { upPort.link with timer := some 0 } }, 0, by decide +kernel⟩,
   ⟨0, setReg (onP0 { upPort with link := { upPort.link with timer := some 0, replays := 3 } }) 0x2410 6 3, 0, by decide +kernel⟩,
   ⟨0, onP0 { upPort with link := { upPort.link with heard := 0 } }, by decide +kernel⟩,
   ⟨0, upBase, (by decide +kernel)⟩⟩

/-- A port after stage A whose HAIL has been admitted. -/
def readyPort : Port := { Port.reset with
  state := .training, stage := some .a, outcome := 1, txWidth := 2, rxWidth := 2, stopped := true, link := { Link.reset with startFrom := some 0, rttAny := true, rttOpen := 94 } }

/-- The hypotheses of LinkStarts are met. -/
theorem test_hypotheses_of_LinkStarts :
  (∃ (p : Fin 12) (b : BitVec 256) (s : State), (ControlTaken s p b ctLinkStart) ∧ (port s p).outcome ≠ 1) ∧
  (∃ (p : Fin 12) (b : BitVec 256) (s : State), (ControlTaken s p b ctLinkStart) ∧ ((port s p).outcome = 1) ∧ (stageDone (port s p) = true) ∧ ((port s p).state.works = false) ∧ (bitAt (cByte b 5) 2 = true) ∧ ((port s p).stopped = true) ∧ (port s p).link.rttAny = true) ∧
  (∃ (p : Fin 12) (s : State), (stageDone (port s p) = true) ∧ ((port s p).outcome = 1) ∧ ((port s p).state.works = false) ∧ (port s p).link.startAt + 4000 ≤ s.clock) ∧
  (∃ (p : Fin 12) (s : State) (since : Nat), ((port s p).link.startFrom = some since) ∧ ((port s p).state.works = false) ∧ since + 4000 * reg s 0x2410 9 ≤ s.clock) ∧
  (∃ (p : Fin 12) (s : State), (port s p).link.startFrom = none) :=
  ⟨⟨0, ctl 0xC4 [], onP0 { readyPort with outcome := 0 }, (by unfold ControlTaken; decide +kernel), (by decide +kernel)⟩,
   ⟨0, ctl 0xC4 [(5, 4)], onP0 readyPort, (by unfold ControlTaken; decide +kernel), by decide +kernel⟩,
   ⟨0, onP0 readyPort, by decide +kernel⟩,
   ⟨0, onP0 readyPort, 0, by decide +kernel⟩,
   ⟨0, base, (by decide +kernel)⟩⟩

/-- The plan of P0 names port 3 of node 1 at width 2, with plan hash 77. -/
def plannedPort (f : Port → Port) : State := setReg { onP0 (f { readyPort with outcome := 0, stopped := false }) with
  tables := { (rankHere base).tables with plan := [(0, 0x3000110)] } } 0x2600 4 77

/-- A HAIL from that port. -/
def aHail (inc : Nat) : BitVec 256 := control 0xC5 0 0 [cb 5 2 1, (56, 4, 3), cb 8 1 inc, cb 9 4 77, (104, 4, 2)]

/-- The hypotheses of Hailing are met. -/
theorem test_hypotheses_of_Hailing :
  (∃ (p : Fin 12) (b : BitVec 256) (s : State), (ControlTaken s p b ctHail) ∧ ((port s p).state.works = false) ∧ ((port s p).stopped = false) ∧ ((port s p).stage = some .a) ∧ ((port s p).trying = none) ∧ (compassUp s = true) ∧ ((port s p).outcome = 0) ∧ hailCheck s p b = 0) ∧
  (∃ (p : Fin 12) (b : BitVec 256) (s : State), (ControlTaken s p b ctHail) ∧ ((port s p).state.works = false) ∧ ((port s p).stopped = false) ∧ ((port s p).stage = some .a) ∧ ((port s p).trying = none) ∧ (compassUp s = true) ∧ ((port s p).outcome = 0) ∧ 2 ≤ hailCheck s p b) ∧
  (∃ (p : Fin 12) (s : State) (d : Nat), (hailPeriod (port s p) = some d) ∧ (port s p).hailAt + d ≤ s.clock) ∧
  (∃ (p : Fin 12) (s : State), (stageDone (port s p) = true) ∧ ((port s p).stage = some .a) ∧ ((port s p).state = .training) ∧ ((port s p).outcome = 0) ∧ ((port s p).hailed = false) ∧ (port s p).hailFrom + 4000000 * reg s 0x2600 7 ≤ s.clock) ∧
  (∃ (p : Fin 12) (b : BitVec 256) (s : State), ControlTaken s p b ctDepart) :=
  ⟨⟨0, aHail 1, plannedPort id, (by unfold ControlTaken; decide +kernel), by decide +kernel⟩,
   ⟨0, aHail 2, plannedPort id, (by unfold ControlTaken; decide +kernel), by decide +kernel⟩,
   ⟨0, onP0 { readyPort with outcome := 0 }, 4000, by decide +kernel⟩,
   ⟨0, plannedPort id, by decide +kernel⟩,
   ⟨0, ctl 0xC6 [], onP0 readyPort, (by unfold ControlTaken; decide +kernel)⟩⟩

/-- The hypotheses of PortsAndPlanWritten are met. -/
theorem test_hypotheses_of_PortsAndPlanWritten :
  (∃ (w : WriteHdr) (s : State), ∃ p, (p = wsel s w 0x2000 3) ∧ (regAt s 0x2000 5 p ≠ 0) ∧ ((port s p).state ≠ .absent) ∧ WriteTaken (writeReq w 0x2000 5 [0]) s) ∧
  (∃ (w : WriteHdr) (s : State), ∃ p, (p = wsel s w 0x2000 3) ∧ (regAt s 0x2000 5 p = 0) ∧ ((port s p).state = .absent) ∧ ((port s p).heldOff = false) ∧ ((port s p).thermOff = false) ∧ (s.flash.returned = false) ∧ (s.pins.pcycReq = false) ∧ (s.pins.cutWarn = false) ∧ (s.pins.cutGone = none) ∧ (homeThere s p = true) ∧ (0 < portWidth s p) ∧ (s.phase = .running) ∧ WriteTaken (writeReq w 0x2000 5 [1]) s) ∧
  (∃ (w : WriteHdr) (s : State), ∃ p, (p = wsel s w 0x2400 1) ∧ ((port s p).state ≠ .absent) ∧ WriteTaken (writeReq w 0x2400 0x17 [1]) s) ∧
  (∃ (w : WriteHdr) (s : State), ∃ p, (p = wsel s w 0x2000 3) ∧ ((port s p).state ≠ .absent) ∧ WriteTaken (writeReq w 0x2000 0xC [1]) s) ∧
  (∃ (w : WriteHdr) (v : BitVec 8) (s : State), (v.toNat ≤ 11) ∧ (testPort s = none) ∧ (working s v.toNat = false) ∧ WriteTaken (writeReq w 0x2300 1 [v]) s) ∧
  (∃ (w : WriteHdr) (v : BitVec 64) (s : State), (fld v.toNat 0 4 ≤ 11) ∧ (1 ≤ fld v.toNat 4 5) ∧ (fld v.toNat 4 5 ≤ 16) ∧ (fld v.toNat 11 16 ≠ 0) ∧ (fld v.toNat 27 32 = 0) ∧ WriteTaken (writeReq w 0x2300 0xA (leBytes 8 v.toNat)) s) ∧
  (∃ (w : WriteHdr) (v : BitVec 64) (s : State), ∃ o, (o = fld v.toNat 0 4) ∧ (o ≤ 11) ∧ (1 ≤ fld v.toNat 4 5) ∧ (fld v.toNat 4 5 ≤ 16) ∧ (fld v.toNat 11 16 ≠ 0) ∧ (injectable s o = true) ∧ WriteTaken (writeReq w 0x2300 0xA (leBytes 8 v.toNat)) s) ∧
  (∃ (w : WriteHdr) (v : BitVec 64) (s : State), ∃ p, (p = fld v.toNat 0 4) ∧ (p ≤ 11) ∧ (fld v.toNat 24 4 ≤ 11) ∧ ((port s p).state ≠ .extra) ∧ ((port s p).state ≠ .quarantined) ∧ (working s p = false) ∧ WriteTaken (writeReq w 0x2600 1 (leBytes 8 v.toNat)) s) ∧
  (∃ (w : WriteHdr) (v : BitVec 32) (s : State), ((∀ p, (port s p).state ≠ .extra ∧ (port s p).state ≠ .quarantined)) ∧ WriteTaken (writeReq w 0x2600 4 (leBytes 4 v.toNat)) s) :=
  ⟨⟨w0, upBase, _, rfl, then2 (by decide +kernel) (taken (by decide +kernel))⟩,
   ⟨w0, setRegAt { base with ports := [] } 0x2000 5 0 0, _, rfl, (by decide +kernel), then2 (by decide +kernel) (then4 (by decide +kernel) (then4 (by decide +kernel) (taken (by decide +kernel))))⟩,
   ⟨w0, upBase, _, rfl, (by decide +kernel), (taken (by decide +kernel))⟩,
   ⟨w0, upBase, _, rfl, (by decide +kernel), (taken (by decide +kernel))⟩,
   ⟨w0, 4, base, (by decide +kernel), then2 (by decide +kernel) (taken (by decide +kernel))⟩,
   ⟨keyed (base) 0x2300 0xA (leBytes 8 0x905) 3, 0x905, base, (by decide +kernel), then4 (by decide +kernel) (taken_keyed (by decide +kernel))⟩,
   ⟨keyed (upBase) 0x2300 0xA (leBytes 8 0x8000820) 3, 0x8000820, upBase, 0, then2 (by decide +kernel) (then4 (by decide +kernel) (taken_keyed (by decide +kernel)))⟩,
   ⟨keyed (base) 0x2600 1 (leBytes 8 0x3000110) 2, 0x3000110, base, _, rfl, (by decide +kernel), then4 (by decide +kernel) (taken_keyed (by decide +kernel))⟩,
   ⟨keyed ({ base with ports := [] }) 0x2600 4 (leBytes 4 77) 2, 77, { base with ports := [] }, (fun _ => ⟨nofun, nofun⟩), (taken_keyed (by decide +kernel))⟩⟩

/-- P0 as given, its two octets in use, and lane 3 as given. -/
def lanes0 (x : Port) (y : Lane) : State := { onP0 x with
  octets := [(0, { Octet.reset with state := 0 }), (1, { Octet.reset with state := 0 })], lanes := [(3, y)] }

/-- A lane without signal. -/
def dark : Lane := { Lane.reset with los := true, lol := true }

/-- The hypotheses of LanesLoseSignal are met. -/
theorem test_hypotheses_of_LanesLoseSignal :
  (∃ (l : Fin 108) (p : Nat) (s : State), ((lane s l).los = false) ∧ (octetPort s (l / 9) = some p) ∧ ((port s p).trying = some .a) ∧ awake s = true) ∧
  (∃ (l : Fin 108) (p : Nat) (s : State), ((lane s l).lol = false) ∧ (octetPort s (l / 9) = some p) ∧ ((port s p).trying = some .a) ∧ awake s = true) ∧
  (∃ (l : Fin 108) (p : Nat) (s : State) (i : Instr), (((i = .laneLos l ∧ (lane s l).los = false) ∨ (i = .laneLol l ∧ (lane s l).lol = false))) ∧ (octetPort s (l / 9) = some p) ∧ (stageDone (port s p) = true) ∧ ((port s p).stage = some .a) ∧ (((octet s (l / 9)).state = 0 ∨ (octet s (l / 9)).state = 1)) ∧ ((lane s l).role ≠ 4) ∧ (lane s l).role ≠ 5) ∧
  (∃ (l : Fin 108) (p : Nat) (s : State), ((lane s l).los = true) ∧ (octetPort s (l / 9) = some p) ∧ (port s p).state ≠ .absent) ∧
  (∃ (l : Fin 108) (s : State), (lane s l).lol = true) ∧
  (∃ (l : Fin 108) (s : State), (lane s l).los = true) :=
  ⟨⟨3, 0, lanes0 Port.training Lane.reset, by decide +kernel⟩,
   ⟨3, 0, lanes0 Port.training Lane.reset, by decide +kernel⟩,
   ⟨3, 0, lanes0 readyPort Lane.reset, .laneLos 3, (Or.inl ⟨rfl, by decide +kernel⟩), by decide +kernel⟩,
   ⟨3, 0, lanes0 readyPort dark, by decide +kernel⟩,
   ⟨3, lanes0 readyPort dark, (by decide +kernel)⟩,
   ⟨3, lanes0 readyPort dark, (by decide +kernel)⟩⟩

/-- The 32 code groups of a training set that names lane 3, at a running disparity. -/
def aSet (rd : Bool) : List CodeGroup :=
  ((Char8.ctl 0xBC :: List.replicate 31 (.data 0x4A)).foldl (fun (a : List CodeGroup × Bool) c =>
    (a.1 ++ [(encodeGroup c a.2).1], (encodeGroup c a.2).2)) ([], rd)).1

/-- P0 trains stage B after stage A. -/
def stageB : Port := { readyPort with stage := some .a, trying := some .b }

/-- The hypotheses of LanesTrain are met. -/
theorem test_hypotheses_of_LanesTrain :
  (∃ (l : Fin 108) (p : Nat) (groups : List CodeGroup) (s : State), (SeesSets s l p) ∧ (groups.length = 32) ∧ ((((decodeGroups groups (lane s l).disparity).1.head?.bind id).map (·.1)) = some k28_5) ∧ ((decodeGroups groups (lane s l).disparity).1.all Option.isSome = true) ∧ (3 ≤ (lane s l).commas) ∧ (lane s l).sets = 0) ∧
  (∃ (l : Fin 108) (p : Nat) (s : State), (SeesSets s l p) ∧ ((lane s l).aligned = false) ∧ (lane s l).slipAt + 993 ≤ s.clock) ∧
  (∃ (l : Fin 108) (p : Nat) (st : Stage) (c : BitVec 64) (s : State), (SeesFrames s l p st) ∧ (ctlCheck c.toNat = fld c.toNat 60 4) ∧ (bitAt c.toNat 33 = false) ∧ fld c.toNat 8 2 = st.code) ∧
  (∃ (l : Fin 108) (c : BitVec 64) (s : State), (ctlCheck c.toNat ≠ fld c.toNat 60 4) ∧ (∀ p, octetPort s (l / 9) = some p → (port s p).widening = false)) ∧
  (∃ (l : Fin 108) (p : Nat) (ctle : Fin 41) (dfe : List (BitVec 8)) (s : State), (octetPort s (l / 9) = some p) ∧ (dfe.length = 12) ∧ ((port s p).stepAt = none) ∧ (trainsFrames (port s p) = true) ∧ (lane s l).los = false) :=
  ⟨⟨3, 0, aSet false, lanes0 Port.training { Lane.reset with commas := 3 }, (by unfold SeesSets; decide +kernel), by decide +kernel⟩,
   ⟨3, 0, lanes0 Port.training Lane.reset, (by unfold SeesSets; decide +kernel), by decide +kernel⟩,
   ⟨3, 0, .b, ownControl (lanes0 stageB { Lane.reset with rxReady := true, precodeRx := true }) 0 3 .b false, lanes0 stageB Lane.reset, (by unfold SeesFrames; decide +kernel), by decide +kernel⟩,
   ⟨3, 1, base, by decide +kernel⟩,
   ⟨3, 0, 0, List.replicate 12 0, lanes0 stageB Lane.reset, by decide +kernel⟩⟩

/-- A window in which every lane of a port passed, as a check that can be evaluated. -/
theorem window_of {s : State} {p : Nat} {counts : List LaneCount} (h : ((portLanes s p).all fun l => !deaf (lane s l) && (lane s l).marker.isSome &&
    (match countOf counts l with | some c => ratioOk c.errors c.bits (port s p).attempt.ratio | none => false)) = true) :
    WindowPassed s p counts := by
  intro l hl
  have h1 := List.all_eq_true.mp h l hl
  simp only [Bool.and_eq_true, Bool.not_eq_true'] at h1
  refine ⟨h1.1.1, h1.1.2, ?_⟩
  have h2 := h1.2
  cases e : countOf counts l with
  | none => simp [e] at h2
  | some c => exact ⟨c, rfl, by simpa [e] using h2⟩

/-- The counts of the 18 lanes of P0, without an error. -/
def goodCounts : List LaneCount := (List.range 18).map fun l => { lane := Fin.ofNat 108 l, bits := 1000000, errors := 0 }

/-- P0 trains stage C after stage B. -/
def stageC : Port := { readyPort with stage := some .b, trying := some .c, readyAt := some 0 }

/-- Every lane of P0 holds marker lock. -/
def marked (x : Port) : State := { lanes0 x Lane.reset with
  lanes := (List.range 18).map fun l => (l, { Lane.reset with marker := some 0 }) }

/-- The hypotheses of StagesEnd are met. -/
theorem test_hypotheses_of_StagesEnd :
  (∃ (p : Fin 12) (counts : List LaneCount) (s : State) (since : Nat), ((port s p).stepAt = none) ∧ ((port s p).readyAt = some since) ∧ ((port s p).trying = some .c) ∧ ((port s p).test = false) ∧ ((port s p).shifting = none) ∧ ((port s p).starting = none) ∧ (since + 4000000 * (port s p).attempt.window ≤ s.clock) ∧ ((∃ o ∈ portOctets s p, (octet s o).state ≠ 3)) ∧ (minWidth s p ≤ portWidth s p) ∧ WindowPassed s p counts) ∧
  (∃ (p : Fin 12) (counts : List LaneCount) (s : State), ((port s p).test = true) ∧ bitAt (reg s 0x2300 2) 1 = true) ∧
  (∃ (p : Fin 12) (s : State) (st : Stage) (n since : Nat), ((port s p).starting = some (n, since)) ∧ ((port s p).trying = some st) ∧ ((port s p).shifting = none) ∧ since + n * frameSpan (some st) ≤ s.clock) ∧
  (∃ (p : Fin 12) (s : State), (port s p).starting = none) ∧
  (∃ (p : Fin 12) (s : State) (st : Stage) (n since : Nat), ((port s p).starting = some (n, since)) ∧ ((port s p).trying = some st) ∧ s.clock < since + n * frameSpan (some st)) ∧
  (∃ (p : Fin 12) (s : State) (hi lo : Stage), ((hi, lo) ∈ [(Stage.b, Stage.a), (.c, .b)]) ∧ ((port s p).stepAt = none) ∧ ((port s p).trying = some hi) ∧ ((port s p).test = false) ∧ ((port s p).shifting = none) ∧ ((port s p).starting = none) ∧ (port s p).tryAt + 4000000 * (port s p).attempt.limit ≤ s.clock) ∧
  (∃ (p : Fin 12) (s : State), ((port s p).state = .absent) ∧ ((port s p).waitSignal = false) ∧ ((port s p).test = false) ∧ ((port s p).tryAt + 4000000000 ≤ s.clock) ∧ (portOpen s p = true) ∧ (0 < portWidth s p) ∧ s.phase = .running) :=
  ⟨⟨0, goodCounts, marked stageC, 0, (by decide +kernel), then4 (by decide +kernel) (then4 (by decide +kernel) (window_of (by decide +kernel)))⟩,
   ⟨0, goodCounts, setReg (lanes0 { Port.training with test := true } Lane.reset) 0x2300 2 2, by decide +kernel⟩,
   ⟨0, lanes0 { stageC with starting := some (8, 0) } Lane.reset, .c, 8, 0, by decide +kernel⟩,
   ⟨0, base, (by decide +kernel)⟩,
   ⟨0, lanes0 { stageC with starting := some (8, 10000000000000) } Lane.reset, .c, 8, 10000000000000, by decide +kernel⟩,
   ⟨0, lanes0 stageC Lane.reset, .c, .b, by decide +kernel⟩,
   ⟨0, onP0 Port.reset, by decide +kernel⟩⟩

/-- P0 works at stage C with a lane command as given. -/
def commanded (m : Option Lmc) : State := lanes0 { upPort with lmc := m } Lane.reset

/-- A WIDTH to one octet, and a SPARE of lane 3. -/
def anLmc (cmd arg : Nat) (own acked : Bool) : Lmc :=
  { cmd := cmd, arg := BitVec.ofNat 8 arg, own := own, at_ := 0, acked := acked, tx := none, rx := none, txDone := false, rxDone := false }

/-- A countdown of 16 frames that began at the start, and one that begins now. -/
def past : Option (Nat × Mt) := some (16, 0)
def begins : Option (Nat × Mt) := some (16, 10000000000000)

/-- The hypotheses of CodewordsAndLaneCommands are met. -/
theorem test_hypotheses_of_CodewordsAndLaneCommands :
  (∃ (o : Fin 12) (c : Fin 4) (symbols : List (BitVec 10)) (s : State) (p : Nat), (octetPort s o = some p) ∧ (runsFec (port s p) = true) ∧ (((octet s o).state = 0 ∨ (octet s o).state = 1)) ∧ (symbols.length = 240) ∧ c.val ≠ 3) ∧
  (∃ (p : Fin 12) (arg : BitVec 8) (s : State) (i : Instr) (cmd : Nat), ((i, cmd) ∈ [(Instr.spare p arg, 1), (.unspare p arg, 2), (.width p arg, 3), (.shift p arg, 4)]) ∧ (PeerMayCommand s p cmd arg) ∧ refusesLmc s p cmd arg = false) ∧
  (∃ (p : Fin 12) (arg : BitVec 8) (s : State) (i : Instr) (cmd : Nat), ((i, cmd) ∈ [(Instr.spare p arg, 1), (.shift p arg, 4)]) ∧ (PeerMayCommand s p cmd arg) ∧ refusesLmc s p cmd arg = true) ∧
  (∃ (p : Fin 12) (arg cd : BitVec 8) (s : State) (m : Lmc), ((port s p).lmc = some m) ∧ (m.own = true) ∧ (m.acked = false) ∧ (m.cmd = arg.toNat) ∧ (m.rx = none) ∧ m.rxDone = false) ∧
  (∃ (p : Fin 12) (arg cd : BitVec 8) (s : State) (m : Lmc), ((port s p).lmc = some m) ∧ (m.own = false) ∧ (bothWays m.cmd = true) ∧ (m.cmd = arg.toNat) ∧ (m.rx = none) ∧ m.rxDone = false) ∧
  (∃ (p : Fin 12) (arg : BitVec 8) (s : State) (m : Lmc) (i : Instr), ((port s p).lmc = some m) ∧ (m.own = true) ∧ (m.acked = false) ∧ ((port s p).lmcQ = []) ∧ ((i = .refuse p arg ∧ m.cmd = arg.toNat) ∨ (i = .lmcRepeatTimeout p ∧ m.at_ + 80000 ≤ s.clock))) :=
  ⟨⟨0, 0, List.replicate 240 0, commanded none, 0, by decide +kernel⟩,
   ⟨0, 1, commanded none, .width 0 1, 3, (by decide +kernel), (by unfold PeerMayCommand; decide +kernel), (by decide +kernel)⟩,
   ⟨0, 2, updPort (commanded none) 0 fun x => { x with highest := 1 }, .shift 0 2, 4, (by decide +kernel), (by unfold PeerMayCommand; decide +kernel), (by decide +kernel)⟩,
   ⟨0, 3, 5, commanded (some (anLmc 3 1 true false)), anLmc 3 1 true false, by decide +kernel⟩,
   ⟨0, 3, 5, commanded (some (anLmc 3 1 false true)), anLmc 3 1 false true, by decide +kernel⟩,
   ⟨0, 3, commanded (some (anLmc 3 1 true false)), anLmc 3 1 true false, .refuse 0 3, then4 (by decide +kernel) (Or.inl ⟨rfl, rfl⟩)⟩⟩

/-- The hypotheses of SwitchFrames are met. -/
theorem test_hypotheses_of_SwitchFrames :
  (∃ (p : Fin 12) (s : State) (m : Lmc), ((port s p).lmc = some m) ∧ (m.cmd = 3) ∧ ((port s p).lmcQ = []) ∧ (CountedDown s p m.tx) ∧ (CountedDown s p m.rx) ∧ s.colls = []) ∧
  (∃ (p : Fin 12) (s : State) (m : Lmc), ((port s p).lmc = some m) ∧ (m.cmd = 3) ∧ (CountedDown s p m.tx) ∧ (m.rx = none) ∧ (m.rxDone = false) ∧ s.colls = []) ∧
  (∃ (p : Fin 12) (s : State) (m : Lmc) (o : Nat), ((port s p).lmc = some m) ∧ (m.own = false) ∧ (m.cmd = 1) ∧ (argOctet s p m.arg = some o) ∧ ((port s p).lmcQ = []) ∧ (CountedDown s p m.tx) ∧ (m.rx = none) ∧ s.colls = []) ∧
  (∃ (p : Fin 12) (s : State) (m : Lmc) (l : Nat), ((port s p).lmc = some m) ∧ (m.own = true) ∧ (m.cmd = 1) ∧ (laneOfArg s p m.arg = some l) ∧ ((port s p).lmcQ = []) ∧ (CountedDown s p m.rx) ∧ (m.tx = none) ∧ s.colls = []) ∧
  (∃ (p : Fin 12) (s : State) (m : Lmc), ((port s p).lmc = some m) ∧ (∀ n since, m.tx = some (n, since) ∨ m.rx = some (n, since) → s.clock < since + n * frameSpan (port s p).stage)) ∧
  (∃ (p : Fin 12) (s : State) (st : Stage) (since : Nat), ((port s p).shifting = some (st, since)) ∧ (shiftOver s p = false) ∧ since + 4000 * reg s 0x2500 7 ≤ s.clock) ∧
  (∃ (p : Fin 12) (s : State), (port s p).shifting = none) :=
  ⟨⟨0, commanded (some { anLmc 3 1 true true with tx := past, rx := past }), { anLmc 3 1 true true with tx := past, rx := past }, (by decide +kernel), then2 (by decide +kernel) ⟨⟨16, 0, rfl, by decide +kernel⟩, ⟨16, 0, rfl, by decide +kernel⟩, (by decide +kernel)⟩⟩,
   ⟨0, commanded (some { anLmc 3 1 true true with tx := past }), { anLmc 3 1 true true with tx := past }, then2 (by decide +kernel) ⟨⟨16, 0, rfl, by decide +kernel⟩, by decide +kernel⟩⟩,
   ⟨0, commanded (some { anLmc 1 3 false true with tx := past }), { anLmc 1 3 false true with tx := past }, 0, (by decide +kernel), then4 (by decide +kernel) ⟨⟨16, 0, rfl, by decide +kernel⟩, by decide +kernel⟩⟩,
   ⟨0, setLane (commanded (some { anLmc 1 3 true true with rx := past })) 3 { Lane.reset with peerLane := 3 }, { anLmc 1 3 true true with rx := past }, 3, (by decide +kernel), then4 (by decide +kernel) ⟨⟨16, 0, rfl, by decide +kernel⟩, by decide +kernel⟩⟩,
   ⟨0, commanded (some { anLmc 1 3 true true with rx := begins }), { anLmc 1 3 true true with rx := begins }, (by decide +kernel), (by intro n since h; rcases h with h | h <;> cases h <;> decide +kernel)⟩,
   ⟨0, onP0 { upPort with shifting := some (.b, 0) }, .b, 0, by decide +kernel⟩,
   ⟨0, upBase, (by decide +kernel)⟩⟩

/-- A device whose Meridian unit is as given. -/
def atMer (m : Meridian) : State := { base with mer := m }

/-- The Meridian master, LOCKED. -/
def masterMer : Meridian := { Meridian.reset with state := .locked, everLocked := true, stratum := 0, isMaster := true, count := 4000000000000 }

/-- Node 0 is designated. -/
def named (m : Meridian) : State := setReg (atMer m) 0x9010 1 0x10000

/-- The hypotheses of MeridianTime are met. -/
theorem test_hypotheses_of_MeridianTime :
  (∃ s : State, (isMaster s = false ∨ s.mer.isMaster = false)) ∧
  (∃ s : State, (EdgeAccepted s) ∧ s.mer.setTo = none) ∧
  (∃ (s : State) (n : Nat), (EdgeAccepted s) ∧ (s.mer.setTo = some n) ∧ (s.mer.count < n) ∧ (n < 2 ^ 64) ∧ SmallSample s n) ∧
  (∃ (s : State) (a : Nat), (s.mer.merRefAt = some a) ∧ s.clock < a + 3600000) ∧
  (∃ (s : State) (a : Nat), (awake s = true) ∧ (s.mer.isMaster = true) ∧ (s.mer.refGone = false) ∧ (s.mer.merRefAt = some a) ∧ a + 12000000 ≤ s.clock) ∧
  (∃ s : State, s.mer.refGone = true) ∧
  (∃ s : State, (awake s = true) ∧ (isMaster s = true) ∧ (s.mer.isMaster = false) ∧ ((s.mer.state = .acquiring ∨ s.mer.state = .locked)) ∧ (upstreams s = []) ∧ s.mer.upAt + 16000 * reg s 0x9020 1 ≤ s.clock) ∧
  (∃ (s : State) (a : Nat), (awake s = true) ∧ (s.mer.state = .holdover) ∧ (s.mer.holdTold = false) ∧ (s.mer.holdFrom = some a) ∧ a + 4000000000 * reg s 0x9020 4 ≤ s.clock) ∧
  (∃ (s : State) (a : Nat), (isMaster s = true) ∧ (s.mer.isMaster = false) ∧ (RoleFree s) ∧ (s.mer.merRefAt = some a) ∧ s.clock < a + 12000000) ∧
  (∃ s : State, (isMaster s = true) ∧ (s.mer.isMaster = false) ∧ (RoleFree s) ∧ s.mer.merRefAt = none) ∧
  (∃ (w : WriteHdr) (standby : Bool) (v : BitVec 32) (s : State), ∃ sub, (sub = (if standby then 2 else 1)) ∧ WriteTaken (writeReq w 0x9010 sub (leBytes 4 v.toNat)) s) ∧
  (∃ (w : WriteHdr) (time : BitVec 64) (s : State), (s.mer.isMaster = true) ∧ (time.toNat % 4000000 = 0) ∧ (countAtEdge s < time.toNat) ∧ WriteTaken (writeReq w 0x9010 4 (leBytes 8 time.toNat)) s) :=
  ⟨⟨base, (by decide +kernel)⟩,
   ⟨atMer masterMer, (by unfold EdgeAccepted; exact ⟨by decide +kernel, by decide +kernel, by decide +kernel, nofun⟩), (by decide +kernel)⟩,
   ⟨atMer { masterMer with setTo := some 4000004000000, first := true }, 4000004000000, (by unfold EdgeAccepted; exact ⟨by decide +kernel, by decide +kernel, by decide +kernel, nofun⟩), (by decide +kernel), then2 (by decide +kernel) (Or.inl ⟨Or.inl rfl, by decide +kernel⟩)⟩,
   ⟨atMer { masterMer with merRefAt := some 10000000000000 }, 10000000000000, by decide +kernel⟩,
   ⟨atMer { masterMer with merRefAt := some 0 }, 0, by decide +kernel⟩,
   ⟨atMer { masterMer with refGone := true }, (by decide +kernel)⟩,
   ⟨atMer { Meridian.reset with state := .locked }, by decide +kernel⟩,
   ⟨atMer { masterMer with state := .holdover, holdFrom := some 0 }, 0, by decide +kernel⟩,
   ⟨named { Meridian.reset with merRefAt := some 9999999999999 }, 9999999999999, then2 (by decide +kernel) ⟨(by unfold RoleFree; exact Or.inl ⟨by decide +kernel, by decide +kernel, nofun⟩), by decide +kernel⟩⟩,
   ⟨named Meridian.reset, then2 (by decide +kernel) ⟨(by unfold RoleFree; exact Or.inl ⟨by decide +kernel, by decide +kernel, nofun⟩), (by decide +kernel)⟩⟩,
   ⟨keyed (base) 0x9010 2 (leBytes 4 0x10003) 2, true, 0x10003, base, 2, (by decide +kernel), (taken_keyed (by decide +kernel))⟩,
   ⟨keyed (atMer masterMer) 0x9010 4 (leBytes 8 4000004000000) 2, 4000004000000, atMer masterMer, (by decide +kernel), then2 (by decide +kernel) (taken_keyed (by decide +kernel))⟩⟩

/-- Inst 1 of a cascade with P0 as given, its time LOCKED. -/
def inst1 (f : Port → Port) : State := locked { onP0 (f upPort) with pins := { Pins.reset with instId := 1 } }

/-- A beacon of node 3. -/
def aBeacon : BitVec 256 := control 0xC7 0 0 [cb 5 8 1100, cb 13 8 1000, cb 21 2 3, cb 23 1 2]

/-- Its first beacon since the own one. -/
def sampling (x : Port) : Port := { x with t1 := 3999999999800 }
def sampled (x : Port) : Port := { sampling x with delays := List.replicate 16 20 }

/-- The hypotheses of Beacons are met. -/
theorem test_hypotheses_of_Beacons :
  (∃ (p : Fin 12) (s : State), ((port s p).state.works = true) ∧ ((((port s p).beaconAt + 4000 * reg s 0x9020 1 ≤ s.clock ∧ 0 < (port s p).fresh) ∨ (port s p).beaconAt + 16000 * reg s 0x9020 1 ≤ s.clock)) ∧ (mayControl s p = true) ∧ replayWaits s p = false) ∧
  (∃ (p : Fin 12) (s : State), s.clock < (port s p).beaconAt + 4000 * reg s 0x9020 1) ∧
  (∃ (p : Fin 12) (b : BitVec 256) (s : State), (ControlTaken s p b ctBeacon) ∧ (port s p).fresh ≠ 0) ∧
  (∃ (p : Fin 12) (b : BitVec 256) (s : State) (d off : Int), (ControlTaken s p b ctBeacon) ∧ (isMaster s = false) ∧ (Completes s p b) ∧ ((port s p).delays.length < 16) ∧ (d = SampleDelay s p b) ∧ off = (s.mer.count : Int) - ((cNum b 5 8 : Int) + d)) ∧
  (∃ (p : Fin 12) (b : BitVec 256) (s : State) (d : Int), (ControlTaken s p b ctBeacon) ∧ (isMaster s = false) ∧ (Completes s p b) ∧ ((port s p).delays.length = 16) ∧ (d = SampleDelay s p b) ∧ 20 < d - meanDelay (port s p)) ∧
  (∃ (src : Fin 4) (p : Fin 12) (delay off : Int) (m : NodeId) (st : BitVec 8) (h : Bool) (s : State), (awake s = true) ∧ (isMaster s = true) ∧ src.val ≠ 0) ∧
  (∃ (src : Fin 4) (p : Fin 12) (delay : Int) (m : NodeId) (st : BitVec 8) (h : Bool) (s : State), (awake s = true) ∧ (isMaster s = true) ∧ src.val ≠ 0) ∧
  (∃ (src : Fin 4) (p : Fin 12) (delay : Int) (off : Option Int) (m : NodeId) (st : BitVec 8) (h : Bool) (s : State), isMaster s = false) :=
  ⟨⟨0, locked upBase, by decide +kernel⟩,
   ⟨0, { upBase with clock := 0 }, (by decide +kernel)⟩,
   ⟨0, aBeacon, onP0 { upPort with fresh := 1 }, (by unfold ControlTaken; decide +kernel), (by decide +kernel)⟩,
   ⟨0, aBeacon, inst1 sampling, 50, 3999999998850, (by unfold ControlTaken; decide +kernel), (by decide +kernel), (by unfold Completes; decide +kernel), by decide +kernel⟩,
   ⟨0, aBeacon, inst1 sampled, 50, (by unfold ControlTaken; decide +kernel), (by decide +kernel), (by unfold Completes; decide +kernel), by decide +kernel⟩,
   ⟨1, 0, 3, 4, 5, 6, false, base, by decide +kernel⟩,
   ⟨1, 0, 4, 5, 6, false, base, by decide +kernel⟩,
   ⟨0, 3, 4, none, 5, 6, false, inst1 id, (by decide +kernel)⟩⟩

/-- Charts are enabled and go to rank 0 of partition 0, which is this node; an interval has just closed. -/
def charting : State := setReg { locked windowed with
  ports := upBase.ports, charts := { Charts.reset with closed := some (0, 100, zeros 8, 0) } } 0xB000 2 1

/-- A chart packet that the loop-back account holds. -/
def chartPkt (w : Nat) : Pkt :=
  { aPkt [(0, 0xBF), (24, 1), (32, 1), (56, 1), (72, 5), (110, w), (154, 64)] (zeros 64) with acct := .loopBack, inPort := none }

/-- The hypotheses of ChartsAreMade are met. -/
theorem test_hypotheses_of_ChartsAreMade :
  (∃ s : State, (timed s = true) ∧ (s.charts.samples < 255) ∧ s.charts.start * 255 + s.charts.samples * (4000 * s.charts.length) ≤ s.mer.count * 255) ∧
  (∃ (s : State) (b : Nat), (inTurn s 5 (nextMultiple (chartSpan s) s.charts.start) = true) ∧ (b = s.mer.count / chartSpan s * chartSpan s) ∧ (b ≠ s.charts.start / chartSpan s * chartSpan s) ∧ s.colls = []) ∧
  (∃ s : State, reg s 0xB000 2 = 0) ∧
  (∃ (s : State) (start len : Nat) (head : Bytes) (part : Nat), (s.charts.closed = some (start, len, head, part)) ∧ (reg s 0xB000 2 ≠ 0) ∧ (timeCome s (start + usMt len + chartSlot s % 128 * usMt len / 256) = true) ∧ (partPorts s part ≠ []) ∧ (translateRank s (reg s 0xB000 3) (reg s 0xB000 4) = .ok (ownNode s)) ∧ loopUsed s + footprint (chartPayload s start len head part (partPorts s part)).length ≤ regionCells s 5) ∧
  (∃ (id : Nat) (x : Pkt) (p : Place) (s : State), (chartAt s id = some x) ∧ translateRequest s x.header false = .ok (.here p)) ∧
  (∃ (id : Nat) (x : Pkt) (st : Status) (s : State), (chartAt s id = some x) ∧ translateRequest s x.header false = .error st) :=
  ⟨⟨locked base, by decide +kernel⟩,
   ⟨locked base, 4000000000000, by decide +kernel⟩,
   ⟨base, (by decide +kernel)⟩,
   ⟨charting, 0, 100, zeros 8, 0, by decide +kernel⟩,
   ⟨9, chartPkt 0, placeOf false 0 0, { charting with pkts := [chartPkt 0] }, (by decide +kernel), rfl⟩,
   ⟨9, chartPkt 1, .noWindow, { charting with pkts := [chartPkt 1] }, (by decide +kernel), rfl⟩⟩

/-- The frame of a READ of the own node id, as the host window holds it. -/
def readFrame : Bytes := [1, 1] ++ zeros 4 ++ [10, 0] ++ zeros 4 ++ [0x00, 0x30, 1, 0, 0, 0, 0, 0, 2, 0]

/-- The hypotheses of DictionaryTransactions are met. -/
theorem test_hypotheses_of_DictionaryTransactions :
  (∃ (env : Envelope) (xid i : BitVec 16) (j : BitVec 8) (off : BitVec 32) (len : BitVec 16) (s : State) (q : DictReq) (r : Row) (v : Bytes × Nat), (q = fieldRead env xid i j off len) ∧ (Taken q s) ∧ (v = valuePart (received q s) (ownerOf q.path) q.index q.sub q.offset q.len r) ∧ ReadFits q r v.2) ∧
  (∃ (n : BitVec 32) (length : BitVec 16) (request : Bytes) (s : State) (q : DictReq) (r : Row) (v : Bytes × Nat), (q = submitReq n (request.take length.toNat) false) ∧ (length.toNat ≤ 1536) ∧ (fdpFrameOk (request.take length.toNat) = true) ∧ (byteAt (request.take length.toNat) 1 = 1) ∧ (Taken q s) ∧ (v = valuePart (received q s) (ownerOf q.path) q.index q.sub q.offset q.len r) ∧ ReadFits q r v.2) ∧
  (∃ (n : BitVec 32) (length : BitVec 16) (request : Bytes) (s : State), s.mgmt.lastSubmit = some n) ∧
  (∃ (w : WriteHdr) (v : Nat) (s : State), (v < 4096) ∧ WriteTaken (writeReq w 0x4000 1 (leBytes 2 v)) s) ∧
  (∃ (w : WriteHdr) (v : Nat) (s : State), (2 ≤ v) ∧ (v ≤ 100) ∧ WriteTaken (writeReq w 0x9020 1 (leBytes 2 v)) s) ∧
  (∃ (w : WriteHdr) (s : State), WriteTaken (writeReq w 0x1020 2 [1]) s) ∧
  (∃ (env : Envelope) (xid i : BitVec 16) (j : BitVec 8) (off : BitVec 32) (len : BitVec 16) (s : State), (env.fcs = false ∨ env.vlan = true ∨ env.etherType ≠ 0x88B5 ∨ (env.dst ≠ ownMac s ∧ env.dst ≠ BitVec.allOnes 48))) ∧
  (∃ (frame : EthFrame) (s : State), (dictionaryUp s = true) ∧ (fdpFrameOk frame.payload = false) ∧ frameAccepted s frame.env (byteAt frame.payload 1 == 1) = true) :=
  ⟨⟨envelopeTo 0, 1, 0x3000, 1, 0, 2, base, _, (rowOf 0x3000 1).getD ⟨0, .u8, .rw, 0, 0, 0, 0⟩, _, rfl, (by unfold Taken; decide +kernel), rfl, (by unfold ReadFits; decide +kernel)⟩,
   ⟨4, 22, readFrame, base, _, (rowOf 0x3000 1).getD ⟨0, .u8, .rw, 0, 0, 0, 0⟩, _, rfl, (by decide +kernel), then2 (by decide +kernel) ⟨(by unfold Taken; decide +kernel), rfl, (by unfold ReadFits; decide +kernel)⟩⟩,
   ⟨4, 0, [], { base with mgmt := { base.mgmt with lastSubmit := some 4 } }, (by decide +kernel)⟩,
   ⟨w0, 4095, base, (by decide +kernel), (taken (by decide +kernel))⟩,
   ⟨w0, 100, base, then2 (by decide +kernel) (taken (by decide +kernel))⟩,
   ⟨w0, base, (taken (by decide +kernel))⟩,
   ⟨{ envelopeTo 0 with vlan := true }, 1, 0x3000, 1, 0, 2, base, (by decide +kernel)⟩,
   ⟨⟨envelopeTo 0, []⟩, base, by decide +kernel⟩⟩

/-- Inst 1 is present. -/
def pkg : State := { base with cascade := { base.cascade with present := [1] } }

/-- A window drain waits for one access since a time. -/
def draining (x : Access) : State := { accessing x with tables := { windowed.tables with drain := some (0, writeReq w0 0x4200 4 [1]) } }

/-- The hypotheses of IncarnationsAndDrains are met. -/
theorem test_hypotheses_of_IncarnationsAndDrains :
  (∃ (w : WriteHdr) (v : BitVec 32) (s : State) (n : NodeId) (inc : BitVec 8), (n = BitVec.ofNat 16 (fld v.toNat 0 16)) ∧ (inc = BitVec.ofNat 8 (fld v.toNat 16 8)) ∧ (s.cascade.present = []) ∧ WriteTaken (writeReq w 0x3300 1 (leBytes 4 v.toNat)) s) ∧
  (∃ (w : WriteHdr) (v : BitVec 32) (s : State) (n : NodeId) (inc : BitVec 8), (n = BitVec.ofNat 16 (fld v.toNat 0 16)) ∧ (inc = BitVec.ofNat 8 (fld v.toNat 16 8)) ∧ (s.cascade.present ≠ []) ∧ WriteTaken (writeReq w 0x3300 1 (leBytes 4 v.toNat)) s) ∧
  (∃ (w : WriteHdr) (v : BitVec 32) (s : State), (incOf s (BitVec.ofNat 16 (fld v.toNat 0 16)) = BitVec.ofNat 8 (fld v.toNat 16 8)) ∧ WriteTaken (writeReq w 0x3300 1 (leBytes 4 v.toNat)) s) ∧
  (∃ (w : WriteHdr) (s : State), (s.accesses = []) ∧ (s.held.any isLent = false) ∧ WriteTaken (writeReq w 0x4200 4 [1]) s) ∧
  (∃ (w : WriteHdr) (s : State), ((s.accesses ≠ [] ∨ s.held.any isLent = true)) ∧ WriteTaken (writeReq w 0x4200 4 [1]) s) ∧
  (∃ (s : State) (a : Mt) (q : DictReq), (s.tables.drain = some (a, q)) ∧ (drainOpen s = false) ∧ (s.mgmt.restarting = false) ∧ s.mgmt.heldReqs = []) ∧
  (∃ (s : State) (a : Mt) (q : DictReq), (s.tables.drain = some (a, q)) ∧ (a + 4000000 ≤ s.clock) ∧ (drainOpen s = true) ∧ (s.mgmt.restarting = false) ∧ (s.mgmt.heldReqs = []) ∧ awake s = true) ∧
  (∃ (s : State) (x : Access) (q : Mt × DictReq), (s.tables.drain = some q) ∧ (x ∈ s.accesses) ∧ x.drained = true) :=
  ⟨⟨keyed (base) 0x3300 1 (leBytes 4 0x20001) 2, 0x20001, base, 1, 2, (by decide +kernel), then2 (by decide +kernel) (taken_keyed (by decide +kernel))⟩,
   ⟨keyed (pkg) 0x3300 1 (leBytes 4 0x20001) 2, 0x20001, pkg, 1, 2, (by decide +kernel), then2 (by decide +kernel) (taken_keyed (by decide +kernel))⟩,
   ⟨keyed (windowed) 0x3300 1 (leBytes 4 0x10001) 2, 0x10001, windowed, (by decide +kernel), (taken_keyed (by decide +kernel))⟩,
   ⟨w0, base, then2 (by decide +kernel) (taken (by decide +kernel))⟩,
   ⟨w0, accessing (anAccess .load 64 []), (by decide +kernel), (taken (by decide +kernel))⟩,
   ⟨draining (anAccess .load 64 []), 0, writeReq w0 0x4200 4 [1], by decide +kernel⟩,
   ⟨draining { anAccess .load 64 [] with drained := true }, 0, writeReq w0 0x4200 4 [1], by decide +kernel⟩,
   ⟨draining { anAccess .load 64 [] with drained := true }, { anAccess .load 64 [] with drained := true }, (0, writeReq w0 0x4200 4 [1]), by decide +kernel⟩⟩

/-- A queued event. -/
def anEvent (sends : Nat) : Event := { eseq := 6, kind := 1, time := 0, body := [], sends := sends, at_ := 0 }

/-- The Compass processor as given. -/
def compass (f : Mgmt → Mgmt) : State := { base with mgmt := f base.mgmt }

/-- The hypotheses of CompassServes are met. -/
theorem test_hypotheses_of_CompassServes :
  (∃ (n : BitVec 32) (s : State), compassUp s = true) ∧
  (∃ (n : BitVec 32) (s : State) (e : Event), (compassUp s = true) ∧ (s.mgmt.events.find? (fun x => x.eseq == n.toNat) = some e) ∧ (e.at_ + 400000000 ≤ s.clock) ∧ e.sends ≤ 10) ∧
  (∃ (n : BitVec 32) (s : State) (e : Event), (s.mgmt.events.find? (fun x => x.eseq == n.toNat) = some e) ∧ (10 < e.sends ∨ s.clock < e.at_ + 400000000)) ∧
  (∃ s : State, compassUp s = true) ∧
  (∃ s : State, (compassUp s = true) ∧ (s.mgmt.announce = true) ∧ (∀ a, s.mgmt.announceAt = some a → a + 4000000000 ≤ s.clock)) ∧
  (∃ s : State, s.mgmt.announce = false) ∧
  (∃ s : State, compassUp s = true) ∧
  (∃ s : State, (s.mgmt.restarting = true) ∧ (NoneWaits s) ∧ (∀ p, p < 12 → (port s p).hail = none)) ∧
  (∃ s : State, (s.mgmt.restarting = false) ∧ NoneWaits s) ∧
  (∃ (s : State) (x : Nat × Stored) (r : List (Nat × Stored)), (compassUp s = true) ∧ (s.mgmt.journal = x :: r) ∧ (s.flash.worn = []) ∧ (servingBank s.flash = none → s.flash.bank0.recs = [])) ∧
  (∃ (s : State) (x : Nat × Stored) (r : List (Nat × Stored)), (compassUp s = true) ∧ s.mgmt.journal = x :: r) ∧
  (∃ s : State, (compassUp s = true) ∧ s.mgmt.journal = []) :=
  ⟨⟨6, base, (by decide +kernel)⟩,
   ⟨6, compass (fun m => { m with events := [anEvent 10] }), anEvent 10, by decide +kernel⟩,
   ⟨6, compass (fun m => { m with events := [anEvent 11] }), anEvent 11, by decide +kernel⟩,
   ⟨base, (by decide +kernel)⟩,
   ⟨base, by decide +kernel⟩,
   ⟨compass (fun m => { m with announce := false }), (by decide +kernel)⟩,
   ⟨base, (by decide +kernel)⟩,
   ⟨{ compass (fun m => { m with restarting := true }) with ports := [] }, (by decide +kernel), (by unfold NoneWaits; decide +kernel), (by decide +kernel)⟩,
   ⟨base, (by decide +kernel), (by unfold NoneWaits; decide +kernel)⟩,
   ⟨compass (fun m => { m with journal := [(3, .num 4)] }), (3, .num 4), [], by decide +kernel⟩,
   ⟨compass (fun m => { m with journal := [(3, .num 4)] }), (3, .num 4), [], by decide +kernel⟩,
   ⟨base, by decide +kernel⟩⟩

/-- The key 0x000102…1F wrapped under the key 1 (OpenSSL's id-aes256-wrap). -/
def wrappedKey : Bytes := beBytes 40 0x919f664f9f805fef87cc52ea0450f10db42c89b95e28a7356c40b42515168d07955e20c088af7547

/-- An image without a body: its header, the digest of nothing, and a signature (r, s) with both parts equal to the
digest e of the signed bytes, for the public key R − G, where R is a point with abscissa e (computed outside Lean). -/
def goodImage : Bytes :=
  [0x57, 0x46, 0x56, 0x5A, 2, 0, 0, 0, 3, 0, 0, 0, 0, 0, 0, 0, 0x5A, 0x56, 0x39, 0x36, 0, 0, 0, 0] ++
  beBytes 48 0x38b060a751ac96384cd9327eb1b1e36a21fdb71114be07434c0cc7bf63f6e1da274edebfe76f65fbd51ad2f14898b95b ++ zeros 48 ++
  beBytes 48 0x5b8aad8bb8d227950c8b63978be5b7354e6d69d42e57733de46fd02e00988febca434adb7fe8c9c9363f6a990e8e57f3 ++
  beBytes 48 0x5b8aad8bb8d227950c8b63978be5b7354e6d69d42e57733de46fd02e00988febca434adb7fe8c9c9363f6a990e8e57f3 ++ zeros 296

/-- The update has received it. -/
def updated (f : Flash → Flash) : State := { compass (fun m => { m with update := 2, updLen := 512, updGot := 512 }) with
  flash := f { base.flash with image1 := { noImage with data := goodImage }, imageKey := (0x819619170df5fff80e9ec76d4b01407c0f255ca43887dcf28ba86a3c4d0c1235f79f7e85e5751bd49ad5bb39d955fe74, 0xe6091a83d8a45126d00c588f16c9982cb997ff0f0cba0b24fe7ebfd4fff3adf4ba3020cf5aca79ac0c093c85800b4fdf) } }

/-- A trial runs. -/
def onTrial (at_ : Mt) : State := { compass (fun m => { m with update := 5, bootAt := at_ }) with flash := { base.flash with boot0 := { base.flash.boot0 with trial := true } } }

/-- The hypotheses of KeysAndUpdates are met. -/
theorem test_hypotheses_of_KeysAndUpdates :
  (∃ (w : WriteHdr) (k : Fin 4) (wrapped key : Bytes) (s : State), (keyUnwrap (wrapKey s w.auth) wrapped = some key) ∧ WriteTaken (writeReq w 0xA000 (1 + k.val) wrapped) s) ∧
  (∃ (w : WriteHdr) (len : BitVec 32) (s : State), (s.mgmt.update = 0 ∨ s.mgmt.update = 6) ∧ (len.toNat ≤ 8388608) ∧ WriteTaken (writeReq w 0xA100 1 (leBytes 4 len.toNat)) s) ∧
  (∃ s : State, (compassUp s = true) ∧ s.mgmt.update = 1) ∧
  (∃ s : State, s.mgmt.update ≠ 1) ∧
  (∃ (w : WriteHdr) (b : Bytes) (s : State), (s.mgmt.update = 2) ∧ (leAt b 0 4 = s.mgmt.updGot) ∧ (s.mgmt.updGot + (b.length - 8) ≤ s.mgmt.updLen) ∧ (s.flash.worn = []) ∧ WriteTaken (writeReq w 0xA100 2 b) s) ∧
  (∃ (w : WriteHdr) (s : State), (s.mgmt.update = 2) ∧ ((imageRead s).valid = true) ∧ (s.flash.rollback ≤ (imageRead s).rollback) ∧ WriteTaken (writeReq w 0xA100 3 [1]) s) ∧
  (∃ (w : WriteHdr) (s : State), (s.mgmt.update = 2) ∧ (((imageRead s).valid = false ∨ (imageRead s).rollback < s.flash.rollback)) ∧ WriteTaken (writeReq w 0xA100 3 [1]) s) ∧
  (∃ (w : WriteHdr) (s : State), (s.mgmt.update = 5) ∧ (s.flash.trial = true) ∧ (s.clock < s.mgmt.bootAt + 4000000000 * reg s 0xA100 6) ∧ WriteTaken (writeReq w 0xA100 5 [1]) s) ∧
  (∃ s : State, (s.mgmt.update = 5) ∧ (s.flash.trial = true) ∧ (s.mgmt.bootAt + 4000000000 * reg s 0xA100 6 ≤ s.clock) ∧ s.flash.worn = []) ∧
  (∃ s : State, s.mgmt.update ≠ 5) :=
  ⟨⟨keyed (base) 0xA000 2 (wrappedKey) 1, 1, wrappedKey, (List.range 32).map (BitVec.ofNat 8), base, (by decide +kernel), (taken_keyed (by decide +kernel))⟩,
   ⟨keyed (base) 0xA100 1 (leBytes 4 512) 0, 512, base, then2 (by decide +kernel) (taken_keyed (by decide +kernel))⟩,
   ⟨compass (fun m => { m with update := 1 }), by decide +kernel⟩,
   ⟨base, (by decide +kernel)⟩,
   ⟨keyed (compass (fun m => { m with update := 2, updLen := 16 })) 0xA100 2 (zeros 24) 0, zeros 24, compass (fun m => { m with update := 2, updLen := 16 }), then4 (by decide +kernel) (taken_keyed (by decide +kernel))⟩,
   ⟨keyed (updated id) 0xA100 3 ([1]) 0, updated id, (by decide +kernel), then2 (by decide +kernel) (taken_keyed (by decide +kernel))⟩,
   ⟨keyed (updated (fun f => { f with rollback := 4 })) 0xA100 3 ([1]) 0, updated (fun f => { f with rollback := 4 }), then2 (by decide +kernel) (taken_keyed (by decide +kernel))⟩,
   ⟨keyed (onTrial 10000000000000) 0xA100 5 ([1]) 0, onTrial 10000000000000, (by decide +kernel), then2 (by decide +kernel) (taken_keyed (by decide +kernel))⟩,
   ⟨onTrial 0, by decide +kernel⟩,
   ⟨base, (by decide +kernel)⟩⟩

/-- The hypotheses of CablesAndReturn are met. -/
theorem test_hypotheses_of_CablesAndReturn :
  (∃ (w : WriteHdr) (b : Bytes) (s : State), ∃ o, (o = wsel s w 0x2200 1) ∧ (byteAt b 0 ≤ 5) ∧ WriteTaken (writeReq w 0x2200 7 b) s) ∧
  (∃ (w : WriteHdr) (s : State), ((∀ p, p < 12 → (port s p).state = .absent ∨ (port s p).heldOff = true ∨ regAt s 0x2000 5 p = 0)) ∧ ((∀ x ∈ s.ctxs, x.2.state = .off ∨ x.2.state = .halted)) ∧ WriteTaken (writeReq w 0xA200 1 [1]) s) ∧
  (∃ (w : WriteHdr) (s : State), (s.flash.returned = true) ∧ WriteTaken (writeReq w 0xA200 3 [1]) s) ∧
  (∃ (w : WriteHdr) (s : State), (s.flash.returned = false) ∧ WriteTaken (writeReq w 0xA200 3 [1]) s) :=
  ⟨⟨w0, 1 :: zeros 31, base, _, rfl, (by decide +kernel), (taken (by decide +kernel))⟩,
   ⟨keyed ({ base with ports := [] }) 0xA200 1 ([1]) 0, { base with ports := [] }, then2 (by decide +kernel) (taken_keyed (by decide +kernel))⟩,
   ⟨keyed ({ base with flash := { base.flash with returned := true } }) 0xA200 3 ([1]) 0, { base with flash := { base.flash with returned := true } }, (by decide +kernel), (taken_keyed (by decide +kernel))⟩,
   ⟨keyed (base) 0xA200 3 ([1]) 0, base, (by decide +kernel), (taken_keyed (by decide +kernel))⟩⟩

/-- A reset of a level and target runs since the start. -/
def resetting (level target : Nat) (s : State) : State :=
  { s with faults := { s.faults with running := [{ level := level, target := target, start := 0, causes := [], ctxs := [] }] } }

/-- A running reset. -/
def aRun (level target : Nat) : Running := { level := level, target := target, start := 0, causes := [], ctxs := [] }

/-- The hypotheses of ResetsRun are met. -/
theorem test_hypotheses_of_ResetsRun :
  (∃ (w : WriteHdr) (c : BitVec 12) (s : State), (s.faults.running = []) ∧ (OnlyOneWorks s c.toNat (fun n _ => n = c.toNat)) ∧ WriteTaken (writeReq w 0x7200 1 (resetValue 1 c)) s) ∧
  (∃ (w : WriteHdr) (c : BitVec 12) (s : State), (s.faults.running = []) ∧ (ctxStopped (ctx s c.toNat) = true) ∧ WriteTaken (writeReq w 0x7200 1 (resetValue 1 c)) s) ∧
  (∃ (w : WriteHdr) (e : BitVec 12) (c : Nat) (s : State), (e.toNat < 16) ∧ (engineOf c = e.toNat) ∧ (s.faults.running = []) ∧ ((∃ x ∈ s.ctxs, x.1 = c)) ∧ (OnlyOneWorks s c (fun n _ => engineOf n = e.toNat)) ∧ WriteTaken (writeReq w 0x7200 1 (resetValue 2 e)) s) ∧
  (∃ (w : WriteHdr) (p : BitVec 12) (c : Nat) (s : State), (p.toNat < 64) ∧ ((ctx s c).partEnt = p.toNat) ∧ (s.faults.running = []) ∧ ((∃ x ∈ s.ctxs, x.1 = c ∧ x.2.partEnt = p.toNat)) ∧ (OnlyOneWorks s c (fun _ x => x.partEnt = p.toNat)) ∧ (s.pkts = []) ∧ (s.grants = []) ∧ WriteTaken (writeReq w 0x7200 1 (resetValue 3 p)) s) ∧
  (∃ (c : Fin 4096) (s : State), ((ctx s c).state = .draining) ∧ ((ctx s c).halting = false) ∧ ((ctx s c).mirror = 0) ∧ (Quiet s c) ∧ (s.faults.running = []) ∧ (s.phase = .running) ∧ (ctx s c).drainAt + (ctx s c).drainFor + 80000 ≤ s.clock) ∧
  (∃ (e : Fin 16) (r : Running) (s : State), (runningAt s 2 e = some r) ∧ (r.start + 400000 ≤ s.clock) ∧ (∀ c ∈ r.ctxs, (ctx s c).halting = false)) ∧
  (∃ (w : WriteHdr) (v : Nat) (i : Instr) (s : State), ((i, v) ∈ [(Instr.instanceResetDump w none, 1), (.instanceResetNoDump w none, 2)]) ∧ (PortsIdle s) ∧ (instReset s = false) ∧ (imageValid s.flash s.flash.active = true) ∧ (s.flash.trial = false) ∧ (s.pins.cutWarn = false) ∧ WriteTaken (writeReq w 0x7200 2 (leBytes 1 v)) s) ∧
  (∃ (level : Fin 5) (target : BitVec 12) (r : Running) (s : State), (awake s = true) ∧ (1 ≤ level.val) ∧ (runningAt s level target.toNat = some r) ∧ resetOver s level target.toNat = true) ∧
  (∃ (level : Fin 5) (target : BitVec 12) (s : State), resetOver s level target.toNat = false) ∧
  (∃ (target : BitVec 12) (r : Running) (s : State), (awake s = true) ∧ (runningAt s 4 target.toNat = some r) ∧ (r.start + 12000000000 ≤ s.clock) ∧ (PortsIdle s) ∧ (s.pins.pcycReq = false) ∧ s.mgmt.heldReqs = []) ∧
  (∃ (level : Fin 5) (target : BitVec 12) (r : Running) (s : State), ((level.val = 2 ∨ level.val = 3)) ∧ (awake s = true) ∧ (runningAt s level target.toNat = some r) ∧ (r.start + (if level.val = 2 then 8000000 else 80000000) ≤ s.clock) ∧ ((∀ x ∈ s.faults.running, x.level ≠ 4)) ∧ (PortsIdle s) ∧ s.mgmt.heldReqs = []) ∧
  (∃ (level : Fin 5) (target : BitVec 12) (s : State), (runningAt s level target.toNat = none) ∧ s.mgmt.heldReqs = []) :=
  ⟨⟨w0, 5, ctxBase onCtx, (by decide +kernel), (by unfold OnlyOneWorks Quiet; beta_reduce; decide +kernel), (taken (by decide +kernel))⟩,
   ⟨w0, 6, ctxBase onCtx, then2 (by decide +kernel) (taken (by decide +kernel))⟩,
   ⟨w0, 5, 5, ctxBase onCtx, (by decide +kernel), then2 (by decide +kernel) ⟨⟨(5, onCtx), by decide +kernel, rfl⟩, (by unfold OnlyOneWorks Quiet; beta_reduce; decide +kernel), (taken (by decide +kernel))⟩⟩,
   ⟨w0, 0, 5, ctxBase onCtx, (by decide +kernel), then2 (by decide +kernel) ⟨⟨(5, onCtx), by decide +kernel, rfl, rfl⟩, (by unfold OnlyOneWorks Quiet; beta_reduce; decide +kernel), then2 (by decide +kernel) (taken (by decide +kernel))⟩⟩,
   ⟨5, ctxBase { onCtx with state := .draining }, (by decide +kernel), then2 (by decide +kernel) ⟨(by unfold Quiet; decide +kernel), by decide +kernel⟩⟩,
   ⟨5, aRun 2 5, resetting 2 5 base, by decide +kernel⟩,
   ⟨keyed (base) 0x7200 2 (leBytes 1 1) 0, 1, .instanceResetDump (keyed (base) 0x7200 2 (leBytes 1 1) 0) none, base, (List.mem_cons_self ..), (by unfold PortsIdle; decide +kernel), then4 (by decide +kernel) (taken_keyed (by decide +kernel))⟩,
   ⟨1, 5, aRun 1 5, resetting 1 5 base, by decide +kernel⟩,
   ⟨4, 0, base, (by decide +kernel)⟩,
   ⟨0, aRun 4 0, resetting 4 0 { base with clock := 12000000000 }, (by decide +kernel), then2 (by decide +kernel) ⟨(by unfold PortsIdle; decide +kernel), by decide +kernel⟩⟩,
   ⟨2, 5, aRun 2 5, resetting 2 5 base, (by decide +kernel), then4 (by decide +kernel) ⟨(by unfold PortsIdle; decide +kernel), (by decide +kernel)⟩⟩,
   ⟨2, 5, base, by decide +kernel⟩⟩

/-- A message of a class and kind with a severity. -/
def aMsg (cls kind sev : Nat) : Msg := { bits := BitVec.ofNat 128 (cls * 256 + kind * 4096 + sev * 262144), time := 0, roots := [] }

/-- The collector has it in its queue, and has latched what is given. -/
def collecting (m : Msg) (l : Option Msg) : State := { base with faults := { base.faults with intake := [m], latch := l } }

/-- A dump is in the buffer, and is read until a time. -/
def dumping (t : Mt) : State := { base with faults := { base.faults with dump := 1, dumpRead := t } }

/-- The hypotheses of FaultsAndDumps are met. -/
theorem test_hypotheses_of_FaultsAndDumps :
  (∃ (m : Msg) (r : List Msg) (s : State), (Handled s m r) ∧ (reg s 0x7000 7 ≤ msgSev m) ∧ s.faults.latch = none) ∧
  (∃ (m l : Msg) (r : List Msg) (s : State), (Handled s m r) ∧ (reg s 0x7000 7 ≤ msgSev m) ∧ (s.faults.latch = some l) ∧ merges l m = true) ∧
  (∃ (m l : Msg) (r : List Msg) (s : State), (Handled s m r) ∧ (reg s 0x7000 7 ≤ msgSev m) ∧ (s.faults.latch = some l) ∧ merges l m = false) ∧
  (∃ (m : Msg) (r : List Msg) (s : State), (Handled s m r) ∧ msgSev m < reg s 0x7000 7) ∧
  (∃ s : State, (s.faults.intake = []) ∧ s.mgmt.heldReqs = []) ∧
  (∃ (w : WriteHdr) (v : BitVec 32) (s : State), (s.faults.latch.isSome = true) ∧ (s.faults.seqNr = v.toNat) ∧ WriteTaken (writeReq w 0x7000 5 (leBytes 4 v.toNat)) s) ∧
  (∃ (w : WriteHdr) (v : BitVec 32) (s : State), ((s.faults.latch = none ∨ s.faults.seqNr ≠ v.toNat)) ∧ WriteTaken (writeReq w 0x7000 5 (leBytes 4 v.toNat)) s) ∧
  (∃ (w : WriteHdr) (k : BitVec 8) (sev : Severity) (s : State), ∃ n, (n = wsel s w 0x7100 1) ∧ (n < 4096) ∧ (n / 256 ≠ 9) ∧ (baseSeverity (n / 256) k.toNat = some sev) ∧ (s.faults.intake.length < 256) ∧ WriteTaken (writeReq w 0x7100 6 [k]) s) ∧
  (∃ (cls : Fin 16) (i : BitVec 8) (s : State), ∃ n, n = sourceNo cls i.toNat) ∧
  (∃ (w : WriteHdr) (v : BitVec 32) (s : State), ∃ n, (n = wsel s w 0x7100 1) ∧ WriteTaken (writeReq w 0x7100 4 (leBytes 4 v.toNat)) s) ∧
  (∃ s : State, (awake s = true) ∧ s.clock / 4000000000 ≠ s.faults.second) ∧
  (∃ s : State, s.clock / 4000000000 = s.faults.second) ∧
  (∃ (w : WriteHdr) (s : State), (s.faults.dump ≠ 1) ∧ WriteTaken (writeReq w 0x7300 1 [1]) s) ∧
  (∃ (w : WriteHdr) (s : State), (s.faults.dump = 1) ∧ WriteTaken (writeReq w 0x7300 1 [1]) s) ∧
  (∃ (u : Fin 64) (any : Bool) (s : State), (s.faults.dump = 1) ∧ (s.clock < s.faults.dumpRead) ∧ (u.val ∈ ringUnits s) ∧ tget s.faults.dumpWords u = none) ∧
  (∃ (u : Fin 64) (any : Bool) (s : State), (s.faults.dump ≠ 1) ∧ s.faults.dump ≠ 2) ∧
  (∃ s : State, (s.faults.dump = 1) ∧ (s.faults.dumpRead ≤ s.clock) ∧ wornIn s.flash (dumpAddr s.flash.dumpNext) 0x40000 = none) ∧
  (∃ s : State, (s.faults.dump = 1) ∧ (s.faults.dumpRead ≤ s.clock) ∧ (awake s = true) ∧ wornIn s.flash (dumpAddr s.flash.dumpNext) 0x40000 ≠ none) ∧
  (∃ s : State, (s.faults.dump = 1) ∧ s.clock < s.faults.dumpRead) :=
  ⟨⟨aMsg 2 2 3, [], collecting (aMsg 2 2 3) none, (by unfold Handled; decide +kernel), by decide +kernel⟩,
   ⟨aMsg 2 2 3, aMsg 2 2 2, [], collecting (aMsg 2 2 3) (some (aMsg 2 2 2)), (by unfold Handled; decide +kernel), by decide +kernel⟩,
   ⟨aMsg 2 2 3, aMsg 1 6 2, [], collecting (aMsg 2 2 3) (some (aMsg 1 6 2)), (by unfold Handled; decide +kernel), by decide +kernel⟩,
   ⟨aMsg 2 2 0, [], collecting (aMsg 2 2 0) none, (by unfold Handled; decide +kernel), (by decide +kernel)⟩,
   ⟨base, by decide +kernel⟩,
   ⟨w0, 0, collecting (aMsg 2 2 3) (some (aMsg 2 2 2)), then2 (by decide +kernel) (taken (by decide +kernel))⟩,
   ⟨w0, 0, base, (by decide +kernel), (taken (by decide +kernel))⟩,
   ⟨w0, 2, .degraded, setSelected base 8 0x7100 1 0x204, 0x204, (by decide +kernel), then4 (by decide +kernel) (taken (by decide +kernel))⟩,
   ⟨2, 4, base, _, rfl⟩,
   ⟨w0, 1000, base, _, rfl, (taken (by decide +kernel))⟩,
   ⟨base, by decide +kernel⟩,
   ⟨{ base with faults := { base.faults with second := 2500 } }, (by decide +kernel)⟩,
   ⟨w0, base, (by decide +kernel), (taken (by decide +kernel))⟩,
   ⟨w0, dumping 0, (by decide +kernel), (taken (by decide +kernel))⟩,
   ⟨3, true, dumping 10000000000001, by decide +kernel⟩,
   ⟨3, true, base, by decide +kernel⟩,
   ⟨dumping 0, by decide +kernel⟩,
   ⟨{ dumping 0 with flash := { base.flash with worn := [sectorOf (dumpAddr 0)] } }, by decide +kernel⟩,
   ⟨dumping 10000000000001, by decide +kernel⟩⟩

/-- The schedule holds the given steps; the time is LOCKED. -/
def scheduled (l : List CapStep) : State := { minuted base with power := { base.power with steps := l } }

/-- A step that sets the cap of the inst. -/
def aStep (t : Nat) : CapStep := { time := t, icap := 200, scap := 0xFFFF, prepared := false }

/-- The value of a schedule write of it. -/
def stepBytes : Bytes := leBytes 8 10000004000000 ++ [200, 0, 0xFF, 0xFF, 0, 0, 0, 0]

/-- Every Sextant unit is trimmed to 700 MHz. -/
def trimmed (s : State) : State := (List.range 16).foldl (fun t u => setRegAt t 0x5300 3 u 700) s



/-- P11 is held off already. -/
def heldPort : State := { base with ports := [(0, Port.training), (11, { Port.reset with heldOff := true })] }

/-- The hypotheses of CapsAndSchedule are met. -/
theorem test_hypotheses_of_CapsAndSchedule :
  (∃ (s : State) (b : Nat), (b = s.mer.count / max (capPeriod s) 1 * capPeriod s) ∧ (inTurn s 2 b = true) ∧ (b ≠ s.power.boundary) ∧ s.colls = []) ∧
  (∃ s : State, timed s = false) ∧
  (∃ (s : State) (x : CapStep), (s.power.steps.find? (fun y => !y.prepared && inTurn s 2 (y.time - 1200000)) = some x) ∧ s.colls = []) ∧
  (∃ (s : State) (x : CapStep) (r : List CapStep), (s.power.steps = x :: r) ∧ (inTurn s 2 x.time = true) ∧ s.colls = []) ∧
  (∃ (s : State) (x : CapStep) (r : List CapStep), (s.power.steps = x :: r) ∧ inTurn s 2 x.time = false) ∧
  (∃ (w : WriteHdr) (b : Bytes) (s : State), (StepFits s (stepOf b)) ∧ (stamp s + 1600000 ≤ (stepOf b).time) ∧ WriteTaken (writeReq w 0x6100 1 b) s) ∧
  (∃ (w : WriteHdr) (s : State), WriteTaken (writeReq w 0x6100 5 [1]) s) ∧
  (∃ (w : WriteHdr) (v : BitVec 16) (s : State), (floorPower s ≤ v.toNat * 10) ∧ (s.colls = []) ∧ WriteTaken (writeReq w 0x6000 8 (leBytes 2 v.toNat)) s) ∧
  (∃ (w : WriteHdr) (v : BitVec 16) (s : State), (sextFloor s ≤ v.toNat * 15000) ∧ (s.colls = []) ∧ WriteTaken (writeReq w 0x6010 5 (leBytes 2 v.toNat)) s) ∧
  (∃ (w : WriteHdr) (v : BitVec 16) (s : State), (v.toNat ≤ rackCap s) ∧ ((v.toNat = 0 ∨ floorPower s ≤ v.toNat * 10)) ∧ (timed s = true) ∧ WriteTaken (writeReq w 0x6000 3 (leBytes 2 v.toNat)) s) ∧
  (∃ (w : WriteHdr) (v : BitVec 16) (s : State), ((rackCap s < v.toNat ∨ (v.toNat ≠ 0 ∧ v.toNat * 10 < floorPower s))) ∧ WriteTaken (writeReq w 0x6000 3 (leBytes 2 v.toNat)) s) ∧
  (∃ (w : WriteHdr) (v : BitVec 16) (s : State), (isMaster s = true) ∧ (v.toNat ≤ rackScap s) ∧ ((v.toNat = 0 ∨ sextFloor s ≤ v.toNat * 15000)) ∧ (timed s = true) ∧ WriteTaken (writeReq w 0x6010 3 (leBytes 2 v.toNat)) s) ∧
  (∃ (w : WriteHdr) (v : BitVec 16) (s : State), (isMaster s = false) ∧ WriteTaken (writeReq w 0x6010 3 (leBytes 2 v.toNat)) s) ∧
  (∃ (w : WriteHdr) (v : BitVec 16) (s : State), ((∀ p, p < 12 → bitAt v.toNat p = true → (port s p).heldOff = true ∨ (port s p).state = .absent)) ∧ WriteTaken (writeReq w 0x6200 1 (leBytes 2 v.toNat)) s) ∧
  (∃ (w : WriteHdr) (v : BitVec 16) (p : Nat) (s : State), (p < 12) ∧ (bitAt v.toNat p = true) ∧ ((port s p).heldOff = false) ∧ ((port s p).state ≠ .absent) ∧ ((∀ q, q < 12 → q ≠ p → (port s q).heldOff = bitAt v.toNat q)) ∧ WriteTaken (writeReq w 0x6200 1 (leBytes 2 v.toNat)) s) :=
  ⟨⟨minuted base, 4000000000000, by decide +kernel⟩,
   ⟨base, (by decide +kernel)⟩,
   ⟨scheduled [aStep 4000000400000], aStep 4000000400000, by decide +kernel⟩,
   ⟨scheduled [aStep 4000000], aStep 4000000, [], by decide +kernel⟩,
   ⟨scheduled [aStep 4000004000000], aStep 4000004000000, [], by decide +kernel⟩,
   ⟨keyed (base) 0x6100 1 (stepBytes) 1, stepBytes, base, (by unfold StepFits; decide +kernel), (by decide +kernel), (taken_keyed (by decide +kernel))⟩,
   ⟨keyed (base) 0x6100 5 ([1]) 1, base, (taken_keyed (by decide +kernel))⟩,
   ⟨keyed (base) 0x6000 8 (leBytes 2 200) 1, 200, base, then2 (by decide +kernel) (taken_keyed (by decide +kernel))⟩,
   ⟨keyed (trimmed base) 0x6010 5 (leBytes 2 40) 1, 40, trimmed base, then2 (by decide +kernel) (taken_keyed (by decide +kernel))⟩,
   ⟨w0, 200, locked base, (by decide +kernel), then2 (by decide +kernel) (taken (by decide +kernel))⟩,
   ⟨w0, 251, base, (by decide +kernel), (taken (by decide +kernel))⟩,
   ⟨w0, 40, locked (trimmed base), then4 (by decide +kernel) (taken (by decide +kernel))⟩,
   ⟨{ w0 with path := .field (envelopeTo 1) }, 40, notFirst base, (by decide +kernel), (taken (by decide +kernel))⟩,
   ⟨keyed (base) 0x6200 1 (leBytes 2 0x800) 1, 0x800, base, (by decide +kernel), (taken_keyed (by decide +kernel))⟩,
   ⟨keyed (heldPort) 0x6200 1 (leBytes 2 0x801) 1, 0x801, 0, heldPort, (by decide +kernel), then4 (by decide +kernel) (taken_keyed (by decide +kernel))⟩⟩

/-- No port stands. -/
def still : State := { base with ports := [] }

/-- An edge of CUT_WARN_N, PWR_GOOD or RESET_N passes its filter in the tick that comes. -/
def cutEdge (e : PinEdge) (s : State) : State := { s with pins := { s.pins with cutEdge := some (1, e) } }
def goodEdge (e : PinEdge) (s : State) : State := { s with pins := { s.pins with goodEdge := some (1, e) } }
def resetEdge (e : PinEdge) (s : State) : State := { s with pins := { s.pins with resetEdge := some (1, e) } }

/-- The power controller as given. -/
def powered (f : Power → Power) : State := { still with power := f base.power }

/-- Only P0 is formed. -/
def onePort : State := setBlobAt upBase 0x2000 2 0 (2 :: zeros 11)

/-- One Sextant unit is in service, and its slack lies below what its frequency needs. -/
def oneUnit : State := setReg { locked (trimmed base) with
  units := (List.range 16).map fun k => (k, { SextUnit.reset with inService := k == 3 }) } 0x5310 5
  (Config.marginSlack 3 0 850 + 1)

/-- The hypotheses of HeatAndEnergy are met. -/
theorem test_hypotheses_of_HeatAndEnergy :
  (∃ (n : Fin 64) (r : Int) (s : State), (s.phase = .running) ∧ (s.power.sensorAt + 4000000 ≤ s.clock) ∧ (s.colls = []) ∧ ((∀ k, (sensor s k).failed = false)) ∧ sensorPresent s n = true) ∧
  (∃ (l : List (Fin 64 × Int)) (s : State), s.clock < s.power.sensorAt + 4000000) ∧
  (∃ (n : Fin 64) (s : State) (x : Nat × Mt), (awake s = true) ∧ (sensorPresent s n = true) ∧ ((sensor s n).failed = false) ∧ (x ∈ (sensor s n).badFrom) ∧ x.2 + 4000000000 ≤ s.clock) ∧
  (∃ (s : State) (a : Mt), (s.power.critFrom = some a) ∧ (a + 40000000 ≤ s.clock) ∧ (∀ p, (port s p).state = .absent)) ∧
  (∃ (s : State) (a : Mt) (p : Nat), (s.power.critFrom = some a) ∧ (a + 40000000 ≤ s.clock) ∧ (formedPorts s = [p]) ∧ ((port s p).state ≠ .absent) ∧ (port s p).thermOff = false) ∧
  (∃ s : State, s.power.critFrom = none) ∧
  (∃ (s : State) (a : Mt), (s.power.belowFrom = some a) ∧ a + 4000000000 ≤ s.clock) ∧
  (∃ s : State, s.power.belowFrom = none) ∧
  (∃ (a : Activity) (s : State), (s.phase = .running) ∧ s.power.sampleAt + 40000 ≤ s.clock) ∧
  (∃ (s : State) (a : Mt), (s.power.railAt = some a) ∧ (s.power.corrAt + 4000000000 ≤ s.clock) ∧ s.power.corrAt ≤ a) ∧
  (∃ s : State, s.power.railAt = none) ∧
  (∃ s : State, (timed s = true) ∧ (s.mer.count / 240000000000 ≠ s.mer.minute) ∧ (isMaster s = false ∨ ∀ u, u < 16 → (sext s u).inService = false)) ∧
  (∃ (s : State) (u : Fin 16), (timed s = true) ∧ (s.mer.count / 240000000000 ≠ s.mer.minute) ∧ (isMaster s = true) ∧ ((∀ k, k < 16 → ((sext s k).inService = true ↔ k = u.val))) ∧ (Config.marginSlack u s.mer.minute (sext s u).freq < reg s 0x5310 5) ∧ 600 < trimmedMax s u) ∧
  (∃ s : State, timed s = false) ∧
  (∃ s : State, (EdgesPass s (some .fall) none none) ∧ (s.phase = .running) ∧ (s.pins.cutWarn = false) ∧ (PortsIdle s) ∧ s.flash.worn = []) ∧
  (∃ s : State, (EdgesPass s (some .fall) none none) ∧ (s.phase ≠ .running) ∧ s.phase ≠ .recovery) ∧
  (∃ (s : State) (a b : Bool), (EdgesPass s (some (.rise none a none)) none none) ∧ s.pins.cutWarn = b) ∧
  (∃ (s : State) (a : Mt), (s.phase = .cut) ∧ (s.pins.cutGone = some a) ∧ (a + 40000000 ≤ s.clock) ∧ (PortsIdle s) ∧ (instReset s = false) ∧ (s.mgmt.heldReqs = []) ∧ (imageValid s.flash s.flash.active = true) ∧ (s.flash.trial = false) ∧ s.pins.cutWarn = false) ∧
  (∃ s : State, s.pins.cutGone = none) :=
  ⟨⟨3, 50000, still, (by decide +kernel), then2 (by decide +kernel) ⟨(fun _ => rfl), (by decide +kernel)⟩⟩,
   ⟨[], { still with clock := 0 }, (by decide +kernel)⟩,
   ⟨3, powered (fun p => { p with sensors := [(3, { Sensor.reset 0 with badFrom := [(0, 0)] })] }), (0, 0), by decide +kernel⟩,
   ⟨powered (fun p => { p with critFrom := some 0 }), 0, then2 (by decide +kernel) (fun _ => rfl)⟩,
   ⟨{ onePort with power := { base.power with critFrom := some 0 } }, 0, 0, by decide +kernel⟩,
   ⟨base, (by decide +kernel)⟩,
   ⟨powered (fun p => { p with belowFrom := some 0 }), 0, by decide +kernel⟩,
   ⟨base, (by decide +kernel)⟩,
   ⟨⟨[(3, 4), (60, 1)]⟩, base, by decide +kernel⟩,
   ⟨powered (fun p => { p with railAt := some 0 }), 0, by decide +kernel⟩,
   ⟨base, (by decide +kernel)⟩,
   ⟨{ notFirst (locked base) with units := [] }, then2 (by decide +kernel) (Or.inl rfl)⟩,
   ⟨oneUnit, 3, then4 (by decide +kernel) ⟨(Nat.lt_succ_self _), (by decide +kernel)⟩⟩,
   ⟨base, (by decide +kernel)⟩,
   ⟨cutEdge .fall still, (by unfold EdgesPass QuietPorts; decide +kernel), then2 (by decide +kernel) ⟨(by unfold PortsIdle; decide +kernel), (by decide +kernel)⟩⟩,
   ⟨{ cutEdge .fall still with phase := .held }, (by unfold EdgesPass QuietPorts; decide +kernel), by decide +kernel⟩,
   ⟨cutEdge (.rise none true none) { base with pins := { Pins.reset with cutWarn := true } }, true, true, (by unfold EdgesPass QuietPorts; decide +kernel), (by decide +kernel)⟩,
   ⟨{ still with phase := .cut, pins := { Pins.reset with cutGone := some 0 } }, 0, (by decide +kernel), then2 (by decide +kernel) ⟨(by unfold PortsIdle; decide +kernel), by decide +kernel⟩⟩,
   ⟨base, (by decide +kernel)⟩⟩

/-- P0 of two octets works at stage C, was admitted with a HAIL and tests as given. -/
def testing (f : Port → Port) : State := locked { lanes0 (f { upPort with admitted := some (aHail 1) }) Lane.reset with
  octets := [(0, { Octet.reset with state := 0, rxSpare := some 3, txSpare := some 3 }), (1, { Octet.reset with state := 0 })] }

/-- The same before a slice. -/
def idle : State := minuted (lanes0 { upPort with admitted := some (aHail 1) } Lane.reset)

/-- A slice tests lane 3. -/
def inSlice (x : Port) : Port := { x with slice := some (3, 0), sliceRef := some true }

/-- Bank 9 is being tested, and bank 130 holds its rows. -/
def storeTest : State := setBlobAt { base with
  banks := [(9, bankIn 2 (some 130) 0), (130, bankIn 0 none 0)],
  test := { SelfTest.reset with store := some (9, 9, 130, 0) } } 0x4630 4 0
  ((List.range 128).map fun n => BitVec.ofNat 8 (if n = 9 then 130 else n))

/-- A record of a bank that was spared out. -/
def aRecord : Bytes := [3, 0, 9, 130] ++ zeros 12
def recorded : State := { base with test := { SelfTest.reset with records := [aRecord] } }

/-- The hypotheses of SelfTestRuns are met. -/
theorem test_hypotheses_of_SelfTestRuns :
  (∃ (p : Fin 12) (b : BitVec 256) (k : Nat) (s : State), ((port s p).admitted = some b) ∧ (sliceDue s b = some k) ∧ (inTurn s 6 (k * slicePeriod s + sliceShift s b) = true) ∧ ((port s p).sliceNo ≠ some k) ∧ sliceRuns s p k = true) ∧
  (∃ (p : Fin 12) (b : BitVec 256) (k : Nat) (s : State), ((port s p).admitted = some b) ∧ (sliceDue s b = some k) ∧ (inTurn s 6 (k * slicePeriod s + sliceShift s b) = true) ∧ ((port s p).sliceNo ≠ some k) ∧ sliceRuns s p k = false) ∧
  (∃ (l : Fin 108) (p : Nat) (since : Mt) (bits errors : Nat) (s : State), (octetPort s (l / 9) = some p) ∧ ((port s p).slice = some (l.val, since)) ∧ (freedHere s l = true) ∧ since + 4000 * (100 + reg s 0x8000 3) ≤ s.clock) ∧
  (∃ (l : Fin 108) (p : Nat) (since : Mt) (bits errors : Nat) (s : State), (octetPort s (l / 9) = some p) ∧ ((port s p).slice = some (l.val, since)) ∧ (freedHere s l = true) ∧ (freedThere s l = true) ∧ since + 4000 * (100 + reg s 0x8000 3) ≤ s.clock) ∧
  (∃ (l : Fin 108) (p : Nat) (since : Mt) (bits errors : Nat) (s : State), (octetPort s (l / 9) = some p) ∧ ((port s p).slice = some (l.val, since)) ∧ (freedHere s l = true) ∧ (since + 4000 * (300 + 2 * reg s 0x8000 3) ≤ s.clock) ∧ ((port s p).sliceRef = some true) ∧ ((port s p).sliceTx ≠ some false) ∧ (ratioOk errors bits (reg s 0x8000 4) = true) ∧ (port s p).lmc = none) ∧
  (∃ (l : Fin 108) (p : Nat) (since : Mt) (bits errors : Nat) (s : State), (octetPort s (l / 9) = some p) ∧ ((port s p).slice = some (l.val, since)) ∧ (freedHere s l = true) ∧ (since + 4000 * (300 + 2 * reg s 0x8000 3) ≤ s.clock) ∧ ((port s p).sliceRef.isSome = true) ∧ ((port s p).sliceTx ≠ some false) ∧ (ratioOk errors bits (reg s 0x8000 4) = false) ∧ awake s = true) ∧
  (∃ (s : State) (n sp : Nat) (rest : List Nat), (inTurn s 6 (storeSliceDue s) = true) ∧ (s.test.store = none) ∧ (s.mgmt.restarting = false) ∧ (nextStoreBank s = some n) ∧ (freeSpares s = sp :: rest) ∧ (blob s 0x4630 4).length = 128) ∧
  (∃ s : State, (inTurn s 6 (storeSliceDue s) = true) ∧ (s.test.store = none) ∧ (freeSpares s = [] ∨ s.mgmt.restarting = true)) ∧
  (∃ (s : State) (n b sp : Nat) (since : Mt), (s.test.store = some (n, b, sp, since)) ∧ (since + 4409600 ≤ s.clock) ∧ (s.test.waiting = []) ∧ (b < 136) ∧ (b ≠ sp) ∧ (n < 128) ∧ (blob s 0x4630 4).length = 128) ∧
  (∃ (s : State) (n b sp : Nat) (since : Mt), (s.test.store = some (n, b, sp, since)) ∧ (since + 4409600 ≤ s.clock) ∧ (s.test.waiting = []) ∧ awake s = true) ∧
  (∃ s : State, s.test.store = none) ∧
  (∃ (s : State) (u slack : Nat) (a b : Bool), (inTurn s 6 (sextSliceDue s) = true) ∧ (isMaster s = true) ∧ (s.mgmt.restarting = false) ∧ (nextTestUnit s = some u) ∧ (a = true ∨ b = true)) ∧
  (∃ (s : State) (u slack : Nat), (inTurn s 6 (sextSliceDue s) = true) ∧ (isMaster s = true) ∧ (s.mgmt.restarting = false) ∧ (nextTestUnit s = some u) ∧ (s.colls = []) ∧ (sext s u).queue = []) ∧
  (∃ (w : WriteHdr) (n : BitVec 8) (r : Bytes) (s : State), (s.test.records[n.toNat]? = some r) ∧ (1 ≤ byteAt r 0) ∧ (byteAt r 0 ≤ 3) ∧ (byteAt r 1 = 0) ∧ (0 < s.test.fuses) ∧ (s.test.commit = none) ∧ (s.pins.cutWarn = false) ∧ WriteTaken (writeReq w 0x8200 4 [n]) s) ∧
  (∃ (s : State) (n : Nat) (r : Bytes), (s.test.commit = some (n, r)) ∧ awake s = true) ∧
  (∃ s : State, s.test.commit = none) :=
  ⟨⟨0, aHail 1, 99, idle, by decide +kernel⟩,
   ⟨0, aHail 1, 99, setReg idle 0x8000 1 0, by decide +kernel⟩,
   ⟨3, 0, 0, 1000, 0, testing inSlice, by decide +kernel⟩,
   ⟨3, 0, 0, 1000, 0, testing inSlice, by decide +kernel⟩,
   ⟨3, 0, 0, 1000, 0, testing inSlice, by decide +kernel⟩,
   ⟨3, 0, 0, 1000, 1000, testing inSlice, by decide +kernel⟩,
   ⟨minuted base, 0, 128, [129, 130, 131, 132, 133, 134, 135], by decide +kernel⟩,
   ⟨minuted { base with banks := (List.range 8).map fun i => (128 + i, bankIn 3 none 0) }, by decide +kernel⟩,
   ⟨storeTest, 9, 9, 130, 0, by decide +kernel⟩,
   ⟨storeTest, 9, 9, 130, 0, by decide +kernel⟩,
   ⟨base, (by decide +kernel)⟩,
   ⟨minuted base, 0, 30, true, false, by decide +kernel⟩,
   ⟨minuted base, 0, 30, by decide +kernel⟩,
   ⟨keyed (recorded) 0x8200 4 ([0]) 3, 0, aRecord, recorded, (by decide +kernel), then2 (by decide +kernel) (then4 (by decide +kernel) (taken_keyed (by decide +kernel)))⟩,
   ⟨{ base with test := { SelfTest.reset with commit := some (0, aRecord) } }, 0, aRecord, by decide +kernel⟩,
   ⟨base, (by decide +kernel)⟩⟩

/-- The device is held in reset by RESET_N, which rises, or PWR_GOOD does. -/
def held (f : Pins → Pins) : State := { base with phase := .held, pins := f { Pins.reset with resetN := false } }
def strapped (refclk : Bool) : PinEdge := .rise (some (1, 2)) refclk none
def unpowered (resetN : Bool) : State :=
  goodEdge (.rise none true none) (held fun x => { x with pwrGood := false, resetN := resetN })

/-- The hypotheses of PowerAndReset are met. -/
theorem test_hypotheses_of_PowerAndReset :
  (∃ s : State, (EdgesPass s none (some .fall) none) ∧ s.pins.pwrGood = true) ∧
  (∃ s : State, (EdgesPass s none none (some .fall)) ∧ (s.pins.resetN = true) ∧ s.pins.pwrGood = true) ∧
  (∃ (i : Fin 4) (slot : Fin 8) (s : State), (EdgesPass s none none (some (.rise (some (i, slot)) true none))) ∧ (s.pins.resetN = false) ∧ (s.pins.pwrGood = true) ∧ (Boots s) ∧ (s.pins.cutWarn = false) ∧ (s.mgmt.heldReqs = []) ∧ s.colls = []) ∧
  (∃ (i : Fin 4) (slot : Fin 8) (s : State), (EdgesPass s none none (some (.rise (some (i, slot)) true none))) ∧ (s.pins.resetN = false) ∧ (s.pins.pwrGood = true) ∧ (imageValid s.flash 0 = false) ∧ (imageValid s.flash 1 = false) ∧ (s.flash.active < 2) ∧ s.mgmt.heldReqs = []) ∧
  (∃ (i : Fin 4) (slot : Fin 8) (s : State), (EdgesPass s none none (some (.rise (some (i, slot)) false none))) ∧ (s.pins.resetN = false) ∧ (s.pins.pwrGood = true) ∧ s.mgmt.heldReqs = []) ∧
  (∃ s : State, (EdgesPass s none (some (.rise none true none)) none) ∧ (s.pins.pwrGood = false) ∧ (s.pins.resetN = true) ∧ (Boots s) ∧ (s.pins.cutWarn = false) ∧ (s.mgmt.heldReqs = []) ∧ s.colls = []) ∧
  (∃ s : State, (EdgesPass s none (some (.rise none true none)) none) ∧ (s.pins.pwrGood = false) ∧ s.pins.resetN = false) ∧
  (∃ s : State, (s.phase = .noPll) ∧ (s.pins.pllAt + 40000000 ≤ s.clock) ∧ (Boots s) ∧ (s.pins.cutWarn = false) ∧ (s.mgmt.heldReqs = []) ∧ s.colls = []) ∧
  (∃ s : State, (s.phase = .noPll) ∧ s.pins.pllAt + 40000000 ≤ s.clock) ∧
  (∃ s : State, s.phase ≠ .noPll) :=
  ⟨⟨goodEdge .fall base, (by unfold EdgesPass QuietPorts; decide +kernel), (by decide +kernel)⟩,
   ⟨resetEdge .fall base, (by unfold EdgesPass QuietPorts; decide +kernel), by decide +kernel⟩,
   ⟨1, 2, resetEdge (strapped true) (held id), (by unfold EdgesPass QuietPorts; decide +kernel), then2 (by decide +kernel) ⟨(by unfold Boots; decide +kernel), by decide +kernel⟩⟩,
   ⟨1, 2, { resetEdge (strapped true) (held id) with flash := { base.flash with image0 := noImage } }, (by unfold EdgesPass QuietPorts; decide +kernel), by decide +kernel⟩,
   ⟨1, 2, resetEdge (strapped false) (held id), (by unfold EdgesPass QuietPorts; decide +kernel), by decide +kernel⟩,
   ⟨unpowered true, (by unfold EdgesPass QuietPorts; decide +kernel), then2 (by decide +kernel) ⟨(by unfold Boots; decide +kernel), by decide +kernel⟩⟩,
   ⟨unpowered false, (by unfold EdgesPass QuietPorts; decide +kernel), by decide +kernel⟩,
   ⟨{ base with phase := .noPll }, then2 (by decide +kernel) ⟨(by unfold Boots; decide +kernel), by decide +kernel⟩⟩,
   ⟨{ base with phase := .noPll }, by decide +kernel⟩,
   ⟨base, (by decide +kernel)⟩⟩

/-- A shared write waits for insts. -/
def storingAt (l : List Nat) : State := { base with cascade := { base.cascade with
  present := l, storing := l, writing := some (writeReq w0 0x4200 4 [1]) } }

/-- P0 of inst 1 is a stripe of port 4 of inst 0. -/
def striped : State := setBlobAt (notFirst upBase) 0x2010 1 1 (0x84 :: List.replicate 11 0)

/-- Inst 1 with its master, where key 5 is delivered at P0. -/
def keyedSecond : State := { notFirst keyed5 with cascade := { base.cascade with present := [0] } }

/-- Inst 1 with its master and inst 2 present. -/
def second : State := { notFirst still with cascade := { base.cascade with present := [0, 2] } }

/-- The hypotheses of CascadeBus are met. -/
theorem test_hypotheses_of_CascadeBus :
  (∃ (u : TableUpdate) (s : State), (isMaster s = false) ∧ (awake s = true) ∧ (updateNode u = none ∨ ∃ n, u = .incarnation n (incOf s n))) ∧
  (∃ (n : NodeId) (inc : BitVec 8) (s : State), (isMaster s = false) ∧ awake s = true) ∧
  (∃ (u : TableUpdate) (s : State), isMaster s = true) ∧
  (∃ (i : Fin 4) (q : DictReq) (s : State), (awake s = true) ∧ (s.cascade.writing = some q) ∧ (s.cascade.storing.filter (· != i.val) = []) ∧ (s.mgmt.restarting = false) ∧ s.mgmt.heldReqs = []) ∧
  (∃ (i : Fin 4) (s : State), (awake s = true) ∧ (s.cascade.writing = none ∨ s.cascade.storing.filter (· != i.val) ≠ [])) ∧
  (∃ (i : Fin 4194304) (s : State), (awake s = true) ∧ i.val ∉ s.tables.badWindow) ∧
  (∃ (i : Fin 4194304) (v : BitVec 64) (s : State), (awake s = true) ∧ i.val ∈ s.tables.badWindow) ∧
  (∃ (u : Fin 16) (f : Nat) (ch : Option Nat) (s : State), (awake s = true) ∧ (isMaster s = false) ∧ ((sext s u).inService = true) ∧ ((sext s u).freq = f ∨ ∀ l ∈ (sext s u).lines, l.dirty = false)) ∧
  (∃ (u : Fin 16) (sub : Fin 14) (n : Nat) (s : State), awake s = true) ∧
  (∃ (n : BitVec 64) (st : Fin 4) (k : BitVec 8) (m : NodeId) (h : Bool) (s : State), (awake s = true) ∧ (isMaster s = false) ∧ (st.val ≠ 0) ∧ s.mer.count ≤ n.toNat) ∧
  (∃ (src : Fin 4) (w : WirePacket) (units : Nat) (s : State), (s.phase = .running) ∧ (src.val ≠ instId s) ∧ (NotRouted w.header) ∧ (payloadUnits w.header = some units) ∧ (isResponse (hOp w.header) = true) ∧ (hDst w.header = ownNode s) ∧ hSinst w.header = instId s) ∧
  (∃ (src : Fin 4) (p : Fin 12) (w : WirePacket) (units : Nat) (a : Account) (s : State), (s.phase = .running) ∧ (src.val ≠ instId s) ∧ (NotRouted w.header) ∧ (payloadUnits w.header = some units) ∧ (stripeOf s p = none) ∧ ((∀ y ∈ s.pkts, y.acct ≠ .waiting (some p))) ∧ (arrivalAccount s p w.header (footprint (64 * units)) = some (a, false)) ∧ (stampsCurrent s w.header = true) ∧ (keyStanding s p (hKey w.header) = 1) ∧ isResponse (hOp w.header) = true) ∧
  (∃ (src : Fin 4) (p : Fin 12) (w : WirePacket) (units q : Nat) (s : State), (s.phase = .running) ∧ (src.val ≠ instId s) ∧ (NotRouted w.header) ∧ (payloadUnits w.header = some units) ∧ (stripeOf s p = some (src.val, q)) ∧ ((∀ y ∈ s.pkts, y.acct ≠ .waiting (some p))) ∧ (hVc w.header ≠ 1 ∨ canReserve s (footprint (64 * units)) = true)) ∧
  (∃ (src : Fin 4) (p : Fin 12) (w : WirePacket) (units : Nat) (s : State), (s.phase = .running) ∧ (src.val ≠ instId s) ∧ (NotRouted w.header) ∧ (payloadUnits w.header = some units) ∧ ((∃ y ∈ s.pkts, y.acct = .waiting (some p))) ∧ ((∀ y ∈ s.pkts, y.id ≠ s.nextId)) ∧ (stripeOf s p = none ∨ ∃ q, stripeOf s p = some (src.val, q))) ∧
  (∃ (src : Fin 4) (p : Option (Fin 12)) (w : WirePacket) (s : State), (s.phase ≠ .running ∨ src.val = instId s)) ∧
  (∃ s : State, (isMaster s = false) ∧ (s.cascade.masterAbsent = false) ∧ (awake s = true) ∧ (NoStripes s) ∧ (s.cascade.copying = false) ∧ s.cascade.writing = none) ∧
  (∃ s : State, (isMaster s = true ∨ s.cascade.masterAbsent = true)) ∧
  (∃ (i : Fin 4) (s : State), (i.val ≠ 0) ∧ (i.val ≠ instId s) ∧ (awake s = true) ∧ (NoStripes s) ∧ (s.cascade.copying = false) ∧ s.cascade.writing = none) ∧
  (∃ (i : Fin 4) (l : List (Fin 12)) (s : State), (i.val = 0 ∨ i.val = instId s)) ∧
  (∃ (i : Fin 4) (s : State), (i.val ≠ 0) ∧ (i.val ≠ instId s) ∧ (awake s = true) ∧ (NoStripes s) ∧ ((∀ x ∈ s.cascade.lost, x.1 ≠ i.val)) ∧ (s.cascade.copying = false) ∧ s.cascade.atStart = false) ∧
  (∃ (c : TableCopy) (s : State), (instId s ≠ 0) ∧ (awake s = true) ∧ (NoStripes s) ∧ ((∀ x ∈ s.cascade.lost, x.1 ≠ 0)) ∧ (s.cascade.copying = true) ∧ (∀ p, (port s p).hail = none)) :=
  ⟨⟨.incarnation 1 0, second, then2 (by decide +kernel) (Or.inr ⟨1, rfl⟩)⟩,
   ⟨1, 2, second, by decide +kernel⟩,
   ⟨.release 0, base, (by decide +kernel)⟩,
   ⟨1, writeReq w0 0x4200 4 [1], storingAt [1], by decide +kernel⟩,
   ⟨1, storingAt [1, 2], (by decide +kernel), (Or.inr (by decide +kernel))⟩,
   ⟨3, base, by decide +kernel⟩,
   ⟨3, 0x39, { base with tables := { base.tables with badWindow := [3] } }, by decide +kernel⟩,
   ⟨3, 700, none, second, by decide +kernel⟩,
   ⟨3, 4, 5, base, (by decide +kernel)⟩,
   ⟨500, 2, 1, 5, false, second, by decide +kernel⟩,
   ⟨0, arriving (hdr [(0, 0x18), (13, 1), (88, 192)]), 0, second, then2 (by decide +kernel) ⟨(by unfold NotRouted; decide +kernel), by decide +kernel⟩⟩,
   ⟨0, 0, arriving (hdr [(0, 0x18), (24, 1), (13, 1), (32, 1), (56, 1), (72, 5), (88, 192)]), 0, .ingress 0 0, keyedSecond, then2 (by decide +kernel) ⟨(by unfold NotRouted; decide +kernel), by decide +kernel⟩⟩,
   ⟨0, 0, arriving (hdr [(0, 0x18), (13, 1), (88, 192)]), 0, 4, striped, then2 (by decide +kernel) ⟨(by unfold NotRouted; decide +kernel), by decide +kernel⟩⟩,
   ⟨0, 0, arriving (hdr [(0, 0x18), (24, 1), (13, 1), (32, 1), (56, 1), (72, 5), (88, 192)]), 0, { keyedSecond with pkts := [{ outPkt with acct := .waiting (some 0) }], nextId := 10 }, then2 (by decide +kernel) ⟨(by unfold NotRouted; decide +kernel), (by decide +kernel), then2 (by decide +kernel) (Or.inl (by decide +kernel))⟩⟩,
   ⟨0, none, arriving 0, base, (by decide +kernel)⟩,
   ⟨second, (by decide +kernel), then2 (by decide +kernel) ⟨(by unfold NoStripes; decide +kernel), by decide +kernel⟩⟩,
   ⟨base, (by decide +kernel)⟩,
   ⟨2, second, (by decide +kernel), then2 (by decide +kernel) ⟨(by unfold NoStripes; decide +kernel), by decide +kernel⟩⟩,
   ⟨0, [], second, (by decide +kernel)⟩,
   ⟨3, second, (by decide +kernel), then2 (by decide +kernel) ⟨(by unfold NoStripes; decide +kernel), by decide +kernel⟩⟩,
   ⟨⟨[], 2, 1, 0, 0, 0⟩, { second with cascade := { second.cascade with copying := true } }, then2 (by decide +kernel) ⟨(by unfold NoStripes; decide +kernel), then2 (by decide +kernel) (fun _ => rfl)⟩⟩⟩

end Sys2Proof.Tests
end

section
/-! PROOF. Dictionary writes that are refused (R37, R438, R444, R467): how a write reaches its checks, what the answer to a
refused one leaves as it was, and the two refusals of `Obligations.WritesRefused`. -/

namespace Sys2Proof.Machine
open Sys2Proof

/-! ## How a dictionary write reaches its checks (R434, R437, R441) -/

/-- The dictionary takes a request for performance now: it is accepted from its carrier, the index answers, no answer is
withheld, and the request repeats no transaction whose answer is kept. -/
def Heard (q : DictReq) (s : State) : Prop :=
  pathAccepted s q = true ∧ dictionaryUp s = true ∧ indexAnswers s q.index = true ∧ withheld s = false ∧
    s.mgmt.answers.find? (fun a => a.owner == ownerOf q.path && a.xid == q.xid) = none

theorem heard_of_writeTaken {q : DictReq} {s : State} (h : WriteTaken q s) : Heard q s := by
  obtain ⟨hacc, hup, hidx, hwith, -, -, -, -, hans, -⟩ := h
  exact ⟨hacc, hup, hidx, hwith, hans⟩

/-- A request that is heard is performed, its session touched and, of a frame, its receipt counted. -/
theorem transact_heard {q : DictReq} {s : State} (perform : State → State) (h : Heard q s) :
    transact q perform s =
      perform (touchSession (if q.path.isHost then s else bump s 0x1010 3) (ownerOf q.path)) := by
  obtain ⟨hacc, hup, hidx, hwith, hans⟩ := h
  have hans1 : (if q.path.isHost then s else bump s 0x1010 3).mgmt.answers.find?
      (fun a => a.owner == ownerOf q.path && a.xid == q.xid) = none := by
    split <;> exact hans
  unfold transact
  rw [if_neg (by simp [hacc]), if_neg (by simp [hup]), if_neg (by simp [hidx]), if_neg (by simp [hwith])]
  simp only [hans1]

/-- A write that is heard and repeats no submit (R441) is performed on the state `received`. -/
theorem dictWrite_heard {w : WriteHdr} {i j : Nat} {v : Bytes} {s : State} (apply : State → Verdict)
    (h : Heard (writeReq w i j v) s) (hnew : w.path.isHost = true → s.mgmt.lastSubmit ≠ some w.xid) :
    dictWrite w i j v apply s = performWrite (writeReq w i j v) apply (received (writeReq w i j v) s) := by
  obtain ⟨path, xid, auth⟩ := w
  cases path with
  | host x =>
    unfold dictWrite fromPath
    rw [if_pos (by rfl), if_neg (hnew rfl)]
    exact transact_heard (s := { s with mgmt := { s.mgmt with lastSubmit := some xid } }) _ h
  | field e => exact transact_heard _ h

/-! ## What the answer to a refused write leaves as it was -/

@[simp] theorem mgmt_logCritWrite (q : DictReq) (o : Outcome7) : (logCritWrite q o).mgmt = o.s.mgmt := by
  unfold logCritWrite
  split <;> rfl

@[simp] theorem beside_logCritWrite (q : DictReq) (o : Outcome7) : beside (logCritWrite q o) = beside o.s := by
  unfold logCritWrite
  split <;> rfl

/-- Sending an answer changes only the answer area of the host window or the frames that wait. -/
theorem mgmt_sendAnswer (s : State) (p : Path) (a : Answer) : ∃ area done waiting,
    (sendAnswer s p a).mgmt = { s.mgmt with hostAnswer := area, hostDone := done, txQueue := waiting } := by
  unfold sendAnswer
  cases p with
  | host x => exact ⟨_, _, _, rfl⟩
  | field e =>
    unfold sendFrame
    dsimp only
    split
    · exact ⟨_, _, _, rfl⟩
    · exact ⟨_, _, _, rfl⟩

@[simp] theorem answers_sendAnswer (s : State) (p : Path) (a : Answer) :
    (sendAnswer s p a).mgmt.answers = s.mgmt.answers := by
  obtain ⟨_, _, _, h⟩ := mgmt_sendAnswer s p a
  rw [h]

@[simp] theorem counters_sendAnswer (s : State) (p : Path) (a : Answer) :
    (sendAnswer s p a).mgmt.counters = s.mgmt.counters := by
  obtain ⟨_, _, _, h⟩ := mgmt_sendAnswer s p a
  rw [h]

theorem answer_answeredLast (s : State) (q : DictReq) (st : Status) (n : Nat) (b : Bytes) :
    AnsweredLast q st n (answer s q st n b) := by
  unfold AnsweredLast answer
  exact ⟨_, by rw [answers_sendAnswer, keepAnswer_last], rfl, rfl, rfl, rfl⟩

@[simp] theorem counters_answer (s : State) (q : DictReq) (st : Status) (n : Nat) (b : Bytes) :
    (answer s q st n b).mgmt.counters = s.mgmt.counters := by
  unfold answer
  rw [counters_sendAnswer]
  rfl

theorem lateAnswer_answeredLast (s : State) (q : DictReq) (st : Status) (n : Nat) :
    AnsweredLast q st n (lateAnswer s q st n) := answer_answeredLast _ q st n _

@[simp] theorem counters_lateAnswer (s : State) (q : DictReq) (st : Status) (n : Nat) :
    (lateAnswer s q st n).mgmt.counters = s.mgmt.counters := by simp [lateAnswer]

@[simp] theorem beside_lateAnswer (s : State) (q : DictReq) (st : Status) (n : Nat) :
    beside (lateAnswer s q st n) = beside s := by simp [lateAnswer, beside_answer]

@[simp] theorem counters_received (q : DictReq) (s : State) :
    (received q s).mgmt.counters = s.mgmt.counters := by
  unfold received
  rw [counters_touchSession]
  cases q.path <;> rfl

/-! ## A write that is refused (R438, R444) -/

/-- A write whose outcome is a refusal is answered with its status and reason and recorded in the Logbook at once: the
function that gives a withheld answer later (R437) does the same. -/
theorem performWrite_refused {q : DictReq} {apply : State → Verdict} {s u : State} {st : Status} {n : Nat}
    (hlen : q.tooLong = false) (hout : writeOutcome q apply s = ⟨u, st, n, [], false⟩) (hst : st ≠ .ok) :
    performWrite q apply s = lateAnswer u q st n := by
  simp [performWrite, lateAnswer, hlen, hout, hst]

/-- A request refused before authentication (R444) changes nothing. -/
theorem writeOutcome_early {q : DictReq} {apply : State → Verdict} {s : State} {st : Status} {n : Nat}
    (hret : returnReason s q = none) (hear : earlyReason q = some (st, n)) :
    writeOutcome q apply s = ⟨s, st, n, [], false⟩ := by
  simp [writeOutcome, hret, hear, firstReason, refused7]

/-- Once every check before it has passed, the entry's rule decides the outcome on the state `atEntry`. -/
theorem writeOutcome_rule {q : DictReq} {apply : State → Verdict} {s : State} (h : WriteTaken q s) :
    writeOutcome q apply (received q s) = verdict7 (atEntry q s) (apply (atEntry q s)) := by
  obtain ⟨-, -, -, -, -, -, -, -, -, hret, hear, haut, hscope, hrange⟩ := h
  have hret' : returnReason (received q s) q = none := by simpa [returnReason, returned_received] using hret
  have hown : ownChecks q apply (atEntry q s) = verdict7 (atEntry q s) (apply (atEntry q s)) := by
    simp [ownChecks, scopeReason_atEntry _ _ _ _ haut, hscope, hrange, firstReason]
  unfold Authorised at haut
  unfold atEntry at hown ⊢
  unfold writeOutcome
  simp only [hret', hear, firstReason]
  cases hq : q.auth with
  | none =>
    simp only [hq] at haut hown ⊢
    rw [if_neg haut, hown]
  | some a =>
    simp only [hq] at haut hown ⊢
    rw [authReason_received, haut.1]
    exact hown

/-- A command whose entry's rule answers NOT_PERFORMED refuses the write. -/
theorem writeRefused_of_rule {c : Instr} {w : WriteHdr} {i j : Nat} {v : Bytes} {s : State} (apply : State → Verdict)
    (hc : exec c s = .next (dictWrite w i j v apply s))
    (hrule : Authorised (writeReq w i j v) s → ∃ r, apply (atEntry (writeReq w i j v) s) = .refuse .notPerformed r) :
    WriteRefused c (writeReq w i j v) s := by
  intro hT
  have hheard := heard_of_writeTaken hT
  have hrun := writeOutcome_rule (apply := apply) hT
  obtain ⟨-, -, -, -, -, -, -, hnew, -, -, -, haut, -⟩ := hT
  obtain ⟨r, hr⟩ := hrule haut
  rw [hr] at hrun
  refine ⟨_, hc, ?_⟩
  rw [dictWrite_heard apply hheard hnew, performWrite_refused rfl hrun (by decide)]
  refine ⟨⟨r, lateAnswer_answeredLast _ _ _ _⟩, ?_⟩
  rw [beside_lateAnswer, beside_atEntry _ _ haut]

/-! ## Verdicts under a condition (R460) -/

theorem inRange_pos {c : Bool} {v : Verdict} (h : c = true) : inRange c v = v := if_pos h

theorem inRange_neg {c : Bool} {v : Verdict} (h : ¬ c = true) : inRange c v = .refuse .notPerformed 9 := if_neg h

theorem require_neg {c : Bool} {v : Verdict} (h : ¬ c = true) : require c v = .refuse .notPerformed 10 := if_neg h

/-! ## Partition table writes (R37) -/

/-- A value that R37 does not allow in the partition table: it reaches beyond the rank space, it has too many ranks, or it is
valid and its key is that of another valid entry. -/
def BadPartition (s : State) (v : BitVec 64) : Prop :=
  262144 < fld v.toNat 24 18 + fld v.toNat 42 17 ∨ 65536 < fld v.toNat 42 17 ∨
    (bitAt v.toNat 6 = true ∧ ∃ y ∈ s.tables.part, y.1 ≠ fld v.toNat 0 6 ∧ bitAt y.2.toNat 6 = true ∧
      fld y.2.toNat 8 16 = fld v.toNat 8 16)

/-- The rule of the partition table refuses such a value. -/
theorem applyPartition_bad {s : State} {v : BitVec 64} (h : BadPartition s v) :
    ∃ r, applyPartition v s = .refuse .notPerformed r := by
  by_cases hmany : 65536 < fld v.toNat 42 17
  · exact ⟨9, inRange_neg (by simpa using hmany)⟩
  refine ⟨10, (inRange_pos (by simpa using hmany)).trans (require_neg ?_)⟩
  rw [Bool.and_eq_true, decide_eq_true_iff]
  rintro ⟨hroom, hkeys⟩
  rcases h with hspace | hcount | ⟨hvalid, y, hy, hother, hyvalid, hkey⟩
  · omega
  · exact hmany hcount
  · rw [hvalid, Bool.not_true, Bool.false_or, Bool.and_eq_true, List.all_eq_true] at hkeys
    have hclear := hkeys.2 y (List.mem_filter.mpr ⟨hy, by simpa using hother⟩)
    simp [hyvalid, hkey] at hclear

theorem applyPartitionWrite_bad {s : State} {v : BitVec 64} (h : BadPartition s v) :
    ∃ r, applyPartitionWrite v s = .refuse .notPerformed r := by
  obtain ⟨r, hr⟩ := applyPartition_bad h
  exact ⟨r, by simp only [applyPartitionWrite, hr]⟩

/-- A partition table write of such a value is refused (R37). -/
theorem partitionEntryWrite_bad_refused (w : WriteHdr) {v : BitVec 64} {s : State} (h : BadPartition s v) :
    WriteRefused (.partitionEntryWrite w v) (writeReq w 0x3100 1 (leBytes 8 v.toNat)) s :=
  writeRefused_of_rule (applyPartitionWrite v) rfl fun haut =>
    applyPartitionWrite_bad (by simpa only [BadPartition, tables_atEntry _ _ haut] using h)

/-! ## Entries written from the field network only (R442, R467) -/

/-- Through the host window such an entry is DENIED with reason 3, before its length or its authentication is looked at. -/
theorem earlyReason_fieldOnly {q : DictReq} (hhost : q.path.isHost = true) (hrow : (rowOf q.index q.sub).isSome = true)
    (honly : fieldOnly.contains (entryNo q.index q.sub) = true) : earlyReason q = some (.denied, 3) := by
  obtain ⟨r, hr⟩ := Option.isSome_iff_exists.mp hrow
  unfold earlyReason
  simp only [hr, hhost, honly]
  split <;> simp

/-- Outside the return state (R456) a write of such an entry through the host window is answered so, and that is all. -/
theorem dictWrite_fieldOnly {w : WriteHdr} {i j : Nat} {v : Bytes} {s : State} (apply : State → Verdict)
    (hheard : Heard (writeReq w i j v) s) (hhost : w.path.isHost = true)
    (hnew : s.mgmt.lastSubmit ≠ some w.xid) (hret : s.flash.returned = false)
    (hrow : (rowOf i j).isSome = true) (honly : fieldOnly.contains (entryNo i j) = true) :
    dictWrite w i j v apply s = lateAnswer (received (writeReq w i j v) s) (writeReq w i j v) .denied 3 := by
  have hret' : returnReason (received (writeReq w i j v) s) (writeReq w i j v) = none := by
    simp [returnReason, returned_received, hret]
  have hear : earlyReason (writeReq w i j v) = some (.denied, 3) := earlyReason_fieldOnly hhost hrow honly
  rw [dictWrite_heard apply hheard fun _ => hnew]
  exact performWrite_refused rfl (writeOutcome_early hret' hear) (by decide)

/-- The entries written from the field network only, by index and sub-index. -/
def fieldOnlyEntries : List (Nat × Nat) :=
  [(0x2200, 7), (0x6400, 9), (0x6400, 0xB), (0x6000, 8), (0x6010, 5), (0x6100, 1), (0x6100, 5), (0x6200, 1)]

/-- They are the entries of `fieldOnly`, they stand in the listings, and their numbers fit a request. -/
theorem fieldOnlyEntries_listed : ∀ e ∈ fieldOnlyEntries,
    (rowOf e.1 e.2).isSome = true ∧ fieldOnly.contains (entryNo e.1 e.2) = true ∧ e.1 < 2 ^ 16 ∧ e.2 < 2 ^ 8 := by
  decide

/-- R467: the host window's write of such an entry is DENIED with reason 3; no slot's counter and nothing beside the
dictionary's own state changes. -/
theorem hostWrite_fieldOnly_denied {w : WriteHdr} {e : Nat × Nat} {v : Bytes} {s : State} (he : e ∈ fieldOnlyEntries)
    (hheard : Heard (writeReq w e.1 e.2 v) s) (hhost : w.path.isHost = true)
    (hnew : s.mgmt.lastSubmit ≠ some w.xid) (hret : s.flash.returned = false) :
    Runs (.dictionaryWrite w (BitVec.ofNat 16 e.1) (BitVec.ofNat 8 e.2) v) s fun t =>
      AnsweredLast (writeReq w e.1 e.2 v) .denied 3 t ∧ t.mgmt.counters = s.mgmt.counters ∧ beside t = beside s := by
  obtain ⟨hrow, honly, hindex, hsub⟩ := fieldOnlyEntries_listed e he
  have hrun : exec (.dictionaryWrite w (BitVec.ofNat 16 e.1) (BitVec.ofNat 8 e.2) v) s =
      .next (dictionaryWrite w e.1 e.2 v s) := by
    simp only [exec, execDictionaryWrite, BitVec.toNat_ofNat, Nat.mod_eq_of_lt hindex, Nat.mod_eq_of_lt hsub]
  refine ⟨_, hrun, ?_⟩
  unfold dictionaryWrite
  rw [dictWrite_fieldOnly _ hheard hhost hnew hret hrow honly]
  exact ⟨lateAnswer_answeredLast _ _ _ _, by simp, by simp [beside_received]⟩

/-! ## The statement -/

/-- Settles O13. A value against R37 is refused by the partition table's own rule; an entry of the field network (R467) is
refused to the host before authentication, so that no counter is accepted. -/
theorem writesRefused : Obligations.WritesRefused := by
  unfold Obligations.WritesRefused
  refine ⟨fun w v s hbad => partitionEntryWrite_bad_refused w hbad, ?_⟩
  intro w e v s he hhost hup hidx hwith hret hnew hans
  have hacc : pathAccepted s (writeReq w e.1 e.2 v) = true := by
    cases hp : w.path with
    | host x => simp [pathAccepted, writeReq, hp]
    | field f => simp [hp, Path.isHost] at hhost
  exact hostWrite_fieldOnly_denied he ⟨hacc, hup, hidx, hwith, hans⟩ hhost hnew hret

end Sys2Proof.Machine
end

section
/-! PROOF. What a unit combines lands in memory (R180, R190 to R196): the integer class of `combineI`, what no operation of the
Caller beside a landing changes, what the unit reads once it has taken a piece off its queue, and `Obligations.ReductionsLand`. -/

namespace Sys2Proof.Machine
open Sys2Proof

/-! ## The integer class (R192) -/

/-- The integer meaning of a function on two signed INT32 values: SUM wraps. -/
theorem combineI_eq (r : Rop) (a b : BitVec 32) : combineI r a b = match r with
    | .sum => BitVec.ofInt 32 (a.toInt + b.toInt)
    | .max => BitVec.ofInt 32 (max a.toInt b.toInt)
    | .min => BitVec.ofInt 32 (min a.toInt b.toInt) := by
  cases r with
  | sum => simp [combineI, BitVec.ofInt_add]
  | max =>
    rcases lt_or_ge a.toInt b.toInt with h | h
    · simp [combineI, h, max_eq_right h.le]
    · simp [combineI, not_lt.mpr h, max_eq_left h]
  | min =>
    rcases lt_or_ge b.toInt a.toInt with h | h
    · simp [combineI, h, min_eq_right h.le]
    · simp [combineI, not_lt.mpr h, min_eq_left h]

/-- An element is combined where both lists have one. -/
theorem combineAll_int_getElem? (r : Rop) (l m : List (BitVec 32)) (i : Nat) :
    (combineAll false r l m)[i]? = (l[i]?.map (combineI r)).bind fun g => m[i]?.map g :=
  List.getElem?_zipWith' ..

/-! ## The bytes of a landing -/

/-- A landing changes the bytes as a plain write does; its marks are beside them. -/
theorem cells_landMemory (m : Memory) (addr size : Nat) (bytes : Bytes) (marks : List Bool) :
    (landMemory m addr size bytes marks).cells = (memWrite m addr bytes).cells := by
  unfold landMemory
  refine List.foldlRecOn (motive := fun n : Memory => n.cells = (memWrite m addr bytes).cells) _ _ rfl ?_
  intro n hn k _
  dsimp only
  split
  · exact hn
  · split <;> exact hn

theorem memByte_landMemory (m : Memory) (addr size : Nat) (bytes : Bytes) (marks : List Bool) (a : Nat) :
    memByte (landMemory m addr size bytes marks) a = memByte (memWrite m addr bytes) a := by
  simp only [memByte, cells_landMemory]

/-! ## Memory and what waits for it: the part that only a landing and the end of an abort change -/

/-- Local memory with the accesses that it has not accepted. -/
def memSide (s : State) : Memory × List Access := (s.mem, s.accesses)

@[simp] theorem memSide_withPkts (s : State) (x) : memSide { s with pkts := x } = memSide s := rfl
@[simp] theorem memSide_withTables (s : State) (x) : memSide { s with tables := x } = memSide s := rfl
@[simp] theorem memSide_withFaults (s : State) (x) : memSide { s with faults := x } = memSide s := rfl
@[simp] theorem memSide_setPort (s p x) : memSide (setPort s p x) = memSide s := rfl
@[simp] theorem memSide_updPort (s p f) : memSide (updPort s p f) = memSide s := rfl
@[simp] theorem memSide_updLink (s p f) : memSide (updLink s p f) = memSide s := rfl
@[simp] theorem memSide_setCtx (s c x) : memSide (setCtx s c x) = memSide s := rfl
@[simp] theorem memSide_updCtx (s c f) : memSide (updCtx s c f) = memSide s := rfl
@[simp] theorem memSide_updLane (s l f) : memSide (updLane s l f) = memSide s := rfl
@[simp] theorem memSide_updOctet (s o f) : memSide (updOctet s o f) = memSide s := rfl
@[simp] theorem memSide_setSext (s u x) : memSide (setSext s u x) = memSide s := rfl
@[simp] theorem memSide_updSext (s u f) : memSide (updSext s u f) = memSide s := rfl
@[simp] theorem memSide_bumpBy (s i j k n) : memSide (bumpBy s i j k n) = memSide s := rfl
@[simp] theorem memSide_bumpAt (s i j k) : memSide (bumpAt s i j k) = memSide s := rfl
@[simp] theorem memSide_bump (s i j) : memSide (bump s i j) = memSide s := rfl
@[simp] theorem memSide_emit (s o) : memSide (emit s o) = memSide s := rfl
@[simp] theorem memSide_notePeaks (s) : memSide (notePeaks s) = memSide s := rfl
@[simp] theorem memSide_putColl (s c x) : memSide (putColl s c x) = memSide s := rfl
@[simp] theorem memSide_putPkt (s x) : memSide (putPkt s x) = memSide s := rfl
@[simp] theorem memSide_sliceResult (s l r) : memSide (sliceResult s l r) = memSide s := rfl

/-- A fold of steps that leave it as it is leaves it as it is. -/
theorem memSide_foldl {α : Type} {f : State → α → State} (h : ∀ t a, memSide (f t a) = memSide t) (l : List α)
    (s : State) : memSide (l.foldl f s) = memSide s := foldl_keeps memSide f h l s

/-! ### What goes out on a port (R286 to R289, R307) -/

@[simp] theorem memSide_withErrors (s : State) (l : Nat) (bits : List Bool) :
    memSide (withErrors s l bits).1 = memSide s := rfl

@[simp] theorem memSide_sendCharacters (s : State) (l : Nat) (cs : List Char8) :
    memSide (sendCharacters s l cs) = memSide s := by
  unfold sendCharacters
  dsimp only
  split <;> simp

@[simp] theorem memSide_sendBlockA (s : State) (o : Nat) (b : Bytes) : memSide (sendBlockA s o b) = memSide s :=
  memSide_foldl (fun _ _ => memSide_foldl (fun _ _ => memSide_sendCharacters ..) ..) ..

@[simp] theorem memSide_injectFrame (s : State) (o : Nat) (words : List (List Nat)) :
    memSide (injectFrame s o words).1 = memSide s := by
  unfold injectFrame
  dsimp only
  split
  · rfl
  · split <;> rfl

@[simp] theorem memSide_sendFrameLane (words : List (List Nat)) (k : Nat) (s : State) (l : Nat) :
    memSide (sendFrameLane words k s l) = memSide s := by
  unfold sendFrameLane
  simp only [memSide_emit, memSide_updLane]
  split <;> rfl

@[simp] theorem memSide_sendFecFrame (s : State) (o : Nat) (data : Bytes) :
    memSide (sendFecFrame s o data) = memSide s := by
  unfold sendFecFrame
  rw [memSide_foldl fun _ _ => memSide_foldl (fun _ _ => memSide_sendFrameLane ..) .., memSide_injectFrame]

@[simp] theorem memSide_dealBlock (st : Stage) (os : List Nat) (s : State) (p : Nat) (b : Bytes) :
    memSide (dealBlock st os s p b) = memSide s := by
  unfold dealBlock fillFrame
  dsimp only
  split
  · rfl
  · split
    · simp
    · split <;> simp

@[simp] theorem memSide_streamOut (s : State) (p : Nat) (data : Bytes) : memSide (streamOut s p data) = memSide s := by
  unfold streamOut
  split
  · rfl
  · exact memSide_foldl (fun _ _ => memSide_dealBlock ..) ..

@[simp] theorem memSide_sendBlock (s : State) (p : Nat) (urgent : Bool) (b : BitVec 256) :
    memSide (sendBlock s p urgent b) = memSide s := by simp [sendBlock]

@[simp] theorem memSide_sendStatus (s : State) (p : Nat) (xoff : Bool) :
    memSide (sendStatus s p xoff) = memSide s := by simp [sendStatus]

theorem memSide_nextNotice {s t : State} {p : Nat} (h : nextNotice s p = some t) : memSide t = memSide s := by
  unfold nextNotice at h
  dsimp only at h
  split at h
  · cases h; simp
  · split at h
    · cases h; simp [sendNumbered]
    · cases h
  · cases h

theorem memSide_nextWaiting {s t : State} {p : Nat} (h : nextWaiting s p = some t) : memSide t = memSide s := by
  unfold nextWaiting at h
  split at h
  · split at h
    · cases h; simp [sendReplayStart, sendControl]
    · cases h
  · split at h
    · cases h
    · split at h
      · cases h; simp
      · split at h
        · rename_i hn
          cases h
          exact memSide_nextNotice hn
        · cases h; simp [sendRoutedNow]
        · cases h

@[simp] theorem memSide_drainControl (n : Nat) (s : State) (p : Nat) : memSide (drainControl n s p) = memSide s := by
  induction n generalizing s with
  | zero => rfl
  | succ n ih =>
    unfold drainControl
    split
    · rename_i t ht
      rw [ih, memSide_nextWaiting ht]
    · rfl

@[simp] theorem memSide_sendNotice (s : State) (p a b c d e f : Nat) :
    memSide (sendNotice s p a b c d e f) = memSide s := by simp [sendNotice]

@[simp] theorem memSide_refreshXoff (s : State) (p : Nat) : memSide (refreshXoff s p) = memSide s := by
  unfold refreshXoff
  dsimp only
  split <;> simp

@[simp] theorem memSide_tellStripe (s : State) (p : Nat) : memSide (tellStripe s p) = memSide s := by
  unfold tellStripe
  split
  · split <;> simp
  · rfl

@[simp] theorem memSide_refreshAccount (s : State) (a : Account) : memSide (refreshAccount s a) = memSide s := by
  unfold refreshAccount
  split
  · simp
  · simp
  · exact memSide_foldl memSide_refreshXoff ..
  · exact memSide_foldl memSide_refreshXoff ..
  · rfl

/-! ### Packets, counters and reports -/

@[simp] theorem memSide_noteQuiet (s : State) : memSide (noteQuiet s) = memSide s := by
  unfold noteQuiet
  split <;> simp

@[simp] theorem memSide_addPkt (s : State) (x : Pkt) : memSide (addPkt s x) = memSide s := by
  simp only [addPkt, memSide_refreshAccount, memSide_noteQuiet, memSide_notePeaks]
  rfl

@[simp] theorem memSide_dropPkt (s : State) (id : Nat) : memSide (dropPkt s id) = memSide s := by
  unfold dropPkt
  split <;> simp

@[simp] theorem memSide_rechargePkt (s : State) (x : Pkt) (a : Account) : memSide (rechargePkt s x a) = memSide s := by
  simp [rechargePkt]

@[simp] theorem memSide_reportFor (s : State) (cls idx kind addr : Nat) (c : Option Nat) :
    memSide (reportFor s cls idx kind addr c) = memSide s := by
  unfold reportFor raiseReport toIntake
  split
  · dsimp only
    split <;> simp
  · rfl

@[simp] theorem memSide_mirrorTouch (s : State) (c : Nat) : memSide (mirrorTouch s c) = memSide s := rfl

@[simp] theorem memSide_interrupts (s : State) (c : Nat) (vecs : List Nat) :
    memSide (interrupts s c vecs) = memSide s := by
  unfold interrupts
  split
  · rfl
  · exact memSide_foldl (fun _ _ => memSide_emit ..) ..

@[simp] theorem memSide_raiseCounter (s : State) (c k : Nat) : memSide (raiseCounter s c k) = memSide s := by
  unfold raiseCounter fireThresholds
  split
  · rfl
  · dsimp only
    split
    · simp
    · split <;> simp

@[simp] theorem memSide_unitCount (s : State) (u sub n : Nat) : memSide (unitCount s u sub n) = memSide s := by
  unfold unitCount
  dsimp only
  split <;> simp

@[simp] theorem memSide_settlePress (s : State) (n : Nat) : memSide (settlePress s n) = memSide s := by
  unfold settlePress
  dsimp only
  split
  · split <;> simp
  · split <;> simp

/-! ### Collectives: notices, Drift, figures (R150, R172, R175) -/

@[simp] theorem memSide_updColl (s : State) (c : Nat) (f : Coll → Coll) : memSide (updColl s c f) = memSide s := by
  unfold updColl
  split <;> simp

@[simp] theorem memSide_updFig (s : State) (c f : Nat) (card : Card) (g : Fig → Fig) :
    memSide (updFig s c f card g) = memSide s := by simp [updFig]

@[simp] theorem memSide_notePoison (s : State) (c : Nat) (bad : Bool) : memSide (notePoison s c bad) = memSide s := by
  unfold notePoison
  split <;> simp

@[simp] theorem memSide_noticeOn (s : State) (x : Coll) (a b d : Nat) (but : Option Nat) :
    memSide (noticeOn s x a b d but) = memSide s := by
  unfold noticeOn
  split
  · rfl
  · exact memSide_foldl (fun _ _ => memSide_sendNotice ..) ..

@[simp] theorem memSide_abandonSlice (s : State) (p : Nat) (cut : Bool) :
    memSide (abandonSlice s p cut) = memSide s := by
  unfold abandonSlice startLmc
  split
  · rfl
  · dsimp only
    split
    · simp
    · split <;> simp

@[simp] theorem memSide_markPort (on : Bool) (s : State) (p : Nat) : memSide (markPort on s p) = memSide s := by
  unfold markPort
  split
  · split <;> simp
  · split <;> simp

@[simp] theorem memSide_remark (s : State) : memSide (remark s) = memSide s := by
  unfold remark
  dsimp only
  rw [memSide_foldl, memSide_foldl (memSide_markPort _)]
  intro t u
  split <;> simp

@[simp] theorem memSide_setLag (s : State) (c src lag time : Nat) (always : Bool) :
    memSide (setLag s c src lag time always) = memSide s := by
  unfold setLag
  split
  · rfl
  · dsimp only
    split
    · split <;> simp
    · simp

@[simp] theorem memSide_driftColl (s : State) (c : Nat) : memSide (driftColl s c) = memSide s := by
  unfold driftColl
  split
  · rfl
  · split
    · dsimp only
      split
      · rfl
      · split <;> simp
    · rfl

@[simp] theorem memSide_originateDrift (s : State) : memSide (originateDrift s) = memSide s :=
  memSide_foldl memSide_driftColl ..

@[simp] theorem memSide_pressEnded (u : Nat) (before after : State) :
    memSide (pressEnded u before after) = memSide after := by
  unfold pressEnded
  split <;> simp

@[simp] theorem memSide_releaseRaw (s : State) (k : Pkt) : memSide (releaseRaw s k) = memSide s := by
  unfold releaseRaw
  split <;> simp

@[simp] theorem memSide_makeReady (s : State) (c f : Nat) (x : Coll) (card : Card) (k : Pkt) (p : Place3) (b : Bytes)
    (m : BitVec 8) : memSide (makeReady s c f x card k p b m) = memSide s := by simp [makeReady]

/-! ### Taking pieces to their units and sending (R180, R58, R195) -/

@[simp] theorem memSide_enqueueUnit (s : State) (n : Nat) (r : UnitReq) (paced : Bool) :
    memSide (enqueueUnit s n r paced) = memSide s := by simp [enqueueUnit]

theorem memSide_enqueueParts {s t : State} {c f per : Nat} {p : Place3} {us : List (Nat × Nat × Nat)}
    (h : enqueueParts s c f p per us = some t) : memSide t = memSide s := by
  induction us generalizing s with
  | nil => cases h; rfl
  | cons q r ih =>
    unfold enqueueParts at h
    split at h
    · simpa using ih h
    · cases h

theorem memSide_dispatch {s t : State} {c f : Nat} {x : Coll} {card : Card} {p : Place3}
    (h : dispatch s c f x card p = .done t) : memSide t = memSide s := by
  unfold dispatch at h
  dsimp only at h
  split at h
  · cases h
  · split at h
    · cases h
    · split at h
      · cases h
      · split at h
        · cases h
        · rename_i he
          cases h
          simp [memSide_enqueueParts he]

theorem memSide_ownDrop {s t : State} {who : Option Nat} {q : Nat} {h : BitVec 256}
    (hd : ownDrop s who q h = some t) : memSide t = memSide s := by
  unfold ownDrop at hd
  split at hd
  · cases hd; simp
  · split at hd
    · cases hd; simp
    · cases hd

@[simp] theorem memSide_sendColl (s : State) (c f q : Nat) (h : BitVec 256) (payload : Bytes) :
    memSide (sendColl s c f q h payload) = memSide s := by
  unfold sendColl
  split
  · exact memSide_ownDrop ‹_›
  · simp

theorem memSide_placeCopies {s t : State} {c f : Nat} {ports : List Nat} {h : Nat → BitVec 256} {payload : Bytes}
    (hp : placeCopies s c f ports h payload = some t) : memSide t = memSide s := by
  unfold placeCopies at hp
  split at hp
  · cases hp
    exact memSide_foldl (fun _ _ => memSide_sendColl ..) ..
  · cases hp

/-! ### What a piece comes to at its unit -/

@[simp] theorem memSide_countDown (s : State) (c f : Nat) (card : Card) (p : Place3) (comb land : Nat) :
    memSide (countDown s c f card p comb land) = memSide s := by simp [countDown]

@[simp] theorem memSide_progress (s : State) (c f : Nat) (card : Card) : memSide (progress s c f card) = memSide s := by
  unfold progress
  split
  · rfl
  · dsimp only
    split <;> simp

@[simp] theorem memSide_finishPiece (s : State) (c f : Nat) (card : Card) (p : Place3) :
    memSide (finishPiece s c f card p) = memSide s := by
  unfold finishPiece
  split
  · rfl
  · split
    · dsimp only
      split <;> simp
    · rfl

@[simp] theorem memSide_passPiece (s : State) (u c f : Nat) (card : Card) (p : Place3) :
    memSide (passPiece s u c f card p) = memSide s := by
  unfold passPiece
  split
  · rfl
  · dsimp only
    split
    · split
      · rfl
      · split <;> simp
    · rfl

/-! ## While a landing of a collective is open, its abort leaves memory as it is (R177) -/

/-- The landings that are open are those of the accesses. -/
theorem landingOpen_of_memSide {s t : State} {c : Nat} (h : memSide t = memSide s) :
    landingOpen t c = landingOpen s c := by
  simp only [landingOpen, show t.accesses = s.accesses from congrArg Prod.snd h]

@[simp] theorem memSide_dropWaiting (s : State) (c : Nat) (x : Coll) : memSide (dropWaiting s c x) = memSide s := by
  simp only [dropWaiting, memSide_withPkts]
  exact memSide_foldl (fun _ _ => memSide_dropPkt ..) ..

@[simp] theorem memSide_dropCollData (s : State) (c : Nat) (y : Coll) : memSide (dropCollData s c y) = memSide s := by
  unfold dropCollData
  rw [memSide_foldl fun _ _ => by simp]
  exact (memSide_dropWaiting ..).trans (memSide_foldl (fun _ _ => memSide_dropPkt ..) ..)

theorem settleAbort_landing {s : State} {c : Nat} (h : landingOpen s c = true) : settleAbort s c = s := by
  unfold settleAbort
  split
  · split
    · rw [if_pos h]
    · rfl
  · rfl

theorem memSide_abortColl {s : State} {c : Nat} (st : Status) (own : Bool) (h : landingOpen s c = true) :
    memSide (abortColl s c st own) = memSide s := by
  unfold abortColl
  split
  · rfl
  · split
    · rfl
    · have hkeep : ∀ t : State, memSide t = memSide s → memSide (settleAbort t c) = memSide s := fun t ht => by
        rw [settleAbort_landing (by rw [landingOpen_of_memSide ht, h]), ht]
      refine hkeep _ ?_
      simp only [memSide_dropCollData, memSide_putColl, memSide_noticeOn]
      split <;> simp

theorem memSide_sendPiece {s t : State} {c f : Nat} {x : Coll} {card : Card} {p : Place3}
    (h : landingOpen s c = true) (hs : sendPiece s c f x card p = some t) : memSide t = memSide s := by
  unfold sendPiece at hs
  dsimp only at hs
  split at hs
  · cases hs; simp
  · split at hs
    · exact memSide_placeCopies hs
    · split at hs
      · split at hs
        · cases hs
        · split at hs
          · rename_i hd
            cases hs
            simp [memSide_ownDrop hd]
          · split at hs
            · cases hs; simp
            · cases hs
      · split at hs
        · cases hs
        · split at hs
          · cases hs
            exact memSide_abortColl _ _ h
          · split at hs
            · cases hs
            · rename_i hc
              cases hs
              split <;> simp [memSide_placeCopies hc]

theorem memSide_sendNext {s : State} {c : Nat} (f : Nat) (h : landingOpen s c = true) :
    memSide (sendNext c s f) = memSide s := by
  unfold sendNext
  split
  · rfl
  · split
    · rfl
    · dsimp only
      split
      · rfl
      · split
        · rfl
        · rename_i hs
          rw [memSide_updFig, memSide_sendPiece h hs]

theorem memSide_localNext {s : State} {c : Nat} (f : Nat) (h : landingOpen s c = true) :
    memSide (localNext c s f) = memSide s := by
  unfold localNext
  split
  · rfl
  · split
    · rfl
    · dsimp only
      split
      · rfl
      · split
        · simp
        · split
          · rfl
          · exact memSide_abortColl _ _ h
          · exact memSide_dispatch ‹_›

/-- The figures of a collective go on without touching memory while a landing of it is open. -/
theorem memSide_pumpColl {s : State} {c : Nat} (h : landingOpen s c = true) : memSide (pumpColl s c) = memSide s := by
  unfold pumpColl
  split
  · rfl
  · split
    · rfl
    · split
      · refine List.foldlRecOn (motive := fun t => memSide t = memSide s) _ _ rfl ?_
        intro t ht f _
        have hopen : landingOpen t c = true := by rw [landingOpen_of_memSide ht, h]
        have hsent := memSide_sendNext f hopen
        rw [memSide_localNext f (by rw [landingOpen_of_memSide hsent, hopen]), hsent, ht]
      · rfl

/-! ## What a unit reads -/

/-- The part of the state that a unit's work on a piece reads: the tables that place elements, the packets, the collectives,
memory, and the lines that the unit holds. -/
def unitView (n : Nat) (s : State) : Tables × List Pkt × Tbl Coll × Memory × List OpenLine :=
  (s.tables, s.pkts, s.colls, s.mem, (sext s n).lines)

theorem unitView_iff {n : Nat} {s t : State} : unitView n t = unitView n s ↔
    t.tables = s.tables ∧ t.pkts = s.pkts ∧ t.colls = s.colls ∧ t.mem = s.mem ∧ (sext t n).lines = (sext s n).lines := by
  simp [unitView]

theorem translate_of_tables {s t : State} (h : t.tables = s.tables) (key window off len perm : Nat) (shape loop : Bool) :
    translate t key window off len perm shape loop = translate s key window off len perm shape loop := by
  have htab (u : State) : translate u key window off len perm shape loop =
      translate { State.reset with tables := u.tables } key window off len perm shape loop := rfl
  rw [htab t, htab s, h]

theorem elemPlace_of_tables {s t : State} (h : t.tables = s.tables) (x : Coll) (w e : Nat) :
    elemPlace t x w e = elemPlace s x w e := by
  simp only [elemPlace, translate_of_tables h]

theorem readPart_of_tables {s t : State} (h : t.tables = s.tables) (m : Memory) (x : Coll) (w e n : Nat) :
    readPart t m x w e n = readPart s m x w e n := by
  simp only [readPart, elemPlace_of_tables h]

theorem unitMem_of_view {n : Nat} {s t : State} (h : unitView n t = unitView n s) : unitMem t n = unitMem s n := by
  obtain ⟨-, -, -, hmem, hlines⟩ := unitView_iff.mp h
  simp only [unitMem, hmem, hlines]

theorem wireElems_of_view {n : Nat} {s t : State} (h : unitView n t = unitView n s) (c f : Nat) (x : Coll) (card : Card)
    (p : Place3) (lo k : Nat) : wireElems t n c f x card p lo k = wireElems s n c f x card p lo k := by
  obtain ⟨htables, hpkts, -, -, -⟩ := unitView_iff.mp h
  simp only [wireElems, rawPkt, readPart_of_tables htables, unitMem_of_view h, hpkts]

@[simp] theorem unitView_setSext (n : Nat) (s : State) (x : SextUnit) (h : x.lines = (sext s n).lines) :
    unitView n (setSext s n x) = unitView n s := by simp [unitView, h]

@[simp] theorem unitView_unitCount (n : Nat) (s : State) (u sub k : Nat) :
    unitView n (unitCount s u sub k) = unitView n s := by
  unfold unitCount
  dsimp only
  split <;> rfl

@[simp] theorem unitView_settlePress (n : Nat) (s : State) : unitView n (settlePress s n) = unitView n s := by
  unfold settlePress
  dsimp only
  split
  · split <;> simp
  · split <;> simp

@[simp] theorem unitView_noteTaken (n : Nat) (s : State) (bytes : Nat) :
    unitView n (noteTaken s n bytes) = unitView n s := by simp [noteTaken, updSext]

/-! ## The piece at the front of the queue (R181) -/

/-- A unit with a piece taken off its queue, of some wire bytes. -/
def pieceTaken (s : State) (n : Nat) (rest : List UnitReq) (bytes : Nat) : State :=
  noteTaken (settlePress (setSext s n { sext s n with queue := rest }) n) n bytes

@[simp] theorem unitView_pieceTaken (s : State) (n : Nat) (rest : List UnitReq) (bytes : Nat) :
    unitView n (pieceTaken s n rest bytes) = unitView n s := by simp [pieceTaken]

theorem reductionCombine_eq {n c f lo k bytes : Nat} {s : State} {p : Place3} {rest : List UnitReq} {x : Coll} {card : Card}
    (hq : (sext s n).queue = ⟨.piece c f p lo k, bytes⟩ :: rest) (hch : changing s n = false)
    (hx : collOf s c = some x) (hcard : x.card = some card) :
    reductionCombine n s =
      combinePart (pieceTaken s n rest (k * 512 / perPacket (ccWfmt x.bytes))) n c f x card p lo k := by
  have hcolls : (settlePress (setSext s n { sext s n with queue := rest }) n).colls = s.colls := by
    have hview : unitView n (settlePress (setSext s n { sext s n with queue := rest }) n) = unitView n s := by simp
    exact (unitView_iff.mp hview).2.2.1
  have hx' : collOf (settlePress (setSext s n { sext s n with queue := rest }) n) c = some x := by
    rw [collOf, hcolls]; exact hx
  unfold reductionCombine
  simp only [hq, hch, Bool.false_eq_true, if_false, hx', hcard]
  rfl

/-! ## A part of a piece that is combined and landed -/

/-- The combined values of a part whose local elements are `b`. -/
def combined (s : State) (u c f : Nat) (x : Coll) (card : Card) (p : Place3) (lo n : Nat) (b : Bytes) : List (BitVec 32) :=
  combineAll (isFloatFmt (ccWfmt x.bytes)) (ropOf (ccRop x.bytes)) (wireElems s u c f x card p lo n).1
    (unpack (ccLfmt x.bytes) n b)

/-- The element of the index space at which a part begins. -/
def partStart (x : Coll) (card : Card) (p : Place3) (lo : Nat) : Nat :=
  (pieceElems (ccWfmt x.bytes) (segElems x.bytes card) (ccCount x.bytes) p).1 + lo

/-- Landing a part writes its packed values where its first element lies, and the landing is open. -/
theorem landPart_landed {s : State} {x : Coll} {e : Nat} {pl : Place} (u c f : Nat) (p : Place3) (n : Nat)
    (vals : List (BitVec 32)) (marks : List Bool) (hpl : elemPlace s x 1 e = some pl) :
    (landPart s u c f x p e n vals marks).mem =
        landMemory s.mem pl.addr (elemBytes (ccLfmt x.bytes)) (packElems (ccLfmt x.bytes) vals).1 marks ∧
      landingOpen (landPart s u c f x p e n vals marks) c = true := by
  unfold landPart
  simp only [hpl]
  constructor
  · exact congrArg Prod.fst (memSide_unitCount ..)
  · simp [landingOpen]

@[simp] theorem tables_unitCount (s : State) (u sub n : Nat) : (unitCount s u sub n).tables = s.tables :=
  congrArg Prod.fst (unitView_unitCount 0 s u sub n)

@[simp] theorem tables_updColl (s : State) (c : Nat) (f : Coll → Coll) : (updColl s c f).tables = s.tables := by
  unfold updColl
  split <;> rfl

@[simp] theorem tables_notePoison (s : State) (c : Nat) (bad : Bool) : (notePoison s c bad).tables = s.tables := by
  unfold notePoison
  split <;> simp

/-- A part whose local elements are read lands its combined values: before that only counts, poison marks and what is to be
passed on change, after it the piece is counted down and the collective goes on. -/
theorem combinePart_lands {s : State} {u c f : Nat} {x : Coll} {card : Card} {p : Place3} {lo n : Nat} {b : Bytes}
    {bm : List Bool} (hlands : lands (figAt card f) p.rep = true) (hcomb : (figAt card f).comb ≠ 0)
    (hread : readPart s (unitMem s u) x ((figAt card f).comb - 1) (partStart x card p lo) n = some (b, bm)) :
    ∃ (t : State) (marks : List Bool), memSide t = memSide s ∧ t.tables = s.tables ∧
      combinePart s u c f x card p lo n =
        pumpColl (finishPiece (passPiece (countDown (landPart t u c f x p (partStart x card p lo) n
          (combined s u c f x card p lo n b) marks) c f card p n 0) u c f card p) c f card p) c := by
  unfold combinePart
  rw [partStart] at hread
  simp only [hcomb, if_false, hread, hlands, if_true]
  refine ⟨_, _, ?_, ?_, rfl⟩
  · split <;> simp
  · split <;> simp

/-- Memory after such a part holds its packed values where its first element lies, and is else as it was. -/
theorem combinePart_mem {s : State} {u c f : Nat} {x : Coll} {card : Card} {p : Place3} {lo n : Nat} {b : Bytes}
    {bm : List Bool} {pl : Place} (hlands : lands (figAt card f) p.rep = true) (hcomb : (figAt card f).comb ≠ 0)
    (hread : readPart s (unitMem s u) x ((figAt card f).comb - 1) (partStart x card p lo) n = some (b, bm))
    (hpl : elemPlace s x 1 (partStart x card p lo) = some pl) :
    ∃ marks, (combinePart s u c f x card p lo n).mem = landMemory s.mem pl.addr (elemBytes (ccLfmt x.bytes))
      (packElems (ccLfmt x.bytes) (combined s u c f x card p lo n b)).1 marks := by
  obtain ⟨t, marks, hside, htables, heq⟩ := combinePart_lands (u := u) (c := c) hlands hcomb hread
  obtain ⟨hmem, hopen⟩ := landPart_landed u c f p n (combined s u c f x card p lo n b) marks
    ((elemPlace_of_tables htables x 1 (partStart x card p lo)).trans hpl)
  have hafter (y : State) (hy : landingOpen y c = true) : (pumpColl (finishPiece (passPiece (countDown y c f card p n 0)
      u c f card p) c f card p) c).mem = y.mem := by
    have hkept : memSide (finishPiece (passPiece (countDown y c f card p n 0) u c f card p) c f card p) = memSide y := by
      simp
    exact congrArg Prod.fst ((memSide_pumpColl (by rw [landingOpen_of_memSide hkept, hy])).trans hkept)
  refine ⟨marks, ?_⟩
  rw [heq, hafter _ hopen, hmem, show t.mem = s.mem from congrArg Prod.fst hside]

/-- What a unit combines of the piece at the front of its queue is in memory when it has taken it. -/
theorem execReductionCombine_mem {n : Fin 16} {s : State} {c f lo k bytes : Nat} {p : Place3} {rest : List UnitReq} {x : Coll}
    {card : Card} {pl : Place} {b : Bytes} {bm : List Bool}
    (hq : (sext s n).queue = ⟨.piece c f p lo k, bytes⟩ :: rest) (hch : changing s n = false)
    (hx : collOf s c = some x) (hcard : x.card = some card)
    (hlands : lands (figAt card f) p.rep = true) (hcomb : (figAt card f).comb ≠ 0)
    (hread : readPart s (unitMem s n) x ((figAt card f).comb - 1) (partStart x card p lo) k = some (b, bm))
    (hpl : elemPlace s x 1 (partStart x card p lo) = some pl) :
    Runs (.reductionCombine n) s fun t => ∃ marks, t.mem = landMemory s.mem pl.addr (elemBytes (ccLfmt x.bytes))
      (packElems (ccLfmt x.bytes) (combined s n c f x card p lo k b)).1 marks := by
  refine ⟨pressEnded n s (reductionCombine n s), rfl, ?_⟩
  have hview := unitView_pieceTaken s n rest (k * 512 / perPacket (ccWfmt x.bytes))
  obtain ⟨htables, -, -, hmem, -⟩ := unitView_iff.mp hview
  rw [← unitMem_of_view hview, ← readPart_of_tables htables] at hread
  rw [← elemPlace_of_tables htables] at hpl
  obtain ⟨marks, hland⟩ := combinePart_mem (u := n) (c := c) hlands hcomb hread hpl
  refine ⟨marks, ?_⟩
  rw [show (pressEnded n s (reductionCombine n s)).mem = (reductionCombine n s).mem from
    congrArg Prod.fst (memSide_pressEnded ..), reductionCombine_eq hq hch hx hcard, hland, hmem, combined,
    wireElems_of_view hview, ← combined]

/-! ## The statement -/

/-- Settles O33. The integer class by its signed meaning; a landing by what the unit combines, which no step after it takes
back: while the landing is open even an abort of the collective leaves memory as it is. -/
theorem reductionsLand : Obligations.ReductionsLand := by
  unfold Obligations.ReductionsLand
  constructor
  · intro r l m i
    rw [combineAll_int_getElem?]
    rcases l[i]? with _ | a <;> rcases m[i]? with _ | b
    · rfl
    · rfl
    · rfl
    · exact congrArg some (combineI_eq r a b)
  · rintro n s c f lo k bytes p rest x card pl b bm hq hch hx hcard hlands hcomb _ rfl hread hpl _ rfl
    obtain ⟨t, hrun, marks, hmem⟩ := execReductionCombine_mem hq hch hx hcard hlands hcomb hread hpl
    refine ⟨t, hrun, fun j h => ?_, fun a ha => ?_⟩
    · rw [hmem, memByte_landMemory]
      exact memByte_memWrite_inside _ _ _ _ h
    · rw [hmem, memByte_landMemory]
      exact memByte_memWrite_outside _ _ _ _ ha

end Sys2Proof.Machine
end

section
/-! PROOF. Directions, levels and datelines (R233, R234, R236, R237): what a write of them does to the stored numbers, when it is
refused, and the state in which `Obligations.DirectionsWritten` fails: a torus size beyond the bounds of R40. -/

namespace Sys2Proof.Machine
open Sys2Proof

/-! ## Writes whose rule changes only stored numbers -/

@[simp] theorem regs_sendAnswer (s : State) (p : Path) (a : Answer) : (sendAnswer s p a).regs = s.regs := by
  unfold sendAnswer
  cases p with
  | host x => rfl
  | field e =>
    unfold sendFrame
    dsimp only
    split
    · rfl
    · rfl

@[simp] theorem regs_logCritWrite (q : DictReq) (o : Outcome7) : (logCritWrite q o).regs = o.s.regs := by
  unfold logCritWrite
  split
  · rfl
  · rfl

theorem regs_written (q : DictReq) (u : State) : (written q u).regs = u.regs := by
  unfold written answer
  rw [regs_sendAnswer]
  exact regs_logCritWrite q _

/-- A command whose entry's rule only stores numbers works, with an effect that is read from the stored numbers alone. -/
theorem writeWorks_of_regs {c : Instr} {w : WriteHdr} {i j : Nat} {v : Bytes} {s : State} {post : State → Prop}
    (apply : State → Verdict) (f : State → State) (hc : exec c s = .next (dictWrite w i j v apply s))
    (hrule : Authorised (writeReq w i j v) s →
      apply (atEntry (writeReq w i j v) s) = ok (f (atEntry (writeReq w i j v) s)))
    (hbeside : ∀ t, beside (f t) = beside t)
    (hpost : Authorised (writeReq w i j v) s → ∀ t, t.regs = (f (atEntry (writeReq w i j v) s)).regs → post t) :
    WriteWorks c w i j v s (fun _ => s) post := by
  intro hT
  obtain ⟨-, -, -, -, -, -, -, -, -, -, -, haut, -⟩ := id hT
  have hkept := (hbeside (atEntry (writeReq w i j v) s)).trans (beside_atEntry _ s haut)
  have hcascade := part_of_beside (·.cascade) (fun _ => rfl) hkept
  exact writeWorks apply _ [] hc (hrule haut) hkept (hpost haut _ (regs_written _ _)) (fun h => by rw [hcascade, h]) hT

/-- A write that is taken is not both performed and refused: it has one answer. -/
theorem not_writeRefused_of_writeWorks {c : Instr} {w : WriteHdr} {i j : Nat} {v : Bytes} {s : State}
    {frame : State → State} {post : State → Prop} (hT : WriteTaken (writeReq w i j v) s)
    (hworks : WriteWorks c w i j v s frame post) : ¬ WriteRefused c (writeReq w i j v) s := by
  intro hrefused
  obtain ⟨t, ht, hok, -⟩ := hworks hT
  obtain ⟨t', ht', ⟨r, a, ha, -, -, hstatus, -⟩, -⟩ := hrefused hT
  obtain rfl : t = t' := Host.Outcome.next.inj (ht.symm.trans ht')
  obtain rfl : okAnswer w i j = a := Option.some.inj (hok.symm.trans ha)
  cases hstatus

theorem require_pos {c : Bool} {v : Verdict} (h : c = true) : require c v = v := if_pos h

/-! ## What the rules of 0x3600 read -/

@[simp] theorem dirOf_atEntry (q : DictReq) (s : State) (p : Nat) (h : Authorised q s) :
    dirOf (atEntry q s) p = dirOf s p :=
  regAt_atEntry q s _ _ _ h (by unfold regKey; omega) (by unfold regKey; omega)

@[simp] theorem torusSize_atEntry (q : DictReq) (s : State) (d : Nat) (h : Authorised q s) :
    torusSize (atEntry q s) d = torusSize s d :=
  regAt_atEntry q s _ _ _ h (by unfold regKey; omega) (by unfold regKey; omega)

@[simp] theorem working_atEntry (q : DictReq) (s : State) (p : Nat) (h : Authorised q s) :
    working (atEntry q s) p = working s p := by simp only [working, port, ports_atEntry q s h]

@[simp] theorem inDim_atEntry (q : DictReq) (s : State) (d p : Nat) (h : Authorised q s) :
    inDim (atEntry q s) d p = inDim s d p := by simp only [inDim, dirOf_atEntry q s p h]

@[simp] theorem wsel_atEntry (w : WriteHdr) (i j : Nat) (v : Bytes) (s : State) (index sub : Nat)
    (h : Authorised (writeReq w i j v) s) : wsel (atEntry (writeReq w i j v) s) w index sub = wsel s w index sub :=
  selected_atEntry _ s index sub h

/-- Some port of dimension `d` works, so that R237 keeps its dateline. -/
def dimWorks (s : State) (d : Nat) : Bool := twelve.any fun p => inDim s d p && working s p

theorem dimWorks_iff {s : State} {d : Nat} :
    dimWorks s d = true ↔ ∃ p ∈ twelve, inDim s d p = true ∧ working s p = true := by
  simp only [dimWorks, List.any_eq_true, Bool.and_eq_true]

@[simp] theorem dimWorks_atEntry (q : DictReq) (s : State) (d : Nat) (h : Authorised q s) :
    dimWorks (atEntry q s) d = dimWorks s d := by
  simp only [dimWorks, inDim_atEntry q s _ _ h, working_atEntry q s _ h]

/-! ## The default levels (R236) -/

/-- Beside the levels, 0x3600.03 and .04, the stored numbers are the same. -/
def LevelsOnly (s t : State) : Prop :=
  ∀ n, n < regKey 0x3600 3 0 ∨ regKey 0x3600 5 0 ≤ n → tget t.regs n = tget s.regs n

theorem levelsOnly_setLevel (s : State) {j p : Nat} (hj : j = 3 ∨ j = 4) (hp : p ≤ 11) (v : Nat) :
    LevelsOnly s (setRegAt s 0x3600 j p v) := by
  intro n hn
  exact tget_tput_ne _ _ _ _ (by unfold regKey at hn ⊢; omega)

theorem LevelsOnly.trans {s t u : State} (h : LevelsOnly s t) (h' : LevelsOnly t u) : LevelsOnly s u :=
  fun n hn => (h' n hn).trans (h n hn)

theorem LevelsOnly.of_regs {s t u : State} (h : LevelsOnly s u) (hregs : t.regs = u.regs) : LevelsOnly s t := by
  intro n hn
  rw [hregs]
  exact h n hn

theorem levelsOnly_computeLevels (s : State) {p : Nat} (hp : p ≤ 11) : LevelsOnly s (computeLevels s p) :=
  (levelsOnly_setLevel s (.inl rfl) hp _).trans (levelsOnly_setLevel _ (.inr rfl) hp _)

theorem levelsOnly_foldl_computeLevels (l : List Nat) (hl : ∀ p ∈ l, p ≤ 11) (s : State) :
    LevelsOnly s (l.foldl computeLevels s) := by
  induction l generalizing s with
  | nil => exact fun _ _ => rfl
  | cons p l ih =>
    obtain ⟨hp, hrest⟩ := List.forall_mem_cons.mp hl
    exact (levelsOnly_computeLevels s hp).trans (ih hrest _)

@[simp] theorem beside_computeLevels (s : State) (p : Nat) : beside (computeLevels s p) = beside s := rfl

section
variable {s t : State} (h : LevelsOnly s t)
include h

theorem LevelsOnly.regAt_eq {i j k : Nat} (hkey : regKey i j k < regKey 0x3600 3 0 ∨ regKey 0x3600 5 0 ≤ regKey i j k) :
    regAt t i j k = regAt s i j k := by simp only [regAt, h _ hkey]

theorem LevelsOnly.dirOf_eq {p : Nat} (hp : p ≤ 11) : dirOf t p = dirOf s p :=
  h.regAt_eq (by unfold regKey; omega)

theorem LevelsOnly.ownNode_eq : ownNode t = ownNode s :=
  congrArg (BitVec.ofNat 16) (h.regAt_eq (by unfold regKey; omega))

theorem LevelsOnly.torusSize_eq {d : Nat} (hd : d < 3) : torusSize t d = torusSize s d :=
  h.regAt_eq (by unfold regKey; omega)

theorem LevelsOnly.dateline_eq {d : Nat} (hd : d < 3) : dateline t d = dateline s d := by
  have hstored := h (regKey 0x3600 (5 + d) 0) (.inr (by unfold regKey; omega))
  simp only [dateline, hstored, h.torusSize_eq hd]

/-- The default levels follow from the direction, the dateline, the torus size and the position, none of which is a level. -/
theorem LevelsOnly.default_eq {p : Nat} (hp : p ≤ 11) :
    defaultLout t p = defaultLout s p ∧ defaultLin t p = defaultLin s p := by
  unfold defaultLout defaultLin
  rw [h.dirOf_eq hp]
  by_cases hdir : dirOf s p = 0 ∨ 6 < dirOf s p
  · simp only [if_pos hdir, and_self]
  · have hd : dirDim (dirOf s p) < 3 := by unfold dirDim; omega
    simp only [if_neg hdir, h.torusSize_eq hd, h.dateline_eq hd, h.ownNode_eq, and_self]

end

/-- Once they are computed, the levels of a port are the default ones. -/
theorem levels_of_computeLevels {s t : State} {p : Nat} (hp : p ≤ 11) (h : t.regs = (computeLevels s p).regs) :
    lout t p = defaultLout t p ∧ lin t p = defaultLin t p := by
  have hsame : LevelsOnly s t := (levelsOnly_computeLevels s hp).of_regs h
  obtain ⟨hlout, hlin⟩ := hsame.default_eq hp
  have hkey : regKey 0x3600 4 p ≠ regKey 0x3600 3 p := by unfold regKey; omega
  constructor
  · simp only [lout, h, computeLevels, setRegAt, tget_tput_ne _ _ _ _ hkey, tget_tput_self, Option.getD_some, hlout]
  · simp only [lin, h, computeLevels, setRegAt, tget_tput_self, Option.getD_some, hlin]

/-! ## Writes of a direction (R233, R236, R237) -/

/-- What an accepted direction write stores. -/
def directionStored (p v : Nat) (s : State) : State := computeLevels (setRegAt s 0x3600 2 p v) p

theorem applyDirection_ok {s : State} {p v : Nat} (hv : v ≤ 6) (hidle : working s p = false) :
    applyDirection p v s = ok (directionStored p v s) :=
  (inRange_pos (by simpa using hv)).trans (require_pos (by simp [hidle]))

theorem applyDirection_working {s : State} {p : Nat} (v : Nat) (hworks : working s p = true) :
    ∃ r, applyDirection p v s = .refuse .notPerformed r := by
  by_cases hv : v ≤ 6
  · exact ⟨10, (inRange_pos (by simpa using hv)).trans (require_neg (by simp [hworks]))⟩
  · exact ⟨9, inRange_neg (by simpa using hv)⟩

/-- The directions and levels read after such a write. -/
theorem directionStored_reads {s t : State} {p v : Nat} (hp : p ≤ 11) (h : t.regs = (directionStored p v s).regs) :
    dirOf t p = v ∧ (∀ q, q ≤ 11 → q ≠ p → dirOf t q = dirOf s q) ∧
      lout t p = defaultLout t p ∧ lin t p = defaultLin t p := by
  have hsame : LevelsOnly (setRegAt s 0x3600 2 p v) t := (levelsOnly_computeLevels _ hp).of_regs h
  refine ⟨?_, fun q hq hne => ?_, levels_of_computeLevels hp h⟩
  · exact (hsame.dirOf_eq hp).trans (regAt_setRegAt_self ..)
  · exact (hsame.dirOf_eq hq).trans (regAt_setRegAt_ne _ _ _ _ _ _ _ _ (by unfold regKey; omega))

/-- R233, R236, R237: a direction is written while its port does not work, and no other port's direction with it. -/
theorem portDirectionWrite_works (w : WriteHdr) (v : BitVec 8) (s : State) {p : Nat} (hsel : p = wsel s w 0x3600 1)
    (hp : p ≤ 11) (hv : v.toNat ≤ 6) (hidle : working s p = false) :
    WriteWorks (.portDirectionWrite w v) w 0x3600 2 [v] s (fun _ => s) fun t =>
      dirOf t p = v.toNat ∧ (∀ q, q ≤ 11 → q ≠ p → dirOf t q = dirOf s q) ∧
      lout t p = defaultLout t p ∧ lin t p = defaultLin t p := by
  refine writeWorks_of_regs (fun t => applyDirection (wsel t w 0x3600 1) v.toNat t) (directionStored p v.toNat)
    rfl (fun haut => ?_) (fun _ => rfl) (fun haut t ht => ?_)
  · rw [wsel_atEntry _ _ _ _ _ _ _ haut, ← hsel]
    exact applyDirection_ok hv ((working_atEntry _ s p haut).trans hidle)
  · obtain ⟨hdir, hothers, hlevels⟩ := directionStored_reads hp ht
    exact ⟨hdir, fun q hq hne => (hothers q hq hne).trans (dirOf_atEntry _ s q haut), hlevels⟩

/-- R237: the direction of a port that works is not written. -/
theorem portDirectionWrite_refused (w : WriteHdr) (v : BitVec 8) {s : State} (hworks : working s (wsel s w 0x3600 1) = true) :
    WriteRefused (.portDirectionWrite w v) (writeReq w 0x3600 2 [v]) s :=
  writeRefused_of_rule (fun t => applyDirection (wsel t w 0x3600 1) v.toNat t) rfl fun haut =>
    applyDirection_working _ (by rw [wsel_atEntry _ _ _ _ _ _ _ haut, working_atEntry _ _ _ haut, hworks])

/-! ## Writes of a level (R236, R237) -/

/-- The rule of a level's entry acts on the selected port. -/
theorem applyEntry_level (w : WriteHdr) {j : Nat} (hj : j = 3 ∨ j = 4) (v : Bytes) (s : State) :
    applyEntry (writeReq w 0x3600 j v) s = applyLevel j (wsel s w 0x3600 1) (leNat v) s := by
  rcases hj with rfl | rfl
  · rfl
  · rfl

theorem applyLevel_working {s : State} {p : Nat} (j v : Nat) (hworks : working s p = true) :
    applyLevel j p v s = .refuse .notPerformed 10 := require_neg (by simp [hworks])

/-- R237: neither level of a port that works is written. -/
theorem levelWrite_refused (w : WriteHdr) {j : Nat} (hj : j = 3 ∨ j = 4) (v : Bytes) {s : State}
    (hworks : working s (wsel s w 0x3600 1) = true) :
    WriteRefused (.dictionaryWrite w 0x3600 (BitVec.ofNat 8 j) v) (writeReq w 0x3600 j v) s := by
  have hrun : exec (.dictionaryWrite w 0x3600 (BitVec.ofNat 8 j) v) s =
      .next (dictWrite w 0x3600 j v (applyEntry (writeReq w 0x3600 j v)) s) := by
    rcases hj with rfl | rfl
    · rfl
    · rfl
  refine writeRefused_of_rule _ hrun fun haut => ⟨10, ?_⟩
  rw [applyEntry_level w hj, wsel_atEntry _ _ _ _ _ _ _ haut]
  exact applyLevel_working _ _ ((working_atEntry _ _ _ haut).trans hworks)

/-! ## Writes of a dateline (R234, R237, R460) -/

/-- R40: the coordinates that a node id can hold in a dimension. -/
def coordinates (d : Nat) : Nat := if d = 0 then 64 else 32

/-- What an accepted dateline write stores. -/
def datelineStored (d v : Nat) (s : State) : State :=
  (twelve.filter (inDim s d)).foldl computeLevels (setReg s 0x3600 (5 + d) v)

theorem applyDateline_ok {s : State} {d v : Nat} (hfield : v < coordinates d) (hv : v < torusSize s d)
    (hidle : dimWorks s d = false) : applyDateline d v s = ok (datelineStored d v s) := by
  have hgiven : (decide (v < torusSize s d) && !dimWorks s d) = true := by simp [hv, hidle]
  exact (inRange_pos (by simpa [coordinates] using hfield)).trans (require_pos hgiven)

/-- A dateline that no coordinate of a node id reaches is out of range, whatever torus size is stored. -/
theorem applyDateline_beyond {s : State} {d v : Nat} (hfield : coordinates d ≤ v) :
    applyDateline d v s = .refuse .notPerformed 9 := inRange_neg (by simpa [coordinates] using hfield)

theorem applyDateline_working {s : State} {d : Nat} (v : Nat) (hworks : dimWorks s d = true) :
    ∃ r, applyDateline d v s = .refuse .notPerformed r := by
  by_cases hfield : v < coordinates d
  · have hkept : ¬ (decide (v < torusSize s d) && !dimWorks s d) = true := by simp [hworks]
    exact ⟨10, (inRange_pos (by simpa [coordinates] using hfield)).trans (require_neg hkept)⟩
  · exact ⟨9, applyDateline_beyond (Nat.le_of_not_lt hfield)⟩

theorem beside_datelineStored (d v : Nat) (s : State) : beside (datelineStored d v s) = beside s :=
  foldl_keeps beside computeLevels beside_computeLevels _ _

theorem dateline_of_datelineStored {s t : State} {d v : Nat} (hd : d < 3) (h : t.regs = (datelineStored d v s).regs) :
    dateline t d = v := by
  have hports : ∀ p ∈ twelve.filter (inDim s d), p ≤ 11 := fun p hp =>
    Nat.le_of_lt_succ (List.mem_range.mp (List.mem_filter.mp hp).1)
  have hsame : LevelsOnly (setReg s 0x3600 (5 + d) v) t := (levelsOnly_foldl_computeLevels _ hports _).of_regs h
  rw [hsame.dateline_eq hd]
  simp [dateline, setReg, setRegAt]

/-- R234, R237: a dateline that the coordinate's field can hold is written while no port of its dimension works. -/
theorem datelineWrite_works (w : WriteHdr) (d : Fin 3) (v : BitVec 8) (s : State) (hfield : v.toNat < coordinates d)
    (hv : v.toNat < torusSize s d) (hidle : ∀ p, p ∈ twelve → inDim s d p = true → working s p = false) :
    WriteWorks (.datelineWrite w d v) w 0x3600 (5 + d.val) [v] s (fun _ => s) fun t => dateline t d = v.toNat := by
  have hnone : dimWorks s d = false := by
    rw [Bool.eq_false_iff, ne_eq, dimWorks_iff]
    rintro ⟨p, hp, hdim, hworks⟩
    exact absurd (hidle p hp hdim) (by simp [hworks])
  refine writeWorks_of_regs (applyDateline d v.toNat) (datelineStored d v.toNat) rfl (fun haut => ?_)
    (beside_datelineStored _ _) (fun _ t ht => dateline_of_datelineStored d.isLt ht)
  exact applyDateline_ok hfield (by rwa [torusSize_atEntry _ _ _ haut]) (by rwa [dimWorks_atEntry _ _ _ haut])

/-- R237: a dateline is not written while a port of its dimension works. -/
theorem datelineWrite_refused (w : WriteHdr) (d : Fin 3) (v : BitVec 8) {p : Nat} {s : State} (hp : p ∈ twelve)
    (hdim : inDim s d p = true) (hworks : working s p = true) :
    WriteRefused (.datelineWrite w d v) (writeReq w 0x3600 (5 + d.val) [v]) s :=
  writeRefused_of_rule (applyDateline d v.toNat) rfl fun haut =>
    applyDateline_working _ (by rw [dimWorks_atEntry _ _ _ haut]; exact dimWorks_iff.mpr ⟨p, hp, hdim, hworks⟩)

/-- R460: a dateline beyond the coordinate's field is refused. -/
theorem datelineWrite_beyond_refused (w : WriteHdr) (d : Fin 3) (v : BitVec 8) (s : State)
    (hfield : coordinates d ≤ v.toNat) : WriteRefused (.datelineWrite w d v) (writeReq w 0x3600 (5 + d.val) [v]) s :=
  writeRefused_of_rule (applyDateline d v.toNat) rfl fun _ => ⟨9, applyDateline_beyond hfield⟩

/-! ## The statement -/

/-- A device in service whose stored x size, 0x3000.02, is 65, beyond the 1 to 64 that R40 and its listing allow. -/
def oversizedTorus : State :=
  setReg { State.reset with faults := { Faults.reset with running := [] } } 0x3000 2 65

/-- The host window writes without authentication. -/
def plainHostWrite : WriteHdr := { path := .host 1, xid := 1, auth := none }

/-- The listed range of a dateline is that of a byte, so that the checks before its rule let 64 pass. -/
theorem datelineWrite_taken_oversizedTorus : WriteTaken (writeReq plainHostWrite 0x3600 5 [64]) oversizedTorus := by
  have haut : Authorised (writeReq plainHostWrite 0x3600 5 [64]) oversizedTorus := by
    change accessOf 0x3600 5 ≠ .crit
    decide
  have hnew : oversizedTorus.mgmt.lastSubmit ≠ some plainHostWrite.xid := by decide
  exact ⟨rfl, rfl, rfl, rfl, rfl, rfl, rfl, fun _ => hnew, rfl, rfl, rfl, haut, rfl, rfl⟩

/-- Refutes O12. The second clause takes any dateline below the stored torus size, and the state is any: where the stored
x size is 65, the dateline 64 lies beyond a coordinate's 6 bits and is refused with reason 9. All else of the statement
holds: `portDirectionWrite_works`, `datelineWrite_works` within the field, `portDirectionWrite_refused`,
`levelWrite_refused`, `datelineWrite_refused`. -/
theorem not_directionsWritten : ¬ Obligations.DirectionsWritten := by
  unfold Obligations.DirectionsWritten
  rintro ⟨-, hdateline, -, -⟩
  have hworks := hdateline plainHostWrite 0 64 oversizedTorus (by decide) (by decide)
  exact not_writeRefused_of_writeWorks datelineWrite_taken_oversizedTorus hworks
    (datelineWrite_beyond_refused plainHostWrite 0 64 oversizedTorus (by decide))

end Sys2Proof.Machine
end

section
/-! PROOF. What the end of a link (R299) leaves as it was: the cascade bus and which ports the rack holds off (R399). Every
function that `linkDown` reaches keeps both, in the order in which the model defines them. -/

namespace Sys2Proof.Machine
open Sys2Proof

/-- The cascade bus, and which ports are held off. -/
def holdSide (s : State) : Cascade × (Nat → Bool) := (s.cascade, fun p => (port s p).heldOff)

/-! ## Updates of one record -/

/-- What changes neither the ports nor the cascade keeps both. -/
theorem holdSide_of_ports {s t : State} (hports : t.ports = s.ports) (hcascade : t.cascade = s.cascade) :
    holdSide t = holdSide s := by simp only [holdSide, port, hports, hcascade]

theorem holdSide_setPort {s : State} {p : Nat} {x : Port} (h : x.heldOff = (port s p).heldOff) :
    holdSide (setPort s p x) = holdSide s := by
  refine Prod.ext rfl (funext fun q => ?_)
  change (port (setPort s p x) q).heldOff = (port s q).heldOff
  by_cases hq : p = q
  · rw [← hq, port_setPort_self, h]
  · rw [port_setPort_ne _ _ _ _ hq]

@[simp] theorem holdSide_updPort {s : State} {p : Nat} {f : Port → Port} (h : ∀ x, (f x).heldOff = x.heldOff) :
    holdSide (updPort s p f) = holdSide s := holdSide_setPort (h _)

@[simp] theorem holdSide_updLink (s : State) (p : Nat) (f : Link → Link) : holdSide (updLink s p f) = holdSide s :=
  holdSide_updPort fun _ => rfl

@[simp] theorem holdSide_updLane (s l f) : holdSide (updLane s l f) = holdSide s := rfl
@[simp] theorem holdSide_updOctet (s o f) : holdSide (updOctet s o f) = holdSide s := rfl
@[simp] theorem holdSide_setSext (s u x) : holdSide (setSext s u x) = holdSide s := rfl
@[simp] theorem holdSide_updSext (s u f) : holdSide (updSext s u f) = holdSide s := rfl
@[simp] theorem holdSide_setCtx (s c x) : holdSide (setCtx s c x) = holdSide s := rfl
@[simp] theorem holdSide_updCtx (s c f) : holdSide (updCtx s c f) = holdSide s := rfl
@[simp] theorem holdSide_setBlock (s b x) : holdSide (setBlock s b x) = holdSide s := rfl
@[simp] theorem holdSide_setRegAt (s i j k v) : holdSide (setRegAt s i j k v) = holdSide s := rfl
@[simp] theorem holdSide_bumpBy (s i j k n) : holdSide (bumpBy s i j k n) = holdSide s := rfl
@[simp] theorem holdSide_bumpAt (s i j k) : holdSide (bumpAt s i j k) = holdSide s := rfl
@[simp] theorem holdSide_bump (s i j) : holdSide (bump s i j) = holdSide s := rfl
@[simp] theorem holdSide_emit (s o) : holdSide (emit s o) = holdSide s := rfl
@[simp] theorem holdSide_putPkt (s x) : holdSide (putPkt s x) = holdSide s := rfl
@[simp] theorem holdSide_putColl (s c x) : holdSide (putColl s c x) = holdSide s := rfl
@[simp] theorem holdSide_sliceResult (s l r) : holdSide (sliceResult s l r) = holdSide s := rfl
@[simp] theorem holdSide_notePeaks (s) : holdSide (notePeaks s) = holdSide s := rfl
@[simp] theorem holdSide_mirrorTouch (s c) : holdSide (mirrorTouch s c) = holdSide s := rfl
@[simp] theorem holdSide_recordFailure (s c n k st) : holdSide (recordFailure s c n k st) = holdSide s := rfl
@[simp] theorem holdSide_dropCmd (s c n) : holdSide (dropCmd s c n) = holdSide s := rfl
@[simp] theorem holdSide_putCmd (s c m) : holdSide (putCmd s c m) = holdSide s := rfl
@[simp] theorem holdSide_holdOp (s o) : holdSide (holdOp s o) = holdSide s := rfl
@[simp] theorem holdSide_dropMessages (s c n) : holdSide (dropMessages s c n) = holdSide s := rfl
@[simp] theorem holdSide_scramble (s r) : holdSide (scramble s r) = holdSide s := rfl

theorem holdSide_foldl {α : Type} {f : State → α → State} (h : ∀ t a, holdSide (f t a) = holdSide t) (l : List α)
    (s : State) : holdSide (l.foldl f s) = holdSide s := foldl_keeps holdSide f h l s

/-! ## Reports (R367, R368) -/

@[simp] theorem holdSide_toIntake (s : State) (m : Msg) : holdSide (toIntake s m) = holdSide s := by
  unfold toIntake
  split
  · rfl
  · rfl

@[simp] theorem holdSide_raiseReport (s : State) (r : Report) : holdSide (raiseReport s r) = holdSide s := by
  unfold raiseReport
  split
  · exact holdSide_toIntake ..
  · rfl

@[simp] theorem holdSide_report (s : State) (cls idx kind addr : Nat) :
    holdSide (report s cls idx kind addr) = holdSide s := holdSide_raiseReport ..

@[simp] theorem holdSide_reportDown (s : State) (p node cause reason : Nat) :
    holdSide (reportDown s p node cause reason) = holdSide s := by
  unfold reportDown
  split
  · simp
  · split <;> simp

/-! ## What goes out on a port (R286 to R289, R307) -/

@[simp] theorem holdSide_sendCharacters (s : State) (l : Nat) (cs : List Char8) :
    holdSide (sendCharacters s l cs) = holdSide s := by
  unfold sendCharacters
  dsimp only
  split <;> rfl

@[simp] theorem holdSide_sendBlockA (s : State) (o : Nat) (b : Bytes) : holdSide (sendBlockA s o b) = holdSide s :=
  holdSide_foldl (fun _ _ => holdSide_foldl (fun _ _ => holdSide_sendCharacters ..) ..) ..

@[simp] theorem holdSide_injectFrame (s : State) (o : Nat) (words : List (List Nat)) :
    holdSide (injectFrame s o words).1 = holdSide s := by
  unfold injectFrame
  dsimp only
  split
  · rfl
  · split <;> rfl

@[simp] theorem holdSide_sendFrameLane (words : List (List Nat)) (k : Nat) (s : State) (l : Nat) :
    holdSide (sendFrameLane words k s l) = holdSide s := by
  unfold sendFrameLane
  simp only [holdSide_emit, holdSide_updLane]
  split <;> rfl

@[simp] theorem holdSide_sendFecFrame (s : State) (o : Nat) (data : Bytes) :
    holdSide (sendFecFrame s o data) = holdSide s := by
  unfold sendFecFrame
  rw [holdSide_foldl fun _ _ => holdSide_foldl (fun _ _ => holdSide_sendFrameLane ..) .., holdSide_injectFrame]

@[simp] theorem holdSide_fillFrame (s : State) (o : Nat) (b : Bytes) : holdSide (fillFrame s o b) = holdSide s := by
  unfold fillFrame
  dsimp only
  split <;> simp

@[simp] theorem holdSide_dealBlock (st : Stage) (os : List Nat) (s : State) (p : Nat) (b : Bytes) :
    holdSide (dealBlock st os s p b) = holdSide s := by
  unfold dealBlock
  dsimp only
  split
  · simp
  · split <;> simp

@[simp] theorem holdSide_streamOut (s : State) (p : Nat) (data : Bytes) :
    holdSide (streamOut s p data) = holdSide s := by
  unfold streamOut
  split
  · rfl
  · exact holdSide_foldl (fun _ _ => holdSide_dealBlock ..) ..

@[simp] theorem holdSide_sendBlock (s : State) (p : Nat) (urgent : Bool) (b : BitVec 256) :
    holdSide (sendBlock s p urgent b) = holdSide s := by simp [sendBlock]

@[simp] theorem holdSide_sendStatus (s : State) (p : Nat) (xoff : Bool) :
    holdSide (sendStatus s p xoff) = holdSide s := by simp [sendStatus]

@[simp] theorem holdSide_sendControl (s : State) (p ctype : Nat) (body : List (Nat × Nat × Nat)) :
    holdSide (sendControl s p ctype body) = holdSide s := by simp [sendControl]

theorem holdSide_nextNotice {s t : State} {p : Nat} (h : nextNotice s p = some t) : holdSide t = holdSide s := by
  unfold nextNotice at h
  dsimp only at h
  split at h
  · cases h; simp
  · split at h
    · cases h; simp [sendNumbered]
    · cases h
  · cases h

theorem holdSide_nextWaiting {s t : State} {p : Nat} (h : nextWaiting s p = some t) : holdSide t = holdSide s := by
  unfold nextWaiting at h
  split at h
  · split at h
    · cases h; simp [sendReplayStart]
    · cases h
  · split at h
    · cases h
    · split at h
      · cases h; simp
      · split at h
        · rename_i hn
          cases h
          exact holdSide_nextNotice hn
        · cases h; simp [sendRoutedNow]
        · cases h

@[simp] theorem holdSide_drainControl (n : Nat) (s : State) (p : Nat) :
    holdSide (drainControl n s p) = holdSide s := by
  induction n generalizing s with
  | zero => rfl
  | succ n ih =>
    unfold drainControl
    split
    · rename_i t ht
      rw [ih, holdSide_nextWaiting ht]
    · rfl

@[simp] theorem holdSide_sendNotice (s : State) (p a b c d e f : Nat) :
    holdSide (sendNotice s p a b c d e f) = holdSide s := by simp [sendNotice]

@[simp] theorem holdSide_sendDepart (s : State) (p reason : Nat) : holdSide (sendDepart s p reason) = holdSide s := by
  unfold sendDepart
  split <;> simp

/-! ## Packets and their accounts -/

@[simp] theorem holdSide_refreshXoff (s : State) (p : Nat) : holdSide (refreshXoff s p) = holdSide s := by
  unfold refreshXoff
  dsimp only
  split <;> simp

@[simp] theorem holdSide_tellStripe (s : State) (p : Nat) : holdSide (tellStripe s p) = holdSide s := by
  unfold tellStripe
  split
  · split <;> simp
  · rfl

@[simp] theorem holdSide_refreshAccount (s : State) (a : Account) : holdSide (refreshAccount s a) = holdSide s := by
  unfold refreshAccount
  split
  · simp
  · simp
  · exact holdSide_foldl holdSide_refreshXoff ..
  · exact holdSide_foldl holdSide_refreshXoff ..
  · rfl

@[simp] theorem holdSide_noteQuiet (s : State) : holdSide (noteQuiet s) = holdSide s := by
  unfold noteQuiet
  split <;> rfl

@[simp] theorem holdSide_addPkt (s : State) (x : Pkt) : holdSide (addPkt s x) = holdSide s := by
  simp only [addPkt, holdSide_refreshAccount, holdSide_noteQuiet, holdSide_notePeaks]
  rfl

@[simp] theorem holdSide_dropPkt (s : State) (id : Nat) : holdSide (dropPkt s id) = holdSide s := by
  unfold dropPkt
  split
  · simp only [holdSide_refreshAccount, holdSide_noteQuiet]
    rfl
  · rfl

@[simp] theorem holdSide_rechargePkt (s : State) (x : Pkt) (a : Account) :
    holdSide (rechargePkt s x a) = holdSide s := by simp [rechargePkt]

/-! ## Operations and commands that end (R102, R133) -/

@[simp] theorem holdSide_interrupts (s : State) (c : Nat) (vecs : List Nat) :
    holdSide (interrupts s c vecs) = holdSide s := by
  unfold interrupts
  split
  · rfl
  · exact holdSide_foldl (fun _ _ => holdSide_emit ..) ..

@[simp] theorem holdSide_fireThresholds (s : State) (c : Nat) : holdSide (fireThresholds s c) = holdSide s := by
  unfold fireThresholds
  dsimp only
  split
  · rfl
  · split <;> simp

@[simp] theorem holdSide_raiseCounter (s : State) (c k : Nat) : holdSide (raiseCounter s c k) = holdSide s := by
  unfold raiseCounter
  split
  · rfl
  · simp

@[simp] theorem holdSide_completeCmd (s : State) (c : Nat) (m : Cmd) (st : Status) :
    holdSide (completeCmd s c m st) = holdSide s := by
  unfold completeCmd finishCommand
  split
  · rfl
  · split
    · rfl
    · rw [holdSide_raiseCounter]
      split <;> simp

@[simp] theorem holdSide_releaseBlock (s : State) (b : Nat) : holdSide (releaseBlock s b) = holdSide s := by
  unfold releaseBlock
  dsimp only
  split <;> simp

@[simp] theorem holdSide_leaveStream (s : State) (op : Op) (tag : Nat) (syn : Bool) :
    holdSide (leaveStream s op tag syn) = holdSide s := by
  unfold leaveStream
  dsimp only
  split
  · rfl
  · split
    · rfl
    · split <;> rfl

@[simp] theorem holdSide_leaveSender (s : State) (t : Track) : holdSide (leaveSender s t) = holdSide s := by
  unfold leaveSender
  dsimp only
  split
  · split <;> rfl
  · rfl

@[simp] theorem holdSide_closeOut (s : State) (tag : Nat) (t : Track) (stale syn : Bool) :
    holdSide (closeOut s tag t stale syn) = holdSide s := by
  unfold closeOut
  dsimp only
  rw [holdSide_releaseBlock]
  split
  · rw [holdSide_setBlock, holdSide_leaveSender, holdSide_leaveStream]
    rfl
  · rw [holdSide_leaveSender, holdSide_leaveStream]
    rfl

@[simp] theorem holdSide_apertureDone (s : State) (op : Op) (thread : BitVec 16) (addr : BitVec 64) (st : Status)
    (data : Bytes) (poison : BitVec 8) : holdSide (apertureDone s op thread addr st data poison) = holdSide s := by
  have hreply : holdSide (if op.kind = .load ∨ op.kind = .atomicFetch then
      emit s (.loadDone thread st (delivered op st data) (if st = .poisoned then poison else 0))
      else emit s (.storeDone thread st)) = holdSide s := by split <;> rfl
  unfold apertureDone
  dsimp only
  split
  · exact hreply
  · simpa [apertureFailure, reportCtx] using hreply

@[simp] theorem holdSide_messageEnd (s : State) (op : Op) (m : Cmd) (st : Status) (unc : Bool) :
    holdSide (messageEnd s op m st unc) = holdSide s := by
  unfold messageEnd
  split
  · rfl
  · split
    · rfl
    · dsimp only
      split
      · rfl
      · split <;> rfl

@[simp] theorem holdSide_settleCmd (s : State) (c num : Nat) : holdSide (settleCmd s c num) = holdSide s := by
  unfold settleCmd
  split
  · split <;> simp
  · rfl

@[simp] theorem holdSide_pieceEnd (s : State) (op : Op) (num : Nat) (st : Status) (unc : Bool) :
    holdSide (pieceEnd s op num st unc) = holdSide s := by
  unfold pieceEnd
  split
  · rfl
  · dsimp only
    rw [holdSide_settleCmd]
    split
    · split <;> rfl
    · split <;> simp

@[simp] theorem holdSide_feedStore (s : State) (op : Op) (num : Nat) (st : Status) (data : Bytes) (poison : BitVec 8) :
    holdSide (feedStore s op num st data poison) = holdSide s := by
  unfold feedStore
  split
  · dsimp only
    split <;> simp
  · rfl

@[simp] theorem holdSide_finishOp (s : State) (op : Op) (st : Status) (data : Bytes) (poison : BitVec 8) (unc : Bool) :
    holdSide (finishOp s op st data poison unc) = holdSide s := by
  unfold finishOp
  split
  · rfl
  · split
    · simp
    · split <;> simp
    · rfl

@[simp] theorem holdSide_endOp (s : State) (op : Op) (st : Status) (data : Bytes) (poison : BitVec 8)
    (unc stale syn : Bool) : holdSide (endOp s op st data poison unc stale syn) = holdSide s := by
  unfold endOp
  split
  · split
    · simp
    · rfl
  · simp

@[simp] theorem holdSide_completeTag (s : State) (tag : Nat) (st : Status) (data : Bytes) (poison : BitVec 8)
    (unc stale syn : Bool) : holdSide (completeTag s tag st data poison unc stale syn) = holdSide s := by
  unfold completeTag
  split
  · rfl
  · simp

@[simp] theorem holdSide_answerTag (s : State) (tag round : Nat) (st : Status) (data : Bytes) (poison : BitVec 8)
    (unc syn : Bool) : holdSide (answerTag s tag round st data poison unc syn) = holdSide s := by
  unfold answerTag
  split <;> simp

/-! ## Collectives (R172, R175, R177) -/

@[simp] theorem holdSide_unitCount (s : State) (u sub n : Nat) : holdSide (unitCount s u sub n) = holdSide s := by
  unfold unitCount
  dsimp only
  split <;> simp

@[simp] theorem holdSide_settlePress (s : State) (n : Nat) : holdSide (settlePress s n) = holdSide s := by
  unfold settlePress
  dsimp only
  split
  · split <;> simp
  · split <;> simp

@[simp] theorem holdSide_startLmc (s : State) (p cmd : Nat) (arg : BitVec 8) :
    holdSide (startLmc s p cmd arg) = holdSide s := by
  unfold startLmc
  dsimp only
  split
  · exact holdSide_setPort rfl
  · exact (holdSide_emit ..).trans (holdSide_setPort rfl)

@[simp] theorem holdSide_endSlice (s : State) (p : Nat) : holdSide (updPort s p endSlice) = holdSide s :=
  holdSide_updPort fun _ => rfl

@[simp] theorem holdSide_abandonSlice (s : State) (p : Nat) (cut : Bool) :
    holdSide (abandonSlice s p cut) = holdSide s := by
  unfold abandonSlice
  split
  · rfl
  · dsimp only
    split <;> simp

@[simp] theorem holdSide_noticeOn (s : State) (x : Coll) (a b d : Nat) (but : Option Nat) :
    holdSide (noticeOn s x a b d but) = holdSide s := by
  unfold noticeOn
  split
  · rfl
  · exact holdSide_foldl (fun _ _ => holdSide_sendNotice ..) ..

@[simp] theorem holdSide_markPort (on : Bool) (s : State) (p : Nat) : holdSide (markPort on s p) = holdSide s := by
  unfold markPort
  split
  · split <;> simp
  · split <;> simp

@[simp] theorem holdSide_remark (s : State) : holdSide (remark s) = holdSide s := by
  unfold remark
  dsimp only
  rw [holdSide_foldl, holdSide_foldl (holdSide_markPort _)]
  intro t u
  split <;> simp

@[simp] theorem holdSide_setLag (s : State) (c src lag time : Nat) (always : Bool) :
    holdSide (setLag s c src lag time always) = holdSide s := by
  unfold setLag
  split
  · rfl
  · dsimp only
    split
    · split <;> simp
    · simp

@[simp] theorem holdSide_driftColl (s : State) (c : Nat) : holdSide (driftColl s c) = holdSide s := by
  unfold driftColl
  split
  · rfl
  · split
    · dsimp only
      split
      · rfl
      · split <;> simp
    · rfl

@[simp] theorem holdSide_pressEnded (u : Nat) (before after : State) :
    holdSide (pressEnded u before after) = holdSide after := by
  unfold pressEnded
  split
  · exact holdSide_foldl holdSide_driftColl ..
  · rfl

@[simp] theorem holdSide_dropWaiting (s : State) (c : Nat) (x : Coll) : holdSide (dropWaiting s c x) = holdSide s := by
  unfold dropWaiting
  exact (holdSide_of_ports rfl rfl).trans (holdSide_foldl (fun _ _ => holdSide_dropPkt ..) ..)

@[simp] theorem holdSide_endColl (s : State) (c : Nat) (st : Status) : holdSide (endColl s c st) = holdSide s := by
  unfold endColl
  split
  · rfl
  · rename_i x _
    have hgone : holdSide (remark (dropWaiting { s with colls := tdel s.colls c } c x)) = holdSide s := by
      rw [holdSide_remark, holdSide_dropWaiting]
      rfl
    dsimp only
    split
    · rw [holdSide_completeCmd, hgone]
    · exact hgone

@[simp] theorem holdSide_undefinedResult (s : State) (x : Coll) : holdSide (undefinedResult s x) = holdSide s := by
  unfold undefinedResult
  split
  · rfl
  · exact holdSide_foldl holdSide_scramble ..

@[simp] theorem holdSide_settleAbort (s : State) (c : Nat) : holdSide (settleAbort s c) = holdSide s := by
  unfold settleAbort
  split
  · split
    · split <;> simp
    · rfl
  · rfl

@[simp] theorem holdSide_dropCollData (s : State) (c : Nat) (y : Coll) :
    holdSide (dropCollData s c y) = holdSide s := by
  unfold dropCollData
  dsimp only
  rw [holdSide_foldl fun t u => by rw [holdSide_pressEnded, holdSide_settlePress]]
  refine (holdSide_of_ports rfl rfl).trans ((holdSide_dropWaiting ..).trans ?_)
  exact holdSide_foldl (fun _ _ => holdSide_dropPkt ..) ..

@[simp] theorem holdSide_abortColl (s : State) (c : Nat) (st : Status) (own : Bool) :
    holdSide (abortColl s c st own) = holdSide s := by
  unfold abortColl
  split
  · rfl
  · dsimp only
    split
    · rfl
    · simp only [holdSide_settleAbort, holdSide_dropCollData, holdSide_putColl, holdSide_noticeOn]
      split <;> simp

@[simp] theorem holdSide_abortPort (s : State) (p : Nat) : holdSide (abortPort s p) = holdSide s :=
  holdSide_foldl (fun _ _ => holdSide_abortColl ..) ..

/-! ## Link down (R298, R299) -/

@[simp] theorem holdSide_sendSynthetic (s : State) (x : Pkt) (st : Status) :
    holdSide (sendSynthetic s x st) = holdSide s := by
  unfold sendSynthetic owe
  dsimp only
  split
  · rfl
  · split
    · simp
    · split <;> simp
    · simp

@[simp] theorem holdSide_keepHere (s : State) (x : Pkt) : holdSide (keepHere s x) = holdSide s := by
  unfold keepHere
  dsimp only
  split
  · simp
  · split <;> simp

@[simp] theorem holdSide_loseOnLink (s : State) (x : Pkt) : holdSide (loseOnLink s x) = holdSide s := by
  unfold loseOnLink
  split <;> simp

@[simp] theorem holdSide_restartLanes (s : State) (p : Nat) (off : Bool) :
    holdSide (restartLanes s p off) = holdSide s :=
  (holdSide_foldl (fun _ _ => holdSide_updOctet ..) ..).trans (holdSide_foldl (fun _ _ => holdSide_updLane ..) ..)

@[simp] theorem holdSide_degradeHome (s : State) (p : Nat) : holdSide (degradeHome s p) = holdSide s :=
  holdSide_updPort fun _ => rfl

@[simp] theorem holdSide_accrue (s : State) (p : Nat) : holdSide (accrue s p) = holdSide s := holdSide_updLink ..

@[simp] theorem holdSide_downPort (s t : State) (p : Nat) (absent : Bool) :
    holdSide (updPort s p (downPort t absent)) = holdSide s := holdSide_updPort fun _ => rfl

@[simp] theorem holdSide_linkDown (s : State) (p cause reason : Nat) :
    holdSide (linkDown s p cause reason) = holdSide s := by
  have hlost (l : List Pkt) (t : State) : holdSide (l.foldl loseOnLink t) = holdSide t :=
    holdSide_foldl holdSide_loseOnLink l t
  unfold linkDown
  dsimp only
  rw [holdSide_reportDown]
  split <;> simp [hlost]

end Sys2Proof.Machine
end

section
/-! PROOF. What choosing settings (R404, R405, R410) leaves as it was: with no collective in progress it changes ports, lanes,
units, the test results and the choice itself, and counts only the lane slices that it cuts short. -/

namespace Sys2Proof.Machine
open Sys2Proof

/-! ## The part of the state that settings do not change -/

/-- The count of lane slices cut short, 0x8000.06. -/
def cutSlices : Nat := regKey 0x8000 6 0

/-- The state but for what a choice of settings changes, with the stored numbers but for the count of slices cut short. The
thermal cap and the Sextant thermal ceiling are left out, which R414 moves before a choice. -/
def settleSide (s : State) : State × (Nat → Option Nat) :=
  ({ s with
     ports := [], lanes := [], units := [], test := State.reset.test, out := [], regs := [],
     power := { s.power with
       stageCeil := 0, narrowings := 0, lost := [], sextCeil := 0, capHi := 0, capLo := 0, thermCap := 0, sextTherm := 0 } },
   fun n => if n = cutSlices then none else tget s.regs n)

@[simp] theorem settleSide_setPort (s p x) : settleSide (setPort s p x) = settleSide s := rfl
@[simp] theorem settleSide_updPort (s p f) : settleSide (updPort s p f) = settleSide s := rfl
@[simp] theorem settleSide_updLane (s l f) : settleSide (updLane s l f) = settleSide s := rfl
@[simp] theorem settleSide_updSext (s u f) : settleSide (updSext s u f) = settleSide s := rfl
@[simp] theorem settleSide_emit (s o) : settleSide (emit s o) = settleSide s := rfl
@[simp] theorem settleSide_sliceResult (s l r) : settleSide (sliceResult s l r) = settleSide s := rfl
@[simp] theorem settleSide_noteCaps (s) : settleSide (noteCaps s) = settleSide s := rfl

/-- A slice cut short is the one count that a choice of settings makes. -/
@[simp] theorem settleSide_bump_cutSlices (s : State) : settleSide (bump s 0x8000 6) = settleSide s := by
  refine Prod.ext rfl (funext fun n => ?_)
  change (if n = cutSlices then none else tget (bump s 0x8000 6).regs n) = if n = cutSlices then none else tget s.regs n
  split
  · rfl
  · exact tget_tput_ne _ _ _ _ (Ne.symm ‹_›)

theorem settleSide_foldl {α : Type} {f : State → α → State} (h : ∀ t a, settleSide (f t a) = settleSide t) (l : List α)
    (s : State) : settleSide (l.foldl f s) = settleSide s := foldl_keeps settleSide f h l s

/-! ## Orders to ports and units -/

@[simp] theorem settleSide_startLmc (s : State) (p cmd : Nat) (arg : BitVec 8) :
    settleSide (startLmc s p cmd arg) = settleSide s := by
  unfold startLmc
  dsimp only
  split <;> simp

@[simp] theorem settleSide_abandonSlice (s : State) (p : Nat) (cut : Bool) :
    settleSide (abandonSlice s p cut) = settleSide s := by
  unfold abandonSlice
  split
  · rfl
  · dsimp only
    split <;> simp

@[simp] theorem settleSide_wakeOctets (s : State) (p : Nat) : settleSide (wakeOctets s p) = settleSide s := by
  refine (settleSide_foldl (fun t o => ?_) ..).trans (settleSide_updPort ..)
  unfold wakeOctet
  split
  · rfl
  · exact (settleSide_foldl (fun _ _ => settleSide_updLane ..) ..).trans (settleSide_updPort ..)

@[simp] theorem settleSide_widenWhenAwake (s : State) (p : Nat) :
    settleSide (widenWhenAwake s p) = settleSide s := by
  unfold widenWhenAwake
  split <;> simp

@[simp] theorem settleSide_setCeiling (s : State) (p n : Nat) : settleSide (setCeiling s p n) = settleSide s := by
  unfold setCeiling
  dsimp only
  split
  · rfl
  · split
    · split <;> simp
    · simp

@[simp] theorem settleSide_applyLever (s : State) (x : Lever) : settleSide (applyLever s x) = settleSide s := by
  unfold applyLever
  dsimp only
  split <;> simp

@[simp] theorem settleSide_applyStage (ceil : Nat) (s : State) (p : Nat) :
    settleSide (applyStage ceil s p) = settleSide s := by
  unfold applyStage orderShift
  split
  · split
    · rfl
    · split <;> simp
  · rfl

@[simp] theorem settleSide_scheduleFreq (s : State) (u t : Nat) : settleSide (scheduleFreq s u t) = settleSide s := by
  unfold scheduleFreq tellUnit
  split
  · split <;> simp
  · rfl

@[simp] theorem settleSide_settleSextant (s : State) (t : Nat) : settleSide (settleSextant s t) = settleSide s := by
  unfold settleSextant
  split
  · rfl
  · exact (settleSide_foldl (fun _ _ => settleSide_scheduleFreq ..) ..).trans rfl

/-! ## A choice of settings (R404, R405, R414) -/

theorem colls_of_settleSide {s t : State} (h : settleSide t = settleSide s) : t.colls = s.colls :=
  congrArg (fun x => x.1.colls) h

/-- With no collective in progress there is no Drift to originate (R172). -/
theorem originateDrift_of_colls {s : State} (h : s.colls = []) : originateDrift s = s := by simp [originateDrift, h]

theorem settleSide_settle {s : State} (hcolls : s.colls = []) (cap t : Nat) :
    settleSide (settle s cap t) = settleSide s := by
  have hchosen (x : Nat × List Lever) :
      settleSide (noteCaps (settleSextant (twelve.foldl (applyStage x.1) ((leverOrder s x.2).foldl applyLever
        (setPow s fun p => { p with
          stageCeil := x.1, narrowings := narrowings s x.2, lost := lostAfter s x.2 }))) t)) = settleSide s := by
    rw [settleSide_noteCaps, settleSide_settleSextant, settleSide_foldl (settleSide_applyStage _),
      settleSide_foldl settleSide_applyLever]
    rfl
  unfold settle
  dsimp only
  rw [originateDrift_of_colls ((colls_of_settleSide (hchosen _)).trans hcolls), hchosen]

theorem settleSide_settleNow {s : State} (hcolls : s.colls = []) : settleSide (settleNow s) = settleSide s :=
  settleSide_settle hcolls ..

theorem settleSide_setThermCap (s : State) (f : Power → Nat) :
    settleSide (setPow s fun p => { p with thermCap := f p }) = settleSide s := rfl

theorem settleSide_setSextTherm (s : State) (f : Power → Nat) :
    settleSide (setPow s fun p => { p with sextTherm := f p }) = settleSide s := rfl

/-- R414 moves the thermal cap and the Sextant thermal ceiling only, whatever the sensors read. -/
@[simp] theorem settleSide_thermalStep (s : State) : settleSide (thermalStep s) = settleSide s := by
  unfold thermalStep
  simp only [apply_ite settleSide, settleSide_setThermCap, settleSide_setSextTherm, ite_self]

/-! ## What is read after a choice of settings -/

section
variable {s t : State} (h : settleSide t = settleSide s)
include h

theorem mem_of_settleSide : t.mem = s.mem := congrArg (fun x => x.1.mem) h
theorem ctxs_of_settleSide : t.ctxs = s.ctxs := congrArg (fun x => x.1.ctxs) h
theorem cascade_of_settleSide : t.cascade = s.cascade := congrArg (fun x => x.1.cascade) h
theorem steps_of_settleSide : t.power.steps = s.power.steps := congrArg (fun x => x.1.power.steps) h

theorem regAt_of_settleSide {i j k : Nat} (hkey : regKey i j k ≠ cutSlices) : regAt t i j k = regAt s i j k := by
  have hstored : tget t.regs (regKey i j k) = tget s.regs (regKey i j k) := by
    simpa only [settleSide, if_neg hkey] using congrFun (congrArg Prod.snd h) (regKey i j k)
  simp only [regAt, hstored]

theorem rackCapStep_of_settleSide : t.power.rackCap = s.power.rackCap := congrArg (fun x => x.1.power.rackCap) h
theorem rackScapStep_of_settleSide : t.power.rackScap = s.power.rackScap := congrArg (fun x => x.1.power.rackScap) h

theorem rackCap_of_settleSide : rackCap t = rackCap s := by
  have hstart : reg t 0x6000 8 = reg s 0x6000 8 := regAt_of_settleSide h (by decide)
  simp only [rackCap, rackCapStep_of_settleSide h, hstart]

theorem rackScap_of_settleSide : rackScap t = rackScap s := by
  have hstart : reg t 0x6010 5 = reg s 0x6010 5 := regAt_of_settleSide h (by decide)
  simp only [rackScap, rackScapStep_of_settleSide h, hstart]

end

end Sys2Proof.Machine
end

section
/-! PROOF. Caps and their schedule (R396 to R403, R465): what the effective caps are, what a cap boundary and a step of the
schedule leave, what a cap write stores or refuses, and how a hold-off write stops a port. -/

namespace Sys2Proof.Machine
open Sys2Proof

/-! ## The least of the caps in force (R396) -/

theorem capMin_le_left (a b : Nat) : capMin a b ≤ a := by
  unfold capMin
  split
  · exact Nat.le_refl a
  · exact Nat.min_le_left a b

theorem capMin_le_right {b : Nat} (a : Nat) (h : b ≠ 0) : capMin a b ≤ b := by
  rw [capMin, if_neg h]
  exact Nat.min_le_right a b

theorem capMin_eq_or (a b : Nat) : capMin a b = a ∨ (b ≠ 0 ∧ capMin a b = b) := by
  by_cases h : b = 0
  · exact .inl (if_pos h)
  · rw [capMin, if_neg h]
    exact (min_choice a b).imp_right fun hb => ⟨h, hb⟩

theorem effCap_le_rackCap (s : State) : effCap s ≤ rackCap s := (capMin_le_left ..).trans (capMin_le_left ..)

theorem effCap_le_hostCap {s : State} (h : s.power.hostCap ≠ 0) : effCap s ≤ s.power.hostCap :=
  (capMin_le_left ..).trans (capMin_le_right _ h)

theorem effCap_le_thermCap {s : State} (h : s.power.thermCap ≠ 0) : effCap s ≤ s.power.thermCap := capMin_le_right _ h

/-- The effective cap is one of the caps in force. -/
theorem effCap_eq_or (s : State) : effCap s = rackCap s ∨ (s.power.hostCap ≠ 0 ∧ effCap s = s.power.hostCap) ∨
    (s.power.thermCap ≠ 0 ∧ effCap s = s.power.thermCap) := by
  rcases capMin_eq_or (capMin (rackCap s) s.power.hostCap) s.power.thermCap with h | h
  · rw [effCap, h]
    exact (capMin_eq_or ..).imp_right .inl
  · exact .inr (.inr h)

/-! ## Cap boundaries and steps (R401 to R403) -/

theorem inTurn_of_not_timed {s : State} (h : timed s = false) (cls t : Nat) : inTurn s cls t = false := by
  simp [inTurn, timeCome, h]

/-- R403, R465: what waits for a cap boundary. -/
def atBoundary (s : State) (b : Nat) : State :=
  setPow s fun p => { p with
    boundary := b, hostCap := reg s 0x6000 3, hostScap := reg s 0x6010 3,
    portMarks := twelve.filter fun q => (port s q).marked, unitMarks := (List.range 16).filter fun u => (sext s u).marked,
    warnLevel := toSigned 32 (reg s 0x6400 7), critLevel := toSigned 32 (reg s 0x6400 8) }

/-- R403: at its boundary what waited takes effect, and then settings are chosen. -/
theorem settleSide_capBoundary {s : State} {b : Nat} (hb : b = s.mer.count / max (capPeriod s) 1 * capPeriod s)
    (hturn : inTurn s 2 b = true) (hnew : b ≠ s.power.boundary) (hcolls : s.colls = []) :
    settleSide (capBoundary s) = settleSide (atBoundary s b) := by
  have htherm : settleSide (thermalStep (atBoundary s b)) = settleSide (atBoundary s b) := settleSide_thermalStep _
  subst hb
  unfold capBoundary
  dsimp only
  rw [if_neg (by simp [hturn, hnew])]
  exact (settleSide_settle ((colls_of_settleSide htherm).trans hcolls) ..).trans htherm

theorem capBoundary_runs {s : State} {b : Nat} (hb : b = s.mer.count / max (capPeriod s) 1 * capPeriod s)
    (hturn : inTurn s 2 b = true) (hnew : b ≠ s.power.boundary) (hcolls : s.colls = []) :
    Runs .capBoundary s fun t => t.power.boundary = b ∧ t.power.hostCap = reg s 0x6000 3 ∧
      t.power.hostScap = reg s 0x6010 3 ∧ t.power.warnLevel = toSigned 32 (reg s 0x6400 7) ∧
      t.power.critLevel = toSigned 32 (reg s 0x6400 8) ∧ rackCap t = rackCap s ∧ rackScap t = rackScap s ∧
      t.mem = s.mem ∧ t.ctxs = s.ctxs := by
  have hkept := settleSide_capBoundary hb hturn hnew hcolls
  exact ⟨_, rfl, congrArg (fun x => x.1.power.boundary) hkept, congrArg (fun x => x.1.power.hostCap) hkept,
    congrArg (fun x => x.1.power.hostScap) hkept, congrArg (fun x => x.1.power.warnLevel) hkept,
    congrArg (fun x => x.1.power.critLevel) hkept, (rackCap_of_settleSide hkept).trans rfl,
    (rackScap_of_settleSide hkept).trans rfl, (mem_of_settleSide hkept).trans rfl,
    (ctxs_of_settleSide hkept).trans rfl⟩

/-- R402: the steps of a time, marked as prepared. -/
def stepsMarked (s : State) (time : Nat) : State :=
  setPow s fun p => { p with steps := p.steps.map fun x => if x.time = time then { x with prepared := true } else x }

/-- R402: a step is marked, and where it lowers a cap settings are chosen. -/
theorem settleSide_prepare {s : State} (hcolls : s.colls = []) (time : Nat) :
    settleSide (prepare s time) = settleSide (stepsMarked s time) := by
  unfold prepare
  dsimp only
  split
  · exact settleSide_settleNow (s := stepsMarked s time) hcolls
  · rfl

theorem stepPrepare_runs {s : State} {x : CapStep}
    (hx : s.power.steps.find? (fun y => !y.prepared && inTurn s 2 (y.time - 1200000)) = some x) (hcolls : s.colls = []) :
    Runs .stepPrepare s fun t => (∀ y ∈ t.power.steps, y.time = x.time → y.prepared = true) ∧
      t.power.steps.map (·.time) = s.power.steps.map (·.time) ∧ rackCap t = rackCap s ∧ t.mem = s.mem ∧
      t.ctxs = s.ctxs := by
  have hkept := settleSide_prepare hcolls x.time
  have hsteps : (prepare s x.time).power.steps =
      s.power.steps.map fun y => if y.time = x.time then { y with prepared := true } else y := steps_of_settleSide hkept
  have hrun : exec .stepPrepare s = .next (prepare s x.time) := by
    change Host.Outcome.next (stepPrepare s) = _
    simp only [stepPrepare, hx]
  refine ⟨_, hrun, ?_, ?_, (rackCap_of_settleSide hkept).trans rfl, (mem_of_settleSide hkept).trans rfl,
    (ctxs_of_settleSide hkept).trans rfl⟩
  · rw [hsteps, List.forall_mem_map]
    intro y _ htime
    by_cases hy : y.time = x.time
    · simp only [if_pos hy]
    · rw [if_neg hy] at htime
      exact absurd htime hy
  · rw [hsteps, List.map_map]
    refine List.map_congr_left fun y _ => ?_
    simp only [Function.comp_apply]
    split <;> rfl

/-- R401: a step has left the schedule, and its caps are in force. -/
def stepTaken (s : State) (x : CapStep) (r : List CapStep) : State :=
  setPow s fun p => { p with
    steps := r, rackCap := if x.icap = 0xFFFF then p.rackCap else some x.icap,
    rackScap := if x.scap = 0xFFFF then p.rackScap else some x.scap }

theorem rackCap_stepTaken (s : State) (x : CapStep) (r : List CapStep) :
    rackCap (stepTaken s x r) = if x.icap = 0xFFFF then rackCap s else x.icap := by
  change (if x.icap = 0xFFFF then s.power.rackCap else some x.icap).getD (reg s 0x6000 8) = _
  split <;> rfl

theorem rackScap_stepTaken (s : State) (x : CapStep) (r : List CapStep) :
    rackScap (stepTaken s x r) = if x.scap = 0xFFFF then rackScap s else x.scap := by
  change (if x.scap = 0xFFFF then s.power.rackScap else some x.scap).getD (reg s 0x6010 5) = _
  split <;> rfl

theorem scheduleStep_runs {s : State} {x : CapStep} {r : List CapStep} (hx : s.power.steps = x :: r)
    (hturn : inTurn s 2 x.time = true) (hcolls : s.colls = []) :
    Runs .scheduleStep s fun t => t.power.steps = r ∧
      rackCap t = (if x.icap = 0xFFFF then rackCap s else x.icap) ∧
      rackScap t = (if x.scap = 0xFFFF then rackScap s else x.scap) ∧ t.mem = s.mem ∧ t.ctxs = s.ctxs := by
  have hrun : exec .scheduleStep s = .next (settleNow (stepTaken s x r)) := by
    change Host.Outcome.next (scheduleStep s) = _
    simp only [scheduleStep, hx, hturn]
    rfl
  have hkept := settleSide_settleNow (s := stepTaken s x r) hcolls
  exact ⟨_, hrun, steps_of_settleSide hkept, (rackCap_of_settleSide hkept).trans (rackCap_stepTaken ..),
    (rackScap_of_settleSide hkept).trans (rackScap_stepTaken ..), (mem_of_settleSide hkept).trans rfl,
    (ctxs_of_settleSide hkept).trans rfl⟩

theorem scheduleStep_waits {s : State} {x : CapStep} {r : List CapStep} (hx : s.power.steps = x :: r)
    (hturn : inTurn s 2 x.time = false) : exec .scheduleStep s = .next s := by
  change Host.Outcome.next (scheduleStep s) = _
  simp [scheduleStep, hx, hturn]

theorem capBoundary_untimed {s : State} (h : timed s = false) : exec .capBoundary s = .next s := by
  change Host.Outcome.next (capBoundary s) = _
  simp [capBoundary, inTurn_of_not_timed h]

/-! ## What the rules of caps read (R394, R395, R397) -/

/-- A stored number that is not one of the dictionary's own counts is as it was before the write. -/
theorem stored_atEntry {q : DictReq} {s : State} {n : Nat} (h : Authorised q s) (hframes : n ≠ regKey 0x1010 3 0)
    (hsessions : n ≠ regKey 0x1020 3 0) : tget (atEntry q s).regs n = tget s.regs n := by
  have htouch (t : State) (o : Nat) : tget (touchSession t o).regs n = tget t.regs n := by
    rcases regs_touchSession t o with h | h
    · rw [h]
    · rw [h]
      exact tget_tput_ne _ _ _ _ hsessions.symm
  have hreceived : tget (received q s).regs n = tget s.regs n := by
    unfold received
    rw [htouch]
    cases q.path with
    | host x => rfl
    | field e => exact tget_tput_ne _ _ _ _ hframes.symm
  unfold atEntry
  unfold Authorised at h
  cases hq : q.auth with
  | none => exact hreceived
  | some a =>
    simp only [hq] at h
    obtain ⟨f, hf⟩ := acceptCounter_clean (s := received q s) a (by rw [worn_received]; exact h.2)
    simp only [hf, hreceived]

section
variable {q : DictReq} {s : State} (h : Authorised q s)
include h

/-- The entries of ports, units and power lie above the dictionary's own counts. -/
theorem regAt_atEntry_above {i j k : Nat} (hi : 0x2000 ≤ i) : regAt (atEntry q s) i j k = regAt s i j k :=
  regAt_atEntry q s i j k h (by unfold regKey; omega) (by unfold regKey; omega)

theorem stamp_atEntry : stamp (atEntry q s) = stamp s := by simp only [stamp, clock_atEntry _ _ h, mer_atEntry _ _ h]

theorem timed_atEntry : timed (atEntry q s) = timed s := by simp only [timed, phase_atEntry _ _ h, mer_atEntry _ _ h]

theorem isMaster_atEntry : isMaster (atEntry q s) = isMaster s := by simp only [isMaster, pins_atEntry _ _ h]

theorem capPeriod_atEntry : capPeriod (atEntry q s) = capPeriod s :=
  congrArg usMt (regAt_atEntry_above h (by decide))

theorem rackCap_atEntry : rackCap (atEntry q s) = rackCap s := by
  simp only [rackCap, reg, regAt_atEntry_above h (show 0x2000 ≤ 0x6000 by decide), power_atEntry _ _ h]

theorem rackScap_atEntry : rackScap (atEntry q s) = rackScap s := by
  simp only [rackScap, reg, regAt_atEntry_above h (show 0x2000 ≤ 0x6010 by decide), power_atEntry _ _ h]

theorem floorPower_atEntry : floorPower (atEntry q s) = floorPower s := by
  have hwidth : portWidth (atEntry q s) = portWidth s := by
    funext p
    rw [portWidth, blob, blobAt, blobs_atEntry _ _ h]
    rfl
  have hmin : minWidth (atEntry q s) = minWidth s := funext fun p => regAt_atEntry_above h (by decide)
  rw [floorPower, formedPorts, hwidth, hmin]
  rfl

theorem trimmedMax_atEntry (u : Nat) : trimmedMax (atEntry q s) u = trimmedMax s u := by
  have hstored : tget (atEntry q s).regs (regKey 0x5300 3 u) = tget s.regs (regKey 0x5300 3 u) :=
    stored_atEntry h (by unfold regKey; omega) (by unfold regKey; omega)
  rw [trimmedMax, hstored]
  rfl

theorem sextFloor_atEntry : sextFloor (atEntry q s) = sextFloor s := by
  have hunits : (atEntry q s).units = s.units := part_of_beside (·.units) (fun _ => rfl) (beside_atEntry q s h)
  have hsext : sext (atEntry q s) = sext s := by
    funext u
    rw [sext, hunits]
    rfl
  have hstep : lowerStep (atEntry q s) = lowerStep s := regAt_atEntry_above h (by decide)
  have htrim : trimmedMax (atEntry q s) = trimmedMax s := funext (trimmedMax_atEntry h)
  rw [sextFloor, sextPower, hsext, hstep, htrim]
  rfl

theorem belowFloor_atEntry (sextant : Bool) (v : Nat) :
    belowFloor (atEntry q s) sextant v = belowFloor s sextant v := by
  simp only [belowFloor, sextFloor_atEntry h, floorPower_atEntry h]

end

/-! ## Cap writes that take effect (R397, R398, R401) -/

theorem authorised_of_writeTaken {q : DictReq} {s : State} (h : WriteTaken q s) : Authorised q s := by
  obtain ⟨-, -, -, -, -, -, -, -, -, -, -, haut, -⟩ := h
  exact haut

/-- A command works whose entry's rule, met, makes `f` of the state that it sees. -/
theorem writeWorks_of_rule {c : Instr} {w : WriteHdr} {i j : Nat} {v : Bytes} {s : State} {frame : State → State}
    {post : State → Prop} (apply : State → Verdict) (f : State → State)
    (hc : exec c s = .next (dictWrite w i j v apply s))
    (hrule : Authorised (writeReq w i j v) s →
      apply (atEntry (writeReq w i j v) s) = ok (f (atEntry (writeReq w i j v) s)))
    (heffect : Authorised (writeReq w i j v) s → ∀ u, u = f (atEntry (writeReq w i j v) s) →
      u.cascade = s.cascade ∧ beside u = beside (frame (written (writeReq w i j v) u)) ∧
        post (written (writeReq w i j v) u)) :
    WriteWorks c w i j v s frame post := by
  intro hT
  have haut := authorised_of_writeTaken hT
  obtain ⟨hcascade, hframe, hpost⟩ := heffect haut _ rfl
  exact writeWorks apply _ [] hc (hrule haut) hframe hpost (fun h => by rw [hcascade, h]) hT

theorem mem_insertStep (x y : CapStep) (l : List CapStep) : y ∈ insertStep x l ↔ y = x ∨ y ∈ l := by
  induction l with
  | nil => simp [insertStep]
  | cons z r ih =>
    unfold insertStep
    split
    · exact List.mem_cons
    · rw [List.mem_cons, ih, List.mem_cons, or_left_comm]

/-- R401: the rule of the schedule takes a step that fits; more than 400 µs ahead nothing is prepared at once. -/
theorem applySchedule_ok {s : State} {b : Bytes} (hfits : StepFits s (stepOf b))
    (hahead : stamp s + 1600000 ≤ (stepOf b).time) :
    applySchedule b s = ok (setPow s fun p => { p with steps := insertStep (stepOf b) p.steps }) := by
  obtain ⟨hperiod, hlater, hfree, hroom, hicap, hscap⟩ := hfits
  have hgiven : ((stepOf b).time % capPeriod s == 0 && decide (stamp s < (stepOf b).time) &&
      !(s.power.steps.any fun y => y.time == (stepOf b).time) && decide (s.power.steps.length < 64) &&
      ((stepOf b).icap == 0xFFFF || !belowFloor s false (stepOf b).icap) &&
      ((stepOf b).scap == 0xFFFF || (isMaster s && !belowFloor s true (stepOf b).scap))) = true := by
    simp only [Bool.and_eq_true, Bool.or_eq_true, Bool.not_eq_true', beq_iff_eq, decide_eq_true_eq, List.any_eq_false,
      belowFloor, decide_eq_false_iff_not, not_lt, Bool.false_eq_true, if_false, if_true]
    exact ⟨⟨⟨⟨⟨hperiod, hlater⟩, hfree⟩, hroom⟩, hicap⟩, hscap⟩
  refine (require_pos hgiven).trans ?_
  dsimp only
  rw [if_neg fun hsoon => absurd hsoon.2 (Nat.not_lt.mpr hahead)]

theorem stepFits_atEntry {q : DictReq} {s : State} (h : Authorised q s) (x : CapStep) :
    StepFits (atEntry q s) x ↔ StepFits s x := by
  simp only [StepFits, capPeriod_atEntry h, stamp_atEntry h, power_atEntry _ _ h, floorPower_atEntry h,
    isMaster_atEntry h, sextFloor_atEntry h]

theorem beside_power_atEntry {q : DictReq} {s : State} (h : Authorised q s) (p : Power) :
    beside { atEntry q s with power := p } = beside { s with power := p } :=
  congrArg (fun t : State => { t with power := p }) (beside_atEntry q s h)

theorem beside_faults_atEntry {q : DictReq} {s : State} (h : Authorised q s) (f : Faults) :
    beside { atEntry q s with faults := f } = beside { s with faults := f } :=
  congrArg (fun t : State => { t with faults := f }) (beside_atEntry q s h)

theorem scheduleWrite_works (w : WriteHdr) (b : Bytes) (s : State) (hfits : StepFits s (stepOf b))
    (hahead : stamp s + 1600000 ≤ (stepOf b).time) :
    WriteWorks (.scheduleWrite w b) w 0x6100 1 b s (fun t => { s with power := t.power }) fun t =>
      (∀ y, y ∈ t.power.steps ↔ y = stepOf b ∨ y ∈ s.power.steps) ∧
      t.power = { s.power with steps := t.power.steps } := by
  refine writeWorks_of_rule (applySchedule b) (fun t => setPow t fun p => { p with steps := insertStep (stepOf b) p.steps })
    rfl (fun haut => applySchedule_ok ((stepFits_atEntry haut _).mpr hfits) (by rwa [stamp_atEntry haut])) ?_
  rintro haut u rfl
  simp only [power_written]
  refine ⟨cascade_atEntry _ _ haut, beside_power_atEntry haut _, fun y => ?_, ?_⟩
  · rw [← power_atEntry _ s haut]
    exact mem_insertStep ..
  · rw [← power_atEntry _ s haut]
    rfl

theorem scheduleClear_works (w : WriteHdr) (s : State) :
    WriteWorks (.scheduleClear w) w 0x6100 5 [1] s (fun t => { s with power := t.power }) fun t =>
      t.power = { s.power with steps := [] } := by
  refine writeWorks_of_rule (applyScheduleClear true) (fun t => setPow t fun p => { p with steps := [] }) rfl
    (fun _ => rfl) ?_
  rintro haut u rfl
  simp only [power_written]
  refine ⟨cascade_atEntry _ _ haut, beside_power_atEntry haut _, ?_⟩
  rw [← power_atEntry _ s haut]
  rfl

/-- R397: what an accepted start-up cap changes: it is stored and noted for the journal, and settings are chosen. -/
def startUpCapStored (index sub v : Nat) (s : State) : State :=
  settleNow (journalNote (setReg s index sub v) (regKey index sub 0) v)

theorem settleSide_startUpCapStored {s : State} (hcolls : s.colls = []) (index sub v : Nat) :
    settleSide (startUpCapStored index sub v s) =
      settleSide (journalNote (setReg s index sub v) (regKey index sub 0) v) := settleSide_settleNow hcolls

/-- R397: a start-up cap at or above the floor is stored, and is the rack's until a step sets another. -/
theorem startUpCapWrite_works {w : WriteHdr} {sextant : Bool} {v : BitVec 16} {s : State} {index sub : Nat}
    (hc : exec (.startUpCapWrite w sextant v) s =
      .next (dictWrite w index sub (leBytes 2 v.toNat) (applyStartUpCap sextant v.toNat) s))
    (hrule : ∀ t, applyStartUpCap sextant v.toNat t =
      require (!belowFloor t sextant v.toNat) (ok (startUpCapStored index sub v.toNat t)))
    (hkey : regKey index sub 0 ≠ cutSlices) (hfloor : belowFloor s sextant v.toNat = false) (hcolls : s.colls = []) :
    WriteWorks (.startUpCapWrite w sextant v) w index sub (leBytes 2 v.toNat) s id fun t =>
      reg t index sub = v.toNat ∧ t.power.rackCap = s.power.rackCap ∧ t.power.rackScap = s.power.rackScap ∧
        t.mem = s.mem ∧ t.ctxs = s.ctxs := by
  refine writeWorks_of_rule (applyStartUpCap sextant v.toNat) (startUpCapStored index sub v.toNat) hc
    (fun haut => (hrule _).trans (require_pos (by rw [belowFloor_atEntry haut, hfloor]; rfl))) ?_
  intro haut u hu
  have hkept := settleSide_startUpCapStored ((colls_atEntry _ _ haut).trans hcolls) index sub v.toNat
  rw [← hu] at hkept
  have hstored : regAt u index sub 0 = v.toNat :=
    (regAt_of_settleSide hkept hkey).trans (regAt_setRegAt_self ..)
  refine ⟨(cascade_of_settleSide hkept).trans (cascade_atEntry _ _ haut), (beside_written _ _).symm, ?_, ?_, ?_, ?_, ?_⟩
  · simpa only [reg, regAt, regs_written] using hstored
  · rw [power_written, rackCapStep_of_settleSide hkept]
    exact congrArg Power.rackCap (power_atEntry _ _ haut)
  · rw [power_written, rackScapStep_of_settleSide hkept]
    exact congrArg Power.rackScap (power_atEntry _ _ haut)
  · rw [mem_written, mem_of_settleSide hkept]
    exact mem_atEntry _ _ haut
  · rw [ctxs_written, ctxs_of_settleSide hkept]
    exact ctxs_atEntry _ _ haut

/-- R398, R403: once the device is timed, a host cap in its bounds is only stored, and waits for the boundary. -/
theorem applyHostCap_ok {s : State} {v : Nat} (hrack : v ≤ rackCap s) (hfloor : v = 0 ∨ floorPower s ≤ v * 10)
    (htimed : timed s = true) : applyHostCap v s = ok (setReg s 0x6000 3 v) := by
  have hgiven : ¬(rackCap s < v ∨ (v ≠ 0 ∧ belowFloor s false v = true)) := by
    simp only [belowFloor, Bool.false_eq_true, if_false, decide_eq_true_eq]
    omega
  have hlater : timed (setReg s 0x6000 3 v) = true := htimed
  rw [applyHostCap, if_neg hgiven, settleEarly, if_pos hlater]

theorem applyHostScap_ok {s : State} {v : Nat} (hmaster : isMaster s = true) (hrack : v ≤ rackScap s)
    (hfloor : v = 0 ∨ sextFloor s ≤ v * 15000) (htimed : timed s = true) :
    applyHostScap v s = ok (setReg s 0x6010 3 v) := by
  have hgiven : ¬(rackScap s < v ∨ (v ≠ 0 ∧ belowFloor s true v = true)) := by
    simp only [belowFloor, if_true, decide_eq_true_eq]
    omega
  have hlater : timed (setReg s 0x6010 3 v) = true := htimed
  rw [applyHostScap, if_neg (by simp [hmaster]), if_neg hgiven, settleEarly, if_pos hlater]

/-- A number just stored is read back through the answer of its write. -/
theorem reg_of_regs_setReg {s t : State} {i j v : Nat} (h : t.regs = (setReg s i j v).regs) : reg t i j = v := by
  simp only [reg, regAt, h, setReg, setRegAt, tget_tput_self, Option.getD_some]

theorem hostCapWrite_works (w : WriteHdr) (v : BitVec 16) (s : State) (hrack : v.toNat ≤ rackCap s)
    (hfloor : v.toNat = 0 ∨ floorPower s ≤ v.toNat * 10) (htimed : timed s = true) :
    WriteWorks (.hostCapWrite w v) w 0x6000 3 (leBytes 2 v.toNat) s (fun _ => s) fun t => reg t 0x6000 3 = v.toNat := by
  refine writeWorks_of_regs (applyHostCap v.toNat) (fun t => setReg t 0x6000 3 v.toNat) rfl (fun haut => ?_)
    (fun _ => rfl) fun _ _ ht => reg_of_regs_setReg ht
  exact applyHostCap_ok (by rwa [rackCap_atEntry haut]) (by rwa [floorPower_atEntry haut]) (by rwa [timed_atEntry haut])

theorem hostSextantCapWrite_works (w : WriteHdr) (v : BitVec 16) (s : State) (hmaster : isMaster s = true)
    (hrack : v.toNat ≤ rackScap s) (hfloor : v.toNat = 0 ∨ sextFloor s ≤ v.toNat * 15000) (htimed : timed s = true) :
    WriteWorks (.hostSextantCapWrite w v) w 0x6010 3 (leBytes 2 v.toNat) s (fun _ => s) fun t =>
      reg t 0x6010 3 = v.toNat := by
  refine writeWorks_of_regs (applyHostScap v.toNat) (fun t => setReg t 0x6010 3 v.toNat) rfl (fun haut => ?_)
    (fun _ => rfl) fun _ _ ht => reg_of_regs_setReg ht
  exact applyHostScap_ok (by rwa [isMaster_atEntry haut]) (by rwa [rackScap_atEntry haut])
    (by rwa [sextFloor_atEntry haut]) (by rwa [timed_atEntry haut])

/-! ## What a report counts (R367) -/

/-- A count rises alike from states in which it reads alike. -/
theorem regAt_bumpAt_congr {s t : State} {i j k : Nat} (h : regAt t i j k = regAt s i j k) :
    regAt (bumpAt t i j k) i j k = regAt (bumpAt s i j k) i j k := by
  simp only [bumpAt, bumpBy, regAt_setRegAt_self, h]

theorem regAt_toIntake_ne {s : State} {m : Msg} {i j k : Nat} (h : regKey i j k ≠ regKey 0x7000 9 0) :
    regAt (toIntake s m) i j k = regAt s i j k := by
  unfold toIntake
  split
  · rfl
  · exact regAt_bumpBy_ne s i j k 1 0x7000 9 0 h

/-- What a report changes: the numbers and the faults. -/
theorem beside_report (s : State) (cls idx kind addr : Nat) :
    beside (report s cls idx kind addr) = beside { s with faults := (report s cls idx kind addr).faults } := by
  unfold report raiseReport
  split
  · unfold toIntake
    dsimp only
    split <;> rfl
  · rfl

/-- Its counts lie in 0x7000 and 0x7100. -/
theorem regAt_report_below {s : State} {cls idx kind addr i j k : Nat} (h : regKey i j k < regKey 0x7000 0 0) :
    regAt (report s cls idx kind addr) i j k = regAt s i j k := by
  have hne (a b c : Nat) (ha : 0x7000 ≤ a) : regKey i j k ≠ regKey a b c := by
    unfold regKey at h ⊢
    omega
  unfold report raiseReport
  split
  · exact (regAt_toIntake_ne (hne _ _ _ (by decide))).trans (regAt_bumpBy_ne _ _ _ _ _ _ _ _ (hne _ _ _ (by decide)))
  · rfl

/-- Outside reset the source counts its event. -/
theorem countedFault_report {s : State} (hawake : awake s = true) (cls idx kind addr : Nat) :
    CountedFault cls idx s (report s cls idx kind addr) := by
  unfold CountedFault Counted report raiseReport
  rw [if_pos hawake]
  exact regAt_toIntake_ne (by unfold regKey; omega)

/-! ## Host caps that are refused (R398) -/

@[simp] theorem regs_lateAnswer (s : State) (q : DictReq) (st : Status) (n : Nat) :
    (lateAnswer s q st n).regs = s.regs := by
  unfold lateAnswer answer
  rw [regs_sendAnswer]
  exact regs_logCritWrite q _

theorem faults_lateAnswer (s : State) (q : DictReq) (st : Status) (n : Nat) :
    (lateAnswer s q st n).faults = s.faults := part_of_beside (·.faults) (fun _ => rfl) (beside_lateAnswer s q st n)

/-- While the dictionary takes writes the device is out of reset. -/
theorem awake_of_writeTaken {q : DictReq} {s : State} (h : WriteTaken q s) : awake s = true := by
  obtain ⟨-, hup, -⟩ := h
  have hphase : s.phase = .running ∨ s.phase = .recovery ∨ s.phase = .cut := by
    simp only [dictionaryUp, Bool.and_eq_true, Bool.or_eq_true, beq_iff_eq] at hup
    simpa only [or_assoc] using hup.2
  rcases hphase with hp | hp | hp <;> simp [awake, hp]

/-- A write whose rule counts its refusal is answered with the rule's status and reason. -/
theorem dictWrite_counted {w : WriteHdr} {i j n : Nat} {v : Bytes} {apply : State → Verdict} {s u : State} {st : Status}
    (hT : WriteTaken (writeReq w i j v) s) (hrule : apply (atEntry (writeReq w i j v) s) = .counted u st n)
    (hst : st ≠ .ok) : dictWrite w i j v apply s = lateAnswer u (writeReq w i j v) st n := by
  have hout := writeOutcome_rule (apply := apply) hT
  have hheard := heard_of_writeTaken hT
  obtain ⟨-, -, -, -, -, -, -, hnew, -⟩ := hT
  rw [hrule] at hout
  rw [dictWrite_heard apply hheard hnew]
  exact performWrite_refused rfl hout hst

theorem counted_lateAnswer {s u : State} {q : DictReq} {st : Status} {n i j k : Nat} :
    Counted i j k s (lateAnswer u q st n) ↔ Counted i j k s u := by simp only [Counted, regAt, regs_lateAnswer]

theorem counted_atEntry {q : DictReq} {s u : State} {i j k : Nat} (h : Authorised q s) (hi : 0x2000 ≤ i) :
    Counted i j k (atEntry q s) u ↔ Counted i j k s u := by
  unfold Counted
  rw [regAt_bumpAt_congr (regAt_atEntry_above h hi)]

/-- R398: a refused host request, counted and reported. -/
def requestNoted (v : Nat) (s : State) : State := report (bump s 0x6000 9) 0xC 0 3 v

theorem counted_requestNoted (v : Nat) (s : State) : Counted 0x6000 9 0 s (requestNoted v s) :=
  regAt_report_below (by decide)

theorem countedFault_requestNoted {s : State} (hawake : awake s = true) (v : Nat) :
    CountedFault 0xC 0 s (requestNoted v s) :=
  (countedFault_report (s := bump s 0x6000 9) hawake 0xC 0 3 v).trans
    (regAt_bumpAt_congr (regAt_bumpBy_ne s _ _ _ 1 0x6000 9 0 (by decide)))

theorem beside_requestNoted (v : Nat) (s : State) :
    beside (requestNoted v s) = beside { s with faults := (requestNoted v s).faults } := beside_report ..

/-- R398: a host request that its rule refuses is answered, counted and reported, and nothing else changes. -/
theorem hostRequest_refused {c : Instr} {w : WriteHdr} {i j v reason : Nat} {b : Bytes} {st : Status} {s : State}
    (apply : State → Verdict) (hc : exec c s = .next (dictWrite w i j b apply s)) (hst : st ≠ .ok)
    (hrule : Authorised (writeReq w i j b) s →
      apply (atEntry (writeReq w i j b) s) = refuseHost v st reason (atEntry (writeReq w i j b) s))
    (hT : WriteTaken (writeReq w i j b) s) :
    Runs c s fun t => AnsweredLast (writeReq w i j b) st reason t ∧ Counted 0x6000 9 0 s t ∧ CountedFault 0xC 0 s t ∧
      beside t = beside { s with faults := t.faults } := by
  have haut := authorised_of_writeTaken hT
  have hawake : awake (atEntry (writeReq w i j b) s) = true := by
    rw [awake, phase_atEntry _ _ haut]
    exact awake_of_writeTaken hT
  refine ⟨_, hc, ?_⟩
  rw [dictWrite_counted hT (hrule haut) hst]
  refine ⟨lateAnswer_answeredLast _ _ _ _, ?_, ?_, ?_⟩
  · exact counted_lateAnswer.mpr ((counted_atEntry haut (by decide)).mp (counted_requestNoted v _))
  · exact counted_lateAnswer.mpr ((counted_atEntry haut (by decide)).mp (countedFault_requestNoted hawake v))
  · rw [faults_lateAnswer]
    exact (beside_lateAnswer ..).trans ((beside_requestNoted ..).trans (beside_faults_atEntry haut _))

theorem hostCapWrite_refused (w : WriteHdr) (v : BitVec 16) (s : State)
    (hbad : rackCap s < v.toNat ∨ (v.toNat ≠ 0 ∧ v.toNat * 10 < floorPower s))
    (hT : WriteTaken (writeReq w 0x6000 3 (leBytes 2 v.toNat)) s) :
    Runs (.hostCapWrite w v) s fun t => AnsweredLast (writeReq w 0x6000 3 (leBytes 2 v.toNat)) .notPerformed 10 t ∧
      Counted 0x6000 9 0 s t ∧ CountedFault 0xC 0 s t ∧ beside t = beside { s with faults := t.faults } := by
  refine hostRequest_refused (applyHostCap v.toNat) rfl (by decide) (fun haut => if_pos ?_) hT
  simpa only [rackCap_atEntry haut, floorPower_atEntry haut, belowFloor, Bool.false_eq_true, if_false,
    decide_eq_true_eq] using hbad

theorem hostSextantCapWrite_denied (w : WriteHdr) (v : BitVec 16) (s : State) (hother : isMaster s = false)
    (hT : WriteTaken (writeReq w 0x6010 3 (leBytes 2 v.toNat)) s) :
    Runs (.hostSextantCapWrite w v) s fun t => AnsweredLast (writeReq w 0x6010 3 (leBytes 2 v.toNat)) .denied 8 t ∧
      Counted 0x6000 9 0 s t ∧ CountedFault 0xC 0 s t ∧ beside t = beside { s with faults := t.faults } :=
  hostRequest_refused (applyHostScap v.toNat) rfl (by decide)
    (fun haut => if_pos (by rw [isMaster_atEntry haut, hother]; rfl)) hT

/-! ## Ports that are held off while they are absent, and ports released (R399) -/

/-- The state but for its ports, their lanes and their octets. -/
def noPorts (s : State) : State := { s with ports := [], lanes := [], octets := [] }

theorem noPorts_restartLanes (s : State) (p : Nat) (off : Bool) : noPorts (restartLanes s p off) = noPorts s := by
  unfold restartLanes
  refine (foldl_keeps noPorts _ ?_ _ _).trans (foldl_keeps noPorts _ ?_ _ _)
  · exact fun _ _ => rfl
  · exact fun _ _ => rfl

@[simp] theorem ports_restartLanes (s : State) (p : Nat) (off : Bool) : (restartLanes s p off).ports = s.ports := by
  unfold restartLanes
  refine (foldl_keeps State.ports _ ?_ _ _).trans (foldl_keeps State.ports _ ?_ _ _)
  · exact fun _ _ => rfl
  · exact fun _ _ => rfl

@[simp] theorem port_restartLanes (s : State) (p : Nat) (off : Bool) (q : Nat) :
    port (restartLanes s p off) q = port s q := by simp only [port, ports_restartLanes]

/-- Beside ports, lanes and octets all is the same, of the ports only one may have changed, and its hold-off mark stays. -/
def OnlyPort (p : Nat) (s t : State) : Prop :=
  noPorts t = noPorts s ∧ (port t p).heldOff = (port s p).heldOff ∧ ∀ q, q ≠ p → port t q = port s q

theorem onlyPort_refl (p : Nat) (s : State) : OnlyPort p s s := ⟨rfl, rfl, fun _ _ => rfl⟩

/-- A port's record changed but for the mark, and its lanes started again. -/
theorem onlyPort_restart (s : State) (p : Nat) (off : Bool) (f : Port → Port) (hf : ∀ x, (f x).heldOff = x.heldOff) :
    OnlyPort p s (restartLanes (updPort s p f) p off) := by
  refine ⟨noPorts_restartLanes .., ?_, fun q hq => ?_⟩
  · rw [port_restartLanes, updPort, port_setPort_self, hf]
  · rw [port_restartLanes, updPort, port_setPort_ne _ _ _ _ hq.symm]

theorem onlyPort_releasePort (s : State) (p : Nat) : OnlyPort p s (releasePort s p) := by
  unfold releasePort
  split
  · exact onlyPort_restart s p false _ fun _ => rfl
  · exact onlyPort_refl p s

/-- An ABSENT port that is stopped stays so: only its lanes go idle. -/
theorem onlyPort_stopPort {s : State} {p : Nat} (h : (port s p).state = .absent) : OnlyPort p s (stopPort s p) := by
  rw [stopPort, if_pos h]
  exact onlyPort_restart s p true _ fun _ => rfl

/-- A hold-off value stops no port that trains or works. -/
def HoldsIdle (v : Nat) (s : State) (p : Nat) : Prop :=
  bitAt v p = true → (port s p).heldOff = true ∨ (port s p).state = .absent

/-- What a hold-off value then does at one port: its mark is the port's bit, and no other port is touched. -/
theorem holdPort_idle {v : Nat} {s : State} {p : Nat} (hidle : HoldsIdle v s p) :
    noPorts (holdPort v s p) = noPorts s ∧ (port (holdPort v s p) p).heldOff = bitAt v p ∧
      ∀ q, q ≠ p → port (holdPort v s p) q = port s q := by
  have hmark (x : Port) (t : State) (h : OnlyPort p (setPort s p x) t) :
      noPorts t = noPorts s ∧ (port t p).heldOff = x.heldOff ∧ ∀ q, q ≠ p → port t q = port s q := by
    obtain ⟨hrest, hmarked, hothers⟩ := h
    exact ⟨hrest, by rw [hmarked, port_setPort_self],
      fun q hq => (hothers q hq).trans (port_setPort_ne _ _ _ _ hq.symm)⟩
  unfold holdPort
  dsimp only
  cases hbit : bitAt v p with
  | true =>
    cases hheld : (port s p).heldOff with
    | true => exact ⟨rfl, hheld, fun _ _ => rfl⟩
    | false =>
      have habsent : (port s p).state = .absent := (hidle hbit).resolve_left (by simp [hheld])
      exact hmark _ _ (onlyPort_stopPort (by rw [port_setPort_self]; exact habsent))
  | false =>
    cases hheld : (port s p).heldOff with
    | true => exact hmark _ _ (onlyPort_releasePort _ p)
    | false => exact ⟨rfl, hheld, fun _ _ => rfl⟩

theorem foldl_holdPort_idle {v : Nat} {l : List Nat} (hl : l.Nodup) {s : State} (hidle : ∀ p ∈ l, HoldsIdle v s p) :
    noPorts (l.foldl (holdPort v) s) = noPorts s ∧ (∀ p ∈ l, (port (l.foldl (holdPort v) s) p).heldOff = bitAt v p) ∧
      ∀ q, q ∉ l → port (l.foldl (holdPort v) s) q = port s q := by
  induction l generalizing s with
  | nil => exact ⟨rfl, fun _ hp => absurd hp List.not_mem_nil, fun _ _ => rfl⟩
  | cons p l ih =>
    obtain ⟨hp, hnodup⟩ := List.nodup_cons.mp hl
    obtain ⟨hpidle, hrestidle⟩ := List.forall_mem_cons.mp hidle
    obtain ⟨hfirst, hmark, hothers⟩ := holdPort_idle hpidle
    have hstill : ∀ q ∈ l, HoldsIdle v (holdPort v s p) q := fun q hq => by
      unfold HoldsIdle
      rw [hothers q fun e => hp (e ▸ hq)]
      exact hrestidle q hq
    obtain ⟨hrest, hmarks, hkept⟩ := ih hnodup hstill
    rw [List.foldl_cons]
    refine ⟨hrest.trans hfirst, List.forall_mem_cons.mpr ⟨?_, hmarks⟩, fun q hq => ?_⟩
    · rw [hkept p hp, hmark]
    · rw [List.mem_cons, not_or] at hq
      obtain ⟨hqp, hql⟩ := hq
      rw [hkept q hql, hothers q hqp]

theorem mem_twelve {p : Nat} : p ∈ twelve ↔ p < 12 := List.mem_range

/-- R399: what a hold-off write changes. -/
def holdOffStored (v : Nat) (s : State) : State := setReg (twelve.foldl (holdPort v) s) 0x6200 1 (fld v 0 12)

theorem onlyPorts_written (s : State) (q : DictReq) (u : State) : onlyPorts s (written q u) = onlyPorts s u :=
  part_of_beside (onlyPorts s) (fun _ => rfl) (beside_written q u)

theorem holdOffWrite_idle_works (w : WriteHdr) (v : BitVec 16) (s : State)
    (hidle : ∀ p, p < 12 → bitAt v.toNat p = true → (port s p).heldOff = true ∨ (port s p).state = .absent) :
    WriteWorks (.holdOffWrite w v) w 0x6200 1 (leBytes 2 v.toNat) s (onlyPorts s) fun t =>
      reg t 0x6200 1 = fld v.toNat 0 12 ∧ ∀ p, p < 12 → (port t p).heldOff = bitAt v.toNat p := by
  refine writeWorks_of_rule (applyHoldOff v.toNat) (holdOffStored v.toNat) rfl (fun _ => rfl) ?_
  intro haut u hu
  have hentry : ∀ p ∈ twelve, HoldsIdle v.toNat (atEntry (writeReq w 0x6200 1 (leBytes 2 v.toNat)) s) p := fun p hp => by
    simp only [HoldsIdle, port, ports_atEntry _ _ haut]
    exact hidle p (mem_twelve.mp hp)
  obtain ⟨hrest, hmarks, -⟩ := foldl_holdPort_idle List.nodup_range hentry
  have hkept : beside (noPorts u) = beside (noPorts s) := by
    rw [hu]
    exact (congrArg beside hrest).trans (congrArg noPorts (beside_atEntry _ s haut))
  have hcascade := congrArg State.cascade hkept
  refine ⟨hcascade, ?_, ?_, fun p hp => ?_⟩
  · rw [onlyPorts_written]
    exact congrArg (fun t : State => { t with ports := u.ports, lanes := u.lanes, octets := u.octets }) hkept
  · exact reg_of_regs_setReg ((regs_written ..).trans (congrArg State.regs hu))
  · rw [port, ports_written, hu]
    exact hmarks p (mem_twelve.mpr hp)

/-! ## A port that is stopped (R299, R399) -/

@[simp] theorem regs_tellStripe (s : State) (p : Nat) : (tellStripe s p).regs = s.regs := by
  unfold tellStripe
  split
  · split <;> rfl
  · rfl

theorem regAt_reportDown {s : State} {p node cause reason i j k : Nat} (h : regKey i j k < regKey 0x7000 0 0) :
    regAt (reportDown s p node cause reason) i j k = regAt s i j k := by
  unfold reportDown
  split
  · exact regAt_report_below h
  · split
    · exact regAt_report_below h
    · exact regAt_report_below h

/-- R299: the cause stands in the port's register once its link is down. -/
theorem wentDown_linkDown {p : Nat} (hp : p < 12) (s : State) (cause reason : Nat) :
    WentDown p cause (linkDown s p cause reason) := by
  unfold WentDown linkDown
  dsimp only
  rw [regAt_reportDown (by unfold regKey; omega)]
  split
  · exact regAt_setRegAt_self ..
  · simp only [regAt, regs_tellStripe]
    exact regAt_setRegAt_self ..

/-- A port whose mark is its bit is left as it is. -/
theorem holdPort_settled {v : Nat} {s : State} {p : Nat} (h : (port s p).heldOff = bitAt v p) : holdPort v s p = s := by
  unfold holdPort
  dsimp only
  cases hbit : bitAt v p with
  | true => simp [h, hbit]
  | false => simp [h, hbit]

theorem foldl_holdPort_settled {v : Nat} {l : List Nat} {s : State} (h : ∀ p ∈ l, (port s p).heldOff = bitAt v p) :
    l.foldl (holdPort v) s = s := by
  induction l with
  | nil => rfl
  | cons p l ih =>
    obtain ⟨hp, hl⟩ := List.forall_mem_cons.mp h
    rw [List.foldl_cons, holdPort_settled hp, ih hl]

/-- R399: the port of a bit that is set anew departs, and its link is down with cause 8. -/
def heldDown (s : State) (p : Nat) : State :=
  linkDown (sendDepart (setPort s p { port s p with heldOff := true }) p 2) p 8 0

theorem holdSide_heldDown (s : State) (p : Nat) :
    holdSide (heldDown s p) = holdSide (setPort s p { port s p with heldOff := true }) := by simp [heldDown]

theorem heldOff_heldDown_self (s : State) (p : Nat) : (port (heldDown s p) p).heldOff = true := by
  have h := congrFun (congrArg Prod.snd (holdSide_heldDown s p)) p
  simpa only [holdSide, port_setPort_self] using h

theorem heldOff_heldDown_ne (s : State) {p q : Nat} (hq : q ≠ p) :
    (port (heldDown s p) q).heldOff = (port s q).heldOff := by
  have h := congrFun (congrArg Prod.snd (holdSide_heldDown s p)) q
  simpa only [holdSide, port_setPort_ne _ _ _ _ hq.symm] using h

theorem holdPort_stops {v : Nat} {s : State} {p : Nat} (hbit : bitAt v p = true) (hheld : (port s p).heldOff = false)
    (hstate : (port s p).state ≠ .absent) : holdPort v s p = heldDown s p := by
  simp [holdPort, hbit, hheld, stopPort, hstate, heldDown]

/-- Where one port's mark differs from its bit, the others are left as they are. -/
theorem foldl_holdPort_stops {v p : Nat} {l : List Nat} {s : State} (hl : l.Nodup) (hp : p ∈ l)
    (hbit : bitAt v p = true) (hheld : (port s p).heldOff = false) (hstate : (port s p).state ≠ .absent)
    (hothers : ∀ q ∈ l, q ≠ p → (port s q).heldOff = bitAt v q) : l.foldl (holdPort v) s = heldDown s p := by
  obtain ⟨before, after, rfl⟩ := List.append_of_mem hp
  obtain ⟨hfresh, -⟩ := List.nodup_cons.mp (List.nodup_middle.mp hl)
  have hbefore : ∀ q ∈ before, (port s q).heldOff = bitAt v q := fun q hq =>
    hothers q (by simp [hq]) fun e => hfresh (by simp [← e, hq])
  have hafter : ∀ q ∈ after, (port (heldDown s p) q).heldOff = bitAt v q := fun q hq => by
    have hne : q ≠ p := fun e => hfresh (by simp [← e, hq])
    rw [heldOff_heldDown_ne s hne]
    exact hothers q (by simp [hq]) hne
  rw [List.foldl_append, foldl_holdPort_settled hbefore, List.foldl_cons, holdPort_stops hbit hheld hstate,
    foldl_holdPort_settled hafter]

theorem holdOffWrite_stops (w : WriteHdr) (v : BitVec 16) (p : Nat) (s : State) (hp : p < 12)
    (hbit : bitAt v.toNat p = true) (hheld : (port s p).heldOff = false) (hstate : (port s p).state ≠ .absent)
    (hothers : ∀ q, q < 12 → q ≠ p → (port s q).heldOff = bitAt v.toNat q) :
    WriteWorks (.holdOffWrite w v) w 0x6200 1 (leBytes 2 v.toNat) s id fun t =>
      reg t 0x6200 1 = fld v.toNat 0 12 ∧ (port t p).heldOff = true ∧ WentDown p 8 t := by
  refine writeWorks_of_rule (applyHoldOff v.toNat) (holdOffStored v.toNat) rfl (fun _ => rfl) ?_
  intro haut u hu
  generalize hentry : atEntry (writeReq w 0x6200 1 (leBytes 2 v.toNat)) s = a at hu
  have hports (q : Nat) : port a q = port s q := by simp only [← hentry, port, ports_atEntry _ _ haut]
  have hdown : twelve.foldl (holdPort v.toNat) a = heldDown a p :=
    foldl_holdPort_stops List.nodup_range (mem_twelve.mpr hp) hbit (by rwa [hports]) (by rwa [hports])
      fun q hq hne => by rw [hports, hothers q (mem_twelve.mp hq) hne]
  rw [holdOffStored, hdown] at hu
  refine ⟨?_, (beside_written _ _).symm, ?_, ?_, ?_⟩
  · have hcascade : u.cascade = a.cascade := by
      rw [hu]
      exact congrArg Prod.fst (holdSide_heldDown a p)
    rw [hcascade, ← hentry, cascade_atEntry _ _ haut]
  · exact reg_of_regs_setReg ((regs_written ..).trans (congrArg State.regs hu))
  · rw [port, ports_written, hu]
    exact heldOff_heldDown_self a p
  · have hcause : regAt u 0x2400 0x14 p = 8 := by
      rw [hu, setReg, regAt_setRegAt_ne _ _ _ _ _ _ _ _ (by unfold regKey; omega)]
      exact wentDown_linkDown hp ..
    simpa only [WentDown, regAt, regs_written] using hcause

/-! ## The statement -/

/-- Settles O56. A choice of settings leaves the caps, memory and contexts as they are (`settleSide_settle`), so that a
boundary, a step and a start-up cap show in the state what they set; a host cap is only stored until then; and the port of
a new hold-off bit goes down while every other mark stays (`holdSide_linkDown`). -/
theorem capsAndSchedule : Obligations.CapsAndSchedule := by
  unfold Obligations.CapsAndSchedule
  refine ⟨fun s => ⟨effCap_le_rackCap s, effCap_le_hostCap, effCap_le_thermCap, effCap_eq_or s, capMin_le_left ..,
      capMin_le_right _, capMin_eq_or ..⟩,
    fun _ _ => capBoundary_runs, fun _ => capBoundary_untimed, fun _ _ => stepPrepare_runs,
    fun _ _ _ => scheduleStep_runs, fun _ _ _ => scheduleStep_waits, scheduleWrite_works, scheduleClear_works,
    fun w v s hfloor hcolls hT => ?_, fun w v s hfloor hcolls hT => ?_, hostCapWrite_works, hostCapWrite_refused,
    hostSextantCapWrite_works, hostSextantCapWrite_denied, holdOffWrite_idle_works, holdOffWrite_stops⟩
  · obtain ⟨t, hrun, hok, hbeside, hcap, hrack, -, hmem, hctxs⟩ :=
      startUpCapWrite_works (w := w) (sextant := false) rfl (fun _ => rfl) (by decide)
        (by simpa [belowFloor] using hfloor) hcolls hT
    exact ⟨t, hrun, hok, hbeside, hcap, fun hnone => by rw [rackCap, hrack, hnone]; exact hcap, hmem, hctxs⟩
  · obtain ⟨t, hrun, hok, hbeside, hcap, -, hrack, hmem, hctxs⟩ :=
      startUpCapWrite_works (w := w) (sextant := true) rfl (fun _ => rfl) (by decide)
        (by simpa [belowFloor] using hfloor) hcolls hT
    exact ⟨t, hrun, hok, hbeside, hcap, fun hnone => by rw [rackScap, hrack, hnone]; exact hcap, hmem, hctxs⟩

end Sys2Proof.Machine
end

section
/-! The queue and the whole machine: the step takes the front command, every command answers, and what reset leaves. -/

namespace Sys2Proof.Machine
open Sys2Proof

/-- Settles O1, by the step's own case for a queue that is not empty. -/
theorem stepRunsFrontCommand : Obligations.StepRunsFrontCommand := by
  unfold Obligations.StepRunsFrontCommand
  intro c s
  rfl

/-- Settles O4: each arm of the dispatch answers a next state; an access of the slot region does so for a read and for a
write. -/
theorem everyCommandAnswers : Obligations.EveryCommandAnswers := by
  unfold Obligations.EveryCommandAnswers
  intro c s
  cases c with
  | slotWrite ctx offset access data => cases access <;> exact ⟨_, rfl⟩
  | _ => exact ⟨_, rfl⟩

/-- Settles O6. -/
theorem resetHasInvariant : Obligations.ResetHasInvariant := by
  unfold Obligations.ResetHasInvariant
  exact ⟨memWf_reset, rfl⟩

/-- After reset a port is in training or not listed. -/
theorem port_reset (p : Nat) : port State.reset p = Port.training ∨ port State.reset p = Port.reset := by
  by_cases hp : p ∈ [0, 1, 2, 3, 4, 5]
  · left
    fin_cases hp <;> rfl
  · right
    simp only [List.mem_cons, List.not_mem_nil, or_false, not_or] at hp
    obtain ⟨h0, h1, h2, h3, h4, h5⟩ := hp
    simp [port, State.reset, tgetD, tget, h0, h1, h2, h3, h4, h5]

/-- Settles O5: every part but the ports is read off the reset state; no port works (`port_reset`). -/
theorem resetLeavesDefaults : Obligations.ResetLeavesDefaults := by
  unfold Obligations.ResetLeavesDefaults
  refine ⟨fun c => ⟨rfl, rfl, rfl, fun k => rfl⟩, rfl, rfl, rfl, rfl, rfl, rfl, rfl, rfl, rfl, fun i j k => rfl, fun p => ?_⟩
  obtain h | h := port_reset p
  · rw [h]; rfl
  · rw [h]; rfl

end Sys2Proof.Machine
end

section
/-! What each operation does to memory: `f_mem` says that `f` leaves it, `f_memInv` that `f` writes it in its canonical form
only. They stand in the order of the model's definitions. -/

namespace Sys2Proof.Machine
open Sys2Proof

/-- Memory is in its canonical form. -/
def MemInv (m : Memory) : Prop := memWf m = true ∧ risingNats m.poison = true

theorem memInv_memWrite {m : Memory} (a : Nat) (v : Bytes) (h : MemInv m) : MemInv (memWrite m a v) :=
  ⟨memWf_memWrite v m a h.1, by rw [poison_memWrite]; exact h.2⟩

theorem memInv_memPoison {m : Memory} (l : Nat) (p : Bool) (h : MemInv m) : MemInv (memPoison m l p) :=
  ⟨h.1, risingNats_memPoison m l p h.2⟩

@[simp] theorem ite_mem (c : Prop) [Decidable c] (a b : State) : (if c then a else b).mem = if c then a.mem else b.mem :=
  apply_ite State.mem c a b

@[simp] theorem foldl_mem {α : Type} {f : State → α → State} (h : ∀ t a, (f t a).mem = t.mem) (l : List α) (s : State) :
    (l.foldl f s).mem = s.mem := foldl_keeps State.mem f h l s

@[simp] theorem memInv_ite (c : Prop) [Decidable c] (a b : Memory) :
    MemInv (if c then a else b) = if c then MemInv a else MemInv b := apply_ite MemInv c a b

@[simp] theorem foldl_memInv {α : Type} {f : State → α → State} (h : ∀ t a, MemInv t.mem → MemInv (f t a).mem) (l : List α)
    (s : State) (hs : MemInv s.mem) : MemInv (l.foldl f s).mem := by
  induction l generalizing s with
  | nil => exact hs
  | cons a r ih => exact ih _ (h s a hs)

/-- Each state that a verdict passes on has memory in its canonical form. -/
def verdictMemInv : Verdict → Prop
  | .done t _ => MemInv t.mem
  | .refuse _ _ => True
  | .counted t _ _ => MemInv t.mem
  | .later t => MemInv t.mem

@[simp] theorem verdictMemInv_done (t b) : verdictMemInv (.done t b) = MemInv t.mem := rfl
@[simp] theorem verdictMemInv_refuse (st n) : verdictMemInv (.refuse st n) = True := rfl
@[simp] theorem verdictMemInv_counted (t st n) : verdictMemInv (.counted t st n) = MemInv t.mem := rfl
@[simp] theorem verdictMemInv_later (t) : verdictMemInv (.later t) = MemInv t.mem := rfl
@[simp] theorem verdictMemInv_ok (t) : verdictMemInv (ok t) = MemInv t.mem := rfl
@[simp] theorem verdictMemInv_outOfRange : verdictMemInv outOfRange = True := rfl
@[simp] theorem verdictMemInv_breaksRule : verdictMemInv breaksRule = True := rfl
@[simp] theorem verdictMemInv_entryBusy : verdictMemInv entryBusy = True := rfl

@[simp] theorem verdictMemInv_require (c : Bool) (v : Verdict) :
    verdictMemInv (require c v) = (c = true → verdictMemInv v) := by cases c <;> simp [require]

@[simp] theorem verdictMemInv_inRange (c : Bool) (v : Verdict) :
    verdictMemInv (inRange c v) = (c = true → verdictMemInv v) := by cases c <;> simp [inRange]

def optMemInv : Option Verdict → Prop
  | some v => verdictMemInv v
  | none => True
@[simp] theorem optMemInv_some (v) : optMemInv (some v) = verdictMemInv v := rfl
@[simp] theorem optMemInv_none : optMemInv none = True := rfl

@[simp] theorem updPort_mem (s p f) : (updPort s p f).mem = s.mem := by rfl

@[simp] theorem updLink_mem (s p f) : (updLink s p f).mem = s.mem := by rfl

@[simp] theorem updCtx_mem (s c f) : (updCtx s c f).mem = s.mem := by rfl

@[simp] theorem updLane_mem (s l f) : (updLane s l f).mem = s.mem := by rfl

@[simp] theorem updOctet_mem (s o f) : (updOctet s o f).mem = s.mem := by rfl

@[simp] theorem updSext_mem (s u f) : (updSext s u f).mem = s.mem := by rfl

@[simp] theorem setReg_mem (s index sub v) : (setReg s index sub v).mem = s.mem := by rfl

@[simp] theorem bumpAt_mem (s index sub sel) : (bumpAt s index sub sel).mem = s.mem := by rfl

@[simp] theorem bump_mem (s index sub) : (bump s index sub).mem = s.mem := by rfl

@[simp] theorem freshValue_mem (s w) : (freshValue s w).2.mem = s.mem := by rfl

@[simp] theorem tickTime_mem (s) : (tickTime s).mem = s.mem := by rfl

@[simp] theorem toIntake_mem (s m) : (toIntake s m).mem = s.mem := by simp [toIntake]

@[simp] theorem raiseReport_mem (s r) : (raiseReport s r).mem = s.mem := by simp [raiseReport]

@[simp] theorem report_mem (s cls idx kind addr) : (report s cls idx kind addr).mem = s.mem := by simp [report]

@[simp] theorem reportFor_mem (s cls idx kind addr c) : (reportFor s cls idx kind addr c).mem = s.mem := congrArg Prod.fst (memSide_reportFor ..)

@[simp] theorem reportPkt_mem (s cls idx kind addr h) : (reportPkt s cls idx kind addr h).mem = s.mem := by simp [reportPkt]

@[simp] theorem reportCtx_mem (s cls idx kind addr st c) : (reportCtx s cls idx kind addr st c).mem = s.mem := by simp [reportCtx]

@[simp] theorem sendFrame_mem (s f) : (sendFrame s f).mem = s.mem := by simp [sendFrame]

@[simp] theorem pushEvent_mem (s kind time body) : (pushEvent s kind time body).mem = s.mem := by simp [pushEvent]

@[simp] theorem raiseReplace_mem (s reason) : (raiseReplace s reason).mem = s.mem := by simp [raiseReplace]

@[simp] theorem clearReplace_mem (s reason) : (clearReplace s reason).mem = s.mem := by simp [clearReplace]

@[simp] theorem flashError_mem (s addr) : (flashError s addr).mem = s.mem := by simp [flashError]

@[simp] theorem program_mem (s addr size f) : (program s addr size f).mem = s.mem := by
  unfold program
  split <;> simp

@[simp] theorem writeLogAt_mem (s ty len time payload) : (writeLogAt s ty len time payload).mem = s.mem := by rfl

@[simp] theorem writeLog_mem (s ty len payload) : (writeLog s ty len payload).mem = s.mem := by rfl

@[simp] theorem compact_mem (s i) : (compact s i).mem = s.mem := by simp [compact]

@[simp] theorem appendRec_mem (s key val good) : (appendRec s key val good).mem = s.mem := by simp [appendRec]

@[simp] theorem journalNote_mem (s key value) : (journalNote s key value).mem = s.mem := by rfl

@[simp] theorem journalBlob_mem (s key value) : (journalBlob s key value).mem = s.mem := by rfl

@[simp] theorem noteOperating_mem (s) : (noteOperating s).mem = s.mem := by simp [noteOperating]

@[simp] theorem writeOut_mem (s x) : (writeOut s x).mem = s.mem := by simp [writeOut]

@[simp] theorem flushJournal_mem (s) : (flushJournal s).mem = s.mem := by simp [flushJournal]

@[simp] theorem tornRecord_mem (s) : (tornRecord s).mem = s.mem := by
  unfold tornRecord
  split <;> simp

@[simp] theorem writeBoot_mem (s active trial tries) : (writeBoot s active trial tries).mem = s.mem := by simp [writeBoot]

@[simp] theorem tornBoot_mem (s) : (tornBoot s).mem = s.mem := by
  unfold tornBoot
  split <;> simp

@[simp] theorem ok_memInv (s) (h : MemInv s.mem) : verdictMemInv (ok s) := by simp [ok, h]

@[simp] theorem putSession_mem (s x) : (putSession s x).mem = s.mem := by rfl

@[simp] theorem touchSession_mem (s owner) : (touchSession s owner).mem = s.mem := by
  unfold touchSession
  split
  · simp
  · split <;> simp

@[simp] theorem changedParts_mem (s index n) : (changedParts s index n).mem = s.mem := by rfl

@[simp] theorem setSelected_mem (s owner index sub v) : (setSelected s owner index sub v).mem = s.mem := by rfl

@[simp] theorem acceptCounter_mem (s a) : (acceptCounter s a).mem = s.mem := by simp [acceptCounter]

@[simp] theorem authRefused_mem (q s) : (authRefused q s).mem = s.mem := by simp [authRefused]

@[simp] theorem logCritWrite_mem (q : DictReq) (o : Outcome7) : (logCritWrite q o).mem = o.s.mem := by
  unfold logCritWrite
  split <;> simp

@[simp] theorem sendAnswer_mem (s path a) : (sendAnswer s path a).mem = s.mem := by
  unfold sendAnswer
  split <;> simp

@[simp] theorem keepAnswer_mem (s a) : (keepAnswer s a).mem = s.mem := by simp [keepAnswer]

@[simp] theorem answer_mem (s q st reason body) : (answer s q st reason body).mem = s.mem := by simp [answer]

@[simp] theorem verdict7_memInv {s : State} {v : Verdict} (hs : MemInv s.mem) (hv : verdictMemInv v) :
    MemInv (verdict7 s v).s.mem := by
  cases v with
  | refuse => exact hs
  | _ => exact hv

@[simp] theorem refused7_s (s : State) (r : Status × Nat) : (refused7 s r).s = s := rfl

theorem ownChecks_memInv {q : DictReq} {apply : State → Verdict} {s : State} (ha : ∀ t, MemInv t.mem → verdictMemInv (apply t))
    (h : MemInv s.mem) : MemInv (ownChecks q apply s).s.mem := by
  unfold ownChecks
  split
  · exact h
  · exact verdict7_memInv h (ha s h)

theorem writeOutcome_memInv {q : DictReq} {apply : State → Verdict} {s : State}
    (ha : ∀ t, MemInv t.mem → verdictMemInv (apply t)) (h : MemInv s.mem) : MemInv (writeOutcome q apply s).s.mem := by
  unfold writeOutcome
  split
  · exact h
  · dsimp only
    split
    · split
      · exact h
      · exact ownChecks_memInv ha h
    · split
      · simpa using h
      · exact ownChecks_memInv ha (by simpa using h)

theorem performWrite_memInv {q : DictReq} {apply : State → Verdict} {s : State}
    (ha : ∀ t, MemInv t.mem → verdictMemInv (apply t)) (h : MemInv s.mem) : MemInv (performWrite q apply s).mem := by
  have ho : MemInv (if q.tooLong then refused7 s (.oversize, 1) else writeOutcome q apply s).s.mem := by
    split
    · exact h
    · exact writeOutcome_memInv ha h
  unfold performWrite
  simp [ho]

@[simp] theorem lateAnswer_mem (s q st reason) : (lateAnswer s q st reason).mem = s.mem := by simp [lateAnswer]

theorem transact_memInv {q : DictReq} {perform : State → State} {s : State}
    (hp : ∀ t, MemInv t.mem → MemInv (perform t).mem) (h : MemInv s.mem) : MemInv (transact q perform s).mem := by
  unfold transact
  dsimp only
  repeat' split
  case h_2.isTrue => exact hp _ (by simp [h])
  case h_2.isFalse => exact hp _ (by simp [h])
  all_goals simp [h]

theorem fromPath_memInv {path : Path} {xid : BitVec 32} {go : State → State} {s : State}
    (hg : ∀ t, MemInv t.mem → MemInv (go t).mem) (h : MemInv s.mem) : MemInv (fromPath path xid go s).mem := by
  unfold fromPath
  repeat' split
  · exact h
  · exact hg _ h
  · exact hg _ h

theorem dictWrite_memInv {w : WriteHdr} {index sub : Nat} {value : Bytes} {apply : State → Verdict} {s : State}
    (ha : ∀ t, MemInv t.mem → verdictMemInv (apply t)) (h : MemInv s.mem) :
    MemInv (dictWrite w index sub value apply s).mem :=
  fromPath_memInv (fun _ ht => transact_memInv (fun _ => performWrite_memInv ha) ht) h

@[simp] theorem storeNumberAt_mem (index sub sel v s) : (storeNumberAt index sub sel v s).mem = s.mem := by simp [storeNumberAt]

@[simp] theorem storeNumber_mem (owner index sub v s) : (storeNumber owner index sub v s).mem = s.mem := by simp [storeNumber]

@[simp] theorem storeBlob_mem (owner index sub v s) : (storeBlob owner index sub v s).mem = s.mem := by simp [storeBlob]

@[simp] theorem applyPartition_memInv (v s) (h : MemInv s.mem) : verdictMemInv (applyPartition v s) := by simp [applyPartition, h]

@[simp] theorem applyPortKey_memInv (v s) (h : MemInv s.mem) : verdictMemInv (applyPortKey v s) := by simp [applyPortKey, h]

@[simp] theorem applyShare_memInv (v s) (h : MemInv s.mem) : verdictMemInv (applyShare v s) := by simp [applyShare, h]

@[simp] theorem shareUpdate_mem (u s) : (shareUpdate u s).mem = s.mem := by simp [shareUpdate]

@[simp] theorem applyRank_memInv (i v s) (h : MemInv s.mem) : verdictMemInv (applyRank i v s) := by
  unfold applyRank
  split <;> simp [h]

@[simp] theorem applyWindow_memInv (i v s) (h : MemInv s.mem) : verdictMemInv (applyWindow i v s) := by
  unfold applyWindow
  split <;> simp [h]

@[simp] theorem applyDescriptor_memInv (w v s) (h : MemInv s.mem) : verdictMemInv (applyDescriptor w v s) := by
  unfold applyDescriptor
  split <;> simp [h]

@[simp] theorem withErrors_mem (s l bits) : (withErrors s l bits).1.mem = s.mem := by rfl

@[simp] theorem sendCharacters_mem (s l cs) : (sendCharacters s l cs).mem = s.mem := congrArg Prod.fst (memSide_sendCharacters ..)

@[simp] theorem sendBlockA_mem (s o b) : (sendBlockA s o b).mem = s.mem := by simp [sendBlockA]

@[simp] theorem injectFrame_mem (s o words) : (injectFrame s o words).1.mem = s.mem := congrArg Prod.fst (memSide_injectFrame ..)

@[simp] theorem sendFrameLane_mem (words k s l) : (sendFrameLane words k s l).mem = s.mem := congrArg Prod.fst (memSide_sendFrameLane ..)

@[simp] theorem sendFecFrame_mem (s o data) : (sendFecFrame s o data).mem = s.mem := by simp [sendFecFrame]

@[simp] theorem fillFrame_mem (s o b) : (fillFrame s o b).mem = s.mem := by simp [fillFrame]

@[simp] theorem dealBlock_mem (st os s p b) : (dealBlock st os s p b).mem = s.mem := congrArg Prod.fst (memSide_dealBlock ..)

@[simp] theorem streamOut_mem (s p data) : (streamOut s p data).mem = s.mem := congrArg Prod.fst (memSide_streamOut ..)

@[simp] theorem decodeByte_mem (s p b i byte g) : (decodeByte s p b i byte g).1.mem = s.mem := by
  unfold decodeByte
  dsimp only
  split
  · simp
  · split <;> simp

@[simp] theorem decodeBytes_mem (s p first i bytes gs) : (decodeBytes s p first i bytes gs).1.mem = s.mem := by
  induction bytes generalizing s i gs with
  | nil => cases gs <;> rfl
  | cons b r ih =>
    cases gs with
    | nil => rfl
    | cons g gs => simp [decodeBytes, ih]

@[simp] theorem sendBlock_mem (s p urgent b) : (sendBlock s p urgent b).mem = s.mem := congrArg Prod.fst (memSide_sendBlock ..)

@[simp] theorem sendStatus_mem (s p xoff) : (sendStatus s p xoff).mem = s.mem := congrArg Prod.fst (memSide_sendStatus ..)

@[simp] theorem refreshXoff_mem (s p) : (refreshXoff s p).mem = s.mem := congrArg Prod.fst (memSide_refreshXoff ..)

@[simp] theorem tellStripe_mem (s p) : (tellStripe s p).mem = s.mem := congrArg Prod.fst (memSide_tellStripe ..)

@[simp] theorem refreshAccount_mem (s a) : (refreshAccount s a).mem = s.mem := congrArg Prod.fst (memSide_refreshAccount ..)

@[simp] theorem notePeaks_mem (s) : (notePeaks s).mem = s.mem := congrArg Prod.fst (memSide_notePeaks ..)

@[simp] theorem accrue_mem (s p) : (accrue s p).mem = s.mem := by rfl

@[simp] theorem noteQuiet_mem (s) : (noteQuiet s).mem = s.mem := congrArg Prod.fst (memSide_noteQuiet ..)

@[simp] theorem addPkt_mem (s x) : (addPkt s x).mem = s.mem := congrArg Prod.fst (memSide_addPkt ..)

@[simp] theorem dropPkt_mem (s id) : (dropPkt s id).mem = s.mem := congrArg Prod.fst (memSide_dropPkt ..)

@[simp] theorem putPkt_mem (s x) : (putPkt s x).mem = s.mem := by rfl

@[simp] theorem rechargePkt_mem (s x a) : (rechargePkt s x a).mem = s.mem := congrArg Prod.fst (memSide_rechargePkt ..)

@[simp] theorem mirrorTouch_mem (s c) : (mirrorTouch s c).mem = s.mem := by rfl

@[simp] theorem issueMirror_mem (s c) : (issueMirror s c).mem = s.mem := by
  unfold issueMirror
  dsimp only
  split
  · simp
  · split <;> simp

@[simp] theorem interrupts_mem (s c vecs) : (interrupts s c vecs).mem = s.mem := congrArg Prod.fst (memSide_interrupts ..)

@[simp] theorem fireThresholds_mem (s c) : (fireThresholds s c).mem = s.mem := by simp [fireThresholds]

@[simp] theorem raiseCounter_mem (s c k) : (raiseCounter s c k).mem = s.mem := congrArg Prod.fst (memSide_raiseCounter ..)

@[simp] theorem recordFailure_mem (s c num type st) : (recordFailure s c num type st).mem = s.mem := by rfl

@[simp] theorem finishCommand_mem (s c num type cctr st) : (finishCommand s c num type cctr st).mem = s.mem := by simp [finishCommand]

@[simp] theorem dropCmd_mem (s c num) : (dropCmd s c num).mem = s.mem := by rfl

@[simp] theorem putCmd_mem (s c m) : (putCmd s c m).mem = s.mem := by rfl

@[simp] theorem completeCmd_mem (s c m st) : (completeCmd s c m st).mem = s.mem := by simp [completeCmd]

@[simp] theorem acceptSlot_mem (s c) : (acceptSlot s c).mem = s.mem := by rfl

theorem accepting_memInv {c : Nat} {types : Nat → Bool} {body : State → Nat → BitVec 512 → State} {s : State}
    (hb : ∀ t n b, MemInv t.mem → MemInv (body t n b).mem) (h : MemInv s.mem) :
    MemInv (accepting c types body s).mem := by
  unfold accepting
  dsimp only
  split
  · exact h
  · split
    · exact hb _ _ _ (by simpa using h)
    · exact h

@[simp] theorem addCmd_mem (s c m) : (addCmd s c m).mem = s.mem := by rfl

@[simp] theorem finishAtOnce_mem (s c num b st) : (finishAtOnce s c num b st).mem = s.mem := by simp [finishAtOnce]

@[simp] theorem refusedType_mem (s offset enables data) : (refusedType s offset enables data).2.mem = s.mem := by
  unfold refusedType
  split <;> simp

@[simp] theorem slotWrite_mem (c offset enables data s) : (slotWrite c offset enables data s).mem = s.mem := by simp [slotWrite]

@[simp] theorem regionRead_mem (thread len s) : (regionRead thread len s).mem = s.mem := by simp [regionRead]

@[simp] theorem acceptFence_mem (s c num b) : (acceptFence s c num b).mem = s.mem := by rfl

@[simp] theorem fenceComplete_mem (c num s) : (fenceComplete c num s).mem = s.mem := by
  unfold fenceComplete
  split <;> simp

@[simp] theorem phaseHint_mem (s c num b) : (phaseHint s c num b).mem = s.mem := by simp [phaseHint]

@[simp] theorem armThreshold_mem (s c num b) : (armThreshold s c num b).mem = s.mem := by simp [armThreshold]

@[simp] theorem mirrorWrite_mem (c s) : (mirrorWrite c s).mem = s.mem := by simp [mirrorWrite]

@[simp] theorem enterHalted_mem (s c) : (enterHalted s c).mem = s.mem := by rfl

@[simp] theorem nextMirror_mem (s c) : (nextMirror s c).mem = s.mem := by simp [nextMirror]

@[simp] theorem mirrorAccepted_mem (c s) : (mirrorAccepted c s).mem = s.mem := by
  unfold mirrorAccepted
  split <;> simp

@[simp] theorem mirrorError_mem (c s) : (mirrorError c s).mem = s.mem := by
  unfold mirrorError
  split <;> simp

@[simp] theorem applyEnable_memInv (c s) (h : MemInv s.mem) : verdictMemInv (applyEnable c s) := by simp [applyEnable, h]

@[simp] theorem applyRelease_memInv (c s) (h : MemInv s.mem) : verdictMemInv (applyRelease c s) := by
  unfold applyRelease
  dsimp only
  split <;> simp [h]

@[simp] theorem takeEntry_mem (s c b) : (takeEntry s c b).2.mem = s.mem := by rfl

@[simp] theorem releaseBlock_mem (s b) : (releaseBlock s b).mem = s.mem := by simp [releaseBlock]

@[simp] theorem leaveStream_mem (s op tag syn) : (leaveStream s op tag syn).mem = s.mem := by
  unfold leaveStream
  dsimp only
  split
  · simp
  · split <;> simp

@[simp] theorem leaveSender_mem (s t) : (leaveSender s t).mem = s.mem := by
  unfold leaveSender
  dsimp only
  repeat' split
  all_goals simp

@[simp] theorem closeOut_mem (s tag t stale syn) : (closeOut s tag t stale syn).mem = s.mem := by simp [closeOut]

@[simp] theorem apertureFailure_mem (s op thread addr st) : (apertureFailure s op thread addr st).mem = s.mem := by simp [apertureFailure]

@[simp] theorem apertureDone_mem (s op thread addr st data poison) : (apertureDone s op thread addr st data poison).mem = s.mem := by simp [apertureDone]

@[simp] theorem holdOp_mem (s op) : (holdOp s op).mem = s.mem := by rfl

@[simp] theorem messageEnd_mem (s op m st unc) : (messageEnd s op m st unc).mem = s.mem := by
  unfold messageEnd
  split
  · simp
  · split <;> simp

@[simp] theorem dropMessages_mem (s c num) : (dropMessages s c num).mem = s.mem := by rfl

@[simp] theorem settleCmd_mem (s c num) : (settleCmd s c num).mem = s.mem := by
  unfold settleCmd
  split <;> simp

@[simp] theorem pieceEnd_mem (s op num st unc) : (pieceEnd s op num st unc).mem = s.mem := by
  unfold pieceEnd
  repeat' split
  all_goals simp

@[simp] theorem feedStore_mem (s op num st data poison) : (feedStore s op num st data poison).mem = s.mem := by
  unfold feedStore
  split <;> simp

@[simp] theorem finishOp_mem (s op st data poison unc) : (finishOp s op st data poison unc).mem = s.mem := by
  unfold finishOp
  split
  · simp
  · split <;> simp

@[simp] theorem endOp_mem (s op st data poison unc stale syn) : (endOp s op st data poison unc stale syn).mem = s.mem := by
  unfold endOp
  repeat' split
  all_goals simp

@[simp] theorem completeTag_mem (s tag st data poison unc stale syn) : (completeTag s tag st data poison unc stale syn).mem = s.mem := by
  unfold completeTag
  split <;> simp

@[simp] theorem cutNext_mem (s c num) : (cutNext s c num).mem = s.mem := by
  unfold cutNext
  split <;> simp

@[simp] theorem unhold_mem (s id) : (unhold s id).mem = s.mem := by rfl

@[simp] theorem putHeld_mem (s op) : (putHeld s op).mem = s.mem := by rfl

theorem withMessage_mem {s t : State} {op op1 : Op} (h : withMessage s op = some (t, op1)) : t.mem = s.mem := by
  unfold withMessage at h
  split at h
  · cases h; rfl
  · dsimp only at h
    split at h
    · cases h; rfl
    · split at h
      · cases h
      · cases h; rfl

@[simp] theorem spend_mem (s op) : (spend s op).mem = s.mem := by
  unfold spend
  split <;> simp

@[simp] theorem track_mem (s op tag sent paid) : (track s op tag sent paid).mem = s.mem := by simp [track]

@[simp] theorem issued_mem (s op) : (issued s op).mem = s.mem := by rfl

@[simp] theorem countHold_mem (s op index sub) : (countHold s op index sub).mem = s.mem := by simp [countHold]

@[simp] theorem waitRoom_mem (s op) : (waitRoom s op).mem = s.mem := by
  unfold waitRoom
  split <;> simp

@[simp] theorem countRetired_mem (s op h) : (countRetired s op h).mem = s.mem := by
  unfold countRetired
  split
  · simp
  · split <;> simp

@[simp] theorem release_mem (s op) : (release s op).mem = s.mem := by
  unfold release
  split <;> simp

@[simp] theorem sendRequest_mem (s op tag h a) : (sendRequest s op tag h a).mem = s.mem := by simp [sendRequest]

@[simp] theorem sentTag_mem (s tag) : (sentTag s tag).mem = s.mem := by
  unfold sentTag
  split <;> simp

@[simp] theorem sendRequestOn_mem (s op tag h p vc) : (sendRequestOn s op tag h p vc).mem = s.mem := by
  unfold sendRequestOn
  split <;> simp

@[simp] theorem issueOn_mem (s op b) : (issueOn s op b).mem = s.mem := by
  unfold issueOn
  dsimp only
  split <;> simp

@[simp] theorem cancelHeld_mem (s op) : (cancelHeld s op).mem = s.mem := by simp [cancelHeld]

@[simp] theorem taken_mem (s op) : (taken s op).mem = s.mem := by
  unfold taken
  split <;> simp

@[simp] theorem operationIssue_mem (id s) : (operationIssue id s).mem = s.mem := by
  unfold operationIssue
  split
  · rfl
  · iterate 6 (split; · simp)
    split
    · rfl
    · rename_i s1 op hm
      have hs1 : s1.mem = s.mem := withMessage_mem hm
      split
      · simp
      · split
        · rfl
        · split <;> simp [hs1]

@[simp] theorem trackingBlockClose_mem (b s) : (trackingBlockClose b s).mem = s.mem := by simp [trackingBlockClose]

@[simp] theorem trackingHoldExpiry_mem (b s) : (trackingHoldExpiry b s).mem = s.mem := by
  unfold trackingHoldExpiry
  dsimp only
  split <;> simp

@[simp] theorem holdAndIssue_mem (s op) : (holdAndIssue s op).mem = s.mem := by simp [holdAndIssue]

@[simp] theorem requestError_mem (chan addr s) : (requestError chan addr s).mem = s.mem := by simp [requestError]

@[simp] theorem apertureRead_mem (h atomic s) : (apertureRead h atomic s).mem = s.mem := by
  unfold apertureRead
  dsimp only
  iterate 3 (split; · simp)
  split <;> simp

@[simp] theorem apertureRun_mem (h side data poison s run) : (apertureRun h side data poison s run).mem = s.mem := by
  unfold apertureRun
  dsimp only
  split <;> simp

@[simp] theorem reportParity_mem (s h parity) : (reportParity s h parity).mem = s.mem := by simp [reportParity]

@[simp] theorem apertureWrite_mem (h atomic enables data parity s) :
    (apertureWrite h atomic enables data parity s).mem = s.mem := by
  unfold apertureWrite
  dsimp only
  iterate 3 (split; · simp)
  split
  · split <;> simp
  · split <;> simp

@[simp] theorem hostRequestError_mem (chan addr read thread s) : (hostRequestError chan addr read thread s).mem = s.mem := by simp [hostRequestError]

@[simp] theorem beginCutting_mem (s c m) : (beginCutting s c m).mem = s.mem := by simp [beginCutting]

@[simp] theorem acceptData_mem (s c num b wait) : (acceptData s c num b wait).mem = s.mem := by
  unfold acceptData
  split <;> simp

@[simp] theorem stageIn_memInv (c s) (h : MemInv s.mem) : MemInv (stageIn c s).mem := by
  unfold stageIn
  split
  · dsimp only
    split
    · exact h
    · exact accepting_memInv (fun t n b ht => by simpa using ht) h
  · exact h

@[simp] theorem stageInStart_mem (c num s) : (stageInStart c num s).mem = s.mem := by
  unfold stageInStart
  split <;> simp

@[simp] theorem stageInDeadline_mem (c num s) : (stageInDeadline c num s).mem = s.mem := by
  unfold stageInDeadline
  split <;> simp

theorem takeControl_memInv {s : State} {p : Nat} {b : BitVec 256} {ctype : Nat} {act : State → State}
    (ha : ∀ t, MemInv t.mem → MemInv (act t).mem) (h : MemInv s.mem) : MemInv (takeControl s p b ctype act).mem := by
  obtain e | e | e | ⟨-, e⟩ := takeControl_cases s p b ctype act
  · rwa [e]
  · rwa [e]
  · rwa [e]
  · rw [e]
    exact ha _ h

@[simp] theorem sendControl_mem (s p ctype body) : (sendControl s p ctype body).mem = s.mem := by simp [sendControl]

@[simp] theorem statusSoon_mem (s p) : (statusSoon s p).mem = s.mem := by simp [statusSoon]

@[simp] theorem sendRoutedNow_mem (s p b) : (sendRoutedNow s p b).mem = s.mem := by simp [sendRoutedNow]

@[simp] theorem sendReplayStart_mem (s p kind n) : (sendReplayStart s p kind n).mem = s.mem := by simp [sendReplayStart]

@[simp] theorem sendNak_mem (s p kind reason seqNr nvc) : (sendNak s p kind reason seqNr nvc).mem = s.mem := by simp [sendNak]

@[simp] theorem sendNumbered_mem (s p b) : (sendNumbered s p b).mem = s.mem := by simp [sendNumbered]

theorem nextNotice_mem {s t : State} {p : Nat} (h : nextNotice s p = some t) : t.mem = s.mem :=
  congrArg Prod.fst (memSide_nextNotice h)

theorem nextWaiting_mem {s t : State} {p : Nat} (h : nextWaiting s p = some t) : t.mem = s.mem :=
  congrArg Prod.fst (memSide_nextWaiting h)

@[simp] theorem drainControl_mem (a0 a1 a2) : (drainControl a0 a1 a2).mem = a1.mem := congrArg Prod.fst (memSide_drainControl ..)

@[simp] theorem afterData_mem (s p) : (afterData s p).mem = s.mem := by simp [afterData]

@[simp] theorem sendNotice_mem (s p nkind key collid card time arg) : (sendNotice s p nkind key collid card time arg).mem = s.mem := congrArg Prod.fst (memSide_sendNotice ..)

@[simp] theorem queueRouted_mem (s p b) : (queueRouted s p b).mem = s.mem := by simp [queueRouted]

@[simp] theorem forwardRouted_mem (s b inPort) : (forwardRouted s b inPort).mem = s.mem := by
  unfold forwardRouted
  split
  · simp
  · split <;> simp

@[simp] theorem ackNotices_mem (s p cack) : (ackNotices s p cack).mem = s.mem := by simp [ackNotices]

theorem takeNotice_memInv {s : State} {p : Nat} {b : BitVec 256} {act : State → State}
    (ha : ∀ t, MemInv t.mem → MemInv (act t).mem) (h : MemInv s.mem) : MemInv (takeNotice s p b act).mem := by
  refine takeControl_memInv (fun t ht => ?_) h
  dsimp only
  split
  · exact ha _ ht
  · split
    · exact ht
    · simpa using ht

@[simp] theorem applyGrant_mem (s node nctx gen g) : (applyGrant s node nctx gen g).mem = s.mem := by
  unfold applyGrant
  dsimp only
  split <;> simp

@[simp] theorem sendGrant_mem (s nctx src sinst) : (sendGrant s nctx src sinst).mem = s.mem := by
  unfold sendGrant
  dsimp only
  split <;> simp

@[simp] theorem raiseOne_mem (s k) : (raiseOne s k).mem = s.mem := by
  unfold raiseOne
  split <;> simp

@[simp] theorem raiseGrants_mem (s) : (raiseGrants s).mem = s.mem := by simp [raiseGrants]

@[simp] theorem creditAccepted_mem (s nctx src sinst units) : (creditAccepted s nctx src sinst units).mem = s.mem := by
  unfold creditAccepted
  dsimp only
  split <;> simp

theorem grantEntry_mem {s t : State} {nctx : Nat} {src : NodeId} {sinst key : Nat}
    (h : grantEntry s nctx src sinst key = some t) : t.mem = s.mem := by
  unfold grantEntry at h
  dsimp only at h
  split at h
  · cases h; rfl
  · split at h
    · cases h; rfl
    · split at h
      · cases h
      · cases h; rfl

@[simp] theorem grantCoalesceTimeout_mem (nctx src sinst s) : (grantCoalesceTimeout nctx src sinst s).mem = s.mem := by
  unfold grantCoalesceTimeout
  repeat' split
  all_goals simp

@[simp] theorem freeGrant_mem (s k) : (freeGrant s k).mem = s.mem := by simp [freeGrant]

@[simp] theorem grantEntryExpiry_mem (nctx src sinst s) : (grantEntryExpiry nctx src sinst s).mem = s.mem := by
  unfold grantEntryExpiry
  split <;> simp

@[simp] theorem freeGrantsOf_mem (s nctx) : (freeGrantsOf s nctx).mem = s.mem := by simp [freeGrantsOf]

@[simp] theorem grantTableFull_mem (s src nctx) : (grantTableFull s src nctx).mem = s.mem := by simp [grantTableFull]

@[simp] theorem answerProbe_mem (nctx src sinst s) : (answerProbe nctx src sinst s).mem = s.mem := by
  unfold answerProbe
  split <;> simp

@[simp] theorem sendSender_mem (s ctype node nctx x) : (sendSender s ctype node nctx x).mem = s.mem := by simp [sendSender]

@[simp] theorem senderEntryExpiry_mem (node nctx s) : (senderEntryExpiry node nctx s).mem = s.mem := by
  unfold senderEntryExpiry
  split <;> simp

@[simp] theorem creditProbeTimer_mem (id s) : (creditProbeTimer id s).mem = s.mem := by
  unfold creditProbeTimer
  split
  · simp
  · split <;> simp

theorem routedArrives_memInv {s : State} {b : BitVec 256} {inPort inst : Nat} {take : State → State}
    (ht : ∀ t, MemInv t.mem → MemInv (take t).mem) (h : MemInv s.mem) :
    MemInv (routedArrives s b inPort inst take).mem := by
  unfold routedArrives
  split
  · simpa using h
  · split
    · simpa using h
    · split
      · simpa using h
      · exact ht s h

@[simp] theorem takeGrant_mem (b s) : (takeGrant b s).mem = s.mem := by simp [takeGrant]

@[simp] theorem takeRelease_mem (b s) : (takeRelease b s).mem = s.mem := by simp [takeRelease]

@[simp] theorem takeProbe_mem (b s) : (takeProbe b s).mem = s.mem := by simp [takeProbe]

@[simp] theorem creditGrantReceive_memInv (p b s) (h : MemInv s.mem) : MemInv (creditGrantReceive p b s).mem :=
  takeControl_memInv (fun _ ht => routedArrives_memInv (fun u hu => by simpa [takeGrant] using hu) ht) h

@[simp] theorem creditReleaseReceive_memInv (p b s) (h : MemInv s.mem) : MemInv (creditReleaseReceive p b s).mem :=
  takeControl_memInv (fun _ ht => routedArrives_memInv (fun u hu => by simpa [takeRelease] using hu) ht) h

@[simp] theorem creditProbeReceive_memInv (p b s) (h : MemInv s.mem) : MemInv (creditProbeReceive p b s).mem :=
  takeControl_memInv (fun _ ht => routedArrives_memInv (fun u hu => by simpa [takeProbe] using hu) ht) h

@[simp] theorem answerTag_mem (s tag round st data poison unc syn) : (answerTag s tag round st data poison unc syn).mem = s.mem := by
  unfold answerTag
  split <;> simp

@[simp] theorem respond_mem (s h loop st payload poison unc) : (respond s h loop st payload poison unc).mem = s.mem := by
  unfold respond
  repeat' split
  all_goals simp

@[simp] theorem sendAccum_mem (s a) : (sendAccum s a).mem = s.mem := by simp [sendAccum]

@[simp] theorem gatherAck_mem (s h) : (gatherAck s h).mem = s.mem := by
  unfold gatherAck
  split <;> simp

@[simp] theorem acknowledge_mem (s h loop st unc) : (acknowledge s h loop st unc).mem = s.mem := by simp [acknowledge]

@[simp] theorem writeAckCoalesceTimeout_mem (id s) : (writeAckCoalesceTimeout id s).mem = s.mem := by
  unfold writeAckCoalesceTimeout
  split <;> simp

@[simp] theorem notifyNow_mem (s nctx nctr key) : (notifyNow s nctx nctr key).1.mem = s.mem := by
  unfold notifyNow
  split <;> simp

@[simp] theorem messageArrives_mem (s h) : (messageArrives s h).mem = s.mem := by simp [messageArrives]

@[simp] theorem messageGains_mem (s h unc) : (messageGains s h unc).1.mem = s.mem := by
  unfold messageGains
  dsimp only
  repeat' split
  all_goals simp

@[simp] theorem messageEntryExpiry_mem (src sinst msgid s) : (messageEntryExpiry src sinst msgid s).mem = s.mem := by
  unfold messageEntryExpiry
  split <;> simp

@[simp] theorem refuseRequest_mem (s x st) : (refuseRequest s x st).mem = s.mem := by simp [refuseRequest]

@[simp] theorem lend_mem (s x node window off) : (lend s x node window off).mem = s.mem := by
  unfold lend
  dsimp only
  split <;> simp

@[simp] theorem openAccess_mem (s x kind p data unc) : (openAccess s x kind p data unc).mem = s.mem := by rfl

theorem serveBy_memInv {s : State} {id op : Nat} {fails : State → Pkt → Status → State}
    {lent : State → Pkt → NodeId → Nat → Nat → State} {here : State → Pkt → Place → State}
    (hf : ∀ t x st, MemInv t.mem → MemInv (fails t x st).mem)
    (hl : ∀ t x n w o, MemInv t.mem → MemInv (lent t x n w o).mem)
    (hh : ∀ t x p, MemInv t.mem → MemInv (here t x p).mem) (h : MemInv s.mem) :
    MemInv (serveBy s id op fails lent here).mem := by
  unfold serveBy
  split
  · exact h
  · split
    · exact h
    · split
      · exact hf _ _ _ h
      · split
        · exact h
        · exact hl _ _ _ _ _ h
      · exact hh _ _ _ h

theorem serve_memInv {s : State} {id op : Nat} {here : State → Pkt → Place → State}
    (hh : ∀ t x p, MemInv t.mem → MemInv (here t x p).mem) (h : MemInv s.mem) : MemInv (serve s id op here).mem :=
  serveBy_memInv (fun _ _ _ ht => by simpa using ht) (fun _ _ _ _ _ ht => by simpa using ht) hh h

@[simp] theorem loadRequest_memInv (id s) (h : MemInv s.mem) : MemInv (loadRequest id s).mem :=
  serve_memInv (fun _ _ _ ht => by split <;> simpa using ht) h

theorem creditEntry_mem {s t : State} {x : BitVec 256} (h : creditEntry s x = some t) : t.mem = s.mem := by
  unfold creditEntry at h
  split at h
  · exact grantEntry_mem h
  · cases h; rfl

@[simp] theorem refuseCredited_mem (s x) : (refuseCredited s x).mem = s.mem := by simp [refuseCredited]

theorem storeArrives_memInv {s : State} {x : Pkt} {go : State → State} (hg : ∀ t, MemInv t.mem → MemInv (go t).mem)
    (h : MemInv s.mem) : MemInv (storeArrives s x go).mem := by
  unfold storeArrives
  dsimp only
  split
  · simpa using h
  · rename_i hc
    exact hg _ (by simpa [creditEntry_mem hc] using h)

@[simp] theorem lendStore_mem (s x node window off) : (lendStore s x node window off).mem = s.mem := by
  unfold lendStore
  dsimp only
  split
  · simp
  · rename_i hc
    simp [creditEntry_mem hc]

@[simp] theorem storeRequest_memInv (id s) (h : MemInv s.mem) : MemInv (storeRequest id s).mem := by
  refine serveBy_memInv (fun t x st ht => storeArrives_memInv (fun u hu => by simpa using hu) ht)
    (fun _ _ _ _ _ ht => by simpa using ht) (fun t x p ht => ?_) h
  split
  · exact ht
  · exact storeArrives_memInv (fun u hu => by simpa using hu) ht

@[simp] theorem unitCount_mem (s u sub n) : (unitCount s u sub n).mem = s.mem := congrArg Prod.fst (memSide_unitCount ..)

@[simp] theorem settlePress_mem (s n) : (settlePress s n).mem = s.mem := congrArg Prod.fst (memSide_settlePress ..)

@[simp] theorem enqueueUnit_mem (s n r paced) : (enqueueUnit s n r paced).mem = s.mem := congrArg Prod.fst (memSide_enqueueUnit ..)

@[simp] theorem atomicRequest_memInv (id op s) (h : MemInv s.mem) : MemInv (atomicRequest id op s).mem := by
  refine serve_memInv (fun t x p ht => ?_) h
  iterate 3 (split; · simpa using ht)
  simpa using ht

@[simp] theorem notifyRequest_mem (id s) : (notifyRequest id s).mem = s.mem := by
  unfold notifyRequest
  split <;> simp

@[simp] theorem parityFault_mem (s addr h parity) : (parityFault s addr h parity).mem = s.mem := by simp [parityFault]

@[simp] theorem countPoison_mem (s p) : (countPoison s p).mem = s.mem := by simp [countPoison]

@[simp] theorem closeAccess_mem (s a) : (closeAccess s a).mem = s.mem := by
  unfold closeAccess
  split <;> simp

@[simp] theorem loadAccepted_mem (s a parity) : (loadAccepted s a parity).mem = s.mem := by simp [loadAccepted]

theorem takeResponse_memInv {s : State} {id op : Nat} {act : State → Pkt → State}
    (ha : ∀ t x, MemInv t.mem → MemInv (act t x).mem) (h : MemInv s.mem) : MemInv (takeResponse s id op act).mem := by
  unfold takeResponse
  split
  · exact h
  · dsimp only
    split
    · simpa using h
    · exact ha _ _ (by simpa using h)

@[simp] theorem answerFrom_mem (s x) : (answerFrom s x).mem = s.mem := by
  unfold answerFrom
  dsimp only
  split <;> simp

@[simp] theorem answerMap_mem (s h) : (answerMap s h).mem = s.mem := by simp [answerMap]

@[simp] theorem openLine_mem (s u line) : (openLine s u line).mem = s.mem := by rfl

theorem memInv_writeMarked {m : Memory} (addr : Nat) (data : Bytes) (poison : BitVec 8) (h : MemInv m) :
    MemInv (writeMarked m addr data poison) := by
  have hfold (l : List Nat) (f : Memory → Nat → Memory) (hf : ∀ n k, MemInv n → MemInv (f n k)) :
      ∀ n, MemInv n → MemInv (l.foldl f n) := by
    induction l with
    | nil => exact fun _ hn => hn
    | cons k r ih => exact fun n hn => ih _ (hf n k hn)
  refine hfold _ _ (fun n k hn => ?_) _ (memInv_memWrite _ _ h)
  dsimp only
  split
  · exact memInv_memPoison _ _ hn
  · split
    · exact memInv_memPoison _ _ hn
    · exact hn

@[simp] theorem closeLine_memInv (s u line) (h : MemInv s.mem) : MemInv (closeLine s u line).mem := by
  unfold closeLine
  split
  · exact h
  · dsimp only
    split
    · exact memInv_writeMarked _ _ _ (by simpa using h)
    · simpa using h

@[simp] theorem closeLines_memInv (s u) (h : MemInv s.mem) : MemInv (closeLines s u).mem := by simp +contextual [closeLines, h]

@[simp] theorem closeIdle_memInv (s u line) (h : MemInv s.mem) : MemInv (closeIdle s u line).mem := by simp [closeIdle, h]

@[simp] theorem lineHoldExpiry_memInv (u line s) (h : MemInv s.mem) : MemInv (lineHoldExpiry u line s).mem := by
  unfold lineHoldExpiry
  repeat' split
  all_goals simp [h]

@[simp] theorem updLines_mem (s u f) : (updLines s u f).mem = s.mem := by rfl

theorem unitWrite_memInv {s : State} {u : Nat} {write : Memory → Memory} {addr len : Nat}
    (hw : ∀ m, MemInv m → MemInv (write m)) (h : MemInv s.mem) : MemInv (unitWrite s u write addr len).mem := by
  simpa [unitWrite] using hw _ h

@[simp] theorem setTrimmed_mem (s u v) : (setTrimmed s u v).mem = s.mem := by rfl

@[simp] theorem tellUnit_mem (s u) : (tellUnit s u).mem = s.mem := by simp [tellUnit]

@[simp] theorem scheduleFreq_mem (s u t) : (scheduleFreq s u t).mem = s.mem := by simp [scheduleFreq]

@[simp] theorem frequencyChange_memInv (u s) (h : MemInv s.mem) : MemInv (frequencyChange u s).mem := by
  unfold frequencyChange
  split <;> simp [h]

@[simp] theorem answerAtomic_mem (s h loop st old) : (answerAtomic s h loop st old).mem = s.mem := by simp [answerAtomic]

@[simp] theorem putWord_memInv (s u addr v) (h : MemInv s.mem) : MemInv (putWord s u addr v).mem := by
  unfold putWord
  split
  · simpa using h
  · exact memInv_memWrite _ _ h

@[simp] theorem runAtomic_memInv (s u hd addr len args bad loop l) (h : MemInv s.mem) :
    MemInv (runAtomic s u hd addr len args bad loop l).mem := by
  unfold runAtomic
  dsimp only
  split
  · simpa using h
  · split
    · simpa using h
    · simp [h]

@[simp] theorem atomicExecute_memInv (n s) (h : MemInv s.mem) : MemInv (atomicExecute n s).mem := by
  unfold atomicExecute
  dsimp only
  split
  · split
    · exact h
    · split
      · exact h
      · exact closeIdle_memInv _ _ _ (runAtomic_memInv _ _ _ _ _ _ _ _ _ (by simpa using h))
  · exact h

@[simp] theorem putColl_mem (s c x) : (putColl s c x).mem = s.mem := by rfl

@[simp] theorem updColl_mem (s c f) : (updColl s c f).mem = s.mem := congrArg Prod.fst (memSide_updColl ..)

@[simp] theorem startLmc_mem (s p cmd arg) : (startLmc s p cmd arg).mem = s.mem := by simp [startLmc]

@[simp] theorem sliceResult_mem (s l r) : (sliceResult s l r).mem = s.mem := by rfl

@[simp] theorem abandonSlice_mem (s p cut) : (abandonSlice s p cut).mem = s.mem := congrArg Prod.fst (memSide_abandonSlice ..)

@[simp] theorem noticeOn_mem (s x nkind time arg but) : (noticeOn s x nkind time arg but).mem = s.mem := congrArg Prod.fst (memSide_noticeOn ..)

@[simp] theorem markPort_mem (on s p) : (markPort on s p).mem = s.mem := congrArg Prod.fst (memSide_markPort ..)

@[simp] theorem remark_mem (s) : (remark s).mem = s.mem := by simp [remark]

@[simp] theorem setLag_mem (s c src lag time always) : (setLag s c src lag time always).mem = s.mem := congrArg Prod.fst (memSide_setLag ..)

@[simp] theorem driftColl_mem (s c) : (driftColl s c).mem = s.mem := congrArg Prod.fst (memSide_driftColl ..)

@[simp] theorem originateDrift_mem (s) : (originateDrift s).mem = s.mem := congrArg Prod.fst (memSide_originateDrift ..)

@[simp] theorem pressEnded_mem (u before after) : (pressEnded u before after).mem = after.mem := by
  unfold pressEnded
  split <;> simp

@[simp] theorem scramble_memInv (s r) (h : MemInv s.mem) : MemInv (scramble s r).mem := memInv_memWrite _ _ h

@[simp] theorem dropWaiting_mem (s c x) : (dropWaiting s c x).mem = s.mem := congrArg Prod.fst (memSide_dropWaiting ..)

@[simp] theorem endColl_mem (s c st) : (endColl s c st).mem = s.mem := by
  unfold endColl
  dsimp only
  split
  · simp
  · split <;> simp

@[simp] theorem undefinedResult_memInv (s x) (h : MemInv s.mem) : MemInv (undefinedResult s x).mem := by
  unfold undefinedResult
  split
  · exact h
  · exact foldl_memInv scramble_memInv _ _ h

@[simp] theorem settleAbort_memInv (s c) (h : MemInv s.mem) : MemInv (settleAbort s c).mem := by
  unfold settleAbort
  split
  · split
    · split
      · exact h
      · simpa using undefinedResult_memInv _ _ h
    · exact h
  · exact h

@[simp] theorem dropCollData_mem (s c y) : (dropCollData s c y).mem = s.mem := by
  unfold dropCollData
  rw [foldl_mem (fun _ _ => by simp)]
  simp

@[simp] theorem abortColl_memInv (s c st own) (h : MemInv s.mem) : MemInv (abortColl s c st own).mem := by
  unfold abortColl
  split
  · exact h
  · dsimp only
    split
    · exact h
    · exact settleAbort_memInv _ _ (by split <;> simpa using h)

@[simp] theorem abortWhere_memInv (s cause st) (h : MemInv s.mem) : MemInv (abortWhere s cause st).mem :=
  foldl_memInv (fun t c ht => abortColl_memInv t c st true ht) _ _ h

@[simp] theorem abortPort_memInv (s p) (h : MemInv s.mem) : MemInv (abortPort s p).mem := by simp [abortPort, h]

@[simp] theorem abortContext_memInv (s c) (h : MemInv s.mem) : MemInv (abortContext s c).mem := by simp [abortContext, h]

@[simp] theorem abortNode_memInv (s n) (h : MemInv s.mem) : MemInv (abortNode s n).mem := by simp [abortNode, h]

@[simp] theorem adoptData_mem (s c key collid) : (adoptData s c key collid).mem = s.mem := by rfl

@[simp] theorem leadColl_mem (s c x) : (leadColl s c x).mem = s.mem := by
  unfold leadColl
  split <;> simp

@[simp] theorem joinColl_memInv (s c x p b) (h : MemInv s.mem) : MemInv (joinColl s c x p b).mem := by
  unfold joinColl
  split
  · exact abortColl_memInv _ _ _ _ h
  · split
    · exact abortColl_memInv _ _ _ _ (by simpa using h)
    · simpa using h

@[simp] theorem dropPend_mem (s key collid) : (dropPend s key collid).mem = s.mem := by rfl

@[simp] theorem enterColl_memInv (s c num b e) (h : MemInv s.mem) : MemInv (enterColl s c num b e).mem := by
  unfold enterColl
  dsimp only
  split
  · simpa using h
  · split
    · split
      · exact joinColl_memInv _ _ _ _ _ (by simpa using h)
      · simpa using h
    · simpa using h

@[simp] theorem acceptColl_memInv (c type s) (h : MemInv s.mem) : MemInv (acceptColl c type s).mem := by
  unfold acceptColl
  split
  · exact h
  · refine accepting_memInv (fun t n b ht => ?_) h
    split
    · simpa using ht
    · split
      · simpa using ht
      · exact enterColl_memInv _ _ _ _ _ ht

@[simp] theorem updFig_mem (s c f card g) : (updFig s c f card g).mem = s.mem := congrArg Prod.fst (memSide_updFig ..)

theorem ownDrop_mem {s t : State} {who : Option Nat} {q : Nat} {h : BitVec 256} (ht : ownDrop s who q h = some t) :
    t.mem = s.mem := by
  unfold ownDrop at ht
  split at ht
  · cases ht; simp
  · split at ht
    · cases ht; simp
    · cases ht

@[simp] theorem sendColl_mem (s c f q h payload) : (sendColl s c f q h payload).mem = s.mem := congrArg Prod.fst (memSide_sendColl ..)

@[simp] theorem notePoison_mem (s c bad) : (notePoison s c bad).mem = s.mem := congrArg Prod.fst (memSide_notePoison ..)

theorem placeCopies_mem {s t : State} {c f : Nat} {ports : List Nat} {h : Nat → BitVec 256} {payload : Bytes}
    (ht : placeCopies s c f ports h payload = some t) : t.mem = s.mem := by
  unfold placeCopies at ht
  split at ht
  · cases ht
    exact foldl_mem (fun _ _ => by simp) _ _
  · cases ht

theorem sendPiece_memInv {s t : State} {c f : Nat} {x : Coll} {card : Card} {p : Place3}
    (h : MemInv s.mem) (ht : sendPiece s c f x card p = some t) : MemInv t.mem := by
  unfold sendPiece at ht
  dsimp only at ht
  split at ht
  · cases ht; simpa using h
  · split at ht
    · rw [placeCopies_mem ht]; exact h
    · split at ht
      · split at ht
        · cases ht
        · split at ht
          · rename_i hd
            cases ht
            simpa [ownDrop_mem hd] using h
          · split at ht
            · cases ht; simpa using h
            · cases ht
      · split at ht
        · cases ht
        · split at ht
          · cases ht; exact abortColl_memInv _ _ _ _ h
          · split at ht
            · cases ht
            · rename_i hp
              cases ht
              split <;> simpa [placeCopies_mem hp] using h

@[simp] theorem sendNext_memInv (c s f) (h : MemInv s.mem) : MemInv (sendNext c s f).mem := by
  unfold sendNext
  split
  · exact h
  · split
    · exact h
    · dsimp only
      split
      · exact h
      · split
        · exact h
        · rename_i hp
          simpa using sendPiece_memInv h hp

theorem enqueueParts_mem {s t : State} {c f : Nat} {p : Place3} {per : Nat} {l : List (Nat × Nat × Nat)}
    (ht : enqueueParts s c f p per l = some t) : t.mem = s.mem := by
  induction l generalizing s with
  | nil => cases ht; rfl
  | cons x r ih =>
    unfold enqueueParts at ht
    split at ht
    · rw [ih ht]; simp
    · cases ht

theorem dispatch_mem {s t : State} {c f : Nat} {x : Coll} {card : Card} {p : Place3}
    (ht : dispatch s c f x card p = .done t) : t.mem = s.mem := by
  unfold dispatch at ht
  dsimp only at ht
  split at ht
  · cases ht
  · split at ht
    · cases ht
    · split at ht
      · cases ht
      · split at ht
        · cases ht
        · rename_i hp
          cases ht
          simp [enqueueParts_mem hp]

@[simp] theorem localNext_memInv (c s f) (h : MemInv s.mem) : MemInv (localNext c s f).mem := by
  unfold localNext
  split
  · exact h
  · split
    · exact h
    · dsimp only
      split
      · exact h
      · split
        · simpa using h
        · split
          · exact h
          · exact abortColl_memInv _ _ _ _ h
          · rename_i hd
            rw [dispatch_mem hd]
            exact h

@[simp] theorem pumpColl_memInv (s c) (h : MemInv s.mem) : MemInv (pumpColl s c).mem := by
  unfold pumpColl
  split
  · exact h
  · split
    · exact h
    · split
      · exact foldl_memInv (fun t f ht => localNext_memInv c _ f (sendNext_memInv c t f ht)) _ _ h
      · exact h

@[simp] theorem pumpAll_memInv (s) (h : MemInv s.mem) : MemInv (pumpAll s).mem :=
  foldl_memInv (fun t c ht => pumpColl_memInv t c ht) _ _ h

@[simp] theorem makeReady_mem (s c f x card k p payload poison) : (makeReady s c f x card k p payload poison).mem = s.mem := by rfl

@[simp] theorem releaseRaw_mem (s k) : (releaseRaw s k).mem = s.mem := congrArg Prod.fst (memSide_releaseRaw ..)

@[simp] theorem takeData_memInv (s c k) (h : MemInv s.mem) : MemInv (takeData s c k).mem := by
  unfold takeData
  split
  · exact h
  · split
    · simpa using h
    · split
      · exact h
      · split
        · simpa using h
        · dsimp only
          split
          · exact h
          · split
            · simpa using h
            · split
              · exact h
              · split
                · exact pumpColl_memInv _ _ (by simpa using h)
                · split
                  · split <;> exact pumpColl_memInv _ _ (by simpa using h)
                  · split
                    · exact h
                    · exact abortColl_memInv _ _ _ _ (by simpa using h)
                    · rename_i hd
                      exact pumpColl_memInv _ _ (by simpa [dispatch_mem hd] using h)

@[simp] theorem collReceive_memInv (id op s) (h : MemInv s.mem) : MemInv (collReceive id op s).mem := by
  unfold collReceive
  split <;> simp [h]

@[simp] theorem mcastReceive_memInv (id s) (h : MemInv s.mem) : MemInv (mcastReceive id s).mem := by
  unfold mcastReceive
  split
  · exact h
  · dsimp only
    split
    · iterate 2 (split; · simpa using h)
      split
      · simpa using h
      · exact collReceive_memInv _ _ _ h
      · iterate 2 (split; · simpa using h)
        split
        · exact h
        · exact collReceive_memInv _ _ _ (by simpa using h)
    · split
      · exact collReceive_memInv _ _ _ h
      · exact h

@[simp] theorem tokenReceive_memInv (id s) (h : MemInv s.mem) : MemInv (tokenReceive id s).mem := by
  unfold tokenReceive
  split <;> simp [h]

@[simp] theorem progress_mem (s c f card) : (progress s c f card).mem = s.mem := congrArg Prod.fst (memSide_progress ..)

@[simp] theorem finishPiece_mem (s c f card p) : (finishPiece s c f card p).mem = s.mem := congrArg Prod.fst (memSide_finishPiece ..)

@[simp] theorem countDown_mem (s c f card p comb land) : (countDown s c f card p comb land).mem = s.mem := congrArg Prod.fst (memSide_countDown ..)

@[simp] theorem passPiece_mem (s u c f card p) : (passPiece s u c f card p).mem = s.mem := congrArg Prod.fst (memSide_passPiece ..)

theorem memInv_landMemory {m : Memory} (addr size : Nat) (bytes : Bytes) (marks : List Bool) (h : MemInv m) :
    MemInv (landMemory m addr size bytes marks) := by
  have hfold (l : List Nat) (f : Memory → Nat → Memory) (hf : ∀ n k, MemInv n → MemInv (f n k)) :
      ∀ n, MemInv n → MemInv (l.foldl f n) := by
    induction l with
    | nil => exact fun _ hn => hn
    | cons k r ih => exact fun n hn => ih _ (hf n k hn)
  refine hfold _ _ (fun n k hn => ?_) _ (memInv_memWrite _ _ h)
  dsimp only
  split
  · exact memInv_memPoison _ _ hn
  · split
    · exact memInv_memPoison _ _ hn
    · exact hn

@[simp] theorem landPart_memInv (s u c f x p e n vals marks) (h : MemInv s.mem) :
    MemInv (landPart s u c f x p e n vals marks).mem := by
  unfold landPart
  split
  · exact abortColl_memInv _ _ _ _ h
  · dsimp only
    rw [unitCount_mem]
    exact unitWrite_memInv (fun m hm => memInv_landMemory _ _ _ _ hm) h

@[simp] theorem combinePart_memInv (s u c f x card p lo n) (h : MemInv s.mem) :
    MemInv (combinePart s u c f x card p lo n).mem := by
  unfold combinePart
  dsimp only
  split
  · exact abortColl_memInv _ _ _ _ (by simpa using h)
  · rename_i s1 v m hres
    have hs1 : s1.mem = s.mem := by
      split at hres
      · cases hres; simp
      · split at hres
        · cases hres
        · cases hres; simp
    refine pumpColl_memInv _ _ ?_
    simp only [finishPiece_mem, passPiece_mem, countDown_mem]
    split
    · exact landPart_memInv _ _ _ _ _ _ _ _ _ _ (by split <;> simpa [hs1] using h)
    · split <;> simpa [hs1] using h

@[simp] theorem noteTaken_mem (s n bytes) : (noteTaken s n bytes).mem = s.mem := by rfl

@[simp] theorem reductionCombine_memInv (n s) (h : MemInv s.mem) : MemInv (reductionCombine n s).mem := by
  unfold reductionCombine
  dsimp only
  split
  · split
    · exact h
    · split
      · split
        · exact combinePart_memInv _ _ _ _ _ _ _ _ _ (by simpa using h)
        · simpa using h
      · simpa using h
  · exact h

@[simp] theorem landAccepted_memInv (s a) (h : MemInv s.mem) : MemInv (landAccepted s a).mem := by
  unfold landAccepted
  split
  · dsimp only
    split
    · simpa using h
    · split
      · exact settleAbort_memInv _ _ (by simpa using h)
      · split
        · exact pumpColl_memInv _ _ (by simpa using h)
        · simpa using h
  · exact h

@[simp] theorem chartAccepted_memInv (s a) (h : MemInv s.mem) : MemInv (chartAccepted s a).mem :=
  memInv_writeMarked _ _ _ h

@[simp] theorem storeAccepted_memInv (s a) (h : MemInv s.mem) : MemInv (storeAccepted s a).mem := by
  have h1 : MemInv { closeAccess s a with mem := writeMarked s.mem a.addr a.data a.poison }.mem :=
    memInv_writeMarked _ _ _ h
  unfold storeAccepted
  simpa using h1

theorem plainAccess_memInv {s : State} {a : Access} {act : State → State}
    (ha : ∀ t, MemInv t.mem → MemInv (act t).mem) (h : MemInv s.mem) : MemInv (plainAccess s a act).mem := by
  unfold plainAccess
  split
  · exact scramble_memInv _ _ (ha _ (scramble_memInv _ _ h))
  · exact ha _ h

@[simp] theorem memoryAccept_memInv (id parity s) (h : MemInv s.mem) : MemInv (memoryAccept id parity s).mem := by
  unfold memoryAccept
  split
  · exact h
  · split
    · split
      · exact h
      · exact plainAccess_memInv (fun t ht => by simpa using ht) h
    · split
      · exact h
      · exact plainAccess_memInv (fun t ht => storeAccepted_memInv _ _ ht) h
    · split
      · exact h
      · exact chartAccepted_memInv _ _ h
    · exact landAccepted_memInv _ _ h

@[simp] theorem collectiveStart_memInv (c s) (h : MemInv s.mem) : MemInv (collectiveStart c s).mem := by
  unfold collectiveStart
  split
  · exact h
  · split
    · split
      · exact h
      · split
        · exact abortColl_memInv _ _ _ _ h
        · exact pumpColl_memInv _ _ (by simpa using h)
    · exact h

@[simp] theorem collectiveComplete_mem (c s) : (collectiveComplete c s).mem = s.mem := by
  unfold collectiveComplete
  split <;> simp

@[simp] theorem setBooked_mem (s l) : (setBooked s l).mem = s.mem := by rfl

@[simp] theorem beginFrame_mem (s f) : (beginFrame s f).mem = s.mem := by rfl

@[simp] theorem frameTurn_mem (s f) : (frameTurn s f).mem = s.mem := by simp [frameTurn]

@[simp] theorem sendFrames_mem (s) : (sendFrames s).mem = s.mem := by simp [sendFrames]

@[simp] theorem bookLines_mem (s tRel step plan late coll) : (bookLines s tRel step plan late coll).mem = s.mem := by rfl

@[simp] theorem releaseLines_mem (s c) : (releaseLines s c).mem = s.mem := by
  unfold releaseLines
  split
  · simp
  · split <;> simp

@[simp] theorem learnRelease_mem (s c x t) : (learnRelease s c x t).mem = s.mem := by simp [learnRelease]

@[simp] theorem barrierFiguresComplete_mem (c s) : (barrierFiguresComplete c s).mem = s.mem := by
  unfold barrierFiguresComplete
  split <;> simp

@[simp] theorem barrierRelease_mem (c s) : (barrierRelease c s).mem = s.mem := by
  unfold barrierRelease
  dsimp only
  split <;> simp

@[simp] theorem cascadeReleaseReceive_mem (tRel step ramp s) : (cascadeReleaseReceive tRel step ramp s).mem = s.mem := by simp [cascadeReleaseReceive]

theorem noticeOf_memInv {kind p : Nat} {b : BitVec 256} {act : State → State} {s : State}
    (ha : ∀ t, MemInv t.mem → MemInv (act t).mem) (h : MemInv s.mem) : MemInv (noticeOf kind p b act s).mem := by
  unfold noticeOf
  split
  · exact h
  · refine takeNotice_memInv (fun t ht => ?_) h
    split
    · simpa using ht
    · exact ha t ht

@[simp] theorem discardPend_mem (s) : (discardPend s).mem = s.mem := by
  unfold discardPend
  split <;> simp

@[simp] theorem addPend_mem (s q) : (addPend s q).mem = s.mem := by simp [addPend]

@[simp] theorem announceNotice_memInv (p b s) (h : MemInv s.mem) : MemInv (announceNotice p b s).mem := by
  unfold announceNotice
  split
  · split
    · split
      · exact h
      · exact joinColl_memInv _ _ _ _ _ h
    · exact h
  · split
    · split
      · simpa using h
      · exact h
    · simpa using h

@[simp] theorem driftNotice_mem (p b s) : (driftNotice p b s).mem = s.mem := by
  unfold driftNotice
  split <;> simp

@[simp] theorem abortNotice_memInv (b s) (h : MemInv s.mem) : MemInv (abortNotice b s).mem := by
  unfold abortNotice
  split <;> simp [h]

@[simp] theorem releaseNotice_mem (p b s) : (releaseNotice p b s).mem = s.mem := by
  unfold releaseNotice
  repeat' split
  all_goals simp

@[simp] theorem callerNoticeDiscard_memInv (p b s) (h : MemInv s.mem) : MemInv (callerNoticeDiscard p b s).mem := by
  unfold callerNoticeDiscard
  split
  · exact takeNotice_memInv (fun t ht => by simpa using ht) h
  · exact h

@[simp] theorem backpressureDrift_mem (u s) : (backpressureDrift u s).mem = s.mem := by
  unfold backpressureDrift
  split <;> simp

@[simp] theorem setCard_mem (s slot card) : (setCard s slot card).mem = s.mem := by simp [setCard]

@[simp] theorem applyCard_memInv (slot card s) (h : MemInv s.mem) : verdictMemInv (applyCard slot card s) := by simp [applyCard, h]

@[simp] theorem applyCardClear_memInv (slot s) (h : MemInv s.mem) : verdictMemInv (applyCardClear slot s) := by simp [applyCardClear, h]

@[simp] theorem owe_mem (s h) : (owe s h).mem = s.mem := by simp [owe]

@[simp] theorem sendSynthetic_mem (s x st) : (sendSynthetic s x st).mem = s.mem := by
  unfold sendSynthetic
  dsimp only
  split
  · simp
  · split <;> simp

@[simp] theorem noRouteDrop_mem (s x) : (noRouteDrop s x).mem = s.mem := by simp [noRouteDrop]

@[simp] theorem pendData_mem (s h a) : (pendData s h a).mem = s.mem := by simp [pendData]

@[simp] theorem takeIn_mem (s p h payload a) : (takeIn s p h payload a).mem = s.mem := by simp [takeIn]

@[simp] theorem passHome_mem (s x) : (passHome s x).mem = s.mem := by
  unfold passHome
  repeat' split
  all_goals simp

theorem takeBus_mem {s t : State} {p : Nat} {x : Pkt} (ht : takeBus s p x = some t) : t.mem = s.mem := by
  unfold takeBus at ht
  dsimp only at ht
  split at ht
  · split at ht
    · cases ht
    · cases ht; simp
  · obtain ⟨a, -, rfl⟩ := Option.map_eq_some_iff.mp ht
    simp

@[simp] theorem leaveWaiting_mem (s x) : (leaveWaiting s x).mem = s.mem := by
  unfold leaveWaiting
  split
  · split
    · rfl
    · cases hb : takeBus (dropPkt s x.id) _ x with
      | none => rfl
      | some t => simp [takeBus_mem hb]
  · split <;> simp

@[simp] theorem respondHere_mem (s x) : (respondHere s x).mem = s.mem := by simp [respondHere]

@[simp] theorem takeHop_mem (s x q vc moved) : (takeHop s x q vc moved).mem = s.mem := by
  unfold takeHop
  dsimp only
  repeat' split
  all_goals simp

@[simp] theorem routePkt_mem (s x) : (routePkt s x).mem = s.mem := by
  unfold routePkt
  iterate 4 (split; · simp)
  dsimp only
  split <;> simp

@[simp] theorem packetRoute_mem (id s) : (packetRoute id s).mem = s.mem := by
  unfold packetRoute
  split <;> simp

@[simp] theorem escapeTimeExpiry_mem (id s) : (escapeTimeExpiry id s).mem = s.mem := by
  unfold escapeTimeExpiry
  split <;> simp

@[simp] theorem keepHere_mem (s x) : (keepHere s x).mem = s.mem := by
  unfold keepHere
  split <;> simp

@[simp] theorem loseOnLink_mem (s x) : (loseOnLink s x).mem = s.mem := by simp [loseOnLink]

@[simp] theorem restartLanes_mem (s p off) : (restartLanes s p off).mem = s.mem := by simp [restartLanes]

@[simp] theorem reportDown_mem (s p node cause reason) : (reportDown s p node cause reason).mem = s.mem := by simp [reportDown]

@[simp] theorem degradeHome_mem (s p) : (degradeHome s p).mem = s.mem := by rfl

@[simp] theorem linkDown_memInv (s p cause reason) (h : MemInv s.mem) : MemInv (linkDown s p cause reason).mem := by
  unfold linkDown
  dsimp only
  split <;> simp [h]

@[simp] theorem sendPacket_mem (s p h payload) : (sendPacket s p h payload).mem = s.mem := by simp [sendPacket]

@[simp] theorem againData_mem (s p n) : (againData s p n).mem = s.mem := by simp [againData]

@[simp] theorem replayData_mem (s p n) : (replayData s p n).mem = s.mem := by simp [replayData]

@[simp] theorem againNotices_mem (s p n) : (againNotices s p n).mem = s.mem := by rfl

@[simp] theorem replayNotices_mem (s p n) : (replayNotices s p n).mem = s.mem := by simp [replayNotices]

@[simp] theorem replayDue_memInv (s p n) (h : MemInv s.mem) : MemInv (replayDue s p n).mem := by simp [replayDue, h]

@[simp] theorem noticesDue_memInv (s p n) (h : MemInv s.mem) : MemInv (noticesDue s p n).mem := by simp [noticesDue, h]

@[simp] theorem acknowledged_mem (s x) : (acknowledged s x).mem = s.mem := by simp [acknowledged]

@[simp] theorem ackData_mem (s p d) : (ackData s p d).mem = s.mem := by simp [ackData]

@[simp] theorem reportShort_mem (s p before) : (reportShort s p before).mem = s.mem := by simp [reportShort]

@[simp] theorem withHeadroom_mem (s p f) : (withHeadroom s p f).mem = (f s).mem := by
  unfold withHeadroom
  dsimp only
  split <;> simp

@[simp] theorem takeStamp_mem (s p b at_) : (takeStamp s p b at_).mem = s.mem := by simp [takeStamp]

@[simp] theorem noteXoff_mem (s p mask) : (noteXoff s p mask).mem = s.mem := by rfl

@[simp] theorem linkStatusReceive_memInv (p b s) (h : MemInv s.mem) : MemInv (linkStatusReceive p b s).mem := by
  unfold linkStatusReceive
  refine takeControl_memInv (fun t ht => ?_) h
  simp [ht]

@[simp] theorem linkStatusTimer_mem (p s) : (linkStatusTimer p s).mem = s.mem := by simp [linkStatusTimer]

@[simp] theorem nakReceive_memInv (p b s) (h : MemInv s.mem) : MemInv (nakReceive p b s).mem := by
  unfold nakReceive
  refine takeControl_memInv (fun t ht => ?_) h
  simp [ht]

@[simp] theorem replayStartReceive_memInv (p b s) (h : MemInv s.mem) : MemInv (replayStartReceive p b s).mem := by
  unfold replayStartReceive
  refine takeControl_memInv (fun t ht => ?_) h
  simp [ht]

@[simp] theorem replayTimeout_memInv (p s) (h : MemInv s.mem) : MemInv (replayTimeout p s).mem := by simp [replayTimeout, h]

@[simp] theorem silenceLimitExpiry_memInv (p s) (h : MemInv s.mem) : MemInv (silenceLimitExpiry p s).mem := by simp [silenceLimitExpiry, h]

@[simp] theorem controlPacketDiscard_memInv (p b bad s) (h : MemInv s.mem) : MemInv (controlPacketDiscard p b bad s).mem := by
  unfold controlPacketDiscard
  dsimp only
  split
  · exact h
  · split
    · split <;> simpa using h
    · split
      · exact h
      · exact takeControl_memInv (fun _ ht => ht) h

@[simp] theorem markSent_mem (s x) : (markSent s x).mem = s.mem := by
  unfold markSent
  repeat' split
  all_goals simp

@[simp] theorem transmitPkt_memInv (s p k x) (h : MemInv s.mem) : MemInv (transmitPkt s p k x).mem :=
  pumpAll_memInv _ (by simpa using h)

@[simp] theorem transmitChart_memInv (s p k x) (h : MemInv s.mem) : MemInv (transmitChart s p k x).mem := by
  rw [transmitChart]
  refine iteInduction (motive := fun t : State => MemInv t.mem) (fun _ => ?_) (fun _ => ?_)
  · simpa using h
  · exact transmitPkt_memInv _ _ _ _ (by simpa using h)

@[simp] theorem sendData_memInv (s p k x) (h : MemInv s.mem) : MemInv (sendData s p k x).mem := by simp [sendData, h]

@[simp] theorem dataPacketTransmit_memInv (p s) (h : MemInv s.mem) : MemInv (dataPacketTransmit p s).mem := by
  unfold dataPacketTransmit
  dsimp only
  repeat' split
  all_goals simp [h]

@[simp] theorem nakData_mem (s p reason nvc) : (nakData s p reason nvc).mem = s.mem := by simp [nakData]

@[simp] theorem sequenced_mem (s p) : (sequenced s p).mem = s.mem := by rfl

@[simp] theorem ackThreshold_mem (s p) : (ackThreshold s p).mem = s.mem := by simp [ackThreshold]

@[simp] theorem holdStaging_mem (s p h) : (holdStaging s p h).mem = s.mem := by simp [holdStaging]

@[simp] theorem wireMarks_mem (s p w) : (wireMarks s p w).1.mem = s.mem := by
  unfold wireMarks
  split <;> simp

@[simp] theorem receiveFramed_mem (s p w bad) : (receiveFramed s p w bad).mem = s.mem := by
  unfold receiveFramed
  dsimp only
  repeat' split
  all_goals simp

@[simp] theorem receiveNew_mem (s p w badHeader bad) : (receiveNew s p w badHeader bad).mem = s.mem := by simp [receiveNew]

@[simp] theorem noteRx_mem (s p w) : (noteRx s p w).mem = s.mem := by rfl

@[simp] theorem receiveInStep_mem (s p w badHeader bad) : (receiveInStep s p w badHeader bad).mem = s.mem := by
  unfold receiveInStep
  dsimp only
  split <;> simp

@[simp] theorem startTraining_mem (s p) : (startTraining s p).mem = s.mem := by simp [startTraining]

@[simp] theorem sendHail_mem (s p) : (sendHail s p).mem = s.mem := by simp [sendHail]

@[simp] theorem sendLinkStart_mem (s p) : (sendLinkStart s p).mem = s.mem := by simp [sendLinkStart]

@[simp] theorem sendDepart_mem (s p reason) : (sendDepart s p reason).mem = s.mem := by simp [sendDepart]

@[simp] theorem restoreHome_mem (s p) : (restoreHome s p).mem = s.mem := by simp [restoreHome]

@[simp] theorem enterWorking_mem (s p) : (enterWorking s p).mem = s.mem := by
  unfold enterWorking
  dsimp only
  repeat' split
  all_goals simp

@[simp] theorem tryEnter_mem (s p) : (tryEnter s p).mem = s.mem := by simp [tryEnter]

@[simp] theorem linkStartReceive_memInv (p b s) (h : MemInv s.mem) : MemInv (linkStartReceive p b s).mem := by
  unfold linkStartReceive
  refine takeControl_memInv (fun t ht => ?_) h
  simp [ht]

@[simp] theorem linkStartRepeat_mem (p s) : (linkStartRepeat p s).mem = s.mem := by simp [linkStartRepeat]

@[simp] theorem linkStartTimeout_memInv (p s) (h : MemInv s.mem) : MemInv (linkStartTimeout p s).mem := by
  unfold linkStartTimeout
  dsimp only
  split <;> simp [h]

@[simp] theorem logHail_mem (s p outcome check b) : (logHail s p outcome check b).mem = s.mem := by rfl

@[simp] theorem decideHail_mem (s p b) : (decideHail s p b).mem = s.mem := by simp [decideHail]

@[simp] theorem decideAgain_mem (s p) : (decideAgain s p).mem = s.mem := by
  unfold decideAgain
  dsimp only
  split <;> simp

@[simp] theorem hailReceive_memInv (p b s) (h : MemInv s.mem) : MemInv (hailReceive p b s).mem := by
  unfold hailReceive
  refine takeControl_memInv (fun t ht => ?_) h
  simp [ht]

@[simp] theorem hailRepeat_mem (p s) : (hailRepeat p s).mem = s.mem := by
  unfold hailRepeat
  split <;> simp

@[simp] theorem hailTimeout_memInv (p s) (h : MemInv s.mem) : MemInv (hailTimeout p s).mem := by simp [hailTimeout, h]

@[simp] theorem applyPlan_memInv (v s) (h : MemInv s.mem) : verdictMemInv (applyPlan v s) := by simp [applyPlan, h]

@[simp] theorem applyPlanHash_memInv (v s) (h : MemInv s.mem) : verdictMemInv (applyPlanHash v s) := by simp [applyPlanHash, h]

@[simp] theorem incarnationPorts_memInv (s n) (h : MemInv s.mem) : MemInv (incarnationPorts s n).mem := by
  refine foldl_memInv (fun t p ht => ?_) _ _ h
  dsimp only
  split
  · exact ht
  · split
    · exact linkDown_memInv _ _ _ _ ht
    · simpa using ht

@[simp] theorem departReceive_memInv (p b s) (h : MemInv s.mem) : MemInv (departReceive p b s).mem := by
  unfold departReceive
  refine takeControl_memInv (fun t ht => ?_) h
  simp [ht]

@[simp] theorem stopPort_memInv (s p) (h : MemInv s.mem) : MemInv (stopPort s p).mem := by simp [stopPort, h]

@[simp] theorem releasePort_mem (s p) : (releasePort s p).mem = s.mem := by simp [releasePort]

@[simp] theorem applyPortEnable_memInv (p on s) (h : MemInv s.mem) : verdictMemInv (applyPortEnable p on s) := by
  unfold applyPortEnable
  repeat' split
  all_goals simp [h]

@[simp] theorem applyRetrain_memInv (p on s) (h : MemInv s.mem) : verdictMemInv (applyRetrain p on s) := by simp [applyRetrain, h]

@[simp] theorem turnOctet_mem (s o on) : (turnOctet s o on).mem = s.mem := by simp [turnOctet]

@[simp] theorem turnOctets_mem (s p) : (turnOctets s p).mem = s.mem := by simp [turnOctets]

@[simp] theorem completeFrames_mem (s p) : (completeFrames s p).mem = s.mem := by simp [completeFrames]

@[simp] theorem widthTx_mem (s p) : (widthTx s p).mem = s.mem := by simp [widthTx]

@[simp] theorem widthRx_mem (s p) : (widthRx s p).mem = s.mem := by simp [widthRx]

@[simp] theorem applyWidth_mem (s p) : (applyWidth s p).mem = s.mem := by simp [applyWidth]

@[simp] theorem countAttempt_mem (s p) : (countAttempt s p).mem = s.mem := by rfl

@[simp] theorem fitOctet_mem (s o f) : (fitOctet s o f).mem = s.mem := by
  unfold fitOctet
  split <;> simp

@[simp] theorem sendSet_mem (s p l) : (sendSet s p l).mem = s.mem := by simp [sendSet]

@[simp] theorem passA_mem (s p) : (passA s p).mem = s.mem := by
  unfold passA
  simp

@[simp] theorem tryStageA_mem (s p final) : (tryStageA s p final).mem = s.mem := by
  unfold tryStageA
  dsimp only
  split <;> simp

@[simp] theorem actOnSet_mem (s p l c) : (actOnSet s p l c).mem = s.mem := by simp [actOnSet]

@[simp] theorem trainingSetReceive_mem (l groups s) : (trainingSetReceive l groups s).mem = s.mem := by
  unfold trainingSetReceive
  split
  · rfl
  · dsimp only
    split
    · rfl
    · split
      · simp
      · split <;> simp

@[simp] theorem bitSlip_mem (l s) : (bitSlip l s).mem = s.mem := by
  unfold bitSlip
  split <;> simp

@[simp] theorem beginStart_mem (s p) : (beginStart s p).mem = s.mem := by rfl

@[simp] theorem noteReady_mem (s p) : (noteReady s p).mem = s.mem := by simp [noteReady]

@[simp] theorem updLanes_mem (s p f) : (updLanes s p f).mem = s.mem := by simp [updLanes]

@[simp] theorem beginStep_mem (s p st since) : (beginStep s p st since).mem = s.mem := by simp [beginStep]

@[simp] theorem stepUp_mem (s p) : (stepUp s p).mem = s.mem := by
  unfold stepUp
  split <;> simp

@[simp] theorem noteStart_mem (s p c) : (noteStart s p c).mem = s.mem := by simp [noteStart]

@[simp] theorem noteSpare_mem (s p c) : (noteSpare s p c).mem = s.mem := by
  unfold noteSpare
  repeat' split
  all_goals simp

@[simp] theorem wakeOctet_mem (p s o) : (wakeOctet p s o).mem = s.mem := by simp [wakeOctet]

@[simp] theorem noteWaking_mem (s p l) : (noteWaking s p l).mem = s.mem := by simp [noteWaking]

@[simp] theorem trainingFrameReceive_mem (l control s) : (trainingFrameReceive l control s).mem = s.mem := by
  unfold trainingFrameReceive
  split <;> simp

@[simp] theorem adaptationDone_mem (l ctle dfe s) : (adaptationDone l ctle dfe s).mem = s.mem := by
  unfold adaptationDone
  split <;> simp

@[simp] theorem useOctet_mem (s o f) : (useOctet s o f).mem = s.mem := by
  unfold useOctet
  split <;> simp

@[simp] theorem checkerCounts_mem (p counts s) : (checkerCounts p counts s).mem = s.mem := by
  refine foldl_mem (fun t l => ?_) _ _
  split <;> simp

@[simp] theorem checkWindowEnd_mem (p counts s) : (checkWindowEnd p counts s).mem = s.mem := by
  unfold checkWindowEnd
  split
  · simp
  · dsimp only
    split
    · simp
    · split
      · simp
      · split
        · simp
        · split <;> simp

@[simp] theorem streamBegins_mem (s p st stopped) : (streamBegins s p st stopped).mem = s.mem := by simp [streamBegins]

@[simp] theorem stageAFailed_mem (s p) : (stageAFailed s p).mem = s.mem := by simp [stageAFailed]

@[simp] theorem stageTimeout_mem (p s0) : (stageTimeout p s0).mem = s0.mem := by
  unfold stageTimeout
  dsimp only
  repeat' split
  all_goals simp

@[simp] theorem stageARetry_mem (p s) : (stageARetry p s).mem = s.mem := by simp [stageARetry]

@[simp] theorem afterShift_mem (s p) : (afterShift s p).mem = s.mem := by simp [afterShift]

@[simp] theorem shiftDone_mem (s p st) : (shiftDone s p st).mem = s.mem := by simp [shiftDone]

@[simp] theorem startCountdownEnd_mem (p s) : (startCountdownEnd p s).mem = s.mem := by
  unfold startCountdownEnd
  dsimp only
  split <;> simp

@[simp] theorem endTest_mem (s) : (endTest s).mem = s.mem := by
  unfold endTest
  split <;> simp

@[simp] theorem beginTest_memInv (s p) (h : MemInv s.mem) : MemInv (beginTest s p).mem := by simp [beginTest, h]

@[simp] theorem applyTestMode_memInv (owner v s) (h : MemInv s.mem) : verdictMemInv (applyTestMode owner v s) := by simp [applyTestMode, h]

@[simp] theorem applyInject_memInv (v s) (h : MemInv s.mem) : verdictMemInv (applyInject v s) := by simp [applyInject, h]

@[simp] theorem nextLmc_mem (s p) : (nextLmc s p).mem = s.mem := by
  unfold nextLmc
  dsimp only
  split <;> simp

@[simp] theorem settleOctet_mem (s o) : (settleOctet s o).mem = s.mem := by rfl

@[simp] theorem spareRx_mem (s p arg on) : (spareRx s p arg on).mem = s.mem := by
  unfold spareRx
  split <;> simp

@[simp] theorem spareTx_mem (s p arg on switched) : (spareTx s p arg on switched).mem = s.mem := by
  unfold spareTx
  split <;> simp

@[simp] theorem acceptLmc_mem (s p cmd arg) : (acceptLmc s p cmd arg).mem = s.mem := by simp [acceptLmc]

@[simp] theorem peerLmc_mem (p cmd arg s) : (peerLmc p cmd arg s).mem = s.mem := by
  unfold peerLmc
  dsimp only
  split
  · simp
  · split <;> simp

@[simp] theorem ackLmc_mem (p arg countdown s) : (ackLmc p arg countdown s).mem = s.mem := by
  unfold ackLmc
  dsimp only
  split <;> simp

@[simp] theorem refuseLmc_mem (p arg s) : (refuseLmc p arg s).mem = s.mem := by
  unfold refuseLmc
  split <;> simp

@[simp] theorem lmcRepeatTimeout_mem (p s) : (lmcRepeatTimeout p s).mem = s.mem := by
  unfold lmcRepeatTimeout
  split <;> simp

@[simp] theorem beginShift_mem (s p st) : (beginShift s p st).mem = s.mem := by simp [beginShift]

@[simp] theorem peerShifts_mem (s p st) : (peerShifts s p st).mem = s.mem := by rfl

@[simp] theorem switchTx_mem (s p m) : (switchTx s p m).mem = s.mem := by simp [switchTx]

@[simp] theorem switchRx_mem (s p m) : (switchRx s p m).mem = s.mem := by simp [switchRx]

@[simp] theorem noteSwitched_mem (s p tx rx) : (noteSwitched s p tx rx).mem = s.mem := by
  unfold noteSwitched
  split <;> simp

@[simp] theorem switchFrame_mem (p s) : (switchFrame p s).mem = s.mem := by
  unfold switchFrame
  split <;> simp

@[simp] theorem shiftTimeout_memInv (p s0) (h : MemInv s0.mem) : MemInv (shiftTimeout p s0).mem := by
  unfold shiftTimeout
  dsimp only
  split <;> simp [h]

@[simp] theorem wakeOctets_mem (s p) : (wakeOctets s p).mem = s.mem := by simp [wakeOctets]

@[simp] theorem widenWhenAwake_mem (s p) : (widenWhenAwake s p).mem = s.mem := by simp [widenWhenAwake]

@[simp] theorem setCeiling_mem (s p n) : (setCeiling s p n).mem = s.mem := by simp [setCeiling]

@[simp] theorem frameReceive_mem (l control s) : (frameReceive l control s).mem = s.mem := by
  unfold frameReceive
  split <;> simp

@[simp] theorem orderShift_mem (s p st) : (orderShift s p st).mem = s.mem := by simp [orderShift]

@[simp] theorem dropSpares_mem (s p o) : (dropSpares s p o).mem = s.mem := by rfl

@[simp] theorem failSp_mem (s l) : (failSp s l).mem = s.mem := by simp [failSp]

@[simp] theorem spareLane_mem (p s l) : (spareLane p s l).mem = s.mem := by simp [spareLane]

@[simp] theorem removeOctet_mem (p s l) : (removeOctet p s l).mem = s.mem := by simp [removeOctet]

@[simp] theorem repairLanes_memInv (s p ls) (h : MemInv s.mem) : MemInv (repairLanes s p ls).mem := by
  unfold repairLanes
  dsimp only
  split
  · simpa using h
  · split
    · exact linkDown_memInv _ _ _ _ (by simpa using h)
    · split <;> simpa using h

@[simp] theorem settleFails_memInv (s p) (h : MemInv s.mem) : MemInv (settleFails s p).mem := by
  unfold settleFails
  split <;> simp [h]

@[simp] theorem failFec_mem (s p l) : (failFec s p l).mem = s.mem := by rfl

@[simp] theorem laneFail_memInv (s l) (h : MemInv s.mem) : MemInv (laneFail s l).mem := by
  unfold laneFail
  split
  · exact h
  · dsimp only
    split
    · simpa using h
    · split
      · exact h
      · split
        · split
          · split
            · exact h
            · exact linkDown_memInv _ _ _ _ h
          · exact h
        · split <;> simpa using settleFails_memInv _ _ h

@[simp] theorem laneLos_memInv (l s) (h : MemInv s.mem) : MemInv (laneLos l s).mem := by simp [laneLos, h]

@[simp] theorem laneLosClear_mem (l s) : (laneLosClear l s).mem = s.mem := by
  unfold laneLosClear
  split
  · simp
  · split <;> simp

@[simp] theorem laneLol_memInv (l s) (h : MemInv s.mem) : MemInv (laneLol l s).mem := by simp [laneLol, h]

@[simp] theorem laneLolClear_mem (l s) : (laneLolClear l s).mem = s.mem := by rfl

@[simp] theorem countSymbols_mem (s o c errs) : (countSymbols s o c errs).mem = s.mem := by simp [countSymbols]

@[simp] theorem flagLanes_mem (s o) : (flagLanes s o).mem = s.mem := by simp [flagLanes]

@[simp] theorem markWord_mem (s o c) : (markWord s o c).mem = s.mem := by rfl

@[simp] theorem endFrame_memInv (s o) (h : MemInv s.mem) : MemInv (endFrame s o).mem := by
  refine foldl_memInv (fun t l ht => ?_) _ _ h
  dsimp only
  generalize (if (lane t l).flagFrame = true then (lane t l).flagRun + 1 else 0) = run
  split
  · exact laneLol_memInv _ _ (by simpa using ht)
  · simpa using ht

@[simp] theorem codewordDecode_memInv (o c symbols s) (h : MemInv s.mem) : MemInv (codewordDecode o c symbols s).mem := by
  unfold codewordDecode
  split
  · exact h
  · dsimp only
    split
    · exact h
    · split
      · split
        · simp [h]
        · simp [h]
        · simp [h]
      · split <;> simp [h]

@[simp] theorem cancelSlot_mem (c s n) : (cancelSlot c s n).mem = s.mem := by
  unfold cancelSlot
  dsimp only
  split <;> simp

@[simp] theorem cancelSlots_mem (s c) : (cancelSlots s c).mem = s.mem := by simp [cancelSlots]

@[simp] theorem metFences_mem (s c) : (metFences s c).mem = s.mem := by simp [metFences]

@[simp] theorem cancelCmd_mem (c s m) : (cancelCmd c s m).mem = s.mem := by
  unfold cancelCmd
  split <;> simp

@[simp] theorem cancelHelds_mem (s c lent) : (cancelHelds s c lent).mem = s.mem := by simp [cancelHelds]

@[simp] theorem cancelUnsent_mem (s tag) : (cancelUnsent s tag).mem = s.mem := by simp [cancelUnsent]

@[simp] theorem cancelUnsents_mem (s c) : (cancelUnsents s c).mem = s.mem := by simp [cancelUnsents]

@[simp] theorem endOpen_mem (s c) : (endOpen s c).mem = s.mem := by simp [endOpen]

@[simp] theorem finishDisable_mem (s c) : (finishDisable s c).mem = s.mem := by simp [finishDisable]

@[simp] theorem tryFinish_mem (s c) : (tryFinish s c).mem = s.mem := by simp [tryFinish]

@[simp] theorem drainOver_mem (s c) : (drainOver s c).mem = s.mem := by simp [drainOver]

@[simp] theorem beginDisable_memInv (s c drainUs) (h : MemInv s.mem) : MemInv (beginDisable s c drainUs).mem := by simp [beginDisable, h]

@[simp] theorem resetContext_memInv (s c) (h : MemInv s.mem) : MemInv (resetContext s c).mem := by
  unfold resetContext
  split <;> simp [h]

@[simp] theorem applyDisable_memInv (c s) (h : MemInv s.mem) : verdictMemInv (applyDisable c s) := by
  unfold applyDisable
  dsimp only
  split <;> simp [h]

@[simp] theorem drainTimeExpiry_mem (c s) : (drainTimeExpiry c s).mem = s.mem := by simp [drainTimeExpiry]

@[simp] theorem disableBound_memInv (s e) (h : MemInv s.mem) : MemInv (disableBound s e).mem :=
  foldl_memInv (fun t x ht => beginDisable_memInv t x.1 x.2.drainUs ht) _ _ h

@[simp] theorem applyPartitionWrite_memInv (v s) (h : MemInv s.mem) : verdictMemInv (applyPartitionWrite v s) := by
  have hv := applyPartition_memInv v s h
  unfold applyPartitionWrite
  dsimp only
  split
  · rename_i hp
    rw [hp] at hv
    rw [verdictMemInv_done] at hv ⊢
    split
    · exact disableBound_memInv _ _ hv
    · exact hv
  · exact hv

@[simp] theorem retireOps_mem (s n) : (retireOps s n).mem = s.mem := by simp [retireOps]

@[simp] theorem incarnationChanged_memInv (s n) (h : MemInv s.mem) : MemInv (incarnationChanged s n).mem := by simp [incarnationChanged, h]

@[simp] theorem applyIncarnation_memInv (v s) (h : MemInv s.mem) : verdictMemInv (applyIncarnation v s) := by simp [applyIncarnation, h]

@[simp] theorem applyDrain_memInv (q s) (h : MemInv s.mem) : verdictMemInv (applyDrain q s) := by
  unfold applyDrain
  split <;> simp [h]

@[simp] theorem computeLevels_mem (s p) : (computeLevels s p).mem = s.mem := by rfl

@[simp] theorem applyDirection_memInv (p v s) (h : MemInv s.mem) : verdictMemInv (applyDirection p v s) := by simp [applyDirection, h]

@[simp] theorem applyLevel_memInv (sub p v s) (h : MemInv s.mem) : verdictMemInv (applyLevel sub p v s) := by simp [applyLevel, h]

@[simp] theorem applyDateline_memInv (d v s) (h : MemInv s.mem) : verdictMemInv (applyDateline d v s) := by simp [applyDateline, h]

@[simp] theorem applyRouteEntry_memInv (b i v s) (h : MemInv s.mem) : verdictMemInv (applyRouteEntry b i v s) := by simp [applyRouteEntry, h]

@[simp] theorem applySelector_memInv (b e v s) (h : MemInv s.mem) : verdictMemInv (applySelector b e v s) := by
  unfold applySelector
  split <;> simp [h]

@[simp] theorem applyExtent_memInv (b i v s) (h : MemInv s.mem) : verdictMemInv (applyExtent b i v s) := by simp [applyExtent, h]

@[simp] theorem applyException_memInv (b i v s) (h : MemInv s.mem) : verdictMemInv (applyException b i v s) := by
  unfold applyException
  split <;> simp [h]

@[simp] theorem applyMarkReady_memInv (b s) (h : MemInv s.mem) : verdictMemInv (applyMarkReady b s) := by simp [applyMarkReady, h]

@[simp] theorem applyRelease2_memInv (b s) (h : MemInv s.mem) : verdictMemInv (applyRelease2 b s) := by simp [applyRelease2, h]

@[simp] theorem applyFlip_memInv (t s) (h : MemInv s.mem) : verdictMemInv (applyFlip t s) := by
  unfold applyFlip
  split <;> simp [h]

@[simp] theorem epochFlip_mem (s) : (epochFlip s).mem = s.mem := by simp [epochFlip]

@[simp] theorem freeDraining_mem (s b) : (freeDraining s b).mem = s.mem := by rfl

@[simp] theorem drainingBankQuiet_mem (s) : (drainingBankQuiet s).mem = s.mem := by
  unfold drainingBankQuiet
  split <;> simp

@[simp] theorem dropOldEpoch_mem (s x) : (dropOldEpoch s x).mem = s.mem := by simp [dropOldEpoch]

@[simp] theorem drainGuardExpiry_mem (s) : (drainGuardExpiry s).mem = s.mem := by
  unfold drainGuardExpiry
  split <;> simp

@[simp] theorem samplePort_mem (s p) : (samplePort s p).mem = s.mem := by rfl

@[simp] theorem chartSample_mem (s) : (chartSample s).mem = s.mem := by simp [chartSample]

@[simp] theorem rollPort_mem (reported s p) : (rollPort reported s p).mem = s.mem := by rfl

@[simp] theorem rollRtt_mem (s p) : (rollRtt s p).mem = s.mem := by simp [rollRtt]

@[simp] theorem chartIntervalClose_mem (s) : (chartIntervalClose s).mem = s.mem := by simp [chartIntervalClose]

@[simp] theorem applyChartLength_memInv (v s) (h : MemInv s.mem) : verdictMemInv (applyChartLength v s) := by simp [applyChartLength, h]

@[simp] theorem applyAdaptive_memInv (on s) (h : MemInv s.mem) : verdictMemInv (applyAdaptive on s) := by simp [applyAdaptive, h]

@[simp] theorem applyChartBase_memInv (v s) (h : MemInv s.mem) : verdictMemInv (applyChartBase v s) := by simp [applyChartBase, h]

theorem placeChart_mem {s t : State} {h : BitVec 256} {payload : Bytes} (ht : placeChart s h payload = some t) :
    t.mem = s.mem := by
  unfold placeChart at ht
  dsimp only at ht
  split at ht
  · split at ht
    · cases ht; simp
    · cases ht
  · split at ht
    · cases ht
    · cases ht; simp
    · cases ht; simp
    · split at ht
      · rename_i hd
        cases ht
        exact ownDrop_mem hd
      · cases ht; simp

/-- What the chart's own sending comes to, over any header, payload and placing: the placing keeps memory or fails. It is
stated over those functions because the kernel evaluates them when they are given. -/
theorem placedChart_mem {s done : State} (ports : List Nat) (rank : Except Status NodeId)
    {place : BitVec 256 → Bytes → Option State} (header : NodeId → Nat → Nat → BitVec 256)
    (payload : Nat → Nat → Bytes → Nat → List Nat → Bytes) (part start len : Nat) (head : Bytes) (next : List Nat)
    (hd : done.mem = s.mem) (hp : ∀ h b t, place h b = some t → t.mem = s.mem) :
    (match ports, rank with
      | _ :: _, .ok d =>
        (match place (header d part (1 + ports.length)) (payload start len head part ports) with
          | some t => { t with charts := { t.charts with
              closed := if part = 0 ∧ next ≠ [] then some (start, len, head, 1) else none } }
          | none => s)
      | _, _ => done).mem = s.mem := by
  obtain _ | ⟨p, r⟩ := ports
  · exact hd
  · obtain e | d := rank
    · exact hd
    · dsimp only
      cases h : place (header d part (1 + (p :: r).length)) (payload start len head part (p :: r)) with
      | none => rfl
      | some t => exact hp _ _ t h

@[simp] theorem chartSend_mem (s) : (chartSend s).mem = s.mem := by
  rw [chartSend]
  split
  · rfl
  · rename_i start len head part hc
    refine iteInduction (motive := fun t : State => t.mem = s.mem) (fun _ => rfl) (fun _ => ?_)
    exact placedChart_mem (partPorts s part) _ (chartHeader s) (chartPayload s) part start len head (partPorts s 1) rfl
      (fun _ _ _ => placeChart_mem)

@[simp] theorem chartPacketReceive_mem (id s) : (chartPacketReceive id s).mem = s.mem := by
  unfold chartPacketReceive
  split
  · simp
  · split <;> simp

@[simp] theorem noteCorrection_mem (s f) : (noteCorrection s f).mem = s.mem := by simp [noteCorrection]

@[simp] theorem forwardStep_mem (s n f) : (forwardStep s n f).mem = s.mem := by simp [forwardStep]

@[simp] theorem correct_mem (s f) : (correct s f).mem = s.mem := by simp [correct]

@[simp] theorem firstLock_mem (s) : (firstLock s).mem = s.mem := by simp [firstLock]

@[simp] theorem enterLocked_mem (s) : (enterLocked s).mem = s.mem := by simp [enterLocked]

@[simp] theorem enterHoldover_mem (s) : (enterHoldover s).mem = s.mem := by simp [enterHoldover]

@[simp] theorem timeFault_mem (s f) : (timeFault s f).mem = s.mem := by simp [timeFault]

@[simp] theorem haveSource_mem (s) : (haveSource s).mem = s.mem := by simp [haveSource]

@[simp] theorem goodSample_mem (s off) : (goodSample s off).mem = s.mem := by simp [goodSample]

@[simp] theorem firstSample_mem (s off) : (firstSample s off).mem = s.mem := by simp [firstSample]

@[simp] theorem acceptSample_mem (s off) : (acceptSample s off).mem = s.mem := by
  unfold acceptSample
  split
  · simp
  · split <;> simp

@[simp] theorem follow_mem (s c) : (follow s c).mem = s.mem := by simp [follow]

@[simp] theorem reselect_mem (s) : (reselect s).mem = s.mem := by
  unfold reselect
  dsimp only
  repeat' split
  all_goals simp

@[simp] theorem sampleOf_mem (s code off) : (sampleOf s code off).mem = s.mem := by simp [sampleOf]

@[simp] theorem noteHeard_mem (s master stratum) : (noteHeard s master stratum).mem = s.mem := by rfl

@[simp] theorem sendBeacon_mem (s p) : (sendBeacon s p).mem = s.mem := by simp [sendBeacon]

@[simp] theorem beaconSend_mem (p s) : (beaconSend p s).mem = s.mem := by simp [beaconSend]

@[simp] theorem passBeacon_mem (s p b sample) : (passBeacon s p b sample).mem = s.mem := by simp [passBeacon]

@[simp] theorem useSample_mem (s p b delay off) : (useSample s p b delay off).mem = s.mem := by simp [useSample]

@[simp] theorem beaconReceive_memInv (p b s) (h : MemInv s.mem) : MemInv (beaconReceive p b s).mem := by
  unfold beaconReceive
  refine takeControl_memInv (fun t ht => ?_) h
  simp [ht]

@[simp] theorem remoteBeacon_mem (s k off master stratum hold) : (remoteBeacon s k off master stratum hold).mem = s.mem := by simp [remoteBeacon]

@[simp] theorem cascadeBeaconSample_mem (src p offset master stratum hold s) : (cascadeBeaconSample src p offset master stratum hold s).mem = s.mem := by
  unfold cascadeBeaconSample
  split
  · simp
  · split <;> simp

@[simp] theorem takeState_mem (s st) : (takeState s st).mem = s.mem := by
  unfold takeState
  split
  · simp
  · split <;> simp

@[simp] theorem takeTime_mem (count st stratum master hold s) : (takeTime count st stratum master hold s).mem = s.mem := by simp [takeTime]

@[simp] theorem timeSetNow_mem (s) : (timeSetNow s).mem = s.mem := by
  unfold timeSetNow
  split <;> simp

@[simp] theorem merRefEdge_mem (s) : (merRefEdge s).mem = s.mem := by simp [merRefEdge]

@[simp] theorem merRefLoss_mem (s) : (merRefLoss s).mem = s.mem := by simp [merRefLoss]

@[simp] theorem upstreamLoss_mem (s) : (upstreamLoss s).mem = s.mem := by simp [upstreamLoss]

@[simp] theorem holdoverLimit_mem (s) : (holdoverLimit s).mem = s.mem := by
  unfold holdoverLimit
  split <;> simp

@[simp] theorem masterTakeover_mem (s) : (masterTakeover s).mem = s.mem := by simp [masterTakeover]

@[simp] theorem applyDesignation_memInv (sub v s) (h : MemInv s.mem) : verdictMemInv (applyDesignation sub v s) := by simp [applyDesignation, h]

@[simp] theorem applyTimeSet_memInv (t s) (h : MemInv s.mem) : verdictMemInv (applyTimeSet t s) := by simp [applyTimeSet, h]

@[simp] theorem setBank2_mem (s b x) : (setBank2 s b x).mem = s.mem := by rfl

@[simp] theorem waitForSpare_mem (s b row) : (waitForSpare s b row).mem = s.mem := by simp [waitForSpare]

@[simp] theorem spareBank_mem (s b row) : (spareBank s b row).mem = s.mem := by
  unfold spareBank
  repeat' split
  all_goals simp

@[simp] theorem setRecords_mem (s l) : (setRecords s l).mem = s.mem := by rfl

@[simp] theorem addRecord_mem (s kind target value) : (addRecord s kind target value).mem = s.mem := by rfl

@[simp] theorem bankMigrationDone_mem (b s) : (bankMigrationDone b s).mem = s.mem := by
  unfold bankMigrationDone
  split <;> simp

@[simp] theorem poisonUnit_mem (s id unit) : (poisonUnit s id unit).mem = s.mem := by
  unfold poisonUnit
  split <;> simp

@[simp] theorem dropHeader_mem (s id) : (dropHeader s id).mem = s.mem := by simp [dropHeader]

@[simp] theorem windowError_mem (s i) : (windowError s i).mem = s.mem := by
  unfold windowError
  split
  · simp
  · split <;> simp

@[simp] theorem sharedError_mem (s table entry) : (sharedError s table entry).mem = s.mem := by simp [sharedError]

@[simp] theorem storeError_mem (s b row finding) : (storeError s b row finding).mem = s.mem := by
  unfold storeError
  split <;> simp

@[simp] theorem nextRow_mem (s b) : (nextRow s b).mem = s.mem := by rfl

@[simp] theorem scrubRow_mem (b row finding clears s) : (scrubRow b row finding clears s).mem = s.mem := by
  unfold scrubRow
  split
  · simp
  · split <;> simp

@[simp] theorem noteCaps_mem (s) : (noteCaps s).mem = s.mem := by rfl

@[simp] theorem applyLever_mem (s x) : (applyLever s x).mem = s.mem := by simp [applyLever]

@[simp] theorem applyStage_mem (ceil s p) : (applyStage ceil s p).mem = s.mem := by
  unfold applyStage
  split <;> simp

@[simp] theorem settleSextant_mem (s t) : (settleSextant s t).mem = s.mem := by simp [settleSextant]

@[simp] theorem settle_mem (s cap t) : (settle s cap t).mem = s.mem := by simp [settle]

@[simp] theorem settleNow_mem (s) : (settleNow s).mem = s.mem := by simp [settleNow]

@[simp] theorem settleEarly_mem (s) : (settleEarly s).mem = s.mem := by simp [settleEarly]

@[simp] theorem applyStartUpCap_memInv (sextant v s) (h : MemInv s.mem) : verdictMemInv (applyStartUpCap sextant v s) := by simp [applyStartUpCap, h]

@[simp] theorem refuseHost_memInv (v st reason s) (h : MemInv s.mem) : verdictMemInv (refuseHost v st reason s) := by simp [refuseHost, h]

@[simp] theorem applyHostCap_memInv (v s) (h : MemInv s.mem) : verdictMemInv (applyHostCap v s) := by
  unfold applyHostCap
  split <;> simp [h]

@[simp] theorem applyHostScap_memInv (v s) (h : MemInv s.mem) : verdictMemInv (applyHostScap v s) := by
  unfold applyHostScap
  split
  · simp [h]
  · split <;> simp [h]

@[simp] theorem applyCapPeriod_memInv (v s) (h : MemInv s.mem) : verdictMemInv (applyCapPeriod v s) := by simp [applyCapPeriod, h]

@[simp] theorem holdPort_memInv (v s p) (h : MemInv s.mem) : MemInv (holdPort v s p).mem := by
  unfold holdPort
  dsimp only
  split
  · split
    · exact h
    · exact stopPort_memInv _ _ (by simpa using h)
  · split
    · simpa using h
    · exact h

@[simp] theorem applyHoldOff_memInv (v s) (h : MemInv s.mem) : verdictMemInv (applyHoldOff v s) := by
  have hf := foldl_memInv (fun t p ht => holdPort_memInv v t p ht) twelve s h
  simpa [applyHoldOff] using hf

@[simp] theorem prepare_mem (s time) : (prepare s time).mem = s.mem := by simp [prepare]

@[simp] theorem applySchedule_memInv (b s) (h : MemInv s.mem) : verdictMemInv (applySchedule b s) := by simp [applySchedule, h]

@[simp] theorem applyScheduleClear_memInv (on s) (h : MemInv s.mem) : verdictMemInv (applyScheduleClear on s) := by simp [applyScheduleClear, h]

@[simp] theorem stepPrepare_mem (s) : (stepPrepare s).mem = s.mem := by
  unfold stepPrepare
  split <;> simp

@[simp] theorem scheduleStep_mem (s) : (scheduleStep s).mem = s.mem := by
  unfold scheduleStep
  split <;> simp

@[simp] theorem takeReading_mem (s r) : (takeReading s r).mem = s.mem := by simp [takeReading]

@[simp] theorem noteCases_mem (s n) : (noteCases s n).mem = s.mem := by rfl

@[simp] theorem noteCross_mem (s n) : (noteCross s n).mem = s.mem := by simp [noteCross]

@[simp] theorem thermalStep_mem (s) : (thermalStep s).mem = s.mem := by simp [thermalStep]

@[simp] theorem criticalStep_mem (s) : (criticalStep s).mem = s.mem := by simp [criticalStep]

@[simp] theorem noteLevels_mem (s) : (noteLevels s).mem = s.mem := by rfl

@[simp] theorem sensorRead_mem (readings s) : (sensorRead readings s).mem = s.mem := by simp [sensorRead]

@[simp] theorem sensorFailed_mem (n s) : (sensorFailed n s).mem = s.mem := by simp [sensorFailed]

@[simp] theorem criticalHoldTimeout_memInv (s) (h : MemInv s.mem) : MemInv (criticalHoldTimeout s).mem := by
  unfold criticalHoldTimeout
  split <;> simp +contextual [h]

@[simp] theorem thermalRelease_mem (s) : (thermalRelease s).mem = s.mem := by
  unfold thermalRelease
  split <;> simp

@[simp] theorem applyCritical_memInv (v s) (h : MemInv s.mem) : verdictMemInv (applyCritical v s) := by simp [applyCritical, h]

@[simp] theorem applyCoolant_memInv (v s) (h : MemInv s.mem) : verdictMemInv (applyCoolant v s) := by simp [applyCoolant, h]

@[simp] theorem applyRail_memInv (v s) (h : MemInv s.mem) : verdictMemInv (applyRail v s) := by simp [applyRail, h]

@[simp] theorem capBoundary_mem (s) : (capBoundary s).mem = s.mem := by simp [capBoundary]

@[simp] theorem activitySample_mem (a s) : (activitySample a s).mem = s.mem := by simp [activitySample]

@[simp] theorem coefficientCorrection_mem (s) : (coefficientCorrection s).mem = s.mem := by
  unfold coefficientCorrection
  split <;> simp

@[simp] theorem closeReport_mem (s partial_) : (closeReport s partial_).mem = s.mem := by simp [closeReport]

@[simp] theorem logSensors_mem (s) : (logSensors s).mem = s.mem := by rfl

@[simp] theorem refuseQueue_memInv (s u) (h : MemInv s.mem) : MemInv (refuseQueue s u).mem := by
  refine foldl_memInv (fun t r ht => ?_) _ _ (by simpa using closeLines_memInv s u h)
  split
  · simpa using ht
  · exact ht

@[simp] theorem unitLeaves_memInv (s u) (h : MemInv s.mem) : MemInv (unitLeaves s u).mem := by
  unfold unitLeaves
  simp only [pressEnded_mem, settlePress_mem]
  exact refuseQueue_memInv _ _ (foldl_memInv (fun t c ht => abortColl_memInv t c _ _ ht) _ _ (by simpa using h))

@[simp] theorem outOfService_memInv (s u) (h : MemInv s.mem) : MemInv (outOfService s u).mem := by simp [outOfService, h]

@[simp] theorem marginCheck_memInv (minute s u) (h : MemInv s.mem) : MemInv (marginCheck minute s u).mem := by
  unfold marginCheck
  generalize Config.marginSlack _ minute _ = slack
  dsimp only
  iterate 2 (split; · exact h)
  split
  · exact outOfService_memInv _ _ h
  · have h1 : MemInv (unitCount (setTrimmed s u (trimmedMax s u - 25)) u 8 1).mem := by simpa using h
    split
    · split
      · simpa using closeLines_memInv _ u h1
      · simpa using h1
    · split
      · simpa using closeLines_memInv _ u h1
      · simpa using h1

@[simp] theorem meridianMinute_memInv (s) (h : MemInv s.mem) : MemInv (meridianMinute s).mem := by
  unfold meridianMinute
  dsimp only
  split
  · exact h
  · split
    · exact foldl_memInv (fun t u ht => marginCheck_memInv _ t u ht) _ _ (by simpa using h)
    · simpa using h

@[simp] theorem logLow_mem (s m) : (logLow s m).mem = s.mem := by simp [logLow]

@[simp] theorem logMessage_mem (s m) : (logMessage s m).mem = s.mem := by simp [logMessage]

@[simp] theorem faultInterrupt_mem (s) : (faultInterrupt s).mem = s.mem := by rfl

@[simp] theorem latchMessage_mem (s m) : (latchMessage s m).mem = s.mem := by
  unfold latchMessage
  split
  · simp
  · split <;> simp

@[simp] theorem eventMessage_mem (s m) : (eventMessage s m).mem = s.mem := by simp [eventMessage]

@[simp] theorem collect_mem (s m) : (collect s m).mem = s.mem := by simp [collect]

@[simp] theorem takeIntake_mem (s) : (takeIntake s).mem = s.mem := by
  unfold takeIntake
  split <;> simp

@[simp] theorem drainIntake_mem (s) : (drainIntake s).mem = s.mem := repeat_keeps State.mem _ (fun _ => by simp) _ _

@[simp] theorem applyFaultClear_memInv (v s) (h : MemInv s.mem) : verdictMemInv (applyFaultClear v s) := by simp [applyFaultClear, h]

@[simp] theorem applyForce_memInv (src kind s) (h : MemInv s.mem) : verdictMemInv (applyForce src kind s) := by
  unfold applyForce
  split <;> simp [h]

@[simp] theorem countSlotBoundary_mem (src s) : (countSlotBoundary src s).mem = s.mem := by rfl

@[simp] theorem applyCountWindow_memInv (owner v s) (h : MemInv s.mem) : verdictMemInv (applyCountWindow owner v s) := by simp [applyCountWindow, h]

@[simp] theorem logSuppressed_mem (s x) : (logSuppressed s x).mem = s.mem := by simp [logSuppressed]

@[simp] theorem logRateSecond_mem (s) : (logRateSecond s).mem = s.mem := by simp [logRateSecond]

@[simp] theorem logDump_mem (s st bytes results) : (logDump s st bytes results).mem = s.mem := by rfl

@[simp] theorem startDump_mem (s) : (startDump s).mem = s.mem := by simp [startDump]

@[simp] theorem applyDumpRequest_memInv (on s) (h : MemInv s.mem) : verdictMemInv (applyDumpRequest on s) := by simp [applyDumpRequest, h]

@[simp] theorem dumpUnitTimeout_mem (u anyWord s) : (dumpUnitTimeout u anyWord s).mem = s.mem := by simp [dumpUnitTimeout]

@[simp] theorem writeDump_mem (s) : (writeDump s).mem = s.mem := by
  unfold writeDump
  split <;> simp

@[simp] theorem dumpFlashWriteDone_mem (s) : (dumpFlashWriteDone s).mem = s.mem := by simp [dumpFlashWriteDone]

@[simp] theorem readUnit_mem (s u) : (readUnit s u).mem = s.mem := by simp [readUnit]

@[simp] theorem dumpNow_mem (s) : (dumpNow s).mem = s.mem := by simp [dumpNow]

@[simp] theorem cutDump_mem (s) : (cutDump s).mem = s.mem := by simp [cutDump]

@[simp] theorem loseDump_mem (s) : (loseDump s).mem = s.mem := by simp [loseDump]

@[simp] theorem clearAll_mem (s phase txEpoch) : (clearAll s phase txEpoch).mem = s.mem := by rfl

@[simp] theorem clearPower_mem (s) : (clearPower s).mem = s.mem := by simp [clearPower]

@[simp] theorem logImage_mem (s event i) : (logImage s event i).mem = s.mem := by rfl

@[simp] theorem logBoot_mem (s i cause) : (logBoot s i cause).mem = s.mem := by rfl

@[simp] theorem countTrial_mem (s) : (countTrial s).mem = s.mem := by simp [countTrial]

@[simp] theorem boot_mem (cause s0) : (boot cause s0).mem = s0.mem := by
  unfold boot
  dsimp only
  split <;> simp

@[simp] theorem startLanes_mem (s) : (startLanes s).mem = s.mem := by simp [startLanes]

@[simp] theorem replayed_mem (s) : (replayed s).1.mem = s.mem := by
  unfold replayed
  split <;> simp

@[simp] theorem restoreAuth_mem (s) : (restoreAuth s).mem = s.mem := by rfl

@[simp] theorem restore_mem (s0) : (restore s0).mem = s0.mem := by simp [restore]

@[simp] theorem reasonsAgain_mem (s) : (reasonsAgain s).mem = s.mem := by simp [reasonsAgain]

@[simp] theorem loseMaster_mem (s) : (loseMaster s).mem = s.mem := by simp [loseMaster]

@[simp] theorem takeTables_mem (copy s) : (takeTables copy s).mem = s.mem := by
  unfold takeTables
  split <;> simp

@[simp] theorem applyLayout_mem (s) : (applyLayout s).mem = s.mem := by simp [applyLayout]

@[simp] theorem applyWidths_mem (s) : (applyWidths s).mem = s.mem := by simp [applyWidths]

@[simp] theorem dropStripes_mem (s bad) : (dropStripes s bad).mem = s.mem := by simp [dropStripes]

@[simp] theorem tellMap_mem (s) : (tellMap s).mem = s.mem := by simp [tellMap]

@[simp] theorem checkMaps_mem (s) : (checkMaps s).mem = s.mem := by simp [checkMaps]

@[simp] theorem applyStripes_mem (s) : (applyStripes s).mem = s.mem := by simp [applyStripes]

@[simp] theorem tellSextant_mem (s) : (tellSextant s).mem = s.mem := by
  unfold tellSextant
  dsimp only
  rw [foldl_mem (fun t u => by simp), foldl_mem (fun t u => by simp)]

@[simp] theorem askSextant_mem (s) : (askSextant s).mem = s.mem := by simp [askSextant]

@[simp] theorem openPort_mem (s p) : (openPort s p).mem = s.mem := by simp [openPort]

@[simp] theorem bringUp_mem (copy s) : (bringUp copy s).mem = s.mem := by simp [bringUp]

@[simp] theorem startUp_mem (copy s) : (startUp copy s).mem = s.mem := by simp [startUp]

@[simp] theorem runningInst_mem (s causes) : (runningInst s causes).mem = s.mem := by rfl

@[simp] theorem logReset_mem (s level target escalated) : (logReset s level target escalated).mem = s.mem := by rfl

@[simp] theorem addRunning_mem (s level target causes escalated) : (addRunning s level target causes escalated).mem = s.mem := by rfl

@[simp] theorem resetDone_mem (s level target) : (resetDone s level target).mem = s.mem := by simp [resetDone]

@[simp] theorem resetAll_memInv (s l) (h : MemInv s.mem) : MemInv (resetAll s l).mem := by simp +contextual [resetAll, h]

@[simp] theorem dropHeld_mem (s x) : (dropHeld s x).mem = s.mem := by simp [dropHeld]

@[simp] theorem dropClaims_mem (s key) : (dropClaims s key).mem = s.mem := by simp [dropClaims]

@[simp] theorem partitionWork_memInv (s p) (h : MemInv s.mem) : MemInv (partitionWork s p).mem := by simp [partitionWork, h]

@[simp] theorem startReset_memInv (s level target causes escalated) (h : MemInv s.mem) : MemInv (startReset s level target causes escalated).mem := by simp [startReset, h]

@[simp] theorem applyReset_memInv (v s) (h : MemInv s.mem) : verdictMemInv (applyReset v s) := by simp [applyReset, h]

@[simp] theorem autoContextReset_memInv (c s) (h : MemInv s.mem) : MemInv (autoContextReset c s).mem := by simp [autoContextReset, h]

@[simp] theorem abandonMirror_mem (s c) : (abandonMirror s c).mem = s.mem := by simp [abandonMirror]

@[simp] theorem mirrorAbandonTimeout_mem (e s) : (mirrorAbandonTimeout e s).mem = s.mem := by
  unfold mirrorAbandonTimeout
  split <;> simp

@[simp] theorem departPort_memInv (reason s p) (h : MemInv s.mem) : MemInv (departPort reason s p).mem := by simp [departPort, h]

@[simp] theorem idlePort_mem (s p) : (idlePort s p).mem = s.mem := by simp [idlePort]

@[simp] theorem departAll_memInv (s reason) (h : MemInv s.mem) : MemInv (departAll s reason).mem := by simp +contextual [departAll, h]

@[simp] theorem idleAll_mem (s) : (idleAll s).mem = s.mem := by simp [idleAll]

@[simp] theorem powerCycle_memInv (s causes expired forced) (h : MemInv s.mem) : MemInv (powerCycle s causes expired forced).mem := by simp [powerCycle, h]

@[simp] theorem instanceReset_memInv (dump causes escalated copy s) (h : MemInv s.mem) : MemInv (instanceReset dump causes escalated copy s).mem := by simp [instanceReset, h]

@[simp] theorem applyInstReset_memInv (v copy s) (h : MemInv s.mem) : verdictMemInv (applyInstReset v copy s) := by simp [applyInstReset, h]

@[simp] theorem resetWrite_memInv (w v copy s) (h : MemInv s.mem) : MemInv (resetWrite w v copy s).mem := by
  refine fromPath_memInv (fun u hu => transact_memInv (fun t ht => ?_) hu) h
  have hp := performWrite_memInv (q := writeReq w 0x7200 2 (leBytes 1 v))
    (apply := fun x => inRange (v == 1 || v == 2) (ok x)) (fun _ hx => by simp [hx]) ht
  dsimp only
  split
  · exact instanceReset_memInv _ _ _ _ _ hp
  · exact hp

@[simp] theorem restampBlocks_mem (s) : (restampBlocks s).mem = s.mem := by rfl

@[simp] theorem resetComplete_mem (level target s) : (resetComplete level target s).mem = s.mem := by simp [resetComplete]

@[simp] theorem escalate_memInv (s level target causes forced copy) (h : MemInv s.mem) :
    MemInv (escalate s level target causes forced copy).mem := by
  have h1 (f : Faults → Faults) : MemInv (setFaults s f).mem := by simpa using h
  unfold escalate
  dsimp only
  split
  · exact startReset_memInv _ _ _ _ _ (h1 _)
  · split
    · exact instanceReset_memInv _ _ _ _ _ (h1 _)
    · split
      · exact powerCycle_memInv _ _ _ _ (h1 _)
      · exact h1 _

@[simp] theorem expire_memInv (r copy s) (h : MemInv s.mem) : MemInv (expire r copy s).mem := by simp [expire, h]

@[simp] theorem resetBoundExpiry_memInv (level target copy s) (h : MemInv s.mem) : MemInv (resetBoundExpiry level target copy s).mem := by
  unfold resetBoundExpiry
  split <;> simp [h]

@[simp] theorem forcedExpiry_memInv (s m copy) (h : MemInv s.mem) : MemInv (forcedExpiry s m copy).mem := by simp [forcedExpiry, h]

@[simp] theorem actOn_memInv (copy s m) (h : MemInv s.mem) : MemInv (actOn copy s m).mem := by simp [actOn, h]

@[simp] theorem faultIntake_memInv (copy s) (h : MemInv s.mem) : MemInv (faultIntake copy s).mem := by
  unfold faultIntake
  split <;> simp [h]

@[simp] theorem startSlice_mem (s p k) : (startSlice s p k).mem = s.mem := by simp [startSlice]

@[simp] theorem laneSlice_mem (p s) : (laneSlice p s).mem = s.mem := by
  unfold laneSlice
  split
  · simp
  · split <;> simp

@[simp] theorem deviceFault_mem (s l kind) : (deviceFault s l kind).mem = s.mem := by simp [deviceFault]

@[simp] theorem sliceOutcome_mem (s l ref rx tx) : (sliceOutcome s l ref rx tx).mem = s.mem := by simp [sliceOutcome]

@[simp] theorem finishSlice_mem (s p l rx) : (finishSlice s p l rx).mem = s.mem := by simp [finishSlice]

@[simp] theorem sliceCheck_mem (s p l c pass) : (sliceCheck s p l c pass).mem = s.mem := by
  unfold sliceCheck
  split <;> simp

@[simp] theorem sliceCheckEnd_mem (l c bits errors s) : (sliceCheckEnd l c bits errors s).mem = s.mem := by
  unfold sliceCheckEnd
  split
  · simp
  · split <;> simp

@[simp] theorem mapBank_mem (s n b) : (mapBank s n b).mem = s.mem := by rfl

@[simp] theorem storeSlice_mem (s) : (storeSlice s).mem = s.mem := by
  unfold storeSlice
  split
  · simp
  · split <;> simp

@[simp] theorem spareWaiting_mem (s) : (spareWaiting s).mem = s.mem := by simp [spareWaiting]

@[simp] theorem storePassed_mem (s n b sp) : (storePassed s n b sp).mem = s.mem := by rfl

@[simp] theorem storeFailed_mem (s n b sp) : (storeFailed s n b sp).mem = s.mem := by simp [storeFailed]

@[simp] theorem retentionWaitEnd_mem (pass s) : (retentionWaitEnd pass s).mem = s.mem := by
  unfold retentionWaitEnd
  split <;> simp

@[simp] theorem raiseTrim_mem (s u) : (raiseTrim s u).mem = s.mem := by simp [raiseTrim]

@[simp] theorem trimRecovery_mem (s u slack) : (trimRecovery s u slack).mem = s.mem := by simp [trimRecovery]

@[simp] theorem sextantSlice_memInv (pass repeatPass slack s) (h : MemInv s.mem) :
    MemInv (sextantSlice pass repeatPass slack s).mem := by
  unfold sextantSlice
  split
  · exact h
  · split
    · exact h
    · rename_i u _
      dsimp only
      split
      · simpa using h
      · have h1 := closeLines_memInv (setTest s fun t => { t with sextAt := s.mer.count, nextUnit := (u + 1) % 16 }) u
          (by simpa using h)
        split
        · simpa using h1
        · exact outOfService_memInv _ _ (by simpa using h1)

@[simp] theorem applyCommit_memInv (n s) (h : MemInv s.mem) : verdictMemInv (applyCommit n s) := by
  unfold applyCommit
  split <;> simp [h]

@[simp] theorem burnRecord_mem (s0 r) : (burnRecord s0 r).mem = s0.mem := by simp [burnRecord]

@[simp] theorem fuseCommitDone_mem (s) : (fuseCommitDone s).mem = s.mem := by
  unfold fuseCommitDone
  dsimp only
  split
  · simp
  · split <;> simp

@[simp] theorem plcaStatusOk_mem (s) : (plcaStatusOk s).mem = s.mem := by rfl

@[simp] theorem eventAck_mem (eseq s) : (eventAck eseq s).mem = s.mem := by simp [eventAck]

@[simp] theorem eventResend_mem (eseq s) : (eventResend eseq s).mem = s.mem := by
  unfold eventResend
  split <;> simp

@[simp] theorem announceAck_mem (s) : (announceAck s).mem = s.mem := by simp [announceAck]

@[simp] theorem announceResend_mem (s) : (announceResend s).mem = s.mem := by simp [announceResend]

@[simp] theorem compassWatchdog_mem (s) : (compassWatchdog s).mem = s.mem := by simp [compassWatchdog]

@[simp] theorem decideWaiting_mem (s p) : (decideWaiting s p).mem = s.mem := by
  unfold decideWaiting
  dsimp only
  split <;> simp

@[simp] theorem sendFirst_mem (s e) : (sendFirst s e).mem = s.mem := by simp [sendFirst]

@[simp] theorem compassBack_mem (s) : (compassBack s).mem = s.mem := by simp [compassBack]

@[simp] theorem badSector_mem (s) : (badSector s).mem = s.mem := by simp [badSector]

@[simp] theorem journalRecord_mem (flashOk s) : (journalRecord flashOk s).mem = s.mem := by
  unfold journalRecord
  split <;> simp

@[simp] theorem journalAppend_mem (flashOk bad s) : (journalAppend flashOk bad s).mem = s.mem := by simp [journalAppend]

@[simp] theorem applyKey_memInv (slot wrapped a s) (h : MemInv s.mem) : verdictMemInv (applyKey slot wrapped a s) := by
  unfold applyKey
  split <;> simp [h]

@[simp] theorem applyBegin_memInv (len s) (h : MemInv s.mem) : verdictMemInv (applyBegin len s) := by simp [applyBegin, h]

@[simp] theorem updateEraseDone_mem (s) : (updateEraseDone s).mem = s.mem := by simp [updateEraseDone]

@[simp] theorem programBlock_mem (s b) : (programBlock s b).mem = s.mem := by simp [programBlock]

@[simp] theorem applyBlock_memInv (b s) (h : MemInv s.mem) : verdictMemInv (applyBlock b s) := by
  unfold applyBlock
  split <;> simp [h]

@[simp] theorem verifyUpdate_mem (s) : (verifyUpdate s).mem = s.mem := by simp [verifyUpdate]

@[simp] theorem applyFinish_memInv (on s) (h : MemInv s.mem) : verdictMemInv (applyFinish on s) := by
  unfold applyFinish
  split
  · simp [h]
  · split <;> simp [h]

@[simp] theorem applyConfirm_memInv (on s) (h : MemInv s.mem) : verdictMemInv (applyConfirm on s) := by
  unfold applyConfirm
  split <;> simp [h]

@[simp] theorem confirmWindowExpiry_mem (s) : (confirmWindowExpiry s).mem = s.mem := by simp [confirmWindowExpiry]

@[simp] theorem abandonUpdate_mem (s) : (abandonUpdate s).mem = s.mem := by simp [abandonUpdate]

@[simp] theorem applyCable_memInv (owner b s) (h : MemInv s.mem) : verdictMemInv (applyCable owner b s) := by simp [applyCable, h]

@[simp] theorem applyPrepare_memInv (on s) (h : MemInv s.mem) : verdictMemInv (applyPrepare on s) := by
  unfold applyPrepare
  split <;> simp [h]

@[simp] theorem applyService_memInv (on s) (h : MemInv s.mem) : verdictMemInv (applyService on s) := by simp [applyService, h]

theorem notePart_mem {s t : State} {owner index sub off : Nat} (ht : notePart s owner index sub off = some t) :
    t.mem = s.mem := by
  unfold notePart at ht
  dsimp only at ht
  split at ht
  · cases ht; rfl
  · split at ht
    · cases ht; simp
    · split at ht
      · cases ht
      · cases ht; rfl

@[simp] theorem performRead_mem (q s) : (performRead q s).mem = s.mem := by
  unfold performRead
  dsimp only
  split
  · simp
  · split
    · simp
    · split
      · simp
      · split
        · rename_i hp
          simp [notePart_mem hp]
        · simp

@[simp] theorem plain_memInv (owner index sub v s) (h : MemInv s.mem) : verdictMemInv (plain owner index sub v s) := by simp [plain, h]

@[simp] theorem applySessionReset_memInv (owner on s) (h : MemInv s.mem) : verdictMemInv (applySessionReset owner on s) := by simp [applySessionReset, h]

@[simp] theorem applyFlagClear_memInv (l on s) (h : MemInv s.mem) : verdictMemInv (applyFlagClear l on s) := by simp [applyFlagClear, h]

@[simp] theorem applyControl_memInv (c v s) (h : MemInv s.mem) : verdictMemInv (applyControl c v s) := by
  unfold applyControl
  split
  · simp [h]
  · split <;> simp [h]

@[simp] theorem whenOff_memInv (c f s) (h : MemInv s.mem) : verdictMemInv (whenOff c f s) := by simp [whenOff, h]

@[simp] theorem applyClear_memInv (c on f s) (h : MemInv s.mem) : verdictMemInv (applyClear c on f s) := by simp [applyClear, h]

@[simp] theorem applyGuarantee_memInv (owner v s) (h : MemInv s.mem) : verdictMemInv (applyGuarantee owner v s) := by simp [applyGuarantee, h]

@[simp] theorem applyErrorRate_memInv (owner v s) (h : MemInv s.mem) : verdictMemInv (applyErrorRate owner v s) := by simp [applyErrorRate, h]

@[simp] theorem applyOwnNode_memInv (owner v s) (h : MemInv s.mem) : verdictMemInv (applyOwnNode owner v s) := by simp [applyOwnNode, h]

@[simp] theorem applyChartRate_memInv (owner v s) (h : MemInv s.mem) : verdictMemInv (applyChartRate owner v s) := by simp [applyChartRate, h]

@[simp] theorem applyWatermark_memInv (owner sub v s) (h : MemInv s.mem) : verdictMemInv (applyWatermark owner sub v s) := by simp [applyWatermark, h]

@[simp] theorem shareSextant_memInv (sub v a) (h : verdictMemInv a) : verdictMemInv (shareSextant sub v a) := by
  unfold shareSextant
  split
  · rw [verdictMemInv_done] at h ⊢
    split
    · split <;> simpa using h
    · exact h
  · exact h

@[simp] theorem applyPorts_memInv (owner index sub v n value s) (h : MemInv s.mem) : optMemInv (applyPorts owner index sub v n value s) := by
  unfold applyPorts
  split <;> simp [h]

@[simp] theorem applyTables_memInv (q owner v n s) (h : MemInv s.mem) : optMemInv (applyTables q owner v n s) := by
  unfold applyTables
  dsimp only
  split
  case h_22 =>
    split <;> simp [h]
  all_goals simp [h]

@[simp] theorem applyUnits_memInv (owner index sub v n value s) (h : MemInv s.mem) :
    optMemInv (applyUnits owner index sub v n value s) := by
  unfold applyUnits
  split <;> simp [h]

@[simp] theorem applyManage_memInv (q owner v n s) (h : MemInv s.mem) : optMemInv (applyManage q owner v n s) := by
  unfold applyManage
  split
  case h_12 =>
    split <;> simp [h]
  all_goals simp [h]

theorem firstVerdict_memInv {d : Verdict} {l : List (Option Verdict)} (hd : verdictMemInv d) (hl : ∀ v ∈ l, optMemInv v) :
    verdictMemInv (firstVerdict d l) := by
  induction l with
  | nil => exact hd
  | cons v r ih =>
    cases v with
    | none => exact ih fun w hw => hl w (List.mem_cons_of_mem _ hw)
    | some v => exact hl _ List.mem_cons_self

@[simp] theorem applyStored_memInv (q owner v s) (h : MemInv s.mem) : verdictMemInv (applyStored q owner v s) := by
  unfold applyStored
  repeat' split
  all_goals simp [h]

@[simp] theorem applyEntry_memInv (q s) (h : MemInv s.mem) : verdictMemInv (applyEntry q s) := by
  unfold applyEntry
  dsimp only
  refine firstVerdict_memInv (applyStored_memInv _ _ _ _ h) fun v hv => ?_
  simp only [List.mem_cons, List.not_mem_nil, or_false] at hv
  obtain rfl | rfl | rfl | rfl := hv
  · exact applyPorts_memInv _ _ _ _ _ _ _ h
  · exact applyTables_memInv _ _ _ _ _ h
  · exact applyUnits_memInv _ _ _ _ _ _ _ h
  · exact applyManage_memInv _ _ _ _ _ h

@[simp] theorem performAny_memInv (q s) (h : MemInv s.mem) : MemInv (performAny q s).mem := by
  unfold performAny
  split
  · exact performWrite_memInv (fun t ht => applyEntry_memInv q t ht) h
  · simpa using h

@[simp] theorem transactAny_memInv (s q) (h : MemInv s.mem) : MemInv (transactAny s q).mem :=
  transact_memInv (fun t ht => performAny_memInv q t ht) h

@[simp] theorem settleHeld_memInv (s) (h : MemInv s.mem) : MemInv (settleHeld s).mem := by
  unfold settleHeld
  split
  · exact foldl_memInv (fun t q ht => transactAny_memInv t q ht) _ _ h
  · exact h

@[simp] theorem dictionaryWrite_memInv (w index sub value s) (h : MemInv s.mem) :
    MemInv (dictionaryWrite w index sub value s).mem :=
  dictWrite_memInv (fun t ht => applyEntry_memInv _ t ht) h

@[simp] theorem countMalformed_mem (s) : (countMalformed s).mem = s.mem := by simp [countMalformed]

@[simp] theorem fdpMalformed_mem (frame s) : (fdpMalformed frame s).mem = s.mem := by simp [fdpMalformed]

@[simp] theorem dictionarySubmit_memInv (number length request s) (h : MemInv s.mem) :
    MemInv (dictionarySubmit number length request s).mem := by
  unfold dictionarySubmit
  refine fromPath_memInv (fun t ht => ?_) h
  split
  · exact transactAny_memInv _ _ ht
  · split
    · exact transactAny_memInv _ _ ht
    · split
      · simpa using ht
      · exact ht

@[simp] theorem drainAnswer_memInv (s q st reason) (h : MemInv s.mem) : MemInv (drainAnswer s q st reason).mem := by simp [drainAnswer, h]

@[simp] theorem windowDrainEnd_memInv (s) (h : MemInv s.mem) : MemInv (windowDrainEnd s).mem := by
  unfold windowDrainEnd
  split <;> simp [h]

@[simp] theorem windowDrainTimeout_memInv (s) (h : MemInv s.mem) : MemInv (windowDrainTimeout s).mem := by
  unfold windowDrainTimeout
  split <;> simp [h]

@[simp] theorem storeShared_memInv (u s) (h : MemInv s.mem) : MemInv (storeShared u s).mem := by
  unfold storeShared
  dsimp only
  split
  · exact h
  · split
    · split
      · exact h
      · exact incarnationChanged_memInv _ _ h
    · exact h

@[simp] theorem settleStored_memInv (s) (h : MemInv s.mem) : MemInv (settleStored s).mem := by
  unfold settleStored
  split <;> simp [h]

@[simp] theorem storedBy_memInv (i s) (h : MemInv s.mem) : MemInv (storedBy i s).mem := by simp [storedBy, h]

@[simp] theorem settleAnswers_memInv (s) (h : MemInv s.mem) : MemInv (settleAnswers s).mem :=
  windowDrainTimeout_memInv _ (windowDrainEnd_memInv _ (settleStored_memInv _ h))

@[simp] theorem giveWindow_mem (i s) : (giveWindow i s).mem = s.mem := by simp [giveWindow]

@[simp] theorem takeWindow_mem (i v s) : (takeWindow i v s).mem = s.mem := by simp [takeWindow]

@[simp] theorem takeSextant_mem (sub v s) : (takeSextant sub v s).mem = s.mem := by simp [takeSextant]

@[simp] theorem takeUnit_memInv (u trimmed freq inService change s) (h : MemInv s.mem) : MemInv (takeUnit u trimmed freq inService change s).mem := by simp [takeUnit, h]

@[simp] theorem takeCounts_mem (u counts s) : (takeCounts u counts s).mem = s.mem := by
  unfold takeCounts
  split
  · rfl
  · exact foldl_mem (fun t k => by simp [setRegAt]) _ _

@[simp] theorem giveSextant_mem (s) : (giveSextant s).mem = s.mem := by simp [giveSextant]

@[simp] theorem takeMap_mem (i map widths s) : (takeMap i map widths s).mem = s.mem := by simp [takeMap]

@[simp] theorem takeStripe_mem (i p x s) : (takeStripe i p x s).mem = s.mem := by simp [takeStripe]

@[simp] theorem cascadeTableUpdate_memInv (m s) (h : MemInv s.mem) : MemInv (cascadeTableUpdate m s).mem := by
  unfold cascadeTableUpdate
  split
  · exact h
  · cases m with
    | table u => exact storeShared_memInv _ _ h
    | stored i => exact storedBy_memInv _ _ h
    | stripesBad i ports =>
      dsimp only
      split <;> simpa using h
    | _ => simp [h]

@[simp] theorem cascadeRouted_memInv (p b s) (h : MemInv s.mem) : MemInv (cascadeRouted p b s).mem := by
  unfold cascadeRouted
  split
  · exact routedArrives_memInv (fun u hu => by simpa [takeGrant] using hu) h
  · split
    · exact routedArrives_memInv (fun u hu => by simpa [takeRelease] using hu) h
    · exact routedArrives_memInv (fun u hu => by simpa [takeProbe] using hu) h

@[simp] theorem ownResponse_mem (h data s) : (ownResponse h data s).mem = s.mem := by simp [ownResponse]

@[simp] theorem cascadeData_mem (source port w s) : (cascadeData source port w s).mem = s.mem := by
  unfold cascadeData
  split
  · rfl
  · simp
  · dsimp only
    split
    · split
      · simp
      · cases hb : takeBus s _ _ with
        | none => simp
        | some t => simp [takeBus_mem hb]
    · rfl

@[simp] theorem cascadePacketReceive_memInv (source port w s) (h : MemInv s.mem) :
    MemInv (cascadePacketReceive source port w s).mem := by
  unfold cascadePacketReceive
  split
  · exact h
  · split
    · exact cascadeRouted_memInv _ _ _ h
    · simpa using h

@[simp] theorem idleStripe_memInv (s p) (h : MemInv s.mem) : MemInv (idleStripe s p).mem := by simp [idleStripe, h]

@[simp] theorem loseInst_memInv (i homes s) (h : MemInv s.mem) : MemInv (loseInst i homes s).mem := by
  have h1 (t : State) (l : List Nat) (ht : MemInv t.mem) : MemInv (l.foldl idleStripe t).mem :=
    foldl_memInv (fun t p ht => idleStripe_memInv t p ht) l t ht
  unfold loseInst
  dsimp only
  refine storedBy_memInv _ _ ?_
  split
  · exact h1 _ _ (by simpa using h)
  · exact h1 _ _ (by simpa using h)

@[simp] theorem masterAbsent_memInv (homes s) (h : MemInv s.mem) : MemInv (masterAbsent homes s).mem := by simp [masterAbsent, h]

@[simp] theorem cascadeInstanceLoss_memInv (i homes s) (h : MemInv s.mem) : MemInv (cascadeInstanceLoss i homes s).mem := by simp [cascadeInstanceLoss, h]

@[simp] theorem copyFrom_mem (i copy s) : (copyFrom i copy s).mem = s.mem := by simp [copyFrom]

@[simp] theorem masterBack_mem (s) : (masterBack s).mem = s.mem := by simp [masterBack]

@[simp] theorem cascadeInstanceReturn_mem (i copy s) : (cascadeInstanceReturn i copy s).mem = s.mem := by simp [cascadeInstanceReturn]

@[simp] theorem ringWord_mem (s) : (ringWord s).1.mem = s.mem := by rfl

@[simp] theorem captureDr_mem (s) : (captureDr s).1.mem = s.mem := by
  unfold captureDr
  split <;> simp

@[simp] theorem setTap_mem (s f) : (setTap s f).mem = s.mem := by rfl

@[simp] theorem tapRise_mem (s) : (tapRise s).mem = s.mem := by
  unfold tapRise
  dsimp only
  split <;> simp

@[simp] theorem tapFall_mem (s) : (tapFall s).mem = s.mem := by rfl

@[simp] theorem tapTick_mem (s) : (tapTick s).mem = s.mem := by simp [tapTick]

@[simp] theorem cutStops_mem (s) : (cutStops s).mem = s.mem := by simp [cutStops]

@[simp] theorem cutFlush_mem (s) : (cutFlush s).mem = s.mem := by simp [cutFlush]

@[simp] theorem cutWarnAssert_memInv (s) (h : MemInv s.mem) : MemInv (cutWarnAssert s).mem := by simp [cutWarnAssert, h]

@[simp] theorem cutWarnRelease_mem (s) : (cutWarnRelease s).mem = s.mem := by simp [cutWarnRelease]

@[simp] theorem resumeAfterCut_memInv (copy s) (h : MemInv s.mem) : MemInv (resumeAfterCut copy s).mem := by
  unfold resumeAfterCut
  split <;> simp [h]

@[simp] theorem cutWarnRecovery_memInv (copy s) (h : MemInv s.mem) : MemInv (cutWarnRecovery copy s).mem := by
  unfold cutWarnRecovery
  split
  · split
    · exact settleHeld_memInv _ (resumeAfterCut_memInv _ _ (by simpa using h))
    · exact h
  · exact h

@[simp] theorem pwrGoodFall_mem (s) : (pwrGoodFall s).mem = s.mem := by simp [pwrGoodFall]

@[simp] theorem resetNAssert_mem (s) : (resetNAssert s).mem = s.mem := by simp [resetNAssert]

@[simp] theorem releaseStart_mem (refclk copy s) : (releaseStart refclk copy s).mem = s.mem := by simp [releaseStart]

@[simp] theorem resetNRelease_memInv (inst slot refclk copy s) (h : MemInv s.mem) : MemInv (resetNRelease inst slot refclk copy s).mem := by simp [resetNRelease, h]

@[simp] theorem pwrGoodRise_memInv (refclk copy s) (h : MemInv s.mem) : MemInv (pwrGoodRise refclk copy s).mem := by simp [pwrGoodRise, h]

@[simp] theorem cutPass_memInv (e s) (h : MemInv s.mem) : MemInv (cutPass e s).mem := by
  unfold cutPass
  split <;> simp [h]

@[simp] theorem goodPass_memInv (e s) (h : MemInv s.mem) : MemInv (goodPass e s).mem := by
  unfold goodPass
  split <;> simp [h]

@[simp] theorem resetPass_memInv (e s) (h : MemInv s.mem) : MemInv (resetPass e s).mem := by
  unfold resetPass
  split <;> simp [h]

@[simp] theorem filtersTick_memInv (s) (h : MemInv s.mem) : MemInv (filtersTick s).mem := by
  have on {f : PinEdge → State → State} (hf : ∀ e t, MemInv t.mem → MemInv (f e t).mem) (e : Option PinEdge) (t : State)
      (ht : MemInv t.mem) : MemInv (match e with | some e => f e t | none => t).mem := by
    cases e with
    | none => exact ht
    | some e => exact hf e t ht
  exact on resetPass_memInv _ _ (on goodPass_memInv _ _ (on cutPass_memInv _ _ h))

@[simp] theorem pllLockRetry_memInv (refclk copy s) (h : MemInv s.mem) : MemInv (pllLockRetry refclk copy s).mem := by simp [pllLockRetry, h]

@[simp] theorem takeCallerNotice_memInv (p b s) (h : MemInv s.mem) : MemInv (takeCallerNotice p b s).mem := by
  unfold takeCallerNotice
  split
  · exact noticeOf_memInv (fun t ht => announceNotice_memInv _ _ _ ht) h
  · exact noticeOf_memInv (fun t ht => by simpa using ht) h
  · exact noticeOf_memInv (fun t ht => abortNotice_memInv _ _ ht) h
  · exact noticeOf_memInv (fun t ht => by simpa using ht) h
  · exact callerNoticeDiscard_memInv _ _ _ h

@[simp] theorem takeBlock_memInv (p b s) (h : MemInv s.mem) : MemInv (takeBlock p b s).mem := by
  unfold takeBlock
  split
  · exact linkStatusReceive_memInv _ _ _ h
  · exact nakReceive_memInv _ _ _ h
  · exact replayStartReceive_memInv _ _ _ h
  · exact linkStartReceive_memInv _ _ _ h
  · exact hailReceive_memInv _ _ _ h
  · exact departReceive_memInv _ _ _ h
  · exact beaconReceive_memInv _ _ _ h
  · exact takeCallerNotice_memInv _ _ _ h
  · exact creditGrantReceive_memInv _ _ _ h
  · exact creditReleaseReceive_memInv _ _ _ h
  · exact creditProbeReceive_memInv _ _ _ h
  · exact controlPacketDiscard_memInv _ _ _ _ h

@[simp] theorem takeMarked_memInv (p x s) (h : MemInv s.mem) : MemInv (takeMarked p x s).mem := by
  unfold takeMarked
  split
  · exact controlPacketDiscard_memInv _ _ _ _ h
  · exact takeBlock_memInv _ _ _ h

@[simp] theorem takeBlocks_memInv (p n bs s) (h : MemInv s.mem) : MemInv (takeBlocks p n bs s).mem := by
  induction n generalizing bs s with
  | zero => cases bs <;> exact h
  | succ n ih =>
    cases bs with
    | nil => exact h
    | cons x r =>
      unfold takeBlocks
      split
      · exact h
      · split
        · exact ih _ _ (by split <;> simp [h])
        · split
          · exact ih _ _ (by simp [h])
          · split
            · exact ih _ _ (by simpa using h)
            · exact ih _ _ (by simpa using h)

@[simp] theorem dataPacketReceive_memInv (p w s) (h : MemInv s.mem) : MemInv (dataPacketReceive p w s).mem := by
  unfold dataPacketReceive
  split
  · exact h
  · exact takeBlocks_memInv _ _ _ _ (by split <;> simpa using h)

theorem onLanes_mem {s : State} {p : Nat} {ls : List Nat} {f : State → Nat → Nat → State}
    (hf : ∀ t p l, (f t p l).mem = t.mem) : (onLanes s p ls f).mem = s.mem :=
  foldl_mem (fun t l => hf t p l) _ _

@[simp] theorem sendSets_mem (s p) : (sendSets s p).mem = s.mem := by
  unfold sendSets
  split
  · exact onLanes_mem fun _ _ _ => by simp
  · rfl

@[simp] theorem sendTrainingFrame_mem (st channel s p l) : (sendTrainingFrame st channel s p l).mem = s.mem := by rfl

@[simp] theorem sendStageFrames_mem (s p) : (sendStageFrames s p).mem = s.mem := by
  have hlanes (st : Stage) : (onLanes s p (portLanes s p) (sendTrainingFrame st false)).mem = s.mem :=
    onLanes_mem fun _ _ _ => by simp
  unfold sendStageFrames
  dsimp only
  generalize (match (port s p).shifting with
    | some y => y.2
    | none => (port s p).tryAt) = since
  split
  · rw [ite_mem, hlanes, ite_self]
  · rw [ite_mem, hlanes, ite_self]
  · rfl

@[simp] theorem sendSpares_mem (s p) : (sendSpares s p).mem = s.mem := by simp [sendSpares]

@[simp] theorem sendWaiting_mem (s p) : (sendWaiting s p).mem = s.mem := by simp [sendWaiting]

@[simp] theorem sendIdle_mem (s0 p) : (sendIdle s0 p).mem = s0.mem := by simp [sendIdle]

@[simp] theorem sendPattern_mem (s _p l) : (sendPattern s _p l).mem = s.mem := by rfl

@[simp] theorem sendTestBlock_mem (st s p) : (sendTestBlock st s p).mem = s.mem := by simp [sendTestBlock]

@[simp] theorem sendTest_mem (s p) : (sendTest s p).mem = s.mem := by
  unfold sendTest
  dsimp only
  split
  · rfl
  · split
    · exact onLanes_mem fun _ _ _ => by simp
    · exact foldl_mem (fun _ _ => by simp) _ _

@[simp] theorem adaptPort_mem (s p) : (adaptPort s p).mem = s.mem := by simp [adaptPort]

@[simp] theorem portTick_memInv (s p) (h : MemInv s.mem) : MemInv (portTick s p).mem := by
  unfold portTick
  simp [h]

@[simp] theorem sendTime_mem (s) : (sendTime s).mem = s.mem := by simp [sendTime]

@[simp] theorem keepUpstream_mem (s) : (keepUpstream s).mem = s.mem := by simp [keepUpstream]

/-! Every command, the tick and the step. -/

/-- No command brings memory out of its canonical form. -/
theorem exec_memInv {c : Instr} {s t : State} (he : exec c s = .next t) (h : MemInv s.mem) : MemInv t.mem := by
  cases c with
  | slotWrite ctx offset access data => cases access <;> cases he <;> simp [h]
  | announceNotice port block => cases he; exact noticeOf_memInv (fun t ht => by simp [ht]) h
  | reductionCombine unit => cases he; simpa using reductionCombine_memInv _ _ h
  | atomicExecute unit => cases he; simpa using atomicExecute_memInv _ _ h
  | _ =>
    cases he
    simp +contextual [h, dictWrite_memInv, accepting_memInv, takeResponse_memInv, noticeOf_memInv, selected, wsel]

@[simp] theorem tick_memInv (s) (h : MemInv s.mem) : MemInv (tick s).mem := by
  have hp := foldl_memInv portTick_memInv twelve s h
  exact filtersTick_memInv _ (by simpa using hp)

/-- Settles O7: each command keeps memory's canonical form (`exec_memInv`), and so does each part of the tick. -/
theorem stepKeepsInvariant : Obligations.StepKeepsInvariant := by
  unfold Obligations.StepKeepsInvariant
  intro s t h he
  unfold step at he
  split at he
  · exact Host.Outcome.next.inj he ▸ tick_memInv s h
  · exact exec_memInv he h

end Sys2Proof.Machine
end

section
/-! Commands that memory does not accept, and an aborted collective: its result buffer D gets undefined content all the
same. -/

namespace Sys2Proof.Machine
open Sys2Proof Sys2Proof.Tests

@[simp] theorem length_leBytes (n v : Nat) : (leBytes n v).length = n := by
  induction n generalizing v with
  | zero => rfl
  | succ n ih => simp [leBytes, ih]

/-- A collective that is due, and one of whose ports does not work, is aborted. -/
theorem collectiveStart_absent {s : State} {c t0 : Nat} {x : Coll} {card : Card} (hx : collOf s c = some x)
    (hcard : x.card = some card) (ht : x.t0 = some t0)
    (hdue : x.started = false ∧ x.abort = none ∧ inTurn s 8 t0 = true ∧ (cardPorts card).all (working s) = false) :
    collectiveStart c s = abortColl s c .targetAbsent true := by
  obtain ⟨hstarted, habort, hturn, hports⟩ := hdue
  simp [collectiveStart, hx, hcard, ht, hstarted, habort, hturn, hports]

/-- A collective of this inst that is aborted with no landing open gets a result buffer of undefined content. -/
theorem abortColl_mem_landed {s u : State} {c : Nat} {x : Coll} {st : Status} (hx : collOf s c = some x)
    (hgo : x.abort = none ∧ st ≠ .cancelled)
    (hu : u = dropCollData (putColl (noticeOn (bump s 0x5000 8) x 3 0 st.code none) c
      { x with abort := some st, figs := [], parts := [] }) c x)
    (hin : collOf u c = some { x with abort := some st, figs := [], parts := [] }) (hopen : landingOpen u c = false) :
    (abortColl s c st true).mem = (undefinedResult u { x with abort := some st, figs := [], parts := [] }).mem := by
  simp [abortColl, hx, hgo, ← hu, settleAbort, hin, hopen]

/-- A result buffer of one run gets a free value. -/
theorem undefinedResult_mem_run {s : State} {x : Coll} {a n : Nat} (hbar : isBarrier x = false) (habort : x.abort.isSome)
    (hruns : resultRuns s x = [(a, n)]) :
    (undefinedResult s x).mem = memWrite s.mem a (leBytes n (Config.freeValue (8 * n) s.free).toNat) := by
  obtain ⟨st, hst⟩ := Option.isSome_iff_exists.mp habort
  simp [undefinedResult, hbar, hst, hruns, scramble, freshValue]

/-- A device whose reduction, due now, has a port that does not work; the first byte of its result buffer D is 0 or 1. -/
def struck (v : Bool) : State := { collState reduceCmd reduceCard id with
  ports := [], mem := memWrite ⟨[], []⟩ 4096 [if v then 1 else 0] }

/-- That reduction, and the same once it is aborted. -/
def struckColl : Coll := aColl reduceCmd reduceCard
def struckOff : Coll := { struckColl with abort := some .targetAbsent }

/-- The device once the collective's packets are gone. -/
def struckBare (v : Bool) : State :=
  dropCollData (putColl (noticeOn (bump (struck v) 0x5000 8) struckColl 3 0 Status.targetAbsent.code none) 1 struckOff) 1
    struckColl

theorem struck_due (v : Bool) : collOf (struck v) 1 = some struckColl ∧ inTurn (struck v) 8 0 = true ∧
    (cardPorts reduceCard).all (working (struck v)) = false := by
  revert v
  decide +kernel
theorem struckBare_result (v : Bool) : collOf (struckBare v) 1 = some struckOff ∧ landingOpen (struckBare v) 1 = false ∧
    resultRuns (struckBare v) struckOff = [(4096, 256)] ∧ isBarrier struckOff = false ∧ (struckBare v).free = 0 := by
  revert v
  decide +kernel

/-- The collective's start writes a free value there, whatever stood in D. -/
theorem collectiveStart_struck_mem (v : Bool) : (collectiveStart 1 (struck v)).mem =
    memWrite (struck v).mem 4096 (leBytes 256 (Config.freeValue (8 * 256) 0).toNat) := by
  obtain ⟨hx, hturn, hports⟩ := struck_due v
  obtain ⟨hin, hopen, hruns, hbar, hfree⟩ := struckBare_result v
  have habs := collectiveStart_absent hx rfl rfl ⟨rfl, rfl, hturn, hports⟩
  have hmem : (struckBare v).mem = (struck v).mem := by simp [struckBare]
  rw [habs, abortColl_mem_landed hx ⟨rfl, by decide⟩ rfl hin hopen]
  exact (undefinedResult_mem_run hbar rfl hruns).trans (by rw [hmem, hfree])

/-- Refutes O8: an aborted collective's D has undefined content (`undefinedResult`), and the start of a collective aborts it
where one of its ports does not work. The byte that is written does not depend on the one that stood there, so that it
differs from 0 or from 1. -/
theorem not_otherCommandsLeaveMemory : ¬ Obligations.OtherCommandsLeaveMemory := by
  unfold Obligations.OtherCommandsLeaveMemory
  intro h
  have hlen : 0 < (leBytes 256 (Config.freeValue (8 * 256) 0).toNat).length := by rw [length_leBytes]; decide
  have kept (v : Bool) : (leBytes 256 (Config.freeValue (8 * 256) 0).toNat)[0] = if v then 1 else 0 := by
    have hm : (collectiveStart 1 (struck v)).mem = (struck v).mem := h (.collectiveStart 1) _ _ rfl rfl
    rw [collectiveStart_struck_mem] at hm
    have hb := congrArg (memByte · (4096 + 0)) hm
    rw [memByte_memWrite_inside _ _ _ _ hlen] at hb
    exact hb.trans (memByte_memWrite_inside [if v then 1 else 0] _ 4096 0 Nat.one_pos)
  exact absurd ((kept false).symm.trans (kept true)) (by decide)

end Sys2Proof.Machine
end

section
/-! What a device that sends on its lanes changes: the lanes, the octets, the bookkeeping of the ports' links, and what was
sent. Every function that sends answers a state in the relation `Sends` to the one before. -/

namespace Sys2Proof.Machine
open Sys2Proof

/-- Everything of the state but the ports, the lanes, the octets and what was sent. -/
def besideLanes (s : State) : State := { s with ports := [], lanes := [], octets := [], out := [] }

/-- Everything of a link but what its control packets move on: their own numbers and what waits to be sent, the counts that
put them between the data packets, and the mask that was told last. -/
def linkCore (l : Link) : Link :=
  { l with gap := 0, owed := 0, statusAt := 0, xoffTx := 0, cnext := 0, notices := [], noticeQ := [], renotice := [],
           restart := none, ctimer := none, routedQ := [], startAt := 0 }

/-- Everything of a port but that, the block it deals next and its last beacon's figures. -/
def portCore (x : Port) : Port :=
  { x with link := linkCore x.link, txBlock := 0, bseq := 0, t1 := 0, beaconAt := 0, fresh := 0, hailAt := 0 }

/-- Sending changes nothing beside the lanes, keeps every port's core and every octet's standing, and adds to what was
sent. -/
structure Sends (s t : State) : Prop where
  beside : besideLanes t = besideLanes s
  core : ∀ p, portCore (port t p) = portCore (port s p)
  states : ∀ o, (octet t o).state = (octet s o).state
  out : s.out <+: t.out

namespace Sends

theorem refl (s : State) : Sends s s := ⟨rfl, fun _ => rfl, fun _ => rfl, List.prefix_refl _⟩

theorem trans {s t u : State} (h : Sends s t) (k : Sends t u) : Sends s u :=
  ⟨k.beside.trans h.beside, fun p => (k.core p).trans (h.core p), fun o => (k.states o).trans (h.states o),
    h.out.trans k.out⟩

theorem after {s t u : State} (k : Sends t u) (h : Sends s t) : Sends s u := h.trans k

theorem foldl {α : Type} {f : State → α → State} (h : ∀ t a, Sends t (f t a)) (l : List α) (s : State) :
    Sends s (l.foldl f s) := by
  induction l generalizing s with
  | nil => exact refl s
  | cons a r ih => exact (h s a).trans (ih _)

theorem ite {c : Prop} [Decidable c] {s t u : State} (ht : Sends s t) (hu : Sends s u) : Sends s (if c then t else u) := by
  split
  · exact ht
  · exact hu

theorem emit (s : State) (o : Output) : Sends s (emit s o) := ⟨rfl, fun _ => rfl, fun _ => rfl, List.prefix_append _ _⟩

theorem setLane (s : State) (l : Nat) (x : Lane) : Sends s (setLane s l x) := ⟨rfl, fun _ => rfl, fun _ => rfl, List.prefix_refl _⟩

theorem updLane (s : State) (l : Nat) (f : Lane → Lane) : Sends s (updLane s l f) := setLane ..

theorem updOctet {f : Octet → Octet} (h : ∀ x, (f x).state = x.state) (s : State) (o : Nat) : Sends s (updOctet s o f) := by
  refine ⟨rfl, fun _ => rfl, fun k => ?_, List.prefix_refl _⟩
  by_cases hk : o = k
  · subst hk
    rw [Machine.updOctet, octet, setOctet, tgetD_tput_self, h]
  · rw [Machine.updOctet, octet, setOctet, tgetD_tput_ne _ _ _ _ _ hk, octet]

theorem setPort {s : State} {p : Nat} {x : Port} (h : portCore x = portCore (port s p)) : Sends s (setPort s p x) := by
  refine ⟨rfl, fun q => ?_, fun _ => rfl, List.prefix_refl _⟩
  by_cases hq : p = q
  · subst hq
    rw [port_setPort_self, h]
  · rw [port_setPort_ne _ _ _ _ hq]

theorem updPort {s : State} {p : Nat} {f : Port → Port} (h : ∀ x, portCore (f x) = portCore x) : Sends s (updPort s p f) :=
  setPort (h _)

theorem updLink {f : Link → Link} (h : ∀ l, linkCore (f l) = linkCore l) (s : State) (p : Nat) : Sends s (updLink s p f) :=
  updPort fun x => congrArg (fun l => { portCore x with link := l }) (h x.link)

end Sends

theorem sends_withErrors (s : State) (l : Nat) (bits : List Bool) : Sends s (withErrors s l bits).1 := by
  unfold withErrors
  dsimp only
  exact Sends.updLane ..

theorem sends_sendCharacters (s : State) (l : Nat) (cs : List Char8) : Sends s (sendCharacters s l cs) := by
  unfold sendCharacters
  dsimp only
  refine .ite ?_ ?_
  · exact ((Sends.updLane ..).trans (sends_withErrors ..)).trans (Sends.emit ..)
  · exact (Sends.updLane ..).trans (Sends.emit ..)

theorem sends_sendBlockA (s : State) (o : Nat) (b : Bytes) : Sends s (sendBlockA s o b) :=
  Sends.foldl (fun _ _ => Sends.foldl (fun _ _ => sends_sendCharacters ..) ..) ..

theorem sends_injectFrame (s : State) (o : Nat) (words : List (List Nat)) : Sends s (injectFrame s o words).1 := by
  unfold injectFrame
  dsimp only
  split
  · exact .refl s
  · split
    · dsimp only
      exact Sends.updOctet (fun _ => by rfl) ..
    · dsimp only
      exact (Sends.updOctet (fun _ => by rfl) ..).trans (Sends.emit ..)

theorem sends_sendFrameLane (words : List (List Nat)) (k : Nat) (s : State) (l : Nat) :
    Sends s (sendFrameLane words k s l) := by
  unfold sendFrameLane
  dsimp only
  refine Sends.trans ?_ ((Sends.updLane ..).trans (Sends.emit ..))
  split
  · exact sends_withErrors ..
  · exact .refl s

theorem sends_sendFecFrame (s : State) (o : Nat) (data : Bytes) : Sends s (sendFecFrame s o data) :=
  (sends_injectFrame ..).trans (Sends.foldl (fun _ _ => Sends.foldl (fun _ _ => sends_sendFrameLane ..) ..) ..)

theorem sends_fillFrame (s : State) (o : Nat) (b : Bytes) : Sends s (fillFrame s o b) := by
  unfold fillFrame
  exact .ite (Sends.updOctet (fun _ => by rfl) ..) ((Sends.updOctet (fun _ => by rfl) ..).trans (sends_sendFecFrame ..))

theorem sends_dealBlock (st : Stage) (os : List Nat) (s : State) (p : Nat) (b : Bytes) :
    Sends s (dealBlock st os s p b) := by
  have hcount : Sends s (updPort s p fun x => { x with txBlock := (port s p).txBlock + 1 }) := Sends.updPort fun _ => rfl
  unfold dealBlock
  dsimp only
  split
  · exact hcount
  · exact hcount.trans (.ite (sends_sendBlockA ..) (sends_fillFrame ..))

theorem sends_streamOut (s : State) (p : Nat) (data : Bytes) : Sends s (streamOut s p data) := by
  unfold streamOut
  split
  · exact .refl s
  · exact Sends.foldl (fun _ _ => sends_dealBlock ..) ..

theorem sends_sendBlock (s : State) (p : Nat) (urgent : Bool) (b : BitVec 256) : Sends s (sendBlock s p urgent b) :=
  (sends_streamOut ..).after ((Sends.emit ..).after (Sends.updLink (fun _ => by rfl) ..))

theorem sends_sendControl (s : State) (p ctype : Nat) (body : List (Nat × Nat × Nat)) :
    Sends s (sendControl s p ctype body) := sends_sendBlock ..

theorem sends_sendStatus (s : State) (p : Nat) (xoff : Bool) : Sends s (sendStatus s p xoff) :=
  (sends_sendBlock ..).after (Sends.updLink (fun _ => by rfl) ..)

theorem sends_sendNumbered (s : State) (p : Nat) (b : BitVec 256) : Sends s (sendNumbered s p b) :=
  (sends_sendBlock ..).after (Sends.updLink (fun _ => by rfl) ..)

theorem sends_nextNotice {s t : State} {p : Nat} (h : nextNotice s p = some t) : Sends s t := by
  unfold nextNotice at h
  dsimp only at h
  split at h
  · cases h
    exact (sends_sendBlock ..).after (Sends.updLink (fun _ => by rfl) ..)
  · split at h
    · cases h
      exact (sends_sendNumbered ..).after (Sends.updLink (fun _ => by rfl) ..)
    · cases h
  · cases h

theorem sends_nextWaiting {s t : State} {p : Nat} (h : nextWaiting s p = some t) : Sends s t := by
  unfold nextWaiting at h
  split at h
  · split at h
    · cases h
      exact (sends_sendControl ..).after (Sends.updLink (fun _ => by rfl) ..)
    · cases h
  · split at h
    · cases h
    · split at h
      · cases h
        exact sends_sendStatus ..
      · split at h
        · rename_i hn
          cases h
          exact sends_nextNotice hn
        · cases h
          exact (sends_sendBlock ..).after (Sends.updLink (fun _ => by rfl) ..)
        · cases h

theorem sends_drainControl (n : Nat) (s : State) (p : Nat) : Sends s (drainControl n s p) := by
  induction n generalizing s with
  | zero => exact .refl s
  | succ n ih =>
    unfold drainControl
    split
    · rename_i t ht
      exact (sends_nextWaiting ht).trans (ih t)
    · exact .refl s

theorem sends_sendBeacon (s : State) (p : Nat) : Sends s (sendBeacon s p) := by
  unfold sendBeacon
  refine Sends.trans ?_ (sends_sendControl ..)
  exact Sends.setPort rfl

theorem sends_beaconSend (p : Nat) (s : State) : Sends s (beaconSend p s) := by
  unfold beaconSend
  exact .ite ((sends_sendBeacon ..).trans (sends_drainControl ..)) (.refl s)

/-! The parts of a port's turn in the tick. -/

theorem sends_onLanes {f : State → Nat → Nat → State} (h : ∀ t p l, Sends t (f t p l)) (s : State) (p : Nat) (ls : List Nat) :
    Sends s (onLanes s p ls f) := Sends.foldl (fun _ _ => h ..) ..

theorem sends_sendSets (s : State) (p : Nat) : Sends s (sendSets s p) := by
  unfold sendSets
  exact .ite (sends_onLanes (fun _ _ _ => (sends_sendCharacters ..).trans (Sends.updLane ..)) ..) (.refl s)

theorem sends_sendTrainingFrame (st : Stage) (channel : Bool) (s : State) (p l : Nat) :
    Sends s (sendTrainingFrame st channel s p l) := (Sends.updLane ..).trans (Sends.emit ..)

theorem sends_sendStageFrames (s : State) (p : Nat) : Sends s (sendStageFrames s p) := by
  unfold sendStageFrames
  dsimp only
  split
  · exact .ite (.refl s) (sends_onLanes (sends_sendTrainingFrame _ _) ..)
  · exact .ite (.refl s) (sends_onLanes (sends_sendTrainingFrame _ _) ..)
  · exact .refl s

theorem sends_sendSpares (s : State) (p : Nat) : Sends s (sendSpares s p) := by
  unfold sendSpares
  exact .ite (.refl s) (Sends.foldl (fun _ _ => sends_sendTrainingFrame ..) ..)

theorem sends_sendWaiting (s : State) (p : Nat) : Sends s (sendWaiting s p) := by
  unfold sendWaiting
  exact .ite ((sends_beaconSend ..).trans (sends_drainControl ..)) (.refl s)

theorem sends_sendIdle (s : State) (p : Nat) : Sends s (sendIdle s p) := by
  unfold sendIdle
  exact .ite (sends_sendWaiting ..) ((sends_sendWaiting ..).trans (Sends.foldl (fun _ _ => sends_sendBlock ..) ..))

theorem sends_sendPattern (s : State) (p l : Nat) : Sends s (sendPattern s p l) := (Sends.updLane ..).trans (Sends.emit ..)

theorem sends_sendTestBlock (st : Stage) (s : State) (p : Nat) : Sends s (sendTestBlock st s p) :=
  (Sends.updLane ..).trans (sends_dealBlock ..)

theorem sends_sendTest (s : State) (p : Nat) : Sends s (sendTest s p) := by
  unfold sendTest
  dsimp only
  split
  · exact .refl s
  · split
    · exact sends_onLanes sends_sendPattern ..
    · exact Sends.foldl (fun _ _ => sends_sendTestBlock ..) ..

theorem sends_adaptPort (s : State) (p : Nat) : Sends s (adaptPort s p) := by
  unfold adaptPort
  exact .ite (.refl s) (Sends.foldl (fun _ _ => .ite (.refl _) (Sends.updLane ..)) ..)

end Sys2Proof.Machine
end

section
/-! The tick of a device with nothing due: what passes besides the ports' sending, and the filters of the pins. -/

namespace Sys2Proof.Machine
open Sys2Proof

/-- The state after a tick but for the filters of CUT_WARN_N, PWR_GOOD and RESET_N. -/
def ticked (s : State) : State :=
  tapTick (tickTime (keepUpstream (sendTime (noteOperating (sendFrames (twelve.foldl portTick s))))))

theorem tick_eq (s : State) : tick s = filtersTick (ticked s) := rfl

/-- Everything that a tick with nothing due leaves. -/
def besideTick (s : State) : State :=
  { besideLanes s with
    clock := 0, mer := Meridian.reset, pins := { s.pins with tap := Tap.reset }, mgmt := { s.mgmt with journal := [] },
    free := 0 }

/-- The parts that such a tick changes, taken from another state. -/
def withTick (s t : State) : State :=
  { s with
    clock := t.clock, mer := t.mer, ports := t.ports, lanes := t.lanes, octets := t.octets, out := t.out,
    pins := { s.pins with tap := t.pins.tap }, mgmt := { s.mgmt with journal := t.mgmt.journal }, free := t.free }

theorem eq_withTick {s t : State} (h : besideTick t = besideTick s) : t = withTick s t :=
  calc t = withTick (besideTick t) t := rfl
    _ = withTick (besideTick s) t := by rw [h]
    _ = withTick s t := rfl

/-- What passes in a tick with nothing due, but for the time: the ports keep their core, and to what was sent and to the
journal something may be added. -/
structure Passes (s t : State) : Prop where
  beside : besideTick t = besideTick s
  core : ∀ p, portCore (port t p) = portCore (port s p)
  out : s.out <+: t.out
  journal : s.mgmt.journal <+: t.mgmt.journal

theorem Passes.trans {s t u : State} (h : Passes s t) (k : Passes t u) : Passes s u :=
  ⟨k.beside.trans h.beside, fun p => (k.core p).trans (h.core p), h.out.trans k.out, h.journal.trans k.journal⟩

theorem Passes.refl (s : State) : Passes s s := ⟨rfl, fun _ => rfl, List.prefix_refl _, List.prefix_refl _⟩

theorem besideTick_of_besideLanes {s t : State} (h : besideLanes t = besideLanes s) : besideTick t = besideTick s :=
  congrArg (fun b : State => { b with
    clock := 0, mer := Meridian.reset, pins := { b.pins with tap := Tap.reset }, mgmt := { b.mgmt with journal := [] },
    free := 0 }) h

theorem Sends.mer {s t : State} (h : Sends s t) : t.mer = s.mer :=
  show (besideLanes t).mer = (besideLanes s).mer by rw [h.beside]

theorem Sends.clock {s t : State} (h : Sends s t) : t.clock = s.clock :=
  show (besideLanes t).clock = (besideLanes s).clock by rw [h.beside]

theorem Sends.pins {s t : State} (h : Sends s t) : t.pins = s.pins :=
  show (besideLanes t).pins = (besideLanes s).pins by rw [h.beside]

theorem Sends.mgmt {s t : State} (h : Sends s t) : t.mgmt = s.mgmt :=
  show (besideLanes t).mgmt = (besideLanes s).mgmt by rw [h.beside]

theorem Sends.passes {s t : State} (h : Sends s t) : Passes s t :=
  ⟨besideTick_of_besideLanes h.beside, h.core, h.out, h.mgmt ▸ List.prefix_refl _⟩

/-! The ports -/

/-- A port has no stage to begin, no shift to end and no failed lane. -/
def QuietPort (x : Port) : Prop := x.stepAt = none ∧ x.shifting = none ∧ x.failAt = none

theorem quietPort_core {x y : Port} (h : portCore x = portCore y) (hy : QuietPort y) : QuietPort x := by
  obtain ⟨hstep, hshift, hfail⟩ := hy
  refine ⟨?_, ?_, ?_⟩
  · exact (congrArg Port.stepAt h).trans hstep
  · exact (congrArg Port.shifting h).trans hshift
  · exact (congrArg Port.failAt h).trans hfail

theorem portTick_quiet {s : State} {p : Nat} (h : QuietPort (port s p)) : Sends s (portTick s p) := by
  obtain ⟨hstep, hshift, hfail⟩ := h
  have hs : settleFails (afterShift (stepUp s p) p) p = s := by
    simp [stepUp, hstep, afterShift, shiftOver, hshift, settleFails, hfail]
  unfold portTick
  rw [hs]
  exact ((((sends_sendSets ..).trans (sends_sendStageFrames ..)).trans (sends_sendSpares ..)).trans (sends_sendIdle ..)).trans
    ((sends_sendTest ..).trans (sends_adaptPort ..))

theorem foldl_portTick_quiet {ps : List Nat} {s : State} (h : ∀ p ∈ ps, QuietPort (port s p)) :
    Sends s (ps.foldl portTick s) := by
  induction ps generalizing s with
  | nil => exact .refl s
  | cons p r ih =>
    have hp := portTick_quiet (h p (by simp))
    rw [List.foldl_cons]
    exact hp.trans (ih fun q hq => quietPort_core (hp.core q) (h q (by simp [hq])))

theorem sendFrames_unbooked {s : State} (h : s.pins.booked = []) : sendFrames s = s := by simp [sendFrames, h]

/-! The rest of the tick -/

theorem passes_noteOperating (s : State) : Passes s (noteOperating s) := by
  unfold noteOperating
  split
  · exact ⟨rfl, fun _ => rfl, List.prefix_refl _, List.prefix_append _ _⟩
  · exact .refl s

theorem passes_sendTime (s : State) : Passes s (sendTime s) := by
  unfold sendTime
  split
  · exact .refl s
  · exact ⟨rfl, fun _ => rfl, List.prefix_append _ _, List.prefix_refl _⟩

theorem passes_keepUpstream (s : State) : Passes s (keepUpstream s) := by
  unfold keepUpstream
  split
  · exact ⟨rfl, fun _ => rfl, List.prefix_refl _, List.prefix_refl _⟩
  · exact .refl s

theorem passes_tickTime (s : State) : Passes s (tickTime s) := ⟨rfl, fun _ => rfl, List.prefix_refl _, List.prefix_refl _⟩

/-- Nothing but the free values drawn and the pins' TAP changes. -/
def TapOnly (s t : State) : Prop := ∃ (free : Nat) (tap : Tap), t = { s with free := free, pins := { s.pins with tap := tap } }

theorem TapOnly.refl (s : State) : TapOnly s s := ⟨s.free, s.pins.tap, rfl⟩

theorem TapOnly.trans {s t u : State} (h : TapOnly s t) (k : TapOnly t u) : TapOnly s u := by
  obtain ⟨m, x, rfl⟩ := h
  obtain ⟨n, y, rfl⟩ := k
  exact ⟨n, y, rfl⟩

theorem tapOnly_setTap (s : State) (f : Tap → Tap) : TapOnly s (setTap s f) := ⟨_, _, rfl⟩

theorem tapOnly_captureDr (s : State) : TapOnly s (captureDr s).1 := by
  unfold captureDr
  split
  · exact .refl s
  · exact .refl s
  · exact .refl s
  · exact .refl s
  · exact ⟨_, _, rfl⟩

theorem tapOnly_tapRise (s : State) : TapOnly s (tapRise s) := by
  unfold tapRise
  refine TapOnly.trans ?_ (tapOnly_setTap ..)
  split
  · exact (tapOnly_captureDr s).trans (tapOnly_setTap ..)
  · exact tapOnly_setTap ..
  · exact tapOnly_setTap ..
  · exact tapOnly_setTap ..
  · exact .refl s

theorem tapOnly_tapTick (s : State) : TapOnly s (tapTick s) := by
  unfold tapTick
  dsimp only
  split
  · exact tapOnly_setTap ..
  · split
    · exact .refl s
    · refine TapOnly.trans ?_ (tapOnly_setTap ..)
      split
      · exact tapOnly_tapRise s
      · exact tapOnly_setTap ..

theorem TapOnly.passes {s t : State} (h : TapOnly s t) : Passes s t := by
  obtain ⟨m, x, rfl⟩ := h
  exact ⟨rfl, fun _ => rfl, List.prefix_refl _, List.prefix_refl _⟩

/-- The count and the loop of the Meridian counter in a tick. -/
theorem tickMeridian_count (n : Nat) (m : Meridian) (h : m.count + 2 < 2 ^ 64) :
    m.count ≤ (tickMeridian n m).count ∧ (tickMeridian n m).count ≤ m.count + 2 := by
  have h1 : (m.count + 1) % 2 ^ 64 = m.count + 1 := Nat.mod_eq_of_lt (by omega)
  have h2 : (m.count + 2) % 2 ^ 64 = m.count + 2 := Nat.mod_eq_of_lt h
  unfold tickMeridian
  split
  · dsimp only
    split <;> omega
  · dsimp only
    split
    · dsimp only
      omega
    · split <;> dsimp only <;> omega

theorem tickMeridian_source (n : Nat) (m : Meridian) :
    (tickMeridian n m).state = m.state ∧ (tickMeridian n m).stratum = m.stratum := by
  unfold tickMeridian
  split
  · exact ⟨rfl, rfl⟩
  · dsimp only
    split
    · exact ⟨rfl, rfl⟩
    · split <;> exact ⟨rfl, rfl⟩

/-- What a tick does before the pins' filters where no frame is booked and every port is quiet. -/
structure TickPasses (s t : State) : Prop extends Passes s t where
  clock : t.clock = s.clock + 1
  count : s.mer.count + 2 < 2 ^ 64 → s.mer.count ≤ t.mer.count ∧ t.mer.count ≤ s.mer.count + 2
  source : t.mer.state = s.mer.state ∧ t.mer.stratum = s.mer.stratum

/-- Where the time is still that of before, the rest of the tick brings it on. -/
theorem tickPasses_tapTick_tickTime {s u : State} (h : Passes s u) (hclock : u.clock = s.clock)
    (hcount : u.mer.count = s.mer.count) (hsource : u.mer.state = s.mer.state ∧ u.mer.stratum = s.mer.stratum) :
    TickPasses s (tapTick (tickTime u)) := by
  have htap := tapOnly_tapTick (tickTime u)
  have hpass := (h.trans (passes_tickTime u)).trans htap.passes
  obtain ⟨m, x, ht⟩ := htap
  have hc := tickMeridian_count (reg u 0x9020 2) u.mer
  have hs := tickMeridian_source (reg u 0x9020 2) u.mer
  refine { toPasses := hpass, clock := ?_, count := fun hlt => ?_, source := ?_ }
  · rw [ht, ← hclock]
    rfl
  · rw [ht, ← hcount]
    exact hc (hcount ▸ hlt)
  · rw [ht, ← hsource.1, ← hsource.2]
    exact hs

theorem keepUpstream_mer (s : State) : (keepUpstream s).mer.count = s.mer.count ∧ (keepUpstream s).mer.state = s.mer.state ∧
    (keepUpstream s).mer.stratum = s.mer.stratum := by
  unfold keepUpstream
  split <;> exact ⟨rfl, rfl, rfl⟩

theorem noteOperating_time (s : State) : (noteOperating s).clock = s.clock ∧ (noteOperating s).mer = s.mer := by
  unfold noteOperating
  split <;> exact ⟨rfl, rfl⟩

theorem sendTime_time (s : State) : (sendTime s).clock = s.clock ∧ (sendTime s).mer = s.mer := by
  unfold sendTime
  split <;> exact ⟨rfl, rfl⟩

theorem keepUpstream_clock (s : State) : (keepUpstream s).clock = s.clock := by
  unfold keepUpstream
  split <;> rfl

theorem ticked_quiet {s : State} (h : QuietPorts s) : TickPasses s (ticked s) := by
  obtain ⟨hbooked, hports⟩ := h
  have hsent : Sends s (sendFrames (twelve.foldl portTick s)) := by
    have hp := foldl_portTick_quiet (ps := twelve) (s := s) fun p hp =>
      let ⟨hstep, hshift, _, hfail⟩ := hports p hp
      ⟨hstep, hshift, hfail⟩
    rw [sendFrames_unbooked (by rw [hp.pins, hbooked])]
    exact hp
  unfold ticked
  generalize sendFrames (twelve.foldl portTick s) = u at hsent ⊢
  obtain ⟨hcount, hstate, hstratum⟩ := keepUpstream_mer (sendTime (noteOperating u))
  have hmer : (sendTime (noteOperating u)).mer = s.mer := by
    rw [(sendTime_time _).2, (noteOperating_time u).2, hsent.mer]
  refine tickPasses_tapTick_tickTime ?_ ?_ (by rw [hcount, hmer]) (by rw [hstate, hstratum, hmer]; exact ⟨rfl, rfl⟩)
  · exact ((hsent.passes.trans (passes_noteOperating u)).trans (passes_sendTime _)).trans (passes_keepUpstream _)
  · rw [keepUpstream_clock, (sendTime_time _).1, (noteOperating_time u).1, hsent.clock]

theorem Passes.edges {s t : State} (h : Passes s t) : t.pins.cutEdge = s.pins.cutEdge ∧ t.pins.goodEdge = s.pins.goodEdge ∧
    t.pins.resetEdge = s.pins.resetEdge ∧ t.pins.cutWarn = s.pins.cutWarn := by
  rw [eq_withTick h.beside]
  exact ⟨rfl, rfl, rfl, rfl⟩

theorem Passes.phase {s t : State} (h : Passes s t) : t.phase = s.phase := by
  rw [eq_withTick h.beside]
  rfl

theorem Passes.state {s t : State} (h : Passes s t) (p : Nat) : (port t p).state = (port s p).state :=
  show (portCore (port t p)).state = (portCore (port s p)).state by rw [h.core]

/-- With no edge at the filters they leave everything. -/
theorem filtersTick_none {s : State} (hcut : s.pins.cutEdge = none) (hgood : s.pins.goodEdge = none)
    (hreset : s.pins.resetEdge = none) : filtersTick s = s := by
  have hpins : s.pins = { s.pins with cutEdge := none, goodEdge := none, resetEdge := none } :=
    calc s.pins = { s.pins with cutEdge := s.pins.cutEdge, goodEdge := s.pins.goodEdge, resetEdge := s.pins.resetEdge } := rfl
      _ = { s.pins with cutEdge := none, goodEdge := none, resetEdge := none } := by rw [hcut, hgood, hreset]
  unfold filtersTick
  simp only [hcut, hgood, hreset, filterTick, setPins, ← hpins]

/-- Settles O2: a quiet device's tick passes (`ticked_quiet`), and no edge waits at a filter. -/
theorem emptyQueueTicks : Obligations.EmptyQueueTicks := by
  unfold Obligations.EmptyQueueTicks
  rintro s ⟨hpending, hquiet, hcut, hgood, hreset⟩
  have h := ticked_quiet hquiet
  obtain ⟨hc, hg, hr, _⟩ := h.edges
  have hf : filtersTick (ticked s) = ticked s := filtersTick_none (hc.trans hcut) (hg.trans hgood) (hr.trans hreset)
  obtain ⟨sent, hout⟩ := h.out
  obtain ⟨noted, hjournal⟩ := h.journal
  refine ⟨ticked s, ?_, h.clock, h.count, eq_withTick h.beside, h.state, ⟨sent, hout.symm⟩,
    ⟨noted, hjournal.symm⟩, h.source.1, h.source.2⟩
  simp only [step, hpending, tick_eq, hf]

/-! The filters of the pins -/

theorem filterEdge_back {level : Bool} {held : Option (Nat × PinEdge)} {span : Nat} {e : PinEdge} (h : e.rises = level) :
    filterEdge level held span e = none := by simp [filterEdge, h]

theorem filterEdge_new {level : Bool} {held : Option (Nat × PinEdge)} {span : Nat} {e : PinEdge} (h : e.rises ≠ level)
    (hheld : held = none) : filterEdge level held span e = some (span, e) := by simp [filterEdge, h, hheld]

/-- Settles O3: each edge goes to its pin's filter (`filterEdge`), and one that has time left only waits in the tick. -/
theorem pulsesFiltered : Obligations.PulsesFiltered := by
  unfold Obligations.PulsesFiltered
  refine ⟨fun s => ⟨_, rfl, rfl, fun h hn => ?_, fun h => ?_⟩, fun s => ⟨_, rfl, rfl, fun h hn => ?_, fun h => ?_⟩,
    fun s => ⟨_, rfl, rfl, fun h hn => ?_, fun h => ?_⟩, fun s => ⟨_, rfl, rfl, fun h hn => ?_, fun h => ?_⟩,
    fun refclk copy s => ⟨_, rfl, rfl, fun h hn => ?_, fun h => ?_⟩,
    fun i slot refclk copy s => ⟨_, rfl, rfl, fun h hn => ?_, fun h => ?_⟩, fun s n e hpending hquiet hcut hgood hreset => ?_⟩
  iterate 6
    · exact filterEdge_new (by simp [PinEdge.rises, h]) hn
    · exact filterEdge_back (by simp [PinEdge.rises, h])
  · have h := ticked_quiet hquiet
    obtain ⟨hc, hg, hr, hw⟩ := h.edges
    refine ⟨filtersTick (ticked s), by simp only [step, hpending, tick_eq], ?_⟩
    simp only [filtersTick, hc, hcut, hg, hgood, hr, hreset, filterTick, setPins, hw, h.phase, and_self]

end Sys2Proof.Machine
end

section
/-! Writes of the shared tables (R23, R24): what a taken write stores and sends, and how its answer waits for the other
insts; and the tables it writes. -/

namespace Sys2Proof.Machine
open Sys2Proof

/-! ## A shared write that is taken -/

/-- While other insts have still to store the update, the answer waits and the write is noted. -/
theorem performWrite_waits {q : DictReq} {apply : State → Verdict} {s u : State} (hlen : q.tooLong = false)
    (hout : writeOutcome q apply s = ⟨u, .ok, 0, [], false⟩) (hwait : u.cascade.storing ≠ []) :
    performWrite q apply s = { u with cascade := { u.cascade with writing := some q } } := by
  simp [performWrite, hlen, hout, hwait]

theorem shareUpdate_alone {s : State} {u : TableUpdate} (h : s.cascade.present = []) (hs : s.cascade.storing = []) :
    shareUpdate u s = { s with tables := storeUpdate s.tables u } := by
  have hc : s.cascade = { s.cascade with present := [], storing := [] } :=
    calc s.cascade = { s.cascade with present := s.cascade.present, storing := s.cascade.storing } := rfl
      _ = { s.cascade with present := [], storing := [] } := by rw [h, hs]
  simp only [shareUpdate, h, if_true]
  exact congrArg (fun c : Cascade => { s with tables := storeUpdate s.tables u, cascade := c }) hc.symm

theorem shareUpdate_sent {s : State} {u : TableUpdate} (h : s.cascade.present ≠ []) :
    shareUpdate u s = { s with
      tables := storeUpdate s.tables u, cascade := { s.cascade with storing := s.cascade.present },
      out := s.out ++ [.bus (.table u)] } := by
  simp only [shareUpdate, if_neg h]
  rfl

theorem answers_atEntry {q : DictReq} {s : State} (h : Authorised q s) : (atEntry q s).mgmt.answers = s.mgmt.answers := by
  have htouch (t : State) (o : Nat) : (touchSession t o).mgmt.answers = t.mgmt.answers := by
    unfold touchSession
    dsimp only
    split
    · rfl
    · split
      · split <;> rfl
      · rfl
  have hreceived : (received q s).mgmt.answers = s.mgmt.answers := by
    unfold received
    rw [htouch]
    cases q.path <;> rfl
  unfold atEntry
  unfold Authorised at h
  cases hq : q.auth with
  | none => exact hreceived
  | some a =>
    simp only [hq] at h
    obtain ⟨f, hf⟩ := acceptCounter_clean (s := received q s) a (by rw [worn_received]; exact h.2)
    simp only [hf, hreceived]

/-- A command shares an update when its entry's rule, met, does so on the state that it sees. -/
theorem shareWorks_of_rule {c : Instr} {w : WriteHdr} {i j : Nat} {v : Bytes} {s : State} {u : TableUpdate}
    {post : State → Prop} (apply : State → Verdict) (hc : exec c s = .next (dictWrite w i j v apply s))
    (hrule : Authorised (writeReq w i j v) s →
      apply (atEntry (writeReq w i j v) s) = ok (shareUpdate u (atEntry (writeReq w i j v) s)))
    (hpost : ∀ t : State, t.tables = storeUpdate s.tables u → post t) : ShareWorks c w i j v s u post := by
  intro hT
  have haut := authorised_of_writeTaken hT
  have hcascade := cascade_atEntry _ _ haut
  have htables := tables_atEntry _ _ haut
  have hbeside := beside_atEntry _ _ haut
  have hstoring : s.cascade.storing = [] := by
    obtain ⟨-, -, -, -, hstoring, -⟩ := hT
    exact hstoring
  by_cases hpresent : s.cascade.present = []
  · have halone := shareUpdate_alone (u := u) (hcascade ▸ hpresent) (hcascade ▸ hstoring)
    rw [htables] at halone
    rw [halone] at hrule
    have hdone := dictWrite_done w i j v apply s _ [] hT (hrule haut) (hcascade ▸ hstoring)
    refine ⟨_, hc.trans (congrArg _ hdone), tables_written .., hpost _ (tables_written ..), ?_,
      fun _ => ⟨written_answered .., (cascade_written ..).trans hcascade⟩, fun h => absurd hpresent h⟩
    have hwritten := beside_written (writeReq w i j v)
      { atEntry (writeReq w i j v) s with tables := storeUpdate s.tables u }
    exact (congrArg (fun t : State => { t with tables := s.tables, cascade := s.cascade }) hwritten).trans
      ((congrArg (fun t : State => { t with tables := s.tables, cascade := s.cascade }) hbeside))
  · have hsent := shareUpdate_sent (u := u) (hcascade ▸ hpresent)
    rw [htables, hcascade] at hsent
    rw [hsent] at hrule
    have hout := writeOutcome_rule (apply := apply) hT
    rw [hrule haut] at hout
    have hnew : w.path.isHost = true → s.mgmt.lastSubmit ≠ some w.xid := by
      obtain ⟨-, -, -, -, -, -, -, hnew, -⟩ := hT
      exact hnew
    have hdone := (dictWrite_heard apply (heard_of_writeTaken hT) hnew).trans (performWrite_waits rfl hout hpresent)
    refine ⟨_, hc.trans (congrArg _ hdone), rfl, hpost _ rfl, ?_, fun h => absurd h hpresent,
      fun _ => ⟨by simp, answers_atEntry haut, rfl⟩⟩
    exact congrArg (fun t : State => { t with tables := s.tables, cascade := s.cascade }) hbeside

end Sys2Proof.Machine
end

section
/-! The tables of partitions, port keys, shares, ranks and windows (R36 to R54, R254), and the routing banks (R240, R247,
R257): each write stores its entry and leaves every other. -/

namespace Sys2Proof.Machine
open Sys2Proof

/-! ## A table with a default -/

theorem tgetD_tset_self {α : Type} [DecidableEq α] (t : Tbl α) (n : Nat) (v d : α) : tgetD (tset t n v d) n d = v := by
  unfold tset
  split
  · simp [tgetD, *]
  · simp

theorem tgetD_tset_ne {α : Type} [DecidableEq α] (t : Tbl α) {n m : Nat} (v d : α) (h : n ≠ m) :
    tgetD (tset t n v d) m d = tgetD t m d := by
  unfold tset
  split
  · simp [tgetD, tget_tdel_ne t n m h]
  · exact tgetD_tput_ne t n m v d h

/-- The bits of a byte of eight or less, and of a word, read back what was stored. -/
theorem fld_lt (x lo len : Nat) : fld x lo len < 2 ^ len := Nat.mod_lt _ (Nat.two_pow_pos len)

/-! ## Tables of one inst (R36, R53, R254) -/

/-- The word of a partition table entry (R36). -/
def partWord (v : BitVec 64) : BitVec 64 :=
  BitVec.ofNat 64 (pack [(0, 6, fld v.toNat 0 6), (6, 1, bit (bitAt v.toNat 6)), (8, 16, fld v.toNat 8 16),
    (24, 18, fld v.toNat 24 18), (42, 17, fld v.toNat 42 17)])

/-- Fields that lie apart in a word of 64 bits are read back. -/
theorem partWord_parts {e b k r c : Nat} (he : e < 64) (hb : b < 2) (hk : k < 65536) (hr : r < 262144) (hc : c < 131072) :
    let w := (e + b * 64 + k * 256 + r * 16777216 + c * 4398046511104) % 18446744073709551616
    w / 64 % 2 = b ∧ w / 256 % 65536 = k ∧ w / 16777216 % 262144 = r ∧ w / 4398046511104 % 131072 = c := by
  dsimp only
  omega

theorem bit_bitAt (x i : Nat) : bit (bitAt x i) = x / 2 ^ i % 2 := by
  unfold bit bitAt
  rcases Nat.mod_two_eq_zero_or_one (x / 2 ^ i) with h | h <;> simp [h]

theorem pack_cons (f : Nat × Nat × Nat) (l : List (Nat × Nat × Nat)) :
    pack (f :: l) = f.2.2 % 2 ^ f.2.1 * 2 ^ f.1 + pack l := by
  have hacc (l : List (Nat × Nat × Nat)) (a : Nat) :
      l.foldl (fun a f => a + f.2.2 % 2 ^ f.2.1 * 2 ^ f.1) a = a + pack l := by
    induction l generalizing a with
    | nil => rfl
    | cons g r ih => rw [pack, List.foldl_cons, List.foldl_cons, ih, ih, Nat.zero_add, Nat.add_assoc]
  rw [pack, List.foldl_cons, hacc, Nat.zero_add]

theorem pack_nil : pack [] = 0 := rfl

theorem toNat_partWord (v : BitVec 64) : (partWord v).toNat = (fld v.toNat 0 6 + bit (bitAt v.toNat 6) * 64 +
    fld v.toNat 8 16 * 256 + fld v.toNat 24 18 * 16777216 + fld v.toNat 42 17 * 4398046511104) %
      18446744073709551616 := by
  have hbit : bit (bitAt v.toNat 6) < 2 ^ 1 := by rw [bit_bitAt]; exact Nat.mod_lt _ Nat.two_pos
  have he := fld_lt v.toNat 0 6
  have hk := fld_lt v.toNat 8 16
  have hr := fld_lt v.toNat 24 18
  have hc := fld_lt v.toNat 42 17
  rw [partWord, BitVec.toNat_ofNat]
  generalize fld v.toNat 0 6 = e at *
  generalize fld v.toNat 8 16 = k at *
  generalize fld v.toNat 24 18 = r at *
  generalize fld v.toNat 42 17 = c at *
  simp only [pack_cons, pack_nil, Nat.mod_eq_of_lt, he, hk, hr, hc, hbit]
  norm_num [Nat.add_assoc]

theorem partWord_fields (v : BitVec 64) : bitAt (partWord v).toNat 6 = bitAt v.toNat 6 ∧
    fld (partWord v).toNat 8 16 = fld v.toNat 8 16 ∧ fld (partWord v).toNat 24 18 = fld v.toNat 24 18 ∧
    fld (partWord v).toNat 42 17 = fld v.toNat 42 17 := by
  have hbit : bit (bitAt v.toNat 6) < 2 := by rw [bit_bitAt]; exact Nat.mod_lt _ Nat.two_pos
  obtain ⟨hvalid, hkey, hbase, hcount⟩ := partWord_parts (fld_lt v.toNat 0 6) hbit (fld_lt v.toNat 8 16)
    (fld_lt v.toNat 24 18) (fld_lt v.toNat 42 17)
  rw [← toNat_partWord] at hvalid hkey hbase hcount
  refine ⟨?_, hkey, hbase, hcount⟩
  rw [bit_bitAt] at hvalid
  exact congrArg (· == 1) hvalid

/-- R36, R37: the rule of the partition table takes such a value. -/
theorem applyPartition_ok {s : State} {v : BitVec 64} (hcount : fld v.toNat 42 17 ≤ 65536)
    (hspace : fld v.toNat 24 18 + fld v.toNat 42 17 ≤ 262144)
    (hkey : bitAt v.toNat 6 = true → fld v.toNat 8 16 ≠ 0 ∧
      ∀ y ∈ s.tables.part, y.1 ≠ fld v.toNat 0 6 → ¬(bitAt y.2.toNat 6 = true ∧ fld y.2.toNat 8 16 = fld v.toNat 8 16)) :
    applyPartition v s =
      ok { s with tables := { s.tables with part := tput s.tables.part (fld v.toNat 0 6) (partWord v) } } := by
  refine (inRange_pos (by simpa using hcount)).trans ((require_pos ?_).trans rfl)
  rw [Bool.and_eq_true, decide_eq_true_iff]
  refine ⟨hspace, ?_⟩
  cases hvalid : bitAt v.toNat 6 with
  | false => rfl
  | true =>
    obtain ⟨hne, hothers⟩ := hkey hvalid
    rw [Bool.not_true, Bool.false_or, Bool.and_eq_true, List.all_eq_true]
    refine ⟨by simpa using hne, fun y hy => ?_⟩
    obtain ⟨hin, hother⟩ := List.mem_filter.mp hy
    have hdiffers := hothers y hin (by simpa using hother)
    simpa [Classical.or_iff_not_imp_left] using hdiffers

theorem mem_foldl_none {α β : Type} {l : List α} {p : α → Bool} {f : β → α → β} (h : ∀ x ∈ l, p x = false) (b : β) :
    (l.filter p).foldl f b = b := by
  rw [List.filter_eq_nil_iff.mpr fun x hx => by simp [h x hx]]
  rfl

theorem disableBound_none {s : State} {e : Nat} (h : ∀ x ∈ s.ctxs, ¬(x.2.partEnt = e ∧ x.2.state = .enabled)) :
    disableBound s e = s :=
  mem_foldl_none (fun x hx => by simpa [Classical.or_iff_not_imp_left] using h x hx) s

/-- R37: with no context to disable the write stores the entry alone. -/
theorem applyPartitionWrite_ok {s t : State} {v : BitVec 64} (h : applyPartition v s = ok t)
    (hvalid : partValid t (fld v.toNat 0 6) = bitAt v.toNat 6) (hctxs : t.ctxs = s.ctxs)
    (hfree : bitAt v.toNat 6 = true ∨ partValid s (fld v.toNat 0 6) = false ∨
      ∀ x ∈ s.ctxs, ¬(x.2.partEnt = fld v.toNat 0 6 ∧ x.2.state = .enabled)) : applyPartitionWrite v s = ok t := by
  simp only [applyPartitionWrite, h, ok, hvalid]
  congr 1
  split
  · rename_i hends
    simp only [Bool.not_eq_true'] at hends
    obtain ⟨hwas, hnot⟩ := hends
    rcases hfree with hon | hoff | hnone
    · simp [hon] at hnot
    · simp [hoff] at hwas
    · exact disableBound_none (by rwa [hctxs])
  · rfl

theorem partEntry_set_self {s t : State} {e : Nat} {x : BitVec 64} (h : t.tables.part = tput s.tables.part e x) :
    partEntry t e = x.toNat := by simp [partEntry, h]

theorem partEntry_set_ne {s t : State} {e f : Nat} {x : BitVec 64} (h : t.tables.part = tput s.tables.part e x)
    (hne : f ≠ e) : partEntry t f = partEntry s f := by simp [partEntry, h, tgetD_tput_ne _ _ _ _ _ hne.symm]

/-- What a write of one inst's tables leaves beside them. -/
theorem beside_onlyTables {q : DictReq} {s : State} (h : Authorised q s) (x : Tables) :
    beside { atEntry q s with tables := x } = beside (onlyTables s (written q { atEntry q s with tables := x })) := by
  rw [onlyTables, tables_written]
  exact congrArg (fun t : State => { t with tables := x }) (beside_atEntry q s h)

/-- A write of one inst's tables works when the entry's rule stores them. -/
theorem writeWorks_tables {c : Instr} {w : WriteHdr} {i j : Nat} {v : Bytes} {s : State} {post : State → Prop}
    (apply : State → Verdict) (x : Tables) (hc : exec c s = .next (dictWrite w i j v apply s))
    (hrule : Authorised (writeReq w i j v) s →
      apply (atEntry (writeReq w i j v) s) = ok { atEntry (writeReq w i j v) s with tables := x })
    (hpost : ∀ t : State, t.tables = x → post t) : WriteWorks c w i j v s (onlyTables s) post :=
  writeWorks_of_rule apply (fun t => { t with tables := x }) hc hrule fun haut u hu => by
    subst hu
    exact ⟨cascade_atEntry _ _ haut, beside_onlyTables haut x, hpost _ (tables_written ..)⟩

theorem partitionEntryWrite_works (w : WriteHdr) (v : BitVec 64) (s : State) (hcount : fld v.toNat 42 17 ≤ 65536)
    (hspace : fld v.toNat 24 18 + fld v.toNat 42 17 ≤ 262144)
    (hkey : bitAt v.toNat 6 = true → fld v.toNat 8 16 ≠ 0 ∧
      ∀ y ∈ s.tables.part, y.1 ≠ fld v.toNat 0 6 → ¬(bitAt y.2.toNat 6 = true ∧ fld y.2.toNat 8 16 = fld v.toNat 8 16))
    (hfree : bitAt v.toNat 6 = true ∨ partValid s (fld v.toNat 0 6) = false ∨
      ∀ x ∈ s.ctxs, ¬(x.2.partEnt = fld v.toNat 0 6 ∧ x.2.state = .enabled)) :
    WriteWorks (.partitionEntryWrite w v) w 0x3100 1 (leBytes 8 v.toNat) s (onlyTables s) fun t =>
      partValid t (fld v.toNat 0 6) = bitAt v.toNat 6 ∧ partKey t (fld v.toNat 0 6) = fld v.toNat 8 16 ∧
      partRbase t (fld v.toNat 0 6) = fld v.toNat 24 18 ∧ partRcount t (fld v.toNat 0 6) = fld v.toNat 42 17 ∧
      ∀ e, e ≠ fld v.toNat 0 6 → partEntry t e = partEntry s e := by
  have hread {r t : State} (ht : t.tables.part = tput r.tables.part (fld v.toNat 0 6) (partWord v)) :
      partValid t (fld v.toNat 0 6) = bitAt v.toNat 6 ∧ partKey t (fld v.toNat 0 6) = fld v.toNat 8 16 ∧
        partRbase t (fld v.toNat 0 6) = fld v.toNat 24 18 ∧ partRcount t (fld v.toNat 0 6) = fld v.toNat 42 17 := by
    simp only [partValid, partKey, partRbase, partRcount, partEntry_set_self ht]
    exact partWord_fields v
  refine writeWorks_tables (applyPartitionWrite v)
    { s.tables with part := tput s.tables.part (fld v.toNat 0 6) (partWord v) } rfl (fun haut => ?_) (fun t ht => ?_)
  · have htables := tables_atEntry _ _ haut
    have hctxs := ctxs_atEntry _ _ haut
    have hrule := applyPartition_ok (s := atEntry (writeReq w 0x3100 1 (leBytes 8 v.toNat)) s) hcount hspace
      (by rwa [htables])
    have hwas : partValid (atEntry (writeReq w 0x3100 1 (leBytes 8 v.toNat)) s) = partValid s := by
      funext e
      simp only [partValid, partEntry, htables]
    have hdone := applyPartitionWrite_ok hrule (hread rfl).1 rfl (by rwa [hwas, hctxs])
    rwa [htables] at hdone
  · obtain ⟨hvalid, hkey', hbase, hcount'⟩ := hread (r := s) (t := t) (by rw [ht])
    exact ⟨hvalid, hkey', hbase, hcount', fun e he => partEntry_set_ne (by rw [ht]) he⟩

theorem portKeyWrite_works (w : WriteHdr) (v : BitVec 32) (s : State) (hport : fld v.toNat 0 4 ≤ 11)
    (hflag : fld v.toNat 10 2 ≠ 3) (hvalid : fld v.toNat 10 2 = 0 ∨ partValid s (fld v.toNat 4 6) = true) :
    WriteWorks (.portKeyWrite w v) w 0x3400 1 (leBytes 4 v.toNat) s (onlyTables s) fun t =>
      keyFlag t (fld v.toNat 0 4) (fld v.toNat 4 6) = fld v.toNat 10 2 ∧
      (fld v.toNat 10 2 = 0 → minShare t (fld v.toNat 0 4) (fld v.toNat 4 6) = 0) ∧
      ∀ n, n ≠ fld v.toNat 0 4 * 64 + fld v.toNat 4 6 →
        tgetD t.tables.keyFlag n 0 = tgetD s.tables.keyFlag n 0 ∧ tgetD t.tables.share n 0 = tgetD s.tables.share n 0 := by
  refine writeWorks_tables (applyPortKey v) { s.tables with
      keyFlag := tset s.tables.keyFlag (fld v.toNat 0 4 * 64 + fld v.toNat 4 6) (fld v.toNat 10 2) 0,
      share := if fld v.toNat 10 2 = 0 then tdel s.tables.share (fld v.toNat 0 4 * 64 + fld v.toNat 4 6) else s.tables.share }
    rfl (fun haut => ?_) (fun t ht => ?_)
  · have htables := tables_atEntry _ _ haut
    refine (inRange_pos (by simpa using ⟨hport, hflag⟩)).trans ((require_pos ?_).trans ?_)
    · simpa [partValid, partEntry, htables] using hvalid
    · rw [htables]
  · simp only [keyFlag, minShare, ht]
    refine ⟨tgetD_tset_self .., fun h0 => ?_, fun n hn => ⟨tgetD_tset_ne _ _ _ hn.symm, ?_⟩⟩
    · rw [if_pos h0]
      simp [tgetD]
    · split
      · simp [tgetD, tget_tdel_ne _ _ _ hn.symm]
      · rfl

theorem shareWrite_works (w : WriteHdr) (v : BitVec 32) (s : State) (hport : fld v.toNat 0 4 ≤ 11)
    (hkey : fld v.toNat 10 8 = 0 ∨ keyFlag s (fld v.toNat 0 4) (fld v.toNat 4 6) ≠ 0)
    (hsum : shareSum s (fld v.toNat 0 4) - minShare s (fld v.toNat 0 4) (fld v.toNat 4 6) + fld v.toNat 10 8 ≤ 256) :
    WriteWorks (.shareWrite w v) w 0x3A00 1 (leBytes 4 v.toNat) s (onlyTables s) fun t =>
      minShare t (fld v.toNat 0 4) (fld v.toNat 4 6) = fld v.toNat 10 8 ∧
      ∀ n, n ≠ fld v.toNat 0 4 * 64 + fld v.toNat 4 6 → tgetD t.tables.share n 0 = tgetD s.tables.share n 0 := by
  refine writeWorks_tables (applyShare v) { s.tables with
      share := tset s.tables.share (fld v.toNat 0 4 * 64 + fld v.toNat 4 6) (fld v.toNat 10 8) 0 }
    rfl (fun haut => ?_) (fun t ht => ?_)
  · have htables := tables_atEntry _ _ haut
    refine (inRange_pos (by simpa using hport)).trans ((require_pos ?_).trans ?_)
    · have hshare : minShare (atEntry (writeReq w 0x3A00 1 (leBytes 4 v.toNat)) s) = minShare s := by
        funext p e
        simp only [minShare, htables]
      rw [Bool.and_eq_true, decide_eq_true_iff, shareSum, hshare]
      exact ⟨by simpa [keyFlag, htables] using hkey, hsum⟩
    · rw [htables]
  · simp only [minShare, ht]
    exact ⟨tgetD_tset_self .., fun n hn => tgetD_tset_ne _ _ _ hn.symm⟩

/-! ## Shared tables (R38, R43, R45) -/

section
variable {q : DictReq} {s : State} (h : Authorised q s)
include h

theorem ownNode_atEntry : ownNode (atEntry q s) = ownNode s :=
  congrArg (BitVec.ofNat 16) (regAt_atEntry_above h (by decide))

theorem nodeInTorus_atEntry (n : NodeId) : nodeInTorus (atEntry q s) n = nodeInTorus s n := by
  simp only [nodeInTorus, torusSize_atEntry _ _ _ h]

end

theorem rankEntryWrite_works (w : WriteHdr) (v : BitVec 32) (s : State) (i : Nat) (hi : i = wsel s w 0x3200 1)
    (h : i < 262144) (hnode : nodeInTorus s (BitVec.ofNat 16 (fld v.toNat 0 16)) = true) :
    ShareWorks (.rankEntryWrite w v) w 0x3200 2 (leBytes 4 v.toNat) s (.rank ⟨i, h⟩ (BitVec.ofNat 32 (fld v.toNat 0 17)))
      fun t => rankEntry t i = fld v.toNat 0 17 ∧ ∀ j, j ≠ i → rankEntry t j = rankEntry s j := by
  refine shareWorks_of_rule (fun t => applyRank (wsel t w 0x3200 1) v t) rfl (fun haut => ?_) (fun t ht => ?_)
  · rw [wsel_atEntry (h := haut), ← hi]
    exact (require_pos (by rw [nodeInTorus_atEntry haut, hnode])).trans (dif_pos h)
  · simp only [rankEntry, ht, storeUpdate]
    refine ⟨?_, fun j hj => by rw [tgetD_tset_ne _ _ _ hj.symm]⟩
    rw [tgetD_tset_self, BitVec.toNat_ofNat, Nat.mod_eq_of_lt ((fld_lt ..).trans (by norm_num))]

theorem windowEntry_of_store {s t : State} {i : Fin 4194304} {x : BitVec 64} (ht : t.tables = storeUpdate s.tables (.window i x)) :
    windowEntry t i = x.toNat ∧ ∀ j, j ≠ i.val → windowEntry t j = windowEntry s j := by
  simp only [windowEntry, ht, storeUpdate]
  refine ⟨by simp [tgetD_tset_self], fun j hj => ?_⟩
  rw [tgetD_tset_ne _ _ _ hj.symm]
  simp [List.contains_eq_mem, hj]

theorem windowEntryMask_lt (v : Nat) : windowEntryMask v < 2 ^ 64 := by
  have h0 := fld_lt v 0 13
  have h1 : (if fld v 1 2 = 2 then fld v 16 39 else fld v 16 21) < 2 ^ 39 := by
    split
    · exact fld_lt ..
    · exact (fld_lt v 16 21).trans (by norm_num)
  unfold windowEntryMask
  omega

theorem windowEntryWrite_works (w : WriteHdr) (v : BitVec 64) (s : State) (i : Nat) (hi : i = wsel s w 0x4200 1)
    (h : i < 4194304) (htier : windowTierOk v.toNat = true) (hok : windowEntryOk (ownNode s) v.toNat = true) :
    ShareWorks (.windowEntryWrite w v) w 0x4200 2 (leBytes 8 v.toNat) s
      (.window ⟨i, h⟩ (BitVec.ofNat 64 (windowEntryMask v.toNat)))
      fun t => windowEntry t i = windowEntryMask v.toNat ∧ ∀ j, j ≠ i → windowEntry t j = windowEntry s j := by
  refine shareWorks_of_rule (fun t => applyWindow (wsel t w 0x4200 1) v t) rfl (fun haut => ?_) (fun t ht => ?_)
  · rw [wsel_atEntry (h := haut), ← hi]
    exact (inRange_pos htier).trans ((require_pos (by rw [ownNode_atEntry haut, hok])).trans (dif_pos h))
  · have hw := windowEntry_of_store ht
    rwa [BitVec.toNat_ofNat, Nat.mod_eq_of_lt (windowEntryMask_lt _)] at hw

theorem windowDescriptorWrite_works (w : WriteHdr) (v : BitVec 64) (s : State) (i : Nat) (hi : i = wsel s w 0x4210 1)
    (h : i < 256) (hok : descriptorOk v.toNat = true) :
    ShareWorks (.windowDescriptorWrite w v) w 0x4210 2 (leBytes 8 v.toNat) s
      (.descriptor ⟨i, h⟩ (BitVec.ofNat 64 (fld v.toNat 0 40)))
      fun t => windowDesc t i = fld v.toNat 0 40 ∧ ∀ j, j ≠ i → windowDesc t j = windowDesc s j := by
  refine shareWorks_of_rule (fun t => applyDescriptor (wsel t w 0x4210 1) v t) rfl (fun haut => ?_) (fun t ht => ?_)
  · rw [wsel_atEntry (h := haut), ← hi]
    exact (require_pos hok).trans (dif_pos h)
  · simp only [windowDesc, ht, storeUpdate]
    refine ⟨?_, fun j hj => by rw [tgetD_tset_ne _ _ _ hj.symm]⟩
    rw [tgetD_tset_self, BitVec.toNat_ofNat, Nat.mod_eq_of_lt ((fld_lt ..).trans (by norm_num))]

/-- Settles O9, a write at a time: the tables of one inst (`writeWorks_tables`) and the shared ones
(`shareWorks_of_rule`). -/
theorem tablesWritten : Obligations.TablesWritten := by
  unfold Obligations.TablesWritten
  exact ⟨partitionEntryWrite_works, portKeyWrite_works, shareWrite_works, rankEntryWrite_works, windowEntryWrite_works,
    windowDescriptorWrite_works⟩

/-! ## Routing banks (R240, R247, R257) -/

theorem fin2_val {b : Nat} (h : b < 2) : (fin2 b).val = b := by
  unfold fin2
  split
  · simp [*]
  · simp; omega

theorem bankOf_setBank_self (t : Tables) (b : Nat) (x : RouteBank) : bankOf (setBank t b x) b = x := by
  unfold bankOf setBank
  split <;> rfl

theorem bankOf_setBank_other {t : Tables} {b : Nat} (h : b < 2) (x : RouteBank) :
    bankOf (setBank t b x) (1 - b) = bankOf t (1 - b) := by
  interval_cases b <;> rfl

theorem bankState_setBankState_self (t : Tables) (b : Nat) (x : BankState) : bankState (setBankState t b x) b = x := by
  unfold bankState setBankState
  split <;> rfl

theorem bankState_setBankState_other {t : Tables} {b : Nat} (h : b < 2) (x : BankState) :
    bankState (setBankState t b x) (1 - b) = bankState t (1 - b) := by
  interval_cases b <;> rfl

theorem bankOf_setBankState (t : Tables) (b c : Nat) (x : BankState) : bankOf (setBankState t b x) c = bankOf t c := by
  unfold setBankState
  split <;> rfl

section
variable {q : DictReq} {s : State} (h : Authorised q s)
include h

theorem bankOpen_atEntry (b : Nat) : bankOpen (atEntry q s) b = bankOpen s b := by
  simp only [bankOpen, tables_atEntry _ _ h]

theorem dateline_atEntry (d : Nat) : dateline (atEntry q s) d = dateline s d := by
  have hstored : tget (atEntry q s).regs (regKey 0x3600 (5 + d) 0) = tget s.regs (regKey 0x3600 (5 + d) 0) :=
    stored_atEntry h (by unfold regKey; omega) (by unfold regKey; omega)
  simp only [dateline, hstored, torusSize_atEntry _ _ _ h]

theorem extentsCross_atEntry (b : Nat) : extentsCross (atEntry q s) b = extentsCross s b := by
  simp only [extentsCross, tables_atEntry _ _ h, torusSize_atEntry _ _ _ h, dateline_atEntry h]

end

theorem routeEntryWrite_works (w : WriteHdr) (v : BitVec 8) (s : State) (b : Nat) (hb : b = wsel s w 0x3700 1) (i : Nat)
    (hi : i = wsel s w 0x3700 2) (h : i < 65536) (hb2 : b < 2) (hopen : bankOpen s b = true) (hpref : fld v.toNat 0 2 ≠ 3)
    (hplus : ¬(fld v.toNat 0 2 = 1 ∧ bitAt v.toNat 3 = true ∧ bitAt v.toNat 2 = false))
    (hminus : ¬(fld v.toNat 0 2 = 2 ∧ bitAt v.toNat 2 = true ∧ bitAt v.toNat 3 = false)) :
    ShareWorks (.routeEntryWrite w v) w 0x3700 3 [v] s
      (.routeEntry (fin2 b) (BitVec.ofNat 16 i) (BitVec.ofNat 8 (fld v.toNat 0 4))) fun t =>
      tgetD (bankOf t.tables b).routes i 0 = BitVec.ofNat 8 (fld v.toNat 0 4) ∧
      (∀ j, j ≠ i → tgetD (bankOf t.tables b).routes j 0 = tgetD (bankOf s.tables b).routes j 0) ∧
      bankOf t.tables (1 - b) = bankOf s.tables (1 - b) := by
  refine shareWorks_of_rule (fun t => applyRouteEntry (wsel t w 0x3700 1) (wsel t w 0x3700 2) v.toNat t) rfl
    (fun haut => ?_) (fun t ht => ?_)
  · rw [wsel_atEntry (h := haut), wsel_atEntry (h := haut), ← hb, ← hi]
    refine (inRange_pos (by simpa using hpref)).trans (require_pos ?_)
    rw [bankOpen_atEntry haut, hopen, Bool.true_and]
    simp only [Bool.and_eq_true, Bool.not_eq_true', Bool.and_eq_false_iff, beq_eq_false_iff_ne, Bool.not_eq_false'] at *
    grind
  · have hi16 : (BitVec.ofNat 16 i).toNat = i := by rw [BitVec.toNat_ofNat]; exact Nat.mod_eq_of_lt h
    simp only [ht, storeUpdate, fin2_val hb2, hi16, bankOf_setBank_self, bankOf_setBank_other hb2, and_true]
    exact ⟨tgetD_tset_self .., fun j hj => tgetD_tset_ne _ _ _ hj.symm⟩

theorem exceptionWrite_works (w : WriteHdr) (v : BitVec 64) (s : State) (b : Nat) (hb : b = wsel s w 0x3700 1) (i : Nat)
    (hi : i = wsel s w 0x3710 1) (h : i < 4096) (hb2 : b < 2) (hopen : bankOpen s b = true) (hzero : fld v.toNat 57 7 = 0)
    (hact : fld v.toNat 38 2 ≠ 3) (hport : ¬(fld v.toNat 38 2 = 0 ∧ 11 < fld v.toNat 40 4))
    (hscope : ¬(fld v.toNat 38 2 = 1 ∧ bitAt v.toNat 37 = true)) :
    ShareWorks (.exceptionWrite w v) w 0x3710 2 (leBytes 8 v.toNat) s (.exception (fin2 b) ⟨i, h⟩ v) fun t =>
      tgetD (bankOf t.tables b).exceptions i 0 = v ∧
      (∀ j, j ≠ i → tgetD (bankOf t.tables b).exceptions j 0 = tgetD (bankOf s.tables b).exceptions j 0) ∧
      bankOf t.tables (1 - b) = bankOf s.tables (1 - b) := by
  refine shareWorks_of_rule (fun t => applyException (wsel t w 0x3700 1) (wsel t w 0x3710 1) v.toNat t) rfl
    (fun haut => ?_) (fun t ht => ?_)
  · rw [wsel_atEntry (h := haut), wsel_atEntry (h := haut), ← hb, ← hi, applyException, dif_pos h, BitVec.ofNat_toNat,
      BitVec.setWidth_eq]
    refine (inRange_pos ?_).trans (require_pos ?_)
    · simp [hzero, hact]
      grind
    · rw [bankOpen_atEntry haut, hopen, Bool.true_and]
      simp
      grind
  · simp only [ht, storeUpdate, fin2_val hb2, bankOf_setBank_self, bankOf_setBank_other hb2, and_true]
    exact ⟨tgetD_tset_self .., fun j hj => tgetD_tset_ne _ _ _ hj.symm⟩

theorem bankMarkReady_works (w : WriteHdr) (v : BitVec 8) (s : State) (hb : v.toNat < 2)
    (hfree : bankState s.tables v.toNat = .free) (hcross : extentsCross s v.toNat = false) :
    ShareWorks (.bankMarkReady w v) w 0x3800 3 [v] s (.markReady (fin2 v.toNat)) fun t =>
      bankState t.tables v.toNat = .ready ∧ bankState t.tables (1 - v.toNat) = bankState s.tables (1 - v.toNat) ∧
      bankOf t.tables v.toNat = bankOf s.tables v.toNat := by
  refine shareWorks_of_rule (applyMarkReady v.toNat) rfl (fun haut => ?_) (fun t ht => ?_)
  · refine (inRange_pos (by simpa using hb)).trans (require_pos ?_)
    rw [tables_atEntry _ _ haut, extentsCross_atEntry haut, hfree, hcross]
    rfl
  · simp only [ht, storeUpdate, fin2_val hb, bankState_setBankState_self, bankState_setBankState_other hb,
      bankOf_setBankState, and_self]

theorem bankRelease_works (w : WriteHdr) (v : BitVec 8) (s : State) (hb : v.toNat < 2)
    (hready : bankState s.tables v.toNat = .ready) (hflip : s.tables.flipAt = 0) :
    ShareWorks (.bankRelease w v) w 0x3800 0xA [v] s (.release (fin2 v.toNat)) fun t =>
      bankState t.tables v.toNat = .free ∧ bankState t.tables (1 - v.toNat) = bankState s.tables (1 - v.toNat) ∧
      bankOf t.tables v.toNat = bankOf s.tables v.toNat := by
  refine shareWorks_of_rule (applyRelease2 v.toNat) rfl (fun haut => ?_) (fun t ht => ?_)
  · refine (inRange_pos (by simpa using hb)).trans (require_pos ?_)
    rw [tables_atEntry _ _ haut, hready, hflip]
    rfl
  · simp only [ht, storeUpdate, fin2_val hb, bankState_setBankState_self, bankState_setBankState_other hb,
      bankOf_setBankState, and_self]

/-- Settles O10: each of the four writes is a shared one whose rule is met (`shareWorks_of_rule`). -/
theorem routingBanksWritten : Obligations.RoutingBanksWritten := by
  unfold Obligations.RoutingBanksWritten
  exact ⟨routeEntryWrite_works, exceptionWrite_works, bankMarkReady_works, bankRelease_works⟩

end Sys2Proof.Machine
end

section
/-! Flips of the routing banks (R258 to R260, R360): scheduled, cancelled and due; and the draining bank made FREE. -/

namespace Sys2Proof.Machine
open Sys2Proof

section
variable {q : DictReq} {s : State} (h : Authorised q s)
include h

theorem timeCome_atEntry (t : Nat) : timeCome (atEntry q s) t = timeCome s t := by
  simp only [timeCome, timed_atEntry h, mer_atEntry _ _ h]

theorem activeBank_atEntry : activeBank (atEntry q s) = activeBank s := by
  simp only [activeBank, tables_atEntry _ _ h]

theorem drainingBank_atEntry : drainingBank (atEntry q s) = drainingBank s := by
  simp only [drainingBank, tables_atEntry _ _ h]

end

theorem flipSchedule_works (w : WriteHdr) (time : BitVec 64) (s : State) (h0 : time ≠ 0)
    (hready : bankState s.tables (1 - activeBank s) = .ready) (hflip : s.tables.flipAt = 0) (hdrain : drainingBank s = none)
    (hahead : stamp s + 400000 ≤ time.toNat) :
    ShareWorks (.flipSchedule w time) w 0x3800 4 (leBytes 8 time.toNat) s (.flipAt time) fun t =>
      t.tables = { s.tables with flipAt := time.toNat } := by
  refine shareWorks_of_rule (applyFlip time.toNat) rfl (fun haut => ?_) (fun t ht => ht)
  have hne : time.toNat ≠ 0 := fun h => h0 (BitVec.eq_of_toNat_eq h)
  simp only [applyFlip, if_neg hne, activeBank_atEntry haut, drainingBank_atEntry haut, tables_atEntry _ _ haut,
    stamp_atEntry haut, BitVec.ofNat_toNat, BitVec.setWidth_eq, hready, hflip, hdrain]
  exact require_pos (by simpa using hahead)

theorem flipCancel_works (w : WriteHdr) (s : State) (hflip : s.tables.flipAt ≠ 0)
    (hdue : timeCome s s.tables.flipAt = false) :
    ShareWorks (.flipCancel w) w 0x3800 4 (zeros 8) s (.flipAt 0) fun t => t.tables = { s.tables with flipAt := 0 } := by
  refine shareWorks_of_rule (applyFlip 0) rfl (fun haut => ?_) (fun t ht => ht)
  simp only [applyFlip, if_pos, tables_atEntry _ _ haut, timeCome_atEntry haut, hdue, if_neg hflip]
  exact require_pos (by simp)

theorem flipCancel_idle (w : WriteHdr) (s : State) (hflip : s.tables.flipAt = 0) :
    WriteWorks (.flipCancel w) w 0x3800 4 (zeros 8) s (fun _ => s) fun t => t.tables = s.tables := by
  refine writeWorks_of_rule (applyFlip 0) id rfl (fun haut => ?_) (fun haut u hu => ?_)
  · simp only [applyFlip, if_pos, tables_atEntry _ _ haut, hflip]
    exact require_pos (by simp)
  · subst hu
    exact ⟨cascade_atEntry _ _ haut, beside_atEntry _ _ haut, (tables_written ..).trans (tables_atEntry _ _ haut)⟩

theorem activeBank_lt (s : State) : activeBank s < 2 := by
  unfold activeBank
  split <;> decide

theorem drainingBank_lt {s : State} {b : Nat} (h : drainingBank s = some b) : b < 2 := by
  unfold drainingBank at h
  split at h
  · cases h; decide
  · split at h
    · cases h; decide
    · cases h

/-- Noting since when the draining bank is quiet changes that time alone. -/
theorem noteQuiet_tables (s : State) :
    ∃ q, noteQuiet s = { s with tables := { s.tables with quiet := q } } := by
  unfold noteQuiet
  split
  · exact ⟨s.tables.quiet, rfl⟩
  · exact ⟨_, rfl⟩

/-- R259: the tables of a flip. -/
def flipped (s : State) : Tables :=
  { setBankState (setBankState s.tables (activeBank s) .draining) (1 - activeBank s) .active with
    epochNr := (s.tables.epochNr + 1) % 2 ^ 32, flipped := s.tables.flipAt, flipAt := 0, quiet := none }

theorem bankState_flipped (s : State) : bankState (flipped s) (activeBank s) = .draining ∧
    bankState (flipped s) (1 - activeBank s) = .active := by
  have hb := activeBank_lt s
  unfold flipped
  generalize activeBank s = b at hb ⊢
  interval_cases b <;> exact ⟨rfl, rfl⟩

theorem epochFlip_due {s : State} (hflip : s.tables.flipAt ≠ 0) (hturn : inTurn s 4 s.tables.flipAt = true) :
    epochFlip s = noteQuiet { s with tables := flipped s } := by
  simp only [epochFlip, hturn, hflip]
  rfl

theorem freeDraining_states (s : State) {b : Nat} (hb : b < 2) : bankState (freeDraining s b).tables b = .free ∧
    bankState (freeDraining s b).tables (1 - b) = bankState s.tables (1 - b) := by
  interval_cases b <;> exact ⟨rfl, rfl⟩

/-- Settles O11: the writes are shared ones; at T the flip changes the tables alone (`noteQuiet_tables`), and so does the
end of the draining. -/
theorem routingTablesFlip : Obligations.RoutingTablesFlip := by
  unfold Obligations.RoutingTablesFlip
  refine ⟨flipSchedule_works, flipCancel_works, flipCancel_idle, fun s hflip hturn => ?_,
    fun s b q hdrain hquiet hpassed => ?_, fun s b hdrain htime => ?_⟩
  · obtain ⟨q, hq⟩ := noteQuiet_tables { s with tables := flipped s }
    obtain ⟨hold, hnew⟩ := bankState_flipped s
    exact ⟨_, congrArg Host.Outcome.next ((epochFlip_due hflip hturn).trans hq), hold, hnew, rfl, rfl, rfl, rfl⟩
  · have hrun : drainingBankQuiet s = freeDraining s b := by simp only [drainingBankQuiet, hdrain, hquiet, hpassed, if_true]
    obtain ⟨hfree, hother⟩ := freeDraining_states s (drainingBank_lt hdrain)
    exact ⟨_, congrArg Host.Outcome.next hrun, hfree, hother, rfl⟩
  · have hrun : drainGuardExpiry s = freeDraining ((oldEpochPkts s).foldl dropOldEpoch s) b := by
      simp only [drainGuardExpiry, hdrain, htime, if_true]
    exact ⟨_, congrArg Host.Outcome.next hrun, (freeDraining_states _ (drainingBank_lt hdrain)).1⟩

end Sys2Proof.Machine
end

section
/-! Contexts (R104 to R137): what touching a mirror, raising a counter and completing a command change of a context, and that
they change no other. -/

namespace Sys2Proof.Machine
open Sys2Proof

/-! ## One context changes -/

/-- The contexts alone changed, and of them only `c`. -/
structure CtxOnly (c : Nat) (s t : State) : Prop where
  eq : t = { s with ctxs := t.ctxs }
  others : ∀ d, d ≠ c → ctx t d = ctx s d

theorem CtxOnly.refl (c : Nat) (s : State) : CtxOnly c s s := ⟨rfl, fun _ _ => rfl⟩

theorem CtxOnly.trans {c : Nat} {s t u : State} (h : CtxOnly c s t) (k : CtxOnly c t u) : CtxOnly c s u :=
  ⟨k.eq.trans (by rw [h.eq]), fun d hd => (k.others d hd).trans (h.others d hd)⟩

theorem ctxOnly_setCtx (s : State) (c : Nat) (x : Ctx) : CtxOnly c s (setCtx s c x) :=
  ⟨rfl, fun _ hd => ctx_setCtx_ne _ _ _ _ hd.symm⟩

theorem ctxOnly_updCtx (s : State) (c : Nat) (f : Ctx → Ctx) : CtxOnly c s (updCtx s c f) := ctxOnly_setCtx ..

@[simp] theorem ctx_updCtx_self (s : State) (c : Nat) (f : Ctx → Ctx) : ctx (updCtx s c f) c = f (ctx s c) :=
  ctx_setCtx_self ..

theorem onlyCtx_refl (c : Nat) (s : State) : onlyCtx c s s := ⟨rfl, fun _ _ => rfl⟩

theorem onlyCtx_trans {c : Nat} {s t u : State} (h : onlyCtx c s t) (k : onlyCtx c t u) : onlyCtx c s u :=
  ⟨k.1.trans (by rw [h.1]), fun d hd => (k.2 d hd).trans (h.2 d hd)⟩

theorem CtxOnly.onlyCtx {c : Nat} {s t : State} (h : CtxOnly c s t) : onlyCtx c s t :=
  ⟨h.eq.trans (by rw [h.eq]), h.others⟩

theorem onlyCtx_emit (c : Nat) (s : State) (o : Output) : onlyCtx c s (emit s o) := ⟨rfl, fun _ _ => rfl⟩

/-! ## Mirrors, thresholds and counters (R132, R135, R137) -/

/-- What waits to be told of a context: its mirror's turn, its thresholds and the interrupts that wait for a mirror write. -/
def withWaiting (x y : Ctx) : Ctx := { x with mirrorDue := y.mirrorDue, arms := y.arms, fired := y.fired }

theorem ctxOnly_mirrorTouch (s : State) (c : Nat) : CtxOnly c s (mirrorTouch s c) := ctxOnly_updCtx ..

theorem ctx_mirrorTouch (s : State) (c : Nat) :
    ctx (mirrorTouch s c) c = withWaiting (ctx s c) (ctx (mirrorTouch s c) c) := by
  rw [mirrorTouch, ctx_updCtx_self]
  split <;> rfl

theorem onlyCtx_foldl_emit {α : Type} (c : Nat) (f : α → Output) (l : List α) (s : State) :
    onlyCtx c s (l.foldl (fun t a => emit t (f a)) s) := by
  induction l generalizing s with
  | nil => exact onlyCtx_refl c s
  | cons a r ih => exact onlyCtx_trans (onlyCtx_emit c s _) (ih _)

theorem onlyCtx_interrupts (s : State) (c : Nat) (vecs : List Nat) : onlyCtx c s (interrupts s c vecs) := by
  unfold interrupts
  split
  · exact onlyCtx_refl c s
  · exact onlyCtx_foldl_emit ..

theorem ctx_interrupts (s : State) (c d : Nat) (vecs : List Nat) : ctx (interrupts s c vecs) d = ctx s d := by
  unfold interrupts
  split
  · rfl
  · exact foldl_keeps (ctx · d) (fun t v => emit t (.interrupt v c)) (fun _ _ => rfl) vecs s

theorem onlyCtx_fireThresholds (s : State) (c : Nat) : onlyCtx c s (fireThresholds s c) := by
  unfold fireThresholds
  dsimp only
  split
  · exact onlyCtx_refl c s
  · split
    · exact onlyCtx_trans (ctxOnly_setCtx ..).onlyCtx (onlyCtx_interrupts ..)
    · exact onlyCtx_trans (ctxOnly_setCtx ..).onlyCtx (ctxOnly_mirrorTouch ..).onlyCtx

theorem ctx_fireThresholds (s : State) (c : Nat) :
    ctx (fireThresholds s c) c = withWaiting (ctx s c) (ctx (fireThresholds s c) c) := by
  unfold fireThresholds
  dsimp only
  split
  · rfl
  · split
    · rw [ctx_interrupts, ctx_setCtx_self]
      rfl
    · rw [ctx_mirrorTouch, ctx_setCtx_self]
      rfl

/-- R132: a counter that is raised. -/
def withCounter (x : Ctx) (k : Nat) : Ctx :=
  { x with counters := tput x.counters k ((counterOf x k + 1) % 2 ^ 64) }

theorem onlyCtx_raiseCounter (s : State) (c k : Nat) : onlyCtx c s (raiseCounter s c k) := by
  unfold raiseCounter
  split
  · exact onlyCtx_refl c s
  · exact onlyCtx_trans ((ctxOnly_updCtx ..).trans (ctxOnly_mirrorTouch ..)).onlyCtx (onlyCtx_fireThresholds ..)

theorem ctx_raiseCounter {s : State} (h : s.phase ≠ .cut) (c k : Nat) :
    ctx (raiseCounter s c k) c = withWaiting (withCounter (ctx s c) k) (ctx (raiseCounter s c k) c) := by
  have hcut : cutOff s = false := by simpa [cutOff] using h
  unfold raiseCounter
  rw [hcut]
  simp only [Bool.false_eq_true, if_false]
  rw [ctx_fireThresholds, ctx_mirrorTouch, ctx_updCtx_self]
  rfl

theorem raised_of_ctx {s t : State} {c k : Nat} {y : Ctx} (h : ctx t c = withWaiting (withCounter (ctx s c) k) y) :
    Raised c k s t := by
  rw [Raised, h, counterOf]
  exact tgetD_tput_self ..

/-! ## Commands (R110, R133) -/

/-- R110: the slot of the next command is emptied and A raised. -/
def withAccepted (x : Ctx) : Ctx := { x with slots := tdel x.slots (x.accept % 16), accept := (x.accept + 1) % 2 ^ 64 }

theorem ctxOnly_acceptSlot (s : State) (c : Nat) : CtxOnly c s (acceptSlot s c) :=
  (ctxOnly_updCtx ..).trans (ctxOnly_mirrorTouch ..)

theorem ctx_acceptSlot (s : State) (c : Nat) :
    ctx (acceptSlot s c) c = withWaiting (withAccepted (ctx s c)) (ctx (acceptSlot s c) c) := by
  unfold acceptSlot
  rw [ctx_mirrorTouch, ctx_updCtx_self]
  rfl

theorem slotTaken_of_ctx {s t : State} {c : Nat} (haccept : (ctx t c).accept = (withAccepted (ctx s c)).accept)
    (hslots : (ctx t c).slots = (withAccepted (ctx s c)).slots) : SlotTaken c s t := by
  rw [SlotTaken, haccept, hslots]
  exact ⟨rfl, tget_tdel_self ..⟩

/-- A command that the context may accept is taken from its slot and begun. -/
theorem accepting_acceptable {s : State} {c type : Nat} {b : BitVec 512} {types : Nat → Bool}
    (body : State → Nat → BitVec 512 → State) (h : Acceptable s c type b) (ht : types type = true) :
    accepting c types body s = body (acceptSlot s c) (ctx s c).accept b := by
  obtain ⟨hphase, hstate, hnext, hroom, htype⟩ := h
  simp only [accepting, hnext]
  rw [if_pos ⟨hstate, hphase, by rwa [htype], hroom⟩]

theorem finishCommand_ok {s : State} (h : s.phase ≠ .cut) (c num type cctr : Nat) :
    finishCommand s c num type cctr .ok = raiseCounter s c cctr := by
  have hcut : cutOff s = false := by simpa [cutOff] using h
  simp [finishCommand, hcut]

/-- A command that completes with OK leaves the list and raises its counter. -/
theorem completeCmd_ok {s : State} (h : s.phase ≠ .cut) (c : Nat) (m : Cmd) :
    completeCmd s c m .ok = raiseCounter (dropCmd s c m.num) c (cmdCctr m.bytes) := by
  have hcut : cutOff s = false := by simpa [cutOff] using h
  simp only [completeCmd, hcut, Bool.false_eq_true, if_false]
  exact finishCommand_ok (s := dropCmd s c m.num) h ..

theorem cmdOf_num {s : State} {c num : Nat} {m : Cmd} (h : cmdOf s c num = some m) : m.num = num := by
  simpa using List.find?_some h

theorem cmdOf_dropCmd (s : State) (c num : Nat) : cmdOf (dropCmd s c num) c num = none := by
  rw [cmdOf, dropCmd, ctx_updCtx_self, List.find?_eq_none]
  intro m hm
  have := (List.mem_filter.mp hm).2
  simpa using this

theorem cmdOf_putCmd {s : State} {c num : Nat} {m : Cmd} (h : (cmdOf s c num).isSome) (hm : m.num = num) :
    cmdOf (putCmd s c m) c num = some m := by
  rw [cmdOf, putCmd, ctx_updCtx_self]
  unfold cmdOf at h
  subst hm
  generalize (ctx s c).cmds = l at h
  induction l with
  | nil => simp at h
  | cons y r ih =>
    rw [List.map_cons]
    by_cases hy : y.num = m.num
    · simp [hy]
    · have hr : (r.find? fun x => x.num == m.num).isSome := by simpa [List.find?_cons, hy] using h
      simpa [List.find?_cons, hy] using ih hr

/-! ## Reports (R367) -/

/-- A report changes the numbers and the faults. -/
theorem raiseReport_only (s : State) (r : Report) :
    raiseReport s r = { s with regs := (raiseReport s r).regs, faults := (raiseReport s r).faults } := by
  unfold raiseReport
  split
  · unfold toIntake
    dsimp only
    split <;> rfl
  · rfl

/-- Its counts lie in 0x7000 and 0x7100. -/
theorem regAt_raiseReport_below {s : State} {r : Report} {i j k : Nat} (h : regKey i j k < regKey 0x7000 0 0) :
    regAt (raiseReport s r) i j k = regAt s i j k := by
  have hne (a b c : Nat) (ha : 0x7000 ≤ a) : regKey i j k ≠ regKey a b c := by
    unfold regKey at h ⊢
    omega
  unfold raiseReport
  split
  · exact (regAt_toIntake_ne (hne _ _ _ (by decide))).trans (regAt_bumpBy_ne _ _ _ _ _ _ _ _ (hne _ _ _ (by decide)))
  · rfl

/-- Outside reset the source counts its event. -/
theorem countedFault_raiseReport {s : State} (hawake : awake s = true) (r : Report) :
    CountedFault r.cls r.idx s (raiseReport s r) := by
  unfold CountedFault Counted raiseReport
  rw [if_pos hawake]
  exact regAt_toIntake_ne (by unfold regKey; omega)

@[simp] theorem ctx_raiseReport (s : State) (r : Report) (c : Nat) : ctx (raiseReport s r) c = ctx s c := by
  rw [raiseReport_only]
  rfl

/-- A report that names a context. -/
theorem reportCtx_eq (s : State) (cls idx kind addr : Nat) (st : Status) (c : Nat) :
    ∃ r : Report, reportCtx s cls idx kind addr st c = raiseReport s r ∧ r.cls = cls ∧ r.idx = idx := ⟨_, rfl, rfl, rfl⟩

end Sys2Proof.Machine
end

section
/-! STAGE_IN and FENCE (R125 to R127, R360): when each begins, waits and completes. -/

namespace Sys2Proof.Machine
open Sys2Proof

/-! ## The first piece (R122, R123) -/

theorem pieceLen_bounds (pos : Nat) {x : Spot} (h : 1 ≤ x.left) : 1 ≤ pieceLen pos x ∧ pieceLen pos x ≤ 512 := by
  have hm (n : Nat) : 1 ≤ messageBytes - n % messageBytes := by
    have := Nat.mod_lt n (show 0 < messageBytes by decide)
    omega
  have hpos := hm pos
  have hsrc := hm x.src
  have hdst := hm x.dst
  unfold pieceLen
  dsimp only
  generalize messageBytes - pos % messageBytes = a at *
  generalize messageBytes - x.src % messageBytes = b at *
  generalize messageBytes - x.dst % messageBytes = c at *
  split
  · omega
  · split <;> omega

/-- A STAGE_IN whose check passes moves at least one byte. -/
theorem cmdTotal_stageIn {s : State} {c : Nat} {b : BitVec 512} {r : Side × Side} (htype : cmdType b = 4)
    (h : commandCheck s c b = .ok r) : 1 ≤ cmdTotal b := by
  have hlayout : layoutOk b = true := by
    cases hl : layoutOk b with
    | true => rfl
    | false => simp [commandCheck, hl] at h
  simp [layoutOk, htype] at hlayout
  simpa [cmdTotal, htype] using hlayout.1.1.1.1

/-- The first piece of a STAGE_IN: a LOAD of the source. -/
theorem pieceOf_stageIn {s : State} {c : Nat} {m : Cmd} (htype : cmdType m.bytes = 4) :
    (pieceOf s c m).kind = .load ∧ (pieceOf s c m).side = m.src ∧ (pieceOf s c m).ctx = c ∧
      (pieceOf s c m).pos = m.pos := by
  simp [pieceOf, htype]

theorem pieceOf_len {s : State} {c : Nat} {m : Cmd} (htype : cmdType m.bytes = 4) (h : m.pos < m.total) :
    1 ≤ (pieceOf s c m).len ∧ (pieceOf s c m).len ≤ 512 := by
  have hleft : 1 ≤ (spotOf m.bytes m.pos m.total).left := by
    simp only [spotOf, htype]
    exact Nat.sub_pos_of_lt h
  exact pieceLen_bounds m.pos hleft

/-! ## A data command that begins -/

/-- A command's checks read of its context the partition entry alone. -/
theorem commandCheck_ctxs {s : State} {x : Tbl Ctx} {c : Nat} (b : BitVec 512)
    (h : (ctx { s with ctxs := x } c).partEnt = (ctx s c).partEnt) :
    commandCheck { s with ctxs := x } c b = commandCheck s c b := by
  simp only [commandCheck, commandSides, commandSide, h]
  rfl

theorem commandCheck_acceptSlot (s : State) (c : Nat) (b : BitVec 512) :
    commandCheck (acceptSlot s c) c b = commandCheck s c b := by
  have h := (ctxOnly_acceptSlot s c).eq
  have hpart : (ctx (acceptSlot s c) c).partEnt = (ctx s c).partEnt := by rw [ctx_acceptSlot]; rfl
  rw [h] at hpart ⊢
  exact commandCheck_ctxs b hpart

/-- A command added to a context's list. -/
theorem ctx_addCmd (s : State) (c : Nat) (m : Cmd) :
    ctx (addCmd s c m) c = { ctx s c with cmds := (ctx s c).cmds ++ [m] } := ctx_updCtx_self ..

theorem ctxOnly_addCmd (s : State) (c : Nat) (m : Cmd) : CtxOnly c s (addCmd s c m) := ctxOnly_updCtx ..

/-- An accepted command joins the list, its slot taken. -/
theorem slotTaken_addCmd (s : State) (c : Nat) (m : Cmd) : SlotTaken c s (addCmd (acceptSlot s c) c m) ∧
    (ctx (addCmd (acceptSlot s c) c m) c).cmds = (ctx s c).cmds ++ [m] ∧ CtxOnly c s (addCmd (acceptSlot s c) c m) := by
  refine ⟨slotTaken_of_ctx ?_ ?_, ?_, (ctxOnly_acceptSlot ..).trans (ctxOnly_addCmd ..)⟩
  · rw [ctx_addCmd, ctx_acceptSlot]; rfl
  · rw [ctx_addCmd, ctx_acceptSlot]; rfl
  · rw [ctx_addCmd, ctx_acceptSlot]; rfl

/-- The operation of a piece is held under the next number. -/
theorem holdOp_of_ctxOnly {c : Nat} {s t : State} (h : CtxOnly c s t) (op : Op) :
    (holdOp t op).held = s.held ++ [op] ∧
      holdOp t op = { s with ctxs := (holdOp t op).ctxs, held := (holdOp t op).held, nextId := s.nextId + 1 } ∧
      ∀ d, d ≠ c → ctx (holdOp t op) d = ctx s d := by
  have he := h.eq
  refine ⟨?_, ?_, h.others⟩
  · rw [he]; rfl
  · rw [he]; rfl

theorem beginCutting_begins {s : State} {c : Nat} {b : BitVec 512} {m : Cmd} (hnum : m.num = (ctx s c).accept)
    (hb : m.bytes = b) (htype : cmdType b = 4) (hphase : m.phase = .issuing) (hpos : m.pos = 0) (htotal : 1 ≤ m.total) :
    BeginsMoving c b m.src .load s (beginCutting (acceptSlot s c) c m) := by
  subst hb
  have hlt : m.pos < m.total := by omega
  simp only [beginCutting, if_pos hlt]
  obtain ⟨hkind, hside, hctx, hop⟩ := pieceOf_stageIn (s := acceptSlot s c) (c := c) htype
  have hlen := pieceOf_len (s := acceptSlot s c) (c := c) htype hlt
  generalize pieceOf (acceptSlot s c) c m = op at *
  obtain ⟨htaken, hcmds, honly⟩ := slotTaken_addCmd s c { m with pos := m.pos + op.len, open_ := m.open_ + 1 }
  obtain ⟨hheld, heq, hothers⟩ := holdOp_of_ctxOnly honly op
  exact ⟨htaken, ⟨_, hcmds, hnum, rfl, hphase⟩, ⟨op, hheld, hctx, hkind, hside, hop.trans hpos, hlen⟩, heq, hothers⟩

theorem stageIn_now {c : Nat} {b : BitVec 512} {s : State} {src dst : Side} (h : Acceptable s c 4 b)
    (hcheck : commandCheck s c b = .ok (src, dst)) (hturn : inTurn s 9 (cmdB b 40 8) = true) :
    BeginsMoving c b src .load s (stageIn c s) := by
  have htype : cmdType b = 4 := by
    obtain ⟨_, _, _, _, htype⟩ := h
    exact htype
  have hnext : nextCommand (ctx s c) = some b := by
    obtain ⟨_, _, hnext, _⟩ := h
    exact hnext
  have hrun : stageIn c s = acceptData (acceptSlot s c) c (ctx s c).accept b false := by
    simp only [stageIn, hnext, hturn, Bool.not_true, Bool.false_eq_true, false_and, and_false, if_false]
    exact accepting_acceptable _ h rfl
  rw [hrun, acceptData, commandCheck_acceptSlot, hcheck]
  exact beginCutting_begins rfl rfl htype rfl rfl (cmdTotal_stageIn htype hcheck)

theorem stageIn_later {c : Nat} {b : BitVec 512} {s : State} {src dst : Side} (h : Acceptable s c 4 b)
    (hcheck : commandCheck s c b = .ok (src, dst)) (hturn : inTurn s 9 (cmdB b 40 8) = false)
    (hroom : engineWaiting s c < 256) : SlotTaken c s (stageIn c s) ∧ onlyCtx c s (stageIn c s) ∧
      ∃ m, (ctx (stageIn c s) c).cmds = (ctx s c).cmds ++ [m] ∧ m.num = (ctx s c).accept ∧ m.bytes = b ∧
        m.phase = .waiting := by
  have hnext : nextCommand (ctx s c) = some b := by
    obtain ⟨_, _, hnext, _⟩ := h
    exact hnext
  have hrun : stageIn c s = acceptData (acceptSlot s c) c (ctx s c).accept b true := by
    simp only [stageIn, hnext, hturn, Nat.not_le.mpr hroom, and_false, if_false]
    exact accepting_acceptable _ h rfl
  rw [hrun, acceptData, commandCheck_acceptSlot, hcheck]
  obtain ⟨htaken, hcmds, honly⟩ := slotTaken_addCmd s c
    { newCmd (ctx s c).accept b .waiting with
      src := src, dst := dst, key := ctxKey (acceptSlot s c) c,
      sinc := incOf (acceptSlot s c) (ownNode (acceptSlot s c)), total := cmdTotal b }
  exact ⟨htaken, honly.onlyCtx, _, hcmds, rfl, rfl, rfl⟩

/-! ## START and DEADLINE (R125) -/

theorem ctxOnly_putCmd (s : State) (c : Nat) (m : Cmd) : CtxOnly c s (putCmd s c m) := ctxOnly_updCtx ..

theorem stageInStart_begins {c num : Nat} {m : Cmd} {s : State} (hm : cmdOf s c num = some m) (hphase : m.phase = .waiting)
    (hpos : m.pos = 0) (hlt : m.pos < m.total) (htype : cmdType m.bytes = 4)
    (hturn : inTurn s 9 (cmdB m.bytes 40 8) = true) :
    (∃ n, cmdOf (stageInStart c num s) c num = some n ∧ n.phase = .issuing) ∧
      (∃ op, (stageInStart c num s).held = s.held ++ [op] ∧ op.ctx = c ∧ op.kind = .load ∧ op.side = m.src ∧ op.pos = 0) ∧
      stageInStart c num s =
        { s with ctxs := (stageInStart c num s).ctxs, held := (stageInStart c num s).held, nextId := s.nextId + 1 } ∧
      ∀ d, d ≠ c → ctx (stageInStart c num s) d = ctx s d := by
  have hnum := cmdOf_num hm
  have hput : cmdOf (putCmd s c { m with phase := .issuing }) c num = some { m with phase := .issuing } :=
    cmdOf_putCmd (by rw [hm]; rfl) hnum
  have hrun : stageInStart c num s = cutNext (putCmd s c { m with phase := .issuing }) c num := by
    simp only [stageInStart, hm, hphase, hturn, and_self, if_true]
  have hone := ctxOnly_putCmd s c { m with phase := .issuing }
  rw [hrun]
  simp only [cutNext, hput, hlt, and_self, if_true]
  generalize putCmd s c { m with phase := .issuing } = t at hput hone ⊢
  obtain ⟨hkind, hside, hctx, hop⟩ := pieceOf_stageIn (s := t) (c := c) (m := { m with phase := .issuing }) htype
  generalize pieceOf t c { m with phase := .issuing } = op at *
  have htwo := hone.trans (ctxOnly_putCmd t c { m with phase := .issuing, pos := m.pos + op.len, open_ := m.open_ + 1 })
  obtain ⟨hheld, heq, hothers⟩ := holdOp_of_ctxOnly htwo op
  refine ⟨⟨{ m with phase := .issuing, pos := m.pos + op.len, open_ := m.open_ + 1 }, ?_, rfl⟩, ⟨op, hheld, hctx, hkind, hside, hop.trans hpos⟩, heq, hothers⟩
  exact cmdOf_putCmd (m := { m with phase := .issuing, pos := m.pos + op.len, open_ := m.open_ + 1 }) (by rw [hput]; rfl) hnum

/-- R125: a DEADLINE that passes is counted once. -/
theorem stageInDeadline_late {c num : Nat} {m : Cmd} {s : State} (hm : cmdOf s c num = some m)
    (htype : cmdType m.bytes = 4) (hset : cmdB m.bytes 48 8 ≠ 0) (hturn : inTurn s 9 (cmdB m.bytes 48 8) = true)
    (hlate : m.late = false) : Counted 0x4300 2 0 s (stageInDeadline c num s) ∧
      cmdOf (stageInDeadline c num s) c num = some { m with late := true } ∧
      stageInDeadline c num s = { s with
        ctxs := (stageInDeadline c num s).ctxs,
        regs := (stageInDeadline c num s).regs,
        faults := (stageInDeadline c num s).faults } ∧
      ∀ d, d ≠ c → ctx (stageInDeadline c num s) d = ctx s d := by
  have hone := ctxOnly_putCmd s c { m with late := true }
  have hput : cmdOf (putCmd s c { m with late := true }) c num = some { m with late := true } :=
    cmdOf_putCmd (by rw [hm]; rfl) (show m.num = num from cmdOf_num hm)
  have hregs : (putCmd s c { m with late := true }).regs = s.regs := rfl
  have hrun : stageInDeadline c num s =
      reportCtx (bump (putCmd s c { m with late := true }) 0x4300 2) 3 (engineOf c) 2 num .ok c := by
    simp only [stageInDeadline, hm, htype, hset, hturn, hlate, Bool.not_false, ne_eq, not_false_iff, and_self, if_true]
  obtain ⟨r, hr, -, -⟩ := reportCtx_eq (bump (putCmd s c { m with late := true }) 0x4300 2) 3 (engineOf c) 2 num .ok c
  rw [hrun, hr]
  generalize putCmd s c { m with late := true } = t at hone hput hregs ⊢
  have hcount := regAt_raiseReport_below (s := bump t 0x4300 2) (r := r) (i := 0x4300) (j := 2) (k := 0)
    (by unfold regKey; omega)
  refine ⟨hcount.trans (regAt_bumpAt_congr (by simp only [regAt, hregs])), ?_, ?_, fun d hd => ?_⟩
  · rw [cmdOf, ctx_raiseReport]
    exact hput
  · have heq := raiseReport_only (bump t 0x4300 2) r
    obtain ⟨x, rfl⟩ : ∃ x, t = { s with ctxs := x } := ⟨_, hone.eq⟩
    generalize raiseReport (bump { s with ctxs := x } 0x4300 2) r = u at heq ⊢
    rw [heq]
    rfl
  · rw [ctx_raiseReport]
    exact hone.others d hd

/-! ## FENCE (R127) -/

theorem fence_waits {c : Nat} {b : BitVec 512} {s : State} (h : Acceptable s c 5 b) :
    SlotTaken c s (accepting c (· == 5) (fun t n b => acceptFence t c n b) s) ∧
      (ctx (accepting c (· == 5) (fun t n b => acceptFence t c n b) s) c).cmds =
        (ctx s c).cmds ++ [newCmd (ctx s c).accept b .fencing] ∧
      onlyCtx c s (accepting c (· == 5) (fun t n b => acceptFence t c n b) s) := by
  rw [accepting_acceptable _ h rfl]
  obtain ⟨htaken, hcmds, honly⟩ := slotTaken_addCmd s c (newCmd (ctx s c).accept b .fencing)
  exact ⟨htaken, hcmds, honly.onlyCtx⟩

/-- A command that completes with OK: its counter is raised, and it is gone. -/
theorem completeCmd_ok_effect {c num : Nat} {m : Cmd} {s : State} (hm : cmdOf s c num = some m) (hcut : s.phase ≠ .cut) :
    Raised c (cmdCctr m.bytes) s (completeCmd s c m .ok) ∧ cmdOf (completeCmd s c m .ok) c num = none ∧
      (ctx (completeCmd s c m .ok) c).failed = (ctx s c).failed ∧ onlyCtx c s (completeCmd s c m .ok) := by
  have hgone := cmdOf_dropCmd s c num
  rw [completeCmd_ok hcut, cmdOf_num hm]
  have hctx := ctx_raiseCounter (s := dropCmd s c num) hcut c (cmdCctr m.bytes)
  have hdrop : ctx (dropCmd s c num) c = { ctx s c with cmds := (ctx (dropCmd s c num) c).cmds } := by
    rw [dropCmd, ctx_updCtx_self]
  refine ⟨?_, ?_, ?_, onlyCtx_trans (ctxOnly_updCtx ..).onlyCtx (onlyCtx_raiseCounter ..)⟩
  · rw [Raised, hctx, hdrop]
    exact tgetD_tput_self ..
  · rw [cmdOf] at hgone ⊢
    rw [hctx]
    exact hgone
  · rw [hctx, hdrop]
    rfl

theorem fenceComplete_met {c num : Nat} {m : Cmd} {s : State} (hm : cmdOf s c num = some m) (hphase : m.phase = .fencing)
    (hmet : fenceMet (ctx s c) m = true) : fenceComplete c num s = completeCmd s c m .ok := by
  simp only [fenceComplete, hm, hphase, hmet, and_self, if_true]

theorem fenceComplete_unmet {c num : Nat} {m : Cmd} {s : State} (hm : cmdOf s c num = some m)
    (hmet : fenceMet (ctx s c) m = false) : fenceComplete c num s = s := by
  simp [fenceComplete, hm, hmet]

/-- Settles O16: a STAGE_IN is accepted and cut or waits (`stageIn_now`, `stageIn_later`), and a FENCE waits until it is met
(`fenceMet`). -/
theorem stageInAndFenceRun : Obligations.StageInAndFenceRun := by
  unfold Obligations.StageInAndFenceRun
  refine ⟨fun c b s src dst h hcheck hturn => ⟨_, rfl, stageIn_now h hcheck hturn⟩,
    fun c b s src dst h hcheck hturn hroom => ⟨_, rfl, stageIn_later h hcheck hturn hroom⟩,
    fun c num m s hm hphase hpos hlt htype hturn => ⟨_, rfl, stageInStart_begins hm hphase hpos hlt htype hturn⟩,
    fun c num m s hm htype hset hturn hlate => ⟨_, rfl, stageInDeadline_late hm htype hset hturn hlate⟩,
    fun c b s h => ⟨_, rfl, fence_waits h⟩, fun c num m s hm hphase hcut hfirst hcount => ?_,
    fun c num m s y hm hy hlt => ?_⟩
  · have hmet : fenceMet (ctx s c) m = true := by
      simp only [fenceMet, Bool.and_eq_true, List.all_eq_true, Bool.or_eq_true, Bool.not_eq_true', decide_eq_true_iff]
      exact ⟨hfirst, by simpa only [← Bool.not_eq_true, ← imp_iff_not_or] using hcount⟩
    refine ⟨_, congrArg Host.Outcome.next (fenceComplete_met hm hphase hmet), completeCmd_ok_effect hm hcut⟩
  · have hmet : fenceMet (ctx s c) m = false := by
      simp only [fenceMet, Bool.and_eq_false_iff, List.all_eq_false]
      exact .inl ⟨y, hy, by simpa using hlt⟩
    exact congrArg Host.Outcome.next (fenceComplete_unmet hm hmet)

end Sys2Proof.Machine
end

section
/-! The states of a context (R106 to R108, R144): an enabled context whose disabling already waits for its final mirror
write. -/

namespace Sys2Proof.Machine
open Sys2Proof Sys2Proof.Tests

/-- An enabled context of nothing in flight, its disable sequence noted as finished but for the final mirror write. -/
def halting : State := ctx0 { onCtx with halting := true }

theorem halting_disable_taken : WriteTaken (writeReq w0 0x4000 3 [2]) halting :=
  Tests.taken (by decide +kernel)

theorem halting_quiet : (ctx halting (wsel halting w0 0x4000 1)).state = .enabled ∧
    (ctx halting (wsel halting w0 0x4000 1)).mirror = 0 ∧ Quiet halting (wsel halting w0 0x4000 1) := by
  unfold Quiet
  decide +kernel

/-- `tryFinish` passes over a context that is halting, so that it stays in DRAINING. -/
theorem disable_halting : ∃ t, exec (.contextDisable w0) halting = .next t ∧
    (ctx t (wsel halting w0 0x4000 1)).state = .draining :=
  ⟨_, rfl, by decide +kernel⟩

/-- Refutes O18. Its second clause takes any enabled context without mirror and with nothing in flight, and the state is
any: where `halting` is set, disabling it leaves it in DRAINING. -/
theorem not_contextsChangeState : ¬ Obligations.ContextsChangeState := by
  unfold Obligations.ContextsChangeState
  rintro ⟨-, hdisable, -⟩
  obtain ⟨hstate, hmirror, hquiet⟩ := halting_quiet
  obtain ⟨t, hrun, -, ⟨hhalted, -⟩, -⟩ := hdisable w0 halting _ rfl hstate hmirror hquiet halting_disable_taken
  obtain ⟨u, hrun', hdraining⟩ := disable_halting
  obtain rfl : t = u := Host.Outcome.next.inj (hrun.symm.trans hrun')
  rw [hhalted] at hdraining
  cases hdraining

end Sys2Proof.Machine
end

section
/-! The writes of a context's mirror (R135 to R137). -/

namespace Sys2Proof.Machine
open Sys2Proof

/-- A context's mirror write goes out, and the interrupts that wait follow its acceptance. -/
def withMirrorOut (x : Ctx) : Ctx :=
  { x with fired := [], mirrorDue := none, mirrorNext := false, mirrorOut := some (mirrorNow x, x.fired) }

/-- A mirror write that goes out at once. -/
theorem issueMirror_free {s : State} {c : Nat} (hmirror : (ctx s c).mirror ≠ 0) (hphase : s.phase ≠ .cut)
    (hout : (ctx s c).mirrorOut = none) : issueMirror s c =
      emit (setCtx s c (withMirrorOut (ctx s c))) (.mirror c (ctx s c).mirror (mirrorNow (ctx s c))) := by
  have hcut : cutOff s = false := by simpa [cutOff] using hphase
  simp only [issueMirror, hmirror, hcut, hout, Bool.false_eq_true, or_self, if_false]
  rfl

/-- A context that is not about to halt shows its state and its generation. -/
theorem mirrorNow_running {x : Ctx} (h : x.halting = false) : mirrorNow x = mirrorImage x x.state x.gen := by
  simp only [mirrorNow, h, Bool.false_eq_true, if_false]

theorem nextMirror_idle {s : State} {c : Nat} (hnext : (ctx s c).mirrorNext = false) (hhalt : (ctx s c).halting = false) :
    nextMirror s c = setCtx s c { ctx s c with mirrorOut := none } := by
  simp only [nextMirror, hnext, hhalt, Bool.false_eq_true, if_false]

theorem nextMirror_halting {s : State} {c : Nat} (hnext : (ctx s c).mirrorNext = false) (hhalt : (ctx s c).halting = true) :
    nextMirror s c = enterHalted (setCtx s c { ctx s c with mirrorOut := none }) c := by
  simp only [nextMirror, hnext, hhalt, Bool.false_eq_true, if_false, if_true]

theorem nextMirror_waiting {s : State} {c : Nat} (hnext : (ctx s c).mirrorNext = true) :
    nextMirror s c = issueMirror (setCtx s c { ctx s c with mirrorOut := none }) c := by
  simp only [nextMirror, hnext, if_true]

theorem mirrorAccepted_out {s : State} {c : Nat} {w : Bytes × List Nat} (h : (ctx s c).mirrorOut = some w) :
    mirrorAccepted c s = nextMirror (interrupts s c w.2) c := by
  simp only [mirrorAccepted, h]

/-- Interrupts change nothing but what is sent. -/
theorem interrupts_only (s : State) (c : Nat) (vecs : List Nat) :
    interrupts s c vecs = { s with out := (interrupts s c vecs).out } := by
  unfold interrupts
  split
  next => rfl
  next hcut =>
    clear hcut
    induction vecs generalizing s with
    | nil => rfl
    | cons v r ih => exact (ih _).trans rfl

/-- R137: the vectors are sent in order. -/
theorem out_interrupts {s : State} (h : s.phase ≠ .cut) (c : Nat) (vecs : List Nat) :
    (interrupts s c vecs).out = s.out ++ vecs.map fun v => .interrupt v c := by
  have hcut : cutOff s = false := by simpa [cutOff] using h
  simp only [interrupts, hcut, Bool.false_eq_true, if_false]
  clear h hcut
  induction vecs generalizing s with
  | nil => exact (List.append_nil _).symm
  | cons v r ih => exact ih.trans (by simp [emit])

theorem halted_enterHalted {s t : State} {c : Nat} (hgen : (ctx t c).gen = (ctx s c).gen)
    (hcounters : (ctx t c).counters = (ctx s c).counters) (haccept : (ctx t c).accept = (ctx s c).accept) :
    Halted c s (enterHalted t c) := by
  unfold Halted enterHalted
  rw [ctx_updCtx_self]
  exact ⟨rfl, congrArg (· + 1) hgen, rfl, hcounters, haccept⟩

/-- R137: an accepted write, with none behind it. -/
theorem mirrorAccepted_idle {s : State} {c : Nat} {w : Bytes × List Nat} (hout : (ctx s c).mirrorOut = some w)
    (hnext : (ctx s c).mirrorNext = false) (hhalt : (ctx s c).halting = false) (hphase : s.phase ≠ .cut) :
    (mirrorAccepted c s).out = s.out ++ w.2.map (fun v => .interrupt v c) ∧
      ctx (mirrorAccepted c s) c = { ctx s c with mirrorOut := none } ∧ onlyCtx c s (mirrorAccepted c s) := by
  have hctx := ctx_interrupts s c c w.2
  rw [mirrorAccepted_out hout, nextMirror_idle (by rwa [hctx]) (by rwa [hctx]), hctx]
  exact ⟨out_interrupts hphase c w.2, ctx_setCtx_self ..,
    onlyCtx_trans (onlyCtx_interrupts s c w.2) (ctxOnly_setCtx ..).onlyCtx⟩

/-- R137: an error gives the interrupts back to the next write, and is reported. -/
theorem mirrorError_idle {s : State} {c : Nat} {w : Bytes × List Nat} (hout : (ctx s c).mirrorOut = some w)
    (hnext : (ctx s c).mirrorNext = false) (hhalt : (ctx s c).halting = false) (hawake : awake s = true) :
    ctx (mirrorError c s) c = { ctx s c with mirrorOut := none, fired := w.2 ++ (ctx s c).fired } ∧
      Counted 0x7100 2 (sourceNo 3 (engineOf c)) s (mirrorError c s) ∧
      mirrorError c s = { s with
        ctxs := (mirrorError c s).ctxs, regs := (mirrorError c s).regs, faults := (mirrorError c s).faults } ∧
      ∀ d, d ≠ c → ctx (mirrorError c s) d = ctx s d := by
  set u := updCtx s c fun x => { x with fired := w.2 ++ x.fired } with hu
  obtain ⟨r, hr, hcls, hidx⟩ := reportCtx_eq u 3 (engineOf c) 3 0 .ok c
  have hself : ctx (raiseReport u r) c = { ctx s c with fired := w.2 ++ (ctx s c).fired } := by
    rw [ctx_raiseReport, hu, ctx_updCtx_self]
  have hrun : mirrorError c s =
      setCtx (raiseReport u r) c { ctx s c with mirrorOut := none, fired := w.2 ++ (ctx s c).fired } := by
    simp only [mirrorError, hout, ← hu, hr]
    rw [nextMirror_idle (by rw [hself]; exact hnext) (by rw [hself]; exact hhalt), hself]
  have hcount := countedFault_raiseReport (s := u) hawake r
  rw [hcls, hidx] at hcount
  rw [hrun]
  refine ⟨ctx_setCtx_self .., hcount, ?_, fun d hd => ?_⟩
  · rw [raiseReport_only]
    rfl
  · rw [ctx_setCtx_ne _ _ _ _ hd.symm, ctx_raiseReport]
    exact (ctxOnly_updCtx ..).others d hd

/-- R136: a write that waits behind an accepted one goes out with the values of that moment. -/
theorem mirrorAccepted_waiting {s : State} {c : Nat} {w : Bytes × List Nat} (hout : (ctx s c).mirrorOut = some w)
    (hnext : (ctx s c).mirrorNext = true) (hhalt : (ctx s c).halting = false) (hmirror : (ctx s c).mirror ≠ 0)
    (hphase : s.phase ≠ .cut) : onlyCtx c s (mirrorAccepted c s) ∧
      (ctx (mirrorAccepted c s) c).mirrorOut =
        some (mirrorImage (ctx s c) (ctx s c).state (ctx s c).gen, (ctx s c).fired) ∧
      (mirrorAccepted c s).out = s.out ++ w.2.map (fun v => .interrupt v c) ++
        [.mirror c (ctx s c).mirror (mirrorImage (ctx s c) (ctx s c).state (ctx s c).gen)] := by
  set x : Ctx := { ctx s c with mirrorOut := none } with hx
  set u := setCtx (interrupts s c w.2) c x with hu
  have hself : ctx u c = x := ctx_setCtx_self ..
  have hctx := ctx_interrupts s c c w.2
  have huphase : u.phase ≠ .cut := by
    rw [hu, interrupts_only]
    exact hphase
  have hrun : mirrorAccepted c s =
      emit (setCtx u c (withMirrorOut x)) (.mirror c x.mirror (mirrorImage x x.state x.gen)) := by
    rw [mirrorAccepted_out hout, nextMirror_waiting (by rwa [hctx]), hctx, ← hx, ← hu,
      issueMirror_free (by rw [hself]; exact hmirror) huphase (by rw [hself]), hself, mirrorNow_running (x := x) hhalt]
  rw [hrun]
  refine ⟨?_, ?_, ?_⟩
  · exact onlyCtx_trans (onlyCtx_trans (onlyCtx_interrupts s c w.2) (ctxOnly_setCtx ..).onlyCtx)
      (onlyCtx_trans (ctxOnly_setCtx ..).onlyCtx (onlyCtx_emit ..))
  · refine (congrArg Ctx.mirrorOut (ctx_setCtx_self ..)).trans ?_
    show some (mirrorNow x, x.fired) = _
    rw [mirrorNow_running (x := x) hhalt]
    rfl
  · exact congrArg (· ++ [Output.mirror c x.mirror (mirrorImage x x.state x.gen)]) (out_interrupts hphase c w.2)

/-- Settles O19: what waits for the outstanding write goes out when that is accepted or fails (`nextMirror`). -/
theorem mirrorWrites : Obligations.MirrorWrites := by
  unfold Obligations.MirrorWrites
  refine ⟨fun c s hmirror hdue hhalt hstate hout hphase => ?_,
    fun c s w hout hnext hhalt hphase => ⟨_, rfl, mirrorAccepted_idle hout hnext hhalt hphase⟩,
    fun c s w hout hnext hhalt hphase => ⟨_, rfl, ?_⟩,
    fun c s w hout hnext hhalt hawake => ⟨_, rfl, mirrorError_idle hout hnext hhalt hawake⟩,
    fun c s w hout hnext hhalt hmirror hphase => ⟨_, rfl, mirrorAccepted_waiting hout hnext hhalt hmirror hphase⟩⟩
  · have hmirrored : mirrored (ctx s c) = true := by rcases hstate with h | h <;> simp [mirrored, h]
    have hrun : mirrorWrite c s = issueMirror s c := by
      simp only [mirrorWrite, hdue, hmirrored, hhalt, Bool.not_false, and_self, if_true]
    refine congrArg Host.Outcome.next ?_
    rw [hrun, issueMirror_free hmirror hphase hout, withMirrorOut, mirrorNow_running hhalt]
  · have hctx := ctx_interrupts s c c w.2
    have hself := ctx_setCtx_self (interrupts s c w.2) c { ctx s c with mirrorOut := none }
    rw [mirrorAccepted_out hout, nextMirror_halting (by rwa [hctx]) (by rwa [hctx]), hctx]
    exact halted_enterHalted (by rw [hself]) (by rw [hself]) (by rw [hself])

end Sys2Proof.Machine
end

section
/-! Requests at the host port (R33, R71, R72, R79, R490). -/

namespace Sys2Proof.Machine
open Sys2Proof

theorem hostUp_of_running {s : State} (h : s.phase = .running) : hostDown s = false := by simp [hostDown, h]

theorem awake_of_running {s : State} (h : s.phase = .running) : awake s = true := by simp [awake, h]

theorem requestError_eq (chan : Nat) (addr : BitVec 64) (s : State) :
    ∃ r : Report, requestError chan addr s = raiseReport s r ∧ r.cls = 0xF ∧ r.idx = chan := ⟨_, rfl, rfl, rfl⟩

/-- R490: a request to an address that is not served is counted and reported after its answer. -/
theorem requestError_answered {s : State} (h : s.phase = .running) (chan : Nat) (addr : BitVec 64) (o : Output) :
    (requestError chan addr (emit s o)).out = s.out ++ [o] ∧ CountedFault 0xF chan s (requestError chan addr (emit s o)) ∧
      requestError chan addr (emit s o) = onlyReported s (requestError chan addr (emit s o)) := by
  obtain ⟨r, hr, hcls, hidx⟩ := requestError_eq chan addr (emit s o)
  have hcount := countedFault_raiseReport (s := emit s o) (awake_of_running h) r
  rw [hcls, hidx] at hcount
  rw [hr]
  refine ⟨?_, hcount, ?_⟩
  · rw [raiseReport_only]
    rfl
  · rw [raiseReport_only]
    rfl

/-- Holding an operation under the next number and trying it at once. -/
theorem triesToIssue {i : Instr} {s : State} {is : Op → Prop} (op : Op) (hid : op.id = s.nextId) (his : is op)
    (h : exec i s = .next (holdAndIssue s op)) : TriesToIssue i s is :=
  have hrun : operationIssue s.nextId (holdOp s op) = holdAndIssue s op := by rw [holdAndIssue, hid]
  ⟨holdAndIssue s op, h, op, hid, his, congrArg Host.Outcome.next hrun⟩

theorem apertureRead_good {h : HostReq} {a : Option AtomicArgs} {s : State} {side : Side}
    (hgood : ApertureGood s h a.isSome side) : apertureRead h a s =
      holdAndIssue s (apertureOp s h (if a.isSome then .atomicFetch else .load) side a (apOffset h.addr) h.len [] 0) := by
  obtain ⟨hphase, htag, hheld, hcheck⟩ := hgood
  simp [apertureRead, hostUp_of_running hphase, htag, hheld, hcheck]

theorem apertureWrite_atomic {h : HostReq} {a : AtomicArgs} {en : List Bool} {d : Bytes} {s : State} {side : Side}
    (hgood : ApertureGood s h true side) : apertureWrite h (some a) en d false s =
      holdAndIssue s (apertureOp s h .atomicPost side (some a) (apOffset h.addr) h.len [] 0) := by
  obtain ⟨hphase, htag, hheld, hcheck⟩ := hgood
  simp [apertureWrite, hostUp_of_running hphase, htag, hheld, hcheck, reportParity, parityPoison]

/-- One run of enabled bytes. -/
theorem apertureWrite_run {h : HostReq} {en : List Bool} {d : Bytes} {s : State} {side : Side} {o l : Nat}
    (hgood : ApertureGood s h false side) (hruns : enabledRuns (enablesOf en h.len) 0 = [(o, l)]) :
    apertureWrite h none en d false s = apertureRun h (.ok side) (padTo h.len d) 0 s (o, l) := by
  obtain ⟨hphase, htag, hheld, hcheck⟩ := hgood
  simp [apertureWrite, hostUp_of_running hphase, htag, hheld, hcheck, hruns, reportParity, parityPoison]

theorem apertureWrite_none {h : HostReq} {en : List Bool} {d : Bytes} {s : State} {side : Side}
    (hgood : ApertureGood s h false side) (hruns : enabledRuns (enablesOf en h.len) 0 = []) :
    apertureWrite h none en d false s = emit s (.storeDone h.thread .ok) := by
  obtain ⟨hphase, htag, hheld, hcheck⟩ := hgood
  simp [apertureWrite, hostUp_of_running hphase, htag, hheld, hcheck, hruns, apertureDone, apertureOp]

/-- R84: a failed aperture request is counted for its context and reported. -/
theorem apertureFailure_eq (s : State) (op : Op) (thread : BitVec 16) (addr : BitVec 64) (st : Status) :
    ∃ f : Ctx → Ctx, (∀ x, (f x).apFails = (x.apFails + 1) % 2 ^ 64) ∧
      apertureFailure s op thread addr st = reportCtx (updCtx s op.ctx f) 3 (engineOf op.ctx) 1 addr.toNat st op.ctx := by
  refine ⟨_, ?_, rfl⟩
  intro x
  rfl

/-- R84: a failed aperture read is answered, recorded in its context and reported. -/
theorem apertureDone_failed {s : State} {op : Op} (hawake : awake s = true) (hkind : op.kind = .load ∨ op.kind = .atomicFetch)
    (thread : BitVec 16) (addr : BitVec 64) {st : Status} (hok : st ≠ .ok) (hpoison : st ≠ .poisoned) (data : Bytes)
    (poison : BitVec 8) {t : State} (ht : t = apertureDone s op thread addr st data poison) :
    t.out = s.out ++ [.loadDone thread st (zeros op.len) 0] ∧
      (ctx t op.ctx).apFails = ((ctx s op.ctx).apFails + 1) % 2 ^ 64 ∧ CountedFault 3 (engineOf op.ctx) s t ∧
      t = { onlyReported s t with ctxs := t.ctxs } ∧ ∀ d, d ≠ op.ctx → ctx t d = ctx s d := by
  obtain ⟨f, hfails, hf⟩ := apertureFailure_eq (emit s (.loadDone thread st (zeros op.len) 0)) op thread addr st
  obtain rfl : t = _ := ht.trans <| Eq.trans
    (by simp only [apertureDone, hkind, hok, hpoison, delivered, or_self, if_true, if_false]) hf
  clear ht
  set u := updCtx (emit s (.loadDone thread st (zeros op.len) 0)) op.ctx f with hu
  obtain ⟨r, hr, hcls, hidx⟩ := reportCtx_eq u 3 (engineOf op.ctx) 1 addr.toNat st op.ctx
  have hcount := countedFault_raiseReport (s := u) hawake r
  rw [hcls, hidx] at hcount
  rw [hr]
  refine ⟨?_, ?_, hcount, ?_, fun d hd => ?_⟩
  · rw [raiseReport_only]
    rfl
  · rw [ctx_raiseReport, hu, ctx_updCtx_self]
    exact hfails _
  · rw [raiseReport_only]
    rfl
  · rw [ctx_raiseReport]
    exact (ctxOnly_updCtx ..).others d hd

theorem apertureRead_failed {h : HostReq} {a : Option AtomicArgs} {s : State} {st : Status} (hphase : s.phase = .running)
    (htag : apTag h.addr = 0xE) (hheld : hostHeld s h = false) (hcheck : apertureCheck s h a.isSome = .error st) :
    ∃ op : Op, apertureRead h a s = apertureDone s op h.thread h.addr st [] 0 ∧
      (op.kind = .load ∨ op.kind = .atomicFetch) ∧ op.ctx = h.ctx.val ∧ op.len = h.len := by
  refine ⟨_, by simp only [apertureRead, hostUp_of_running hphase, htag, hheld, hcheck, Bool.false_eq_true, ne_eq,
    not_true_eq_false, false_and, if_false]; rfl, ?_, rfl, rfl⟩
  show (if a.isSome then OpKind.atomicFetch else .load) = .load ∨ (if a.isSome then OpKind.atomicFetch else .load) = .atomicFetch
  cases a.isSome <;> simp

/-- Settles O20: what is not served is answered and reported, what R79 passes is held and tried, what it fails is
answered with its status. -/
theorem hostRequests : Obligations.HostRequests := by
  unfold Obligations.HostRequests
  refine ⟨fun h a s hphase htag => ?_, fun h a en d pty s hphase htag => ?_, fun chan addr thread s hphase => ?_,
    fun chan addr len thread s hphase => ?_, fun h a s side hgood => ?_, fun h en d s side o l hgood hruns hshape => ?_,
    fun h a en d s side hgood => ?_, fun h en d s side hgood hruns => ?_,
    fun h a s st hphase htag hheld hcheck hok hpoison => ?_⟩
  · have hrun : apertureRead h a s = requestError h.chan h.addr (emit s (.loadDone h.thread .notPerformed (zeros h.len) 0)) := by
      simp only [apertureRead, hostUp_of_running hphase, htag, Bool.false_eq_true, if_false, ne_eq, not_false_eq_true, if_true]
    exact ⟨_, congrArg Host.Outcome.next hrun, requestError_answered hphase ..⟩
  · have hrun : apertureWrite h a en d pty s = requestError h.chan h.addr (emit s (.storeDone h.thread .notPerformed)) := by
      simp only [apertureWrite, hostUp_of_running hphase, htag, Bool.false_eq_true, if_false, ne_eq, not_false_eq_true, if_true]
    exact ⟨_, congrArg Host.Outcome.next hrun, requestError_answered hphase ..⟩
  · have hrun : hostRequestError chan addr none thread s = requestError chan addr (emit s (.storeDone thread .notPerformed)) := by
      simp only [hostRequestError, hostUp_of_running hphase, Bool.false_eq_true, if_false]
    exact ⟨_, congrArg Host.Outcome.next hrun, requestError_answered hphase ..⟩
  · have hrun : hostRequestError chan addr (some len) thread s =
        requestError chan addr (emit s (.loadDone thread .notPerformed (zeros len) 0)) := by
      simp only [hostRequestError, hostUp_of_running hphase, Bool.false_eq_true, if_false]
    exact ⟨_, congrArg Host.Outcome.next hrun, requestError_answered hphase ..⟩
  · refine triesToIssue _ ?_ ?_ (congrArg Host.Outcome.next (apertureRead_good hgood))
    · rfl
    · exact ⟨rfl, rfl, rfl, rfl, rfl, rfl, rfl⟩
  · have hrun : apertureRun h (.ok side) (padTo h.len d) 0 s (o, l) =
        holdAndIssue s (apertureOp s { h with addr := h.addr + BitVec.ofNat 64 o } .store side none (apOffset h.addr + o) l
          (((padTo h.len d).drop o).take l) 0) := by simp only [apertureRun, hshape, if_true]
    refine triesToIssue _ ?_ ?_ (congrArg Host.Outcome.next ((apertureWrite_run hgood hruns).trans hrun))
    · rfl
    · exact ⟨rfl, rfl, rfl, rfl, rfl, rfl, rfl⟩
  · refine triesToIssue _ ?_ ?_ (congrArg Host.Outcome.next (apertureWrite_atomic hgood))
    · rfl
    · exact ⟨rfl, rfl, rfl, rfl, rfl⟩
  · exact congrArg Host.Outcome.next (apertureWrite_none hgood hruns)
  · obtain ⟨op, hrun, hkind, hctx, hlen⟩ := apertureRead_failed hphase htag hheld hcheck
    have hdone := apertureDone_failed (awake_of_running hphase) hkind h.thread h.addr hok hpoison [] 0 rfl
    rw [hctx, hlen] at hdone
    exact ⟨_, congrArg Host.Outcome.next hrun, hdone⟩

end Sys2Proof.Machine
end

section
/-! What keeping a packet changes beside the packets themselves: the accounts' bookkeeping, and the words that tell the
neighbours of it (R211, R212, R216, R263). -/

namespace Sys2Proof.Machine
open Sys2Proof

/-- Everything of the state but the packets, their numbers, the lanes and ports, what was sent, and the peaks and the quiet
time that follow the packets. -/
def besidePackets (s : State) : State :=
  { s with pkts := [], writers := [], nextId := 0, ports := [], lanes := [], octets := [], out := [],
           tables := { s.tables with quiet := none }, charts := { s.charts with incPeak := 0, stgPeak := 0 } }

/-- Everything of a port that the packets do not change. -/
def portBody (x : Port) : Port := { portCore x with collOff := none }

/-- Packets came, went or moved, and nothing else changed but what follows them. -/
structure Stores (s t : State) : Prop where
  beside : besidePackets t = besidePackets s
  body : ∀ p, portBody (port t p) = portBody (port s p)
  out : s.out <+: t.out

namespace Stores

theorem refl (s : State) : Stores s s := ⟨rfl, fun _ => rfl, List.prefix_refl _⟩

theorem trans {s t u : State} (h : Stores s t) (k : Stores t u) : Stores s u :=
  ⟨k.beside.trans h.beside, fun p => (k.body p).trans (h.body p), h.out.trans k.out⟩

theorem foldl {α : Type} {f : State → α → State} (h : ∀ t a, Stores t (f t a)) (l : List α) (s : State) :
    Stores s (l.foldl f s) := by
  induction l generalizing s with
  | nil => exact refl s
  | cons a r ih => exact (h s a).trans (ih _)

variable {s t : State} (h : Stores s t)
include h

theorem mem : t.mem = s.mem := (congrArg State.mem h.beside :)
theorem ctxs : t.ctxs = s.ctxs := (congrArg State.ctxs h.beside :)
theorem regs : t.regs = s.regs := (congrArg State.regs h.beside :)
theorem units : t.units = s.units := (congrArg State.units h.beside :)
theorem tracks : t.tracks = s.tracks := (congrArg State.tracks h.beside :)
theorem accesses : t.accesses = s.accesses := (congrArg State.accesses h.beside :)
theorem msgIn : t.msgIn = s.msgIn := (congrArg State.msgIn h.beside :)
theorem phase : t.phase = s.phase := (congrArg State.phase h.beside :)
theorem clock : t.clock = s.clock := (congrArg State.clock h.beside :)
theorem colls : t.colls = s.colls := (congrArg State.colls h.beside :)
theorem genBase : t.genBase = s.genBase := (congrArg State.genBase h.beside :)

theorem ctx (c : Nat) : ctx t c = ctx s c := by simp only [Machine.ctx, h.ctxs, h.genBase]

end Stores

theorem Stores.setPort {s : State} {p : Nat} {x : Port} (h : portBody x = portBody (port s p)) : Stores s (setPort s p x) := by
  refine ⟨rfl, fun q => ?_, List.prefix_refl _⟩
  by_cases hq : p = q
  · subst hq
    rw [port_setPort_self, h]
  · rw [port_setPort_ne _ _ _ _ hq]

theorem Sends.stores {s t : State} (h : Sends s t) : Stores s t where
  beside := (congrArg besidePackets h.beside :)
  body p := (congrArg (fun x : Port => { x with collOff := none }) (h.core p) :)
  out := h.out

theorem Sends.pkts {s t : State} (h : Sends s t) : t.pkts = s.pkts := (congrArg State.pkts h.beside :)

/-! ## What follows a change of an account -/

theorem pkts_refreshXoff (s : State) (p : Nat) : (refreshXoff s p).pkts = s.pkts := by
  unfold refreshXoff
  dsimp only
  split
  · rfl
  · exact (sends_sendStatus ..).pkts

theorem stores_refreshXoff (s : State) (p : Nat) : Stores s (refreshXoff s p) := by
  unfold refreshXoff
  dsimp only
  split
  · exact .refl s
  · refine Stores.trans (Stores.setPort ?_) (sends_sendStatus ..).stores
    rfl

theorem stores_tellStripe (s : State) (p : Nat) : Stores s (tellStripe s p) := by
  unfold tellStripe
  split
  · split
    · exact .refl s
    · exact (Sends.emit ..).stores
  · exact .refl s

theorem pkts_tellStripe (s : State) (p : Nat) : (tellStripe s p).pkts = s.pkts := by
  unfold tellStripe
  split
  · split <;> rfl
  · rfl

theorem stores_refreshAccount (s : State) (a : Account) : Stores s (refreshAccount s a) := by
  unfold refreshAccount
  split
  · exact stores_refreshXoff ..
  · exact stores_tellStripe ..
  · exact Stores.foldl stores_refreshXoff ..
  · exact Stores.foldl stores_refreshXoff ..
  · exact .refl s

@[simp] theorem pkts_refreshAccount (s : State) (a : Account) : (refreshAccount s a).pkts = s.pkts := by
  unfold refreshAccount
  split
  · exact pkts_refreshXoff ..
  · exact pkts_tellStripe ..
  · exact foldl_keeps State.pkts refreshXoff pkts_refreshXoff ..
  · exact foldl_keeps State.pkts refreshXoff pkts_refreshXoff ..
  · rfl

theorem stores_noteQuiet (s : State) : Stores s (noteQuiet s) := by
  unfold noteQuiet
  dsimp only
  split
  · exact .refl s
  · exact ⟨rfl, fun _ => rfl, List.prefix_refl _⟩

@[simp] theorem pkts_noteQuiet (s : State) : (noteQuiet s).pkts = s.pkts := by
  unfold noteQuiet
  dsimp only
  split <;> rfl

/-! ## Packets that come, go and move -/

theorem stores_addPkt (s : State) (x : Pkt) : Stores s (addPkt s x) := by
  unfold addPkt
  refine Stores.trans ?_ (stores_refreshAccount ..)
  refine Stores.trans ?_ (stores_noteQuiet _)
  exact ⟨rfl, fun _ => rfl, List.prefix_refl _⟩

theorem pkts_addPkt (s : State) (x : Pkt) :
    (addPkt s x).pkts = s.pkts ++ [{ x with bank := startBank s (writerOf x) }] := by
  unfold addPkt
  rw [pkts_refreshAccount, pkts_noteQuiet]
  rfl

theorem stores_dropPkt (s : State) (id : Nat) : Stores s (dropPkt s id) := by
  unfold dropPkt
  split
  · refine Stores.trans ?_ (stores_refreshAccount ..)
    refine Stores.trans ?_ (stores_noteQuiet _)
    exact ⟨rfl, fun _ => rfl, List.prefix_refl _⟩
  · exact .refl s

theorem pkts_dropPkt (s : State) (id : Nat) : (dropPkt s id).pkts = s.pkts.filter fun y => y.id != id := by
  unfold dropPkt
  split
  · rw [pkts_refreshAccount, pkts_noteQuiet]
  · rename_i hnone
    refine (List.filter_eq_self.mpr fun y hy => ?_).symm
    have := List.find?_eq_none.mp hnone y hy
    simpa using this

theorem pktOf_of_pkts {s : State} {l : List Pkt} {id : Nat} (h : s.pkts = l.filter fun y => y.id != id) :
    pktOf s id = none := by
  rw [pktOf, h, List.find?_eq_none]
  intro y hy
  have := (List.mem_filter.mp hy).2
  simpa using this

theorem pktOf_id {s : State} {id : Nat} {x : Pkt} (h : pktOf s id = some x) : x.id = id := by
  simpa using List.find?_some h

theorem stores_putPkt (s : State) (x : Pkt) : Stores s (putPkt s x) := ⟨rfl, fun _ => rfl, List.prefix_refl _⟩

theorem stores_rechargePkt (s : State) (x : Pkt) (a : Account) : Stores s (rechargePkt s x a) :=
  ((stores_putPkt ..).trans (stores_noteQuiet _)).trans (stores_refreshAccount ..)

theorem pkts_rechargePkt (s : State) (x : Pkt) (a : Account) :
    (rechargePkt s x a).pkts = (putPkt s { x with acct := a }).pkts := by
  unfold rechargePkt
  rw [pkts_refreshAccount, pkts_noteQuiet]

end Sys2Proof.Machine
end

section
/-! Requests that leave the ingress region (R47, R70, R88, R95, R180, R212). -/

namespace Sys2Proof.Machine
open Sys2Proof

theorem requestAt_pkt {s : State} {id op : Nat} {x : Pkt} (h : requestAt s id op = some x) : pktOf s id = some x := by
  unfold requestAt at h
  cases hp : pktOf s id with
  | none => simp [hp] at h
  | some y =>
    simp only [hp, Option.ite_none_right_eq_some] at h
    exact h.2

/-- A request that nothing holds back is served where its translation leads. -/
theorem serveBy_here {s : State} {id op : Nat} {x : Pkt} {p : Place} (h : Servable s id op x p)
    (fails : State → Pkt → Status → State) (lent : State → Pkt → NodeId → Nat → Nat → State)
    (here : State → Pkt → Place → State) : serveBy s id op fails lent here = here s x p := by
  obtain ⟨hat, hroom, hbehind, htranslate⟩ := h
  simp [serveBy, hat, hroom, hbehind, htranslate]

/-- R88: a STORE without notification belongs to no message and needs no credit. -/
theorem storeArrives_plain {s : State} {x : Pkt} (h : hNotify x.header = false) (go : State → State) :
    storeArrives s x go = go s := by
  simp [storeArrives, messageArrives, creditEntry, h]

/-! ## The queue of a unit -/

theorem units_unitCount (s : State) (n sub k : Nat) : (unitCount s n sub k).units = s.units := by
  unfold unitCount
  dsimp only
  split <;> rfl

theorem pkts_unitCount (s : State) (n sub k : Nat) : (unitCount s n sub k).pkts = s.pkts := by
  unfold unitCount
  dsimp only
  split <;> rfl

theorem queue_settlePress (s : State) (n : Nat) : (sext (settlePress s n) n).queue = (sext s n).queue := by
  unfold settlePress
  dsimp only
  split
  · split
    · rw [sext_setSext_self]
    · rfl
  · split
    · rw [sext, units_unitCount, ← sext, sext_setSext_self]
    · rfl

theorem pkts_settlePress (s : State) (n : Nat) : (settlePress s n).pkts = s.pkts := by
  unfold settlePress
  dsimp only
  split
  · split <;> rfl
  · split
    · exact pkts_unitCount ..
    · rfl

theorem queue_enqueueUnit (s : State) (n : Nat) (r : UnitReq) (paced : Bool) :
    (sext (enqueueUnit s n r paced) n).queue = (sext s n).queue ++ [r] := by
  unfold enqueueUnit
  rw [queue_settlePress]
  exact congrArg SextUnit.queue (sext_setSext_self ..)

theorem pkts_enqueueUnit (s : State) (n : Nat) (r : UnitReq) (paced : Bool) : (enqueueUnit s n r paced).pkts = s.pkts :=
  pkts_settlePress ..

/-- An atomic as it waits in a unit's queue. -/
def waitingAtomic (x : Pkt) (p : Place) : UnitReq where
  work := .atomic x.header p.addr (hLen x.header) (atomicArgs x.payload) (bitAt (hPoison x.header).toNat 0) (isLoop x)
  bytes := 64

/-- R180: an atomic that leaves the ingress region waits in its unit's queue. -/
theorem atomicRequest_here {s : State} {id op : Nat} {x : Pkt} {p : Place} (h : Servable s id op x p)
    (hstream : streamElsewhere s x (100 + p.unit) = false) (hservice : (sext s p.unit).inService = true)
    (htakes : unitTakes s p.unit 64 = true) : atomicRequest id op s =
      enqueueUnit (dropPkt s x.id) p.unit (waitingAtomic x p) false := by
  unfold atomicRequest serve
  rw [serveBy_here h]
  simp [unitCtrl, hstream, hservice, htakes, waitingAtomic]

theorem atomicRequest_queued {s : State} {id op : Nat} {x : Pkt} {p : Place} (h : Servable s id op x p)
    (hstream : streamElsewhere s x (100 + p.unit) = false) (hservice : (sext s p.unit).inService = true)
    (htakes : unitTakes s p.unit 64 = true) {t : State} (ht : t = atomicRequest id op s) :
    pktOf t id = none ∧ (∃ r, (sext t p.unit).queue = (sext s p.unit).queue ++ [r] ∧ r.bytes = 64 ∧
      r.work = .atomic x.header p.addr (hLen x.header) (atomicArgs x.payload) (bitAt (hPoison x.header).toNat 0) (isLoop x)) ∧
      t.mem = s.mem := by
  rw [atomicRequest_here h hstream hservice htakes, pktOf_id (requestAt_pkt h.1)] at ht
  subst ht
  refine ⟨pktOf_of_pkts ((pkts_enqueueUnit ..).trans (pkts_dropPkt ..)), ⟨waitingAtomic x p, ?_, rfl, rfl⟩, ?_⟩
  · rw [queue_enqueueUnit, sext, sext, (stores_dropPkt s id).units]
  · rw [enqueueUnit_mem, dropPkt_mem]

/-! ## NOTIFY (R95) -/

theorem respond_far {s : State} {h : BitVec 256} {st : Status} : respond s h false st [] 0 false =
    addPkt s (newPkt s (responseHeader h (answerOp (hOp h)) st 0 0 (singleMap h) false false (singleTag h)) [] .response none) :=
  rfl

/-- A NOTIFY that its target may take. -/
theorem notifyRequest_taken {s : State} {id : Nat} {x : Pkt} (hat : requestAt s id opNotify = some x)
    (hroom : roomToAnswer s x = true) (hloop : isLoop x = false)
    (hmay : mayNotify s (hNctx x.header) (hKey x.header) = true) (hphase : s.phase ≠ .cut) {t : State}
    (ht : t = notifyRequest id s) : Raised (hNctx x.header) (hNctr x.header) s t ∧
      tget t.msgIn (hMessage x.header) = none ∧ t.mem = s.mem ∧
      ∃ y ∈ t.pkts, y.acct = .response ∧
        y.header = responseHeader x.header (answerOp (hOp x.header)) .ok 0 0 (singleMap x.header) false false (singleTag x.header) := by
  have hdrop := stores_dropPkt s id
  set u : State := { dropPkt s id with msgIn := tdel (dropPkt s id).msgIn (hMessage x.header) } with hu
  have hctx (c : Nat) : ctx u c = ctx s c := hdrop.ctx c
  have hmay' : mayNotify u (hNctx x.header) (hKey x.header) = true := by
    have htables : u.tables.part = s.tables.part := (congrArg (fun t : State => t.tables.part) hdrop.beside :)
    simpa only [mayNotify, partValid, partKey, partEntry, hctx, htables] using hmay
  set v := raiseCounter u (hNctx x.header) (hNctr x.header) with hv
  have hrun : t = addPkt v (newPkt v (responseHeader x.header (answerOp (hOp x.header)) .ok 0 0 (singleMap x.header) false
      false (singleTag x.header)) [] .response none) := by
    rw [ht]
    simp only [notifyRequest, hat, hroom, Bool.not_true, Bool.false_eq_true, if_false, ← hu, notifyNow, hmay', if_true,
      hloop, ← hv]
    rfl
  have huphase : u.phase ≠ .cut := by rw [show u.phase = s.phase from hdrop.phase]; exact hphase
  have hraise := onlyCtx_raiseCounter u (hNctx x.header) (hNctr x.header)
  have hadd := stores_addPkt v (newPkt v (responseHeader x.header (answerOp (hOp x.header)) .ok 0 0 (singleMap x.header)
    false false (singleTag x.header)) [] .response none)
  rw [← hrun] at hadd
  refine ⟨?_, ?_, ?_, ?_⟩
  · have h := raised_of_ctx (ctx_raiseCounter huphase (hNctx x.header) (hNctr x.header))
    rw [Raised, hctx] at h
    rwa [Raised, hadd.ctx]
  · rw [hadd.msgIn, show v.msgIn = u.msgIn from (congrArg State.msgIn hraise.1 :)]
    exact tget_tdel_self ..
  · rw [hadd.mem, show v.mem = u.mem from (congrArg State.mem hraise.1 :)]
    exact hdrop.mem
  · rw [hrun, pkts_addPkt]
    exact ⟨_, List.mem_append_right _ (List.mem_singleton.mpr rfl), rfl, rfl⟩

/-- Settles O22: a request that nothing holds back is served where its translation leads (`serveBy_here`). -/
theorem requestsReachMemory : Obligations.RequestsReachMemory := by
  unfold Obligations.RequestsReachMemory
  refine ⟨fun id s x p h hstream => ?_, fun id s x p h hstream hnotify => ?_,
    fun id s x p i op hi h hstream hservice htakes => ?_,
    fun id s x hat hroom hloop hmay hphase => ⟨_, rfl, notifyRequest_taken hat hroom hloop hmay hphase rfl⟩⟩
  · have hrun : loadRequest id s = openAccess s x .load p [] false := by
      unfold loadRequest serve
      rw [serveBy_here h]
      simp [hstream]
    exact ⟨_, congrArg Host.Outcome.next hrun, _, rfl, rfl, rfl, congrArg some (pktOf_id (requestAt_pkt h.1)), rfl, rfl, rfl, rfl⟩
  · have hrun : storeRequest id s = openAccess s x .store p (fromUnits (hOffset x.header) (hLen x.header) x.payload)
        (noEntry s x.header) := by
      unfold storeRequest
      rw [serveBy_here h]
      simp [hstream, storeArrives_plain hnotify]
    exact ⟨_, congrArg Host.Outcome.next hrun, _, rfl, rfl, rfl, congrArg some (pktOf_id (requestAt_pkt h.1)), rfl, rfl, rfl, rfl⟩
  · have hinstr : exec i s = .next (atomicRequest id op s) := by
      simp only [List.mem_cons, Prod.mk.injEq, List.not_mem_nil, or_false] at hi
      obtain ⟨rfl, rfl⟩ | ⟨rfl, rfl⟩ := hi <;> rfl
    exact ⟨_, hinstr, atomicRequest_queued h hstream hservice htakes rfl⟩

end Sys2Proof.Machine
end

section
/-! What memory's acceptance of an access does to its bytes (R93, R99, R202). -/

namespace Sys2Proof.Machine
open Sys2Proof

/-! ## Bytes under a marked write -/

/-- The poison marks of a write do not bear on its bytes. -/
theorem memByte_writeMarked (m : Memory) (addr : Nat) (data : Bytes) (poison : BitVec 8) (b : Nat) :
    memByte (writeMarked m addr data poison) b = memByte (memWrite m addr data) b := by
  unfold writeMarked
  generalize List.range (ceilDiv (addr % 64 + data.length) 64) = l
  generalize memWrite m addr data = n
  induction l generalizing n with
  | nil => rfl
  | cons k r ih =>
    rw [List.foldl_cons, ih]
    dsimp only
    split
    · exact memByte_memPoison ..
    · split
      · exact memByte_memPoison ..
      · rfl

theorem storeAccepted_mem (s : State) (a : Access) :
    (storeAccepted s a).mem = writeMarked s.mem a.addr a.data a.poison := by
  unfold storeAccepted
  dsimp only
  rw [acknowledge_mem, messageGains_mem]
  split
  · rw [creditAccepted_mem, countPoison_mem]
  · rw [countPoison_mem]

theorem chartAccepted_mem (s : State) (a : Access) :
    (chartAccepted s a).mem = writeMarked s.mem a.addr a.data a.poison := rfl

/-- The write's bytes are in memory and every other byte is as it was. -/
theorem memByte_written {s t : State} {a : Access} (h : t.mem = writeMarked s.mem a.addr a.data a.poison) :
    (∀ k, ∀ hk : k < a.data.length, memByte t.mem (a.addr + k) = a.data[k]) ∧
      ∀ b, (b < a.addr ∨ a.addr + a.data.length ≤ b) → memByte t.mem b = memByte s.mem b := by
  refine ⟨fun k hk => ?_, fun b hb => ?_⟩
  · rw [h, memByte_writeMarked, memByte_memWrite_inside _ _ _ _ hk]
  · rw [h, memByte_writeMarked, memByte_memWrite_outside _ _ _ _ hb]

/-- Undefined content is written to its run alone. -/
theorem memByte_scramble (s : State) (r : Nat × Nat) {b : Nat} (h : b < r.1 ∨ r.1 + r.2 ≤ b) :
    memByte (scramble s r).mem b = memByte s.mem b :=
  memByte_memWrite_outside _ _ _ _ (by rwa [length_leBytes])

/-! ## The kinds of access -/

section
variable {s : State} {id : Nat} {a : Access} (hfind : s.accesses.find? (fun a => a.id == id) = some a)
include hfind

theorem memoryAccept_store (pty : Bool) (hkind : a.kind = .store) (hbehind : accessBehind s a = false)
    (hheld : lineHeld s a.addr a.len = false) : memoryAccept id pty s = plainAccess s a fun t => storeAccepted t a := by
  simp [memoryAccept, hfind, hkind, hbehind, hheld]

theorem memoryAccept_load (pty : Bool) (hkind : a.kind = .load) (hbehind : accessBehind s a = false)
    (hheld : lineHeld s a.addr a.len = false) : memoryAccept id pty s = plainAccess s a fun t => loadAccepted t a pty := by
  simp [memoryAccept, hfind, hkind, hbehind, hheld]

theorem memoryAccept_chart (pty : Bool) (hkind : a.kind = .chart) (hheld : lineHeld s a.addr a.len = false) :
    memoryAccept id pty s = chartAccepted s a := by
  simp [memoryAccept, hfind, hkind, hheld]

theorem accessId : a.id = id := by simpa using List.find?_some hfind

end

theorem plainAccess_free {s : State} {a : Access} (h : landsUnder s a = none) (act : State → State) :
    plainAccess s a act = act s := by
  simp only [plainAccess, h]

/-- R202: beside the elements of D, a plain access leaves what its own act leaves. -/
theorem memByte_plainAccess {s : State} {a : Access} {r : Nat × Nat} (h : landsUnder s a = some r) {act : State → State}
    {b : Nat} (hact : ∀ t, memByte (act t).mem b = memByte t.mem b) (hb : b < r.1 ∨ r.1 + r.2 ≤ b) :
    memByte (plainAccess s a act).mem b = memByte s.mem b := by
  simp only [plainAccess, h]
  rw [memByte_scramble _ _ hb, hact, memByte_scramble _ _ hb]

theorem landsUnder_remote {s : State} {a : Access} (h : a.loop = false) : landsUnder s a = none := by
  simp [landsUnder, byDie, h]

/-! ## A LOAD's response -/

theorem accesses_closeAccess (s : State) (a : Access) :
    (closeAccess s a).accesses = s.accesses.filter fun x => x.id != a.id := by
  unfold closeAccess
  dsimp only
  split
  · exact (stores_dropPkt ..).accesses
  · rfl

theorem loadAccepted_clean {s : State} {a : Access} (hloop : a.loop = false)
    (hmarks : poisonMarks s.mem (a.addr / 64 * 64) (a.addr % 64 + a.len) = 0) :
    loadAccepted s a false = respond (closeAccess s a) a.header false .ok (toUnits a.addr (memRead s.mem a.addr a.len)) 0 false := by
  simp [loadAccepted, hmarks, hloop, countPoison, parityFault]

/-- R93: a LOAD closes its access and answers with the bytes. -/
theorem loadAccepted_answers {s t : State} {a : Access} (hloop : a.loop = false)
    (hmarks : poisonMarks s.mem (a.addr / 64 * 64) (a.addr % 64 + a.len) = 0) (ht : t = loadAccepted s a false) :
    t.mem = s.mem ∧ (∀ y ∈ t.accesses, y.id ≠ a.id) ∧
      ∃ x ∈ t.pkts, x.acct = .response ∧ x.payload = toUnits a.addr (memRead s.mem a.addr a.len) ∧
        x.header = responseHeader a.header (answerOp (hOp a.header)) .ok (x.payload.length / 64) 0
          (singleMap a.header) false false (singleTag a.header) := by
  refine ⟨by rw [ht, loadAccepted_mem], ?_, ?_⟩
  all_goals
    rw [ht, loadAccepted_clean hloop hmarks]
    unfold respond
    simp only [Bool.false_eq_true, if_false]
  · rw [(stores_addPkt ..).accesses, accesses_closeAccess]
    intro y hy
    simpa using (List.mem_filter.mp hy).2
  · rw [pkts_addPkt]
    exact ⟨_, List.mem_append_right _ (List.mem_singleton.mpr rfl), rfl, rfl, rfl⟩

/-- Settles O23: an access that is accepted writes its own bytes (`memByte_written`), reads none away, and in D of a
collective that lands scrambles the elements it touches (`memByte_plainAccess`). -/
theorem memoryAccepts : Obligations.MemoryAccepts := by
  unfold Obligations.MemoryAccepts
  refine ⟨fun id pty s a hfind hkind hheld => ?_, fun id pty s a r hfind hkind hbehind hlands hheld => ?_,
    fun id s a hfind hkind hbehind hheld hloop hmarks => ?_⟩
  · obtain ⟨hstore, hbehind, hlands⟩ | hchart := hkind
    · refine ⟨_, congrArg Host.Outcome.next (memoryAccept_store hfind pty hstore hbehind hheld), memByte_written ?_⟩
      rw [plainAccess_free hlands, storeAccepted_mem]
    · exact ⟨_, congrArg Host.Outcome.next (memoryAccept_chart hfind pty hchart hheld), memByte_written (chartAccepted_mem ..)⟩
  · obtain hstore | ⟨hload, -⟩ := hkind
    · refine ⟨_, congrArg Host.Outcome.next (memoryAccept_store hfind pty hstore hbehind hheld), fun b hb hr => ?_⟩
      exact memByte_plainAccess hlands (fun t => (memByte_written (storeAccepted_mem t a)).2 b hb) hr
    · refine ⟨_, congrArg Host.Outcome.next (memoryAccept_load hfind pty hload hbehind hheld), fun b _ hr => ?_⟩
      exact memByte_plainAccess hlands (fun t => by rw [loadAccepted_mem]) hr
  · refine ⟨_, congrArg Host.Outcome.next (memoryAccept_load hfind false hkind hbehind hheld), ?_⟩
    rw [plainAccess_free (landsUnder_remote hloop), ← accessId hfind]
    exact loadAccepted_answers hloop hmarks rfl

end Sys2Proof.Machine
end

section
/-! Responses at the requester (R82, R83, R85, R100). -/

namespace Sys2Proof.Machine
open Sys2Proof

/-! ## A tracking entry is closed -/

/-- What closing a tracking entry may change. -/
def closedOver (s t : State) : State :=
  { s with tracks := t.tracks, streams := t.streams, senders := t.senders, blocks := t.blocks, regs := t.regs }

theorem leaveSender_only (s : State) (t : Track) : leaveSender s t = { s with senders := (leaveSender s t).senders } := by
  unfold leaveSender
  split
  · dsimp only
    split <;> rfl
  · rfl

theorem leaveStream_only (s : State) (op : Op) (tag : Nat) (syn : Bool) :
    leaveStream s op tag syn = { s with streams := (leaveStream s op tag syn).streams, regs := (leaveStream s op tag syn).regs } := by
  unfold leaveStream
  split
  · rfl
  · dsimp only
    split
    · rfl
    · split <;> rfl

theorem releaseBlock_only (s : State) (b : Nat) : releaseBlock s b = { s with blocks := (releaseBlock s b).blocks } := by
  unfold releaseBlock
  dsimp only
  split <;> rfl

/-- Closing an entry frees it and touches nothing but its stream, its sender entry and its block. -/
theorem closeOut_only (s : State) (tag : Nat) (t : Track) (stale syn : Bool) :
    (closeOut s tag t stale syn).tracks = tdel s.tracks tag ∧
      closeOut s tag t stale syn = closedOver s (closeOut s tag t stale syn) := by
  unfold closeOut
  dsimp only
  set u := leaveStream { s with tracks := tdel s.tracks tag } t.op tag syn with hu
  have hu' : u = closedOver s u ∧ u.tracks = tdel s.tracks tag := by
    rw [hu, leaveStream_only]
    exact ⟨rfl, rfl⟩
  have hv := leaveSender_only u t
  generalize leaveSender u t = v at hv ⊢
  have hv' : v = closedOver s v ∧ v.tracks = tdel s.tracks tag := by
    rw [hv, hu'.1]
    exact ⟨rfl, hu'.2⟩
  have hw : ∀ w : State, (w = closedOver s w ∧ w.tracks = tdel s.tracks tag) → ∀ b,
      (releaseBlock w b).tracks = tdel s.tracks tag ∧ releaseBlock w b = closedOver s (releaseBlock w b) := by
    rintro w ⟨hw, htracks⟩ b
    rw [releaseBlock_only]
    refine ⟨htracks, ?_⟩
    rw [hw]
    rfl
  split
  · refine hw (setBlock v _ _) ⟨?_, hv'.2⟩ _
    rw [hv'.1]
    rfl
  · exact hw _ hv' _

/-! ## The response is taken -/

theorem takeResponse_here {s : State} {id op : Nat} {x : Pkt} (hat : responseAt s id op = some x)
    (hinst : hSinst x.header = instId s) (act : State → Pkt → State) : takeResponse s id op act = act (dropPkt s id) x := by
  simp [takeResponse, hat, hinst]

theorem matchOpen_dropPkt (s : State) (id tag round : Nat) : matchOpen (dropPkt s id) tag round = matchOpen s tag round := by
  simp only [matchOpen, (stores_dropPkt s id).tracks, (stores_dropPkt s id).ctx]

theorem tget_of_matchOpen {s : State} {tag round : Nat} {tr : Track} (h : matchOpen s tag round = some tr) :
    tget s.tracks tag = some tr := by
  unfold matchOpen at h
  exact (Option.filter_eq_some_iff.mp h).1

/-- R82, R83: an aperture operation answered with OK tells its thread, and its entry is free again. -/
theorem answerTag_ok {s t : State} {tag round chan : Nat} {tr : Track} {thread : BitVec 16} {addr : BitVec 64}
    (hmatch : matchOpen s tag round = some tr) (horigin : tr.op.origin = .aperture chan thread addr) (hphase : s.phase ≠ .cut)
    (data : Bytes) (poison : BitVec 8) (unc syn : Bool) (ht : t = answerTag s tag round .ok data poison unc syn) :
    t.tracks = tdel s.tracks tag ∧ t.pkts = s.pkts ∧
      (if tr.op.kind = .load ∨ tr.op.kind = .atomicFetch then Output.loadDone thread .ok data 0
        else .storeDone thread .ok) ∈ t.out := by
  have hcut : cutOff s = false := by simpa [cutOff] using hphase
  set stale := syn || Status.ok == .retired with hstale
  obtain ⟨htracks, honly⟩ := closeOut_only s tag tr stale syn
  have hcut' : cutOff (closeOut s tag tr stale syn) = false := by rw [honly]; exact hcut
  have hrun : answerTag s tag round .ok data poison unc syn =
      apertureDone (closeOut s tag tr stale syn) tr.op thread addr .ok data poison := by
    simp only [answerTag, hmatch, completeTag, hcut, Bool.false_eq_true, if_false, tget_of_matchOpen hmatch, endOp, horigin,
      finishOp, hcut', ← hstale]
  have hpkts : (closeOut s tag tr stale syn).pkts = s.pkts := by rw [honly]; rfl
  rw [ht, hrun]
  simp only [apertureDone, if_true, delivered, true_or]
  split
  · exact ⟨htracks, hpkts, List.mem_append_right _ (List.mem_singleton.mpr rfl)⟩
  · exact ⟨htracks, hpkts, List.mem_append_right _ (List.mem_singleton.mpr rfl)⟩

/-- R85: a WRITE_ACK whose MAP names one entry answers that entry. -/
theorem answerMap_one {s : State} {h : BitVec 256} {k : Nat} (hk : k < 64)
    (hmap : ∀ j, j < 64 → bitAt (hMap h) j = decide (j = k)) :
    answerMap s h =
      answerTag s (hTag h / 64 * 64 + k) (hRound h) (Status.ofCode (hStatus h)) [] 0 (hUnc h) (hSyn h) := by
  obtain ⟨l, r, hsplit, hl, hr⟩ : ∃ l r, List.range 64 = l ++ k :: r ∧ (∀ j ∈ l, j < 64 ∧ j ≠ k) ∧ ∀ j ∈ r, j < 64 ∧ j ≠ k := by
    obtain ⟨l, r, hsplit⟩ := List.append_of_mem (List.mem_range.mpr hk)
    have hnodup := List.nodup_range (n := 64)
    rw [hsplit] at hnodup
    have hin (j) (h : j ∈ l ++ k :: r) : j < 64 := List.mem_range.mp (hsplit ▸ h)
    refine ⟨l, r, hsplit, fun j hj => ⟨hin j (by simp [hj]), ?_⟩, fun j hj => ⟨hin j (by simp [hj]), ?_⟩⟩
    · rintro rfl
      exact (List.disjoint_of_nodup_append hnodup) hj (by simp)
    · rintro rfl
      exact (List.nodup_cons.mp (List.Nodup.of_append_right hnodup)).1 hj
  have hskip (l : List Nat) (hl : ∀ j ∈ l, j < 64 ∧ j ≠ k) (t : State) : l.foldl (fun t i =>
      if bitAt (hMap h) i then
        answerTag t (hTag h / 64 * 64 + i) (hRound h) (Status.ofCode (hStatus h)) [] 0 (hUnc h) (hSyn h)
      else t) t = t := by
    induction l with
    | nil => rfl
    | cons j l ih =>
      obtain ⟨hlt, hne⟩ := hl j (by simp)
      rw [List.foldl_cons, hmap j hlt, decide_eq_false hne]
      exact ih fun i hi => hl i (by simp [hi])
  unfold answerMap
  rw [hsplit, List.foldl_append, hskip l hl, List.foldl_cons, hskip r hr, hmap k hk, decide_eq_true rfl, if_pos rfl]

theorem answerFrom_ok {s : State} {x : Pkt} {tr : Track} (hmatch : matchOpen s (hTag x.header) (hRound x.header) = some tr)
    (hstatus : hStatus x.header = 0) (hpoison : hPoison x.header = 0) : answerFrom s x =
      answerTag s (hTag x.header) (hRound x.header) .ok (answerData tr.op x.payload) 0 false (hSyn x.header) := by
  simp [answerFrom, hmatch, hstatus, hpoison, Status.ofCode, countPoison]

/-- Settles O24: a response with OK to an open aperture entry tells its thread (`answerTag_ok`); one to no open entry is
counted alone. -/
theorem responsesComplete : Obligations.ResponsesComplete := by
  unfold Obligations.ResponsesComplete
  refine ⟨fun id s x tr chan thread addr i op hi hans hkind hstatus hpoison => ?_,
    fun id s x tr chan thread addr k hans hk hmap hkind hstatus => ?_, fun id s x i op hi hat hinst hnone => ?_⟩
  · obtain ⟨hat, hinst, hmatch, horigin, hphase⟩ := hans
    have hinstr : exec i s = .next (takeResponse s id op answerFrom) := by
      simp only [List.mem_cons, Prod.mk.injEq, List.not_mem_nil, or_false] at hi
      obtain ⟨rfl, rfl⟩ | ⟨rfl, rfl⟩ := hi <;> rfl
    have hopen : matchOpen (dropPkt s id) (hTag x.header) (hRound x.header) = some tr := (matchOpen_dropPkt ..).trans hmatch
    rw [takeResponse_here hat hinst, answerFrom_ok hopen hstatus hpoison] at hinstr
    obtain ⟨htracks, hpkts, hout⟩ := answerTag_ok hopen horigin (by rwa [(stores_dropPkt s id).phase]) _ _ _ _ rfl
    rw [if_pos hkind] at hout
    exact ⟨_, hinstr, hout, by rw [htracks, tget_tdel_self], pktOf_of_pkts (hpkts.trans (pkts_dropPkt ..))⟩
  · obtain ⟨hat, hinst, hmatch, horigin, hphase⟩ := hans
    have hopen : matchOpen (dropPkt s id) (hTag x.header / 64 * 64 + k) (hRound x.header) = some tr :=
      (matchOpen_dropPkt ..).trans hmatch
    have hrun := (takeResponse_here hat hinst fun t x => answerMap t x.header).trans (answerMap_one hk hmap)
    rw [hstatus, show Status.ofCode 0 = .ok from rfl] at hrun
    obtain ⟨htracks, hpkts, hout⟩ := answerTag_ok hopen horigin (by rwa [(stores_dropPkt s id).phase]) _ _ _ _ rfl
    rw [if_neg (by rcases hkind with h | h <;> simp [h])] at hout
    exact ⟨_, congrArg Host.Outcome.next hrun, hout, by rw [htracks, tget_tdel_self],
      pktOf_of_pkts (hpkts.trans (pkts_dropPkt ..))⟩
  · have hinstr : exec i s = .next (takeResponse s id op answerFrom) := by
      simp only [List.mem_cons, Prod.mk.injEq, List.not_mem_nil, or_false] at hi
      obtain ⟨rfl, rfl⟩ | ⟨rfl, rfl⟩ := hi <;> rfl
    have hopen : matchOpen (dropPkt s id) (hTag x.header) (hRound x.header) = none := (matchOpen_dropPkt ..).trans hnone
    have hrun : answerFrom (dropPkt s id) x = bump (dropPkt s id) 0x4530 2 := by simp only [answerFrom, hopen]
    rw [takeResponse_here hat hinst, hrun] at hinstr
    have hstores := stores_dropPkt s id
    refine ⟨_, hinstr, ?_, pktOf_of_pkts (pkts_dropPkt s id), hstores.tracks, hstores.ctxs⟩
    exact regAt_bumpAt_congr (by rw [regAt, regAt, hstores.regs])

end Sys2Proof.Machine
end

section
/-! Packets in transit (R230, R244, R249, R342). -/

namespace Sys2Proof.Machine
open Sys2Proof

/-- A packet that has a next hop takes it. -/
theorem routePkt_hop {s : State} {id q vc : Nat} {x : Pkt} {moved : Bool} (h : Routable s id x q vc moved) :
    routePkt s x = takeHop s x q vc moved := by
  obtain ⟨-, hawaits, hhome, hdst, hhop, horder, hv2⟩ := h
  have hwaiting : isWaiting x = false := by
    unfold awaitsRoute at hawaits
    unfold isWaiting
    split at hawaits <;> simp_all
  simp [routePkt, hwaiting, hawaits, hhome, hdst, hhop, horder, hv2]

/-- Once the escape time has passed its event is the routing. -/
theorem escapeTimeExpiry_passed {s : State} {id : Nat} {x : Pkt} (h : pktOf s id = some x)
    (hpassed : x.since + 4 * reg s 0x3900 2 ≤ s.clock) : escapeTimeExpiry id s = routePkt s x := by
  simp [escapeTimeExpiry, h, passed, nsMt, hpassed]

theorem escapeTimeExpiry_early {s : State} {id : Nat} {x : Pkt} (h : pktOf s id = some x)
    (hearly : s.clock < x.since + 4 * reg s 0x3900 2) : escapeTimeExpiry id s = s := by
  simp [escapeTimeExpiry, h, passed, nsMt, Nat.not_le.mpr hearly]

/-- The packet as it leaves: its VC, its hops, and since when it waits anew. -/
def leaving (s : State) (x : Pkt) (vc : Nat) : Pkt :=
  let h := hset (routeHeader s x) 8 3 vc
  { x with header := if x.inPort.isSome then hset h 16 8 (hHops h + 1) else h, since := s.clock }

theorem takeHop_here {s : State} {x : Pkt} {q vc j : Nat} (moved : Bool)
    (h : placeOn s q vc (hDet (hset (routeHeader s x) 8 3 vc)) (pktCells x) = some (.here j)) :
    takeHop s x q vc moved =
      if moved then bump (rechargePkt s (leaving s x vc) (.egress j vc)) 0x3900 5
      else rechargePkt s (leaving s x vc) (.egress j vc) := by
  simp only [takeHop, h]
  rfl

theorem takeHop_far {s : State} {x : Pkt} {q vc i j : Nat} (moved : Bool)
    (h : placeOn s q vc (hDet (hset (routeHeader s x) 8 3 vc)) (pktCells x) = some (.far i j)) :
    takeHop s x q vc moved =
      if moved then bump (emit (dropPkt s x.id) (.cascadePacket i (some j) (leaving s x vc).header x.payload)) 0x3900 5
      else emit (dropPkt s x.id) (.cascadePacket i (some j) (leaving s x vc).header x.payload) := by
  simp only [takeHop, h]
  rfl

/-- A packet that is there stands in the store after its record is put back. -/
theorem mem_putPkt {s : State} {id : Nat} {x : Pkt} (h : pktOf s id = some x) {y : Pkt} (hy : y.id = id) :
    y ∈ (putPkt s y).pkts := by
  refine List.mem_map.mpr ⟨x, List.mem_of_find?_eq_some h, ?_⟩
  rw [pktOf_id h, hy, beq_self_eq_true, if_pos rfl]

/-- R230, R249: the charge moves to the egress share, and a route that was moved is counted. -/
theorem takeHop_charges {s t : State} {id q vc j : Nat} {x : Pkt} {moved : Bool} (hx : pktOf s id = some x)
    (h : placeOn s q vc (hDet (hset (routeHeader s x) 8 3 vc)) (pktCells x) = some (.here j))
    (ht : t = takeHop s x q vc moved) :
    (∃ y ∈ t.pkts, y.id = id ∧ y.acct = .egress j vc ∧ y.since = s.clock ∧ y.payload = x.payload) ∧
      t.pkts.length = s.pkts.length ∧ (moved = true → Counted 0x3900 5 0 s t) ∧ t.mem = s.mem ∧ t.ctxs = s.ctxs := by
  set u := rechargePkt s (leaving s x vc) (.egress j vc) with hu
  have hstores : Stores s u := stores_rechargePkt ..
  have hpkts : u.pkts = (putPkt s { leaving s x vc with acct := .egress j vc }).pkts := pkts_rechargePkt ..
  have hplaced : ∃ y ∈ u.pkts, y.id = id ∧ y.acct = .egress j vc ∧ y.since = s.clock ∧ y.payload = x.payload := by
    rw [hpkts]
    have hid : x.id = id := pktOf_id hx
    exact ⟨_, mem_putPkt hx hid, hid, rfl, rfl, rfl⟩
  have hlength : u.pkts.length = s.pkts.length := by rw [hpkts]; exact List.length_map ..
  rw [takeHop_here moved h, ← hu] at ht
  cases moved with
  | false => exact ht ▸ ⟨hplaced, hlength, nofun, hstores.mem, hstores.ctxs⟩
  | true =>
    rw [if_pos rfl] at ht
    subst ht
    exact ⟨hplaced, hlength, fun _ => regAt_bumpAt_congr (by rw [regAt, regAt, hstores.regs]), hstores.mem, hstores.ctxs⟩

/-- R342: a packet handed to another inst's stripe is gone from the store. -/
theorem takeHop_hands {s t : State} {id q vc i j : Nat} {x : Pkt} {moved : Bool} (hx : pktOf s id = some x)
    (h : placeOn s q vc (hDet (hset (routeHeader s x) 8 3 vc)) (pktCells x) = some (.far i j))
    (ht : t = takeHop s x q vc moved) :
    pktOf t id = none ∧ (∃ h, Output.cascadePacket i (some j) h x.payload ∈ t.out) ∧ t.mem = s.mem ∧ t.ctxs = s.ctxs := by
  have hstores := stores_dropPkt s id
  have hgone : pktOf (dropPkt s id) id = none := pktOf_of_pkts (pkts_dropPkt s id)
  rw [takeHop_far moved h, pktOf_id hx] at ht
  cases moved <;>
    exact ht ▸ ⟨hgone, ⟨_, List.mem_append_right _ (List.mem_singleton.mpr rfl)⟩, hstores.mem, hstores.ctxs⟩

/-- Settles O25: what has a next hop takes it, by either event. -/
theorem packetsAreRouted : Obligations.PacketsAreRouted := by
  unfold Obligations.PacketsAreRouted
  refine ⟨fun id s x q vc moved i hi hroute j hplace => ?_, fun id s x q vc moved hroute i j hplace => ?_,
    fun id s x hx hearly => congrArg Host.Outcome.next (escapeTimeExpiry_early hx hearly)⟩
  · have hinstr : exec i s = .next (routePkt s x) := by
      obtain rfl | ⟨rfl, hpassed⟩ := hi
      · exact congrArg Host.Outcome.next (by simp only [packetRoute, hroute.1])
      · exact congrArg Host.Outcome.next (escapeTimeExpiry_passed hroute.1 hpassed)
    exact ⟨_, hinstr, takeHop_charges hroute.1 hplace (routePkt_hop hroute)⟩
  · have hrun : packetRoute id s = routePkt s x := by simp only [packetRoute, hroute.1]
    exact ⟨_, congrArg Host.Outcome.next hrun, takeHop_hands hroute.1 hplace (routePkt_hop hroute)⟩

end Sys2Proof.Machine
end

section
/-! Collective data that its figure takes (R150, R164): a packet whose payload was found in error since it was transmitted. -/

namespace Sys2Proof.Machine
open Sys2Proof Sys2Proof.Tests

/-- A barrier's token, one unit of which was found in error in the store (R224): its header does not show that. -/
def spoiledToken : Pkt := { dataPkt 0x81 [] with spoiled := 1 }

def tokenState : State := dataState barrierCmd barrierCard spoiledToken
def tokenColl : Coll := begun (aColl barrierCmd barrierCard)

/-- Where the figure goes on, and the state that the statement names. -/
def tokenNext : Place3 := nextPlace (figAt barrierCard 0) false (ccWfmt tokenColl.bytes) (segElems tokenColl.bytes barrierCard)
  (ccCount tokenColl.bytes) (hPlace spoiledToken.header)
def tokenTaken : State :=
  pumpColl (updFig (releaseRaw tokenState spoiledToken) 1 0 barrierCard (fun g => { g with recv := tokenNext })) 1

theorem token_takenBy : TakenBy tokenState 9 opCollToken 1 0 spoiledToken tokenColl barrierCard ∧
    (figAt barrierCard 0).clen = 0 ∧ hMc spoiledToken.header = false ∧ hPoison spoiledToken.header = 0 := by
  unfold TakenBy
  decide +kernel

/-- `notePoison` marks the collective, which the statement's state leaves unmarked. -/
theorem token_poison : (collOf (tokenReceive 9 tokenState) 1).map (·.poison) = some true ∧
    (collOf tokenTaken 1).map (·.poison) = some false := by
  decide +kernel

/-- Refutes O30. Its first clause asks that the header shows no poison, but a packet found in error since it was
transmitted is poisoned as well (`pktPoison`): taking such a token marks its collective as poisoned. -/
theorem not_collectiveDataTaken : ¬ Obligations.CollectiveDataTaken := by
  unfold Obligations.CollectiveDataTaken
  rintro ⟨htoken, -⟩
  obtain ⟨htaken, hlen, hmc, hpoison⟩ := token_takenBy
  obtain ⟨hmarked, hunmarked⟩ := token_poison
  have hrun := htoken 9 1 0 tokenState spoiledToken tokenColl barrierCard htaken hlen hmc hpoison tokenNext rfl
  have hstate : tokenReceive 9 tokenState = tokenTaken := Host.Outcome.next.inj hrun
  rw [hstate, hunmarked] at hmarked
  cases hmarked

end Sys2Proof.Machine
end

section
/-! The end of a collective (R166, R177, R260): a packet of it that still waits is dropped with its table entry. -/

namespace Sys2Proof.Machine
open Sys2Proof Sys2Proof.Tests

/-- A reduction whose figures are complete, while bank 1 drains; one packet of the collective, of the old epoch, waits in its
staging account. -/
def lastOldPacket : State := { collState reduceCmd reduceCard done with
  pkts := [{ dataPkt 0x80 (zeros 256) with header := hset (dataPkt 0x80 (zeros 256)).header 11 1 1 }],
  tables := { Tables.reset with st1 := .draining } }

def doneColl : Coll := done (aColl reduceCmd reduceCard)
def doneCmd : Cmd := aCmd 3 reduceCmd (.collective 1) 0

theorem lastOldPacket_complete : collOf lastOldPacket 1 = some doneColl ∧ isBarrier doneColl = false ∧
    doneColl.abort = none ∧ doneColl.poison = false ∧ figuresDone lastOldPacket 1 doneColl = true ∧
    cmdOf lastOldPacket doneColl.ctx doneColl.cmd = some doneCmd ∧ lastOldPacket.phase ≠ .cut := by
  decide +kernel

/-- The quiet time of the draining bank begins with the last old packet's end. -/
theorem lastOldPacket_quiet : lastOldPacket.tables.quiet = none ∧
    (collectiveComplete 1 lastOldPacket).tables.quiet = some lastOldPacket.clock := by
  decide +kernel

/-- Refutes O31. Its first clause says that the tables stay as they were, but what waits of the collective is dropped with
it, and where that was the last packet of an old epoch the quiet time of the draining bank (R260) begins. -/
theorem not_collectivesComplete : ¬ Obligations.CollectivesComplete := by
  unfold Obligations.CollectivesComplete
  rintro ⟨hcomplete, -⟩
  obtain ⟨hcoll, hbarrier, habort, hpoison, hdone, hcmd, hphase⟩ := lastOldPacket_complete
  obtain ⟨hbefore, hafter⟩ := lastOldPacket_quiet
  obtain ⟨t, hrun, -, -, -, -, -, -, -, htables⟩ :=
    hcomplete 1 lastOldPacket doneColl doneCmd hcoll hbarrier habort hpoison hdone hcmd hphase
  obtain rfl : collectiveComplete 1 lastOldPacket = t := Host.Outcome.next.inj hrun
  rw [htables, hbefore] at hafter
  cases hafter

end Sys2Proof.Machine
end

section
/-! What leaves a Sextant unit's work, its open lines and its queue, as it was: answers to requests, counts and marks. -/

namespace Sys2Proof.Machine
open Sys2Proof

/-! ## Answers change no unit -/

theorem units_raiseReport (s : State) (r : Report) : (raiseReport s r).units = s.units := by rw [raiseReport_only]

theorem units_onlyCtx {c : Nat} {s t : State} (h : onlyCtx c s t) : t.units = s.units := by rw [h.1]

theorem units_finishCommand (s : State) (c num type cctr : Nat) (st : Status) :
    (finishCommand s c num type cctr st).units = s.units := by
  unfold finishCommand
  split
  · rfl
  · rw [units_onlyCtx (onlyCtx_raiseCounter ..)]
    split <;> rfl

theorem units_completeCmd (s : State) (c : Nat) (m : Cmd) (st : Status) : (completeCmd s c m st).units = s.units := by
  unfold completeCmd
  split
  · rfl
  · exact units_finishCommand ..

theorem units_settleCmd (s : State) (c num : Nat) : (settleCmd s c num).units = s.units := by
  unfold settleCmd
  split
  · split
    · exact units_completeCmd ..
    · rfl
  · rfl

theorem units_messageEnd (s : State) (op : Op) (m : Cmd) (st : Status) (unc : Bool) :
    (messageEnd s op m st unc).units = s.units := by
  unfold messageEnd
  split
  · rfl
  · split
    · rfl
    · dsimp only
      split
      · rfl
      · split <;> rfl

theorem units_pieceEnd (s : State) (op : Op) (num : Nat) (st : Status) (unc : Bool) :
    (pieceEnd s op num st unc).units = s.units := by
  unfold pieceEnd
  split
  · rfl
  · rw [units_settleCmd]
    split
    · split <;> rfl
    · split
      · exact units_messageEnd ..
      · rfl

theorem units_feedStore (s : State) (op : Op) (num : Nat) (st : Status) (data : Bytes) (poison : BitVec 8) :
    (feedStore s op num st data poison).units = s.units := by
  unfold feedStore
  split
  · dsimp only
    split
    · exact units_pieceEnd ..
    · rfl
  · rfl

theorem units_apertureDone (s : State) (op : Op) (thread : BitVec 16) (addr : BitVec 64) (st : Status) (data : Bytes)
    (poison : BitVec 8) : (apertureDone s op thread addr st data poison).units = s.units := by
  have hdone : (if op.kind = .load ∨ op.kind = .atomicFetch then
      emit s (.loadDone thread st (delivered op st data) (if st = .poisoned then poison else 0))
    else emit s (.storeDone thread st)).units = s.units := by split <;> rfl
  unfold apertureDone
  dsimp only
  split
  · exact hdone
  · obtain ⟨f, -, hf⟩ := apertureFailure_eq (if op.kind = .load ∨ op.kind = .atomicFetch then
      emit s (.loadDone thread st (delivered op st data) (if st = .poisoned then poison else 0))
      else emit s (.storeDone thread st)) op thread addr st
    rw [hf]
    exact (units_raiseReport ..).trans hdone

theorem units_finishOp (s : State) (op : Op) (st : Status) (data : Bytes) (poison : BitVec 8) (unc : Bool) :
    (finishOp s op st data poison unc).units = s.units := by
  unfold finishOp
  split
  · rfl
  · split
    · exact units_apertureDone ..
    · split
      · exact units_feedStore ..
      · exact units_pieceEnd ..
    · rfl

theorem units_closeOut (s : State) (tag : Nat) (t : Track) (stale syn : Bool) :
    (closeOut s tag t stale syn).units = s.units := by
  rw [(closeOut_only s tag t stale syn).2]
  rfl

theorem units_answerTag (s : State) (tag round : Nat) (st : Status) (data : Bytes) (poison : BitVec 8) (unc syn : Bool) :
    (answerTag s tag round st data poison unc syn).units = s.units := by
  unfold answerTag completeTag
  split
  · split
    · rfl
    · unfold endOp
      split
      · split
        · rw [units_finishOp, units_closeOut, units_closeOut]
        · exact units_closeOut ..
      · rw [units_finishOp, units_closeOut]
  · rfl

theorem units_respond (s : State) (h : BitVec 256) (loop : Bool) (st : Status) (payload : Bytes) (poison : BitVec 8)
    (unc : Bool) : (respond s h loop st payload poison unc).units = s.units := by
  unfold respond
  split
  · split
    · exact units_answerTag ..
    · rfl
  · exact (stores_addPkt ..).units

theorem units_gatherAck (s : State) (h : BitVec 256) : (gatherAck s h).units = s.units := by
  unfold gatherAck
  dsimp only
  split
  · split
    · exact (stores_addPkt ..).units
    · rfl
  · split
    · rfl
    · exact units_respond ..

theorem units_acknowledge (s : State) (h : BitVec 256) (loop : Bool) (st : Status) (unc : Bool) :
    (acknowledge s h loop st unc).units = s.units := by
  have hcount : (if unc then bump s 0x4520 2 else s).units = s.units := by split <;> rfl
  unfold acknowledge
  dsimp only
  split
  · exact (units_respond ..).trans hcount
  · exact (units_gatherAck ..).trans hcount

theorem units_answerAtomic (s : State) (h : BitVec 256) (loop : Bool) (st : Status) (old : Bytes) :
    (answerAtomic s h loop st old).units = s.units := by
  unfold answerAtomic
  split
  · exact units_acknowledge ..
  · exact units_respond ..

/-! ## Lines and queue -/

/-- A unit's work: the lines it holds and the requests that wait. -/
def workOf (n : Nat) (s : State) : List OpenLine × List UnitReq := ((sext s n).lines, (sext s n).queue)

theorem workOf_of_units {s t : State} (h : t.units = s.units) (n : Nat) : workOf n t = workOf n s := by
  simp only [workOf, sext, h]

theorem Stores.workOf {s t : State} (h : Stores s t) (n : Nat) : workOf n t = workOf n s := workOf_of_units h.units n

/-- A change of a unit that keeps its lines and its queue. -/
theorem workOf_setSext {n u : Nat} {s : State} {x : SextUnit} (hlines : x.lines = (sext s u).lines)
    (hqueue : x.queue = (sext s u).queue) : workOf n (setSext s u x) = workOf n s := by
  by_cases h : u = n
  · subst h
    rw [workOf, sext_setSext_self, hlines, hqueue, workOf]
  · rw [workOf, sext_setSext_ne _ _ _ _ h, workOf]

theorem workOf_settlePress (n : Nat) (s : State) : workOf n (settlePress s n) = workOf n s := by
  unfold settlePress
  dsimp only
  split
  · split
    · exact workOf_setSext rfl rfl
    · rfl
  · split
    · exact (workOf_of_units (units_unitCount ..) n).trans (workOf_setSext rfl rfl)
    · rfl

theorem workOf_abandonSlice (n : Nat) (s : State) (p : Nat) (cut : Bool) : workOf n (abandonSlice s p cut) = workOf n s := by
  refine workOf_of_units ?_ n
  unfold abandonSlice startLmc
  split
  · rfl
  · dsimp only
    split
    · rfl
    · split <;> rfl

theorem workOf_markPort (n : Nat) (on : Bool) (s : State) (p : Nat) : workOf n (markPort on s p) = workOf n s := by
  unfold markPort
  split
  · split
    · rfl
    · exact workOf_abandonSlice ..
  · split <;> rfl

theorem workOf_remark (n : Nat) (s : State) : workOf n (remark s) = workOf n s := by
  unfold remark
  dsimp only
  rw [foldl_keeps (workOf n) _ fun t u => ?_]
  · exact foldl_keeps (workOf n) _ (workOf_markPort n _) ..
  · split
    · rfl
    · exact workOf_setSext rfl rfl

theorem workOf_noticeOn (n : Nat) (s : State) (x : Coll) (a b d : Nat) (but : Option Nat) :
    workOf n (noticeOn s x a b d but) = workOf n s := by
  unfold noticeOn
  split
  · rfl
  · exact foldl_keeps (workOf n) _ (fun t p => ((sends_drainControl ..).after (Sends.updLink (fun _ => by rfl) ..)).stores.workOf n) ..

theorem workOf_driftColl (n : Nat) (s : State) (c : Nat) : workOf n (driftColl s c) = workOf n s := by
  have hlag (s : State) (src lag time : Nat) (always : Bool) : workOf n (setLag s c src lag time always) = workOf n s := by
    unfold setLag
    split
    · rfl
    · dsimp only
      split
      · split
        · exact (workOf_noticeOn ..).trans (workOf_remark ..)
        · exact workOf_remark ..
      · exact workOf_remark ..
  unfold driftColl
  split
  · rfl
  · split
    · dsimp only
      split
      · rfl
      · split
        · rfl
        · exact hlag ..
    · rfl

theorem workOf_pressEnded (n u : Nat) (before after : State) : workOf n (pressEnded u before after) = workOf n after := by
  unfold pressEnded
  split
  · exact foldl_keeps (workOf n) driftColl (workOf_driftColl n) ..
  · rfl

end Sys2Proof.Machine
end

section
/-! Atomics at their unit (R75, R77, R201, R203). -/

namespace Sys2Proof.Machine
open Sys2Proof

/-! ## A part of a line written back with the line -/

theorem length_memRead (m : Memory) (a n : Nat) : (memRead m a n).length = n := by
  induction n generalizing a with
  | zero => rfl
  | succ n ih => rw [memRead, List.length_cons, ih]

theorem getElem_memRead (m : Memory) (a n k : Nat) (h : k < (memRead m a n).length) :
    (memRead m a n)[k] = memByte m (a + k) := by
  induction n generalizing a k with
  | zero => simp [memRead] at h
  | succ n ih =>
    cases k with
    | zero => rfl
    | succ k =>
      have := ih (a + 1) k (by simpa [memRead] using h)
      rw [show a + (k + 1) = a + 1 + k by omega, ← this]
      rfl

theorem memRead_congr {m n : Memory} (h : ∀ b, memByte m b = memByte n b) (a k : Nat) : memRead m a k = memRead n a k := by
  induction k generalizing a with
  | zero => rfl
  | succ k ih => rw [memRead, memRead, h, ih]

theorem memRead_drop_take (m : Memory) (a n k l : Nat) (h : k + l ≤ n) :
    ((memRead m a n).drop k).take l = memRead m (a + k) l := by
  refine List.ext_getElem ?_ fun i h1 h2 => ?_
  · simp only [List.length_take, List.length_drop, length_memRead]
    omega
  · rw [List.getElem_take, List.getElem_drop, getElem_memRead, getElem_memRead, Nat.add_assoc]

/-- The bytes that were read, with a part of them replaced, written back: the part alone is written. -/
theorem memByte_memWrite_part {m : Memory} {a n k : Nat} {v : Bytes} (h : k + v.length ≤ n) (b : Nat) :
    memByte (memWrite m a ((memRead m a n).take k ++ v ++ (memRead m a n).drop (k + v.length))) b =
      memByte (memWrite m (a + k) v) b := by
  set w := (memRead m a n).take k ++ v ++ (memRead m a n).drop (k + v.length) with hw
  have htake : ((memRead m a n).take k).length = k := by rw [List.length_take, length_memRead]; omega
  have hlen : w.length = n := by
    simp only [hw, List.length_append, htake, List.length_drop, length_memRead]
    omega
  by_cases hb : b < a ∨ a + n ≤ b
  · rw [memByte_memWrite_outside _ _ _ _ (by omega), memByte_memWrite_outside _ _ _ _ (by omega)]
  obtain ⟨j, rfl⟩ : ∃ j, b = a + j := ⟨b - a, by omega⟩
  rw [memByte_memWrite_inside w m a j (by omega)]
  rcases Nat.lt_or_ge j k with hj | hj
  · rw [memByte_memWrite_outside _ _ _ _ (by omega)]
    simp only [hw]
    rw [List.getElem_append_left (by simp [htake]; omega), List.getElem_append_left (by omega), List.getElem_take,
      getElem_memRead]
  rcases Nat.lt_or_ge j (k + v.length) with hv | hv
  · obtain ⟨i, rfl⟩ : ∃ i, j = k + i := ⟨j - k, by omega⟩
    rw [← Nat.add_assoc, memByte_memWrite_inside v m (a + k) i (by omega)]
    simp only [hw]
    rw [List.getElem_append_left (by simp [htake]; omega), List.getElem_append_right (by omega)]
    simp only [htake, Nat.add_sub_cancel_left]
  · rw [memByte_memWrite_outside _ _ _ _ (by omega)]
    simp only [hw]
    rw [List.getElem_append_right (by simp [htake]; omega), List.getElem_drop, getElem_memRead]
    simp only [List.length_append, htake]
    congr 1
    omega

/-! ## Open lines -/

theorem lineAt_of_workOf {n : Nat} {s t : State} (h : workOf n t = workOf n s) (line : Nat) :
    lineAt (sext t n) line = lineAt (sext s n) line := by
  have hlines : (sext t n).lines = (sext s n).lines := congrArg Prod.fst h
  simp only [lineAt, hlines]

theorem lineWanted_of_workOf {n : Nat} {s t : State} (h : workOf n t = workOf n s) (line : Nat) :
    lineWanted (sext t n) line = lineWanted (sext s n) line := by
  have hqueue : (sext t n).queue = (sext s n).queue := congrArg Prod.snd h
  simp only [lineWanted, hqueue]

theorem lineAt_line {u : SextUnit} {line : Nat} {l : OpenLine} (h : lineAt u line = some l) : l.line = line := by
  simpa using List.find?_some h

/-- The line as a unit reads and opens it. -/
def opened (s : State) (line : Nat) : OpenLine where
  line := line
  since := s.clock
  data := if farLine line then memRead s.mem (line * 64) 64 else []
  bad := linePoisoned s.mem line
  dirty := false

/-- A line that a unit holds clean is released without a write. -/
theorem closeIdle_clean {s : State} {n line : Nat} {l : OpenLine} (h : lineAt (sext s n) line = some l)
    (hclean : l.dirty = false) : (closeIdle s n line).mem = s.mem := by
  unfold closeIdle
  split
  · rfl
  · simp only [closeLine, h, hclean, Bool.false_eq_true, if_false]
    rfl

/-- A changed line that no atomic waits for is written back whole. -/
theorem closeIdle_dirty {s : State} {n line : Nat} {l : OpenLine} (h : lineAt (sext s n) line = some l)
    (hdirty : l.dirty = true) (hidle : lineWanted (sext s n) line = false) :
    (closeIdle s n line).mem = writeMarked s.mem (line * 64) l.data (if l.bad then 1 else 0) := by
  simp only [closeIdle, hidle, Bool.false_eq_true, if_false, closeLine, h, hdirty, if_true]
  rfl

theorem closeIdle_wanted {s : State} {n line : Nat} (h : lineWanted (sext s n) line = true) : closeIdle s n line = s := by
  simp only [closeIdle, h, if_true]

/-! ## The unit takes the atomic -/

/-- The atomic taken off the queue, on a line that was open or is read now. -/
theorem atomicExecute_taken {n : Nat} {s : State} {h : BitVec 256} {addr len by_ : Nat} {args : AtomicArgs} {bad loop : Bool}
    {rest : List UnitReq} (hnext : AtomicNext n s h addr len by_ args bad loop rest)
    (hopen : lineOpen (sext s n) (lineOf addr) = true ∨ MayOpen n s (lineOf addr)) :
    ∃ u l, atomicExecute n s = closeIdle (runAtomic u n h addr len args bad loop l) n (lineOf addr) ∧ u.mem = s.mem ∧
      (sext u n).queue = rest ∧ lineAt (sext u n) (lineOf addr) = some l ∧
      (lineAt (sext s n) (lineOf addr) = some l ∨
        lineAt (sext s n) (lineOf addr) = none ∧ l = opened s (lineOf addr)) := by
  obtain ⟨hqueue, hchanging⟩ := hnext
  set line := lineOf addr with hline
  have htaken (s1 : State) (hmem : s1.mem = s.mem) {l : OpenLine} (hl : lineAt (sext s1 n) line = some l) :
      (settlePress (updSext s1 n fun x => { x with queue := rest }) n).mem = s.mem ∧
      (sext (settlePress (updSext s1 n fun x => { x with queue := rest }) n) n).queue = rest ∧
      lineAt (sext (settlePress (updSext s1 n fun x => { x with queue := rest }) n) n) line = some l := by
    refine ⟨(settlePress_mem ..).trans hmem, ?_, ?_⟩
    · rw [queue_settlePress, updSext, sext_setSext_self]
    · rw [lineAt_of_workOf (workOf_settlePress n _), updSext, sext_setSext_self]
      exact hl
  by_cases hop : lineOpen (sext s n) line = true
  · obtain ⟨l, hl⟩ := Option.isSome_iff_exists.mp hop
    obtain ⟨hmem, hq, hat⟩ := htaken s rfl hl
    refine ⟨_, l, ?_, hmem, hq, hat, Or.inl hl⟩
    simp only [atomicExecute, hqueue, hchanging, ← hline, hop, hl, Bool.false_eq_true, Bool.not_true, false_and, or_self,
      if_false, if_true]
  · obtain ⟨hnone, hroom, hyields⟩ := hopen.resolve_left hop
    have hl : lineAt (sext (openLine s n line) n) line = some (opened s line) := by
      rw [openLine, updSext, sext_setSext_self]
      have hnone' := hnone
      simp only [lineAt] at hnone' ⊢
      rw [List.find?_append, hnone']
      simp [opened]
    obtain ⟨hmem, hq, hat⟩ := htaken (openLine s n line) rfl hl
    refine ⟨_, _, ?_, hmem, hq, hat, Or.inr ⟨hnone, rfl⟩⟩
    have hroom' : ¬ 64 ≤ (sext s n).lines.length := by omega
    simp only [atomicExecute, hqueue, hchanging, ← hline, hop, hl, hroom', hyields, Bool.false_eq_true, Bool.not_false,
      and_false, or_self, if_false]

/-! ## One atomic on an open line -/

theorem putWord_near {s : State} {n addr : Nat} (h : farLine (lineOf addr) = false) (v : Bytes) :
    putWord s n addr v = { s with mem := memWrite s.mem addr v } := by simp [putWord, h]

/-- R77: an atomic with a poisoned operand or word writes nothing. -/
theorem runAtomic_refused {s : State} {n addr len : Nat} {h : BitVec 256} {args : AtomicArgs} {bad loop : Bool} {l : OpenLine}
    (hbad : bad = true ∨ (wordIn s l addr len).2 = true) : (runAtomic s n h addr len args bad loop l).mem = s.mem ∧
      workOf n (runAtomic s n h addr len args bad loop l) = workOf n s := by
  unfold runAtomic
  dsimp only
  rw [if_pos hbad]
  refine ⟨?_, (workOf_of_units (units_answerAtomic ..) n).trans rfl⟩
  rw [answerAtomic_mem]
  rfl

/-- R75: the word takes the function's result. -/
theorem runAtomic_done {s : State} {n addr len v : Nat} {h : BitVec 256} {args : AtomicArgs} {loop : Bool} {l : OpenLine}
    (hclean : (wordIn s l addr len).2 = false)
    (hv : atomicResult (args.afn.toNat % 16) (8 * len) (leNat (wordIn s l addr len).1) args.opa.toNat args.opb.toNat
      (hOp h == opAtomicPost) = some v) :
    (runAtomic s n h addr len args false loop l).mem = (putWord s n addr (leBytes len v)).mem ∧
      workOf n (runAtomic s n h addr len args false loop l) = workOf n (putWord s n addr (leBytes len v)) := by
  unfold runAtomic
  simp only [hclean, Bool.false_eq_true, or_self, if_false, hv]
  rw [answerAtomic_mem, workOf_of_units (units_answerAtomic ..) n]
  split
  · rw [unitCount_mem, unitCount_mem, workOf_of_units (units_unitCount ..) n, workOf_of_units (units_unitCount ..) n]
    exact ⟨rfl, rfl⟩
  · rw [unitCount_mem, workOf_of_units (units_unitCount ..) n]
    exact ⟨rfl, rfl⟩

/-- The line with an atomic's new word. -/
def lineWith (l : OpenLine) (addr : Nat) (v : Bytes) : OpenLine :=
  { l with data := l.data.take (addr % 64) ++ v ++ l.data.drop (addr % 64 + v.length), dirty := true }

/-- R203: of a far-tier line the unit changes the bytes that it holds. -/
theorem putWord_far {s : State} {n addr : Nat} (h : farLine (lineOf addr) = true) {l : OpenLine}
    (hl : lineAt (sext s n) (lineOf addr) = some l) (v : Bytes) : (putWord s n addr v).mem = s.mem ∧
      lineAt (sext (putWord s n addr v) n) (lineOf addr) = some (lineWith l addr v) ∧
      (sext (putWord s n addr v) n).queue = (sext s n).queue := by
  simp only [putWord, h, if_true, updLines, updSext]
  refine ⟨rfl, ?_, by rw [sext_setSext_self]⟩
  rw [sext_setSext_self]
  simp only [lineAt] at hl ⊢
  generalize (sext s n).lines = ls at hl
  induction ls with
  | nil => simp at hl
  | cons y r ih =>
    rw [List.map_cons]
    by_cases hy : y.line = lineOf addr
    · obtain rfl : y = l := by simpa [List.find?_cons, hy] using hl
      simp [hy, lineWith]
    · have hr : r.find? (fun k => k.line == lineOf addr) = some l := by simpa [List.find?_cons, hy] using hl
      simpa [List.find?_cons, hy] using ih hr

/-! ## The clauses -/

section
variable {n : Nat} {s : State} {h : BitVec 256} {addr len by_ v : Nat} {args : AtomicArgs} {bad loop : Bool}
  {rest : List UnitReq}

/-- A clean line stays clean once it has been taken or opened. -/
theorem dirty_of_cleanLine {l : OpenLine} (hclean : CleanLine n s (lineOf addr))
    (hl : lineAt (sext s n) (lineOf addr) = some l ∨ lineAt (sext s n) (lineOf addr) = none ∧ l = opened s (lineOf addr)) :
    l.dirty = false := by
  rcases hl with hl | ⟨-, rfl⟩
  · exact hclean l (List.mem_of_find?_eq_some hl) (lineAt_line hl)
  · rfl

theorem atomicExecute_near (hnext : AtomicNext n s h addr len by_ args false loop rest)
    (hnear : farLine (lineOf addr) = false)
    (hopen : lineOpen (sext s n) (lineOf addr) = true ∨ MayOpen n s (lineOf addr)) (hclean : CleanLine n s (lineOf addr))
    (hpoison : linePoisoned s.mem (lineOf addr) = false)
    (hv : atomicResult (args.afn.toNat % 16) (8 * len) (leNat (memRead s.mem addr len)) args.opa.toNat args.opb.toNat
      (hOp h == opAtomicPost) = some v) : (atomicExecute n s).mem = memWrite s.mem addr (leBytes len v) := by
  obtain ⟨u, l, hrun, hmem, -, hat, hl⟩ := atomicExecute_taken hnext hopen
  have hword : wordIn u l addr len = (memRead s.mem addr len, false) := by
    simp [wordIn, lineAt_line hat, hnear, hmem, hpoison]
  obtain ⟨hdone, hwork⟩ := runAtomic_done (n := n) (loop := loop) (by rw [hword]) (by rw [hword]; exact hv)
  rw [putWord_near hnear] at hdone hwork
  rw [hrun, closeIdle_clean ((lineAt_of_workOf hwork _).trans hat) (dirty_of_cleanLine hclean hl), hdone, hmem]

theorem atomicExecute_far (hnext : AtomicNext n s h addr len by_ args false loop rest)
    (hfar : farLine (lineOf addr) = true) (hopen : MayOpen n s (lineOf addr)) (hinside : addr % 64 + len ≤ 64)
    (hpoison : linePoisoned s.mem (lineOf addr) = false)
    (hidle : lineWanted { sext s n with queue := rest } (lineOf addr) = false)
    (hv : atomicResult (args.afn.toNat % 16) (8 * len) (leNat (memRead s.mem addr len)) args.opa.toNat args.opb.toNat
      (hOp h == opAtomicPost) = some v) (b : Nat) :
    memByte (atomicExecute n s).mem b = memByte (memWrite s.mem addr (leBytes len v)) b := by
  obtain ⟨u, l, hrun, hmem, hqueue, hat, hl⟩ := atomicExecute_taken hnext (Or.inr hopen)
  obtain ⟨-, rfl⟩ := hl.resolve_left (by rw [hopen.1]; nofun)
  have haddr : lineOf addr * 64 + addr % 64 = addr := by unfold lineOf; omega
  have hword : wordIn u (opened s (lineOf addr)) addr len = (memRead s.mem addr len, false) := by
    simp [wordIn, opened, hfar, hpoison, memRead_drop_take _ _ _ _ _ hinside, haddr]
  obtain ⟨hdone, hwork⟩ := runAtomic_done (n := n) (loop := loop) (by rw [hword]) (by rw [hword]; exact hv)
  obtain ⟨hput, hput_line, hput_queue⟩ := putWord_far hfar hat (leBytes len v)
  have hidle' : lineWanted (sext (runAtomic u n h addr len args false loop (opened s (lineOf addr))) n) (lineOf addr) = false := by
    rw [lineWanted_of_workOf hwork, lineWanted, hput_queue, hqueue]
    exact hidle
  rw [hrun, closeIdle_dirty ((lineAt_of_workOf hwork _).trans hput_line) rfl hidle', memByte_writeMarked, hdone, hput, hmem]
  simp only [lineWith, opened, hfar, if_true]
  rw [memByte_memWrite_part (by rwa [length_leBytes]), haddr]

theorem atomicExecute_held {l : OpenLine} (hnext : AtomicNext n s h addr len by_ args false loop rest)
    (hfar : farLine (lineOf addr) = true) (hl : lineAt (sext s n) (lineOf addr) = some l) (hgood : l.bad = false)
    (hwanted : lineWanted { sext s n with queue := rest } (lineOf addr) = true)
    (hv : atomicResult (args.afn.toNat % 16) (8 * len) (leNat ((l.data.drop (addr % 64)).take len)) args.opa.toNat
      args.opb.toNat (hOp h == opAtomicPost) = some v) : (atomicExecute n s).mem = s.mem ∧
      lineAt (sext (atomicExecute n s) n) (lineOf addr) = some (lineWith l addr (leBytes len v)) := by
  obtain ⟨u, l', hrun, hmem, hqueue, hat, hl'⟩ := atomicExecute_taken hnext (Or.inl (Option.isSome_iff_exists.mpr ⟨l, hl⟩))
  obtain rfl : l = l' := by
    rcases hl' with hl' | ⟨hnone, -⟩
    · exact Option.some.inj (hl.symm.trans hl')
    · rw [hl] at hnone
      cases hnone
  have hword : wordIn u l addr len = ((l.data.drop (addr % 64)).take len, false) := by
    simp [wordIn, lineAt_line hat, hfar, hgood]
  obtain ⟨hdone, hwork⟩ := runAtomic_done (n := n) (loop := loop) (by rw [hword]) (by rw [hword]; exact hv)
  obtain ⟨hput, hput_line, hput_queue⟩ := putWord_far hfar hat (leBytes len v)
  have hwanted' : lineWanted (sext (runAtomic u n h addr len args false loop l) n) (lineOf addr) = true := by
    rw [lineWanted_of_workOf hwork, lineWanted, hput_queue, hqueue]
    exact hwanted
  rw [hrun, closeIdle_wanted hwanted']
  exact ⟨by rw [hdone, hput, hmem], (lineAt_of_workOf hwork _).trans hput_line⟩

theorem atomicExecute_poisoned (hnext : AtomicNext n s h addr len by_ args bad loop rest)
    (hopen : lineOpen (sext s n) (lineOf addr) = true ∨ MayOpen n s (lineOf addr)) (hclean : CleanLine n s (lineOf addr))
    (hbad : bad = true ∨ (linePoisoned s.mem (lineOf addr) = true ∧
      ∀ l ∈ (sext s n).lines, l.line = lineOf addr → l.bad = true)) : (atomicExecute n s).mem = s.mem := by
  obtain ⟨u, l, hrun, hmem, -, hat, hl⟩ := atomicExecute_taken hnext hopen
  have hrefused : bad = true ∨ (wordIn u l addr len).2 = true := by
    refine hbad.imp id fun ⟨hpoison, hlines⟩ => ?_
    have hlbad : l.bad = true := by
      rcases hl with hl | ⟨-, rfl⟩
      · exact hlines l (List.mem_of_find?_eq_some hl) (lineAt_line hl)
      · exact hpoison
    unfold wordIn
    split
    · exact hlbad
    · rw [hmem, lineAt_line hat]
      exact hpoison
  obtain ⟨hdone, hwork⟩ := runAtomic_refused (n := n) (h := h) (args := args) (loop := loop) hrefused
  rw [hrun, closeIdle_clean ((lineAt_of_workOf hwork _).trans hat) (dirty_of_cleanLine hclean hl), hdone, hmem]

theorem atomicExecute_yields (hnext : AtomicNext n s h addr len by_ args bad loop rest)
    (hclosed : lineOpen (sext s n) (lineOf addr) = false) (hyields : yields s n (lineOf addr) = true) :
    atomicExecute n s = s := by
  simp [atomicExecute, hnext.1, hclosed, hyields]

end

theorem pressEnded_same (n : Nat) (s : State) : pressEnded n s s = s := by
  unfold pressEnded
  cases (sext s n).slow <;> rfl

/-- Settles O32: the atomic taken off the queue runs on a line that is open or is read for it (`atomicExecute_taken`); the
end of back-pressure after it changes neither memory nor lines. -/
theorem atomicsExecute : Obligations.AtomicsExecute := by
  unfold Obligations.AtomicsExecute
  refine ⟨fun n s h addr len by_ args loop rest v hnext hnear hopen hclean hpoison hv => ⟨_, rfl, ?_⟩,
    fun n s h addr len by_ args loop rest v hnext hfar hopen hinside hpoison hidle hv => ⟨_, rfl, ?_⟩,
    fun n s h addr len by_ args loop rest v l hnext hfar hl hgood hwanted hv => ⟨_, rfl, ?_⟩,
    fun n s h addr len by_ args bad loop rest hnext hopen hclean hbad => ⟨_, rfl, ?_⟩,
    fun n s h addr len by_ args bad loop rest hnext hclosed hyields => congrArg Host.Outcome.next ?_⟩
  · have hread := memRead_memWrite (leBytes len v) s.mem addr
    rw [length_leBytes] at hread
    beta_reduce
    rw [pressEnded_mem, atomicExecute_near hnext hnear hopen hclean hpoison hv]
    exact ⟨hread, fun b hb => memByte_memWrite_outside _ _ _ _ (by rwa [length_leBytes])⟩
  · have hread := memRead_memWrite (leBytes len v) s.mem addr
    rw [length_leBytes] at hread
    have hbytes := atomicExecute_far hnext hfar hopen hinside hpoison hidle hv
    beta_reduce
    rw [pressEnded_mem]
    exact ⟨(memRead_congr hbytes addr len).trans hread,
      fun b hb => (hbytes b).trans (memByte_memWrite_outside _ _ _ _ (by rwa [length_leBytes]))⟩
  · obtain ⟨hmem, hline⟩ := atomicExecute_held hnext hfar hl hgood hwanted hv
    refine ⟨(pressEnded_mem ..).trans hmem, (lineAt_of_workOf (workOf_pressEnded ..) _).trans (hline.trans ?_)⟩
    rw [lineWith, length_leBytes]
  · beta_reduce
    rw [pressEnded_mem, atomicExecute_poisoned hnext hopen hclean hbad]
  · rw [atomicExecute_yields hnext hclosed hyields, pressEnded_same]

end Sys2Proof.Machine
end

section
/-! Errors of the central store (R224, R285): a packet of the replay region. -/

namespace Sys2Proof.Machine
open Sys2Proof Sys2Proof.Tests

/-- A packet that was transmitted and is kept for a replay. -/
def sentPkt : Pkt := { aPkt (reqTo 0x20) (zeros 64) with acct := .replay 0 }

def keptForReplay : State := { served (reqTo 0x20) (zeros 64) with pkts := [sentPkt] }

theorem keptForReplay_due : ScrubDue keptForReplay 0 0 (.payload 9 0) ∧ pktOf keptForReplay 9 = some sentPkt := by
  unfold ScrubDue
  decide +kernel

/-- Its header stays bit-identical: the unit in error is noted beside it. -/
theorem scrubRow_keptForReplay :
    (pktOf (scrubRow 0 0 (.payload 9 0) true keptForReplay) 9).map (·.spoiled) = some 1 := by
  decide +kernel

/-- Refutes O35. Its clause on an uncorrectable error in a payload takes any packet and marks its header, but that of a
packet in the replay region stays as it was sent (R285, `poisonUnit`). -/
theorem not_storeErrors : ¬ Obligations.StoreErrors := by
  unfold Obligations.StoreErrors
  rintro ⟨-, -, -, hpayload, -⟩
  obtain ⟨hdue, hpkt⟩ := keptForReplay_due
  obtain ⟨t, hrun, -, hmarked, -⟩ := hpayload 0 0 9 0 sentPkt keptForReplay hdue hpkt
  obtain rfl : scrubRow 0 0 (.payload 9 0) true keptForReplay = t := Host.Outcome.next.inj hrun
  have hspoiled := scrubRow_keptForReplay
  rw [hmarked] at hspoiled
  exact absurd hspoiled (by decide)

end Sys2Proof.Machine
end

section
/-! Data packets on a link (R267, R302, R313): the code groups of a stage A port are decoded before its blocks are taken. -/

namespace Sys2Proof.Machine
open Sys2Proof Sys2Proof.Tests

/-- P1 has completed stage A and does not work; its receive direction is dealt over an octet beyond the twelve of the device. -/
def strayOctet : State := { base with ports := [(1, { upPort with
  state := .training, stage := some .a, rxWidth := 1, rxOcts := [22907424313] })] }

/-- A packet whose first character came in a code group that stands for none. -/
def strayPacket : WirePacket := { arriving (hdr (reqTo 0x10)) with codes := [0] }

theorem strayOctet_receives : stageDone (port strayOctet 1) = true ∧ (port strayOctet 1).state.works = false ∧
    ∀ y ∈ rxBlocks strayOctet 1 strayPacket, cByte y.bytes 0 < 0xC0 := by
  decide +kernel

/-- The code error of the octet's first lane is counted where the blocks of P1 are. -/
theorem strayOctet_counts : regAt (dataPacketReceive 1 strayPacket strayOctet) 0x2400 0x15 1 = 2 ∧
    regAt (bumpBy strayOctet 0x2400 0x15 1 (rxBlocks strayOctet 1 strayPacket).length) 0x2400 0x15 1 = 1 := by
  decide +kernel

/-- Refutes O36. Its clause on a port that does not work holds where the lanes are those of the device, but the state is any:
with an octet so far beyond them that the code error counter of its lane is the port's own 0x2400.15, a code error counts
there as a further block. -/
theorem not_dataPacketsSentAndReceived : ¬ Obligations.DataPacketsSentAndReceived := by
  unfold Obligations.DataPacketsSentAndReceived
  rintro ⟨-, -, -, hidle, -⟩
  obtain ⟨hstage, hworks, hblocks⟩ := strayOctet_receives
  obtain ⟨hcount, hasked⟩ := strayOctet_counts
  obtain ⟨t, hrun, -, hreg⟩ := hidle 1 strayPacket strayOctet hstage hworks hblocks
  obtain rfl : dataPacketReceive 1 strayPacket strayOctet = t := Host.Outcome.next.inj hrun
  exact absurd (hcount.symm.trans (hreg.trans hasked)) (by decide)

end Sys2Proof.Machine
end

section
/-! The control packets of a link: what they acknowledge, and what is sent again (R284 to R292). -/

namespace Sys2Proof.Machine
open Sys2Proof

/-! ## Blocks on the lanes change nothing of a port but which block is dealt next -/

/-- The ports but for the block that each deals next. -/
def unblocked (s : State) (p : Nat) : Port := { port s p with txBlock := 0 }

theorem unblocked_withErrors (s : State) (l : Nat) (bits : List Bool) : unblocked (withErrors s l bits).1 = unblocked s := rfl

theorem unblocked_sendCharacters (s : State) (l : Nat) (cs : List Char8) : unblocked (sendCharacters s l cs) = unblocked s := by
  unfold sendCharacters
  dsimp only
  split <;> rfl

theorem unblocked_sendBlockA (s : State) (o : Nat) (b : Bytes) : unblocked (sendBlockA s o b) = unblocked s :=
  foldl_keeps unblocked _ (fun _ _ => foldl_keeps unblocked _ (fun _ _ => unblocked_sendCharacters ..) ..) ..

theorem unblocked_injectFrame (s : State) (o : Nat) (words : List (List Nat)) : unblocked (injectFrame s o words).1 = unblocked s := by
  unfold injectFrame
  dsimp only
  split
  · rfl
  · split <;> rfl

theorem unblocked_sendFrameLane (words : List (List Nat)) (k : Nat) (s : State) (l : Nat) :
    unblocked (sendFrameLane words k s l) = unblocked s := by
  unfold sendFrameLane
  dsimp only
  split <;> rfl

theorem unblocked_sendFecFrame (s : State) (o : Nat) (data : Bytes) : unblocked (sendFecFrame s o data) = unblocked s :=
  (foldl_keeps unblocked _ (fun _ _ => foldl_keeps unblocked _ (fun _ _ => unblocked_sendFrameLane ..) ..) ..).trans
    (unblocked_injectFrame ..)

theorem unblocked_fillFrame (s : State) (o : Nat) (b : Bytes) : unblocked (fillFrame s o b) = unblocked s := by
  unfold fillFrame
  dsimp only
  split
  · rfl
  · exact unblocked_sendFecFrame (updOctet s o _) ..

theorem unblocked_updPort {s : State} {p : Nat} {f : Port → Port} (h : ∀ x, { f x with txBlock := 0 } = { x with txBlock := 0 }) :
    unblocked (updPort s p f) = unblocked s := by
  funext q
  unfold unblocked updPort
  by_cases hq : p = q
  · subst hq
    rw [port_setPort_self, h]
  · rw [port_setPort_ne _ _ _ _ hq]

theorem unblocked_dealBlock (st : Stage) (os : List Nat) (s : State) (p : Nat) (b : Bytes) :
    unblocked (dealBlock st os s p b) = unblocked s := by
  have hcount : unblocked (updPort s p fun x => { x with txBlock := (port s p).txBlock + 1 }) = unblocked s := unblocked_updPort fun _ => rfl
  unfold dealBlock
  dsimp only
  split
  · exact hcount
  · split
    · exact (unblocked_sendBlockA ..).trans hcount
    · exact (unblocked_fillFrame ..).trans hcount

theorem unblocked_streamOut (s : State) (p : Nat) (data : Bytes) : unblocked (streamOut s p data) = unblocked s := by
  unfold streamOut
  split
  · rfl
  · exact foldl_keeps unblocked _ (fun _ _ => unblocked_dealBlock ..) ..

/-- A control packet leaves its port as it was but for its link's place between the data packets. -/
theorem unblocked_sendBlock (s : State) (p : Nat) (urgent : Bool) (b : BitVec 256) :
    unblocked (sendBlock s p urgent b) p = { unblocked s p with
      link := { (port s p).link with gap := if urgent then (port s p).link.gap else (port s p).link.gap + 1 } } := by
  have h := congrFun (unblocked_streamOut (emit (updLink s p fun l => { l with gap := if urgent then l.gap else l.gap + 1 })
    (.control p b)) p (leBytes 32 b.toNat)) p
  unfold sendBlock
  rw [h]
  exact congrArg (fun x : Port => { x with txBlock := 0 }) (port_setPort_self ..)

theorem link_sendBlock (s : State) (p : Nat) (urgent : Bool) (b : BitVec 256) :
    (port (sendBlock s p urgent b) p).link =
      { (port s p).link with gap := if urgent then (port s p).link.gap else (port s p).link.gap + 1 } :=
  (congrArg Port.link (unblocked_sendBlock s p urgent b) :)

theorem hailAt_sendBlock (s : State) (p : Nat) (urgent : Bool) (b : BitVec 256) :
    (port (sendBlock s p urgent b) p).hailAt = (port s p).hailAt :=
  (congrArg Port.hailAt (unblocked_sendBlock s p urgent b) :)

theorem port_updPort (s : State) (p : Nat) (f : Port → Port) : port (updPort s p f) p = f (port s p) :=
  port_setPort_self ..

theorem port_updPort_ne (s : State) {p q : Nat} (f : Port → Port) (h : p ≠ q) : port (updPort s p f) q = port s q :=
  port_setPort_ne _ _ _ _ h

/-- A change of a port that leaves a part of every port leaves it in the state. -/
theorem updPort_keeps {α : Type} {g : Port → α} {f : Port → Port} (h : ∀ x, g (f x) = g x) (s : State) (p q : Nat) :
    g (port (updPort s p f) q) = g (port s q) := by
  by_cases hq : p = q
  · subst hq
    rw [port_updPort, h]
  · rw [port_updPort_ne _ _ hq]

/-! ## What is sent beside the state -/

theorem onlySent_regs {s t : State} (h : besideLanes t = besideLanes { s with regs := t.regs }) :
    t = { onlySent s t with regs := t.regs } := by
  calc t = { besideLanes t with ports := t.ports, lanes := t.lanes, octets := t.octets, out := t.out } := rfl
    _ = _ := by rw [h]; rfl

theorem Sends.onlySent {s t : State} (h : Sends s t) : t = onlySent s t := by
  calc t = { besideLanes t with ports := t.ports, lanes := t.lanes, octets := t.octets, out := t.out } := rfl
    _ = _ := by rw [h.beside]; rfl

/-- A control packet is the first thing that its sending sends. -/
theorem sendsControl_sendBlock {s u : State} {p ctype : Nat} {urgent : Bool} {body : List (Nat × Nat × Nat)}
    (hout : u.out = s.out) : SendsControl p ctype s
      (sendBlock u p urgent (control ctype (port s p).link.txEpoch 0 body)) := by
  have h := (sends_streamOut (emit (updLink u p fun l => { l with gap := if urgent then l.gap else l.gap + 1 })
    (.control p (control ctype (port s p).link.txEpoch 0 body))) p
    (leBytes 32 (control ctype (port s p).link.txEpoch 0 body).toNat)).out
  obtain ⟨r, hr⟩ := h
  refine ⟨body, ?_⟩
  unfold sendBlock
  rw [← hr, show (emit (updLink u p fun l => { l with gap := if urgent then l.gap else l.gap + 1 })
    (.control p (control ctype (port s p).link.txEpoch 0 body))).out =
      s.out ++ [.control p (control ctype (port s p).link.txEpoch 0 body)] from congrArg (· ++ [_]) hout]
  simp

/-! ## Sending data again (R285) -/

theorem sends_sendPacket (s : State) (p : Nat) (h : BitVec 256) (payload : Bytes) : Sends s (sendPacket s p h payload) :=
  (Sends.emit ..).trans (sends_streamOut ..)

theorem data_sendPacket (s : State) (p : Nat) (h : BitVec 256) (payload : Bytes) :
    Output.data p h payload ∈ (sendPacket s p h payload).out :=
  (sends_streamOut ..).out.subset (List.mem_append_right _ (List.mem_singleton.mpr rfl))

/-- Every packet of a list goes out. -/
theorem data_sendPackets (p : Nat) (l : List Pkt) (s : State) {x : Pkt} (hx : x ∈ l) :
    Output.data p x.header x.payload ∈ (l.foldl (fun t x => sendPacket t p x.header x.payload) s).out := by
  induction l generalizing s with
  | nil => cases hx
  | cons y r ih =>
    rcases List.mem_cons.mp hx with rfl | hr
    · exact (Sends.foldl (fun _ _ => sends_sendPacket ..) r _).out.subset (data_sendPacket ..)
    · exact ih _ hr

/-- A link after a replay. -/
def linkReplayed (now : Mt) (l : Link) : Link :=
  { l with replays := l.replays + 1, resend := none, timer := l.timer.map fun _ => now }

/-- A replay from the first unacknowledged packet sends them all. -/
theorem againData_eq (s : State) (p : Nat) : ∃ f : Port → Port,
    againData s p (port s p).link.unacked =
      updPort ((unackedPkts s p).foldl (fun t x => sendPacket t p x.header x.payload)
        (bumpBy (bumpAt s 0x2400 0xE p) 0x2400 0xF p (unackedPkts s p).length)) p f ∧
      ∀ x, (f x).link = linkReplayed s.clock x.link := by
  have hall : ((unackedPkts s p).filter fun x =>
      decide (seqDist (port s p).link.unacked (port s p).link.unacked ≤ seqDist x.seq (port s p).link.unacked)) = unackedPkts s p := by
    refine List.filter_eq_self.mpr fun x _ => decide_eq_true ?_
    have : seqDist (port s p).link.unacked (port s p).link.unacked = 0 := by unfold seqDist; omega
    omega
  refine ⟨?_, ?_, ?_⟩
  rotate_left
  · unfold againData
    simp only [hall]
    rfl
  · intro x
    rfl

/-- It is counted, and every unacknowledged packet goes out. -/
theorem againData_all {s t : State} {p : Nat} (ht : t = againData s p (port s p).link.unacked) :
    Counted 0x2400 0xE p s t ∧ (∀ x ∈ unackedPkts s p, Output.data p x.header x.payload ∈ t.out) ∧
      (port t p).link = linkReplayed s.clock (port s p).link ∧ besideLanes t = besideLanes { s with regs := t.regs } ∧
      ∀ i j k, regKey i j k < regKey 0x2400 0xE 0 → regAt t i j k = regAt s i j k := by
  obtain ⟨f, hrun, hf⟩ := againData_eq s p
  rw [← ht] at hrun
  set s1 := bumpBy (bumpAt s 0x2400 0xE p) 0x2400 0xF p (unackedPkts s p).length with hs1
  set u := (unackedPkts s p).foldl (fun t x => sendPacket t p x.header x.payload) s1 with hu
  have hsends : Sends s1 u := Sends.foldl (fun _ _ => sends_sendPacket ..) ..
  have hlinks : unblocked u = unblocked s := foldl_keeps unblocked _ (fun t x => unblocked_streamOut (emit t _) ..) ..
  have hlink : (port u p).link = (port s p).link := (congrArg Port.link (congrFun hlinks p) :)
  have hregs : t.regs = s1.regs := by
    rw [hrun]
    exact (congrArg State.regs hsends.beside :)
  have hport : (port t p).link = linkReplayed s.clock (port s p).link := by
    rw [hrun, updPort, port_setPort_self, hf, hlink]
  refine ⟨?_, fun x hx => ?_, hport, ?_, fun i j k hkey => ?_⟩
  · unfold Counted
    rw [show regAt t 0x2400 0xE p = regAt s1 0x2400 0xE p by rw [regAt, regAt, hregs], hs1,
      regAt_bumpBy_ne _ _ _ _ _ _ _ _ (by unfold regKey; omega)]
  · rw [hrun]
    exact data_sendPackets p _ s1 hx
  · rw [hregs, hrun]
    exact hsends.beside
  · rw [show regAt t i j k = regAt s1 i j k by rw [regAt, regAt, hregs], hs1,
      regAt_bumpBy_ne _ _ _ _ _ _ _ _ (by unfold regKey at hkey ⊢; omega), bumpAt,
      regAt_bumpBy_ne _ _ _ _ _ _ _ _ (by unfold regKey at hkey ⊢; omega)]

/-- R285: a data replay that may begin at once. -/
theorem replayDue_all {s t : State} {p : Nat} (hlimit : (port s p).link.replays ≠ reg s 0x2410 6)
    (htrying : (port s p).trying = none) (hgap : (port s p).link.gap < 4) (ht : t = replayDue s p (port s p).link.unacked) :
    Counted 0x2400 0xE p s t ∧ (∀ x ∈ unackedPkts s p, Output.data p x.header x.payload ∈ t.out) ∧
      (port t p).link = linkReplayed s.clock { (port s p).link with gap := (port s p).link.gap + 1 } ∧
      besideLanes t = besideLanes { s with regs := t.regs } ∧
      ∀ i j k, regKey i j k < regKey 0x2400 0xE 0 → regAt t i j k = regAt s i j k := by
  have hmay : mayControl s p = true := by simp [mayControl, htrying, hgap]
  set u := sendReplayStart s p 0 (port s p).link.unacked with hu
  have hsends : Sends s u := sends_sendControl ..
  have hlink : (port u p).link = { (port s p).link with gap := (port s p).link.gap + 1 } := link_sendBlock s p false _
  have hregs : u.regs = s.regs := (congrArg State.regs hsends.beside :)
  have hunacked : unackedPkts u p = unackedPkts s p := by
    simp only [unackedPkts, hlink, hsends.pkts]
  have hclock : u.clock = s.clock := (congrArg State.clock hsends.beside :)
  have hrun : t = againData u p (port u p).link.unacked := by
    rw [ht, hlink]
    simp only [replayDue, hlimit, if_false, replayData, hmay, if_true]
    rfl
  obtain ⟨hcount, hdata, hport, hbeside, hreg⟩ := againData_all hrun
  refine ⟨?_, by rwa [hunacked] at hdata, by rw [hport, hlink, hclock], ?_, fun i j k h => ?_⟩
  · rw [Counted, hcount]
    exact regAt_bumpAt_congr (by rw [regAt, regAt, hregs])
  · exact hbeside.trans (congrArg (fun v : State => { v with regs := t.regs }) hsends.beside :)
  · rw [hreg i j k h, regAt, regAt, hregs]

/-! ## What a LINK_STATUS changes of a link (R286, R290) -/

/-- The contexts, the memory and the collectives. -/
def inside (s : State) : Tbl Ctx × Memory × Tbl Coll := (s.ctxs, s.mem, s.colls)

/-- The first number that is unacknowledged, the mask that the neighbour told, and when it was heard last. -/
def linkMarks (s : State) (p : Nat) : Nat × BitVec 5 × Mt :=
  ((port s p).link.unacked, (port s p).link.xoffRx, (port s p).link.heard)

theorem Stores.inside {s t : State} (h : Stores s t) : inside t = inside s := by
  simp only [Machine.inside, h.ctxs, h.mem, h.colls]

theorem Stores.linkMarks {s t : State} (h : Stores s t) (p : Nat) : linkMarks t p = linkMarks s p :=
  (congrArg (fun x : Port => (x.link.unacked, x.link.xoffRx, x.link.heard)) (h.body p) :)

theorem linkMarks_updLink {s : State} {p : Nat} {f : Link → Link}
    (h : ∀ l, ((f l).unacked, (f l).xoffRx, (f l).heard) = (l.unacked, l.xoffRx, l.heard)) :
    linkMarks (updLink s p f) p = linkMarks s p := by
  rw [linkMarks, updLink, updPort, port_setPort_self]
  exact h _

theorem stores_acknowledged (s : State) (x : Pkt) : Stores s (acknowledged s x) := by
  unfold acknowledged
  split
  · exact stores_putPkt ..
  · exact stores_dropPkt ..

/-- R286: an acknowledgement within what was sent moves the first unacknowledged number to its own. -/
theorem ackData_marks {s : State} {p d : Nat} (hd : d < 65536) (hsent : beyondSent (port s p).link d = false) :
    inside (ackData s p d) = inside s ∧ (port (ackData s p d) p).link.unacked % 65536 = d ∧
      (port (ackData s p d) p).link.heard = (port s p).link.heard := by
  unfold ackData
  dsimp only
  rw [hsent]
  by_cases hk : seqDist d (port s p).link.unacked = 0
  · rw [if_pos (Or.inr hk)]
    refine ⟨rfl, ?_, rfl⟩
    unfold seqDist at hk
    omega
  · rw [if_neg (by simp [hk])]
    have hstores := Stores.foldl stores_acknowledged ((unackedPkts s p).filter fun x =>
      decide (seqDist x.seq (port s p).link.unacked < seqDist d (port s p).link.unacked)) s
    refine ⟨hstores.inside, ?_, ?_⟩
    · rw [updLink, updPort, port_setPort_self]
      exact Nat.mod_eq_of_lt hd
    · rw [updLink, updPort, port_setPort_self]
      exact congrArg (·.2.2) (hstores.linkMarks p)

theorem ackNotices_marks (s : State) (p c : Nat) : inside (ackNotices s p c) = inside s ∧
    linkMarks (ackNotices s p c) p = linkMarks s p := by
  unfold ackNotices
  dsimp only
  split
  · exact ⟨rfl, rfl⟩
  · exact ⟨rfl, linkMarks_updLink fun _ => by rfl⟩

theorem noteXoff_marks (s : State) (p : Nat) (mask : BitVec 5) : inside (noteXoff s p mask) = inside s ∧
    linkMarks (noteXoff s p mask) p = ((port s p).link.unacked, mask, (port s p).link.heard) := by
  refine ⟨rfl, ?_⟩
  rw [linkMarks, noteXoff, updPort, port_setPort_self]
  dsimp only
  split
  · split <;> rfl
  · split <;> rfl

/-! ## Reports -/

/-- Reports reached the fault collector, and nothing else changed. -/
def Reported (s t : State) : Prop := t = { s with regs := t.regs, faults := t.faults }

namespace Reported

theorem refl (s : State) : Reported s s := rfl

theorem trans {s t u : State} (h : Reported s t) (k : Reported t u) : Reported s u := by
  unfold Reported at h k ⊢
  rw [k, h]

theorem foldl {α : Type} {f : State → α → State} (h : ∀ t a, Reported t (f t a)) (l : List α) (s : State) :
    Reported s (l.foldl f s) := by
  induction l generalizing s with
  | nil => exact refl s
  | cons a r ih => exact (h s a).trans (ih _)

variable {s t : State} (h : Reported s t)
include h

theorem ports : t.ports = s.ports := (congrArg State.ports h :)
theorem port (p : Nat) : port t p = port s p := congrArg (fun l => tgetD l p Port.reset) h.ports
theorem inside : inside t = inside s := (congrArg Machine.inside h :)
theorem tables : t.tables = s.tables := (congrArg State.tables h :)

end Reported

theorem reported_raiseReport (s : State) (r : Report) : Reported s (raiseReport s r) := raiseReport_only ..

theorem reported_report (s : State) (cls idx kind addr : Nat) : Reported s (report s cls idx kind addr) :=
  reported_raiseReport ..

theorem countedFault_of_regs {cls idx : Nat} {s s' t t' : State} (hs : s'.regs = s.regs) (ht : t'.regs = t.regs)
    (h : CountedFault cls idx s t) : CountedFault cls idx s' t' := by
  unfold CountedFault Counted bumpAt bumpBy setRegAt regAt at *
  rw [hs, ht]
  exact h

theorem reported_reportShort (s : State) (p : Nat) (old : List Nat) : Reported s (reportShort s p old) :=
  Reported.foldl (fun _ _ => reported_report ..) ..

theorem tables_refreshXoff (s : State) (p : Nat) : (refreshXoff s p).tables = s.tables := by
  unfold refreshXoff
  dsimp only
  split
  · rfl
  · exact (congrArg State.tables (sends_sendStatus ..).beside :)

/-- What changes the room that a port needs is reported and told, and changes no more than that. -/
theorem withHeadroom_keeps (s : State) (p : Nat) (f : State → State) : inside (withHeadroom s p f) = inside (f s) ∧
    (withHeadroom s p f).tables = (f s).tables ∧
    ∀ q, portBody (port (withHeadroom s p f) q) = portBody (port (f s) q) := by
  unfold withHeadroom
  dsimp only
  split
  · have hreported := reported_reportShort (f s) p (shortShares s p)
    have hxoff := stores_refreshXoff (reportShort (f s) p (shortShares s p)) p
    exact ⟨hxoff.inside.trans hreported.inside, (tables_refreshXoff ..).trans hreported.tables,
      fun q => (hxoff.body q).trans (congrArg portBody (hreported.port q))⟩
  · exact ⟨rfl, rfl, fun _ => rfl⟩

/-- Everything of a port but what a stamp changes. -/
def besideStamp (x : Port) : Port :=
  { portBody x with link := { (portBody x).link with peerStamp := 0, peerAt := 0, rttOpen := 0, rttAny := false } }

theorem besideStamp_of_portBody {x y : Port} (h : portBody x = portBody y) : besideStamp x = besideStamp y := by
  unfold besideStamp
  rw [h]

theorem rttAny_of_portBody {x y : Port} (h : portBody x = portBody y) : x.link.rttAny = y.link.rttAny :=
  (congrArg (fun x : Port => x.link.rttAny) h :)

/-- A link's round trip is at least a measured one. -/
def withRtt (p rtt : Nat) (s : State) : State :=
  updLink s p fun l => { l with rttOpen := max l.rttOpen rtt, rttAny := true }

theorem withRtt_keeps (p rtt : Nat) (s : State) :
    (∀ q, besideStamp (port (withRtt p rtt s) q) = besideStamp (port s q)) ∧ (port (withRtt p rtt s) p).link.rttAny = true := by
  refine ⟨fun q => updPort_keeps (fun _ => by rfl) .., ?_⟩
  rw [withRtt, updLink, port_updPort]

/-- The state in which a stamp is noted. -/
def stampNoted (s : State) (p : Nat) (b : BitVec 256) (n : Nat) : State :=
  updLink s p fun l => { l with peerStamp := BitVec.ofNat 24 (cNum b n 3), peerAt := s.clock }

theorem takeStamp_cases (s : State) (p : Nat) (b : BitVec 256) (n : Nat) : takeStamp s p b n = stampNoted s p b n ∨
    ∃ rtt, takeStamp s p b n = withHeadroom (stampNoted s p b n) p (withRtt p rtt) := by
  unfold takeStamp
  dsimp only
  split
  · exact Or.inl rfl
  · exact Or.inr ⟨_, rfl⟩

/-- What a stamp changes of a link, and what its change of the needed room makes of it. -/
theorem takeStamp_keeps (s : State) (p : Nat) (b : BitVec 256) (n : Nat) : inside (takeStamp s p b n) = inside s ∧
    (takeStamp s p b n).tables = s.tables ∧
    (∀ q, besideStamp (port (takeStamp s p b n) q) = besideStamp (port s q)) ∧
    ((port s p).link.rttAny = true → (port (takeStamp s p b n) p).link.rttAny = true) := by
  have hbody : ∀ q, besideStamp (port (stampNoted s p b n) q) = besideStamp (port s q) := fun q =>
    updPort_keeps (fun _ => by rfl) ..
  rcases takeStamp_cases s p b n with h | ⟨rtt, h⟩
  · rw [h]
    refine ⟨rfl, rfl, hbody, fun hany => ?_⟩
    rw [stampNoted, updLink, port_updPort]
    exact hany
  · obtain ⟨hin, htables, hport⟩ := withHeadroom_keeps (stampNoted s p b n) p (withRtt p rtt)
    obtain ⟨hrtt, hany⟩ := withRtt_keeps p rtt (stampNoted s p b n)
    rw [h]
    exact ⟨hin, htables, fun q => (besideStamp_of_portBody (hport q)).trans ((hrtt q).trans (hbody q)),
      fun _ => (rttAny_of_portBody (hport p)).trans hany⟩

theorem takeStamp_marks (s : State) (p : Nat) (b : BitVec 256) (n : Nat) :
    linkMarks (takeStamp s p b n) p = linkMarks s p :=
  (congrArg (fun x : Port => (x.link.unacked, x.link.xoffRx, x.link.heard)) ((takeStamp_keeps s p b n).2.2.1 p) :)

theorem pumpAll_none {s : State} (h : s.colls = []) : pumpAll s = s := by simp [pumpAll, h]

theorem linkStatusReceive_marks {p : Nat} {b : BitVec 256} {s t : State} (htaken : ControlTaken s p b ctStatus)
    (hcolls : s.colls = []) (hsent : beyondSent (port s p).link (cNum b 5 2) = false) (ht : t = linkStatusReceive p b s) :
    (port t p).link.unacked % 65536 = cNum b 5 2 ∧ (port t p).link.xoffRx = BitVec.ofNat 5 (cByte b 8) ∧
      (port t p).link.heard = s.clock ∧ t.ctxs = s.ctxs ∧ t.mem = s.mem := by
  unfold linkStatusReceive at ht
  rw [takeControl_taken htaken] at ht
  set s0 := updLink s p fun l => { l with heard := s.clock } with hs0
  have hlink : (port s0 p).link = { (port s p).link with heard := s.clock } := by
    rw [hs0, updLink, updPort, port_setPort_self]
  have hd : cNum b 5 2 < 65536 := Nat.mod_lt _ (by decide)
  obtain ⟨hin1, hunacked1, hheard1⟩ := ackData_marks (s := s0) (p := p) hd (by rw [hlink]; exact hsent)
  obtain ⟨hin2, hmarks2⟩ := ackNotices_marks (ackData s0 p (cNum b 5 2)) p (cByte b 7)
  obtain ⟨hin3, hmarks3⟩ := noteXoff_marks (ackNotices (ackData s0 p (cNum b 5 2)) p (cByte b 7)) p (BitVec.ofNat 5 (cByte b 8))
  have hmarks4 := takeStamp_marks (noteXoff (ackNotices (ackData s0 p (cNum b 5 2)) p (cByte b 7)) p
    (BitVec.ofNat 5 (cByte b 8))) p b 9
  set u := takeStamp (noteXoff (ackNotices (ackData s0 p (cNum b 5 2)) p (cByte b 7)) p (BitVec.ofNat 5 (cByte b 8))) p b 9 with hu
  have hin4 : inside u = _ := (takeStamp_keeps ..).1
  have hdrain := (sends_drainControl 64 u p).stores
  have hin : inside (drainControl 64 u p) = inside s :=
    hdrain.inside.trans (hin4.trans (hin3.trans (hin2.trans hin1)))
  rw [pumpAll_none ((congrArg (·.2.2) hin).trans hcolls)] at ht
  have hmarks : linkMarks t p = ((port (ackData s0 p (cNum b 5 2)) p).link.unacked, BitVec.ofNat 5 (cByte b 8), s.clock) := by
    rw [ht, hdrain.linkMarks p, hmarks4, hmarks3]
    have h1 : (port (ackNotices (ackData s0 p (cNum b 5 2)) p (cByte b 7)) p).link.unacked = _ := congrArg Prod.fst hmarks2
    have h2 : (port (ackNotices (ackData s0 p (cNum b 5 2)) p (cByte b 7)) p).link.heard = _ := congrArg (·.2.2) hmarks2
    rw [h1, h2]
    simp only [linkMarks, hheard1, hlink]
  refine ⟨?_, congrArg (·.2.1) hmarks, congrArg (·.2.2) hmarks, ?_, ?_⟩
  · rw [show (port t p).link.unacked = _ from congrArg Prod.fst hmarks]
    exact hunacked1
  · rw [ht]
    exact congrArg Prod.fst hin
  · rw [ht]
    exact congrArg (·.2.1) hin

/-! ## The other control packets -/

/-- The state in which a control packet that a port takes acts. -/
theorem link_heard (s : State) (p : Nat) :
    port (updLink s p fun l => { l with heard := s.clock }) p =
      { port s p with link := { (port s p).link with heard := s.clock } } := by
  rw [updLink, updPort, port_setPort_self]

/-- R284: a data NAK that asks for everything unacknowledged. -/
theorem nakReceive_all {p : Nat} (hp : p < 12) {b : BitVec 256} {s t : State} (htaken : ControlTaken s p b ctNak)
    (hdata : bitAt (cByte b 5) 0 = false) (hwait : cByte b 6 ≠ 2) (hnum : cNum b 7 2 = (port s p).link.unacked)
    (hlimit : (port s p).link.replays ≠ reg s 0x2410 6) (htrying : (port s p).trying = none)
    (hgap : (port s p).link.gap < 4) (ht : t = nakReceive p b s) :
    Counted 0x2400 0xD p s t ∧ Counted 0x2400 0xE p s t ∧
      (∀ x ∈ unackedPkts s p, Output.data p x.header x.payload ∈ t.out) ∧
      (port t p).link.replays = (port s p).link.replays + 1 ∧ t = { onlySent s t with regs := t.regs } := by
  set s0 := updLink s p fun l => { l with heard := s.clock } with hs0
  set s1 := bumpAt s0 0x2400 0xD p with hs1
  have hport : port s1 p = { port s p with link := { (port s p).link with heard := s.clock } } := link_heard s p
  have hlast : reg s1 0x2410 6 = reg s 0x2410 6 := regAt_bumpBy_ne _ _ _ _ _ _ _ _ (by unfold regKey; omega)
  have hacked : ackData s1 p (port s p).link.unacked = s1 := by
    unfold ackData
    rw [hport]
    exact if_pos (Or.inr (by unfold seqDist; dsimp only; omega))
  have hrun : t = replayDue s1 p (port s1 p).link.unacked := by
    have hwithin : beyondSent (port s1 p).link (port s p).link.unacked = false := by
      rw [hport]
      unfold beyondSent seqDist
      exact decide_eq_false (by dsimp only; omega)
    rw [ht, nakReceive, takeControl_taken htaken, ← hs0]
    dsimp only
    rw [← hs1, if_neg (by simp [hdata]), hnum, if_neg (by simp [hwithin]), hacked, if_neg hwait, hport]
  obtain ⟨hcount, hsent, hlink, hbeside, hreg⟩ := replayDue_all (by rw [hport, hlast]; exact hlimit)
    (by rw [hport]; exact htrying) (by rw [hport]; exact hgap) hrun
  refine ⟨hreg 0x2400 0xD p (by unfold regKey; omega), ?_, ?_, ?_, ?_⟩
  · exact hcount.trans (regAt_bumpAt_congr (regAt_bumpBy_ne _ _ _ _ _ _ _ _ (by unfold regKey; omega)))
  · rwa [show unackedPkts s1 p = unackedPkts s p by simp only [unackedPkts, hport]; rfl] at hsent
  · rw [hlink, hport]
    rfl
  · exact onlySent_regs hbeside

/-- R285: a replay timer that runs out has everything unacknowledged sent again. -/
theorem replayTimeout_all {p since : Nat} {s t : State} (hworks : (port s p).state.works = true)
    (hshift : (port s p).shifting = none) (htimer : (port s p).link.timer = some since)
    (hdue : since + replayLimit s p ≤ s.clock) (hcontrol : (port s p).link.ctimer = none)
    (hlimit : (port s p).link.replays ≠ reg s 0x2410 6) (htrying : (port s p).trying = none)
    (hgap : (port s p).link.gap < 4) (ht : t = replayTimeout p s) :
    Counted 0x2400 0xE p s t ∧ (∀ x ∈ unackedPkts s p, Output.data p x.header x.payload ∈ t.out) ∧
      (port t p).link.replays = (port s p).link.replays + 1 ∧ (port t p).link.timer = some s.clock ∧
      t = { onlySent s t with regs := t.regs } := by
  obtain ⟨hcount, hsent, hlink, hbeside, -⟩ := replayDue_all hlimit htrying hgap rfl
  have hout : timerOut s p (some since) = true := decide_eq_true hdue
  have hrun : t = replayDue s p (port s p).link.unacked := by
    rw [ht, replayTimeout]
    dsimp only
    rw [if_neg (by simp [hworks, hshift]), htimer, hout, if_pos rfl]
    exact if_neg (by simp [hlink, linkReplayed, hcontrol, timerOut])
  rw [← hrun] at hcount hsent hlink hbeside
  refine ⟨hcount, hsent, by rw [hlink]; rfl, ?_, onlySent_regs hbeside⟩
  rw [hlink]
  simp [linkReplayed, htimer]

/-- Notices that are sent again leave the cause, or give the cause 1. -/
theorem wentDown_noticesDue {p : Nat} (hp : p < 12) {s : State} (h : WentDown p 1 s) (n : Nat) :
    WentDown p 1 (noticesDue s p n) := by
  unfold noticesDue
  split
  · exact wentDown_linkDown hp ..
  · have hregs : (replayNotices s p n).regs = (againNotices s p n).regs :=
      (congrArg State.regs (sends_drainControl 256 (updLink (againNotices s p n) p fun l => { l with restart := some n }) p).beside :)
    have hkeep : regAt (againNotices s p n) 0x2400 0x14 p = regAt s 0x2400 0x14 p := by
      refine (regAt_bumpBy_ne _ _ _ _ _ _ _ _ ?_).trans (regAt_bumpBy_ne _ _ _ _ _ _ _ _ ?_) <;> unfold regKey <;> omega
    rw [WentDown, regAt, hregs]
    exact hkeep.trans h

/-- R285: at the replay limit it takes the link down. -/
theorem replayTimeout_limit {p since : Nat} (hp : p < 12) {s : State} (hworks : (port s p).state.works = true)
    (hshift : (port s p).shifting = none) (htimer : (port s p).link.timer = some since)
    (hdue : since + replayLimit s p ≤ s.clock) (hlimit : (port s p).link.replays = reg s 0x2410 6) :
    WentDown p 1 (replayTimeout p s) := by
  have hout : timerOut s p (some since) = true := decide_eq_true hdue
  have hdown : replayDue s p (port s p).link.unacked = linkDown s p 1 0 := if_pos hlimit
  unfold replayTimeout
  dsimp only
  rw [if_neg (by simp [hworks, hshift]), htimer, hout, if_pos rfl, hdown]
  split
  · exact wentDown_noticesDue hp (wentDown_linkDown hp ..) _
  · exact wentDown_linkDown hp ..

/-- Settles O37, by the rule of each control packet and timer. -/
theorem linkControl : Obligations.LinkControl := by
  unfold Obligations.LinkControl
  refine ⟨fun p b s htaken hcolls hsent => ⟨_, rfl, linkStatusReceive_marks htaken hcolls hsent rfl⟩,
    fun p b s htaken hdata hwait hnum hlimit htrying hgap =>
      ⟨_, rfl, nakReceive_all p.isLt htaken hdata hwait hnum hlimit htrying hgap rfl⟩,
    fun p b s htaken hdata hnear => ?_, fun p b s hdone hcontrol hdiscard => ?_, fun p b s htaken => ?_,
    fun p s hworks hshift htrying hdue hlower => ?_,
    fun p s since hworks hshift htimer hdue hcontrol hlimit htrying hgap =>
      ⟨_, rfl, replayTimeout_all hworks hshift htimer hdue hcontrol hlimit htrying hgap rfl⟩,
    fun p s since hworks hshift htimer hdue hcontrol hlimit =>
      ⟨_, rfl, replayTimeout_limit p.isLt hworks hshift htimer hdue hlimit⟩,
    fun p s hdone hshift hdue => ?_, fun p s hearly => ?_⟩
  · have hrun : replayStartReceive p b s = updLink (updLink s p fun l => { l with heard := s.clock }) p fun l => { l with
        discard := false, replaying := if cNum b 6 2 = (port s p).link.expect then none else some (cNum b 6 2) } := by
      unfold replayStartReceive
      rw [takeControl_taken htaken]
      dsimp only
      rw [link_heard, if_neg (by simp [hdata, hnear])]
    refine ⟨_, rfl, ?_⟩
    beta_reduce
    rw [hrun, updLink, updPort, port_setPort_self]
    exact ⟨rfl, rfl, rfl⟩
  · refine congrArg Host.Outcome.next ?_
    unfold controlPacketDiscard
    dsimp only
    rw [if_neg (by simp [blocksCome, hdone]; omega), if_pos rfl, if_neg (by simp [hdiscard])]
  · obtain ⟨hblocks, -, hvalid, hidle, -⟩ := id htaken
    refine congrArg Host.Outcome.next ?_
    unfold controlPacketDiscard
    dsimp only
    rw [if_neg (by rw [hblocks, hidle]; decide), if_neg (by decide), if_neg (by simp [hidle]), takeControl_taken htaken]
    rfl
  · have hrun : linkStatusTimer p s = sendStatus s p false := by
      unfold linkStatusTimer statusSoon
      refine if_pos ⟨?_, hlower⟩
      simp [statusDue, working, hworks, htrying, passed, nsMt, hdue]
    refine ⟨_, rfl, ?_⟩
    beta_reduce
    rw [hrun]
    refine ⟨sendsControl_sendBlock rfl, ?_, ?_, (sends_sendStatus ..).onlySent⟩
    · rw [sendStatus, link_sendBlock, updLink, updPort, port_setPort_self]
    · rw [sendStatus, link_sendBlock, updLink, updPort, port_setPort_self]
  · refine ⟨_, rfl, ?_⟩
    beta_reduce
    rw [silenceLimitExpiry]
    rw [if_pos (by simp [hdone, hshift, passed, usMt, hdue])]
    exact wentDown_linkDown p.isLt ..
  · refine congrArg Host.Outcome.next ?_
    unfold silenceLimitExpiry
    have hheard : passed s (port s p).link.heard (usMt (reg s 0x2410 4)) = false := decide_eq_false (Nat.not_le.mpr hearly)
    exact if_neg (by simp [hheard])

end Sys2Proof.Machine
end

section
/-! Hailing, and the start of a link (R297 to R301, R322, R453 to R455). -/

namespace Sys2Proof.Machine
open Sys2Proof

theorem sends_sendLinkStart (s : State) (p : Nat) : Sends s (sendLinkStart s p) :=
  (sends_sendControl ..).after (Sends.updLink (fun _ => by rfl) ..)

/-! ## A port begins to work -/

/-- What hailing decided of a port. -/
def hailMarks (x : Port) : Nat × Nat × Option (BitVec 256) × Option (BitVec 256) := (x.outcome, x.check, x.admitted, x.hail)

/-- The state that a port enters is one in which it works. -/
theorem workState_works (s : State) (p : Nat) : (workState s p).works = true := by
  unfold workState
  dsimp only
  repeat' split
  all_goals rfl

theorem hailMarks_of_portCore {x y : Port} (h : portCore x = portCore y) : hailMarks x = hailMarks y :=
  (congrArg hailMarks h :)

/-- A port whose stripe's own port leaves the degraded state: it works, and hailing has nothing to do with it. -/
theorem restoreHome_keeps (s : State) (p q : Nat) : inside (restoreHome s p) = inside s ∧
    hailMarks (port (restoreHome s p) q) = hailMarks (port s q) ∧
    ((port s q).state.works = true → (port (restoreHome s p) q).state.works = true) := by
  unfold restoreHome
  split
  · refine ⟨rfl, updPort_keeps (fun _ => by rfl) .., fun h => ?_⟩
    by_cases hq : p = q
    · subst hq
      rw [port_updPort]
      exact workState_works ..
    · rwa [port_updPort_ne _ _ hq]
  · exact ⟨rfl, rfl, id⟩

/-- R297: a port that enters service works, the device has worked, and what hailing decided stays. -/
theorem enterWorking_works (s : State) (p : Nat) : inside (enterWorking s p) = inside s ∧
    (∀ q, hailMarks (port (enterWorking s p) q) = hailMarks (port s q)) ∧
    (port (enterWorking s p) p).state.works = true ∧ (enterWorking s p).tables.worked = true ∧
    (enterWorking s p).tables.retiredSelf = false := by
  set s1 := sendLinkStart s p with hs1
  have hsent : Sends s s1 := sends_sendLinkStart ..
  set s2 := updPort s1 p fun y => { y with
    state := workState s p, missing := false, beaconAt := s.clock,
    link := { y.link with heard := s.clock, statusAt := s.clock, startFrom := none } } with hs2
  have hmarks2 : ∀ q, hailMarks (port s2 q) = hailMarks (port s q) := fun q =>
    (updPort_keeps (fun _ => by rfl) ..).trans (congrArg hailMarks (hsent.core q) :)
  have hworks2 : (port s2 p).state.works = true := by
    rw [hs2, port_updPort]
    exact workState_works ..
  set home := (match ownHome s2 p with
    | some q => restoreHome s2 q
    | none => tellStripe s2 p) with hhome
  have hhomes : inside home = inside s2 ∧ (∀ q, hailMarks (port home q) = hailMarks (port s2 q)) ∧
      (port home p).state.works = true := by
    rw [hhome]
    split
    · rename_i r _
      exact ⟨(restoreHome_keeps s2 r 0).1, fun q => (restoreHome_keeps s2 r q).2.1, (restoreHome_keeps s2 r p).2.2 hworks2⟩
    · have h := stores_tellStripe s2 p
      exact ⟨h.inside, fun q => (congrArg hailMarks (h.body q) :), (congrArg (fun x : Port => x.state.works) (h.body p) :).trans hworks2⟩
  obtain ⟨hin, hmarks, hworks⟩ := hhomes
  set s3 : State := { home with tables := { home.tables with worked := true, retiredSelf := false } } with hs3
  have hreported : Reported s3 (reportShort s3 p []) := reported_reportShort ..
  set s4 := reportShort s3 p [] with hs4
  set s5 := if workState s p = .limp then report s4 2 p 3 ((neighbour s p).toNat + (match (port s p).stage with
    | some g => g.code
    | none => 0) * 65536) else s4 with hs5
  have hreported5 : Reported s3 s5 := by
    rw [hs5]
    split
    · exact hreported.trans (reported_report ..)
    · exact hreported
  have hxoff : Stores s5 (enterWorking s p) := stores_refreshXoff s5 p
  generalize enterWorking s p = u at hxoff ⊢
  have hin2 : inside s2 = inside s := hsent.stores.inside
  have hin3 : inside s3 = inside s := hin.trans hin2
  have hport3 : ∀ q, port s3 q = port home q := fun _ => rfl
  have htables3 : s3.tables.worked = true ∧ s3.tables.retiredSelf = false := ⟨rfl, rfl⟩
  clear_value s5 s4 s3 home s2
  refine ⟨hxoff.inside.trans (hreported5.inside.trans hin3), fun q => ?_, ?_, ?_, ?_⟩
  · calc hailMarks (port u q) = hailMarks (port s5 q) := (congrArg hailMarks (hxoff.body q) :)
      _ = hailMarks (port home q) := congrArg hailMarks ((hreported5.port q).trans (hport3 q))
      _ = hailMarks (port s q) := (hmarks q).trans (hmarks2 q)
  · calc (port u p).state.works = (port s5 p).state.works :=
          (congrArg (fun x : Port => x.state.works) (hxoff.body p) :)
      _ = (port home p).state.works := congrArg (fun x : Port => x.state.works) ((hreported5.port p).trans (hport3 p))
      _ = true := hworks
  · exact (congrArg (fun v : State => v.tables.worked) hxoff.beside :).trans ((congrArg Tables.worked hreported5.tables).trans htables3.1)
  · exact (congrArg (fun v : State => v.tables.retiredSelf) hxoff.beside :).trans ((congrArg Tables.retiredSelf hreported5.tables).trans htables3.2)

/-- R299, R301: a port that may enter service does, or its step up begins; hailing's decision stays. -/
theorem tryEnter_keeps (s : State) (p : Nat) : inside (tryEnter s p) = inside s ∧
    ∀ q, hailMarks (port (tryEnter s p) q) = hailMarks (port s q) := by
  unfold tryEnter
  dsimp only
  split
  · exact ⟨rfl, fun _ => rfl⟩
  · split
    · split
      · exact ⟨rfl, fun q => updPort_keeps (f := fun x => { x with
          stepAt := some s.clock, link := { x.link with startFrom := none } }) (fun _ => by rfl) ..⟩
      · exact ⟨rfl, fun _ => rfl⟩
    · split
      · exact ⟨(enterWorking_works s p).1, (enterWorking_works s p).2.1⟩
      · exact ⟨rfl, fun _ => rfl⟩

theorem tryEnter_not_admitted {s : State} {p : Nat} (h : (port s p).outcome ≠ 1) : tryEnter s p = s :=
  if_pos (Or.inl h)

theorem tryEnter_works {s : State} {p : Nat} (hout : (port s p).outcome = 1) (hworks : (port s p).state.works = false)
    (hseen : (port s p).link.seenByPeer = true) (hdone : stageDone (port s p) = true) (hstopped : (port s p).stopped = true)
    (hrtt : (port s p).link.rttAny = true) : tryEnter s p = enterWorking s p := by
  unfold tryEnter
  dsimp only
  rw [if_neg (by simp [hout, hworks, hseen, hdone]), if_neg (by simp [hstopped]), if_pos hrtt]

/-! ## LINK_START (R297, R301) -/

/-- A LINK_START is kept, its epoch taken, and the expected numbers begin again. -/
def linkKept (b : BitVec 256) (l : Link) : Link :=
  { l with kept := some b, rxEpoch := hf b 40 2, expect := 0, cexpect := 0,
           seenByPeer := l.seenByPeer || bitAt (cByte b 5) 2 }

/-- The state in which a port that took a LINK_START tries to enter service. -/
def startTaken (p : Nat) (b : BitVec 256) (s : State) : State :=
  takeStamp (updLink (updLink s p fun l => { l with heard := s.clock }) p (linkKept b)) p b 6

theorem linkStartReceive_taken {p : Nat} {b : BitVec 256} {s : State} (h : ControlTaken s p b ctLinkStart) :
    linkStartReceive p b s = tryEnter (startTaken p b s) p :=
  takeControl_taken h _

theorem of_besideStamp {x y : Port} (h : besideStamp x = besideStamp y) :
    (x.link.kept = y.link.kept ∧ x.link.rxEpoch = y.link.rxEpoch ∧ x.link.expect = y.link.expect ∧
      x.link.cexpect = y.link.cexpect ∧ x.link.seenByPeer = y.link.seenByPeer) ∧
    x.outcome = y.outcome ∧ x.state = y.state ∧ x.stopped = y.stopped ∧ stageDone x = stageDone y :=
  ⟨⟨(congrArg (fun x : Port => x.link.kept) h :), (congrArg (fun x : Port => x.link.rxEpoch) h :),
      (congrArg (fun x : Port => x.link.expect) h :), (congrArg (fun x : Port => x.link.cexpect) h :),
      (congrArg (fun x : Port => x.link.seenByPeer) h :)⟩,
    (congrArg Port.outcome h :), (congrArg Port.state h :), (congrArg Port.stopped h :), (congrArg stageDone h :)⟩

theorem startTaken_keeps (p : Nat) (b : BitVec 256) (s : State) : inside (startTaken p b s) = inside s ∧
    (startTaken p b s).tables = s.tables ∧
    besideStamp (port (startTaken p b s) p) =
      besideStamp { port s p with link := linkKept b { (port s p).link with heard := s.clock } } ∧
    ((port s p).link.rttAny = true → (port (startTaken p b s) p).link.rttAny = true) := by
  obtain ⟨hin, htables, hport, hrtt⟩ := takeStamp_keeps
    (updLink (updLink s p fun l => { l with heard := s.clock }) p (linkKept b)) p b 6
  have hlink : port (updLink (updLink s p fun l => { l with heard := s.clock }) p (linkKept b)) p =
      { port s p with link := linkKept b { (port s p).link with heard := s.clock } } := by
    rw [updLink, port_updPort, link_heard]
  rw [hlink] at hrtt
  exact ⟨hin, htables, (hport p).trans (congrArg besideStamp hlink), hrtt⟩

/-- A control packet that says what is sent first. -/
theorem sendsControl_sendControl {s u : State} {p ctype : Nat} {body : List (Nat × Nat × Nat)} (hout : u.out = s.out)
    (hepoch : (port u p).link.txEpoch = (port s p).link.txEpoch) : SendsControl p ctype s (sendControl u p ctype body) := by
  rw [sendControl, hepoch]
  exact sendsControl_sendBlock hout

theorem sendsControl_sendLinkStart (s : State) (p : Nat) : SendsControl p ctLinkStart s (sendLinkStart s p) :=
  sendsControl_sendControl rfl (by rw [updLink, port_updPort])

theorem startAt_sendLinkStart (s : State) (p : Nat) : (port (sendLinkStart s p) p).link.startAt = s.clock := by
  unfold sendLinkStart sendControl
  dsimp only
  rw [link_sendBlock, updLink, port_updPort]

/-- Settles O38: the LINK_START that arrives, the one that is repeated, and the limit. -/
theorem linkStarts : Obligations.LinkStarts := by
  unfold Obligations.LinkStarts
  refine ⟨fun p b s htaken hout => ⟨_, rfl, ?_⟩, fun p b s htaken hout hdone hworks hseen hstopped hrtt => ⟨_, rfl, ?_⟩,
    fun p s hdone hout hworks hdue => ⟨_, rfl, ?_⟩, fun p s since hfrom hworks hdue => ⟨_, rfl, ?_⟩,
    fun p s hfrom => congrArg Host.Outcome.next ?_⟩ <;> beta_reduce
  · obtain ⟨hin, htables, hport, -⟩ := startTaken_keeps p b s
    obtain ⟨⟨hkept, hepoch, hexpect, hcexpect, -⟩, hstill, -⟩ := of_besideStamp hport
    rw [linkStartReceive_taken htaken, tryEnter_not_admitted (by rwa [hstill])]
    exact ⟨hkept, hepoch, hexpect, hcexpect, htables, congrArg (fun x => x.2.1) hin⟩
  · obtain ⟨hin, -, hport, hany⟩ := startTaken_keeps p b s
    obtain ⟨⟨-, -, -, -, hsees⟩, hout', hstate, hstop, hstage⟩ := of_besideStamp hport
    rw [linkStartReceive_taken htaken, tryEnter_works (hout'.trans hout) (by rw [hstate]; exact hworks)
      (by rw [hsees]; simp [linkKept, hseen]) (hstage.trans hdone) (hstop.trans hstopped) (hany hrtt)]
    obtain ⟨hmem, -, hwork, hworked, hretired⟩ := enterWorking_works (startTaken p b s) p
    exact ⟨hwork, hworked, hretired, congrArg (fun x => x.2.1) (hmem.trans hin)⟩
  · have hrun : linkStartRepeat p s = sendLinkStart s p := by
      unfold linkStartRepeat
      exact if_pos ⟨hdone, hout, by simp [hworks], decide_eq_true hdue⟩
    rw [hrun]
    exact ⟨sendsControl_sendLinkStart .., startAt_sendLinkStart .., (sends_sendLinkStart ..).onlySent⟩
  · unfold linkStartTimeout
    dsimp only
    rw [hfrom]
    dsimp only
    rw [if_pos ⟨by simp [hworks], decide_eq_true hdue⟩]
    exact wentDown_linkDown p.isLt ..
  · unfold linkStartTimeout
    dsimp only
    rw [hfrom]

/-! ## HAIL (R298, R453 to R455) -/

theorem sends_sendHail (s : State) (p : Nat) : Sends s (sendHail s p) :=
  (sends_sendControl ..).after (Sends.setPort (by rfl))

theorem outcomeOf_fails {n : Nat} (h : 2 ≤ n) : outcomeOf n = 3 := by
  unfold outcomeOf
  rw [if_neg (by omega), if_neg (by omega)]

theorem awake_of_compassUp {s : State} (h : compassUp s = true) : awake s = true := by
  unfold compassUp at h
  unfold awake
  cases hphase : s.phase <;> simp_all

/-- The port that took the HAIL decides on it. -/
theorem hailReceive_decides {p : Nat} {b : BitVec 256} {s : State} (htaken : ControlTaken s p b ctHail)
    (hworks : (port s p).state.works = false) (hstopped : (port s p).stopped = false) (hstage : (port s p).stage = some .a)
    (htrying : (port s p).trying = none) (hup : compassUp s = true) (hout : (port s p).outcome = 0) :
    hailReceive p b s = decideHail (updLink s p fun l => { l with heard := s.clock }) p b := by
  have hup' : compassUp (updLink s p fun l => { l with heard := s.clock }) = true := hup
  unfold hailReceive
  rw [takeControl_taken htaken]
  dsimp only
  rw [link_heard, if_neg (by simp [hworks, hstopped]), if_pos (by simp [hstage, htrying]), if_neg (by rw [hup']; decide), if_pos hout]

/-- The checks do not look at when the link was heard. -/
theorem hailCheck_heard (s : State) (p : Nat) (b : BitVec 256) :
    hailCheck (updLink s p fun l => { l with heard := s.clock }) p b = hailCheck s p b := rfl

/-- The standing of a port whose HAIL passes every check. -/
def admittedPort (now : Mt) (b : BitVec 256) (x : Port) : Port :=
  { x with outcome := 1, check := 0, hail := some b, hailed := true, state := .training, admitted := some b,
           link := { x.link with startFrom := some now } }

theorem decideHail_passes {p : Nat} {b : BitVec 256} {s : State} (hcheck : hailCheck s p b = 0) :
    decideHail s p b = tryEnter (sendLinkStart (updPort (logHail s p 1 0 b) p (admittedPort s.clock b)) p) p := by
  unfold decideHail
  simp only [hcheck, outcomeOf, if_true, ne_eq, not_true_eq_false, false_and, if_false]
  rfl

/-- The standing of a port whose HAIL fails a check. -/
def quarantinedPort (now : Mt) (check : Nat) (b : BitVec 256) (x : Port) : Port :=
  { x with outcome := 3, check := check, hail := some b, hailed := true, reported := some (3, check),
           state := .quarantined, hailAt := now }

theorem decideHail_fails {p : Nat} {b : BitVec 256} {s : State} (hcheck : 2 ≤ hailCheck s p b)
    (hout : (port s p).outcome = 0) :
    decideHail s p b = updPort (report (logHail s p 3 (hailCheck s p b) b) 2 p 0xC (hailNode b).toNat) p
      (quarantinedPort s.clock (hailCheck s p b) b) := by
  unfold decideHail
  simp only [outcomeOf_fails hcheck, hout]
  rfl

/-- The Logbook takes the record of a HAIL, and nothing else changes. -/
theorem logHail_keeps (s : State) (p outcome check : Nat) (b : BitVec 256) :
    ∃ f, logHail s p outcome check b = { s with flash := f } := ⟨_, rfl⟩

/-- What a port without an outcome that fails a check becomes, and that it is reported. -/
theorem decideHail_quarantines {p : Nat} {b : BitVec 256} {s t : State} (hcheck : 2 ≤ hailCheck s p b)
    (hout : (port s p).outcome = 0) (hawake : awake s = true) (ht : t = decideHail s p b) :
    (∃ x, port t p = quarantinedPort s.clock (hailCheck s p b) b x) ∧ CountedFault 2 p s t ∧
      t.tables = s.tables ∧ t.mem = s.mem := by
  rw [decideHail_fails hcheck hout] at ht
  obtain ⟨f, hlog⟩ := logHail_keeps s p 3 (hailCheck s p b) b
  have hreported : Reported { s with flash := f } (report { s with flash := f } 2 p 0xC (hailNode b).toNat) := reported_report ..
  have hcount : CountedFault 2 p { s with flash := f } (report { s with flash := f } 2 p 0xC (hailNode b).toNat) :=
    countedFault_report (s := { s with flash := f }) hawake ..
  rw [hlog] at ht
  generalize report { s with flash := f } 2 p 0xC (hailNode b).toNat = u at ht hreported hcount
  rw [ht]
  exact ⟨⟨_, port_updPort ..⟩, countedFault_of_regs rfl rfl hcount, hreported.tables,
    congrArg (fun x => x.2.1) hreported.inside⟩

/-- What a port without an outcome that passes every check becomes. -/
theorem decideHail_admits {p : Nat} {b : BitVec 256} {s t : State} (hcheck : hailCheck s p b = 0)
    (ht : t = decideHail s p b) : hailMarks (port t p) = (1, 0, some b, some b) ∧ inside t = inside s := by
  rw [decideHail_passes hcheck] at ht
  obtain ⟨f, hlog⟩ := logHail_keeps s p 1 0 b
  rw [hlog] at ht
  set u := updPort { s with flash := f } p (admittedPort s.clock b) with hu
  have hmarks : hailMarks (port u p) = (1, 0, some b, some b) := by
    rw [hu, port_updPort]
    rfl
  have hinside : inside u = inside s := rfl
  have hsends : Sends u (sendLinkStart u p) := sends_sendLinkStart ..
  obtain ⟨hin, hkept⟩ := tryEnter_keeps (sendLinkStart u p) p
  have hmarks' : hailMarks (port (sendLinkStart u p) p) = hailMarks (port u p) := hailMarks_of_portCore (hsends.core p)
  rw [ht]
  exact ⟨(hkept p).trans (hmarks'.trans hmarks), hin.trans (hsends.stores.inside.trans hinside)⟩

/-- Settles O39: the HAIL that decides, the one that is repeated, the limit, and DEPART. -/
theorem hailing : Obligations.Hailing := by
  unfold Obligations.Hailing
  refine ⟨fun p b s htaken hworks hstopped hstage htrying hup hout hcheck => ⟨_, rfl, ?_⟩,
    fun p b s htaken hworks hstopped hstage htrying hup hout hcheck => ⟨_, rfl, ?_⟩,
    fun p s d hperiod hdue => ⟨_, rfl, ?_⟩, fun p s hdone hstage hstate hout hhailed hdue => ⟨_, rfl, ?_⟩,
    fun p b s htaken => ⟨_, rfl, ?_⟩⟩ <;> beta_reduce
  · rw [hailReceive_decides htaken hworks hstopped hstage htrying hup hout]
    obtain ⟨hmarks, hin⟩ := decideHail_admits (b := b) (p := p) (s := updLink s p fun l => { l with heard := s.clock })
      (by rw [← hcheck]; exact hailCheck_heard ..) rfl
    exact ⟨congrArg Prod.fst hmarks, congrArg (fun x => x.2.1) hmarks, congrArg (fun x => x.2.2.1) hmarks,
      congrArg (fun x => x.2.2.2) hmarks, congrArg (fun x => x.2.1) hin, congrArg Prod.fst hin⟩
  · rw [hailReceive_decides htaken hworks hstopped hstage htrying hup hout]
    obtain ⟨⟨x, hport⟩, hcount, htables, hmem⟩ := decideHail_quarantines (b := b) (p := p)
      (s := updLink s p fun l => { l with heard := s.clock }) (by rw [hailCheck_heard]; exact hcheck)
      (by rw [link_heard]; exact hout) (awake_of_compassUp hup) rfl
    rw [hport, hailCheck_heard]
    exact ⟨rfl, rfl, rfl, rfl, hcount, htables, hmem⟩
  · have hrun : hailRepeat p s = sendHail s p := by
      unfold hailRepeat
      rw [hperiod]
      exact if_pos (decide_eq_true hdue)
    have hat : (port (sendHail s p) p).hailAt = s.clock := by
      unfold sendHail sendControl
      dsimp only
      rw [hailAt_sendBlock, port_setPort_self]
    rw [hrun]
    exact ⟨sendsControl_sendControl rfl (by rw [port_setPort_self]), hat, (sends_sendHail ..).onlySent⟩
  · have hrun : hailTimeout p s = linkDown s p 6 0 := if_pos ⟨hdone, hstage, hstate, hout, by simp [hhailed], decide_eq_true hdue⟩
    rw [hrun]
    exact wentDown_linkDown p.isLt ..
  · unfold departReceive
    rw [takeControl_taken htaken]
    refine ⟨?_, ?_⟩
    · exact wentDown_linkDown p.isLt (bumpAt (updLink s p fun l => { l with heard := s.clock }) 0x2400 0x13 p) 4 (cByte b 5)
    · rw [port_updPort]

end Sys2Proof.Machine
end

section
/-! Commands on ports (R300, R340): a selection out of range. -/

namespace Sys2Proof.Machine
open Sys2Proof Sys2Proof.Tests

/-- A selection whose last cause of a lost link, 0x2400.14, stands in the place of the count of its own reports, 0x7100.02. -/
def farPort : Nat := regKey 0x7100 2 (sourceNo 2 0) - regKey 0x2400 0x14 0

/-- A session that selects it, with a port there that is not ABSENT. -/
def farSelected : State := { putSession base { sessionOf base (ownerOf w0.path) with
  sel := [(entryNo 0x2400 1, farPort)], last := base.mgmt.clockTx } with ports := [(farPort, upPort)] }

theorem farSelected_met : farPort = wsel farSelected w0 0x2400 1 ∧ (port farSelected farPort).state ≠ .absent ∧
    WriteTaken (writeReq w0 0x2400 0x17 [1]) farSelected :=
  ⟨by decide +kernel, by decide +kernel, Tests.taken (by decide +kernel)⟩

/-- The cause is stored, and the report of the lost link counts over it. -/
theorem takeLinkDown_farSelected :
    (match exec (.takeLinkDown w0) farSelected with
      | .next t => regAt t 0x2400 0x14 farPort
      | _ => 5) = 6 := by
  decide +kernel

/-- Refutes O40. Its clause on taking a link down takes any selection as the port, and for one out of range the number of the
entry's register is another entry's. -/
theorem not_portsAndPlanWritten : ¬ Obligations.PortsAndPlanWritten := by
  unfold Obligations.PortsAndPlanWritten
  rintro ⟨-, -, htaken, -⟩
  obtain ⟨hsel, hstate, hwrite⟩ := farSelected_met
  obtain ⟨t, hrun, -, -, hcause⟩ := htaken w0 farSelected farPort hsel hstate hwrite
  have hcount := takeLinkDown_farSelected
  rw [hrun] at hcount
  exact absurd (hcause.symm.trans hcount) (by decide)

end Sys2Proof.Machine
end

section
/-! Signal and lock of the lanes (R303 to R305). -/

namespace Sys2Proof.Machine
open Sys2Proof

theorem octetPort_lt {s : State} {o p : Nat} (h : octetPort s o = some p) : p < 12 := by
  have := List.mem_of_find?_eq_some h
  simpa [twelve] using this

theorem portOctets_of_blobs {s t : State} (h : t.blobs = s.blobs) : portOctets t = portOctets s := by
  have hwidth : portWidth t = portWidth s := funext fun p => by simp only [portWidth, blob, blobAt, h]
  funext p
  simp only [portOctets, portBase, hwidth]

theorem octetPort_of_blobs {s t : State} (h : t.blobs = s.blobs) (o : Nat) : octetPort t o = octetPort s o := by
  simp only [octetPort, portOctets_of_blobs h]

/-! ## A lane that fails -/

/-- The lane of a port that trains aligns anew. -/
theorem laneFail_trains {s : State} {l p : Nat} (ho : octetPort s (l / 9) = some p) (htrying : (port s p).trying = some .a) :
    laneFail s l = updLane s l fun z => { z with aligned := false, commas := 0, sets := 0, marker := none } := by
  unfold laneFail
  simp only [ho]
  rw [if_pos (by simp [stageDone, htrying])]

/-- The lane of a port that runs at stage A takes its link down. -/
theorem laneFail_runs {s : State} {l p : Nat} (ho : octetPort s (l / 9) = some p) (hdone : stageDone (port s p) = true)
    (hstage : (port s p).stage = some .a) (hstate : (octet s (l / 9)).state = 0 ∨ (octet s (l / 9)).state = 1)
    (hrole : (lane s l).role ≠ 4) (hrole' : (lane s l).role ≠ 5) : laneFail s l = linkDown s p 3 0 := by
  unfold laneFail
  simp only [ho]
  rw [if_neg (by simp [hdone]), if_neg (by simp [hdone]), if_pos hstage, if_pos hstate, if_neg (by simp [hrole, hrole'])]

/-- A loss is counted at its lane, noted there and reported. -/
def lossNoted (l sub kind pos : Nat) (x : Lane) (s : State) : State :=
  report (setLane (bumpAt s 0x2100 sub l) l x) 1 (l / 9) kind pos

theorem lossNoted_reported (l sub kind pos : Nat) (x : Lane) (s : State) :
    Reported (setLane (bumpAt s 0x2100 sub l) l x) (lossNoted l sub kind pos x s) := reported_report ..

/-- The loss leaves its ports, octets and lane as the failure sees them. -/
theorem lossNoted_keeps (l sub kind pos : Nat) (x : Lane) (s : State) :
    (∀ o, octetPort (lossNoted l sub kind pos x s) o = octetPort s o) ∧
    (∀ p, port (lossNoted l sub kind pos x s) p = port s p) ∧
    (∀ o, octet (lossNoted l sub kind pos x s) o = octet s o) ∧ lane (lossNoted l sub kind pos x s) l = x ∧
    ∀ k, k ≠ l → lane (lossNoted l sub kind pos x s) k = lane s k := by
  have h := lossNoted_reported l sub kind pos x s
  have hblobs : (lossNoted l sub kind pos x s).blobs = s.blobs := (congrArg State.blobs h :)
  have hoctets : (lossNoted l sub kind pos x s).octets = s.octets := (congrArg State.octets h :)
  have hlanes : (lossNoted l sub kind pos x s).lanes = tput s.lanes l x := (congrArg State.lanes h :)
  refine ⟨fun o => ?_, fun p => h.port p, fun o => ?_, ?_, fun k hk => ?_⟩
  · exact octetPort_of_blobs hblobs o
  · simp only [octet, hoctets]
  · simp only [lane, hlanes, tgetD_tput_self]
  · simp only [lane, hlanes, tgetD_tput_ne _ _ _ _ _ (Ne.symm hk)]

/-- It is counted at the lane, and for the lane's octet. -/
theorem lossNoted_counted {l sub kind pos : Nat} {x : Lane} {s : State} (hawake : awake s = true) (hsub : sub < 256) (hl : l < 108) :
    Counted 0x2100 sub l s (lossNoted l sub kind pos x s) ∧ CountedFault 1 (l / 9) s (lossNoted l sub kind pos x s) := by
  have hfault := countedFault_report (s := setLane (bumpAt s 0x2100 sub l) l x) hawake 1 (l / 9) kind pos
  refine ⟨?_, ?_⟩
  · exact regAt_report_below (by unfold regKey; omega)
  · exact hfault.trans (regAt_bumpAt_congr (regAt_bumpBy_ne _ _ _ _ _ _ _ _ (by unfold regKey sourceNo; omega)))

/-- R303, R304: a loss on a lane whose port trains stage A. -/
theorem laneLost_trains {l sub kind pos p : Nat} {x : Lane} {s t : State} (hawake : awake s = true) (hsub : sub < 256) (hl : l < 108)
    (ho : octetPort s (l / 9) = some p) (htrying : (port s p).trying = some .a)
    (ht : t = laneFail (lossNoted l sub kind pos x s) l) :
    lane t l = { x with aligned := false, commas := 0, sets := 0, marker := none } ∧ Counted 0x2100 sub l s t ∧
      CountedFault 1 (l / 9) s t ∧ t = { s with lanes := t.lanes, regs := t.regs, faults := t.faults } ∧
      ∀ k, k ≠ l → lane t k = lane s k := by
  obtain ⟨hocts, hports, -, hlane, hothers⟩ := lossNoted_keeps l sub kind pos x s
  obtain ⟨hcount, hfault⟩ := lossNoted_counted (kind := kind) (pos := pos) (x := x) hawake hsub hl
  have honly := lossNoted_reported l sub kind pos x s
  generalize lossNoted l sub kind pos x s = u at *
  rw [laneFail_trains (by rwa [hocts]) (by rwa [hports]), updLane, hlane] at ht
  subst ht
  refine ⟨lane_setLane_self .., hcount, hfault, ?_, fun k hk => ?_⟩
  · rw [honly]
    rfl
  · rw [lane_setLane_ne _ _ _ _ (Ne.symm hk), hothers k hk]

/-- R305: a loss on a lane in use whose port runs at stage A. -/
theorem laneLost_runs {l sub kind pos p : Nat} {x : Lane} {s : State} (ho : octetPort s (l / 9) = some p)
    (hdone : stageDone (port s p) = true) (hstage : (port s p).stage = some .a)
    (hstate : (octet s (l / 9)).state = 0 ∨ (octet s (l / 9)).state = 1) (hrole : x.role ≠ 4) (hrole' : x.role ≠ 5) :
    WentDown p 3 (laneFail (lossNoted l sub kind pos x s) l) := by
  obtain ⟨hocts, hports, hoctet, hlane, -⟩ := lossNoted_keeps l sub kind pos x s
  rw [laneFail_runs (p := p) (by rwa [hocts]) (by rwa [hports]) (by rwa [hports]) (by rwa [hoctet]) (by rwa [hlane]) (by rwa [hlane])]
  exact wentDown_linkDown (octetPort_lt ho) ..

theorem laneLos_noted {l : Nat} {s : State} (h : (lane s l).los = false) : laneLos l s =
    laneFail (lossNoted l 4 2 (failPos l (lane s l)) { lane s l with los := true, losAt := s.clock } s) l :=
  if_neg (by simp [h])

theorem laneLol_noted {l : Nat} {s : State} (h : (lane s l).lol = false) : laneLol l s =
    laneFail (lossNoted l 5 3 (failPos l (lane s l)) { lane s l with lol := true, lolAt := s.clock } s) l :=
  if_neg (by simp [h])

/-- Settles O41, by what a loss notes and what the failure then does at each standing of the port. -/
theorem lanesLoseSignal : Obligations.LanesLoseSignal := by
  unfold Obligations.LanesLoseSignal
  refine ⟨fun l p s hlos ho htrying hawake => ⟨_, rfl, ?_⟩, fun l p s hlol ho htrying hawake => ⟨_, rfl, ?_⟩,
    fun l p s i hi ho hdone hstage hstate hrole hrole' => ?_, fun l p s hlos ho hstate => congrArg Host.Outcome.next ?_,
    fun l s hlol => congrArg Host.Outcome.next ?_, fun l s hlos => congrArg Host.Outcome.next (if_pos hlos)⟩
  · beta_reduce
    obtain ⟨hlane, hcount, hfault, honly, hothers⟩ := laneLost_trains hawake (by omega) l.isLt ho htrying (laneLos_noted hlos)
    rw [hlane]
    exact ⟨rfl, rfl, rfl, hcount, hfault, honly, hothers⟩
  · beta_reduce
    obtain ⟨hlane, hcount, hfault, honly, hothers⟩ := laneLost_trains hawake (by omega) l.isLt ho htrying (laneLol_noted hlol)
    rw [hlane]
    exact ⟨rfl, rfl, rfl, hcount, hfault, honly, hothers⟩
  · rcases hi with ⟨rfl, hlos⟩ | ⟨rfl, hlol⟩
    · exact ⟨_, rfl, (laneLos_noted hlos).symm ▸ laneLost_runs ho hdone hstage hstate hrole hrole'⟩
    · exact ⟨_, rfl, (laneLol_noted hlol).symm ▸ laneLost_runs ho hdone hstage hstate hrole hrole'⟩
  · unfold laneLosClear
    simp only [hlos, ho]
    exact if_neg hstate
  · exact congrArg (setLane s l) (if_pos hlol)

end Sys2Proof.Machine
end

section
/-! Training of the lanes (R310 to R319). -/

namespace Sys2Proof.Machine
open Sys2Proof

/-! ## Stage A -/

/-- R310: the fourth sound set in a row. -/
theorem trainingSet_aligns {l p : Nat} {groups : List CodeGroup} {s : State} (hsees : SeesSets s l p)
    (hlen : groups.length = 32)
    (hcomma : (((decodeGroups groups (lane s l).disparity).1.head?.bind id).map (·.1)) = some k28_5)
    (hsound : (decodeGroups groups (lane s l).disparity).1.all Option.isSome = true) (hcommas : 3 ≤ (lane s l).commas)
    (hsets : (lane s l).sets = 0) : ∃ n, ∃ x, trainingSetReceive l groups s = setLane (bumpBy s 0x2100 0xD l n) l x ∧
      x.aligned = true ∧ x.commas = (lane s l).commas + 1 := by
  obtain ⟨hport, htrains, hlos, hlol⟩ := hsees
  unfold trainingSetReceive
  simp only [hport]
  rw [if_neg (by simp [htrains, hlos, hlol, hlen])]
  simp only [hcomma, hsound, beq_self_eq_true, if_true, hsets, ne_eq, not_true_eq_false, and_false, if_false]
  have haligned : ((lane s l).aligned || decide (4 ≤ (lane s l).commas + 1)) = true := by simp; omega
  split
  · exact ⟨_, _, rfl, haligned, rfl⟩
  · rw [if_neg (by omega)]
    exact ⟨_, _, rfl, haligned, rfl⟩

theorem bitSlip_slips {l p : Nat} {s : State} (hsees : SeesSets s l p) (haligned : (lane s l).aligned = false)
    (hdue : (lane s l).slipAt + 993 ≤ s.clock) : bitSlip l s = setLane s l { lane s l with
      offset := ((lane s l).offset + 1) % 10, slipAt := s.clock, slips := (lane s l).slips + 1, commas := 0 } := by
  obtain ⟨hport, htrains, hlos, hlol⟩ := hsees
  unfold bitSlip
  simp only [hport]
  exact if_pos ⟨htrains, by simp [haligned], by simp [hlos], by simp [hlol], decide_eq_true hdue⟩

/-! ## Stages B and C: what a control field says (R318) -/

theorem stepUp_none {s : State} {p : Nat} (h : (port s p).stepAt = none) : stepUp s p = s := by
  unfold stepUp
  rw [h]

/-- Only ports changed, and of each a part stayed. -/
def PortsKeeping {α : Type} (g : Port → α) (s t : State) : Prop :=
  t = { s with ports := t.ports } ∧ ∀ q, g (port t q) = g (port s q)

namespace PortsKeeping

variable {α : Type} {g : Port → α} {s t u : State}

theorem refl : PortsKeeping g s s := ⟨rfl, fun _ => rfl⟩

theorem trans (h : PortsKeeping g s t) (k : PortsKeeping g t u) : PortsKeeping g s u := by
  refine ⟨?_, fun q => (k.2 q).trans (h.2 q)⟩
  rw [k.1, h.1]

theorem updPort {f : Port → Port} (h : ∀ x, g (f x) = g x) (s : State) (p : Nat) : PortsKeeping g s (updPort s p f) :=
  ⟨rfl, updPort_keeps h s p⟩

end PortsKeeping

/-- When the peer's stream begins, and whether octets are to wake. -/
def frameMarks (x : Port) : Option Mt × Bool := (x.rxStart, x.widening)

/-- A port that is ready by its octets notes it, and when START begins. -/
theorem noteReady_keeps (s : State) (p : Nat) : PortsKeeping frameMarks s (noteReady s p) := by
  unfold noteReady
  split
  · exact .refl
  · have hready : PortsKeeping frameMarks s (updPort s p fun x => { x with readyAt := some s.clock }) := .updPort (fun _ => by rfl) ..
    dsimp only
    split
    · exact hready.trans (.updPort (fun _ => by rfl) ..)
    · exact hready

theorem noteSpare_octets (s : State) (p c : Nat) : ∃ l, noteSpare s p c = { s with octets := l } := by
  unfold noteSpare
  split
  · split
    · exact ⟨_, rfl⟩
    · exact ⟨_, rfl⟩
  · exact ⟨_, rfl⟩

/-- The lane that a control field leaves. -/
theorem laneControl_fields (l : Nat) (now : Mt) (x : Lane) (c : Nat) : (laneControl l now x c).precodeTx = bitAt c 32 ∧
    (laneControl l now x c).peerReady = (x.peerReady || bitAt c 23) ∧
    (laneControl l now x c).peerLane = BitVec.ofNat 8 (fld c 0 8) ∧ (laneControl l now x c).marker.isSome = true := by
  unfold laneControl nextRequest
  dsimp only
  split <;> split <;> exact ⟨rfl, rfl, rfl, rfl⟩

/-- Whether the octets are to wake stays with START. -/
theorem noteStart_keeps (s : State) (p c : Nat) : PortsKeeping Port.widening s (noteStart s p c) := by
  unfold noteStart
  split
  · exact .updPort (fun _ => by rfl) ..
  · exact .refl

theorem noteStart_begins {s : State} {p c : Nat} {st : Stage} (htrying : (port s p).trying = some st)
    (hstart : bitAt c 34 = true) (hnone : (port s p).rxStart = none) :
    (port (noteStart s p c) p).rxStart = some (s.clock + fld c 52 8 * frameSpan (some st)) := by
  unfold noteStart
  rw [if_pos hstart, port_updPort]
  simp [htrying, hnone]

/-- The lane's note of a control field, START, the spare and readiness, in that order. -/
theorem trainingFrameReceive_taken {l p : Nat} {st : Stage} {c : BitVec 64} {s : State} (hsees : SeesFrames s l p st)
    (hcheck : ctlCheck c.toNat = fld c.toNat 60 4) (hplain : bitAt c.toNat 33 = false) (hstage : fld c.toNat 8 2 = st.code) :
    trainingFrameReceive l c s = noteReady (noteSpare (noteStart
      (setLane s l (laneControl l s.clock (lane s l) c.toNat)) p c.toNat) p c.toNat) p := by
  obtain ⟨hport, hstep, htrying, hnotA, htest, -⟩ := hsees
  have htrains : trainsFrames (port s p) = true := by
    unfold trainsFrames
    cases st <;> simp_all
  unfold trainingFrameReceive
  simp only [hport, stepUp_none hstep]
  rw [if_neg (by simp [hcheck]), if_neg (by simp [hplain]), if_neg (by simp [htrying]),
    if_neg (by simp [htrains, htrying, hstage])]

/-- R318: what it does. -/
theorem trainingFrame_effect {l p : Nat} {st : Stage} {c : BitVec 64} {s t : State} (htrying : (port s p).trying = some st)
    (ht : t = noteReady (noteSpare (noteStart (setLane s l (laneControl l s.clock (lane s l) c.toNat)) p c.toNat) p c.toNat) p) :
    lane t l = laneControl l s.clock (lane s l) c.toNat ∧
      (bitAt c.toNat 34 = true → (port s p).rxStart = none →
        (port t p).rxStart = some (s.clock + fld c.toNat 52 8 * frameSpan (some st))) ∧
      t = onlyPorts s t ∧ (∀ k, k ≠ l → lane t k = lane s k) ∧ (port t p).widening = (port s p).widening := by
  set u := setLane s l (laneControl l s.clock (lane s l) c.toNat) with hu
  obtain ⟨honly, hwide⟩ := noteStart_keeps u p c.toNat
  have hstart := noteStart_begins (s := u) (p := p) (c := c.toNat) htrying
  generalize noteStart u p c.toNat = v at ht honly hwide hstart
  obtain ⟨octs, hoct⟩ := noteSpare_octets v p c.toNat
  obtain ⟨honly', hmarks⟩ := noteReady_keeps (noteSpare v p c.toNat) p
  rw [← ht] at honly' hmarks
  rw [hoct] at honly' hmarks
  have hlanes : t.lanes = tput s.lanes l (laneControl l s.clock (lane s l) c.toNat) := by
    rw [honly', honly]
    rfl
  have hport : frameMarks (port t p) = frameMarks (port v p) := hmarks p
  refine ⟨?_, fun h1 h2 => ?_, ?_, fun k hk => ?_, ?_⟩
  · rw [lane, hlanes, tgetD_tput_self]
  · exact (congrArg Prod.fst hport :).trans (hstart h1 h2)
  · rw [honly', honly]
    rfl
  · rw [lane, lane, hlanes, tgetD_tput_ne _ _ _ _ _ (Ne.symm hk)]
  · exact (congrArg Prod.snd hport :).trans (hwide p)

theorem widenWhenAwake_not {s : State} {p : Nat} (h : (port s p).widening = false) : widenWhenAwake s p = s :=
  if_neg (by simp [h])

/-! ## A receiver that is done (R319) -/

theorem getD_padTo (n : Nat) (b : Bytes) {i : Nat} (h : i < n) : (padTo n b).getD i 0 = b.getD i 0 := by
  unfold padTo zeros
  simp only [List.getD_eq_getElem?_getD, List.getElem?_take, if_pos h, List.getElem?_append]
  split
  · rfl
  · rw [List.getElem?_replicate]
    split
    · rw [List.getElem?_eq_none (by omega)]
      rfl
    · rw [List.getElem?_eq_none (by omega)]

theorem length_padTo (n : Nat) (b : Bytes) : (padTo n b).length = n := by
  simp [padTo, zeros]

theorem getD_limitFirst (type : Nat) (dfe : List (BitVec 8)) {i : Nat} (h0 : 1 ≤ i) (h : i < 12) :
    (limitFirst type dfe).getD i 0 = dfe.getD i 0 := by
  rw [← getD_padTo 12 dfe h]
  unfold limitFirst
  obtain ⟨j, rfl⟩ := Nat.exists_eq_add_of_le' h0
  cases padTo 12 dfe with
  | nil => rfl
  | cons t r => dsimp only; split <;> rfl

/-- The taps that a receiver's steps reach. -/
theorem getD_steps (f : BitVec 8 → BitVec 8 → BitVec 8) (a b : Bytes) {i : Nat} (h : i < 12) :
    (((padTo 12 a).zip (padTo 12 b)).map fun t => f t.1 t.2).getD i 0 = f (a.getD i 0) (b.getD i 0) := by
  rw [← getD_padTo 12 a h, ← getD_padTo 12 b h]
  have ha := length_padTo 12 a
  have hb := length_padTo 12 b
  simp only [List.getD_eq_getElem?_getD]
  rw [List.getElem?_eq_getElem (by simp [ha, hb, h]), List.getElem?_eq_getElem (by omega), List.getElem?_eq_getElem (by omega)]
  simp

/-- The lane of a receiver that is done. -/
def adapted (n ctle : Nat) (taps : Bytes) (x : Lane) : Lane :=
  { x with ctle := (stepToward n x.ctle ctle).toNat, dfe := taps, precodeRx := decide (1024 < 10 * (taps.headD 0).toInt),
           rxReady := true, reqOut := 0, preset := false }

theorem adaptationDone_taken {l p ctle : Nat} {dfe : List (BitVec 8)} {s : State} (hport : octetPort s (l / 9) = some p)
    (hstep : (port s p).stepAt = none) (htrains : trainsFrames (port s p) = true) (hlos : (lane s l).los = false) :
    ∃ taps : Bytes, adaptationDone l ctle dfe s =
        noteReady (setLane s l (adapted (adaptSteps s.clock (lane s l)) ctle taps (lane s l))) p ∧
      ∀ i, 1 ≤ i → i < 12 → taps.getD i 0 = BitVec.ofInt 8
        (stepToward (adaptSteps s.clock (lane s l)) ((lane s l).dfe.getD i 0).toInt (dfe.getD i 0).toInt) := by
  refine ⟨?_, ?_, fun i h0 h => ?_⟩
  rotate_left
  · unfold adaptationDone
    simp only [hport, stepUp_none hstep]
    rw [if_neg (by simp [htrains, hlos])]
    rfl
  · rw [getD_limitFirst _ _ h0 h]
    exact getD_steps (fun a b => BitVec.ofInt 8 (stepToward (adaptSteps s.clock (lane s l)) a.toInt b.toInt)) _ _ h

/-- Settles O42, by the rule of each: a training set, a slip, a control field, and the receiver that is done. -/
theorem lanesTrain : Obligations.LanesTrain := by
  unfold Obligations.LanesTrain
  refine ⟨fun l p groups s hsees hlen hcomma hsound hcommas hsets => ⟨_, rfl, ?_⟩,
    fun l p s hsees haligned hdue => congrArg Host.Outcome.next (bitSlip_slips hsees haligned hdue),
    fun l p st c s hsees hcheck hplain hstage => ⟨_, rfl, ?_⟩,
    fun l c s hcheck hwide => congrArg Host.Outcome.next ?_,
    fun l p ctle dfe s hport hlen hstep htrains hlos => ⟨_, rfl, ?_⟩⟩ <;> beta_reduce
  · obtain ⟨n, x, hrun, haligned, hcommas'⟩ := trainingSet_aligns hsees hlen hcomma hsound hcommas hsets
    rw [hrun, lane_setLane_self]
    refine ⟨haligned, hcommas', rfl, fun k hk => ?_⟩
    rw [lane_setLane_ne _ _ _ _ (Ne.symm hk)]
    rfl
  · obtain ⟨hport, -, htrying, -, -, hwide⟩ := id hsees
    obtain ⟨hlane, hstart, honly, hothers, hwide'⟩ := trainingFrame_effect htrying (trainingFrameReceive_taken hsees hcheck hplain hstage)
    have hrun : frameReceive l c s = trainingFrameReceive l c s := by
      unfold frameReceive
      rw [hport]
      exact widenWhenAwake_not (hwide'.trans hwide)
    obtain ⟨hprecode, hready, hpeer, hmarker⟩ := laneControl_fields l s.clock (lane s l) c.toNat
    rw [hrun, hlane]
    exact ⟨hprecode, hready, hpeer, hmarker, hstart, honly, hothers⟩
  · have hrun : trainingFrameReceive l c s = s := by
      unfold trainingFrameReceive
      split
      · rfl
      · exact if_pos hcheck
    unfold frameReceive
    dsimp only
    rw [hrun]
    split
    · rename_i p hport
      exact widenWhenAwake_not (hwide p hport)
    · rfl
  · obtain ⟨taps, hrun, htaps⟩ := adaptationDone_taken (ctle := ctle) (dfe := dfe) hport hstep htrains hlos
    set u := setLane s l (adapted (adaptSteps s.clock (lane s l)) ctle taps (lane s l)) with hu
    obtain ⟨honly, -⟩ := noteReady_keeps u p
    have hlane : ∀ k, lane (noteReady u p) k = lane u k := fun k => by rw [honly]; rfl
    rw [hrun]
    refine ⟨?_, fun n hn => ?_, ?_, ?_, fun k hk => ?_⟩
    · rw [hlane, hu, lane_setLane_self]
      rfl
    · rw [hlane, hu, lane_setLane_self, hn]
      exact ⟨rfl, htaps⟩
    · rw [hlane, hu, lane_setLane_self]
      rfl
    · rw [honly]
      rfl
    · rw [hlane, hu, lane_setLane_ne _ _ _ _ (Ne.symm hk)]

end Sys2Proof.Machine
end

section
/-! The ends of a stage: a check window, START's countdown, and the stage limits (R320 to R322, R345). -/

namespace Sys2Proof.Machine
open Sys2Proof

/-! ## The block stream begins (R321) -/

/-- The standing of a port in its training. -/
def stageMarks (x : Port) : Option Stage × Option Stage × Option (Nat × Mt) × Bool × Option Mt :=
  (x.stage, x.trying, x.starting, x.stopped, x.link.startFrom)

theorem stageMarks_of_portBody {x y : Port} (h : portBody x = portBody y) : stageMarks x = stageMarks y :=
  (congrArg stageMarks h :)

/-- A part of a port that no packet, no sending, no account of the Charts and no octet's turn changes. -/
structure Blind {α : Type} (g : Port → α) : Prop where
  body : ∀ {x y : Port}, portBody x = portBody y → g x = g y
  budget : ∀ (x : Port) (b : Nat) (a : Mt), g { x with link := { x.link with budget := b, budgetAt := a } } = g x
  turn : ∀ (x : Port) (w : Bool) (k : List Nat), g { x with widening := w, waking := k } = g x

/-- What the begin of a block stream and a change of width leave: the inside of the device, the registers below those of the
faults, the numbers of octets, and a part of every port. -/
structure Streams {α : Type} (g : Port → α) (s t : State) : Prop where
  inside : inside t = inside s
  blobs : t.blobs = s.blobs
  regs : ∀ i j k, regKey i j k < regKey 0x7000 0 0 → regAt t i j k = regAt s i j k
  marks : ∀ q, g (port t q) = g (port s q)

namespace Streams

variable {α : Type} {g : Port → α}

theorem refl (s : State) : Streams g s s := ⟨rfl, rfl, fun _ _ _ _ => rfl, fun _ => rfl⟩

theorem trans {s t u : State} (h : Streams g s t) (k : Streams g t u) : Streams g s u :=
  ⟨k.inside.trans h.inside, k.blobs.trans h.blobs, fun i j l hl => (k.regs i j l hl).trans (h.regs i j l hl),
    fun q => (k.marks q).trans (h.marks q)⟩

theorem after {s t u : State} (k : Streams g t u) (h : Streams g s t) : Streams g s u := h.trans k

theorem foldl {β : Type} {f : State → β → State} (h : ∀ t a, Streams g t (f t a)) (l : List β) (s : State) :
    Streams g s (l.foldl f s) := by
  induction l generalizing s with
  | nil => exact refl s
  | cons a r ih => exact (h s a).trans (ih _)

theorem of_stores (hg : Blind g) {s t : State} (h : Stores s t) : Streams g s t :=
  ⟨h.inside, (congrArg State.blobs h.beside :), fun _ _ _ _ => by rw [regAt, regAt, h.regs], fun q => hg.body (h.body q)⟩

theorem updPort {f : Port → Port} (h : ∀ x, g (f x) = g x) (s : State) (p : Nat) : Streams g s (updPort s p f) :=
  ⟨rfl, rfl, fun _ _ _ _ => rfl, updPort_keeps h s p⟩

theorem updLane (s : State) (l : Nat) (f : Lane → Lane) : Streams g s (updLane s l f) :=
  ⟨rfl, rfl, fun _ _ _ _ => rfl, fun _ => rfl⟩

theorem updOctet (s : State) (o : Nat) (f : Octet → Octet) : Streams g s (updOctet s o f) :=
  ⟨rfl, rfl, fun _ _ _ _ => rfl, fun _ => rfl⟩

theorem updLanes (s : State) (p : Nat) (f : Nat → Lane → Lane) : Streams g s (updLanes s p f) :=
  foldl (fun t l => updLane t l (f l)) ..

theorem report (s : State) (cls idx kind addr : Nat) : Streams g s (report s cls idx kind addr) := by
  have h := reported_report s cls idx kind addr
  exact ⟨h.inside, (congrArg State.blobs h :), fun _ _ _ hk => regAt_report_below hk, fun q => by rw [h.port]⟩

theorem withHeadroom (hg : Blind g) {s : State} {p : Nat} {f : State → State} (h : Streams g s (f s)) :
    Streams g s (withHeadroom s p f) := by
  unfold Machine.withHeadroom
  dsimp only
  split
  · have hshort : Streams g (f s) (reportShort (f s) p (shortShares s p)) := foldl (fun t v => report t 2 p 7 v) ..
    exact (h.trans hshort).trans (of_stores hg (stores_refreshXoff ..))
  · exact h

end Streams

theorem streams_turnOctet {α : Type} {g : Port → α} (s : State) (o : Nat) (on : Bool) : Streams g s (turnOctet s o on) :=
  (Streams.foldl (fun _ _ => Streams.updLane ..) ..).after (Streams.updOctet ..)

section
variable {α : Type} {g : Port → α} (hg : Blind g)
include hg

theorem streams_accrue (s : State) (p : Nat) : Streams g s (accrue s p) := by
  unfold accrue updLink
  exact Streams.updPort (fun x => hg.budget x _ _) ..

theorem streams_turnOctets (s : State) (p : Nat) : Streams g s (turnOctets s p) := by
  unfold turnOctets
  exact (Streams.updPort (fun x => hg.turn x _ _) ..).after (Streams.foldl (fun _ _ => streams_turnOctet ..) ..)

theorem streams_completeFrames (s : State) (p : Nat) : Streams g s (completeFrames s p) :=
  Streams.foldl (fun _ _ => Streams.of_stores hg (sends_sendBlock ..).stores) ..

theorem streams_widthRx (hrx : ∀ x w o, g { x with rxWidth := w, rxOcts := o } = g x) (s : State) (p : Nat) :
    Streams g s (widthRx s p) := by
  unfold widthRx
  dsimp only
  split
  · exact streams_turnOctets hg ..
  · refine (streams_turnOctets hg ..).after ((Streams.withHeadroom hg ?_).after (Streams.foldl (fun _ _ => Streams.updOctet ..) ..))
    exact Streams.updPort (fun x => hrx x _ _) ..

theorem streams_widthTx (htx : ∀ x w o b f, g { x with txWidth := w, txOcts := o, txBlock := b, streamFrom := f } = g x)
    (s : State) (p : Nat) : Streams g s (widthTx s p) := by
  unfold widthTx
  dsimp only
  split
  · exact streams_turnOctets hg ..
  · refine (Streams.of_stores hg (stores_tellStripe ..)).after ((streams_turnOctets hg ..).after
      (Streams.after (t := accrue (completeFrames s p) p) ?_ ((streams_accrue hg ..).after (streams_completeFrames hg ..))))
    exact Streams.updPort (fun x => htx x _ _ _ _) ..

end

theorem blind_stageMarks : Blind stageMarks := ⟨stageMarks_of_portBody, fun _ _ _ => rfl, fun _ _ _ => rfl⟩

theorem streams_applyWidth (s : State) (p : Nat) : Streams stageMarks s (applyWidth s p) :=
  (streams_widthRx blind_stageMarks (fun _ _ _ => rfl) ..).after (streams_widthTx blind_stageMarks (fun _ _ _ _ _ => rfl) ..)

/-- R321: the stage whose stream begins, at once and with its training over. -/
theorem streamBegins_marks (s : State) (p : Nat) (st : Stage) (stopped : Bool) :
    inside (streamBegins s p st stopped) = inside s ∧
    (∀ i j k, regKey i j k < regKey 0x7000 0 0 → regAt (streamBegins s p st stopped) i j k = regAt s i j k) ∧
    stageMarks (port (streamBegins s p st stopped) p) = (some st, none, none, stopped, some s.clock) := by
  set s0 := (if stopped then updLanes s p (fun _ x => loadSetting st x) else s) with hs0
  have h0 : Streams stageMarks s s0 := by
    rw [hs0]
    split
    · exact Streams.updLanes ..
    · exact Streams.refl s
  set s1 := updPort (accrue s0 p) p fun x => { x with
    stage := some st, trying := none, starting := none, readyAt := none, stopped := stopped, txBlock := 0, streamFrom := s.clock,
    link := { x.link with startFrom := some s.clock, heard := s.clock } } with hs1
  have hmarks1 : stageMarks (port s1 p) = (some st, none, none, stopped, some s.clock) := by
    rw [hs1, port_updPort]
    rfl
  have hin1 : inside s1 = inside s0 := rfl
  have hregs1 : s1.regs = s0.regs := rfl
  set s2 := applyWidth ((portOctets s1 p).foldl (fun t o => updOctet t o fun x => { x with
    frame := 0, badWords := [], txData := [] }) s1) p with hs2
  have h2 : Streams stageMarks s1 s2 := (streams_applyWidth ..).after (Streams.foldl (fun _ _ => Streams.updOctet ..) ..)
  have h3 : Streams stageMarks s2 (if st = .a then s2 else sendHail s2 p) := by
    split
    · exact Streams.refl s2
    · exact Streams.of_stores blind_stageMarks (sends_sendHail ..).stores
  have h4 : Streams stageMarks s1 (streamBegins s p st stopped) :=
    (Streams.of_stores blind_stageMarks (sends_sendLinkStart ..).stores).after (h3.after h2)
  generalize streamBegins s p st stopped = t at h4
  refine ⟨h4.inside.trans (hin1.trans h0.inside), fun i j k h => ?_, (h4.marks p).trans hmarks1⟩
  rw [h4.regs i j k h, ← h0.regs i j k h, regAt, regAt, hregs1]

/-! ## The checkers in test mode (R345) -/

theorem portOctets_bound (s : State) {p o : Nat} (hp : p < 12) (ho : o ∈ portOctets s p) : o < 12 * 256 := by
  have hwidth : ∀ q, portWidth s q ≤ 255 := fun q => by
    unfold portWidth byteAt
    omega
  have hsum : ∀ l : List Nat, (l.map (portWidth s)).foldl (· + ·) 0 ≤ 255 * l.length := fun l => by
    rw [← List.sum_eq_foldl]
    induction l with
    | nil => simp
    | cons q r ih => simp only [List.map_cons, List.sum_cons, List.length_cons]; have := hwidth q; omega
  obtain ⟨i, hi, rfl⟩ := List.mem_map.mp ho
  have hbase : portBase s p ≤ 255 * 11 := (hsum (List.range p)).trans (by rw [List.length_range]; omega)
  have := List.mem_range.mp hi
  have := hwidth p
  omega

theorem mem_portLanes {s : State} {p l : Nat} : l ∈ portLanes s p ↔ l / 9 ∈ portOctets s p := by
  unfold portLanes octetLanes
  simp only [List.mem_flatten, List.mem_map, exists_exists_and_eq_and, List.mem_range]
  constructor
  · rintro ⟨o, ho, i, hi, rfl⟩
    rwa [show (9 * o + i) / 9 = o by omega]
  · intro h
    exact ⟨l / 9, h, l % 9, Nat.mod_lt _ (by decide), by omega⟩

theorem portLanes_nodup (s : State) (p : Nat) : (portLanes s p).Nodup := by
  unfold portLanes octetLanes portOctets
  refine List.nodup_flatten.mpr ⟨?_, ?_⟩
  · intro l hl
    obtain ⟨o, -, rfl⟩ := List.mem_map.mp hl
    exact List.nodup_range.map fun a b h => by simpa using h
  · rw [List.pairwise_map, List.pairwise_map]
    refine (List.nodup_range (n := portWidth s p)).imp fun {a b} hab => ?_
    intro x hx hy
    obtain ⟨i, hi, rfl⟩ := List.mem_map.mp hx
    obtain ⟨j, hj, hij⟩ := List.mem_map.mp hy
    have := List.mem_range.mp hi
    have := List.mem_range.mp hj
    omega

/-- What the checker of a lane counted goes into the lane's registers. -/
def checked (counts : List LaneCount) (s : State) (l : Nat) : State :=
  match countOf counts l with
  | some c => setRegAt (bumpBy (bumpBy s 0x2300 7 l c.bits) 0x2300 8 l c.errors) 0x2300 9 l 1
  | none => s

theorem regAt_counter (s : State) {sub l : Nat} (h : sub = 7 ∨ sub = 8) (n : Nat) :
    regAt (bumpBy s 0x2300 sub l n) 0x2300 sub l = (regAt s 0x2300 sub l + n) % 2 ^ 64 := by
  rcases h with rfl | rfl
  · exact regAt_setRegAt_self ..
  · exact regAt_setRegAt_self ..

/-- A lane's checker reaches no other lane's registers, nor those of other entries. -/
theorem regAt_checked_ne (counts : List LaneCount) (s : State) {l k sub : Nat} (h : l ≠ k) (hl : l < 1048576) (hk : k < 1048576) :
    regAt (checked counts s l) 0x2300 sub k = regAt s 0x2300 sub k := by
  unfold checked
  split
  · rw [regAt_setRegAt_ne _ _ _ _ _ _ _ _ (by unfold regKey; omega), regAt_bumpBy_ne _ _ _ _ _ _ _ _ (by unfold regKey; omega),
      regAt_bumpBy_ne _ _ _ _ _ _ _ _ (by unfold regKey; omega)]
  · rfl

theorem regAt_checked_self {counts : List LaneCount} {l : Nat} {c : LaneCount} (hc : countOf counts l = some c) (s : State) :
    regAt (checked counts s l) 0x2300 7 l = (regAt s 0x2300 7 l + c.bits) % 2 ^ 64 ∧
    regAt (checked counts s l) 0x2300 8 l = (regAt s 0x2300 8 l + c.errors) % 2 ^ 64 ∧
    regAt (checked counts s l) 0x2300 9 l = 1 := by
  unfold checked
  rw [hc]
  dsimp only
  refine ⟨?_, ?_, regAt_setRegAt_self ..⟩
  · rw [regAt_setRegAt_ne _ _ _ _ _ _ _ _ (by unfold regKey; omega), regAt_bumpBy_ne _ _ _ _ _ _ _ _ (by unfold regKey; omega)]
    exact regAt_counter s (Or.inl rfl) _
  · rw [regAt_setRegAt_ne _ _ _ _ _ _ _ _ (by unfold regKey; omega), regAt_counter _ (Or.inr rfl),
      regAt_bumpBy_ne _ _ _ _ _ _ _ _ (by unfold regKey; omega)]

theorem regAt_foldl_checked_ne (counts : List LaneCount) (L : List Nat) (s : State) {k sub : Nat} (h : k ∉ L)
    (hL : ∀ l ∈ L, l < 1048576) (hk : k < 1048576) :
    regAt (L.foldl (checked counts) s) 0x2300 sub k = regAt s 0x2300 sub k := by
  induction L generalizing s with
  | nil => rfl
  | cons a r ih =>
    have hne : k ≠ a := fun e => h (e ▸ List.mem_cons_self)
    have hr : k ∉ r := fun hk => h (List.mem_cons_of_mem _ hk)
    rw [List.foldl_cons, ih _ hr fun l hl => hL l (List.mem_cons_of_mem _ hl),
      regAt_checked_ne _ _ (Ne.symm hne) (hL a List.mem_cons_self) hk]

/-- Every lane's checker counts into its own registers. -/
theorem regAt_foldl_checked {counts : List LaneCount} {L : List Nat} (hnodup : L.Nodup) (hL : ∀ l ∈ L, l < 1048576)
    (s : State) {l : Nat} {c : LaneCount} (hl : l ∈ L) (hc : countOf counts l = some c) :
    regAt (L.foldl (checked counts) s) 0x2300 7 l = (regAt s 0x2300 7 l + c.bits) % 2 ^ 64 ∧
    regAt (L.foldl (checked counts) s) 0x2300 8 l = (regAt s 0x2300 8 l + c.errors) % 2 ^ 64 ∧
    regAt (L.foldl (checked counts) s) 0x2300 9 l = 1 := by
  induction L generalizing s with
  | nil => cases hl
  | cons a r ih =>
    obtain ⟨ha, hr⟩ := List.nodup_cons.mp hnodup
    have hbound : ∀ l ∈ r, l < 1048576 := fun l h => hL l (List.mem_cons_of_mem _ h)
    have hla := hL a List.mem_cons_self
    rcases List.mem_cons.mp hl with rfl | hlr
    · simp only [List.foldl_cons, regAt_foldl_checked_ne counts r _ ha hbound hla]
      exact regAt_checked_self hc s
    · have hne : a ≠ l := fun h => ha (h ▸ hlr)
      have h := ih hr hbound (checked counts s a) hlr
      simpa only [List.foldl_cons, regAt_checked_ne counts s hne hla (hbound l hlr)] using h

theorem checked_regs (counts : List LaneCount) (s : State) (l : Nat) :
    checked counts s l = { s with regs := (checked counts s l).regs } := by
  unfold checked
  split <;> rfl

theorem foldl_checked_regs (counts : List LaneCount) (L : List Nat) (s : State) :
    L.foldl (checked counts) s = { s with regs := (L.foldl (checked counts) s).regs } := by
  induction L generalizing s with
  | nil => rfl
  | cons a r ih =>
    rw [List.foldl_cons, ih, checked_regs counts s a]

/-- R345: a window of a port in test mode whose checkers run. -/
theorem checkWindowEnd_test {p : Nat} {counts : List LaneCount} {s t : State} (hp : p < 12) (htest : (port s p).test = true)
    (hon : bitAt (reg s 0x2300 2) 1 = true) (ht : t = checkWindowEnd p counts s) : t = { s with regs := t.regs } ∧
      ∀ l ∈ portLanes s p, ∀ c, countOf counts l = some c →
        regAt t 0x2300 7 l = (regAt s 0x2300 7 l + c.bits) % 2 ^ 64 ∧
        regAt t 0x2300 8 l = (regAt s 0x2300 8 l + c.errors) % 2 ^ 64 ∧ regAt t 0x2300 9 l = 1 := by
  have hrun : t = (portLanes s p).foldl (checked counts) s := by
    rw [ht, checkWindowEnd, if_pos (by simp [patternChecked, htest, hon])]
    rfl
  have hbound : ∀ l ∈ portLanes s p, l < 1048576 := fun l hl => by
    have := portOctets_bound s hp (mem_portLanes.mp hl)
    omega
  rw [hrun]
  exact ⟨foldl_checked_regs .., fun l hl c hc => regAt_foldl_checked (portLanes_nodup s p) hbound s hl hc⟩

/-! ## A window that every lane passed (R320) -/

/-- Everything of a state but the lanes, octets, ports and registers. -/
def besideShape (s : State) : State := { s with lanes := [], octets := [], ports := [], regs := [] }

/-- What the lanes and octets of a port do not touch. -/
def shape (s : State) : State × Tbl Port × Tbl Nat := (besideShape s, s.ports, s.regs)

/-- A lane passed its window. -/
def lanePassed (ratio : Nat) (counts : List LaneCount) (l : Nat) (x : Lane) : Prop :=
  deaf x = false ∧ x.marker.isSome = true ∧ ∃ c, countOf counts l = some c ∧ ratioOk c.errors c.bits ratio = true

theorem checkLane_passed {ratio : Nat} {counts : List LaneCount} {l : Nat} {x : Lane} (h : lanePassed ratio counts l x) :
    lanePassed ratio counts l (checkLane ratio counts l x) ∧ (checkLane ratio counts l x).failed = false := by
  obtain ⟨hdeaf, hmarker, c, hc, hratio⟩ := h
  unfold checkLane
  simp only [hc]
  refine ⟨⟨hdeaf, hmarker, c, hc, hratio⟩, ?_⟩
  obtain ⟨m, hm⟩ := Option.isSome_iff_exists.mp hmarker
  simp [hdeaf, hm, hratio]

/-- The lanes that a pass over a list of them leaves. -/
theorem lane_foldl_updLane {f : Nat → Lane → Lane} {L : List Nat} (hnodup : L.Nodup) (s : State) (k : Nat) :
    lane (L.foldl (fun t l => updLane t l (f l)) s) k = if k ∈ L then f k (lane s k) else lane s k := by
  induction L generalizing s with
  | nil => rfl
  | cons a r ih =>
    obtain ⟨ha, hr⟩ := List.nodup_cons.mp hnodup
    rw [List.foldl_cons, ih hr]
    by_cases hka : k = a
    · subst hka
      rw [if_neg ha, if_pos List.mem_cons_self, updLane, lane_setLane_self]
    · rw [updLane, lane_setLane_ne _ _ _ _ (Ne.symm hka)]
      simp [hka]

theorem shape_foldl_updLane {f : Nat → Lane → Lane} (L : List Nat) (s : State) :
    shape (L.foldl (fun t l => updLane t l (f l)) s) = shape s :=
  foldl_keeps shape (fun t l => updLane t l (f l)) (fun _ _ => rfl) ..

/-- A change of a lane that leaves whether it failed. -/
theorem failed_updLane {f : Lane → Lane} (h : ∀ x, (f x).failed = x.failed) (s : State) (l k : Nat) :
    (lane (updLane s l f) k).failed = (lane s k).failed := by
  by_cases hk : l = k
  · subst hk
    rw [updLane, lane_setLane_self, h]
  · rw [updLane, lane_setLane_ne _ _ _ _ hk]

theorem shape_useOctet (s : State) (o : Nat) (f : OctetFit) : shape (useOctet s o f) = shape s := by
  unfold useOctet
  split
  · exact (shape_foldl_updLane _ _).trans rfl
  · rfl

theorem failed_foldl_updLane {f : Nat → Lane → Lane} (h : ∀ l x, (f l x).failed = x.failed) (L : List Nat) (s : State) (k : Nat) :
    (lane (L.foldl (fun t l => updLane t l (f l)) s) k).failed = (lane s k).failed :=
  congrFun (foldl_keeps (fun t k => (lane t k).failed) (fun t l => updLane t l (f l))
    (fun t l => funext fun k => failed_updLane (h l) t l k) L s) k

theorem failed_useOctet (s : State) (o : Nat) (f : OctetFit) (k : Nat) :
    (lane (useOctet s o f) k).failed = (lane s k).failed := by
  unfold useOctet
  split
  · exact (failed_foldl_updLane (by intro l x; rfl) _ _ k).trans rfl
  · rfl

theorem keepSetting_failed (st : Stage) (x : Lane) : (keepSetting st x).failed = x.failed := by
  cases st <;> rfl

/-- An octet whose lanes all passed works. -/
theorem checkOctet_works {s : State} {o : Nat} (h : ∀ l ∈ octetLanes o, (lane s l).failed = false) :
    checkOctet s o = .works none := by
  have hall : (octetLanes o).filter (fun l => !(lane s l).failed) = octetLanes o :=
    List.filter_eq_self.mpr fun l hl => by simp [h l hl]
  unfold checkOctet
  simp only [hall]
  rfl

/-- The state in which a window's lanes are counted. -/
def windowCounted (p : Nat) (counts : List LaneCount) (s : State) : State :=
  countAttempt ((portLanes s p).foldl (fun t l => updLane t l (checkLane (port s p).attempt.ratio counts l)) s) p

theorem windowCounted_passed {p : Nat} {counts : List LaneCount} {s : State} (h : WindowPassed s p counts) :
    ∀ l ∈ portLanes s p, (lane (windowCounted p counts s) l).failed = false := by
  intro l hl
  have hlane : lane (windowCounted p counts s) l = checkLane (port s p).attempt.ratio counts l (lane s l) :=
    (lane_foldl_updLane (portLanes_nodup s p) s l).trans (if_pos hl)
  rw [hlane]
  exact (checkLane_passed (h l hl)).2

theorem windowCounted_shape (p : Nat) (counts : List LaneCount) (s : State) :
    shape (windowCounted p counts s) = (besideShape s, s.ports, (bumpAt s 0x2000 0xB p).regs) := by
  have h := shape_foldl_updLane (f := checkLane (port s p).attempt.ratio counts) (portLanes s p) s
  unfold windowCounted countAttempt
  generalize (portLanes s p).foldl (fun t l => updLane t l (checkLane (port s p).attempt.ratio counts l)) s = u at *
  have hregs : u.regs = s.regs := congrArg (fun x => x.2.2) h
  refine Prod.ext ?_ (Prod.ext ?_ ?_)
  · exact (congrArg Prod.fst h :)
  · exact (congrArg (fun x => x.2.1) h :)
  · show (bumpAt u 0x2000 0xB p).regs = _
    simp only [bumpAt, bumpBy, setRegAt, regAt, hregs]

theorem windowCounted_octets (p : Nat) (counts : List LaneCount) (s : State) :
    (windowCounted p counts s).octets = s.octets :=
  foldl_keeps State.octets (fun t l => updLane t l (checkLane (port s p).attempt.ratio counts l)) (fun _ _ => rfl) ..

/-- The octets of a port whose lanes all passed are in use, and the lanes keep their settings. -/
def fitsTaken (p : Nat) (st : Stage) (fits : List (Nat × OctetFit)) (s : State) : State :=
  updLanes (fits.foldl (fun t f => useOctet t f.1 f.2) s) p fun _ y => keepSetting st y

theorem fitsTaken_shape (p : Nat) (st : Stage) (fits : List (Nat × OctetFit)) (s : State) :
    shape (fitsTaken p st fits s) = shape s :=
  (shape_foldl_updLane _ _).trans (foldl_keeps shape (fun t (f : Nat × OctetFit) => useOctet t f.1 f.2) (fun t f => shape_useOctet t f.1 f.2) ..)

theorem fitsTaken_failed (p : Nat) (st : Stage) (fits : List (Nat × OctetFit)) (s : State) (k : Nat) :
    (lane (fitsTaken p st fits s) k).failed = (lane s k).failed :=
  (failed_foldl_updLane (fun _ => keepSetting_failed st) _ _ k).trans
    (congrFun (foldl_keeps (fun t k => (lane t k).failed) (fun t (f : Nat × OctetFit) => useOctet t f.1 f.2)
      (fun t f => funext fun k => failed_useOctet t f.1 f.2 k) fits s) k)

theorem trainsFrames_of {x : Port} {st : Stage} (htrying : x.trying = some st) (hst : st ≠ .a) (htest : x.test = false) :
    trainsFrames x = true := by
  unfold trainsFrames
  cases st <;> simp_all

/-- The octets that a window decides on. -/
def windowFits (s : State) (p : Nat) : List (Nat × OctetFit) :=
  ((portOctets s p).filter fun o => (octet s o).state != 3).map fun o => (o, checkOctet s o)

theorem windowFits_good {s : State} {p : Nat} (h : ∀ l ∈ portLanes s p, (lane s l).failed = false) :
    (windowFits s p).filter (fun f => f.2 != .bad) = windowFits s p := by
  refine List.filter_eq_self.mpr fun f hf => ?_
  obtain ⟨o, ho, rfl⟩ := List.mem_map.mp hf
  have hlanes : ∀ l ∈ octetLanes o, (lane s l).failed = false := fun l hl =>
    h l (List.mem_flatten.mpr ⟨_, List.mem_map_of_mem (List.mem_of_mem_filter ho), hl⟩)
  rw [checkOctet_works hlanes]
  rfl

theorem windowFits_length {s : State} {p : Nat} (h : ∃ o ∈ portOctets s p, (octet s o).state ≠ 3) :
    (windowFits s p).length ≠ 0 ∧ (windowFits s p).length ≤ portWidth s p := by
  obtain ⟨o, ho, hstate⟩ := h
  unfold windowFits
  rw [List.length_map]
  refine ⟨(List.length_pos_of_mem (List.mem_filter.mpr ⟨ho, by simpa using hstate⟩)).ne', ?_⟩
  exact (List.length_filter_le ..).trans (by simp [portOctets])

/-- R320: at stage C every octet that passed is taken, and START begins. -/
theorem checkWindowEnd_passes {p since : Nat} {counts : List LaneCount} {s : State} (hstep : (port s p).stepAt = none)
    (hready : (port s p).readyAt = some since) (htrying : (port s p).trying = some .c) (htest : (port s p).test = false)
    (hshift : (port s p).shifting = none) (hstart : (port s p).starting = none)
    (hdue : since + 4000000 * (port s p).attempt.window ≤ s.clock) (hused : ∃ o ∈ portOctets s p, (octet s o).state ≠ 3)
    (hwidth : minWidth s p ≤ portWidth s p) (hpassed : WindowPassed s p counts) :
    ∃ fits, checkWindowEnd p counts s = beginStart (fitsTaken p .c fits (windowCounted p counts s)) p := by
  have hlanes := windowCounted_passed hpassed
  have hshape := windowCounted_shape p counts s
  have hblobs : (windowCounted p counts s).blobs = s.blobs := (congrArg (fun x => x.1.blobs) hshape :)
  have hoctets : (windowCounted p counts s).octets = s.octets := windowCounted_octets ..
  have hregs : (windowCounted p counts s).regs = (bumpAt s 0x2000 0xB p).regs := (congrArg (fun x => x.2.2) hshape :)
  have hmin : minWidth (windowCounted p counts s) p = minWidth s p := by
    rw [minWidth, regAt, hregs]
    exact regAt_bumpBy_ne _ _ _ _ _ _ _ _ (by unfold regKey; omega)
  have hwide : portWidth (windowCounted p counts s) p = portWidth s p := by simp only [portWidth, blob, blobAt, hblobs]
  have hocts : portOctets (windowCounted p counts s) p = portOctets s p := congrFun (portOctets_of_blobs hblobs) p
  obtain ⟨hsome, hfew⟩ := windowFits_length (s := windowCounted p counts s) (p := p)
    (by simpa only [hocts, octet, hoctets] using hused)
  have hgood := windowFits_good (s := windowCounted p counts s) (p := p) (by
    intro l hl
    exact hlanes l (mem_portLanes.mpr (hocts ▸ mem_portLanes.mp hl)))
  refine ⟨windowFits (windowCounted p counts s) p, ?_⟩
  unfold checkWindowEnd
  rw [if_neg (by simp [patternChecked, htest])]
  simp only [stepUp_none hstep, hready]
  rw [if_neg (by simp [trainsFrames_of htrying (by decide) htest, hshift, hstart, passed, msMt, hdue])]
  change (if ((windowFits (windowCounted p counts s) p).filter fun f => f.2 != .bad).length = 0 ∨
    ((windowFits (windowCounted p counts s) p).filter fun f => f.2 != .bad).length + (portWidth (windowCounted p counts s) p -
      (windowFits (windowCounted p counts s) p).length) < minWidth (windowCounted p counts s) p then _ else _) = _
  rw [hgood, if_neg (by rw [hmin, hwide] at *; omega)]
  simp only [htrying]
  exact if_neg (by rintro ⟨h, -⟩; cases h)

/-- What a passed window leaves. -/
theorem passedWindow_effect {p : Nat} {fits : List (Nat × OctetFit)} {counts : List LaneCount} {s t : State} (hp : p < 12)
    (hpassed : WindowPassed s p counts)
    (ht : t = beginStart (fitsTaken p .c fits (windowCounted p counts s)) p) :
    (port t p).starting = some (reg s 0x2500 8, s.clock) ∧ (port t p).trying = (port s p).trying ∧
      Counted 0x2000 0xB p s t ∧ (∀ l ∈ portLanes s p, (lane t l).failed = false) ∧
      t = { onlyPorts s t with regs := t.regs } := by
  have hshape := (fitsTaken_shape p .c fits (windowCounted p counts s)).trans (windowCounted_shape p counts s)
  have hfailed := fun l hl => (fitsTaken_failed p .c fits (windowCounted p counts s) l).trans (windowCounted_passed hpassed l hl)
  generalize fitsTaken p .c fits (windowCounted p counts s) = u at *
  have hports : u.ports = s.ports := congrArg (fun x => x.2.1) hshape
  have hregs : u.regs = (bumpAt s 0x2000 0xB p).regs := congrArg (fun x => x.2.2) hshape
  have hclock : u.clock = s.clock := (congrArg (fun x => x.1.clock) hshape :)
  have hlimit : reg u 0x2500 8 = reg s 0x2500 8 := by
    rw [reg, regAt, hregs]
    exact regAt_bumpBy_ne _ _ _ _ _ _ _ _ (by unfold regKey; omega)
  have hport : port t p = { port s p with starting := some (reg s 0x2500 8, s.clock) } := by
    rw [ht, beginStart, port_updPort, hlimit, hclock]
    simp only [port, hports]
  have hbeside : besideShape t = besideShape s := by
    rw [ht]
    exact congrArg Prod.fst hshape
  refine ⟨by rw [hport], by rw [hport], ?_, fun l hl => ?_, ?_⟩
  · rw [ht]
    show regAt u 0x2000 0xB p = _
    rw [regAt, hregs]
    rfl
  · rw [ht]
    exact hfailed l hl
  · calc t = { besideShape t with lanes := t.lanes, octets := t.octets, ports := t.ports, regs := t.regs } := rfl
      _ = _ := by rw [hbeside]; rfl

/-! ## A stage that ends by its limit, and stage A again (R322, R340) -/

/-- Everything of a state but the lanes and octets. -/
def besideWiring (s : State) : State := { s with lanes := [], octets := [] }

theorem besideWiring_restartLanes (s : State) (p : Nat) (off : Bool) : besideWiring (restartLanes s p off) = besideWiring s := by
  unfold restartLanes
  refine (foldl_keeps besideWiring _ (fun t o => ?_) ..).trans (foldl_keeps besideWiring _ (fun t l => ?_) ..)
  · rfl
  · rfl

/-- R340: a port that nothing holds off trains from stage A. -/
theorem releasePort_trains {s t : State} {p : Nat} (hopen : portOpen s p = true) (habsent : (port s p).state = .absent)
    (hwidth : 0 < portWidth s p) (hphase : s.phase = .running) (ht : t = releasePort s p) :
    (port t p).state = .training ∧ (port t p).trying = some .a ∧ t = onlyPorts s t ∧ ∀ q, q ≠ p → port t q = port s q := by
  have hrun : t = startTraining s p := by rw [ht, releasePort, if_pos ⟨hopen, habsent, hwidth, hphase⟩]
  set u := updPort s p fun x => { x with
    state := .training, stage := none, trying := some .a, tryAt := s.clock, attempt := attemptOf s .a,
    highest := reg s 0x2500 6, outcome := 0, check := 0, waitSignal := false } with hu
  have hbeside : besideWiring t = besideWiring u := by
    rw [hrun]
    exact besideWiring_restartLanes u p false
  have hports : t.ports = u.ports := (congrArg State.ports hbeside :)
  have hport : ∀ q, port t q = port u q := fun q => by simp only [port, hports]
  have hself : port u p = _ := port_updPort ..
  refine ⟨by rw [hport, hself], by rw [hport, hself], ?_, fun q hq => by rw [hport, hu, port_updPort_ne _ _ (Ne.symm hq)]⟩
  calc t = { besideWiring t with lanes := t.lanes, octets := t.octets, ports := t.ports } := rfl
    _ = _ := by rw [hbeside]; rfl

/-- A limit at a stage above A ends it by the begin of the stage below. -/
theorem stageTimeout_falls {p : Nat} {s : State} {hi lo : Stage} (hpair : (hi, lo) ∈ [(Stage.b, Stage.a), (.c, .b)])
    (hstep : (port s p).stepAt = none) (htrying : (port s p).trying = some hi) (htest : (port s p).test = false)
    (hshift : (port s p).shifting = none) (hstart : (port s p).starting = none)
    (hdue : (port s p).tryAt + 4000000 * (port s p).attempt.limit ≤ s.clock) :
    stageTimeout p s = streamBegins (countAttempt s p) p lo true := by
  unfold stageTimeout
  simp only [stepUp_none hstep, htrying]
  rw [if_neg (by simp [htest, hshift, hstart, passed, msMt, hdue])]
  simp only [List.mem_cons, Prod.mk.injEq, List.not_mem_nil, or_false] at hpair
  rcases hpair with ⟨rfl, rfl⟩ | ⟨rfl, rfl⟩ <;> rfl

theorem of_stageMarks {x : Port} {a b : Option Stage} {c : Option (Nat × Mt)} {d : Bool} {e : Option Mt}
    (h : stageMarks x = (a, b, c, d, e)) :
    x.stage = a ∧ x.trying = b ∧ x.starting = c ∧ x.stopped = d ∧ x.link.startFrom = e := by
  unfold stageMarks at h
  simpa using h

/-- Settles O43: the window that every lane passed, the checkers, START's countdown, and the limits. -/
theorem stagesEnd : Obligations.StagesEnd := by
  unfold Obligations.StagesEnd
  refine ⟨fun p counts s since hstep hready htrying htest hshift hstart hdue hused hwidth hpassed => ⟨_, rfl, ?_⟩,
    fun p counts s htest hon => ⟨_, rfl, checkWindowEnd_test p.isLt htest hon rfl⟩,
    fun p s st n since hstart htrying hshift hdue => ⟨_, rfl, ?_⟩, fun p s hstart => congrArg Host.Outcome.next ?_,
    fun p s st n since hstart htrying hearly => congrArg Host.Outcome.next ?_,
    fun p s hi lo hpair hstep htrying htest hshift hstart hdue => ⟨_, rfl, ?_⟩,
    fun p s habsent hsignal htest hdue hopen hwidth hphase => ⟨_, rfl, ?_⟩⟩ <;> beta_reduce
  · obtain ⟨fits, hrun⟩ := checkWindowEnd_passes hstep hready htrying htest hshift hstart hdue hused hwidth hpassed
    obtain ⟨hstarting, htrying', heffect⟩ := passedWindow_effect p.isLt hpassed hrun
    exact ⟨hstarting, htrying'.trans htrying, heffect⟩
  · have hrun : startCountdownEnd p s = streamBegins s p st false := by
      unfold startCountdownEnd
      simp only [hstart, htrying]
      rw [if_neg (by simp [countedDown, passed, hdue]), if_neg (by simp [hshift])]
    obtain ⟨hin, -, hmarks⟩ := streamBegins_marks s p st false
    obtain ⟨hstage, htrying', hstart', -, hfrom⟩ := of_stageMarks hmarks
    rw [hrun]
    exact ⟨hstage, htrying', hstart', hfrom, congrArg (fun x => x.2.1) hin, congrArg Prod.fst hin⟩
  · unfold startCountdownEnd
    simp only [hstart]
  · unfold startCountdownEnd
    simp only [hstart, htrying]
    exact if_pos (by simp [countedDown, passed, hearly])
  · obtain ⟨hin, hregs, hmarks⟩ := streamBegins_marks (countAttempt s p) p lo true
    obtain ⟨hstage, htrying', -, hstopped, -⟩ := of_stageMarks hmarks
    rw [stageTimeout_falls hpair hstep htrying htest hshift hstart hdue]
    have := p.isLt
    exact ⟨hstage, htrying', hstopped, hregs 0x2000 0xB p (by unfold regKey; omega), congrArg (fun x => x.2.1) hin,
      congrArg Prod.fst hin⟩
  · have hrun : stageARetry p s = releasePort s p :=
      if_pos ⟨habsent, by simp [hsignal], by simp [htest], decide_eq_true hdue⟩
    exact releasePort_trains hopen habsent hwidth hphase hrun

end Sys2Proof.Machine
end

section
/-! Codewords, and the lane management commands of both ends (R323, R325, R333, R334). -/

namespace Sys2Proof.Machine
open Sys2Proof

/-! ## Codewords (R325) -/

theorem octet_updOctet_self (s : State) (o : Nat) (f : Octet → Octet) : octet (updOctet s o f) o = f (octet s o) :=
  tgetD_tput_self ..

theorem octet_updLane (s : State) (l : Nat) (f : Lane → Lane) (o : Nat) : octet (updLane s l f) o = octet s o := rfl

/-- Everything of a state but the lanes and registers. -/
def besideCounts (s : State) : State := { s with lanes := [], regs := [] }

theorem of_besideCounts {s t : State} (h : besideCounts t = besideCounts s) : t = { s with lanes := t.lanes, regs := t.regs } := by
  calc t = { besideCounts t with lanes := t.lanes, regs := t.regs } := rfl
    _ = _ := by rw [h]; rfl

theorem symbolLane_lt (c e : Nat) : symbolLane c e < 256 := by
  unfold symbolLane
  omega

theorem carrier_lt {s : State} {o k : Nat} (ho : o < 12) (hk : k < 256) : carrier s o k < 1048576 := by
  unfold carrier octetLanes
  split
  · omega
  · cases hfind : ((List.range 9).map (9 * o + ·)).find? fun l => l % 9 != 8 && (lane s l).pos == k with
    | none => simp only [Option.getD_none]; omega
    | some l =>
      obtain ⟨i, hi, rfl⟩ := List.mem_map.mp (List.mem_of_find?_eq_some hfind)
      have := List.mem_range.mp hi
      simp only [Option.getD_some]
      omega

/-- The corrected symbols are counted at their lanes alone. -/
theorem countSymbols_keeps (s : State) {o : Nat} (c : Nat) (errs : List Nat) {i j k : Nat} (ho : o < 12)
    (h : regKey 0x2200 0 0 ≤ regKey i j k) :
    besideCounts (countSymbols s o c errs) = besideCounts s ∧ regAt (countSymbols s o c errs) i j k = regAt s i j k := by
  unfold countSymbols
  refine ⟨?_, ?_⟩
  · refine foldl_keeps besideCounts _ (fun t e => ?_) _ _
    rfl
  · refine foldl_keeps (fun t => regAt t i j k) _ (fun t e => ?_) _ _
    have := carrier_lt (s := t) ho (symbolLane_lt c e)
    exact regAt_bumpBy_ne _ _ _ _ _ _ _ _ (by unfold regKey at *; omega)

theorem of_besideWiring {s t : State} (h : besideWiring t = besideWiring s) : t = { s with lanes := t.lanes, octets := t.octets } := by
  calc t = { besideWiring t with lanes := t.lanes, octets := t.octets } := rfl
    _ = _ := by rw [h]; rfl

/-- R325: a codeword that is corrected. -/
theorem corrected_effect {s t : State} {o : Nat} (c : Nat) (errs : List Nat) (ho : o < 12)
    (ht : t = countSymbols (bumpAt s 0x2200 3 o) o c errs) :
    Counted 0x2200 3 o s t ∧ t = { s with lanes := t.lanes, regs := t.regs } := by
  obtain ⟨hbeside, hcount⟩ := countSymbols_keeps (bumpAt s 0x2200 3 o) (i := 0x2200) (j := 3) (k := o) c errs ho
    (by unfold regKey; omega)
  rw [← ht] at hbeside hcount
  exact ⟨hcount, of_besideCounts hbeside⟩

/-- R325: the lanes' flags, and the codeword's count and report. -/
theorem flagLanes_keeps (s : State) {o : Nat} (ho : o < 12) : Counted 0x2200 4 o s (flagLanes s o) ∧
    flagLanes s o = { s with lanes := (flagLanes s o).lanes, regs := (flagLanes s o).regs, faults := (flagLanes s o).faults } := by
  unfold flagLanes
  dsimp only
  generalize hhit : (octetLanes o).filter _ = hit
  set u := hit.foldl (fun t l => updLane t l fun x => { x with flagged := true, flagFrame := true }) s with hu
  have hkept : besideWiring u = besideWiring s :=
    foldl_keeps besideWiring (fun t l => updLane t l fun x => { x with flagged := true, flagFrame := true }) (fun _ _ => rfl) ..
  have hoctets : u.octets = s.octets :=
    foldl_keeps State.octets (fun t l => updLane t l fun x => { x with flagged := true, flagFrame := true }) (fun _ _ => rfl) ..
  have hregs : u.regs = s.regs := (congrArg State.regs hkept :)
  generalize ((hit.map fun l => 2 ^ (l % 9)).foldl (· + ·) 0) = mask
  have hreported := reported_report (bumpAt u 0x2200 4 o) 1 o 1 mask
  refine ⟨?_, ?_⟩
  · unfold Counted
    rw [regAt_report_below (by unfold regKey; omega)]
    exact regAt_bumpAt_congr (by rw [regAt, regAt, hregs])
  · rw [hreported]
    have : u = { s with lanes := u.lanes } := by
      calc u = { besideWiring u with lanes := u.lanes, octets := u.octets } := rfl
        _ = _ := by rw [hkept, hoctets]; rfl
    rw [this]
    rfl

/-- R325: a codeword that cannot be corrected. -/
theorem lost_effect {s t : State} {o c : Nat} (ho : o < 12) (ht : t = markWord (flagLanes s o) o c) :
    Counted 0x2200 4 o s t ∧ ((octet s o).frame, c) ∈ (octet t o).badWords ∧
      t = { s with lanes := t.lanes, octets := t.octets, regs := t.regs, faults := t.faults } := by
  obtain ⟨hcount, hkeeps⟩ := flagLanes_keeps s ho
  generalize flagLanes s o = u at *
  have hoctets : u.octets = s.octets := (congrArg State.octets hkeeps :)
  subst ht
  refine ⟨hcount, ?_, ?_⟩
  · rw [markWord, octet_updOctet_self]
    simp [octet, hoctets]
  · rw [markWord, hkeeps]
    rfl

/-- What a codeword of an octet in use, not the last of its frame, does by what its decoder finds (R323, R325). -/
theorem codewordDecode_decoded {o c p : Nat} {symbols : List (BitVec 10)} {s : State} (hport : octetPort s o = some p)
    (hfec : runsFec (port s p) = true) (hstate : (octet s o).state = 0 ∨ (octet s o).state = 1) (hlen : symbols.length = 240)
    (hc : c ≠ 3) :
    (rsErrors (symbols.map BitVec.toNat) = some [] → codewordDecode o c symbols s = s) ∧
    (∀ e r, rsErrors (symbols.map BitVec.toNat) = some (e :: r) →
      codewordDecode o c symbols s = countSymbols (bumpAt s 0x2200 3 o) o c (e :: r)) ∧
    (rsErrors (symbols.map BitVec.toNat) = none → codewordDecode o c symbols s = markWord (flagLanes s o) o c) := by
  have hoff : ¬(!runsFec (port s p) ∨ ¬((octet s o).state = 0 ∨ (octet s o).state = 1) ∨ symbols.length ≠ 240) := by
    simp [hfec, hstate, hlen]
  refine ⟨fun h => ?_, fun e r h => ?_, fun h => ?_⟩ <;>
  · unfold codewordDecode
    simp only [hport, h]
    rw [if_neg hoff, if_neg hc]

/-! ## Commands of the peer (R333, R334, R336) -/

theorem peerLmc_accepts {p cmd : Nat} {arg : BitVec 8} {s : State} (h : PeerMayCommand s p cmd arg) :
    peerLmc p cmd arg s = acceptLmc s p cmd arg := by
  obtain ⟨hfec, hworks, hknown, hfree⟩ := h
  unfold peerLmc
  simp only [hfree]
  exact if_neg (by simp [hfec, hworks, hknown])

/-- A command of the peer in progress from now on. -/
def peerCommand (cmd : Nat) (arg : BitVec 8) (count : Nat) (now : Mt) : Lmc :=
  { cmd := cmd, arg := arg, own := false, at_ := now, acked := true, tx := some (count, now), rx := none, txDone := false, rxDone := false }

/-- A port that took a command of the peer. -/
def commandTaken (cmd : Nat) (arg : BitVec 8) (count : Nat) (now : Mt) (x : Port) : Port :=
  { x with peerCeil := if cmd = 3 then arg.toNat else x.peerCeil, lmc := some (peerCommand cmd arg count now) }

theorem acceptLmc_acks {s : State} {p cmd : Nat} {arg : BitVec 8} (h : refusesLmc s p cmd arg = false)
    (hfree : (port s p).lmc = none) : acceptLmc s p cmd arg =
      emit (if cmd = 1 then spareTx (updPort s p (commandTaken cmd arg (reg s 0x2500 8) s.clock)) p arg true false
        else updPort s p (commandTaken cmd arg (reg s 0x2500 8) s.clock)) (.lane p 5 (BitVec.ofNat 8 cmd) (reg s 0x2500 8)) := by
  unfold acceptLmc
  rw [if_neg (by simp [h])]
  simp only [hfree]
  rfl

/-- SP carries the position from now on, beside the lane whose position it is. -/
theorem spareTx_carries (s : State) {p o : Nat} {arg : BitVec 8} (ho : argOctet s p arg = some o) (switched : Bool) :
    (octet (spareTx s p arg true switched) o).txSpare = some (arg.toNat % 16) ∧
    (octet (spareTx s p arg true switched) o).txFreed = switched ∧
    besideWiring (spareTx s p arg true switched) = besideWiring s := by
  unfold spareTx settleOctet
  simp only [ho]
  refine ⟨?_, ?_, rfl⟩
  · rw [octet_updLane, octet_updOctet_self, octet_updOctet_self]
    rfl
  · rw [octet_updLane, octet_updOctet_self, octet_updOctet_self]
    rfl

/-- R334, R336: what an acknowledged command of the peer leaves. -/
theorem acceptLmc_effect {s t : State} {p cmd : Nat} {arg : BitVec 8} (hknown : argKnown s p cmd arg = true)
    (h : refusesLmc s p cmd arg = false) (hfree : (port s p).lmc = none) (ht : t = acceptLmc s p cmd arg) :
    t.out = s.out ++ [.lane p 5 (BitVec.ofNat 8 cmd) (reg s 0x2500 8)] ∧
      port t p = commandTaken cmd arg (reg s 0x2500 8) s.clock (port s p) ∧
      (cmd = 1 → ∃ o, argOctet s p arg = some o ∧ (octet t o).txSpare = some (arg.toNat % 16)) ∧
      (cmd ≠ 1 → t.octets = s.octets ∧ t.lanes = s.lanes) ∧ t = { onlyPorts s t with out := t.out } ∧
      ∀ q, q ≠ p → port t q = port s q := by
  rw [acceptLmc_acks h hfree] at ht
  set u := updPort s p (commandTaken cmd arg (reg s 0x2500 8) s.clock) with hu
  have hself : port u p = commandTaken cmd arg (reg s 0x2500 8) s.clock (port s p) := port_updPort ..
  have hothers : ∀ q, q ≠ p → port u q = port s q := fun q hq => port_updPort_ne _ _ (Ne.symm hq)
  by_cases hcmd : cmd = 1
  · rw [if_pos hcmd] at ht
    obtain ⟨o, ho⟩ := Option.isSome_iff_exists.mp (show (argOctet s p arg).isSome = true by
      unfold argKnown at hknown
      rw [if_pos (Or.inl hcmd), Bool.and_eq_true] at hknown
      exact hknown.1)
    obtain ⟨hspare, -, hbeside⟩ := spareTx_carries u (p := p) (arg := arg) ho false
    generalize spareTx u p arg true false = v at ht hspare hbeside
    have hports : ∀ q, port v q = port u q := fun q => by
      rw [port, port, show v.ports = u.ports from (congrArg State.ports hbeside :)]
    subst ht
    refine ⟨?_, (hports p).trans hself, fun _ => ⟨o, ho, hspare⟩, fun hne => absurd hcmd hne, ?_,
      fun q hq => (hports q).trans (hothers q hq)⟩
    · exact congrArg (· ++ _) (congrArg State.out hbeside :)
    · rw [of_besideWiring hbeside]
      rfl
  · rw [if_neg hcmd] at ht
    subst ht
    exact ⟨rfl, hself, fun h => absurd h hcmd, fun _ => ⟨rfl, rfl⟩, rfl, hothers⟩

/-- A command that ends with none waiting is the last. -/
theorem nextLmc_last {s : State} {p : Nat} (h : (port s p).lmcQ = []) :
    nextLmc s p = setPort s p { port s p with lmc := none } := by
  unfold nextLmc
  dsimp only
  split
  · rfl
  · rename_i hq
    rw [h] at hq
    cases hq

/-- What an ACK of an own command leaves. -/
theorem ackLmc_own {s t : State} {p cd : Nat} {arg : BitVec 8} {m : Lmc} (hm : (port s p).lmc = some m) (hown : m.own = true)
    (hacked : m.acked = false) (hcmd : m.cmd = arg.toNat) (hrx : m.rx = none) (hdone : m.rxDone = false)
    (ht : t = ackLmc p arg cd s) :
    (port t p).lmc = some { m with acked := true, rx := some (cd, s.clock),
                                   tx := if bothWays m.cmd then some (reg s 0x2500 8, s.clock) else m.tx } ∧
      t.out = s.out ++ (if bothWays m.cmd then [.lane p 5 arg (reg s 0x2500 8)] else []) ∧
      t = { s with ports := t.ports, out := t.out } ∧ ∀ q, q ≠ p → port t q = port s q := by
  have hothers : ∀ x q, q ≠ p → port (setPort s p x) q = port s q := fun x q hq => port_setPort_ne _ _ _ _ (Ne.symm hq)
  unfold ackLmc at ht
  simp only [hm] at ht
  rw [if_neg (by simp [hcmd, hrx, hdone]), if_pos ⟨hown, by simp [hacked]⟩] at ht
  cases hboth : bothWays m.cmd with
  | true =>
    rw [hboth, if_pos rfl] at ht
    subst ht
    refine ⟨?_, rfl, rfl, hothers _⟩
    show (port (setPort s p _) p).lmc = _
    rw [port_setPort_self, if_pos rfl]
  | false =>
    rw [hboth, if_neg (by decide)] at ht
    subst ht
    refine ⟨?_, (List.append_nil _).symm, rfl, hothers _⟩
    rw [port_setPort_self, if_neg (by decide)]

/-- Settles O44: the codeword by what its decoder finds, and each command by its branch. -/
theorem codewordsAndLaneCommands : Obligations.CodewordsAndLaneCommands := by
  unfold Obligations.CodewordsAndLaneCommands
  refine ⟨fun o c symbols s p hport hfec hstate hlen hc => ⟨_, rfl, ?_⟩, fun p arg s i cmd hi hmay hrefuses => ?_,
    fun p arg s i cmd hi hmay hrefuses => ?_, fun p arg cd s m hm hown hacked hcmd hrx hdone => ⟨_, rfl, ?_⟩,
    fun p arg cd s m hm hown hboth hcmd hrx hdone => congrArg Host.Outcome.next ?_,
    fun p arg s m i hm hown hacked hq hi => ?_⟩
  · beta_reduce
    obtain ⟨hsound, hcorrected, hlost⟩ := codewordDecode_decoded (c := c) hport hfec hstate hlen hc
    split
    · rename_i h
      exact hsound h
    · rename_i errs hne h
      cases errs with
      | nil => exact absurd rfl hne
      | cons e r =>
        exact corrected_effect c (e :: r) o.isLt (hcorrected e r h)
    · rename_i h
      exact lost_effect o.isLt (hlost h)
  · have hrun : exec i s = .next (acceptLmc s p cmd arg) := by
      rw [← peerLmc_accepts hmay]
      simp only [List.mem_cons, Prod.mk.injEq, List.not_mem_nil, or_false] at hi
      rcases hi with ⟨rfl, rfl⟩ | ⟨rfl, rfl⟩ | ⟨rfl, rfl⟩ | ⟨rfl, rfl⟩ <;> rfl
    refine ⟨_, hrun, ?_⟩
    obtain ⟨-, -, hknown, hfree⟩ := hmay
    obtain ⟨hout, hport, hspare, hwiring, honly, hothers⟩ := acceptLmc_effect hknown hrefuses hfree rfl
    rw [hport]
    exact ⟨hout, rfl, fun h => if_pos h, hspare, hwiring, honly, hothers⟩
  · have hrun : exec i s = .next (acceptLmc s p cmd arg) := by
      rw [← peerLmc_accepts hmay]
      simp only [List.mem_cons, Prod.mk.injEq, List.not_mem_nil, or_false] at hi
      rcases hi with ⟨rfl, rfl⟩ | ⟨rfl, rfl⟩ <;> rfl
    rw [hrun, acceptLmc, if_pos hrefuses]
  · exact ackLmc_own hm hown hacked hcmd hrx hdone rfl
  · show ackLmc p arg cd.toNat s = _
    unfold ackLmc
    simp only [hm]
    rw [if_neg (by simp [hcmd, hrx, hdone]), if_neg (by simp [hown]), if_pos (by simp [hown, hboth])]
  · rw [← nextLmc_last hq]
    rcases hi with ⟨rfl, hcmd⟩ | ⟨rfl, hdue⟩
    · refine congrArg Host.Outcome.next ?_
      unfold refuseLmc
      simp only [hm]
      exact if_pos ⟨hown, by simp [hacked], hcmd⟩
    · refine congrArg Host.Outcome.next ?_
      unfold lmcRepeatTimeout
      simp only [hm]
      exact if_pos ⟨hown, by simp [hacked], decide_eq_true hdue⟩

end Sys2Proof.Machine
end

section
/-! The switch frames of lane management commands, and the shift's limit (R334 to R339). -/

namespace Sys2Proof.Machine
open Sys2Proof

/-! ## The octets that can be in use -/

/-- Whether an octet works, in use or not. -/
def octetWorks (s : State) (o : Nat) : Bool := [0, 1, 3].contains (octet s o).state

theorem octetWorks_turnOctet {s : State} {o : Nat} (ho : octetWorks s o = true) (on : Bool) :
    octetWorks (turnOctet s o on) = octetWorks s := by
  have hlanes : (turnOctet s o on).octets = (updOctet s o fun x => { x with state := if on then inUse x else 3 }).octets :=
    foldl_keeps State.octets (fun t l => updLane t l (octetLane on l)) (fun _ _ => rfl) ..
  funext k
  by_cases hk : o = k
  · subst hk
    have hstate : (octet (turnOctet s o on) o).state = if on then inUse (octet s o) else 3 := by
      rw [octet, hlanes]
      exact congrArg Octet.state (octet_updOctet_self ..)
    rw [ho, octetWorks, hstate]
    cases on with
    | false => rfl
    | true => rw [if_pos rfl]; unfold inUse; split <;> rfl
  · have hstate : octet (turnOctet s o on) k = octet s k := by
      rw [octet, hlanes, updOctet, setOctet, tgetD_tput_ne _ _ _ _ _ hk, octet]
    rw [octetWorks, hstate, octetWorks]

theorem octetWorks_foldl_turnOctet (on : Nat → Bool) (L : List Nat) (s : State) (h : ∀ o ∈ L, octetWorks s o = true) :
    octetWorks (L.foldl (fun t o => turnOctet t o (on o)) s) = octetWorks s := by
  induction L generalizing s with
  | nil => rfl
  | cons a r ih =>
    have ha := octetWorks_turnOctet (h a List.mem_cons_self) (on a)
    rw [List.foldl_cons, ih _ fun o ho => by rw [ha]; exact h o (List.mem_cons_of_mem _ ho), ha]

theorem octetWorks_turnOctets (s : State) (p : Nat) : octetWorks (turnOctets s p) = octetWorks s :=
  octetWorks_foldl_turnOctet (fun o => ((port s p).txOcts ++ (port s p).rxOcts).contains o) _ s
    fun _ ho => (List.mem_filter.mp ho).2

theorem octetWorks_refreshXoff (s : State) (p : Nat) : octetWorks (refreshXoff s p) = octetWorks s := by
  unfold refreshXoff
  dsimp only
  split
  · rfl
  · funext o
    rw [octetWorks, (sends_sendStatus ..).states]
    rfl

theorem octetWorks_withHeadroom {s : State} {p : Nat} {f : State → State} (h : octetWorks (f s) = octetWorks s) :
    octetWorks (withHeadroom s p f) = octetWorks s := by
  unfold withHeadroom
  dsimp only
  split
  · have hoctets : (reportShort (f s) p (shortShares s p)).octets = (f s).octets :=
      (congrArg State.octets (reported_reportShort (f s) p (shortShares s p)) :)
    rw [octetWorks_refreshXoff, ← h]
    funext o
    simp only [octetWorks, octet, hoctets]
  · exact h

theorem octetWorks_foldl_updOctet {f : Octet → Octet} (hf : ∀ x, (f x).state = x.state) (L : List Nat) (s : State) :
    octetWorks (L.foldl (fun t o => updOctet t o f) s) = octetWorks s :=
  foldl_keeps octetWorks (fun t o => updOctet t o f)
    (fun t o => funext fun k => by rw [octetWorks, (Sends.updOctet hf t o).states, octetWorks]) ..

theorem octetWorks_widthRx (s : State) (p : Nat) : octetWorks (widthRx s p) = octetWorks s := by
  unfold widthRx
  dsimp only
  split
  · exact octetWorks_turnOctets ..
  · rw [octetWorks_turnOctets]
    refine (octetWorks_withHeadroom ?_).trans (octetWorks_foldl_updOctet (fun _ => ?_) ..)
    · rfl
    · rfl

/-! ## A WIDTH in each direction -/

/-- A command, those that wait, and the two ceilings. -/
def commandMarks (x : Port) : Option Lmc × List (Nat × BitVec 8) × Nat × Nat := (x.lmc, x.lmcQ, x.ceiling, x.peerCeil)

/-- What a change of the transmit direction leaves, and of the receive direction. -/
def besideTx (x : Port) : (List Nat × Nat) × Option Lmc × List (Nat × BitVec 8) × Nat × Nat := ((x.rxOcts, x.rxWidth), commandMarks x)
def besideRx (x : Port) : (List Nat × Nat) × Option Lmc × List (Nat × BitVec 8) × Nat × Nat := ((x.txOcts, x.txWidth), commandMarks x)

theorem besideTx_of_portBody {x y : Port} (h : portBody x = portBody y) : besideTx x = besideTx y := (congrArg besideTx h :)
theorem besideRx_of_portBody {x y : Port} (h : portBody x = portBody y) : besideRx x = besideRx y := (congrArg besideRx h :)

theorem blind_besideTx : Blind besideTx := ⟨besideTx_of_portBody, fun _ _ _ => rfl, fun _ _ _ => rfl⟩
theorem blind_besideRx : Blind besideRx := ⟨besideRx_of_portBody, fun _ _ _ => rfl, fun _ _ _ => rfl⟩

theorem widthTx_octets (s : State) (p : Nat) : (port (widthTx s p) p).txOcts = octetsFor s p ∧
    ((port s p).txOcts ≠ octetsFor s p → (port (widthTx s p) p).txWidth = (octetsFor s p).length) := by
  unfold widthTx
  dsimp only
  split
  · rename_i h
    have hkept := (streams_turnOctets blind_besideRx s p).marks p
    exact ⟨(congrArg (fun x => x.1.1) hkept).trans h.symm, fun hne => absurd h.symm hne⟩
  · set u := updPort (accrue (completeFrames s p) p) p fun x => { x with
      txWidth := (octetsFor s p).length, txOcts := octetsFor s p, txBlock := 0, streamFrom := s.clock } with hu
    have hport : (port u p).txOcts = octetsFor s p ∧ (port u p).txWidth = (octetsFor s p).length := by
      rw [hu, port_updPort]
      exact ⟨rfl, rfl⟩
    have hkept : besideRx (port (tellStripe (turnOctets u p) p) p) = besideRx (port u p) :=
      ((Streams.of_stores blind_besideRx (stores_tellStripe ..)).after (streams_turnOctets blind_besideRx u p)).marks p
    generalize tellStripe (turnOctets u p) p = v at hkept
    exact ⟨(congrArg (fun x => x.1.1) hkept).trans hport.1, fun _ => (congrArg (fun x => x.1.2) hkept).trans hport.2⟩

theorem widthRx_octets (s : State) (p : Nat) : (port (widthRx s p) p).rxOcts = octetsFor s p ∧
    ((port s p).rxOcts ≠ octetsFor s p → (port (widthRx s p) p).rxWidth = (octetsFor s p).length) := by
  unfold widthRx
  dsimp only
  split
  · rename_i h
    have hkept := (streams_turnOctets blind_besideTx s p).marks p
    exact ⟨(congrArg (fun x => x.1.1) hkept).trans h.symm, fun hne => absurd h.symm hne⟩
  · set s1 := (octetsFor s p).foldl (fun t o => updOctet t o fun x => { x with frame := 0, badWords := [] }) s with hs1
    set f := fun t => updPort t p fun x => { x with rxWidth := (octetsFor s p).length, rxOcts := octetsFor s p } with hf
    have hport : (port (f s1) p).rxOcts = octetsFor s p ∧ (port (f s1) p).rxWidth = (octetsFor s p).length := by
      rw [hf]
      beta_reduce
      rw [port_updPort]
      exact ⟨rfl, rfl⟩
    have hroom : besideTx (port (withHeadroom s1 p f) p) = besideTx (port (f s1) p) :=
      besideTx_of_portBody ((withHeadroom_keeps s1 p f).2.2 p)
    have hkept := ((streams_turnOctets blind_besideTx (withHeadroom s1 p f) p).marks p).trans hroom
    generalize turnOctets (withHeadroom s1 p f) p = v at hkept
    exact ⟨(congrArg (fun x => x.1.1) hkept).trans hport.1, fun _ => (congrArg (fun x => x.1.2) hkept).trans hport.2⟩

theorem octetsFor_congr {s t : State} {p : Nat} (hblobs : t.blobs = s.blobs) (hworks : octetWorks t = octetWorks s)
    (hmarks : commandMarks (port t p) = commandMarks (port s p)) : octetsFor t p = octetsFor s p := by
  have hoctets : workingOctets t p = workingOctets s p := by
    unfold workingOctets
    rw [portOctets_of_blobs hblobs]
    exact List.filter_congr fun o _ => congrFun hworks o
  have hceil : (port t p).ceiling = (port s p).ceiling := congrArg (fun x => x.2.2.1) hmarks
  have hpeer : (port t p).peerCeil = (port s p).peerCeil := congrArg (fun x => x.2.2.2) hmarks
  unfold octetsFor usableWidth
  rw [hoctets, hceil, hpeer]

/-! ## The switch frame (R334) -/

theorem counted_of {s : State} {p : Nat} {c : Option (Nat × Mt)} (h : CountedDown s p c) : counted s p c = true := by
  obtain ⟨n, since, rfl, hdue⟩ := h
  exact decide_eq_true hdue

theorem counted_none (s : State) (p : Nat) : counted s p none = false := rfl

theorem originateDrift_none {s : State} (h : s.colls = []) : originateDrift s = s := by
  unfold originateDrift
  rw [h]
  rfl

/-- The command after a switch frame. -/
def switched (m : Lmc) (tx rx : Bool) : Lmc :=
  { m with txDone := m.txDone || tx, rxDone := m.rxDone || rx, tx := if tx then none else m.tx, rx := if rx then none else m.rx }

theorem noteSwitched_over {s : State} {p : Nat} {m : Lmc} {tx rx : Bool} (hm : (port s p).lmc = some m)
    (hover : lmcOver (switched m tx rx) = true) (hq : (port s p).lmcQ = []) :
    noteSwitched s p tx rx = setPort s p { port s p with lmc := none } := by
  unfold noteSwitched
  simp only [hm]
  exact (if_pos hover).trans (nextLmc_last hq)

theorem noteSwitched_waits {s : State} {p : Nat} {m : Lmc} {tx rx : Bool} (hm : (port s p).lmc = some m)
    (hover : lmcOver (switched m tx rx) = false) :
    noteSwitched s p tx rx = updPort s p fun x => { x with lmc := some (switched m tx rx) } := by
  unfold noteSwitched
  simp only [hm]
  exact if_neg (by rw [← switched, hover]; decide)

theorem switchFrame_both {s : State} {p : Nat} {m : Lmc} (hm : (port s p).lmc = some m) (htx : counted s p m.tx = true)
    (hrx : counted s p m.rx = true) :
    switchFrame p s = originateDrift (noteSwitched (switchTx (switchRx s p m) p m) p true true) := by
  unfold switchFrame
  simp only [hm, htx, hrx]
  rfl

theorem switchFrame_tx {s : State} {p : Nat} {m : Lmc} (hm : (port s p).lmc = some m) (htx : counted s p m.tx = true)
    (hrx : counted s p m.rx = false) : switchFrame p s = originateDrift (noteSwitched (switchTx s p m) p true false) := by
  unfold switchFrame
  simp only [hm, htx, hrx]
  rfl

theorem switchFrame_rx {s : State} {p : Nat} {m : Lmc} (hm : (port s p).lmc = some m) (htx : counted s p m.tx = false)
    (hrx : counted s p m.rx = true) : switchFrame p s = originateDrift (noteSwitched (switchRx s p m) p false true) := by
  unfold switchFrame
  simp only [hm, htx, hrx]
  rfl

theorem switchTx_width {m : Lmc} (h : m.cmd = 3) (s : State) (p : Nat) : switchTx s p m = widthTx s p := by
  unfold switchTx
  rw [if_neg (by omega), if_pos h]

theorem switchRx_width {m : Lmc} (h : m.cmd = 3) (s : State) (p : Nat) : switchRx s p m = widthRx s p := by
  unfold switchRx
  rw [if_neg (by omega), if_pos h]

theorem streams_switchTx {m : Lmc} (h : m.cmd = 3) (s : State) (p : Nat) : Streams besideTx s (switchTx s p m) := by
  rw [switchTx_width h]
  exact streams_widthTx blind_besideTx (fun _ _ _ _ _ => rfl) ..

theorem streams_switchRx {m : Lmc} (h : m.cmd = 3) (s : State) (p : Nat) : Streams besideRx s (switchRx s p m) := by
  rw [switchRx_width h]
  exact streams_widthRx blind_besideRx (fun _ _ _ => rfl) ..

/-- R338: a WIDTH whose two countdowns have passed. -/
theorem switchFrame_width {s t : State} {p : Nat} {m : Lmc} (hm : (port s p).lmc = some m) (hcmd : m.cmd = 3)
    (hq : (port s p).lmcQ = []) (htx : CountedDown s p m.tx) (hrx : CountedDown s p m.rx) (hcolls : s.colls = [])
    (ht : t = switchFrame p s) :
    (port t p).txOcts = octetsFor s p ∧ (port t p).rxOcts = octetsFor s p ∧
      ((port s p).txOcts ≠ octetsFor s p → (port t p).txWidth = (octetsFor s p).length) ∧
      ((port s p).rxOcts ≠ octetsFor s p → (port t p).rxWidth = (octetsFor s p).length) ∧
      (port t p).lmc = none ∧ t.mem = s.mem ∧ t.ctxs = s.ctxs := by
  rw [switchFrame_both hm (counted_of htx) (counted_of hrx)] at ht
  obtain ⟨hrxOcts, hrxWidth⟩ := widthRx_octets s p
  have hsrx := streams_switchRx hcmd s p
  have hworks := octetWorks_widthRx s p
  rw [← switchRx_width hcmd] at hrxOcts hrxWidth hworks
  generalize switchRx s p m = u at *
  have hrxKept := hsrx.marks p
  have hfor : octetsFor u p = octetsFor s p := octetsFor_congr hsrx.blobs hworks (congrArg Prod.snd hrxKept)
  obtain ⟨htxOcts, htxWidth⟩ := widthTx_octets u p
  have hstx := streams_switchTx hcmd u p
  rw [← switchTx_width hcmd, hfor] at htxOcts htxWidth
  generalize switchTx u p m = v at *
  have htxKept := hstx.marks p
  have hmarks : commandMarks (port v p) = commandMarks (port s p) := (congrArg Prod.snd htxKept).trans (congrArg Prod.snd hrxKept)
  rw [noteSwitched_over ((congrArg Prod.fst hmarks).trans hm) (by simp [lmcOver, switched])
    ((congrArg (fun x => x.2.1) hmarks).trans hq), originateDrift_none] at ht
  · have hport : port t p = { port v p with lmc := none } := by rw [ht, port_setPort_self]
    have hin : inside t = inside s := by
      rw [ht]
      exact hstx.inside.trans hsrx.inside
    rw [hport]
    exact ⟨htxOcts, (congrArg (fun x => x.1.1) htxKept).trans hrxOcts,
      fun hne => htxWidth (by rw [show (port u p).txOcts = (port s p).txOcts from congrArg (fun x => x.1.1) hrxKept]; exact hne),
      fun hne => (congrArg (fun x => x.1.2) htxKept).trans (hrxWidth hne), rfl, congrArg (fun x => x.2.1) hin, congrArg Prod.fst hin⟩
  · exact (congrArg (fun x => x.2.2) (hstx.inside.trans hsrx.inside)).trans hcolls

/-- R338: a WIDTH whose transmit countdown has passed, with the peer's ACK to come. -/
theorem switchFrame_widthTx {s t : State} {p : Nat} {m : Lmc} (hm : (port s p).lmc = some m) (hcmd : m.cmd = 3)
    (htx : CountedDown s p m.tx) (hrx : m.rx = none) (hdone : m.rxDone = false) (hcolls : s.colls = [])
    (ht : t = switchFrame p s) :
    (port t p).txOcts = octetsFor s p ∧ (port t p).rxOcts = (port s p).rxOcts ∧
      (port t p).lmc = some { m with tx := none, txDone := true } ∧ t.mem = s.mem ∧ t.ctxs = s.ctxs := by
  rw [switchFrame_tx hm (counted_of htx) (by rw [hrx]; rfl)] at ht
  obtain ⟨htxOcts, -⟩ := widthTx_octets s p
  have hstx := streams_switchTx hcmd s p
  rw [← switchTx_width hcmd] at htxOcts
  generalize switchTx s p m = v at *
  have htxKept := hstx.marks p
  have hlmc : (port v p).lmc = some m := (congrArg (fun x => x.2.1) htxKept).trans hm
  rw [noteSwitched_waits hlmc (by simp [lmcOver, switched, hdone, bothWays, hcmd]), originateDrift_none] at ht
  · have hport : port t p = { port v p with lmc := some (switched m true false) } := by rw [ht, port_updPort]
    have hin : inside t = inside s := by
      rw [ht]
      exact hstx.inside
    rw [hport]
    refine ⟨htxOcts, congrArg (fun x => x.1.1) htxKept, ?_, congrArg (fun x => x.2.1) hin, congrArg Prod.fst hin⟩
    simp [switched]
  · exact (congrArg (fun x => x.2.2) hstx.inside).trans hcolls

/-- A change of octets and lanes alone leaves the ports. -/
theorem port_of_besideWiring {s t : State} (h : besideWiring t = besideWiring s) (q : Nat) : port t q = port s q := by
  rw [port, port, show t.ports = s.ports from (congrArg State.ports h :)]

/-- A command whose one direction changed octets and lanes alone is over. -/
theorem switched_over {s v t : State} {p : Nat} {m : Lmc} {tx rx : Bool} (hv : besideWiring v = besideWiring s)
    (hm : (port s p).lmc = some m) (hover : lmcOver (switched m tx rx) = true) (hq : (port s p).lmcQ = []) (hcolls : s.colls = [])
    (ht : t = originateDrift (noteSwitched v p tx rx)) :
    t.octets = v.octets ∧ (port t p).lmc = none ∧ t = onlyPorts s t := by
  have hport := port_of_besideWiring hv p
  rw [noteSwitched_over (by rw [hport, hm]) hover (by rw [hport, hq]), originateDrift_none] at ht
  · subst ht
    refine ⟨rfl, by rw [port_setPort_self], ?_⟩
    rw [of_besideWiring hv]
    rfl
  · exact (show v.colls = s.colls from (congrArg State.colls hv :)).trans hcolls

theorem besideWiring_updLane (s : State) (l : Nat) (f : Lane → Lane) : besideWiring (updLane s l f) = besideWiring s := rfl
theorem besideWiring_updOctet (s : State) (o : Nat) (f : Octet → Octet) : besideWiring (updOctet s o f) = besideWiring s := rfl

/-- A position that arrives on SP. -/
theorem spareRx_carries (s : State) {p l : Nat} {arg : BitVec 8} (hl : laneOfArg s p arg = some l) :
    (octet (spareRx s p arg true) (l / 9)).rxSpare = some (arg.toNat % 16) ∧
    besideWiring (spareRx s p arg true) = besideWiring s := by
  unfold spareRx settleOctet
  simp only [hl]
  refine ⟨?_, by rw [besideWiring_updLane, besideWiring_updOctet, besideWiring_updLane, besideWiring_updOctet]⟩
  rw [octet_updLane, octet_updOctet_self, octet_updLane, octet_updOctet_self]
  rfl

/-! ## The limit of a shift (R339) -/

theorem afterShift_not {s : State} {p : Nat} (h : shiftOver s p = false) : afterShift s p = s :=
  if_neg (by simp [h])

/-- Settles O45: the switch frame by the command and the directions that have counted down, and the shift's limit. -/
theorem switchFrames : Obligations.SwitchFrames := by
  unfold Obligations.SwitchFrames
  refine ⟨fun p s m hm hcmd hq htx hrx hcolls => ⟨_, rfl, switchFrame_width hm hcmd hq htx hrx hcolls rfl⟩,
    fun p s m hm hcmd htx hrx hdone hcolls => ⟨_, rfl, switchFrame_widthTx hm hcmd htx hrx hdone hcolls rfl⟩,
    fun p s m o hm hown hcmd ho hq htx hrx hcolls => ⟨_, rfl, ?_⟩,
    fun p s m l hm hown hcmd hl hq hrx htx hcolls => ⟨_, rfl, ?_⟩,
    fun p s m hm hearly => congrArg Host.Outcome.next ?_,
    fun p s st since hshift hover hdue => ⟨_, rfl, ?_⟩, fun p s hshift => congrArg Host.Outcome.next ?_⟩
  · have hrun := switchFrame_tx hm (counted_of htx) (by rw [hrx]; rfl)
    have htx' : switchTx s p m = spareTx s p m.arg true true := by
      unfold switchTx
      rw [if_pos (Or.inl hcmd), hcmd]
      rfl
    obtain ⟨hspare, hfreed, hwiring⟩ := spareTx_carries s (p := p) ho true
    rw [htx'] at hrun
    obtain ⟨hoctets, hlmc, honly⟩ := switched_over hwiring hm (by simp [lmcOver, switched, hown, hcmd, bothWays]) hq hcolls hrun
    beta_reduce
    rw [octet, hoctets]
    exact ⟨hspare, hfreed, hlmc, honly⟩
  · have hrun := switchFrame_rx hm (by rw [htx]; rfl) (counted_of hrx)
    have hrx' : switchRx s p m = spareRx s p m.arg true := by
      unfold switchRx
      rw [if_pos (Or.inl hcmd), hcmd]
      rfl
    obtain ⟨hspare, hwiring⟩ := spareRx_carries s (p := p) hl
    rw [hrx'] at hrun
    obtain ⟨hoctets, hlmc, honly⟩ := switched_over hwiring hm (by simp [lmcOver, switched, hown, hcmd, bothWays]) hq hcolls hrun
    beta_reduce
    rw [octet, hoctets]
    exact ⟨hspare, hlmc, honly⟩
  · have hnot : ∀ c : Option (Nat × Mt), (∀ n since, c = some (n, since) →
        s.clock < since + n * frameSpan (port s p).stage) → counted s p c = false := fun c hc => by
      cases c with
      | none => rfl
      | some x => exact decide_eq_false (Nat.not_le.mpr (hc x.1 x.2 rfl))
    unfold switchFrame
    simp only [hm, hnot m.tx fun n since h => hearly n since (Or.inl h), hnot m.rx fun n since h => hearly n since (Or.inr h)]
    rfl
  · beta_reduce
    unfold shiftTimeout
    simp only [afterShift_not hover, hshift]
    rw [if_pos (by simp [passed, usMt, hdue])]
    exact wentDown_linkDown p.isLt ..
  · unfold shiftTimeout
    rw [afterShift_not (by simp [shiftOver, hshift])]
    simp only [hshift]

end Sys2Proof.Machine
end

section
/-! Meridian time: the time page, the edges of MER_REF, holdover and the roles (R348 to R358, R480, R493). -/

namespace Sys2Proof.Machine
open Sys2Proof

/-- The entries above those of the faults are beside a report's counts. -/
theorem regAt_raiseReport_above {s : State} {r : Report} {i j k : Nat} (hcls : r.cls < 256)
    (h : regKey 0x8000 0 0 ≤ regKey i j k) : regAt (raiseReport s r) i j k = regAt s i j k := by
  have hsource : regKey i j k ≠ regKey 0x7100 2 (sourceNo r.cls r.idx) := by
    unfold regKey sourceNo at *
    omega
  have hintake : regKey i j k ≠ regKey 0x7000 9 0 := by
    unfold regKey at *
    omega
  unfold raiseReport
  split
  · exact (regAt_toIntake_ne hintake).trans (regAt_bumpBy_ne _ _ _ _ _ _ _ _ hsource)
  · rfl

theorem regAt_report_above {s : State} {cls idx kind addr i j k : Nat} (hcls : cls < 256)
    (h : regKey 0x8000 0 0 ≤ regKey i j k) : regAt (report s cls idx kind addr) i j k = regAt s i j k := by
  unfold report
  generalize addr % 2 ^ 32 = a
  exact regAt_raiseReport_above hcls h

/-! ## What the discipline of the count may change -/

/-- The last edge taken, and the samples of other insts. -/
def merMarks (m : Meridian) : Option Mt × Tbl (Int × NodeId × Nat × Bool × Mt) := (m.merRefAt, m.remote)

/-- The Meridian unit changed, with what it counts and reports and the chart interval that begins at the first lock. -/
structure Disciplines (s t : State) : Prop where
  only : t = { s with mer := t.mer, regs := t.regs, faults := t.faults, charts := t.charts }
  marks : merMarks t.mer = merMarks s.mer

namespace Disciplines

theorem refl (s : State) : Disciplines s s := ⟨rfl, rfl⟩

theorem trans {s t u : State} (h : Disciplines s t) (k : Disciplines t u) : Disciplines s u := by
  refine ⟨?_, k.marks.trans h.marks⟩
  rw [k.only, h.only]

theorem setMer {f : Meridian → Meridian} (h : ∀ m, merMarks (f m) = merMarks m) (s : State) : Disciplines s (setMer s f) :=
  ⟨rfl, h _⟩

theorem of_reported {s t : State} (h : Reported s t) : Disciplines s t := by
  refine ⟨?_, congrArg merMarks (congrArg State.mer h :)⟩
  rw [h]

theorem bump (s : State) (i j : Nat) : Disciplines s (bump s i j) := ⟨rfl, rfl⟩

end Disciplines

/-- The Meridian unit changed in place: the count, a time that waits, and what is counted and reported stay. -/
structure Calm (s t : State) : Prop where
  only : t = { s with mer := t.mer, charts := t.charts }
  count : t.mer.count = s.mer.count
  setTo : t.mer.setTo = s.mer.setTo
  marks : merMarks t.mer = merMarks s.mer

namespace Calm

theorem refl (s : State) : Calm s s := ⟨rfl, rfl, rfl, rfl⟩

theorem trans {s t u : State} (h : Calm s t) (k : Calm t u) : Calm s u := by
  refine ⟨?_, k.count.trans h.count, k.setTo.trans h.setTo, k.marks.trans h.marks⟩
  rw [k.only, h.only]

theorem setMer {f : Meridian → Meridian}
    (h : ∀ m, ((f m).count, (f m).setTo, merMarks (f m)) = (m.count, m.setTo, merMarks m)) (s : State) :
    Calm s (setMer s f) :=
  ⟨rfl, congrArg Prod.fst (h s.mer), congrArg (fun x => x.2.1) (h s.mer), congrArg (fun x => x.2.2) (h s.mer)⟩

theorem disciplines {s t : State} (h : Calm s t) : Disciplines s t := by
  refine ⟨?_, h.marks⟩
  rw [h.only]

end Calm

theorem calm_firstLock (s : State) : Calm s (firstLock s) := by
  unfold firstLock
  split
  · exact .refl s
  · exact ⟨rfl, rfl, rfl, rfl⟩

theorem calm_enterLocked (s : State) : Calm s (enterLocked s) := by
  unfold enterLocked
  exact Calm.trans (.setMer (by intro m; rfl) s) (calm_firstLock _)

theorem calm_haveSource (s : State) : Calm s (haveSource s) := by
  unfold haveSource
  split
  · exact .setMer (by intro m; rfl) s
  · exact .refl s

theorem calm_goodSample (s : State) (off : Int) : Calm s (goodSample s off) := by
  unfold goodSample
  dsimp only
  generalize (if (decide (-16 ≤ off) && decide (off ≤ 16) || s.mer.state == TimeState.holdover) = true then s.mer.good + 1 else 0) = n
  have hgood : Calm s (setMer s fun m => { m with good := n }) := .setMer (by intro m; rfl) s
  split
  · exact .refl s
  · split
    · exact hgood.trans (calm_enterLocked _)
    · exact hgood

theorem stepThreshold_nonneg (s : State) : 0 ≤ stepThreshold s := by
  unfold stepThreshold
  omega

/-- R354: a filtered offset within the step threshold is slewed away. -/
theorem calm_correct {s : State} {f : Int} (hlo : -stepThreshold s ≤ f) (hhi : f ≤ stepThreshold s) : Calm s (correct s f) := by
  unfold correct
  rw [if_neg (by omega), if_neg (by omega)]
  exact .setMer (by intro m; rfl) s

theorem everLocked_firstLock (s : State) : (firstLock s).mer.everLocked = true := by
  unfold firstLock
  split
  · assumption
  · rfl

theorem disciplines_noteCorrection (s : State) (f : Int) : Disciplines s (noteCorrection s f) := by
  unfold noteCorrection
  refine Disciplines.trans (t := bump (setMer s fun m => { m with flagStepped := true }) 0x9000 7) ⟨rfl, rfl⟩ ?_
  exact .of_reported (reported_report ..)

theorem disciplines_forwardStep (s : State) (n : Nat) (f : Int) : Disciplines s (forwardStep s n f) := by
  unfold forwardStep
  exact Disciplines.trans (.setMer (by intro m; rfl) s) (disciplines_noteCorrection ..)

theorem disciplines_correct (s : State) (f : Int) : Disciplines s (correct s f) := by
  unfold correct
  split
  · exact disciplines_forwardStep ..
  · split
    · dsimp only
      split
      · exact .setMer (by intro m; rfl) s
      · exact Disciplines.trans (.setMer (by intro m; rfl) s) (disciplines_noteCorrection ..)
    · exact .setMer (by intro m; rfl) s

theorem disciplines_firstSample (s : State) (off : Int) : Disciplines s (firstSample s off) := by
  unfold firstSample
  refine Disciplines.trans ?_ (calm_goodSample ..).disciplines
  have h : Disciplines s (setMer (haveSource s) fun m => { m with first := false }) :=
    (calm_haveSource s).disciplines.trans (.setMer (by intro m; rfl) _)
  split
  · exact h.trans (disciplines_forwardStep ..)
  · exact h.trans (disciplines_correct ..)

theorem disciplines_timeFault (s : State) (f : Int) : Disciplines s (timeFault s f) := by
  unfold timeFault
  exact Disciplines.trans (.of_reported (reported_report ..)) (.setMer (by intro m; rfl) _)

theorem disciplines_acceptSample (s : State) (off : Int) : Disciplines s (acceptSample s off) := by
  unfold acceptSample
  split
  · exact disciplines_firstSample ..
  · dsimp only
    split
    · exact disciplines_firstSample ..
    · exact (disciplines_correct ..).trans (calm_goodSample ..).disciplines
    · exact (disciplines_correct ..).trans (calm_goodSample ..).disciplines
    · generalize (if 32 < Config.offsetFilter off s.mer.filtered ∨ Config.offsetFilter off s.mer.filtered < -32
        then s.mer.bad + 1 else 0) = n
      have h : Disciplines s (correct (setMer s fun m => { m with bad := n }) (Config.offsetFilter off s.mer.filtered)) :=
        Disciplines.trans (.setMer (by intro m; rfl) s) (disciplines_correct ..)
      split
      · exact h.trans (disciplines_timeFault ..)
      · exact h

/-! ## A sample that corrects no further by a step -/

/-- R348: the first sample on the count itself. -/
theorem calm_firstSample (s : State) : Calm s (firstSample s 0) := by
  unfold firstSample
  dsimp only
  rw [if_neg (by decide)]
  have h : Calm s (setMer (haveSource s) fun m => { m with first := false }) :=
    (calm_haveSource s).trans (.setMer (by intro m; rfl) _)
  generalize setMer (haveSource s) (fun m => { m with first := false }) = u at *
  have hthreshold := stepThreshold_nonneg u
  exact (h.trans (calm_correct (by omega) hthreshold)).trans (calm_goodSample ..)

/-- A sample whose filtered offset lies near. -/
theorem calm_acceptSample {s : State} {off : Int}
    (h : ((s.mer.first = true ∨ s.mer.state = .unset) ∧ off = 0) ∨ (s.mer.first = false ∧ s.mer.state ≠ .unset ∧
      ∀ f, f = Config.offsetFilter off s.mer.filtered → -32 ≤ f ∧ f ≤ 32 ∧ -stepThreshold s ≤ f ∧ f ≤ stepThreshold s)) :
    Calm s (acceptSample s off) := by
  unfold acceptSample
  rcases h with ⟨hfirst, rfl⟩ | ⟨hfirst, hstate, hnear⟩
  · rcases hfirst with hfirst | hunset
    · rw [if_pos hfirst]
      exact calm_firstSample s
    · simp only [hunset]
      split <;> exact calm_firstSample s
  · rw [if_neg (by simp [hfirst])]
    obtain ⟨hlo, hhi, hlow, hhigh⟩ := hnear _ rfl
    have hbad : (if 32 < Config.offsetFilter off s.mer.filtered ∨ Config.offsetFilter off s.mer.filtered < -32
        then s.mer.bad + 1 else 0) = 0 := if_neg (by omega)
    dsimp only
    rw [hbad]
    split
    · exact absurd ‹_› hstate
    · exact (calm_correct hlow hhigh).trans (calm_goodSample ..)
    · exact (calm_correct hlow hhigh).trans (calm_goodSample ..)
    · rw [if_neg (by decide)]
      exact Calm.trans (.setMer (by intro m; rfl) s) (calm_correct (s := setMer s fun m => { m with bad := 0 }) hlow hhigh)

theorem refOffset_multiple {n : Nat} (h : n % 4000000 = 0) : refOffset n = 0 := by
  unfold refOffset refSpan
  dsimp only
  rw [h, if_pos (by decide)]
  rfl

/-! ## The step to a time that was set (R352, R354) -/

/-- What a forward step leaves. -/
theorem forwardStep_effect {s : State} (hawake : awake s = true) {n : Nat} (f : Int) :
    (forwardStep s n f).mer.count = (s.mer.count + n) % 2 ^ 64 ∧ (forwardStep s n f).mer.filtered = 0 ∧
    (forwardStep s n f).mer.first = s.mer.first ∧ (forwardStep s n f).mer.state = s.mer.state ∧
    (forwardStep s n f).mer.setTo = s.mer.setTo ∧ Counted 0x9000 7 0 s (forwardStep s n f) ∧
    CountedFault 9 0 s (forwardStep s n f) ∧ stepThreshold (forwardStep s n f) = stepThreshold s := by
  unfold forwardStep noteCorrection
  generalize ofSigned 32 f = a
  set v := setMer (setMer s fun m => { m with
    count := (m.count + n) % 2 ^ 64, stepFrom := m.count, stepTo := m.count + n, filtered := 0, halfRate := false,
    halfPhase := false }) fun m => { m with flagStepped := true } with hv
  have hmerv : v.mer.count = (s.mer.count + n) % 2 ^ 64 ∧ v.mer.filtered = 0 ∧ v.mer.first = s.mer.first ∧
    v.mer.state = s.mer.state ∧ v.mer.setTo = s.mer.setTo := ⟨rfl, rfl, rfl, rfl, rfl⟩
  have hregs : v.regs = s.regs := rfl
  have hawakev : awake v = true := hawake
  clear_value v
  have hreported := reported_report (bump v 0x9000 7) 9 0 1 a
  have hfault : CountedFault 9 0 (bump v 0x9000 7) (report (bump v 0x9000 7) 9 0 1 a) :=
    countedFault_report (s := bump v 0x9000 7) hawakev ..
  have hmer : (report (bump v 0x9000 7) 9 0 1 a).mer = v.mer := (congrArg State.mer hreported :)
  obtain ⟨hcount, hfiltered, hfirst, hstate, hset⟩ := hmerv
  rw [hmer]
  have hreg : ∀ i j k, regAt v i j k = regAt s i j k := fun i j k => by simp only [regAt, hregs]
  refine ⟨hcount, hfiltered, hfirst, hstate, hset, ?_, ?_, ?_⟩
  · exact (regAt_report_above (by decide) (by decide)).trans (regAt_bumpAt_congr (hreg ..))
  · exact hfault.trans (regAt_bumpAt_congr ((regAt_bumpBy_ne _ _ _ _ _ _ _ _ (by decide)).trans (hreg ..)))
  · have hstep : regAt (report (bump v 0x9000 7) 9 0 1 a) 0x9020 2 0 = regAt s 0x9020 2 0 :=
      (regAt_report_above (by decide) (by decide)).trans ((regAt_bumpBy_ne _ _ _ _ _ _ _ _ (by decide)).trans (hreg ..))
    unfold stepThreshold reg
    rw [hstep]

/-- R480: an edge that is accepted. -/
theorem edgeIgnored_not {s : State} (h : EdgeAccepted s) : edgeIgnored s = false := by
  obtain ⟨hmaster, hmer, hawake, hafter⟩ := h
  unfold edgeIgnored
  rw [hmaster, hmer, hawake]
  cases hat : s.mer.merRefAt with
  | none => rfl
  | some a => simp [passed, usMt, hafter a hat]

/-- The state in which an accepted edge is noted. -/
def edgeNoted (s : State) : State := setMer s fun m => { m with merRefAt := some s.clock, refGone := false }

theorem merRefEdge_taken {s : State} (h : EdgeAccepted s) :
    merRefEdge s = firstLock (acceptSample (timeSetNow (edgeNoted s)) (refOffset (timeSetNow (edgeNoted s)).mer.count)) := by
  unfold merRefEdge
  rw [if_neg (by simp [edgeIgnored_not h])]
  rfl

/-- R351, R358: an edge without a time set. -/
theorem merRefEdge_sample {s t : State} (h : EdgeAccepted s) (hset : s.mer.setTo = none) (ht : t = merRefEdge s) :
    t.mer.everLocked = true ∧ t.mer.merRefAt = some s.clock ∧
      t = { s with mer := t.mer, regs := t.regs, faults := t.faults, charts := t.charts } := by
  have hnone : timeSetNow (edgeNoted s) = edgeNoted s := by
    unfold timeSetNow
    rw [show (edgeNoted s).mer.setTo = none from hset]
  rw [merRefEdge_taken h, hnone] at ht
  have hd := (disciplines_acceptSample (edgeNoted s) (refOffset (edgeNoted s).mer.count)).trans
    (calm_firstLock (acceptSample (edgeNoted s) (refOffset (edgeNoted s).mer.count))).disciplines
  rw [← ht] at hd
  refine ⟨?_, congrArg Prod.fst hd.marks, ?_⟩
  · rw [ht]
    exact everLocked_firstLock _
  · exact hd.only

/-- R352: an edge that carries out a time set. -/
theorem merRefEdge_sets {s t : State} {n : Nat} (h : EdgeAccepted s) (hset : s.mer.setTo = some n) (hless : s.mer.count < n)
    (hn : n < 2 ^ 64) (hsmall : SmallSample s n) (ht : t = merRefEdge s) :
    t.mer.count = n ∧ t.mer.setTo = none ∧ t.mer.merRefAt = some s.clock ∧ t.mer.everLocked = true ∧
      Counted 0x9000 7 0 s t ∧ CountedFault 9 0 s t ∧
      t = { s with mer := t.mer, regs := t.regs, faults := t.faults, charts := t.charts } := by
  set v := setMer (edgeNoted s) fun m => { m with setTo := none } with hv
  obtain ⟨-, -, hawake, -⟩ := id h
  have hstep : timeSetNow (edgeNoted s) = forwardStep v (n - s.mer.count) ((s.mer.count : Int) - (n : Int)) := by
    unfold timeSetNow
    rw [show (edgeNoted s).mer.setTo = some n from hset]
    exact if_pos hless
  obtain ⟨hcount, hfiltered, hfirst, hstate, hset', hcounted, hfault, hthreshold⟩ :=
    forwardStep_effect (s := v) hawake (n := n - s.mer.count) ((s.mer.count : Int) - (n : Int))
  have hd := disciplines_forwardStep v (n - s.mer.count) ((s.mer.count : Int) - (n : Int))
  rw [merRefEdge_taken h, hstep] at ht
  generalize forwardStep v (n - s.mer.count) ((s.mer.count : Int) - (n : Int)) = u at *
  have hcount' : u.mer.count = n := by
    rw [hcount, show v.mer.count = s.mer.count from rfl, Nat.add_sub_cancel' hless.le]
    exact Nat.mod_eq_of_lt hn
  have hcalm : Calm u (acceptSample u (refOffset u.mer.count)) := by
    refine calm_acceptSample ?_
    rw [hcount', hfirst, hstate, hfiltered, hthreshold]
    rcases hsmall with ⟨hnew, hmultiple⟩ | hnear
    · exact Or.inl ⟨hnew, refOffset_multiple hmultiple⟩
    · exact Or.inr hnear
  have hall := hcalm.trans (calm_firstLock _)
  have hever : t.mer.everLocked = true := by
    rw [ht]
    exact everLocked_firstLock _
  rw [← ht] at hall
  have hregs : t.regs = u.regs := (congrArg State.regs hall.only :)
  refine ⟨hall.count.trans hcount', hall.setTo.trans hset', congrArg Prod.fst (hall.marks.trans hd.marks), hever, ?_, ?_, ?_⟩
  · rw [Counted, regAt, hregs]
    exact hcounted
  · rw [CountedFault, Counted, regAt, hregs]
    exact hfault
  · exact (hd.trans hall.disciplines).only

/-! ## Holdover (R357) -/

/-- The time state HOLDOVER, from now on. -/
def holding (s : State) : State := setMer s fun m => { m with
  state := .holdover, good := 0, bad := 0, holdFrom := some s.clock, holdTold := false, flagHold := true,
  halfRate := false, halfPhase := false }

theorem enterHoldover_eq {s : State} (h : s.mer.state ≠ .holdover) :
    ∃ r : Report, enterHoldover s = raiseReport (holding s) r ∧ r.cls = 9 ∧ r.idx = 0 := by
  unfold enterHoldover
  rw [if_neg h]
  exact ⟨_, rfl, rfl, rfl⟩

/-- R357: a device that is not in HOLDOVER enters it. -/
theorem enterHoldover_enters {s : State} (hawake : awake s = true) (hstate : s.mer.state ≠ .holdover) :
    EntersHoldover s (enterHoldover s) := by
  obtain ⟨r, hr, hcls, hidx⟩ := enterHoldover_eq hstate
  have hreported := reported_raiseReport (holding s) r
  have hmer : (raiseReport (holding s) r).mer = (holding s).mer := (congrArg State.mer hreported :)
  have hfault := countedFault_raiseReport (s := holding s) hawake r
  rw [hcls, hidx] at hfault
  rw [hr]
  refine ⟨by rw [hmer]; rfl, by rw [hmer]; rfl, by rw [hmer]; rfl, countedFault_of_regs rfl rfl hfault, ?_⟩
  rw [hreported]
  rfl

theorem enterHoldover_already {s : State} (h : s.mer.state = .holdover) : enterHoldover s = s := if_pos h

/-- R357: the Meridian master's loss of MER_REF, counted once. -/
theorem merRefLoss_effect {s t : State} {a : Mt} (hawake : awake s = true) (hmaster : s.mer.isMaster = true)
    (hgone : s.mer.refGone = false) (hat : s.mer.merRefAt = some a) (hdue : a + 12000000 ≤ s.clock) (ht : t = merRefLoss s) :
    t.mer.refGone = true ∧ Counted 0x9010 5 0 s t ∧ t.mer.state = .holdover ∧
      (s.mer.state ≠ .holdover → EntersHoldover s t) := by
  set u := bump (setMer s fun m => { m with refGone := true }) 0x9010 5 with hu
  have hrun : t = enterHoldover u := by
    rw [ht, merRefLoss]
    exact if_pos ⟨hmaster, by simp [refLost, hat, passed, msMt, hdue], by simp [hgone], by simp [hat]⟩
  by_cases hstate : s.mer.state = .holdover
  · rw [enterHoldover_already (s := u) hstate] at hrun
    subst hrun
    exact ⟨rfl, rfl, hstate, fun h => absurd hstate h⟩
  · obtain ⟨hholds, hfrom, hcount, hfault, honly⟩ := enterHoldover_enters (s := u) hawake hstate
    obtain ⟨r, hr, hcls, hidx⟩ := enterHoldover_eq (s := u) hstate
    rw [← hrun] at hholds hfrom hcount hfault honly hr
    have hgone' : t.mer.refGone = true := by
      rw [hr, show (raiseReport (holding u) r).mer = (holding u).mer from (congrArg State.mer (reported_raiseReport (holding u) r) :)]
      rfl
    refine ⟨hgone', ?_, hholds, fun _ => ⟨hholds, hfrom, hcount, ?_, ?_⟩⟩
    · rw [Counted, hr, regAt_raiseReport_above (by rw [hcls]; decide) (by decide)]
      rfl
    · exact hfault.trans (regAt_bumpAt_congr (regAt_bumpBy_ne _ _ _ _ _ _ _ _ (by decide)))
    · rw [honly]
      rfl

/-! ## Roles (R350) -/

theorem mayTake_of {s : State} (h : RoleFree s) : mayTake s = true := by
  unfold mayTake
  rcases h with ⟨hown, hlisten, hstb⟩ | ⟨hnot, hown, hlisten, hdes⟩
  · rw [if_pos hown]
    cases hh : s.mer.heardStb with
    | none => simp [passed, msMt, hlisten]
    | some a => simp [passed, msMt, hlisten, hstb a hh]
  · rw [if_neg hnot]
    have hspan : 2 * msMt (reg s 0x9010 3) = 8000000 * reg s 0x9010 3 := by
      exact (Nat.mul_assoc 2 4000000 _).symm
    have hquiet : passed s (quietSince s.mer.listenStb s.mer.heardDes) (2 * msMt (reg s 0x9010 3)) = true := by
      rw [hspan]
      refine decide_eq_true ?_
      unfold quietSince
      cases hh : s.mer.heardDes with
      | none => exact hlisten
      | some a =>
        dsimp only
        rcases max_choice s.mer.listenStb a with h | h <;> rw [h]
        · exact hlisten
        · exact hdes a hh
    simp [hown, hquiet]

/-- A device with the role of Meridian master. -/
def roleTaken (s : State) : State := setMer s fun m => { m with
  isMaster := true, stratum := 0, upstream := 0xFE, master := ownNode s, good := 0, bad := 0, refGone := refLost s }

theorem masterTakeover_takes {s : State} (hmaster : isMaster s = true) (hnot : s.mer.isMaster = false) (hfree : RoleFree s) :
    masterTakeover s = if refLost s then firstLock (enterHoldover (roleTaken s)) else haveSource (roleTaken s) :=
  if_pos ⟨hmaster, by simp [hnot], mayTake_of hfree⟩

/-- What a role is, the time state and the count. -/
def roleMarks (m : Meridian) : Bool × Nat × NodeId × TimeState × Nat := (m.isMaster, m.stratum, m.master, m.state, m.count)

theorem roleMarks_firstLock (s : State) : roleMarks (firstLock s).mer = roleMarks s.mer := by
  unfold firstLock
  split <;> rfl

theorem roleMarks_enterHoldover (s : State) : Disciplines s (enterHoldover s) ∧
    roleMarks (enterHoldover s).mer = (s.mer.isMaster, s.mer.stratum, s.mer.master, .holdover, s.mer.count) := by
  by_cases hstate : s.mer.state = .holdover
  · rw [enterHoldover_already hstate]
    refine ⟨.refl s, ?_⟩
    rw [roleMarks, hstate]
  · obtain ⟨r, hr, -⟩ := enterHoldover_eq hstate
    have hreported := reported_raiseReport (holding s) r
    rw [hr]
    refine ⟨Disciplines.trans (t := holding s) ⟨rfl, rfl⟩ (.of_reported hreported), ?_⟩
    rw [show (raiseReport (holding s) r).mer = (holding s).mer from (congrArg State.mer hreported :)]
    rfl

/-- R350: without an edge of MER_REF the new master holds over. -/
theorem masterTakeover_holds {s t : State} (hmaster : isMaster s = true) (hnot : s.mer.isMaster = false) (hfree : RoleFree s)
    (hat : s.mer.merRefAt = none) (ht : t = masterTakeover s) :
    t.mer.isMaster = true ∧ t.mer.stratum = 0 ∧ t.mer.master = ownNode s ∧ t.mer.state = .holdover ∧ t.mer.everLocked = true ∧
      t.mer.count = s.mer.count ∧ t = { s with mer := t.mer, regs := t.regs, faults := t.faults, charts := t.charts } := by
  rw [masterTakeover_takes hmaster hnot hfree, if_pos (by simp [refLost, hat])] at ht
  obtain ⟨hdiscipline, hmarks⟩ := roleMarks_enterHoldover (roleTaken s)
  have hrole : roleMarks t.mer = (true, 0, ownNode s, .holdover, s.mer.count) := by
    rw [ht, roleMarks_firstLock, hmarks]
    rfl
  have honly := ((Disciplines.mk (s := s) (t := roleTaken s) rfl rfl).trans hdiscipline).trans (calm_firstLock _).disciplines
  rw [← ht] at honly
  refine ⟨congrArg Prod.fst hrole, congrArg (fun x => x.2.1) hrole, congrArg (fun x => x.2.2.1) hrole,
    congrArg (fun x => x.2.2.2.1) hrole, ?_, congrArg (fun x => x.2.2.2.2) hrole, honly.only⟩
  rw [ht]
  exact everLocked_firstLock _

/-- R350: with one it goes on from its count. -/
theorem masterTakeover_goesOn {s t : State} {a : Mt} (hmaster : isMaster s = true) (hnot : s.mer.isMaster = false)
    (hfree : RoleFree s) (hat : s.mer.merRefAt = some a) (hsoon : s.clock < a + 12000000) (ht : t = masterTakeover s) :
    t.mer.isMaster = true ∧ t.mer.stratum = 0 ∧ t.mer.master = ownNode s ∧
      t.mer.state = (if s.mer.state = .unset then .acquiring else s.mer.state) ∧ t.mer.count = s.mer.count ∧
      t = { s with mer := t.mer } := by
  have hkept : refLost s = false := by
    unfold refLost
    rw [hat]
    exact decide_eq_false (Nat.not_le.mpr hsoon)
  rw [masterTakeover_takes hmaster hnot hfree, hkept, if_neg (by decide)] at ht
  subst ht
  unfold haveSource
  split
  · rename_i h
    exact ⟨rfl, rfl, rfl, (if_pos h).symm, rfl, rfl⟩
  · rename_i h
    exact ⟨rfl, rfl, rfl, (if_neg h).symm, rfl, rfl⟩

/-! ## The time page (R349) -/

/-- What the page says before it is filled with zeros. -/
def pageHead (s : State) : Bytes :=
  leBytes 8 s.mer.count ++ leBytes 1 s.mer.state.code ++ leBytes 1 (if s.mer.state == .unset then 255 else s.mer.stratum) ++
    leBytes 2 (if s.mer.state == .unset then 0 else s.mer.master.toNat)

theorem length_pageHead (s : State) : (pageHead s).length = 12 := by simp [pageHead]

theorem ofNat_mod_byte (n : Nat) : BitVec.ofNat 8 (n % 256) = BitVec.ofNat 8 n :=
  BitVec.eq_of_toNat_eq (by simp)

theorem getD_pageHead (s : State) (i : Nat) : (pageHead s).getD i 0 = pageByte s i := by
  rcases Nat.lt_or_ge i 12 with h | h
  · by_cases hunset : s.mer.state = .unset <;> interval_cases i <;>
      simp [pageHead, pageByte, leBytes, hunset, Nat.div_div_eq_div_mul, ofNat_mod_byte]
  · rw [List.getD_eq_default _ _ (by rw [length_pageHead]; omega), pageByte, if_neg (by omega), if_neg (by omega),
      if_neg (by omega), if_neg (by omega), if_neg (by omega)]
    rfl

theorem getD_timeBytes (s : State) (i : Nat) : (timeBytes s).getD i 0 = pageByte s i := by
  rcases Nat.lt_or_ge i 64 with h | h
  · exact (getD_padTo 64 (pageHead s) h).trans (getD_pageHead s i)
  · rw [← getD_pageHead, List.getD_eq_default _ _ (by rw [timeBytes, length_padTo]; omega),
      List.getD_eq_default _ _ (by rw [length_pageHead]; omega)]

/-- The byte at each place that is read. -/
theorem getElem?_timePage (s : State) (o : Nat) {len k : Nat} (hk : k < len) :
    (padTo len ((timeBytes s).drop o))[k]? = some (pageByte s (o + k)) := by
  have hget := getD_padTo len ((timeBytes s).drop o) hk
  rw [List.getD_eq_getElem?_getD, List.getElem?_eq_getElem (by rwa [length_padTo])] at hget
  rw [List.getElem?_eq_getElem (by rwa [length_padTo]), show (padTo len ((timeBytes s).drop o))[k]'(by rwa [length_padTo]) = _ from hget,
    List.getD_eq_getElem?_getD, List.getElem?_drop, ← List.getD_eq_getElem?_getD, getD_timeBytes]

/-! ## Designations and time sets (R352, R493) -/

theorem beside_mer_atEntry {q : DictReq} {s : State} (h : Authorised q s) (m : Meridian) :
    beside { atEntry q s with mer := m } = beside { s with mer := m } :=
  congrArg (fun t : State => { t with mer := m }) (beside_atEntry q s h)

theorem regAt_written (q : DictReq) (u : State) (i j k : Nat) : regAt (written q u) i j k = regAt u i j k := by
  simp only [regAt, regs_written]

theorem designation_of_regs {s t : State} {sub : Nat} (h : reg t 0x9010 sub = reg s 0x9010 sub) :
    designation t sub = designation s sub := by
  simp only [designation, h]

/-- The Meridian unit after a designation was written: `first` and `second` tell whether the own node now has that place and
begins to listen, `keep` whether it is still the designated master. -/
def redesignated (now : Mt) (first second keep : Bool) (m : Meridian) : Meridian :=
  { m with
    isMaster := m.isMaster && keep, upstream := if m.isMaster && !(m.isMaster && keep) then 0xFF else m.upstream,
    setTo := if m.isMaster && keep then m.setTo else none, upAt := if m.isMaster && !(m.isMaster && keep) then now else m.upAt,
    listenFrom := if first then now else m.listenFrom, listenStb := if second then now else m.listenStb }

/-- Whether the own node gets a place by a change of the registers. -/
def getsPlace (s t : State) (sub : Nat) : Bool :=
  designation t sub == some (ownNode s) && designation s sub != some (ownNode s)

theorem applyDesignation_eq (sub : Nat) (v : BitVec 32) (s : State) : applyDesignation sub v s =
    ok (setMer (setReg s 0x9010 sub (fld v.toNat 0 17)) (redesignated s.clock
      (getsPlace s (setReg s 0x9010 sub (fld v.toNat 0 17)) sub && sub == 1)
      (getsPlace s (setReg s 0x9010 sub (fld v.toNat 0 17)) sub && sub == 2)
      (designation (setReg s 0x9010 sub (fld v.toNat 0 17)) 1 == some (ownNode s)))) := rfl

theorem designationWrite_works (w : WriteHdr) (standby : Bool) (v : BitVec 32) (s : State) {sub : Nat}
    (hsub : sub = if standby then 2 else 1) :
    WriteWorks (.designationWrite w standby v) w 0x9010 sub (leBytes 4 v.toNat) s (fun t => { s with mer := t.mer }) fun t =>
      reg t 0x9010 sub = fld v.toNat 0 17 ∧
      t.mer.listenFrom = (if standby = false ∧ designation t 1 = some (ownNode s) ∧ designation s 1 ≠ some (ownNode s)
        then s.clock else s.mer.listenFrom) ∧
      t.mer.listenStb = (if standby = true ∧ designation t 2 = some (ownNode s) ∧ designation s 2 ≠ some (ownNode s)
        then s.clock else s.mer.listenStb) ∧
      t.mer.isMaster = (s.mer.isMaster && designation t 1 == some (ownNode s)) ∧
      t.mer.count = s.mer.count ∧ t.mer.state = s.mer.state := by
  subst hsub
  refine writeWorks_of_rule (applyDesignation (if standby then 2 else 1) v)
    (fun r => setMer (setReg r 0x9010 (if standby then 2 else 1) (fld v.toNat 0 17)) (redesignated r.clock
      (getsPlace r (setReg r 0x9010 (if standby then 2 else 1) (fld v.toNat 0 17)) (if standby then 2 else 1) &&
        (if standby then 2 else 1) == 1)
      (getsPlace r (setReg r 0x9010 (if standby then 2 else 1) (fld v.toNat 0 17)) (if standby then 2 else 1) &&
        (if standby then 2 else 1) == 2)
      (designation (setReg r 0x9010 (if standby then 2 else 1) (fld v.toNat 0 17)) 1 == some (ownNode r))))
    rfl (fun _ => applyDesignation_eq ..) (fun haut u hu => ?_)
  generalize writeReq w 0x9010 (if standby then 2 else 1) (leBytes 4 v.toNat) = q at haut hu ⊢
  have hreg : ∀ i j, 0x2000 ≤ i → reg (atEntry q s) i j = reg s i j := fun i j hi => regAt_atEntry_above haut hi
  have hdes : ∀ k, designation (atEntry q s) k = designation s k := fun k => designation_of_regs (hreg _ _ (by decide))
  have hown : ownNode (atEntry q s) = ownNode s := ownNode_atEntry haut
  have hwritten : ∀ k, designation (written q u) k = designation (setReg (atEntry q s) 0x9010 (if standby then 2 else 1) (fld v.toNat 0 17)) k :=
    fun k => designation_of_regs (by rw [reg, regAt_written, hu]; rfl)
  have hmer : (written q u).mer = redesignated s.clock
      (getsPlace s (written q u) (if standby then 2 else 1) && (if standby then 2 else 1) == 1)
      (getsPlace s (written q u) (if standby then 2 else 1) && (if standby then 2 else 1) == 2)
      (designation (written q u) 1 == some (ownNode s)) s.mer := by
    rw [mer_written, congrArg State.mer hu]
    simp only [setMer, getsPlace, hwritten, hdes, hown, clock_atEntry q s haut]
    rw [show (setReg (atEntry q s) 0x9010 (if standby then 2 else 1) (fld v.toNat 0 17)).mer = s.mer from mer_atEntry q s haut]
  refine ⟨by rw [hu]; exact cascade_atEntry q s haut, ?_, ?_⟩
  · rw [mer_written, hu]
    exact beside_mer_atEntry haut _
  · rw [hmer]
    refine ⟨?_, ?_, ?_, rfl, rfl, rfl⟩
    · rw [reg, regAt_written, hu]
      exact regAt_setRegAt_self ..
    · cases standby <;> simp [redesignated, getsPlace]
    · cases standby <;> simp [redesignated, getsPlace]

theorem timeSet_works (w : WriteHdr) (time : BitVec 64) (s : State) (hmaster : s.mer.isMaster = true)
    (hmultiple : time.toNat % 4000000 = 0) (hahead : countAtEdge s < time.toNat) :
    WriteWorks (.timeSet w time) w 0x9010 4 (leBytes 8 time.toNat) s (fun t => { s with mer := t.mer }) fun t =>
      t.mer = { s.mer with setTo := some time.toNat } := by
  refine writeWorks_of_rule (applyTimeSet time.toNat) (fun r => setMer r fun m => { m with setTo := some time.toNat })
    rfl (fun haut => ?_) (fun haut u hu => ?_)
  · refine require_pos ?_
    have hedge : countAtEdge (atEntry (writeReq w 0x9010 4 (leBytes 8 time.toNat)) s) = countAtEdge s := by
      simp only [countAtEdge, mer_atEntry _ _ haut, clock_atEntry _ _ haut]
    rw [mer_atEntry _ _ haut, hedge]
    simp [hmaster, refSpan, hmultiple, hahead]
  · have hmer : u.mer = { s.mer with setTo := some time.toNat } := by
      rw [hu, setMer, mer_atEntry _ _ haut]
    refine ⟨by rw [hu]; exact cascade_atEntry _ s haut, ?_, (mer_written ..).trans hmer⟩
    rw [mer_written, hu]
    exact beside_mer_atEntry haut _

/-- Settles O46: the page, the edges of MER_REF, holdover, the role, and the two writes. -/
theorem meridianTime : Obligations.MeridianTime := by
  unfold Obligations.MeridianTime
  refine ⟨fun o len th s => ⟨_, rfl, _, rfl, length_padTo .., fun k hk => getElem?_timePage s o hk⟩,
    fun s hnot => congrArg Host.Outcome.next (if_pos ?_), fun s hedge hset => ⟨_, rfl, merRefEdge_sample hedge hset rfl⟩,
    fun s n hedge hset hless hn hsmall => ⟨_, rfl, merRefEdge_sets hedge hset hless hn hsmall rfl⟩,
    fun s a hat hearly => congrArg Host.Outcome.next (if_pos ?_),
    fun s a hawake hmaster hgone hat hdue => ⟨_, rfl, merRefLoss_effect hawake hmaster hgone hat hdue rfl⟩,
    fun s hgone => congrArg Host.Outcome.next (if_neg (by simp [hgone])),
    fun s hawake hmaster hnot hstate hnone hdue => ⟨_, rfl, ?_⟩,
    fun s a hawake hstate htold hfrom hdue => ⟨_, rfl, ?_⟩,
    fun s a hmaster hnot hfree hat hsoon => ⟨_, rfl, masterTakeover_goesOn hmaster hnot hfree hat hsoon rfl⟩,
    fun s hmaster hnot hfree hat => ⟨_, rfl, masterTakeover_holds hmaster hnot hfree hat rfl⟩,
    fun w standby v s sub hsub => designationWrite_works w standby v s hsub,
    fun w time s hmaster hmultiple hahead => timeSet_works w time s hmaster hmultiple hahead⟩
  · rcases hnot with h | h <;> simp [edgeIgnored, h]
  · have hnotPassed : decide (a + 3600000 ≤ s.clock) = false := decide_eq_false (Nat.not_le.mpr hearly)
    simp only [edgeIgnored, hat, passed, usMt]
    simp [show (900 * 4000 : Nat) = 3600000 from rfl, hnotPassed]
  · have hlost : upstreamLoss s = enterHoldover s := by
      refine if_pos ⟨hmaster, by simp [hnot], hstate, hnone, decide_eq_true ?_⟩
      rw [show 4 * beaconInterval s = 16000 * reg s 0x9020 1 from (Nat.mul_assoc 4 4000 _).symm]
      exact hdue
    beta_reduce
    rw [hlost]
    exact enterHoldover_enters hawake (by rcases hstate with h | h <;> simp [h])
  · have hrun : holdoverLimit s = setMer (report s 9 0 4 ((s.clock - a) / 4000000000)) fun m => { m with holdTold := true } := by
      unfold holdoverLimit
      simp only [hfrom]
      exact if_pos ⟨hstate, by simp [htold], decide_eq_true hdue⟩
    have hreported := reported_report s 9 0 4 ((s.clock - a) / 4000000000)
    have hfault := countedFault_report hawake 9 0 4 ((s.clock - a) / 4000000000)
    beta_reduce
    rw [hrun]
    generalize report s 9 0 4 ((s.clock - a) / 4000000000) = u at *
    refine ⟨?_, countedFault_of_regs rfl rfl hfault, ?_⟩
    · rw [setMer, show u.mer = s.mer from (congrArg State.mer hreported :)]
    · rw [hreported]
      rfl

end Sys2Proof.Machine
end

section
/-! Beacons: when a port sends one, what one that is heard changes, and what goes to inst 0 (R289, R350, R353 to R355). -/

namespace Sys2Proof.Machine
open Sys2Proof

/-! ## A port sends for itself alone -/

theorem ports_withErrors (s : State) (l : Nat) (bits : List Bool) : (withErrors s l bits).1.ports = s.ports := rfl

theorem ports_sendCharacters (s : State) (l : Nat) (cs : List Char8) : (sendCharacters s l cs).ports = s.ports := by
  unfold sendCharacters
  dsimp only
  split <;> rfl

theorem ports_sendBlockA (s : State) (o : Nat) (b : Bytes) : (sendBlockA s o b).ports = s.ports :=
  foldl_keeps State.ports _ (fun _ _ => foldl_keeps State.ports _ (fun _ _ => ports_sendCharacters ..) ..) ..

theorem ports_sendFrameLane (words : List (List Nat)) (k : Nat) (s : State) (l : Nat) :
    (sendFrameLane words k s l).ports = s.ports := by
  unfold sendFrameLane
  dsimp only
  split <;> rfl

theorem ports_injectFrame (s : State) (o : Nat) (words : List (List Nat)) : (injectFrame s o words).1.ports = s.ports := by
  unfold injectFrame
  dsimp only
  split
  · rfl
  · split <;> rfl

theorem ports_fillFrame (s : State) (o : Nat) (b : Bytes) : (fillFrame s o b).ports = s.ports := by
  unfold fillFrame
  dsimp only
  split
  · rfl
  · exact (foldl_keeps State.ports _ (fun _ _ => foldl_keeps State.ports _ (fun _ _ => ports_sendFrameLane ..) ..) ..).trans
      (ports_injectFrame ..)

/-- What a port keeps of the beacons: its sequence, the send time, when it went out, and how many came since. -/
def beaconMarks (x : Port) : Nat × Mt × Mt × Nat := (x.bseq, x.t1, x.beaconAt, x.fresh)

/-- The ports; of one of them only what it keeps of the beacons. -/
def others (p : Nat) (s : State) : Nat → Port ⊕ (Nat × Mt × Mt × Nat) := fun q =>
  if q = p then .inr (beaconMarks (port s q)) else .inl (port s q)

theorem others_setPort {s : State} {p : Nat} {x : Port} (h : beaconMarks x = beaconMarks (port s p)) :
    others p (setPort s p x) = others p s := by
  funext q
  unfold others
  split
  · next hq => rw [hq, port_setPort_self, h]
  · next hq => rw [port_setPort_ne _ _ _ _ (Ne.symm hq)]

theorem others_updLink (s : State) (p : Nat) (f : Link → Link) : others p (updLink s p f) = others p s :=
  others_setPort rfl

theorem others_of_ports {s t : State} {p : Nat} (h : t.ports = s.ports) : others p t = others p s := by
  unfold others port
  rw [h]

theorem port_of_others {s t : State} {p q : Nat} (h : others p t = others p s) (hq : q ≠ p) : port t q = port s q := by
  have := congrFun h q
  unfold others at this
  rw [if_neg hq, if_neg hq] at this
  exact Sum.inl.inj this

theorem beaconMarks_of_others {s t : State} {p : Nat} (h : others p t = others p s) :
    beaconMarks (port t p) = beaconMarks (port s p) := by
  have := congrFun h p
  unfold others at this
  rw [if_pos rfl, if_pos rfl] at this
  exact Sum.inr.inj this

theorem others_dealBlock (st : Stage) (os : List Nat) (s : State) (p : Nat) (b : Bytes) :
    others p (dealBlock st os s p b) = others p s := by
  unfold dealBlock
  dsimp only
  split
  · exact others_setPort rfl
  · split
    · exact (others_of_ports (ports_sendBlockA ..)).trans (others_setPort rfl)
    · exact (others_of_ports (ports_fillFrame ..)).trans (others_setPort rfl)

theorem others_sendBlock (s : State) (p : Nat) (urgent : Bool) (b : BitVec 256) :
    others p (sendBlock s p urgent b) = others p s := by
  refine Eq.trans (b := others p (emit (updLink s p fun l => { l with gap := if urgent then l.gap else l.gap + 1 }) (.control p b)))
    ?_ (others_setPort rfl)
  unfold sendBlock streamOut
  split
  · rfl
  · exact foldl_keeps (others p) _ (fun _ _ => others_dealBlock ..) ..

theorem others_sendNumbered (s : State) (p : Nat) (b : BitVec 256) : others p (sendNumbered s p b) = others p s := by
  unfold sendNumbered
  exact (others_sendBlock ..).trans (others_updLink ..)

theorem others_nextNotice {s t : State} {p : Nat} (h : nextNotice s p = some t) : others p t = others p s := by
  unfold nextNotice at h
  dsimp only at h
  split at h
  · cases h
    exact (others_sendBlock ..).trans (others_updLink ..)
  · split at h
    · cases h
      exact (others_sendNumbered ..).trans (others_updLink ..)
    · cases h
  · cases h

theorem others_nextWaiting {s t : State} {p : Nat} (h : nextWaiting s p = some t) : others p t = others p s := by
  unfold nextWaiting at h
  split at h
  · split at h
    · cases h
      exact (others_sendBlock ..).trans (others_updLink ..)
    · cases h
  · split at h
    · cases h
    · split at h
      · cases h
        exact (others_sendBlock ..).trans (others_updLink ..)
      · split at h
        · next hn =>
          cases h
          exact others_nextNotice hn
        · cases h
          exact (others_sendBlock ..).trans (others_updLink ..)
        · cases h

theorem others_drainControl (n : Nat) (s : State) (p : Nat) : others p (drainControl n s p) = others p s := by
  induction n generalizing s with
  | zero => rfl
  | succ n ih =>
    unfold drainControl
    split
    · next t ht => exact (ih t).trans (others_nextWaiting ht)
    · rfl

/-! ## A beacon that is sent -/

/-- What is sent first stays first. -/
theorem SendsControl.sends {s u t : State} {p ctype : Nat} (h : SendsControl p ctype s u) (k : Sends u t) :
    SendsControl p ctype s t := by
  obtain ⟨body, hhead, htake⟩ := h
  obtain ⟨r, hr⟩ := k.out
  have hlen : s.out.length < u.out.length := by
    by_contra hnot
    rw [List.drop_eq_nil_of_le (Nat.le_of_not_lt hnot)] at hhead
    cases hhead
  refine ⟨body, ?_, ?_⟩
  · rw [← hr, List.drop_append_of_le_length hlen.le, List.head?_append, hhead]
    rfl
  · rw [← hr, List.take_append_of_le_length hlen.le, htake]

theorem beaconDue_of {s : State} {p : Nat} (hworks : (port s p).state.works = true)
    (hdue : ((port s p).beaconAt + 4000 * reg s 0x9020 1 ≤ s.clock ∧ 0 < (port s p).fresh) ∨
      (port s p).beaconAt + 16000 * reg s 0x9020 1 ≤ s.clock) : beaconDue s p = true := by
  have hfour : 4 * beaconInterval s = 16000 * reg s 0x9020 1 := (Nat.mul_assoc 4 4000 _).symm
  unfold beaconDue
  dsimp only
  rw [hworks, hfour]
  rcases hdue with ⟨hone, hfresh⟩ | hfour
  · rw [show passed s (port s p).beaconAt (beaconInterval s) = true from decide_eq_true hone, decide_eq_true hfresh]
    rfl
  · have hone : (port s p).beaconAt + 4000 * reg s 0x9020 1 ≤ s.clock :=
      le_trans (Nat.add_le_add_left (Nat.mul_le_mul_right _ (by decide)) _) hfour
    rw [show passed s (port s p).beaconAt (beaconInterval s) = true from decide_eq_true hone,
      show passed s (port s p).beaconAt (16000 * reg s 0x9020 1) = true from decide_eq_true hfour]
    simp

/-- The port's marks when a beacon goes out. -/
def beaconSent (now count : Nat) (x : Port) : Port :=
  { x with bseq := (x.bseq + 1) % 256, t1 := count, beaconAt := now, fresh := 0 }

theorem sendBeacon_eq (s : State) (p : Nat) : ∃ body, sendBeacon s p =
    sendControl (setPort s p (beaconSent s.clock s.mer.count (port s p))) p ctBeacon body :=
  ⟨_, rfl⟩

/-- A beacon that goes out with what waited behind it. -/
theorem beaconSend_effect {p : Nat} {s t : State} (hdue : beaconDue s p = true) (hmay : mayControl s p = true)
    (hwait : replayWaits s p = false) (ht : t = beaconSend p s) :
    SendsControl p ctBeacon s t ∧ beaconMarks (port t p) = beaconMarks (beaconSent s.clock s.mer.count (port s p)) ∧
      t = onlySent s t ∧ ∀ q, q ≠ p → port t q = port s q := by
  have hrun : t = drainControl 256 (sendBeacon s p) p := by
    rw [ht, beaconSend, if_pos ⟨hdue, hmay, by simp [hwait]⟩]
  obtain ⟨body, hbody⟩ := sendBeacon_eq s p
  have hdrain : Sends (sendBeacon s p) t := by rw [hrun]; exact sends_drainControl ..
  have hothers : others p t = others p (setPort s p (beaconSent s.clock s.mer.count (port s p))) := by
    rw [hrun, hbody]
    exact (others_drainControl ..).trans (others_sendBlock ..)
  refine ⟨?_, ?_, ((sends_sendBeacon s p).trans hdrain).onlySent, fun q hq => (port_of_others hothers hq).trans ?_⟩
  · refine SendsControl.sends ?_ hdrain
    rw [hbody]
    exact sendsControl_sendControl rfl (by rw [port_setPort_self]; rfl)
  · rw [beaconMarks_of_others hothers, port_setPort_self]
  · exact port_setPort_ne _ _ _ _ (Ne.symm hq)

/-! ## The choice of the upstream (R350) -/

/-- The Meridian unit but for its upstream and the state that a first source begins. -/
def apartFromUpstream (m : Meridian) : Meridian :=
  { m with upstream := 0, stratum := 0, master := 0, upAt := 0, state := .unset, good := 0, bad := 0, first := false }

/-- The Meridian unit chose its upstream, or kept it. -/
structure Chooses (s t : State) : Prop where
  only : t = { s with mer := t.mer }
  apart : apartFromUpstream t.mer = apartFromUpstream s.mer

theorem Chooses.refl (s : State) : Chooses s s := ⟨rfl, rfl⟩

theorem of_apartFromUpstream {m n : Meridian} (h : apartFromUpstream m = apartFromUpstream n) :
    m.count = n.count ∧ m.remote = n.remote ∧ m.heardDes = n.heardDes ∧ m.heardStb = n.heardStb :=
  ⟨(congrArg Meridian.count h :), (congrArg Meridian.remote h :), (congrArg Meridian.heardDes h :),
    (congrArg Meridian.heardStb h :)⟩

theorem chooses_follow (s : State) (c : Cand) : Chooses s (follow s c) := by
  unfold follow haveSource
  split <;> exact ⟨rfl, rfl⟩

theorem upstreams_of_remote {s t : State} (honly : t = { s with mer := t.mer }) (h : t.mer.remote = s.mer.remote) :
    upstreams t = upstreams s := by
  have hsame : ∀ m : Meridian, m.remote = s.mer.remote → upstreams { s with mer := m } = upstreams s := by
    intro m hm
    unfold upstreams
    dsimp only
    rw [hm]
    rfl
  rw [honly]
  exact hsame _ h

theorem Chooses.upstreams {s t : State} (h : Chooses s t) : upstreams t = upstreams s :=
  upstreams_of_remote h.only (of_apartFromUpstream h.apart).2.1

theorem bestCand_mem {s : State} {l : List Cand} {c : Cand} (h : bestCand s l = some c) : c ∈ l := by
  induction l generalizing c with
  | nil => cases h
  | cons d r ih =>
    unfold bestCand at h
    split at h
    · next e he =>
      split at h
      · cases h
        exact List.mem_cons_of_mem _ (ih he)
      · cases h
        exact List.mem_cons_self
    · cases h
      exact List.mem_cons_self

theorem bestCand_isSome {s : State} {l : List Cand} (h : l ≠ []) : ∃ c, bestCand s l = some c := by
  cases l with
  | nil => exact absurd rfl h
  | cons d r =>
    unfold bestCand
    split
    · split <;> exact ⟨_, rfl⟩
    · exact ⟨_, rfl⟩

/-- A follower with a candidate follows one of them. -/
theorem reselect_follows {s : State} (hmaster : isMaster s = true) (hnot : s.mer.isMaster = false) (hsome : upstreams s ≠ []) :
    ∃ c ∈ upstreams s, reselect s = follow s c := by
  obtain ⟨best, hbest⟩ := bestCand_isSome (s := s) hsome
  have hmem := bestCand_mem hbest
  unfold reselect
  rw [if_neg (by simp [hmaster, hnot])]
  dsimp only
  rw [hbest]
  dsimp only
  split
  · next cur hcur =>
    refine ⟨_, ?_, rfl⟩
    split
    · exact hmem
    · exact List.mem_of_find?_eq_some hcur
  · exact ⟨best, hmem, rfl⟩

theorem chooses_reselect (s : State) : Chooses s (reselect s) := by
  unfold reselect
  split
  · exact .refl s
  · dsimp only
    split
    · exact .refl s
    · split <;> exact chooses_follow ..

theorem reselect_elsewhere {s : State} (h : isMaster s = false) : reselect s = s := if_pos (.inl (by simp [h]))

/-! ## A beacon that is heard -/

/-- The port's marks when a beacon comes. -/
def beaconHeard (now count : Nat) (b : BitVec 256) (x : Port) : Port :=
  { x with peerBeacon := some b, peerBeaconAt := now, t2Rx := count, fresh := x.fresh + 1 }

/-- The link has heard from its peer. -/
def heardPort (s : State) (p : Nat) : Port := { port s p with link := { (port s p).link with heard := s.clock } }

/-- The beacon noted, and who is heard. -/
def beaconNoted (p : Nat) (b : BitVec 256) (s : State) : State :=
  noteHeard (setPort (updLink s p fun l => { l with heard := s.clock }) p
    (beaconHeard s.clock s.mer.count b (heardPort s p))) (bMaster b) (bStratum b)

/-- One that completes a sample: the first since the own last one, in time. -/
def completesNow (p : Nat) (b : BitVec 256) (s : State) : Bool :=
  decide ((port s p).fresh = 0 ∧ (port s p).t1 ≠ 0 ∧ cNum b 13 8 ≠ 0 ∧ s.mer.count ≤ (port s p).t1 + 4 * beaconInterval s)

theorem completesNow_of {s : State} {p : Nat} {b : BitVec 256} (h : Completes s p b) : completesNow p b s = true := by
  refine decide_eq_true ?_
  rw [show 4 * beaconInterval s = 16000 * reg s 0x9020 1 from (Nat.mul_assoc 4 4000 _).symm]
  exact h

theorem beaconReceive_eq {p : Nat} {b : BitVec 256} {s : State} (h : ControlTaken s p b ctBeacon) :
    beaconReceive p b s =
      if completesNow p b s = false then passBeacon (reselect (beaconNoted p b s)) p b none
      else if (port s p).delays.length = 16 ∧
          (20 < (beaconSample s p b).1 - meanDelay (port s p) ∨ (beaconSample s p b).1 - meanDelay (port s p) < -20) then
        bumpAt (passBeacon (reselect (beaconNoted p b s)) p b none) 0x9020 8 p
      else useSample (reselect (beaconNoted p b s)) p b (beaconSample s p b).1 (beaconSample s p b).2 := by
  unfold beaconReceive
  rw [takeControl_taken h]
  dsimp only
  simp only [beaconSample, link_heard]
  have hnot : ∀ c : Prop, [Decidable c] → ((!decide c) = true ↔ decide c = false) := fun c _ => by simp
  exact if_congr (hnot _) rfl rfl

theorem beaconNoted_only (p : Nat) (b : BitVec 256) (s : State) :
    beaconNoted p b s = { s with ports := (beaconNoted p b s).ports, mer := (beaconNoted p b s).mer } := rfl

theorem port_beaconNoted (p : Nat) (b : BitVec 256) (s : State) :
    port (beaconNoted p b s) p = beaconHeard s.clock s.mer.count b (heardPort s p) :=
  port_setPort_self ..

theorem port_beaconNoted_ne {p q : Nat} (b : BitVec 256) (s : State) (h : q ≠ p) : port (beaconNoted p b s) q = port s q :=
  (port_setPort_ne _ _ _ _ (Ne.symm h)).trans (port_updPort_ne _ _ (Ne.symm h))

theorem passBeacon_elsewhere {s : State} (h : isMaster s = false) (p : Nat) (b : BitVec 256) (sample : Option (Int × Int)) :
    passBeacon s p b sample = emit s (.cascadeBeacon p sample (bMaster b) (BitVec.ofNat 8 (bStratum b)) (bHold b)) :=
  if_neg (by simp [h])

/-- A beacon that completes no sample is noted, and the upstream chosen. -/
theorem beaconReceive_noted {p : Nat} {b : BitVec 256} {s t : State} (h : ControlTaken s p b ctBeacon)
    (hfresh : (port s p).fresh ≠ 0) (ht : t = beaconReceive p b s) :
    port t p = beaconHeard s.clock s.mer.count b (heardPort s p) ∧ t.mer.count = s.mer.count ∧
      (isMaster s = true → s.mer.isMaster = false → upstreams t ≠ [] →
        ∃ c ∈ upstreams t, t.mer.upstream = c.code ∧ (t.mer.stratum = c.stratum + 1) ∧ t.mer.master = c.master) ∧
      t.out = (if isMaster s then s.out
        else s.out ++ [.cascadeBeacon p none (bMaster b) (BitVec.ofNat 8 (bStratum b)) (bHold b)]) ∧
      t = { s with ports := t.ports, mer := t.mer, out := t.out } ∧ ∀ q, q ≠ p → port t q = port s q := by
  have hnone : completesNow p b s = false := decide_eq_false fun k => hfresh k.1
  rw [beaconReceive_eq h, if_pos hnone] at ht
  have hnoted := port_beaconNoted p b s
  have hothers := fun q hq => port_beaconNoted_ne (p := p) (q := q) b s hq
  have honly := beaconNoted_only p b s
  have hcount : (beaconNoted p b s).mer.count = s.mer.count := rfl
  have hrole : (beaconNoted p b s).mer.isMaster = s.mer.isMaster := rfl
  have hchoose := chooses_reselect (beaconNoted p b s)
  have hfollow := reselect_follows (s := beaconNoted p b s)
  generalize beaconNoted p b s = u at *
  have hups := hchoose.upstreams
  generalize hv : reselect u = v at *
  have hports : v.ports = u.ports := (congrArg State.ports hchoose.only :)
  have hcountv : v.mer.count = s.mer.count := (of_apartFromUpstream hchoose.apart).1.trans hcount
  have honlyv : v = { s with ports := v.ports, mer := v.mer } := by
    rw [hchoose.only, honly]
  have hmasters : isMaster v = isMaster s := by rw [honlyv]; rfl
  have hmasteru : isMaster u = isMaster s := by rw [honly]; rfl
  have hchosen : isMaster s = true → s.mer.isMaster = false → upstreams v ≠ [] →
      ∃ c ∈ upstreams v, v.mer.upstream = c.code ∧ (v.mer.stratum = c.stratum + 1) ∧ v.mer.master = c.master := by
    intro hmaster hnot hsome
    rw [hups] at hsome ⊢
    obtain ⟨c, hc, hrun⟩ := hfollow (hmasteru.trans hmaster) (hrole.trans hnot) hsome
    exact ⟨c, hc, by rw [hrun]; exact ⟨rfl, rfl, rfl⟩⟩
  have hport : ∀ q, port v q = port u q := fun q => by rw [port, port, hports]
  rw [passBeacon] at ht
  split at ht
  · next hmaster =>
    rw [ht]
    refine ⟨(hport p).trans hnoted, hcountv, hchosen, ?_, ?_, fun q hq => (hport q).trans (hothers q hq)⟩
    · rw [if_pos (hmasters.symm.trans hmaster), honlyv]
    · rw [honlyv]
  · next hmaster =>
    rw [ht]
    refine ⟨(hport p).trans hnoted, hcountv, hchosen, ?_, ?_, fun q hq => (hport q).trans (hothers q hq)⟩
    · rw [if_neg (fun k => hmaster (hmasters.trans k)), honlyv]
      rfl
    · rw [honlyv]
      rfl

/-- At another inst the beacon that completes a sample is noted, and no upstream is chosen. -/
theorem reselect_beaconNoted {s : State} (hmaster : isMaster s = false) (p : Nat) (b : BitVec 256) :
    reselect (beaconNoted p b s) = beaconNoted p b s := reselect_elsewhere hmaster

theorem delays_beaconNoted (p : Nat) (b : BitVec 256) (s : State) :
    (port (beaconNoted p b s) p).delays = (port s p).delays := by
  rw [port_beaconNoted]
  rfl

/-- The sample goes to inst 0, and its delay into the mean. -/
theorem beaconReceive_sample {p : Nat} {b : BitVec 256} {s t : State} (h : ControlTaken s p b ctBeacon)
    (hmaster : isMaster s = false) (hcomplete : Completes s p b) (hshort : (port s p).delays.length < 16)
    (ht : t = beaconReceive p b s) :
    (port t p).delays = (port s p).delays ++ [SampleDelay s p b] ∧
      t.out = s.out ++ [.cascadeBeacon p (some (SampleDelay s p b, (s.mer.count : Int) - ((cNum b 5 8 : Int) + SampleDelay s p b)))
        (bMaster b) (BitVec.ofNat 8 (bStratum b)) (bHold b)] ∧
      t = { s with ports := t.ports, mer := t.mer, out := t.out } := by
  rw [beaconReceive_eq h, if_neg (by simp [completesNow_of hcomplete]), if_neg (fun k => absurd k.1 (Nat.ne_of_lt hshort)),
    reselect_beaconNoted hmaster] at ht
  have hdelays := delays_beaconNoted p b s
  have honly := beaconNoted_only p b s
  generalize beaconNoted p b s = u at *
  have hmasteru : isMaster u = false := by rw [honly]; exact hmaster
  have hpassed : t = emit (updPort u p fun x => { x with
      delays := (x.delays ++ [(beaconSample s p b).1]).drop (x.delays.length + 1 - 16) })
      (.cascadeBeacon p (some (beaconSample s p b)) (bMaster b) (BitVec.ofNat 8 (bStratum b)) (bHold b)) := by
    rw [ht, useSample]
    have hnot : ∀ v : State, isMaster v = isMaster u → ¬ isMaster v = true := fun v hv => by rw [hv, hmasteru]; simp
    exact (if_neg (hnot _ rfl)).trans (passBeacon_elsewhere (by exact hmasteru) ..)
  rw [hpassed]
  refine ⟨?_, by rw [honly]; rfl, by rw [honly]; rfl⟩
  rw [show ∀ (v : State) (o : Output), port (emit v o) p = port v p from fun _ _ => rfl, port_updPort]
  dsimp only
  rw [hdelays, show (port s p).delays.length + 1 - 16 = 0 by omega]
  rfl

/-- A sample whose delay lies far above the mean is counted. -/
theorem beaconReceive_far {p : Nat} {b : BitVec 256} {s t : State} (h : ControlTaken s p b ctBeacon)
    (hmaster : isMaster s = false) (hcomplete : Completes s p b) (hfull : (port s p).delays.length = 16)
    (hfar : 20 < SampleDelay s p b - meanDelay (port s p)) (ht : t = beaconReceive p b s) :
    (port t p).delays = (port s p).delays ∧ Counted 0x9020 8 p s t ∧
      t.out = s.out ++ [.cascadeBeacon p none (bMaster b) (BitVec.ofNat 8 (bStratum b)) (bHold b)] ∧
      t = { s with ports := t.ports, mer := t.mer, regs := t.regs, out := t.out } := by
  rw [beaconReceive_eq h, if_neg (by simp [completesNow_of hcomplete]), if_pos ⟨hfull, .inl hfar⟩,
    reselect_beaconNoted hmaster] at ht
  have hdelays := delays_beaconNoted p b s
  have honly := beaconNoted_only p b s
  generalize beaconNoted p b s = u at *
  have hmasteru : isMaster u = false := by rw [honly]; exact hmaster
  rw [passBeacon_elsewhere hmasteru] at ht
  rw [ht]
  exact ⟨hdelays, by rw [honly]; rfl, by rw [honly]; rfl, by rw [honly]; rfl⟩

/-! ## What inst 0 hears of other insts -/

theorem instId_of_isMaster {s : State} (h : isMaster s = true) : instId s = 0 := by
  simpa [isMaster, instId] using h

/-- Another inst's beacon noted, before the choice. -/
def remoteNoted (s : State) (k : Nat) (off : Int) (master : NodeId) (stratum : Nat) (hold : Bool) : State :=
  noteHeard (setMer s fun m => { m with remote := tput m.remote k (off, master, stratum, hold, s.clock) }) master stratum

theorem cascadeBeaconSample_eq {src p : Nat} {offset : Option Int} {master : NodeId} {stratum : Nat} {hold : Bool} {s : State}
    (hawake : awake s = true) (hmaster : isMaster s = true) (hsrc : src ≠ 0) :
    cascadeBeaconSample src p offset master stratum hold s = match offset with
      | none => remoteBeacon s (src * 12 + p) 0 master stratum hold
      | some off => sampleOf (remoteBeacon s (src * 12 + p) off master stratum hold) (p + 16 * src) off :=
  if_neg (by simp [hawake, hmaster, instId_of_isMaster hmaster, hsrc])

theorem disciplines_sampleOf (s : State) (code : Nat) (off : Int) : Disciplines s (sampleOf s code off) := by
  unfold sampleOf
  split
  · exact disciplines_acceptSample ..
  · exact .refl s

theorem cascadeBeaconSample_some {src p : Nat} {off : Int} {master : NodeId} {stratum : Nat} {hold : Bool} {s t : State}
    (hawake : awake s = true) (hmaster : isMaster s = true) (hsrc : src ≠ 0)
    (ht : t = cascadeBeaconSample src p (some off) master stratum hold s) :
    tget t.mer.remote (src * 12 + p) = some (off, master, stratum, hold, s.clock) ∧
      t = { s with mer := t.mer, regs := t.regs, faults := t.faults, charts := t.charts } := by
  rw [cascadeBeaconSample_eq hawake hmaster hsrc] at ht
  dsimp only at ht
  have hsample := disciplines_sampleOf (remoteBeacon s (src * 12 + p) off master stratum hold) (p + 16 * src) off
  rw [← ht] at hsample
  have hchoose := chooses_reselect (remoteNoted s (src * 12 + p) off master stratum hold)
  change Chooses _ (remoteBeacon s (src * 12 + p) off master stratum hold) at hchoose
  generalize remoteBeacon s (src * 12 + p) off master stratum hold = u at *
  constructor
  · rw [show t.mer.remote = u.mer.remote from (congrArg Prod.snd hsample.marks :),
      (of_apartFromUpstream hchoose.apart).2.1]
    exact tget_tput_self ..
  · rw [hsample.only, hchoose.only]
    rfl

theorem cascadeBeaconSample_none {src p : Nat} {master : NodeId} {stratum : Nat} {hold : Bool} {s t : State}
    (hawake : awake s = true) (hmaster : isMaster s = true) (hsrc : src ≠ 0)
    (ht : t = cascadeBeaconSample src p none master stratum hold s) :
    t.mer.heardDes = (if designation s 1 = some master ∧ stratum < 128 then some s.clock else s.mer.heardDes) ∧
      t.mer.heardStb = (if designation s 2 = some master ∧ stratum ≠ 255 then some s.clock else s.mer.heardStb) ∧
      t.mer.count = s.mer.count ∧ t = { s with mer := t.mer } := by
  rw [cascadeBeaconSample_eq hawake hmaster hsrc] at ht
  dsimp only at ht
  have hchoose := chooses_reselect (remoteNoted s (src * 12 + p) 0 master stratum hold)
  change Chooses _ (remoteBeacon s (src * 12 + p) 0 master stratum hold) at hchoose
  rw [← ht] at hchoose
  obtain ⟨hcount, -, hdes, hstb⟩ := of_apartFromUpstream hchoose.apart
  refine ⟨hdes, hstb, hcount, ?_⟩
  rw [hchoose.only]
  rfl

/-- Settles O47: a beacon that is sent, one that is heard, and those of other insts. -/
theorem beacons : Obligations.Beacons := by
  unfold Obligations.Beacons
  refine ⟨fun p s hworks hdue hmay hwait => ⟨_, rfl, ?_⟩, fun p s hearly => congrArg Host.Outcome.next (if_neg ?_),
    fun p b s htaken hfresh => ⟨_, rfl, ?_⟩, fun p b s d off htaken hmaster hcomplete hshort hd hoff => ⟨_, rfl, ?_⟩,
    fun p b s d htaken hmaster hcomplete hfull hd hfar => ⟨_, rfl, ?_⟩,
    fun src p delay off m st h s hawake hmaster hsrc => ⟨_, rfl, cascadeBeaconSample_some hawake hmaster hsrc rfl⟩,
    fun src p delay m st h s hawake hmaster hsrc => ⟨_, rfl, cascadeBeaconSample_none hawake hmaster hsrc rfl⟩,
    fun src p delay off m st h s hmaster => congrArg Host.Outcome.next (if_pos (by simp [hmaster]))⟩
  · obtain ⟨hsends, hmarks, honly, hothers⟩ := beaconSend_effect (beaconDue_of hworks hdue) hmay hwait rfl
    exact ⟨hsends, (congrArg (fun x => x.2.1) hmarks :), (congrArg (fun x => x.2.2.1) hmarks :),
      (congrArg (fun x => x.2.2.2) hmarks :), (congrArg Prod.fst hmarks :), honly, hothers⟩
  · have hnot : passed s (port s p).beaconAt (beaconInterval s) = false := decide_eq_false (Nat.not_le.mpr hearly)
    simp [beaconDue, hnot]
  · obtain ⟨hport, hcount, hchosen, hout, honly, hothers⟩ := beaconReceive_noted htaken hfresh rfl
    exact ⟨(congrArg Port.peerBeacon hport :), (congrArg Port.peerBeaconAt hport :), (congrArg Port.t2Rx hport :),
      (congrArg Port.fresh hport :), hcount, hchosen, hout, honly, hothers⟩
  · subst hd hoff
    exact beaconReceive_sample htaken hmaster hcomplete hshort rfl
  · subst hd
    exact beaconReceive_far htaken hmaster hcomplete hfull hfar rfl

end Sys2Proof.Machine
end

section
/-! Charts: the samples, the interval that closes, the chart that goes out and the one that arrives (R243, R261 to R264). -/

namespace Sys2Proof.Machine
open Sys2Proof

/-! ## Samples -/

theorem mem_formedPorts {s : State} {p : Nat} : p ∈ formedPorts s ↔ p < 12 ∧ 0 < portWidth s p := by
  simp [formedPorts, twelve]

/-- A VC's entry in the table of a port's buckets. -/
def bucketKey (s : State) (p v : Nat) : Nat := v * 8 + bucketOf s p v

theorem bucketOf_lt (s : State) (p v : Nat) : bucketOf s p v < 8 := by
  unfold bucketOf
  dsimp only
  repeat' split
  all_goals decide

theorem bucketOf_of_ports {s t : State} {p : Nat} (honly : t = { s with ports := t.ports })
    (hlink : (port t p).link = (port s p).link) (v : Nat) : bucketOf t p v = bucketOf s p v := by
  have hcharged : ∀ a, charged t a = charged s a := fun a => by rw [honly]; rfl
  have hshare : egressShare t p v = egressShare s p v := by rw [honly]; rfl
  unfold bucketOf
  rw [hcharged, hshare, hlink]

/-- The table of the buckets with one more in each of a list of VCs. -/
def sampledHist (s : State) (p : Nat) (vs : List Nat) (h : Tbl Nat) : Tbl Nat :=
  vs.foldl (fun h v => tput h (bucketKey s p v) (tgetD h (bucketKey s p v) 0 + 1)) h

/-- The VCs have their own buckets. -/
theorem bucketKey_ne {s : State} {p v w : Nat} (h : v ≠ w) : bucketKey s p v ≠ bucketKey s p w := by
  have hv := bucketOf_lt s p v
  have hw := bucketOf_lt s p w
  unfold bucketKey
  omega

theorem tgetD_sampledHist_notMem {s : State} {p v : Nat} {vs : List Nat} (h : v ∉ vs) (t : Tbl Nat) :
    tgetD (sampledHist s p vs t) (bucketKey s p v) 0 = tgetD t (bucketKey s p v) 0 := by
  induction vs generalizing t with
  | nil => rfl
  | cons w r ih =>
    obtain ⟨hw, hr⟩ := not_or.mp (List.mem_cons.not.mp h)
    exact (ih hr _).trans (tgetD_tput_ne _ _ _ _ _ (bucketKey_ne (Ne.symm hw)))

theorem tgetD_sampledHist_mem {s : State} {p v : Nat} {vs : List Nat} (h : v ∈ vs) (hnodup : vs.Nodup) (t : Tbl Nat) :
    tgetD (sampledHist s p vs t) (bucketKey s p v) 0 = tgetD t (bucketKey s p v) 0 + 1 := by
  induction vs generalizing t with
  | nil => cases h
  | cons w r ih =>
    obtain ⟨hw, hr⟩ := List.nodup_cons.mp hnodup
    rcases List.mem_cons.mp h with rfl | hmem
    · exact (tgetD_sampledHist_notMem hw _).trans (tgetD_tput_self ..)
    · refine (ih hmem hr _).trans (congrArg (· + 1) (tgetD_tput_ne _ _ _ _ _ (bucketKey_ne ?_)))
      rintro rfl
      exact hw hmem

theorem port_samplePort (s : State) (p : Nat) :
    port (samplePort s p) p = { port s p with hist := sampledHist s p (List.range 5) (port s p).hist } :=
  port_updPort ..

theorem port_samplePort_ne (s : State) {p q : Nat} (h : p ≠ q) : port (samplePort s p) q = port s q :=
  port_updPort_ne _ _ h

theorem bucketOf_samplePort (s : State) (p q v : Nat) : bucketOf (samplePort s p) q v = bucketOf s q v := by
  refine bucketOf_of_ports rfl ?_ v
  unfold samplePort
  exact updPort_keeps (g := Port.link) (fun _ => by rfl) s p q

/-- The sample of a list of ports. -/
theorem port_foldl_samplePort {p : Nat} (l : List Nat) (hnodup : l.Nodup) (s : State) :
    port (l.foldl samplePort s) p =
      if p ∈ l then { port s p with hist := sampledHist s p (List.range 5) (port s p).hist } else port s p := by
  induction l generalizing s with
  | nil => rfl
  | cons q r ih =>
    obtain ⟨hq, hr⟩ := List.nodup_cons.mp hnodup
    have hsame : ∀ h, sampledHist (samplePort s q) p (List.range 5) h = sampledHist s p (List.range 5) h := by
      intro h
      unfold sampledHist bucketKey
      simp only [bucketOf_samplePort]
    rw [List.foldl_cons, ih hr, hsame]
    by_cases hp : q = p
    · subst hp
      rw [if_neg hq, if_pos List.mem_cons_self, port_samplePort]
    · rw [port_samplePort_ne _ hp]
      simp [Ne.symm hp]

theorem foldl_samplePort_only (l : List Nat) (s : State) :
    l.foldl samplePort s = { s with ports := (l.foldl samplePort s).ports } := by
  induction l generalizing s with
  | nil => rfl
  | cons q r ih =>
    rw [List.foldl_cons, ih]
    rfl

theorem chartSample_effect {s t : State} (htimed : timed s = true) (hless : s.charts.samples < 255)
    (hdue : s.charts.start * 255 + s.charts.samples * (4000 * s.charts.length) ≤ s.mer.count * 255)
    (ht : t = chartSample s) : t.charts = { s.charts with samples := s.charts.samples + 1 } ∧
      (∀ p v, p < 12 → 0 < portWidth s p → v < 5 →
        tgetD (port t p).hist (v * 8 + bucketOf s p v) 0 = tgetD (port s p).hist (v * 8 + bucketOf s p v) 0 + 1) ∧
      t = { s with ports := t.ports, charts := t.charts } := by
  have hrun : t = { (formedPorts s).foldl samplePort s with
      charts := { ((formedPorts s).foldl samplePort s).charts with samples := s.charts.samples + 1 } } :=
    ht.trans (if_pos ⟨hless, htimed, hdue⟩)
  have honly := foldl_samplePort_only (formedPorts s) s
  have hport := fun p => port_foldl_samplePort (p := p) (formedPorts s) (List.Nodup.filter _ List.nodup_range) s
  generalize (formedPorts s).foldl samplePort s = u at *
  rw [hrun]
  refine ⟨by rw [honly], fun p v hp hwidth hv => ?_, by rw [honly]⟩
  rw [show port { u with charts := { u.charts with samples := s.charts.samples + 1 } } p = port u p from rfl, hport,
    if_pos (mem_formedPorts.mpr ⟨hp, hwidth⟩)]
  exact tgetD_sampledHist_mem (List.mem_range.mpr hv) List.nodup_range _

/-! ## The interval that ends -/

/-- What a port counts for its chart. -/
def chartMarks (x : Port) : Tbl Nat × Mt × Mt := (x.hist, x.txTime, x.rxTime)

theorem chartMarks_of_portBody {x y : Port} (h : portBody x = portBody y) : chartMarks x = chartMarks y :=
  (congrArg chartMarks h :)

/-- What the end of an interval leaves of the state, beside the counts it raises and the ports' records. -/
def besideRoll (s : State) : (Tbl Ctx × Memory × Tbl Coll) × Option (Nat × Nat × Bytes × Nat) := (inside s, s.charts.closed)

/-- The entry lies outside those of the faults. -/
def BesideFaults (i j k : Nat) : Prop := regKey i j k < regKey 0x7000 0 0 ∨ regKey 0x8000 0 0 ≤ regKey i j k

theorem regAt_reportShort {i j k : Nat} (h : BesideFaults i j k) (s : State) (p : Nat) (old : List Nat) :
    regAt (reportShort s p old) i j k = regAt s i j k := by
  unfold reportShort
  refine foldl_keeps (fun t => regAt t i j k) _ (fun t v => ?_) _ _
  exact h.elim regAt_report_below (regAt_report_above (by decide))

theorem Stores.besideRoll {s t : State} (h : Stores s t) : besideRoll t = besideRoll s :=
  Prod.ext h.inside (congrArg (fun u : State => u.charts.closed) h.beside :)

theorem Reported.besideRoll {s t : State} (h : Reported s t) : besideRoll t = besideRoll s :=
  Prod.ext h.inside (congrArg (fun u : State => u.charts.closed) h :)

/-- What changes a port's round trip leaves what the port counts. -/
theorem rollRtt_keeps (s : State) (p : Nat) : besideRoll (rollRtt s p) = besideRoll s ∧
    (∀ q, chartMarks (port (rollRtt s p) q) = chartMarks (port s q)) ∧
    ∀ i j k, BesideFaults i j k → regAt (rollRtt s p) i j k = regAt s i j k := by
  have hlink : ∀ (f : Link → Link) q, chartMarks (port (updLink s p f) q) = chartMarks (port s q) := fun f q =>
    updPort_keeps (g := chartMarks) (fun _ => by rfl) s p q
  unfold rollRtt
  dsimp only
  split
  · exact ⟨rfl, fun _ => rfl, fun _ _ _ _ => rfl⟩
  · unfold withHeadroom
    dsimp only
    split
    · have hxoff := stores_refreshXoff (reportShort (updLink s p fun l => { l with
        rttLast := l.rttOpen, rttOpen := 0, rttClosed := true }) p (shortShares s p)) p
      have hshort := reported_reportShort (updLink s p fun l => { l with
        rttLast := l.rttOpen, rttOpen := 0, rttClosed := true }) p (shortShares s p)
      refine ⟨hxoff.besideRoll.trans hshort.besideRoll, fun q => ?_, fun i j k h => ?_⟩
      · exact (chartMarks_of_portBody (hxoff.body q)).trans ((congrArg chartMarks (hshort.port q)).trans (hlink _ q))
      · rw [regAt, hxoff.regs]
        exact regAt_reportShort h ..
    · exact ⟨rfl, hlink _, fun _ _ _ _ => rfl⟩

theorem chartMarks_rollPort (rep : Bool) (s : State) (p : Nat) : chartMarks (port (rollPort rep s p) p) = ([], 0, 0) :=
  congrArg chartMarks (port_setPort_self ..)

theorem chartMarks_rollPort_ne (rep : Bool) (s : State) {p q : Nat} (h : p ≠ q) : port (rollPort rep s p) q = port s q :=
  port_setPort_ne _ _ _ _ h

/-- The ports of a list begin their counts anew. -/
theorem rollPorts_empty {rep : Bool} {p : Nat} (l : List Nat) (s : State)
    (h : p ∈ l ∨ chartMarks (port s p) = ([], 0, 0)) :
    chartMarks (port (l.foldl (fun t p => rollRtt (rollPort rep t p) p) s) p) = ([], 0, 0) := by
  induction l generalizing s with
  | nil => exact h.resolve_left List.not_mem_nil
  | cons q r ih =>
    refine ih _ ?_
    have hrtt := (rollRtt_keeps (rollPort rep s q) q).2.1 p
    by_cases hq : q = p
    · subst hq
      exact .inr (hrtt.trans (chartMarks_rollPort ..))
    · rw [hrtt, chartMarks_rollPort_ne _ _ hq]
      exact h.imp_left fun hmem => (List.mem_cons.mp hmem).resolve_left (Ne.symm hq)

theorem rollPorts_keeps (rep : Bool) (l : List Nat) (s : State) :
    besideRoll (l.foldl (fun t p => rollRtt (rollPort rep t p) p) s) = besideRoll s ∧
      ∀ i j k, BesideFaults i j k → regAt (l.foldl (fun t p => rollRtt (rollPort rep t p) p) s) i j k = regAt s i j k :=
  ⟨foldl_keeps besideRoll _ (fun t p => (rollRtt_keeps (rollPort rep t p) p).1) l s,
    fun i j k h => foldl_keeps (fun t => regAt t i j k) _ (fun t p => (rollRtt_keeps (rollPort rep t p) p).2.2 i j k h) l s⟩

/-- With no collective that lags the marks are cleared. -/
theorem remark_clears {s : State} (h : s.colls = []) : besideRoll (remark s) = besideRoll s ∧
    (∀ q, chartMarks (port (remark s) q) = chartMarks (port s q)) ∧ (remark s).regs = s.regs ∧
    (remark s).charts = s.charts := by
  have hon : (lagging s != []) = false := by simp [lagging, h]
  have hport : ∀ (t : State) p, markPort false t p =
      if (port t p).marked then updPort t p fun q => { q with marked := false } else t := by
    intro t p
    unfold markPort
    exact if_neg (by simp)
  unfold remark
  dsimp only
  rw [hon]
  have hports : ∀ {β : Type} (g : State → β), (∀ t p, g (updPort t p fun q => { q with marked := false }) = g t) →
      g (twelve.foldl (markPort false) s) = g s := by
    intro β g hg
    refine foldl_keeps g _ (fun t p => ?_) _ _
    rw [hport]
    split
    · exact hg t p
    · rfl
  have hunits : ∀ {β : Type} (g : State → β), (∀ t u f, g (updSext t u f) = g t) → ∀ t,
      g ((List.range 16).foldl (fun t u =>
        if (sext t u).marked == (false && (sext t u).onlyPaced) then t
        else updSext t u fun x => { x with marked := false && x.onlyPaced }) t) = g t := by
    intro β g hg t
    refine foldl_keeps g _ (fun t u => ?_) _ _
    split
    · rfl
    · exact hg ..
  exact ⟨(hunits besideRoll (fun _ _ _ => rfl) _).trans (hports besideRoll fun _ _ => rfl),
    fun q => (hunits (fun t => chartMarks (port t q)) (fun _ _ _ => rfl) _).trans
      (hports (fun t => chartMarks (port t q)) fun t p => updPort_keeps (g := chartMarks) (fun _ => by rfl) t p q),
    (hunits State.regs (fun _ _ _ => rfl) _).trans (hports State.regs fun _ _ => rfl),
    (hunits State.charts (fun _ _ _ => rfl) _).trans (hports State.charts fun _ _ => rfl)⟩

/-- The ports and units at the end of an interval. -/
def rolledOver (rep : Bool) (s : State) : State :=
  (List.range 16).foldl (fun t u => updSext t u fun x => { x with onlyPaced := !x.other, other := false })
    ((formedPorts s).foldl (fun t p => rollRtt (rollPort rep t p) p) s)

theorem rolledOver_keeps (rep : Bool) (s : State) : besideRoll (rolledOver rep s) = besideRoll s ∧
    (∀ i j k, BesideFaults i j k → regAt (rolledOver rep s) i j k = regAt s i j k) ∧
    ∀ p, p < 12 → 0 < portWidth s p → chartMarks (port (rolledOver rep s) p) = ([], 0, 0) := by
  have hunits : ∀ {β : Type} (g : State → β), (∀ t u f, g (updSext t u f) = g t) →
      g (rolledOver rep s) = g ((formedPorts s).foldl (fun t p => rollRtt (rollPort rep t p) p) s) :=
    fun g hg => foldl_keeps g _ (fun _ _ => hg ..) _ _
  obtain ⟨hroll, hregs⟩ := rollPorts_keeps rep (formedPorts s) s
  refine ⟨(hunits besideRoll fun _ _ _ => rfl).trans hroll, fun i j k h => ?_, fun p hp hwidth => ?_⟩
  · exact (hunits (fun t => regAt t i j k) fun _ _ _ => rfl).trans (hregs i j k h)
  · exact (hunits (fun t => chartMarks (port t p)) fun _ _ _ => rfl).trans
      (rollPorts_empty _ s (.inl (mem_formedPorts.mpr ⟨hp, hwidth⟩)))

/-- The counts of the end of an interval. -/
def rollCounted (rep : Bool) (s : State) : State := bump (if rep then bump (setReg s 0xB000 9 1) 0xB000 8 else s) 0x3900 4

theorem rollCounted_keeps (rep : Bool) (s : State) : rollCounted rep s = { s with regs := (rollCounted rep s).regs } := by
  cases rep <;> rfl

theorem regAt_rollCounted_epochs (rep : Bool) (s : State) :
    regAt (rollCounted rep s) 0x3900 4 0 = regAt (bumpAt s 0x3900 4 0) 0x3900 4 0 := by
  cases rep with
  | false => rfl
  | true =>
    refine regAt_bumpAt_congr ?_
    exact (regAt_bumpBy_ne _ _ _ _ _ _ _ _ (by decide)).trans (regAt_setRegAt_ne _ _ _ _ _ _ _ _ (by decide))

theorem regAt_rollCounted_intervals (s : State) :
    regAt (rollCounted true s) 0xB000 8 0 = regAt (bumpAt s 0xB000 8 0) 0xB000 8 0 := by
  refine (regAt_bumpBy_ne _ _ _ _ _ _ _ _ (by decide)).trans (regAt_bumpAt_congr ?_)
  exact regAt_setRegAt_ne _ _ _ _ _ _ _ _ (by decide)

/-- The next interval, empty. -/
def nextInterval (rep : Bool) (s u : State) (b : Nat) : Charts :=
  { u.charts with
    start := b, reported := true, length := if b % usMt (reg s 0xB000 1) = 0 then reg s 0xB000 1 else s.charts.length,
    samples := 0, det := deterministic u, incPeak := 0, stgPeak := 0,
    closed := if rep then some (s.charts.start, s.charts.length, chartHead s, 0) else u.charts.closed }

/-- Whether the interval that ends follows the one before it. -/
def follows (s : State) (b : Nat) : Bool := s.charts.reported && s.charts.start + chartSpan s == b

theorem chartIntervalClose_eq {s : State} {b : Nat} (hturn : inTurn s 5 (nextMultiple (chartSpan s) s.charts.start) = true)
    (hb : b = s.mer.count / chartSpan s * chartSpan s) (hne : b ≠ s.charts.start / chartSpan s * chartSpan s) :
    chartIntervalClose s = remark (notePeaks { rollCounted (follows s b) (rolledOver (follows s b) s) with
      charts := nextInterval (follows s b) s (rollCounted (follows s b) (rolledOver (follows s b) s)) b }) := by
  subst hb
  refine if_neg ?_
  rw [hturn]
  exact fun h => h.elim (by simp) hne

theorem chartIntervalClose_effect {s t : State} {b : Nat} (hcolls : s.colls = [])
    (ht : t = remark (notePeaks { rollCounted (follows s b) (rolledOver (follows s b) s) with
      charts := nextInterval (follows s b) s (rollCounted (follows s b) (rolledOver (follows s b) s)) b })) :
    t.charts.start = b ∧ t.charts.samples = 0 ∧ t.charts.reported = true ∧ Counted 0x3900 4 0 s t ∧
      (follows s b = true → Counted 0xB000 8 0 s t ∧
        t.charts.closed = some (s.charts.start, s.charts.length, chartHead s, 0)) ∧
      (follows s b = false → t.charts.closed = s.charts.closed) ∧
      (∀ p, p < 12 → 0 < portWidth s p → chartMarks (port t p) = ([], 0, 0)) ∧ inside t = inside s := by
  obtain ⟨hroll, hregs, hports⟩ := rolledOver_keeps (follows s b) s
  have hepochs := regAt_rollCounted_epochs (follows s b) (rolledOver (follows s b) s)
  have hintervals := regAt_rollCounted_intervals (rolledOver (follows s b) s)
  have hcounted := rollCounted_keeps (follows s b) (rolledOver (follows s b) s)
  generalize follows s b = rep at *
  generalize rolledOver rep s = u at *
  have hinside : inside u = inside s := congrArg Prod.fst hroll
  have hclosed : u.charts.closed = s.charts.closed := congrArg Prod.snd hroll
  have hcolls' : u.colls = [] := (congrArg (fun x => x.2.2) hinside).trans hcolls
  have hrep : rep = true → rollCounted rep u = rollCounted true u := fun h => by rw [h]
  generalize rollCounted rep u = v at *
  obtain ⟨hkept, hmarks, hregs', hcharts⟩ := remark_clears (s := notePeaks { v with charts := nextInterval rep s v b })
    (show v.colls = [] by rw [hcounted]; exact hcolls')
  rw [← ht] at hkept hmarks hregs' hcharts
  have hregAt : ∀ i j k, regAt t i j k = regAt v i j k := fun i j k => by rw [regAt, hregs']; rfl
  refine ⟨by rw [hcharts]; rfl, by rw [hcharts]; rfl, by rw [hcharts]; rfl, ?_, fun hfollows => ⟨?_, ?_⟩, fun hnot => ?_,
    fun p hp hwidth => ?_, ?_⟩
  · exact (hregAt ..).trans (hepochs.trans (regAt_bumpAt_congr (hregs _ _ _ (.inl (by decide)))))
  · rw [hrep hfollows] at hregAt
    exact (hregAt ..).trans (hintervals.trans (regAt_bumpAt_congr (hregs _ _ _ (.inr (by decide)))))
  · rw [hcharts, hfollows]
    rfl
  · rw [hcharts, hnot]
    show v.charts.closed = _
    rw [hcounted]
    exact hclosed
  · rw [hmarks]
    show chartMarks (port v p) = _
    rw [show port v p = port u p by rw [hcounted]; rfl]
    exact hports p hp hwidth
  · refine (congrArg Prod.fst hkept).trans ?_
    show inside v = _
    rw [hcounted]
    exact hinside

/-! ## The chart that goes out, and the one that arrives -/

/-- The destination of a packet reads back from its common fields, with the inst's field and others above it (R209). -/
theorem hDst_pack (rest : List (Nat × Nat × Nat)) (op vc epoch det hops : Nat) (dinc sinc : BitVec 8)
    (dst src : NodeId) (key : Nat) (hrest : ∃ i m, i < 4 ∧ pack rest = i * 2 ^ 13 + m * 2 ^ 56) :
    hDst (BitVec.ofNat 256 (pack (commonFields op vc epoch det hops dinc sinc dst src key ++ rest))) = dst := by
  obtain ⟨i, m, hi, hm⟩ := hrest
  have h0 : op % 2 ^ 8 < 2 ^ 8 := Nat.mod_lt _ (by decide)
  have h1 : vc % 2 ^ 3 < 2 ^ 3 := Nat.mod_lt _ (by decide)
  have h2 : epoch % 2 ^ 1 < 2 ^ 1 := Nat.mod_lt _ (by decide)
  have h3 : det % 2 ^ 1 < 2 ^ 1 := Nat.mod_lt _ (by decide)
  have h4 : hops % 2 ^ 8 < 2 ^ 8 := Nat.mod_lt _ (by decide)
  have h5 : dinc.toNat % 2 ^ 8 < 2 ^ 8 := Nat.mod_lt _ (by decide)
  have h6 : sinc.toNat % 2 ^ 8 < 2 ^ 8 := Nat.mod_lt _ (by decide)
  have hdst : dst.toNat % 2 ^ 16 = dst.toNat := Nat.mod_eq_of_lt dst.isLt
  have hlt : dst.toNat < 2 ^ 16 := dst.isLt
  have hpack : fld (pack (commonFields op vc epoch det hops dinc sinc dst src key ++ rest) % 2 ^ 256) 40 16 = dst.toNat := by
    simp only [commonFields, List.cons_append, List.nil_append, pack_cons, hm, fld, hdst]
    generalize op % 2 ^ 8 = a0 at *
    generalize vc % 2 ^ 3 = a1 at *
    generalize epoch % 2 ^ 1 = a2 at *
    generalize det % 2 ^ 1 = a3 at *
    generalize hops % 2 ^ 8 = a4 at *
    generalize dinc.toNat % 2 ^ 8 = a5 at *
    generalize sinc.toNat % 2 ^ 8 = a6 at *
    generalize src.toNat % 2 ^ 16 = a8 at *
    generalize key % 2 ^ 16 = a9 at *
    generalize dst.toNat = d at *
    omega
  unfold hDst hf
  rw [BitVec.toNat_ofNat, hpack]
  simp

/-- A chart's fields above the common ones. -/
theorem pack_chartFields (i a b c : Nat) : ∃ k m, k < 4 ∧
    pack [(13, 2, i), (110, 8, a), (118, 36, b), (154, 10, c)] = k * 2 ^ 13 + m * 2 ^ 56 := by
  refine ⟨i % 2 ^ 2, a % 2 ^ 8 * 2 ^ 54 + b % 2 ^ 36 * 2 ^ 62 + c % 2 ^ 10 * 2 ^ 98, Nat.mod_lt _ (by decide), ?_⟩
  simp only [pack_cons, pack_nil]
  generalize a % 2 ^ 8 = a'
  generalize b % 2 ^ 36 = b'
  generalize c % 2 ^ 10 = c'
  omega

theorem hDst_chartHeader (s : State) (dst : NodeId) (part units : Nat) : hDst (chartHeader s dst part units) = dst := by
  unfold chartHeader
  exact hDst_pack _ _ _ _ _ _ _ _ _ _ _ (pack_chartFields ..)

/-- A chart to the own node waits in the loop-back account. -/
theorem placeChart_here {s : State} {h : BitVec 256} {payload : Bytes} (hdst : hDst h = ownNode s)
    (hroom : loopUsed s + footprint payload.length ≤ regionCells s 5) :
    placeChart s h payload = some (addPkt (bump s 0xB000 0xA) (newPkt (bump s 0xB000 0xA) h payload .loopBack none)) := by
  unfold placeChart
  dsimp only
  rw [if_pos hdst, if_pos hroom]

/-- With ports and a collector the outcome is that of the placing. -/
theorem chart_outcome {r : List Nat} {p : Nat} {o : NodeId} (f : NodeId → State) (done : State) (l : List Nat)
    (e : Except Status NodeId) : l = p :: r → e = .ok o →
    (match l, e with
      | _ :: _, .ok dst => f dst
      | _, _ => done) = f o := by
  rintro rfl rfl
  rfl

theorem chartSend_eq {s u : State} {start len : Nat} {head : Bytes} {part : Nat}
    (hclosed : s.charts.closed = some (start, len, head, part)) (hon : reg s 0xB000 2 ≠ 0)
    (hcome : timeCome s (start + usMt len + chartSlot s % 128 * usMt len / 256) = true) (hports : partPorts s part ≠ [])
    (hrank : translateRank s (reg s 0xB000 3) (reg s 0xB000 4) = .ok (ownNode s))
    (hplaced : placeChart s (chartHeader s (ownNode s) part (1 + (partPorts s part).length))
      (chartPayload s start len head part (partPorts s part)) = some u) :
    chartSend s = { u with charts := { u.charts with
      closed := if part = 0 ∧ partPorts s 1 ≠ [] then some (start, len, head, 1) else none } } := by
  obtain ⟨p, r, hlist⟩ := List.exists_cons_of_ne_nil hports
  unfold chartSend
  split
  · next hnone => exact absurd (hclosed.symm.trans hnone) (by simp)
  · next hsome =>
    cases hclosed.symm.trans hsome
    extract_lets due ports
    have hdue : timeCome s due = true := hcome
    have hports' : ports = p :: r := hlist
    have hplaced' : placeChart s (chartHeader s (ownNode s) part (1 + ports.length)) (chartPayload s start len head part ports) =
      some u := hplaced
    clear_value due ports
    rw [if_neg (by rw [hdue]; simp [hon])]
    generalize translateRank s (reg s 0xB000 3) (reg s 0xB000 4) = e at *
    refine (chart_outcome _ _ ports e hports' hrank).trans ?_
    rw [hplaced']

/-- A chart that goes out to the own node. -/
theorem chart_placed {s t u : State} {h : BitVec 256} {payload : Bytes} {next : Option (Nat × Nat × Bytes × Nat)}
    (hu : u = addPkt (bump s 0xB000 0xA) (newPkt (bump s 0xB000 0xA) h payload .loopBack none))
    (ht : t = { u with charts := { u.charts with closed := next } }) : Counted 0xB000 0xA 0 s t ∧
      (∃ x, t.pkts = s.pkts ++ [x] ∧ x.header = h ∧ x.payload = payload ∧ x.acct = .loopBack) ∧
      t.charts.closed = next ∧ inside t = inside s := by
  have hstores := stores_addPkt (bump s 0xB000 0xA) (newPkt (bump s 0xB000 0xA) h payload .loopBack none)
  have hpkts := pkts_addPkt (bump s 0xB000 0xA) (newPkt (bump s 0xB000 0xA) h payload .loopBack none)
  rw [← hu] at hstores hpkts
  rw [ht]
  refine ⟨?_, ⟨_, hpkts, rfl, rfl, rfl⟩, rfl, hstores.inside⟩
  unfold Counted
  exact congrArg (fun l => regAt { s with regs := l } 0xB000 0xA 0) hstores.regs

theorem chartPacketReceive_taken {id : Nat} {x : Pkt} {p : Place} {s t : State} (hchart : chartAt s id = some x)
    (hplace : translateRequest s x.header false = .ok (.here p)) (ht : t = chartPacketReceive id s) :
    (∃ a ∈ t.accesses, a.pkt = some x.id ∧ a.kind = .chart ∧ a.addr = p.addr ∧ a.len = hLen x.header ∧ a.cells = 0) ∧
      t = { s with accesses := t.accesses, nextId := s.nextId + 1 } := by
  unfold chartPacketReceive at ht
  rw [hchart] at ht
  dsimp only at ht
  rw [hplace] at ht
  dsimp only at ht
  rw [ht]
  exact ⟨⟨_, List.mem_map.mpr ⟨_, List.mem_append_right _ (List.mem_singleton.mpr rfl), if_pos (beq_self_eq_true _)⟩,
    rfl, rfl, rfl, rfl, rfl⟩, rfl⟩

theorem chartPacketReceive_refused {id : Nat} {x : Pkt} {st : Status} {s t : State} (hchart : chartAt s id = some x)
    (herror : translateRequest s x.header false = .error st) (ht : t = chartPacketReceive id s) :
    Counted 0xB000 0xC 0 s t ∧ inside t = inside s ∧ t.accesses = s.accesses := by
  have hdropped : t = bump (dropPkt s id) 0xB000 0xC := by
    unfold chartPacketReceive at ht
    rw [hchart] at ht
    dsimp only at ht
    rw [herror] at ht
    exact ht
  have hstores := stores_dropPkt s id
  rw [hdropped]
  refine ⟨?_, hstores.inside, hstores.accesses⟩
  exact regAt_bumpAt_congr (congrArg (fun l => regAt { s with regs := l } 0xB000 0xC 0) hstores.regs)

/-- Settles O48: the sample, the end of the interval, the chart that goes out, and the one that arrives. -/
theorem chartsAreMade : Obligations.ChartsAreMade := by
  unfold Obligations.ChartsAreMade
  refine ⟨fun s htimed hless hdue => ⟨_, rfl, chartSample_effect htimed hless hdue rfl⟩,
    fun s b hturn hb hne hcolls => ⟨_, rfl, ?_⟩, fun s hoff => congrArg Host.Outcome.next ?_,
    fun s start len head part hclosed hon hcome hports hrank hroom => ⟨_, rfl, ?_⟩,
    fun id x p s hchart hplace => ⟨_, rfl, chartPacketReceive_taken hchart hplace rfl⟩,
    fun id x st s hchart herror => ⟨_, rfl, ?_⟩⟩
  · obtain ⟨hstart, hsamples, hreported, hepochs, hfollow, hapart, hports, hinside⟩ :=
      chartIntervalClose_effect hcolls (chartIntervalClose_eq hturn hb hne)
    refine ⟨hstart, hsamples, hreported, hepochs, fun hrep hnext => hfollow (by simp [follows, hrep, hnext]),
      fun hnot => hapart (by simp [follows, hnot]), fun p hp hwidth => ?_, (congrArg (fun x => x.2.1) hinside :),
      (congrArg Prod.fst hinside :)⟩
    have hmarks := hports p hp hwidth
    exact ⟨(congrArg Prod.fst hmarks :), (congrArg (fun x => x.2.1) hmarks :), (congrArg (fun x => x.2.2) hmarks :)⟩
  · unfold chartSend
    split
    · rfl
    · exact if_pos (.inl hoff)
  · obtain ⟨hcounted, hpkt, hclosed, hinside⟩ := chart_placed rfl
      (chartSend_eq hclosed hon hcome hports hrank (placeChart_here (hDst_chartHeader ..) hroom))
    exact ⟨hcounted, hpkt, hclosed, (congrArg (fun x => x.2.1) hinside :), (congrArg Prod.fst hinside :)⟩
  · obtain ⟨hcounted, hinside, haccesses⟩ := chartPacketReceive_refused hchart herror rfl
    exact ⟨hcounted, (congrArg (fun x => x.2.1) hinside :), (congrArg Prod.fst hinside :), haccesses⟩

end Sys2Proof.Machine
end

section
/-! Transactions of the object dictionary: reads, the select entries of the sessions, and malformed frames (R436 to R441,
R463). -/

namespace Sys2Proof.Machine
open Sys2Proof

/-! ## Reads (R436 to R438, R441) -/

/-- A read that fits its entry is answered with the value, its type and its whole length. -/
theorem performRead_fits {q : DictReq} {r : Row} {v : Bytes × Nat} {u : State}
    (hv : v = valuePart u (ownerOf q.path) q.index q.sub q.offset q.len r) (hfits : ReadFits q r v.2) :
    performRead q u = answer u q .ok 0 (readAns q r v.2 v.1) := by
  obtain ⟨hrow, hshort, hkey, hwhole, hmin, hmax, hsize, hoff⟩ := hfits
  have hreason : readReason q r v.2 = none := by
    unfold readReason
    rw [if_neg (by simp [hshort]), if_neg (not_and_or.mpr hkey), if_neg (by omega)]
  have hnote : notePart u (ownerOf q.path) q.index q.sub q.offset = some u := if_pos (by simp [hwhole])
  unfold performRead
  dsimp only
  rw [if_neg (by simp [hshort]), hrow]
  dsimp only
  rw [← hv, hreason]
  dsimp only
  rw [hnote]

/-- The answer to a read that was received. -/
theorem readAnswered {q : DictReq} {r : Row} {v : Bytes × Nat} {s t : State} (hread : q.write = false)
    (hv : v = valuePart (received q s) (ownerOf q.path) q.index q.sub q.offset q.len r) (hfits : ReadFits q r v.2)
    (ht : t = performRead q (received q s)) : ReadAnswered q r v s t := by
  rw [performRead_fits hv hfits] at ht
  refine ⟨?_, by rw [ht, beside_answer, beside_received]⟩
  rw [ht, answer, answers_sendAnswer, keepAnswer_last, answerOpOf, hread]
  rfl

theorem transactAny_field {q : DictReq} {s : State} {env : Envelope} (hpath : q.path = .field env) (hread : q.write = false)
    (h : Taken q s) : transactAny s q = performRead q (received q s) := by
  obtain ⟨hpass, hup, hindex, hnot, -, hnew⟩ := h
  refine (transact_heard (performAny q) ⟨hpass, hup, hindex, hnot, hnew⟩).trans ?_
  unfold performAny received
  simp only [hread, hpath, Path.isHost]
  rfl

theorem transactAny_host {q : DictReq} {s : State} {x : BitVec 16} (hpath : q.path = .host x) (hread : q.write = false)
    (h : Taken q s) :
    transactAny { s with mgmt := { s.mgmt with lastSubmit := some q.xid } } q = performRead q (received q s) := by
  obtain ⟨hpass, hup, hindex, hnot, -, hnew⟩ := h
  have hpass' : pathAccepted { s with mgmt := { s.mgmt with lastSubmit := some q.xid } } q = true := by
    unfold pathAccepted
    rw [hpath]
  refine (transact_heard (performAny q) ⟨hpass', hup, hindex, hnot, hnew⟩).trans ?_
  unfold performAny received
  simp only [hread, hpath, Path.isHost]
  rfl

/-- The read that a submitted frame asks for. -/
theorem submitReq_read {n : BitVec 32} {b : Bytes} (h : byteAt b 1 = 1) : (submitReq n b false).write = false ∧
    (submitReq n b false).xid = n ∧ ∃ x, (submitReq n b false).path = .host x := by
  unfold submitReq
  dsimp only
  rw [if_neg (by rw [h]; decide)]
  exact ⟨rfl, rfl, _, rfl⟩

theorem dictionarySubmit_read {n : BitVec 32} {length : Nat} {request : Bytes} {s : State} (hlen : length ≤ 1536)
    (hok : fdpFrameOk (request.take length) = true) (hop : byteAt (request.take length) 1 = 1)
    (h : Taken (submitReq n (request.take length) false) s) :
    dictionarySubmit n length request s =
      performRead (submitReq n (request.take length) false) (received (submitReq n (request.take length) false) s) := by
  obtain ⟨hread, hxid, x, hpath⟩ := submitReq_read (n := n) hop
  have hnew : s.mgmt.lastSubmit ≠ some n := by
    obtain ⟨-, -, -, -, hnew, -⟩ := h
    rw [hxid] at hnew
    exact hnew (by rw [hpath]; rfl)
  have hrun := transactAny_host hpath hread h
  rw [hxid] at hrun
  unfold dictionarySubmit fromPath
  dsimp only
  rw [if_pos (show (Path.host 0).isHost = true from rfl), if_neg hnew, if_neg (by omega), if_pos ⟨hok, by omega⟩]
  exact hrun

/-! ## Sessions (R463) -/

/-- The session that an owner holds. -/
def heldSession (s : State) (o : Nat) : Option Session := s.mgmt.sessions.find? fun x => x.owner == o

theorem owner_of_heldSession {s : State} {o : Nat} {x : Session} (h : heldSession s o = some x) : x.owner = o := by
  simpa using List.find?_some h

theorem sessionOf_eq (s : State) (o : Nat) : sessionOf s o = (heldSession s o).getD (freshSession o s.mgmt.clockTx) := rfl

theorem owner_sessionOf (s : State) (o : Nat) : (sessionOf s o).owner = o := by
  rw [sessionOf_eq]
  cases h : heldSession s o with
  | none => rfl
  | some x => exact owner_of_heldSession h

/-- A session that stands in the list is the one that its owner holds. -/
theorem heldSession_of_mem {s : State} {o : Nat} (h : sessionOf s o ∈ s.mgmt.sessions) : heldSession s o = some (sessionOf s o) := by
  rw [sessionOf_eq] at h ⊢
  cases hheld : heldSession s o with
  | some x => rfl
  | none =>
    have hnot := List.find?_eq_none.mp hheld _ h
    rw [hheld] at hnot
    exact absurd (by simp [freshSession]) hnot

theorem find?_filter_owner {l : List Session} {o p : Nat} (h : o ≠ p) :
    (l.filter fun y => y.owner != p).find? (fun y => y.owner == o) = l.find? fun y => y.owner == o := by
  rw [List.find?_filter]
  congr 1
  funext y
  by_cases hy : y.owner = o <;> simp [hy, h]

theorem heldSession_putSession_ne {s : State} {x : Session} {o : Nat} (h : o ≠ x.owner) :
    heldSession (putSession s x) o = heldSession s o := by
  unfold heldSession putSession
  dsimp only
  rw [List.find?_cons_of_neg (by simpa using Ne.symm h)]
  exact find?_filter_owner h

/-- A transaction of one owner leaves the session of another, or ends it. -/
theorem heldSession_touchSession_ne {s : State} {o p : Nat} (h : o ≠ p) :
    heldSession (touchSession s p) o = heldSession s o ∨ heldSession (touchSession s p) o = none := by
  have hfresh : ∀ u n, heldSession (putSession u (freshSession p n)) o = heldSession u o := fun u n =>
    heldSession_putSession_ne (by exact h)
  unfold touchSession
  dsimp only
  split
  · exact .inl (heldSession_putSession_ne (by rwa [owner_sessionOf]))
  · rw [hfresh]
    split
    · split
      · next y hy =>
        unfold heldSession
        dsimp only
        by_cases hgone : o = y.owner
        · refine .inr (List.find?_eq_none.mpr fun z hz => ?_)
          have := (List.mem_filter.mp hz).2
          subst hgone
          simpa using this
        · exact .inl (find?_filter_owner hgone)
      · exact .inl rfl
    · exact .inl rfl

/-- What the sessions show of an owner after another's transaction. -/
def SessionKept (o : Nat) (s t : State) : Prop := heldSession t o = heldSession s o ∨ heldSession t o = none

theorem selected_of_kept {s t : State} {o : Nat} (h : SessionKept o s t) (hs : sessionOf s o ∈ s.mgmt.sessions)
    (ht : sessionOf t o ∈ t.mgmt.sessions) (i j : Nat) : selected t o i j = selected s o i j := by
  have hheld : heldSession t o = heldSession s o := h.resolve_right fun hnone => by
    rw [heldSession_of_mem ht] at hnone
    cases hnone
  have hsame : sessionOf t o = sessionOf s o :=
    Option.some.inj ((heldSession_of_mem ht).symm.trans (hheld.trans (heldSession_of_mem hs)))
  unfold selected
  rw [hsame]

theorem sessions_atEntry {q : DictReq} {s : State} (h : Authorised q s) :
    (atEntry q s).mgmt.sessions = (received q s).mgmt.sessions := by
  unfold atEntry
  unfold Authorised at h
  cases hq : q.auth with
  | none => rfl
  | some a =>
    simp only [hq] at h
    obtain ⟨f, hf⟩ := acceptCounter_clean (s := received q s) a (by rw [worn_received]; exact h.2)
    simp only [hf]

theorem sessionKept_atEntry {q : DictReq} {s : State} (h : Authorised q s) {o : Nat} (ho : o ≠ ownerOf q.path) :
    SessionKept o s (atEntry q s) := by
  have hheld : heldSession (atEntry q s) o = heldSession (received q s) o := by
    unfold heldSession
    rw [sessions_atEntry h]
  unfold SessionKept
  rw [hheld]
  unfold received
  generalize ownerOf q.path = p at ho ⊢
  cases q.path <;> exact heldSession_touchSession_ne ho

theorem sessions_written (q : DictReq) (u : State) : (written q u).mgmt.sessions = u.mgmt.sessions := by
  have hsent : ∀ (t : State) p a, (sendAnswer t p a).mgmt.sessions = t.mgmt.sessions := fun t p a => by
    obtain ⟨_, _, _, h⟩ := mgmt_sendAnswer t p a
    rw [h]
  unfold written answer
  rw [hsent]
  unfold logCritWrite
  cases q.auth <;> rfl

theorem heldSession_written (q : DictReq) (u : State) (o : Nat) : heldSession (written q u) o = heldSession u o := by
  unfold heldSession
  rw [sessions_written]

theorem sessionOf_of_held {t : State} {o : Nat} {x : Session} (h : heldSession t o = some x) : sessionOf t o = x := by
  rw [sessionOf_eq, h]
  rfl

theorem heldSession_putSession (s : State) (x : Session) : heldSession (putSession s x) x.owner = some x := by
  simp [heldSession, putSession]

/-! ## Writes -/

theorem beside_of_setSelected (s : State) (o i j v : Nat) : beside (setSelected s o i j v) = beside s := rfl

theorem cascade_setSelected (s : State) (o i j v : Nat) : (setSelected s o i j v).cascade = s.cascade := rfl

theorem owner_withSelections (x : Session) (sel : Tbl Nat) : (withSelections x sel).owner = x.owner := rfl

/-- What an owner selects after it has selected. -/
theorem selected_written_setSelected (q : DictReq) (s : State) (o i j v : Nat) :
    selected (written q (setSelected s o i j v)) o i j = v % 2 ^ selectBits i j := by
  have hheld : heldSession (written q (setSelected s o i j v)) o =
      some (withSelections (sessionOf s o) (tput (sessionOf s o).sel (entryNo i j) (v % 2 ^ selectBits i j))) := by
    rw [heldSession_written]
    have := heldSession_putSession s (withSelections (sessionOf s o) (tput (sessionOf s o).sel (entryNo i j) (v % 2 ^ selectBits i j)))
    rwa [owner_withSelections, owner_sessionOf] at this
  unfold selected
  rw [sessionOf_of_held hheld]
  exact congrArg (fun x => x.getD (regDefault i j 0)) (tget_tput_self ..)

theorem leNat_leBytes (n v : Nat) (h : v < 256 ^ n) : leNat (leBytes n v) = v := by
  induction n generalizing v with
  | zero =>
    rw [pow_zero] at h
    exact (Nat.lt_one_iff.mp h).symm
  | succ n ih =>
    rw [leBytes, leNat, ih _ (Nat.div_lt_of_lt_mul (by rwa [← Nat.pow_succ']))]
    rw [BitVec.toNat_ofNat]
    omega

/-- The context select entry and the beacon interval have no rule of their own. -/
theorem applyEntry_stored (w : WriteHdr) {i : Nat} (hi : i = 0x4000 ∨ i = 0x9020) (b : Bytes) (s : State) :
    applyEntry (writeReq w i 1 b) s = applyStored (writeReq w i 1 b) (ownerOf w.path) (leNat b) s := by
  unfold applyEntry
  rcases hi with rfl | rfl
  · simp only [writeReq, applyPorts, applyTables, applyUnits, applyManage, firstVerdict]
  · simp only [writeReq, applyPorts, applyTables, applyUnits, applyManage, firstVerdict]

/-- R463: a select entry is the session's own. -/
theorem applyStored_select {q : DictReq} {r : Row} (hrow : rowOf q.index q.sub = some r) (hsel : isSelect q.index q.sub = true)
    (o v : Nat) (s : State) : applyStored q o v s = ok (setSelected s o q.index q.sub v) := by
  unfold applyStored
  rw [hrow]
  exact if_pos hsel

/-- A number is stored under its selection. -/
theorem applyStored_number {q : DictReq} {r : Row} (hrow : rowOf q.index q.sub = some r) (hsel : isSelect q.index q.sub = false)
    (hnum : isBytes r.ty = false) (hone : r.sel = 0) (o v : Nat) (s : State) :
    applyStored q o v s = ok (storeNumberAt q.index q.sub 0 v s) := by
  have hselected : selectionFor s o q.index q.sub = 0 := by
    unfold selectionFor
    rw [hrow]
    exact if_pos hone
  unfold applyStored
  rw [hrow]
  dsimp only
  rw [if_neg (by simp [hsel]), if_neg (by simp [hnum]), plain, storeNumber, hselected]

theorem contextSelect_works (w : WriteHdr) {v : Nat} (s : State) (hv : v < 4096) :
    WriteWorks (.dictionaryWrite w 0x4000 1 (leBytes 2 v)) w 0x4000 1 (leBytes 2 v) s (fun _ => s) fun t =>
      selected t (ownerOf w.path) 0x4000 1 = v ∧
      ∀ o i j, o ≠ ownerOf w.path → sessionOf s o ∈ s.mgmt.sessions → sessionOf t o ∈ t.mgmt.sessions →
        selected t o i j = selected s o i j := by
  obtain ⟨row, hrow⟩ : ∃ r, rowOf 0x4000 1 = some r := ⟨_, rfl⟩
  refine writeWorks_of_rule (applyEntry (writeReq w 0x4000 1 (leBytes 2 v)))
    (fun r => setSelected r (ownerOf w.path) 0x4000 1 v) rfl (fun _ => ?_) (fun haut u hu => ?_)
  · rw [applyEntry_stored w (.inl rfl), leNat_leBytes 2 v (by omega)]
    exact applyStored_select (q := writeReq w 0x4000 1 (leBytes 2 v)) hrow (show isSelect 0x4000 1 = true by decide) ..
  · have hpath : ownerOf w.path = ownerOf (writeReq w 0x4000 1 (leBytes 2 v)).path := rfl
    rw [hpath] at hu ⊢
    generalize writeReq w 0x4000 1 (leBytes 2 v) = q at *
    refine ⟨?_, ?_, ?_, fun o i j ho hs ht => ?_⟩
    · rw [hu]
      exact cascade_atEntry q s haut
    · rw [hu]
      exact beside_atEntry q s haut
    · rw [hu, selected_written_setSelected]
      exact Nat.mod_eq_of_lt (lt_trans hv (by decide))
    · refine selected_of_kept ?_ hs ht i j
      have hheld : heldSession (written q u) o = heldSession (atEntry q s) o := by
        rw [heldSession_written, hu]
        exact heldSession_putSession_ne (by rw [owner_withSelections, owner_sessionOf]; exact ho)
      unfold SessionKept
      rw [hheld]
      exact sessionKept_atEntry haut ho

theorem cascade_storeNumberAt (i j k v : Nat) (s : State) : (storeNumberAt i j k v s).cascade = s.cascade := by
  unfold storeNumberAt
  dsimp only
  split <;> rfl

theorem beside_storeNumberAt (i j k v : Nat) (s : State) : beside (storeNumberAt i j k v s) = beside s := by
  unfold storeNumberAt
  dsimp only
  split <;> rfl

theorem regAt_storeNumberAt (i j k v : Nat) (s : State) : regAt (storeNumberAt i j k v s) i j k = v := by
  unfold storeNumberAt
  dsimp only
  split
  · exact regAt_setRegAt_self ..
  · exact regAt_setRegAt_self ..

theorem beaconInterval_works (w : WriteHdr) {v : Nat} (s : State) (hv : v ≤ 100) :
    WriteWorks (.dictionaryWrite w 0x9020 1 (leBytes 2 v)) w 0x9020 1 (leBytes 2 v) s (fun _ => s) fun t =>
      reg t 0x9020 1 = v := by
  obtain ⟨row, hrow, hnum, hone⟩ : ∃ r, rowOf 0x9020 1 = some r ∧ isBytes r.ty = false ∧ r.sel = 0 := ⟨_, rfl, rfl, rfl⟩
  refine writeWorks_of_rule (applyEntry (writeReq w 0x9020 1 (leBytes 2 v)))
    (storeNumberAt 0x9020 1 0 v) rfl (fun _ => ?_) (fun haut u hu => ?_)
  · rw [applyEntry_stored w (.inr rfl), leNat_leBytes 2 v (by omega)]
    exact applyStored_number (q := writeReq w 0x9020 1 (leBytes 2 v)) hrow (show isSelect 0x9020 1 = false by decide) hnum hone ..
  · rw [hu]
    refine ⟨?_, ?_, ?_⟩
    · rw [cascade_storeNumberAt]
      exact cascade_atEntry _ s haut
    · rw [beside_storeNumberAt]
      exact beside_atEntry _ s haut
    · rw [reg, regAt_written, regAt_storeNumberAt]

/-- Every selection of an owner returns to its default. -/
theorem selected_written_reset (q : DictReq) (s : State) (o i j : Nat) :
    selected (written q (putSession s (withSelections (sessionOf s o) []))) o i j = regDefault i j 0 := by
  have hheld : heldSession (written q (putSession s (withSelections (sessionOf s o) []))) o =
      some (withSelections (sessionOf s o) []) := by
    rw [heldSession_written]
    have := heldSession_putSession s (withSelections (sessionOf s o) [])
    rwa [owner_withSelections, owner_sessionOf] at this
  unfold selected
  rw [sessionOf_of_held hheld]
  rfl

theorem sessionReset_works (w : WriteHdr) (s : State) :
    WriteWorks (.sessionReset w) w 0x1020 2 [1] s (fun _ => s) fun t =>
      ∀ i j, selected t (ownerOf w.path) i j = regDefault i j 0 := by
  refine writeWorks_of_rule (applySessionReset (ownerOf w.path) true)
    (fun r => putSession r (withSelections (sessionOf r (ownerOf w.path)) [])) rfl (fun _ => rfl) (fun haut u hu => ?_)
  rw [hu]
  exact ⟨cascade_atEntry _ s haut, beside_atEntry _ s haut, selected_written_reset _ _ _⟩

/-! ## Frames that are not kept -/

/-- R434: a frame that is not for the dictionary has no effect. -/
theorem transactAny_ignored {q : DictReq} {s : State} (h : pathAccepted s q = false) : transactAny s q = s :=
  if_pos (by simp [h])

theorem frameAccepted_not {s : State} {env : Envelope}
    (h : env.fcs = false ∨ env.vlan = true ∨ env.etherType ≠ 0x88B5 ∨ (env.dst ≠ ownMac s ∧ env.dst ≠ BitVec.allOnes 48)) :
    frameAccepted s env true = false := by
  unfold frameAccepted
  rcases h with h | h | h | ⟨hown, hall⟩
  · simp [h]
  · simp [h]
  · rw [beq_false_of_ne h]
    simp
  · rw [beq_false_of_ne hown, beq_false_of_ne hall]
    simp

theorem countMalformed_counts {s : State} (h : dictionaryUp s = true) : Counted 0x1010 5 0 s (countMalformed s) ∧
    CountedFault 0xE 0 s (countMalformed s) ∧
    countMalformed s = { s with regs := (countMalformed s).regs, faults := (countMalformed s).faults } := by
  have hawake : awake s = true := by
    refine awake_of_compassUp (Eq.trans ?_ h)
    unfold compassUp dictionaryUp
    rw [Bool.or_right_comm]
  have hreported := reported_report (bump s 0x1010 5) 0xE 0 5 0
  have hbelow := regAt_report_below (s := bump s 0x1010 5) (cls := 0xE) (idx := 0) (kind := 5) (addr := 0) (i := 0x1010) (j := 5)
    (k := 0) (by decide)
  have hfault := countedFault_report (s := bump s 0x1010 5) hawake 0xE 0 5 0
  unfold countMalformed
  generalize report (bump s 0x1010 5) 0xE 0 5 0 = t at *
  refine ⟨hbelow, ?_, ?_⟩
  · unfold CountedFault Counted at hfault ⊢
    rw [hfault]
    exact regAt_bumpAt_congr (regAt_bumpBy_ne _ _ _ _ _ _ _ _ (by decide))
  · rw [hreported]
    rfl

/-- Settles O49: reads by frame and by submit, writes of the select entries, and frames that are not kept. -/
theorem dictionaryTransactions : Obligations.DictionaryTransactions := by
  unfold Obligations.DictionaryTransactions
  refine ⟨fun env xid i j off len s q r v hq htaken hv hfits => ⟨_, rfl, ?_⟩,
    fun n length request s q r v hq hlen hok hop htaken hv hfits => ⟨_, rfl, ?_⟩,
    fun n length request s hlast => congrArg Host.Outcome.next (if_pos hlast),
    fun w v s hv => contextSelect_works w s hv, fun w v s _ hv => beaconInterval_works w s hv,
    fun w s => sessionReset_works w s, fun env xid i j off len s hnot => congrArg Host.Outcome.next (transactAny_ignored ?_),
    fun frame s hup hbad hacc => ⟨_, rfl, ?_⟩⟩
  · subst hq
    exact readAnswered rfl hv hfits (transactAny_field rfl rfl htaken)
  · subst hq
    exact readAnswered (submitReq_read hop).1 hv hfits (dictionarySubmit_read hlen hok hop htaken)
  · exact frameAccepted_not hnot
  · have hrun : fdpMalformed frame s = countMalformed s := if_pos ⟨hup, hacc, by simp [hbad]⟩
    beta_reduce
    rw [hrun]
    exact countMalformed_counts hup

end Sys2Proof.Machine
end

section
/-! Incarnations (R60): a change of the own incarnation while a port waits only for its admission. -/

namespace Sys2Proof.Machine
open Sys2Proof Sys2Proof.Tests

/-- A quarantined port whose kept HAIL passes every check, and whose link has started but for that. -/
def reconsidered : State := plannedPort fun x => { x with
  state := .quarantined, stopped := true, hail := some (aHail 1), link := { x.link with seenByPeer := true } }

/-- Incarnation 2 of the own node. -/
def ownSecond : BitVec 32 := 0x20000

/-- The write, keyed. -/
def ownWrite : WriteHdr := keyed reconsidered 0x3300 1 (leBytes 4 ownSecond.toNat) 2

theorem reconsidered_met : (BitVec.ofNat 16 (fld ownSecond.toNat 0 16) = ownNode reconsidered ∧
    incOf reconsidered (ownNode reconsidered) ≠ BitVec.ofNat 8 (fld ownSecond.toNat 16 8) ∧
    reconsidered.cascade.present = []) ∧ WriteTaken (writeReq ownWrite 0x3300 1 (leBytes 4 ownSecond.toNat)) reconsidered :=
  ⟨by decide +kernel, taken_keyed (by decide +kernel)⟩

/-- The state that the entry's rule sees. -/
def reconsideredEntry : State := atEntry (writeReq ownWrite 0x3300 1 (leBytes 4 ownSecond.toNat)) reconsidered

/-- What the rule makes of it. -/
def reconsideredAfter : State :=
  incarnationChanged (shareUpdate (.incarnation (BitVec.ofNat 16 (fld ownSecond.toNat 0 16)) (BitVec.ofNat 8 (fld ownSecond.toNat 16 8)))
    reconsideredEntry) (BitVec.ofNat 16 (fld ownSecond.toNat 0 16))

theorem applyIncarnation_reconsidered : applyIncarnation ownSecond reconsideredEntry = ok reconsideredAfter := by
  have hnew : incOf reconsideredEntry (BitVec.ofNat 16 (fld ownSecond.toNat 0 16)) ≠ BitVec.ofNat 8 (fld ownSecond.toNat 16 8) := by
    decide +kernel
  unfold applyIncarnation
  exact congrArg ok (if_neg hnew)

/-- The port is decided again at once and works, and that ends the retirement of what is in flight. -/
theorem reconsideredAfter_worked : reconsideredAfter.tables.retiredSelf = false ∧ reconsideredAfter.cascade.storing = [] := by
  decide +kernel

/-- Refutes O50. Its first clause has the own incarnation's change keep the work of the old one retired, but a port that the
change admits goes to work within the same write, and with it the device counts as having worked anew. -/
theorem not_incarnationsAndDrains : ¬ Obligations.IncarnationsAndDrains := by
  unfold Obligations.IncarnationsAndDrains
  rintro ⟨hwrite, -⟩
  obtain ⟨⟨hown, hold, halone⟩, htaken⟩ := reconsidered_met
  obtain ⟨t, hrun, -, -, -, -, hretired⟩ := hwrite ownWrite ownSecond reconsidered _ _ rfl rfl halone htaken
  obtain ⟨hnot, hstoring⟩ := reconsideredAfter_worked
  have hdone := dictWrite_done _ _ _ _ (applyIncarnation ownSecond) reconsidered _ [] htaken applyIncarnation_reconsidered hstoring
  have ht : t = written (writeReq ownWrite 0x3300 1 (leBytes 4 ownSecond.toNat)) reconsideredAfter := by
    have := hrun.symm.trans (congrArg Host.Outcome.next hdone)
    exact Host.Outcome.next.inj this
  have htrue := hretired hown (by rwa [hown])
  rw [ht, tables_written, hnot] at htrue
  cases htrue

end Sys2Proof.Machine
end

section
/-! The Compass processor: its events and frames, its restart, and the journal (R428, R430, R431, R434, R440). -/

namespace Sys2Proof.Machine
open Sys2Proof

/-! ## Frames and events (R434, R440) -/

theorem sendFrame_only (s : State) (f : Bytes) :
    sendFrame s f = { s with out := (sendFrame s f).out, mgmt := { s.mgmt with txQueue := (sendFrame s f).mgmt.txQueue } } := by
  unfold sendFrame
  split <;> rfl

/-- A frame goes out, or waits, after a change of other parts of the management. -/
theorem frameGoes_sendFrame {s u : State} {f : Bytes} (hout : u.out = s.out) (hok : u.mgmt.plcaOk = s.mgmt.plcaOk)
    (hqueue : u.mgmt.txQueue = s.mgmt.txQueue) : FrameGoes f s (sendFrame u f) := by
  unfold FrameGoes sendFrame
  rw [hok]
  split
  · exact ⟨congrArg (· ++ [Output.frame f]) hout, hqueue⟩
  · exact ⟨congrArg (· ++ [f]) hqueue, hout⟩

/-- The events with one of a number sent again. -/
def resentEvents (s : State) (n : Nat) : List Event := s.mgmt.events.map fun x => if x.eseq = n then sentAgain s.clock x else x

theorem eventResend_effect {s t : State} {n : Nat} {e : Event} (hup : compassUp s = true)
    (hfind : s.mgmt.events.find? (fun x => x.eseq == n) = some e) (hdue : e.at_ + 400000000 ≤ s.clock) (hsends : e.sends ≤ 10)
    (ht : t = eventResend n s) : FrameGoes (eventFrame s e) s t ∧
      { e with sends := e.sends + 1, at_ := s.clock } ∈ t.mgmt.events ∧ t.mgmt.events.length = s.mgmt.events.length ∧
      t = { s with out := t.out, mgmt := { s.mgmt with events := t.mgmt.events, txQueue := t.mgmt.txQueue } } := by
  have hrun : t = sendFrame (setMgmt s fun m => { m with events := resentEvents s n }) (eventFrame s e) := by
    rw [ht, eventResend, hfind]
    exact if_pos ⟨hup, decide_eq_true hdue, hsends⟩
  have honly := sendFrame_only (setMgmt s fun m => { m with events := resentEvents s n }) (eventFrame s e)
  rw [← hrun] at honly
  have hevents : t.mgmt.events = resentEvents s n := (congrArg (fun u : State => u.mgmt.events) honly :)
  refine ⟨?_, ?_, ?_, ?_⟩
  · rw [hrun]
    exact frameGoes_sendFrame rfl rfl rfl
  · rw [hevents]
    have hnum : e.eseq = n := by simpa using List.find?_some hfind
    exact List.mem_map.mpr ⟨e, List.mem_of_find?_eq_some hfind, if_pos hnum⟩
  · rw [hevents]
    exact List.length_map ..
  · rw [hevents]
    exact honly

theorem eventResend_not {s : State} {n : Nat} {e : Event} (hfind : s.mgmt.events.find? (fun x => x.eseq == n) = some e)
    (hnot : 10 < e.sends ∨ s.clock < e.at_ + 400000000) : eventResend n s = s := by
  rw [eventResend, hfind]
  refine if_neg ?_
  rintro ⟨-, hpassed, hsends⟩
  rcases hnot with hmany | hearly
  · exact absurd hsends (Nat.not_le.mpr hmany)
  · exact absurd (of_decide_eq_true hpassed) (Nat.not_le.mpr hearly)

theorem announceResend_effect {s t : State} (hup : compassUp s = true) (hon : s.mgmt.announce = true)
    (hdue : ∀ a, s.mgmt.announceAt = some a → a + 4000000000 ≤ s.clock) (ht : t = announceResend s) :
    FrameGoes (announceFrame s) s t ∧ t.mgmt.announceAt = some s.clock ∧
      t = { s with out := t.out, mgmt := { s.mgmt with announceAt := some s.clock, txQueue := t.mgmt.txQueue } } := by
  have hpassed : s.mgmt.announceAt.all (passed s · (secMt 1)) = true := by
    rw [show secMt 1 = 4000000000 from rfl]
    cases hat : s.mgmt.announceAt with
    | none => rfl
    | some a =>
      rw [Option.all_some]
      exact decide_eq_true (hdue a hat)
  have hrun : t = sendFrame (setMgmt s fun m => { m with announceAt := some s.clock }) (announceFrame s) := by
    rw [ht, announceResend, if_pos ⟨hup, hon, hpassed⟩]
  generalize announceFrame s = f at *
  have honly := sendFrame_only (setMgmt s fun m => { m with announceAt := some s.clock }) f
  rw [← hrun] at honly
  refine ⟨?_, (congrArg (fun u : State => u.mgmt.announceAt) honly :), honly⟩
  rw [hrun]
  exact frameGoes_sendFrame rfl rfl rfl

/-! ## A restart (R428) -/

theorem loseDump_only (s : State) : loseDump s = { s with faults := (loseDump s).faults } ∧
    (s.faults.dump = 1 → (loseDump s).faults = { s.faults with dump := 0 }) ∧
    (s.faults.dump ≠ 1 → (loseDump s).faults = s.faults) := by
  unfold loseDump
  split
  · next h => exact ⟨rfl, fun _ => rfl, fun hn => absurd h hn⟩
  · next h => exact ⟨rfl, fun hp => absurd hp h, fun _ => rfl⟩

theorem compassWatchdog_effect {s t : State} (hup : compassUp s = true) (ht : t = compassWatchdog s) :
    t.mgmt = { s.mgmt with restarting := true, events := [], txQueue := [], sessions := [] } ∧
      Counted 0x1000 8 0 s t ∧ (s.faults.dump = 1 → t.faults = { s.faults with dump := 0 }) ∧
      (s.faults.dump ≠ 1 → t.faults = s.faults) ∧ t = { s with mgmt := t.mgmt, faults := t.faults, regs := t.regs } := by
  have hrun : t = setMgmt (loseDump (bump s 0x1000 8)) fun m => { m with
      restarting := true, events := [], txQueue := [], sessions := [] } := ht.trans (if_pos hup)
  obtain ⟨honly, hlost, hkept⟩ := loseDump_only (bump s 0x1000 8)
  generalize loseDump (bump s 0x1000 8) = u at *
  rw [hrun, honly]
  exact ⟨rfl, rfl, hlost, hkept, rfl⟩

/-- What the first sending of events leaves of the state. -/
def besideEvents (s : State) : State := { s with out := [], mgmt := { s.mgmt with events := [], txQueue := [] } }

theorem sendFirst_keeps (s : State) (e : Event) : besideEvents (sendFirst s e) = besideEvents s ∧
    (sendFirst s e).mgmt.events = resentEvents s e.eseq := by
  unfold sendFirst
  have honly := sendFrame_only (setMgmt s fun m => { m with events := resentEvents s e.eseq }) (eventFrame s e)
  rw [show (setMgmt s fun m => { m with
    events := m.events.map fun x => if x.eseq = e.eseq then sentAgain s.clock x else x }) =
      setMgmt s fun m => { m with events := resentEvents s e.eseq } from rfl, honly]
  exact ⟨rfl, rfl⟩

theorem clock_of_besideEvents {s t : State} (h : besideEvents t = besideEvents s) : t.clock = s.clock :=
  (congrArg State.clock h :)

/-- An event is sent by now. -/
def SentNow (now : Mt) (n : Nat) (l : List Event) : Prop := ∃ y ∈ l, y.eseq = n ∧ y.at_ = now ∧ 0 < y.sends

theorem sentNow_resent {s : State} {n k : Nat} (h : SentNow s.clock n s.mgmt.events) :
    SentNow s.clock n (resentEvents s k) := by
  obtain ⟨y, hy, hnum, hat, hsends⟩ := h
  by_cases hk : y.eseq = k
  · exact ⟨sentAgain s.clock y, List.mem_map.mpr ⟨y, hy, if_pos hk⟩, hnum, rfl, Nat.succ_pos _⟩
  · exact ⟨y, List.mem_map.mpr ⟨y, hy, if_neg hk⟩, hnum, hat, hsends⟩

/-- The numbers of the events. -/
def eventNumbers (s : State) : List Nat := s.mgmt.events.map Event.eseq

theorem eventNumbers_sendFirst (s : State) (e : Event) : eventNumbers (sendFirst s e) = eventNumbers s := by
  unfold eventNumbers
  rw [(sendFirst_keeps s e).2, resentEvents, List.map_map]
  refine List.map_congr_left fun x _ => ?_
  dsimp only [Function.comp]
  split <;> rfl

theorem sentNow_sendFirst_self {s : State} {e : Event} (h : e.eseq ∈ eventNumbers s) :
    SentNow s.clock e.eseq (sendFirst s e).mgmt.events := by
  obtain ⟨x, hx, hnum⟩ := List.mem_map.mp h
  rw [(sendFirst_keeps s e).2]
  exact ⟨sentAgain s.clock x, List.mem_map.mpr ⟨x, hx, if_pos hnum⟩, hnum, rfl, Nat.succ_pos _⟩

theorem besideEvents_foldl_sendFirst (l : List Event) (s : State) : besideEvents (l.foldl sendFirst s) = besideEvents s :=
  foldl_keeps besideEvents _ (fun t e => (sendFirst_keeps t e).1) l s

/-- The first sending of a list of events. -/
theorem sentNow_foldl {n : Nat} (l : List Event) (s : State) (hin : n ∈ eventNumbers s)
    (h : (∃ e ∈ l, e.eseq = n) ∨ SentNow s.clock n s.mgmt.events) :
    SentNow s.clock n (l.foldl sendFirst s).mgmt.events := by
  induction l generalizing s with
  | nil => exact h.resolve_left (by simp)
  | cons e r ih =>
    have hclock := clock_of_besideEvents (sendFirst_keeps s e).1
    have hnext := ih (sendFirst s e) (by rwa [eventNumbers_sendFirst])
    rw [hclock] at hnext
    refine hnext ?_
    rcases h with ⟨x, hx, hnum⟩ | hsent
    · rcases List.mem_cons.mp hx with rfl | hr
      · refine .inr ?_
        rw [← hnum]
        exact sentNow_sendFirst_self (by rwa [hnum])
      · exact .inl ⟨x, hr, hnum⟩
    · refine .inr ?_
      rw [(sendFirst_keeps s e).2]
      exact sentNow_resent hsent

theorem decideWaiting_none {s : State} {p : Nat} (h : (port s p).hail = none) : decideWaiting s p = s := by
  unfold decideWaiting
  dsimp only
  rw [h]

theorem foldl_decideWaiting_none {s : State} (h : ∀ p, p < 12 → (port s p).hail = none) :
    twelve.foldl decideWaiting s = s := by
  have hlist : ∀ l : List Nat, (∀ p ∈ l, p < 12) → l.foldl decideWaiting s = s := by
    intro l
    induction l with
    | nil => exact fun _ => rfl
    | cons p r ih =>
      intro hl
      rw [List.foldl_cons, decideWaiting_none (h p (hl p List.mem_cons_self))]
      exact ih fun q hq => hl q (List.mem_cons_of_mem _ hq)
  exact hlist _ fun p hp => List.mem_range.mp hp

/-- Nothing that waits: the boundary has nothing to settle. -/
theorem settle_none {s : State} (h : NoneWaits s) : settleHeld (settleAnswers s) = s := by
  obtain ⟨hheld, hwriting, hdrain⟩ := h
  have hstored : settleStored s = s := by
    unfold settleStored
    rw [hwriting]
    split <;> simp_all
  have hend : windowDrainEnd s = s := by
    unfold windowDrainEnd
    rw [hdrain]
  have htimeout : windowDrainTimeout s = s := by
    unfold windowDrainTimeout
    rw [hdrain]
  unfold settleAnswers
  rw [hstored, hend, htimeout]
  unfold settleHeld
  split
  · rw [hheld]
    show { s with mgmt := { s.mgmt with heldReqs := [] } } = s
    rw [← hheld]
  · rfl

/-- The state in which the events raised during a restart are sent. -/
def backAgain (s : State) : State := setMgmt s fun m => { m with restarting := false, announce := true, announceAt := none }

theorem compassBack_eq {s : State} (hrestart : s.mgmt.restarting = true) (hhail : ∀ p, p < 12 → (port s p).hail = none) :
    ∃ i, compassBack s =
      logBoot (((backAgain s).mgmt.events.filter fun e => e.sends == 0).foldl sendFirst (backAgain s)) i 2 := by
  refine ⟨(((backAgain s).mgmt.events.filter fun e => e.sends == 0).foldl sendFirst (backAgain s)).mgmt.running, ?_⟩
  have hports := (congrArg State.ports (besideEvents_foldl_sendFirst
    ((backAgain s).mgmt.events.filter fun e => e.sends == 0) (backAgain s)) :)
  refine (if_pos hrestart).trans (foldl_decideWaiting_none fun p hp => ?_)
  exact (congrArg (fun l => (tgetD l p Port.reset).hail) hports).trans (hhail p hp)

theorem compassRestartDone_effect {s t : State} (hrestart : s.mgmt.restarting = true) (hnone : NoneWaits s)
    (hhail : ∀ p, p < 12 → (port s p).hail = none) (ht : t = settleHeld (settleAnswers (compassBack s))) :
    t.mgmt.restarting = false ∧ t.mgmt.announce = true ∧ t.mgmt.announceAt = none ∧
      t.flash.logNext = (s.flash.logNext + 1) % 2 ^ 32 ∧
      (∀ e ∈ s.mgmt.events, e.sends = 0 → ∃ y ∈ t.mgmt.events, y.eseq = e.eseq ∧ y.at_ = s.clock ∧ 0 < y.sends) ∧
      t = { s with mgmt := t.mgmt, flash := t.flash, out := t.out } := by
  obtain ⟨i, hback⟩ := compassBack_eq hrestart hhail
  have hbeside := besideEvents_foldl_sendFirst ((backAgain s).mgmt.events.filter fun e => e.sends == 0) (backAgain s)
  have hsent := fun e (he : e ∈ s.mgmt.events) (hz : e.sends = 0) =>
    sentNow_foldl ((backAgain s).mgmt.events.filter fun e => e.sends == 0) (backAgain s) (n := e.eseq)
      (List.mem_map_of_mem he) (.inl ⟨e, List.mem_filter.mpr ⟨he, by simp [hz]⟩, rfl⟩)
  generalize ((backAgain s).mgmt.events.filter fun e => e.sends == 0).foldl sendFirst (backAgain s) = u at *
  have hboot : logBoot u i 2 = { u with flash := (logBoot u i 2).flash } := rfl
  have hnext : (logBoot u i 2).flash.logNext = (u.flash.logNext + 1) % 2 ^ 32 := rfl
  generalize logBoot u i 2 = v at *
  have hmgmt : v.mgmt = u.mgmt := (congrArg State.mgmt hboot :)
  have hrest : besideEvents { v with flash := s.flash } = besideEvents { backAgain s with flash := s.flash } := by
    rw [hboot]
    exact congrArg (fun w : State => { w with flash := s.flash }) hbeside
  have hmarks : v.mgmt.restarting = false ∧ v.mgmt.announce = true ∧ v.mgmt.announceAt = none ∧ v.mgmt.heldReqs = s.mgmt.heldReqs :=
    ⟨(congrArg (fun w : State => w.mgmt.restarting) hrest :), (congrArg (fun w : State => w.mgmt.announce) hrest :),
      (congrArg (fun w : State => w.mgmt.announceAt) hrest :), (congrArg (fun w : State => w.mgmt.heldReqs) hrest :)⟩
  obtain ⟨hup, hannounce, hat, hheld⟩ := hmarks
  have honly : v = { s with mgmt := v.mgmt, flash := v.flash, out := v.out } := by
    calc v = { besideEvents { v with flash := s.flash } with mgmt := v.mgmt, flash := v.flash, out := v.out } := rfl
      _ = _ := by rw [hrest]; rfl
  have hnone' : NoneWaits v := by
    obtain ⟨hreqs, hwriting, hdrain⟩ := hnone
    refine ⟨hheld.trans hreqs, ?_, ?_⟩
    · rw [honly]
      exact hwriting
    · rw [honly]
      exact hdrain
  rw [ht, hback, settle_none hnone']
  refine ⟨hup, hannounce, hat, ?_, fun e he hz => ?_, honly⟩
  · rw [hnext, show u.flash = s.flash from (congrArg State.flash hbeside :)]
  · rw [hmgmt]
    exact hsent e he hz

end Sys2Proof.Machine
end

section
/-! The journal of persisted values: what the bank that serves holds after a record, compacted or not (R430, R431), and the
commands of the Compass processor together. -/

namespace Sys2Proof.Machine
open Sys2Proof

/-! ## Values by key -/

/-- A value under a key above all others comes last. -/
theorem tput_last {α : Type} {t : Tbl α} {n : Nat} (x : α) (h : ∀ y ∈ t, y.1 < n) : tput t n x = t ++ [(n, x)] := by
  induction t with
  | nil => rfl
  | cons z r ih =>
    have hz := h z List.mem_cons_self
    unfold tput
    rw [if_neg (Nat.not_lt.mpr hz.le), if_neg (Nat.ne_of_gt hz), ih fun y hy => h y (List.mem_cons_of_mem _ hy)]
    rfl

/-- Values put in the order of their keys, above all others, stand as they were. -/
theorem foldl_tput_above {α : Type} (l acc : Tbl α) {b : Nat} (hl : risingFrom (some b) l = true) (hacc : ∀ y ∈ acc, y.1 ≤ b) :
    l.foldl (fun t x => tput t x.1 x.2) acc = acc ++ l := by
  induction l generalizing acc b with
  | nil => exact (List.append_nil _).symm
  | cons x r ih =>
    obtain ⟨hb, hr⟩ := Bool.and_eq_true_iff.mp hl
    have hlt : b < x.1 := of_decide_eq_true hb
    have hlast : tput acc x.1 x.2 = acc ++ [x] := tput_last _ fun y hy => lt_of_le_of_lt (hacc y hy) hlt
    rw [List.foldl_cons, hlast, ih _ hr, List.append_assoc]
    · rfl
    · intro y hy
      rcases List.mem_append.mp hy with hy | hy
      · exact (hacc y hy).trans hlt.le
      · rw [List.mem_singleton.mp hy]

theorem foldl_tput_rising {α : Type} (l : Tbl α) (h : risingFrom none l = true) :
    l.foldl (fun t x => tput t x.1 x.2) [] = l := by
  cases l with
  | nil => rfl
  | cons x r =>
    exact foldl_tput_above r [x] (b := x.1) (by simpa [risingFrom] using h) fun y hy => by rw [List.mem_singleton.mp hy]

/-! ## A bank (R430) -/

theorem rising_replay (b : JBank) : risingFrom none (replay b) = true := by
  have hfold : ∀ (l : List JRec) (t : Tbl Stored), risingFrom none t = true →
      risingFrom none (l.foldl (fun t x => tput t x.key x.val) t) = true := by
    intro l
    induction l with
    | nil => exact fun _ ht => ht
    | cons x r ih => exact fun t ht => ih _ (rising_tput t _ _ ht)
  exact hfold _ _ rfl

theorem replay_add (b : JBank) (k : Nat) (v : Stored) :
    replay (b.add { key := k, val := v, good := true }) = tput (replay b) k v := by
  unfold replay JBank.add
  simp

/-- The bank that a compaction writes. -/
def compacted (b : JBank) : JBank :=
  { seq := b.seq.map (· + 1), recs := (replay b).map fun x => { key := x.1, val := x.2, good := true } }

theorem replay_compacted (b : JBank) : replay (compacted b) = replay b := by
  unfold compacted replay
  rw [List.filter_map, List.filter_eq_self.mpr (by simp), List.foldl_map]
  exact foldl_tput_rising _ (rising_replay b)

theorem journalBank_setJournalBank_self (f : Flash) (i : Nat) (b : JBank) : journalBank (setJournalBank f i b) i = b := by
  unfold journalBank setJournalBank
  split <;> rfl

theorem servingBank_le {f : Flash} {i : Nat} (h : servingBank f = some i) : i = 0 ∨ i = 1 := by
  unfold servingBank at h
  split at h
  · cases h
  · exact .inl (Option.some.inj h).symm
  · exact .inr (Option.some.inj h).symm
  · have := Option.some.inj h
    split at this
    · exact .inr this.symm
    · exact .inl this.symm

/-- The bank to which the next record goes. -/
def fillingBank (f : Flash) : Nat := (servingBank f).getD 0

theorem fillingBank_le (f : Flash) : fillingBank f = 0 ∨ fillingBank f = 1 := by
  unfold fillingBank
  cases h : servingBank f with
  | none => exact .inl rfl
  | some i => exact servingBank_le h

/-- The flash with a record more in the bank that serves. -/
def recorded (f : Flash) (k : Nat) (v : Stored) : Flash :=
  setJournalBank f (fillingBank f) ((journalBank f (fillingBank f)).add { key := k, val := v, good := true })

theorem servingBank_recorded (f : Flash) (k : Nat) (v : Stored) : servingBank (recorded f k v) = some (fillingBank f) := by
  unfold recorded fillingBank servingBank
  cases h0 : f.bank0.seq with
  | none =>
    cases h1 : f.bank1.seq with
    | none => simp [setJournalBank, journalBank, JBank.add, h0, h1]
    | some b => simp [setJournalBank, journalBank, JBank.add, h0, h1]
  | some a =>
    cases h1 : f.bank1.seq with
    | none => simp [setJournalBank, journalBank, JBank.add, h0, h1]
    | some b => by_cases hab : a < b <;> simp [setJournalBank, journalBank, JBank.add, h0, h1, hab]

theorem storedAt_of_serving {f : Flash} {i : Nat} (h : servingBank f = some i) (k : Nat) :
    storedAt f k = tget (replay (journalBank f i)) k := by
  unfold storedAt
  rw [h]
  rfl

theorem storedAt_filling {f : Flash} (h : servingBank f = none → f.bank0.recs = []) (k : Nat) :
    tget (replay (journalBank f (fillingBank f))) k = storedAt f k := by
  cases hs : servingBank f with
  | some i => rw [storedAt_of_serving hs, fillingBank, hs, Option.getD_some]
  | none =>
    have hempty : replay (journalBank f 0) = [] := by
      unfold replay journalBank
      rw [if_pos rfl, h hs]
      rfl
    unfold storedAt
    rw [fillingBank, hs, Option.getD_none, hempty]
    rfl

theorem storedAt_recorded {f : Flash} (h : servingBank f = none → f.bank0.recs = []) (k : Nat) (v : Stored) :
    storedAt (recorded f k v) k = some v ∧ ∀ j, j ≠ k → storedAt (recorded f k v) j = storedAt f j := by
  have hreplay : replay (journalBank (recorded f k v) (fillingBank f)) = tput (replay (journalBank f (fillingBank f))) k v := by
    unfold recorded
    rw [journalBank_setJournalBank_self, replay_add]
  have hserving := servingBank_recorded f k v
  refine ⟨?_, fun j hj => ?_⟩
  · rw [storedAt_of_serving hserving, hreplay, tget_tput_self]
  · rw [storedAt_of_serving hserving, hreplay, tget_tput_ne _ _ _ _ (Ne.symm hj), storedAt_filling h]

/-- R430: the flash with the bank that serves compacted into the other one. -/
def compactedFlash (f : Flash) (i : Nat) : Flash :=
  setJournalBank (setJournalBank f (1 - i) (compacted (journalBank f i))) i { seq := none, recs := [] }

/-- A compaction keeps every value. -/
theorem storedAt_compactedFlash {f : Flash} {i : Nat} (h : servingBank f = some i)
    (hseq : (journalBank f i).seq ≠ none) (k : Nat) : storedAt (compactedFlash f i) k = storedAt f k := by
  obtain ⟨n, hn⟩ := Option.ne_none_iff_exists'.mp hseq
  have hbank : servingBank (compactedFlash f i) = some (1 - i) ∧
      journalBank (compactedFlash f i) (1 - i) = compacted (journalBank f i) := by
    rcases servingBank_le h with rfl | rfl
    · refine ⟨?_, rfl⟩
      simp [servingBank, compactedFlash, setJournalBank, compacted, hn]
    · refine ⟨?_, rfl⟩
      simp [servingBank, compactedFlash, setJournalBank, compacted, hn]
  obtain ⟨hserving, hcompacted⟩ := hbank
  rw [storedAt_of_serving hserving, hcompacted, replay_compacted, storedAt_of_serving h]

theorem worn_recorded (f : Flash) (k : Nat) (v : Stored) : (recorded f k v).worn = f.worn := worn_setJournalBank ..

/-- A record appended to a flash that serves: its value is stored, and every other stays. -/
theorem appendRec_stores {s : State} (k : Nat) (v : Stored) (hworn : s.flash.worn = [])
    (hempty : servingBank s.flash = none → s.flash.bank0.recs = []) :
    ∃ f, appendRec s k v true = { s with flash := f } ∧ storedAt f k = some v ∧
      ∀ j, j ≠ k → storedAt f j = storedAt s.flash j := by
  obtain ⟨hself, hothers⟩ := storedAt_recorded hempty k v
  have hserving := servingBank_recorded s.flash k v
  have hseq : (journalBank (recorded s.flash k v) (fillingBank s.flash)).seq ≠ none := by
    unfold recorded
    rw [journalBank_setJournalBank_self]
    exact Option.some_ne_none _
  have hrun : appendRec s k v true = compact { s with flash := recorded s.flash k v } (fillingBank s.flash) := by
    unfold appendRec
    dsimp only
    rw [program_clean _ _ _ hworn]
    rfl
  rw [hrun]
  unfold compact
  dsimp only
  split
  · exact ⟨_, rfl, hself, hothers⟩
  · rw [program_clean _ _ _ (by rw [worn_recorded, hworn])]
    refine ⟨compactedFlash (recorded s.flash k v) (fillingBank s.flash), rfl, ?_, fun j hj => ?_⟩
    · rw [storedAt_compactedFlash hserving hseq, hself]
    · rw [storedAt_compactedFlash hserving hseq, hothers j hj]

theorem noteProgram_clean {f : Flash} (a n : Nat) (h : f.worn = []) : noteProgram true a n f = f := by
  unfold noteProgram
  rw [h, List.filter_nil]
  show { f with worn := [] } = f
  rw [← h]

/-! ## The commands -/

theorem journalAppend_good {s t : State} {x : Nat × Stored} {r : List (Nat × Stored)} (hup : compassUp s = true)
    (hjournal : s.mgmt.journal = x :: r) (hworn : s.flash.worn = [])
    (hempty : servingBank s.flash = none → s.flash.bank0.recs = []) (ht : t = journalAppend true false s) :
    storedAt t.flash x.1 = some x.2 ∧ t.mgmt = { s.mgmt with journal := r } ∧
      (∀ k, k ≠ x.1 → storedAt t.flash k = storedAt s.flash k) ∧ t = { s with mgmt := t.mgmt, flash := t.flash } := by
  obtain ⟨f, hf, hself, hothers⟩ := appendRec_stores x.1 x.2 hworn hempty
  have hrun : t = setMgmt (appendRec s x.1 x.2 true) fun m => { m with journal := r } := by
    rw [ht, journalAppend, if_pos hup, journalRecord]
    simp only [Bool.false_eq_true, if_false, hjournal, if_true]
    rw [noteProgram_clean _ _ hworn]
  rw [hrun, hf]
  exact ⟨hself, rfl, hothers, rfl⟩

/-- What an event and a raised replace request leave of the state. -/
def besideReplace (s : State) : (Tbl Ctx × Memory × Tbl Coll) × Flash × List (Nat × Stored) :=
  (inside s, s.flash, s.mgmt.journal)

theorem besideReplace_sendFrame (s : State) (f : Bytes) : besideReplace (sendFrame s f) = besideReplace s ∧
    (sendFrame s f).regs = s.regs ∧ (sendFrame s f).faults = s.faults := by
  rw [sendFrame_only]
  exact ⟨rfl, rfl, rfl⟩

/-- R440: a full queue of events drops its oldest one. -/
def roomMade (s : State) : State :=
  if 256 ≤ s.mgmt.events.length then { bump s 0x1010 7 with mgmt := { s.mgmt with events := s.mgmt.events.drop 1 } } else s

/-- An event in the queue. -/
def eventQueued (s : State) (e : Event) : State := { s with mgmt := { s.mgmt with events := s.mgmt.events ++ [e] } }

theorem pushEvent_eq {s : State} (kind time : Nat) (body : Bytes) (h : s.phase = .running ∨ s.phase = .cut ∨ s.phase = .recovery) :
    ∃ e, pushEvent s kind time body =
      if s.mgmt.restarting then eventQueued (roomMade (bump s 0x1010 6)) e
      else sendFrame (eventQueued (roomMade (bump s 0x1010 6)) e) (eventFrame (roomMade (bump s 0x1010 6)) e) :=
  ⟨_, if_pos h⟩

/-- What the count of events leaves. -/
theorem roomMade_keeps (s : State) : besideReplace (roomMade (bump s 0x1010 6)) = besideReplace s ∧
    (roomMade (bump s 0x1010 6)).faults = s.faults ∧
    ∀ i j k, regKey 0x2000 0 0 ≤ regKey i j k → regAt (roomMade (bump s 0x1010 6)) i j k = regAt s i j k := by
  have hbump : ∀ (u : State) (n : Nat), n < 256 → ∀ i j k, regKey 0x2000 0 0 ≤ regKey i j k →
      regAt (bump u 0x1010 n) i j k = regAt u i j k := fun u n hn i j k h =>
    regAt_bumpBy_ne _ _ _ _ _ _ _ _ (by unfold regKey at h ⊢; omega)
  unfold roomMade
  split
  · exact ⟨rfl, rfl, fun i j k h => (hbump (bump s 0x1010 6) 7 (by decide) i j k h).trans (hbump s 6 (by decide) i j k h)⟩
  · exact ⟨rfl, rfl, hbump s 6 (by decide)⟩

theorem pushEvent_keeps (s : State) (kind time : Nat) (body : Bytes) : besideReplace (pushEvent s kind time body) = besideReplace s ∧
    (pushEvent s kind time body).faults = s.faults ∧
    ∀ i j k, regKey 0x2000 0 0 ≤ regKey i j k → regAt (pushEvent s kind time body) i j k = regAt s i j k := by
  by_cases hphase : s.phase = .running ∨ s.phase = .cut ∨ s.phase = .recovery
  · obtain ⟨e, he⟩ := pushEvent_eq kind time body hphase
    obtain ⟨hbeside, hfaults, hregs⟩ := roomMade_keeps s
    rw [he]
    generalize roomMade (bump s 0x1010 6) = u at *
    split
    · exact ⟨hbeside, hfaults, hregs⟩
    · obtain ⟨hsent, hregs', hfaults'⟩ := besideReplace_sendFrame (eventQueued u e) (eventFrame u e)
      refine ⟨hsent.trans hbeside, hfaults'.trans hfaults, fun i j k h => ?_⟩
      rw [regAt, hregs']
      exact hregs i j k h
  · rw [pushEvent, if_neg hphase]
    exact ⟨rfl, rfl, fun _ _ _ _ => rfl⟩

/-- What a raised replace request changes beside its reason. -/
theorem raiseReplace_keeps (s : State) (n : Nat) : besideReplace (raiseReplace s n) = besideReplace s ∧
    (raiseReplace s n).faults.reasons = s.faults.reasons ||| BitVec.ofNat 32 (2 ^ n) ∧
    ∀ i j k, regKey 0x2000 0 0 ≤ regKey i j k → regAt (raiseReplace s n) i j k = regAt s i j k := by
  unfold raiseReplace
  dsimp only
  split
  · next h => exact ⟨rfl, h.symm, fun _ _ _ _ => rfl⟩
  · obtain ⟨hbeside, hfaults, hregs⟩ := pushEvent_keeps { s with
      faults := { s.faults with reasons := s.faults.reasons ||| BitVec.ofNat 32 (2 ^ n), raisedAt := some (s.faults.raisedAt.getD (stamp s)) },
      pins := { s.pins with replaceReq := true } } 3 (stamp s)
      (leBytes 4 (s.faults.reasons ||| BitVec.ofNat 32 (2 ^ n)).toNat)
    exact ⟨hbeside, congrArg Faults.reasons hfaults, hregs⟩

theorem reasons_raiseReport (s : State) (r : Report) : (raiseReport s r).faults.reasons = s.faults.reasons := by
  unfold raiseReport
  split
  · unfold toIntake
    dsimp only
    split <;> rfl
  · rfl

theorem flashError_keeps {s : State} (hawake : awake s = true) (addr : Nat) : besideReplace (flashError s addr) = besideReplace s ∧
    (flashError s addr).faults.reasons = s.faults.reasons ||| 64#32 ∧ CountedFault 0xE 0 s (flashError s addr) := by
  have hreported := reported_report s 0xE 0 4 addr
  have hfault := countedFault_report hawake 0xE 0 4 addr
  have hreasons : (report s 0xE 0 4 addr).faults.reasons = s.faults.reasons := reasons_raiseReport ..
  unfold flashError
  generalize report s 0xE 0 4 addr = u at *
  obtain ⟨hbeside, hraised, hregs⟩ := raiseReplace_keeps u 6
  refine ⟨hbeside.trans ?_, hraised.trans (congrArg (· ||| 64#32) hreasons), ?_⟩
  · rw [hreported]
    rfl
  · exact (hregs _ _ _ (by decide)).trans hfault

theorem journalAppend_fails {s t : State} {x : Nat × Stored} {r : List (Nat × Stored)} (hup : compassUp s = true)
    (hjournal : s.mgmt.journal = x :: r) (ht : t = journalAppend false false s) :
    t.mgmt.journal = s.mgmt.journal ∧ CountedFault 0xE 0 s t ∧
      t.faults.reasons = s.faults.reasons ||| 64#32 ∧ sectorOf (journalAddr s.flash) ∈ t.flash.worn ∧
      t.flash = { s.flash with worn := t.flash.worn } ∧ inside t = inside s := by
  have hrun : ∃ n, t = flashError { s with flash := noteProgram false (journalAddr s.flash) n s.flash } (journalAddr s.flash) := by
    refine ⟨recSize { key := x.1, val := x.2, good := true }, ?_⟩
    rw [ht, journalAppend, if_pos hup, journalRecord]
    simp only [Bool.false_eq_true, if_false, hjournal]
  obtain ⟨n, hrun⟩ := hrun
  obtain ⟨hbeside, hreasons, hfault⟩ := flashError_keeps
    (s := { s with flash := noteProgram false (journalAddr s.flash) n s.flash }) (awake_of_compassUp hup) (journalAddr s.flash)
  rw [← hrun] at hbeside hreasons hfault
  have hflash : t.flash = noteProgram false (journalAddr s.flash) n s.flash := (congrArg (fun x => x.2.1) hbeside :)
  refine ⟨(congrArg (fun x => x.2.2) hbeside :), countedFault_of_regs rfl rfl hfault, hreasons, ?_, ?_, (congrArg Prod.fst hbeside :)⟩
  · rw [hflash]
    exact List.mem_append_right _ List.mem_cons_self
  · rw [hflash]
    rfl

/-- Settles O51: frames and events, a restart of the Compass processor, and the journal. -/
theorem compassServes : Obligations.CompassServes := by
  unfold Obligations.CompassServes
  refine ⟨fun s => rfl, fun n s hup => ⟨_, rfl, ?_⟩, fun n s e hup hfind hdue hsends => ⟨_, rfl, eventResend_effect hup hfind hdue hsends rfl⟩,
    fun n s e hfind hnot => congrArg Host.Outcome.next (eventResend_not hfind hnot), fun s hup => ⟨_, rfl, ?_⟩,
    fun s hup hon hdue => ⟨_, rfl, announceResend_effect hup hon hdue rfl⟩,
    fun s hoff => congrArg Host.Outcome.next (if_neg (by simp [hoff])),
    fun s hup => ⟨_, rfl, compassWatchdog_effect hup rfl⟩,
    fun s hrestart hnone hhail => ⟨_, rfl, compassRestartDone_effect hrestart hnone hhail rfl⟩,
    fun s hnot hnone => congrArg Host.Outcome.next ?_,
    fun s x r hup hjournal hworn hempty => ⟨_, rfl, journalAppend_good hup hjournal hworn hempty rfl⟩,
    fun s x r hup hjournal => ⟨_, rfl, ?_⟩, fun s hup hjournal => congrArg Host.Outcome.next ?_⟩
  · have hrun : eventAck n.toNat s = setMgmt (bump s 0x1010 3) fun m => { m with
        events := m.events.filter fun e => e.eseq != n.toNat } := if_pos hup
    beta_reduce
    rw [hrun]
    exact ⟨fun e => List.mem_filter.trans (and_congr_right fun _ => by simp), rfl, rfl⟩
  · have hrun : announceAck s = setMgmt (bump s 0x1010 3) fun m => { m with announce := false } := if_pos hup
    beta_reduce
    rw [hrun]
    exact ⟨rfl, rfl, rfl⟩
  · have hsame : compassBack s = s := if_neg (by simp [hnot])
    rw [hsame]
    exact settle_none hnone
  · obtain ⟨hkept, hfault, hreasons, hbad, hflash, hinside⟩ := journalAppend_fails hup hjournal rfl
    exact ⟨hkept, hfault, hreasons, hbad, hflash, (congrArg (fun x => x.2.1) hinside :), (congrArg Prod.fst hinside :)⟩
  · rw [journalAppend, if_pos hup, journalRecord]
    simp only [Bool.false_eq_true, if_false, hjournal]

end Sys2Proof.Machine
end

section
/-! Keys, and firmware updates (R446 to R450). -/

namespace Sys2Proof.Machine
open Sys2Proof

/-! ## What the dictionary's own bookkeeping leaves of the flash and of the management -/

/-- Everything of the flash but the journal and the Logbook. -/
def besideRecords (f : Flash) : Flash :=
  { f with bank0 := ⟨none, []⟩, bank1 := ⟨none, []⟩, logbook := [], logNext := 0, logSector := 0, logUsed := 0 }

/-- Everything of the management but the dictionary's transactions, and what waits for the field network. -/
def besideDict (m : Mgmt) : Mgmt :=
  { m with sessions := [], answers := [], clockTx := 0, lastSubmit := none, hostAnswer := [], hostDone := none, txQueue := [],
           counters := [] }

theorem besideRecords_setJournalBank (f : Flash) (i : Nat) (b : JBank) : besideRecords (setJournalBank f i b) = besideRecords f := by
  unfold setJournalBank
  split <;> rfl

theorem besideRecords_appendRec {s : State} (k : Nat) (v : Stored) (good : Bool) (h : s.flash.worn = []) :
    besideRecords (appendRec s k v good).flash = besideRecords s.flash ∧ (appendRec s k v good).mgmt = s.mgmt := by
  unfold appendRec compact
  dsimp only
  rw [program_clean _ _ _ h]
  split
  · exact ⟨besideRecords_setJournalBank .., rfl⟩
  · rw [program_clean _ _ _ (by rw [worn_setJournalBank, h])]
    exact ⟨(besideRecords_setJournalBank ..).trans ((besideRecords_setJournalBank ..).trans (besideRecords_setJournalBank ..)), rfl⟩

theorem besideDict_touchSession (s : State) (o : Nat) : besideDict (touchSession s o).mgmt = besideDict s.mgmt ∧
    (touchSession s o).flash = s.flash := by
  unfold touchSession
  dsimp only
  split
  · exact ⟨rfl, rfl⟩
  · split
    · split <;> exact ⟨rfl, rfl⟩
    · exact ⟨rfl, rfl⟩

theorem received_keeps (q : DictReq) (s : State) : besideDict (received q s).mgmt = besideDict s.mgmt ∧
    (received q s).flash = s.flash := by
  have hhost : ∀ u : State, besideDict u.mgmt = besideDict s.mgmt → u.flash = s.flash →
      besideDict (touchSession u (ownerOf q.path)).mgmt = besideDict s.mgmt ∧ (touchSession u (ownerOf q.path)).flash = s.flash :=
    fun u hm hf => by
      obtain ⟨hmgmt, hflash⟩ := besideDict_touchSession u (ownerOf q.path)
      exact ⟨hmgmt.trans hm, hflash.trans hf⟩
  unfold received
  refine hhost _ ?_ ?_
  · cases q.path <;> rfl
  · cases q.path <;> rfl

/-- What a write's rule sees of the flash and of the management. -/
theorem atEntry_keeps {q : DictReq} {s : State} (h : Authorised q s) :
    besideDict (atEntry q s).mgmt = besideDict s.mgmt ∧ besideRecords (atEntry q s).flash = besideRecords s.flash := by
  obtain ⟨hmgmt, hflash⟩ := received_keeps q s
  have hworn := worn_received q s
  unfold atEntry
  unfold Authorised at h
  cases hq : q.auth with
  | none => exact ⟨hmgmt, congrArg besideRecords hflash⟩
  | some a =>
    simp only [hq] at h
    generalize received q s = u at *
    unfold acceptCounter
    dsimp only
    split
    · obtain ⟨hrecords, hsame⟩ := besideRecords_appendRec (markKey a.slot.toNat) (.num (a.counter.toNat + 65536)) true (hworn.trans h.2)
      refine ⟨?_, hrecords.trans (congrArg besideRecords hflash)⟩
      rw [hsame]
      exact hmgmt
    · exact ⟨hmgmt, congrArg besideRecords hflash⟩

theorem written_keeps (q : DictReq) (u : State) :
    besideDict (written q u).mgmt = besideDict u.mgmt ∧ besideRecords (written q u).flash = besideRecords u.flash := by
  have hsent : ∀ (t : State) p a, besideDict (sendAnswer t p a).mgmt = besideDict t.mgmt ∧ (sendAnswer t p a).flash = t.flash := by
    intro t p a
    obtain ⟨_, _, _, h⟩ := mgmt_sendAnswer t p a
    refine ⟨by rw [h]; rfl, ?_⟩
    unfold sendAnswer
    cases p with
    | host x => rfl
    | field e =>
      dsimp only
      rw [sendFrame_only]
  have hlogged : besideDict (logCritWrite q ⟨u, .ok, 0, [], false⟩).mgmt = besideDict u.mgmt ∧
      besideRecords (logCritWrite q ⟨u, .ok, 0, [], false⟩).flash = besideRecords u.flash := by
    unfold logCritWrite
    cases q.auth <;> exact ⟨rfl, rfl⟩
  unfold written
  generalize logCritWrite q ⟨u, .ok, 0, [], false⟩ = v at *
  obtain ⟨hmgmt, hflash⟩ := hlogged
  unfold answer
  dsimp only
  generalize (⟨_, _, _, _, _, _⟩ : Answer) = a
  obtain ⟨hmgmt', hflash'⟩ := hsent (keepAnswer v a) q.path a
  exact ⟨hmgmt'.trans hmgmt, (congrArg besideRecords hflash').trans hflash⟩

/-! ## Keys (R446) -/

theorem keyReplace_works (w : WriteHdr) (k : Fin 4) (wrapped key : Bytes) (s : State)
    (hkey : keyUnwrap (wrapKey s w.auth) wrapped = some key) :
    WriteWorks (.keyReplace w k wrapped) w 0xA000 (1 + k.val) wrapped s (fun _ => s) fun t =>
      slotKey t k = BitVec.ofNat 256 (beNat key) ∧ ∀ j, j ≠ k.val → slotKey t j = slotKey s j := by
  refine writeWorks_of_rule (applyKey k wrapped w.auth) (fun r => { r with
    mgmt := { r.mgmt with keys := tput r.mgmt.keys k (BitVec.ofNat 256 (beNat key)) },
    flash := { r.flash with keys := tput r.flash.keys k (BitVec.ofNat 256 (beNat key)) } }) rfl (fun haut => ?_) (fun haut u hu => ?_)
  · have hkeys : (atEntry (writeReq w 0xA000 (1 + k.val) wrapped) s).mgmt.keys = s.mgmt.keys :=
      (congrArg Mgmt.keys (atEntry_keeps haut).1 :)
    have hwrap : wrapKey (atEntry (writeReq w 0xA000 (1 + k.val) wrapped) s) w.auth = wrapKey s w.auth := by
      unfold wrapKey slotKey
      rw [hkeys]
    unfold applyKey
    rw [hwrap, hkey]
  · generalize writeReq w 0xA000 (1 + k.val) wrapped = q at *
    have hkeys : (atEntry q s).mgmt.keys = s.mgmt.keys := (congrArg Mgmt.keys (atEntry_keeps haut).1 :)
    have hwritten : (written q u).mgmt.keys = u.mgmt.keys := (congrArg Mgmt.keys (written_keeps q u).1 :)
    have hput : u.mgmt.keys = tput s.mgmt.keys k (BitVec.ofNat 256 (beNat key)) := by
      rw [hu]
      exact congrArg (fun l => tput l k (BitVec.ofNat 256 (beNat key))) hkeys
    refine ⟨by rw [hu]; exact cascade_atEntry q s haut, by rw [hu]; exact beside_atEntry q s haut, ?_, fun j hj => ?_⟩
    · rw [slotKey, hwritten, hput]
      exact tgetD_tput_self ..
    · rw [slotKey, hwritten, hput]
      exact tgetD_tput_ne _ _ _ _ _ (Ne.symm hj)

/-! ## The boot record and the images (R448) -/

/-- Everything of the flash but the boot records. -/
def besideBoot (f : Flash) : Flash := { f with boot0 := ⟨0, 0, false, 0, false⟩, boot1 := ⟨0, 0, false, 0, false⟩, bootWrite := none }

theorem bootCopyNo_le (f : Flash) : bootCopyNo f = 0 ∨ bootCopyNo f = 1 := by
  unfold bootCopyNo
  split
  · split
    · exact .inr rfl
    · exact .inl rfl
  · split
    · exact .inl rfl
    · exact .inr rfl

theorem bootCopy_second {f : Flash} {x : BootCopy} (now : Option Mt) (hgood : x.good = true) (hseq : x.seq = f.boot0.seq + 1) :
    bootCopy { f with boot1 := x, bootWrite := now } = x := by
  have hno : bootCopyNo { f with boot1 := x, bootWrite := now } = 1 := by
    unfold bootCopyNo
    dsimp only
    cases h0 : f.boot0.good with
    | true => rw [if_pos ⟨rfl, hgood⟩, if_pos (by omega)]
    | false => simp
  unfold bootCopy
  rw [hno]
  rfl

theorem bootCopy_first {f : Flash} {x : BootCopy} (now : Option Mt) (hgood : x.good = true) (hseq : x.seq = f.boot1.seq + 1) :
    bootCopy { f with boot0 := x, bootWrite := now } = x := by
  have hno : bootCopyNo { f with boot0 := x, bootWrite := now } = 0 := by
    unfold bootCopyNo
    dsimp only
    rw [if_neg (show ¬ x.seq < f.boot1.seq by omega), if_pos hgood, ite_self]
  unfold bootCopy
  rw [hno]
  rfl

/-- The boot record that is written serves. -/
theorem bootCopy_written (f : Flash) (now : Option Mt) (x : BootCopy) (hseq : x.seq = (bootCopy f).seq + 1) (hgood : x.good = true) :
    bootCopy (if 1 - bootCopyNo f = 0 then { f with boot0 := x, bootWrite := now } else { f with boot1 := x, bootWrite := now }) = x := by
  rcases bootCopyNo_le f with hno | hno
  · rw [bootCopy, hno] at hseq
    rw [hno]
    exact bootCopy_second now hgood hseq
  · rw [bootCopy, hno] at hseq
    rw [hno]
    exact bootCopy_first now hgood hseq

theorem writeBoot_effect {s : State} (active : Nat) (trial : Bool) (tries : Nat) (h : s.flash.worn = []) :
    ∃ f, writeBoot s active trial tries = { s with flash := f } ∧ f.active = active ∧ f.trial = trial ∧ f.tries = tries ∧
      besideBoot f = besideBoot s.flash := by
  have hserves := bootCopy_written s.flash (some s.clock)
    { seq := (bootCopy s.flash).seq + 1, active := active, trial := trial, tries := tries, good := true } rfl rfl
  unfold writeBoot
  dsimp only
  rw [program_clean _ _ _ h]
  refine ⟨_, rfl, (congrArg BootCopy.active hserves :), (congrArg BootCopy.trial hserves :), (congrArg BootCopy.tries hserves :), ?_⟩
  split <;> rfl

theorem bootCopy_of_records {f g : Flash} (h : besideRecords f = besideRecords g) : bootCopy f = bootCopy g :=
  (congrArg bootCopy h :)

theorem imageOf_of_records {f g : Flash} (h : besideRecords f = besideRecords g) (i : Nat) : imageOf f i = imageOf g i :=
  (congrArg (fun f => imageOf f i) h :)

theorem rollback_of_records {f g : Flash} (h : besideRecords f = besideRecords g) : f.rollback = g.rollback :=
  (congrArg Flash.rollback h :)

theorem imageOf_of_boot {f g : Flash} (h : besideBoot f = besideBoot g) (i : Nat) : imageOf f i = imageOf g i :=
  (congrArg (fun f => imageOf f i) h :)

theorem worn_of_records {f g : Flash} (h : besideRecords f = besideRecords g) : f.worn = g.worn := (congrArg Flash.worn h :)

theorem besideRecords_logImage (s : State) (n i : Nat) : besideRecords (logImage s n i).flash = besideRecords s.flash := rfl

/-- A record of an image is in the flash alone. -/
theorem logImage_only (s : State) (n i : Nat) : logImage s n i = { s with flash := (logImage s n i).flash } := rfl

theorem imageOf_setImage_self (f : Flash) (i : Nat) (x : Image) : imageOf (setImage f i x) i = x := by
  unfold imageOf setImage
  split <;> rfl

theorem updateImage_le (s : State) : updateImage s = 0 ∨ updateImage s = 1 := by
  unfold updateImage
  split
  · exact .inr rfl
  · exact .inl rfl

theorem imageOf_setImage_other (f : Flash) {i : Nat} (h : i = 0 ∨ i = 1) (x : Image) :
    imageOf (setImage f i x) (1 - i) = imageOf f (1 - i) := by
  rcases h with rfl | rfl <;> rfl

/-- R431: a critical write is not taken where the flash fails. -/
theorem worn_of_crit {q : DictReq} {s : State} (h : Authorised q s) (hcrit : accessOf q.index q.sub = .crit) : s.flash.worn = [] := by
  unfold Authorised at h
  cases hq : q.auth with
  | none =>
    rw [hq] at h
    exact absurd hcrit h
  | some a =>
    rw [hq] at h
    exact h.2

/-! ## The marks of an update -/

/-- What an update goes by in the management. -/
def updateMarks (m : Mgmt) : Nat × Nat × Nat × Nat × Mt := (m.running, m.update, m.updLen, m.updGot, m.bootAt)

theorem updateMarks_atEntry {q : DictReq} {s : State} (h : Authorised q s) :
    updateMarks (atEntry q s).mgmt = updateMarks s.mgmt := (congrArg updateMarks (atEntry_keeps h).1 :)

theorem updateMarks_written (q : DictReq) (u : State) : updateMarks (written q u).mgmt = updateMarks u.mgmt :=
  (congrArg updateMarks (written_keeps q u).1 :)

theorem of_updateMarks {m n : Mgmt} (h : updateMarks m = updateMarks n) : m.running = n.running ∧ m.update = n.update ∧
    m.updLen = n.updLen ∧ m.updGot = n.updGot ∧ m.bootAt = n.bootAt :=
  ⟨congrArg Prod.fst h, congrArg (fun x => x.2.1) h, congrArg (fun x => x.2.2.1) h, congrArg (fun x => x.2.2.2.1) h,
    congrArg (fun x => x.2.2.2.2) h⟩

theorem updateImage_atEntry {q : DictReq} {s : State} (h : Authorised q s) : updateImage (atEntry q s) = updateImage s := by
  unfold updateImage
  rw [(of_updateMarks (updateMarks_atEntry h)).1]

/-! ## Begin and blocks (R449) -/

/-- The image erased, and the update begun. -/
def updateBegun (len : Nat) (s : State) : State :=
  setMgmt (logImage { s with flash := setImage s.flash (updateImage s) noImage } 0 (updateImage s)) fun m => { m with
    update := 1, updLen := len, updGot := 0 }

theorem applyBegin_ok {s : State} {len : Nat} (hupdate : s.mgmt.update = 0 ∨ s.mgmt.update = 6) (hlen : len ≤ 8388608)
    (hworn : s.flash.worn = []) : applyBegin len s = ok (updateBegun len s) := by
  have hgiven : (!updating s && s.mgmt.update != 5 && decide (len ≤ 8388608)) = true := by
    rcases hupdate with h | h <;> simp [updating, h, hlen]
  have hnot : s.mgmt.update ≠ 4 := by
    rcases hupdate with h | h <;> simp [h]
  refine (require_pos hgiven).trans ?_
  dsimp only
  rw [program_clean _ _ _ hworn, if_neg hnot]
  rfl

theorem updateBegin_works (w : WriteHdr) (len : BitVec 32) (s : State) (hupdate : s.mgmt.update = 0 ∨ s.mgmt.update = 6)
    (hlen : len.toNat ≤ 8388608) :
    WriteWorks (.updateBegin w len) w 0xA100 1 (leBytes 4 len.toNat) s (fun _ => s) fun t =>
      t.mgmt.update = 1 ∧ t.mgmt.updLen = len.toNat ∧ t.mgmt.updGot = 0 ∧
      (imageOf t.flash (updateImage s)).valid = false ∧ imageOf t.flash (1 - updateImage s) = imageOf s.flash (1 - updateImage s) := by
  refine writeWorks_of_rule (applyBegin len.toNat) (updateBegun len.toNat) rfl (fun haut => ?_) (fun haut u hu => ?_)
  · obtain ⟨-, hsame, -⟩ := of_updateMarks (updateMarks_atEntry haut)
    refine applyBegin_ok (by rwa [hsame]) hlen ?_
    rw [worn_of_records (atEntry_keeps haut).2]
    exact worn_of_crit haut (show accessOf 0xA100 1 = .crit by decide)
  · generalize writeReq w 0xA100 1 (leBytes 4 len.toNat) = q at *
    have himage := updateImage_atEntry haut
    have hentry := (atEntry_keeps haut).2
    have hcascade := cascade_atEntry q s haut
    have hbeside := beside_atEntry q s haut
    generalize atEntry q s = e at *
    have hflash : besideRecords (written q u).flash = besideRecords (setImage e.flash (updateImage e) noImage) := by
      rw [(written_keeps q u).2, hu]
      rfl
    obtain ⟨-, hupd, hlength, hgot, -⟩ := of_updateMarks (updateMarks_written q u)
    refine ⟨by rw [hu]; exact hcascade, by rw [hu]; exact hbeside, by rw [hupd, hu]; rfl, by rw [hlength, hu]; rfl,
      by rw [hgot, hu]; rfl, ?_, ?_⟩
    · rw [imageOf_of_records hflash, himage, imageOf_setImage_self]
      rfl
    · rw [imageOf_of_records hflash, himage, imageOf_setImage_other _ (updateImage_le s), imageOf_of_records hentry]

/-- A block's bytes behind those before them. -/
def blockTaken (b : Bytes) (s : State) : State :=
  setMgmt { s with flash := setImage s.flash (updateImage s) { imageOf s.flash (updateImage s) with
    data := (imageOf s.flash (updateImage s)).data ++ b.drop 8 } } fun m => { m with updGot := m.updGot + (b.length - 8) }

theorem applyBlock_ok {s : State} {b : Bytes} (hupdate : s.mgmt.update = 2) (hnext : leAt b 0 4 = s.mgmt.updGot)
    (hfits : s.mgmt.updGot + (b.length - 8) ≤ s.mgmt.updLen) (hworn : s.flash.worn = []) :
    applyBlock b s = ok (blockTaken b s) := by
  unfold applyBlock
  rw [if_neg (by simp [hupdate])]
  refine (require_pos (by simp [hupdate, hnext, hfits])).trans ?_
  unfold programBlock
  dsimp only
  rw [program_clean _ _ _ hworn]
  rfl

theorem updateBlock_works (w : WriteHdr) (b : Bytes) (s : State) (hupdate : s.mgmt.update = 2) (hnext : leAt b 0 4 = s.mgmt.updGot)
    (hfits : s.mgmt.updGot + (b.length - 8) ≤ s.mgmt.updLen) (hworn : s.flash.worn = []) :
    WriteWorks (.updateBlock w b) w 0xA100 2 b s (fun _ => s) fun t =>
      t.mgmt.updGot = s.mgmt.updGot + (b.length - 8) ∧ t.mgmt.update = 2 ∧
        (imageOf t.flash (updateImage s)).data = (imageOf s.flash (updateImage s)).data ++ b.drop 8 := by
  refine writeWorks_of_rule (applyBlock b) (blockTaken b) rfl (fun haut => ?_) (fun haut u hu => ?_)
  · obtain ⟨-, hsame, hlength, hgot, -⟩ := of_updateMarks (updateMarks_atEntry haut)
    refine applyBlock_ok (hsame.trans hupdate) (by rwa [hgot]) (by rwa [hgot, hlength]) ?_
    rw [worn_of_records (atEntry_keeps haut).2]
    exact hworn
  · generalize writeReq w 0xA100 2 b = q at *
    have himage := updateImage_atEntry haut
    have hentry := (atEntry_keeps haut).2
    have hcascade := cascade_atEntry q s haut
    have hbeside := beside_atEntry q s haut
    obtain ⟨-, hsame, -, hgot, -⟩ := of_updateMarks (updateMarks_atEntry haut)
    generalize atEntry q s = e at *
    have hflash : besideRecords (written q u).flash = besideRecords (setImage e.flash (updateImage e)
        { imageOf e.flash (updateImage e) with data := (imageOf e.flash (updateImage e)).data ++ b.drop 8 }) := by
      rw [(written_keeps q u).2, hu]
      rfl
    obtain ⟨-, hupd, -, hgot', -⟩ := of_updateMarks (updateMarks_written q u)
    refine ⟨by rw [hu]; exact hcascade, by rw [hu]; exact hbeside, ?_, ?_, ?_⟩
    · rw [hgot', hu]
      exact congrArg (· + (b.length - 8)) hgot
    · rw [hupd, hu]
      exact hsame.trans hupdate
    · rw [imageOf_of_records hflash, himage, imageOf_setImage_self, imageOf_of_records hentry]

/-! ## Finish (R449) -/

theorem imageRead_of {s t : State} (hflash : besideRecords t.flash = besideRecords s.flash)
    (hmgmt : updateMarks t.mgmt = updateMarks s.mgmt) : imageRead t = imageRead s := by
  obtain ⟨hrunning, -, hlen, -⟩ := of_updateMarks hmgmt
  have himage : updateImage t = updateImage s := by
    unfold updateImage
    rw [hrunning]
  have hkey : t.flash.imageKey = s.flash.imageKey := (congrArg Flash.imageKey hflash :)
  unfold imageRead
  dsimp only
  rw [himage, imageOf_of_records hflash, hlen, hkey]

theorem rollback_setImage (f : Flash) (i : Nat) (x : Image) : (setImage f i x).rollback = f.rollback := by
  unfold setImage
  split <;> rfl

theorem worn_setImage (f : Flash) (i : Nat) (x : Image) : (setImage f i x).worn = f.worn := by
  unfold setImage
  split <;> rfl

theorem bootCopy_setImage (f : Flash) (i : Nat) (x : Image) : bootCopy (setImage f i x) = bootCopy f := by
  unfold setImage
  split <;> rfl

theorem imageValid_setImage (f : Flash) (i : Nat) (x : Image) :
    imageValid (setImage f i x) i = (x.valid && decide (f.rollback ≤ x.rollback)) := by
  rw [imageValid, imageOf_setImage_self, rollback_setImage]

/-- The state with the image that was received. -/
def imageKept (s : State) (x : Image) : State := { s with flash := setImage s.flash (updateImage s) x }

theorem verifyUpdate_valid {s : State} (hvalid : (imageRead s).valid = true) (hback : s.flash.rollback ≤ (imageRead s).rollback) :
    verifyUpdate s = setMgmt (writeBoot (logImage (imageKept s (imageRead s)) 1 (updateImage s)) (updateImage s) true 0)
      fun m => { m with update := 4 } := by
  unfold verifyUpdate
  generalize imageRead s = x at *
  dsimp only
  rw [if_pos (by rw [imageValid_setImage, hvalid, decide_eq_true hback]; rfl)]
  rfl

/-- An image refused, and reported. -/
def updateRefused (s : State) (x : Image) : State :=
  let s1 := logImage (report (imageKept s x) 0xE 0 2 x.rollback) 2 (updateImage s)
  { s1 with flash := setImage s1.flash (updateImage s) { x with valid := false }, mgmt := { s1.mgmt with update := 6 } }

theorem verifyUpdate_invalid {s : State} (hnot : (imageRead s).valid = false ∨ (imageRead s).rollback < s.flash.rollback) :
    verifyUpdate s = updateRefused s (imageRead s) := by
  unfold verifyUpdate
  generalize imageRead s = x at *
  dsimp only
  rw [if_neg (by
    rw [imageValid_setImage]
    rcases hnot with h | h
    · simp [h]
    · simp [decide_eq_false (Nat.not_le.mpr h)])]
  rfl

theorem applyFinish_ok {s : State} (h : s.mgmt.update = 2) : applyFinish true s = ok (verifyUpdate s) := by
  unfold applyFinish
  rw [if_neg (by decide), if_neg (by simp [h])]
  exact require_pos (by simp [h])

theorem updateFinish_valid (w : WriteHdr) (s : State) (hupdate : s.mgmt.update = 2) (hvalid : (imageRead s).valid = true)
    (hback : s.flash.rollback ≤ (imageRead s).rollback) :
    WriteWorks (.updateFinish w) w 0xA100 3 [1] s (fun _ => s) fun t => t.mgmt.update = 4 ∧
      t.flash.active = updateImage s ∧ t.flash.trial = true ∧ t.flash.tries = 0 ∧
      imageOf t.flash (updateImage s) = imageRead s := by
  refine writeWorks_of_rule (applyFinish true) verifyUpdate rfl (fun haut => ?_) (fun haut u hu => ?_)
  · exact applyFinish_ok ((of_updateMarks (updateMarks_atEntry haut)).2.1.trans hupdate)
  · have hcrit : accessOf (writeReq w 0xA100 3 [1]).index (writeReq w 0xA100 3 [1]).sub = .crit :=
      show accessOf 0xA100 3 = .crit by decide
    generalize writeReq w 0xA100 3 [1] = q at *
    have hread := imageRead_of (atEntry_keeps haut).2 (updateMarks_atEntry haut)
    have hentry := (atEntry_keeps haut).2
    have himage := updateImage_atEntry haut
    have hcascade := cascade_atEntry q s haut
    have hbeside := beside_atEntry q s haut
    have hworn := worn_of_crit haut hcrit
    generalize atEntry q s = e at *
    rw [verifyUpdate_valid (by rwa [hread]) (by rw [rollback_of_records hentry, hread]; exact hback), hread, himage] at hu
    generalize imageRead s = x at *
    have hrecords := besideRecords_logImage (imageKept e x) 1 (updateImage s)
    have hlogged := logImage_only (imageKept e x) 1 (updateImage s)
    generalize logImage (imageKept e x) 1 (updateImage s) = l at *
    obtain ⟨f, hboot, hactive, htrial, htries, hrest⟩ := writeBoot_effect (updateImage s) true 0 (by
      rw [worn_of_records hrecords, imageKept, worn_setImage, worn_of_records hentry, hworn])
    rw [hboot, hlogged] at hu
    have hflash : besideRecords (written q u).flash = besideRecords f := by
      rw [(written_keeps q u).2, hu]
      rfl
    have hcopy := bootCopy_of_records hflash
    refine ⟨by rw [hu]; exact hcascade, by rw [hu]; exact hbeside, ?_, ?_, ?_, ?_, ?_⟩
    · rw [(of_updateMarks (updateMarks_written q u)).2.1, hu]
      rfl
    · exact (congrArg BootCopy.active hcopy).trans hactive
    · exact (congrArg BootCopy.trial hcopy).trans htrial
    · exact (congrArg BootCopy.tries hcopy).trans htries
    · rw [imageOf_of_records hflash, imageOf_of_boot hrest, imageOf_of_records hrecords, imageKept, himage, imageOf_setImage_self]

/-- What a refused image changes. -/
theorem updateRefused_effect {s : State} (hawake : awake s = true) (x : Image) :
    (updateRefused s x).cascade = s.cascade ∧
      beside (updateRefused s x) = beside { s with faults := (updateRefused s x).faults } ∧
      (updateRefused s x).mgmt.update = 6 ∧ (imageOf (updateRefused s x).flash (updateImage s)).valid = false ∧
      bootCopy (updateRefused s x).flash = bootCopy s.flash ∧ CountedFault 0xE 0 s (updateRefused s x) := by
  have hreported := reported_report (imageKept s x) 0xE 0 2 x.rollback
  have hfault := countedFault_report (s := imageKept s x) hawake 0xE 0 2 x.rollback
  unfold updateRefused
  generalize report (imageKept s x) 0xE 0 2 x.rollback = u at *
  have hflash : u.flash = (imageKept s x).flash := (congrArg State.flash hreported :)
  have hrecords := besideRecords_logImage u 2 (updateImage s)
  have hlogged := logImage_only u 2 (updateImage s)
  generalize logImage u 2 (updateImage s) = l at *
  obtain ⟨regs, faults, hu⟩ : ∃ r f, u = { imageKept s x with regs := r, faults := f } := ⟨_, _, hreported⟩
  dsimp only
  have hcopy : bootCopy l.flash = bootCopy s.flash := by
    rw [bootCopy_of_records hrecords, hflash, imageKept, bootCopy_setImage]
  generalize l.flash = g at *
  subst hlogged
  refine ⟨by rw [hu]; rfl, by rw [hu]; rfl, rfl, by rw [imageOf_setImage_self], (bootCopy_setImage ..).trans hcopy,
    countedFault_of_regs rfl rfl hfault⟩

theorem updateFinish_invalid (w : WriteHdr) (s : State) (hupdate : s.mgmt.update = 2)
    (hnot : (imageRead s).valid = false ∨ (imageRead s).rollback < s.flash.rollback) :
    WriteWorks (.updateFinish w) w 0xA100 3 [1] s (fun t => { s with faults := t.faults }) fun t => t.mgmt.update = 6 ∧
      (imageOf t.flash (updateImage s)).valid = false ∧ t.flash.active = s.flash.active ∧ CountedFault 0xE 0 s t := by
  intro htaken
  have hawake : awake s = true := by
    obtain ⟨-, hup, -⟩ := htaken
    refine awake_of_compassUp (Eq.trans ?_ hup)
    unfold compassUp dictionaryUp
    rw [Bool.or_right_comm]
  revert htaken
  refine writeWorks_of_rule (applyFinish true) verifyUpdate rfl (fun haut => ?_) (fun haut u hu => ?_)
  · exact applyFinish_ok ((of_updateMarks (updateMarks_atEntry haut)).2.1.trans hupdate)
  · generalize writeReq w 0xA100 3 [1] = q at *
    have hread := imageRead_of (atEntry_keeps haut).2 (updateMarks_atEntry haut)
    have hentry := (atEntry_keeps haut).2
    have himage := updateImage_atEntry haut
    have hcascade := cascade_atEntry q s haut
    have hbeside := beside_faults_atEntry haut
    have hregs : ∀ i j k, 0x2000 ≤ i → regAt (atEntry q s) i j k = regAt s i j k := fun i j k hi => regAt_atEntry_above haut hi
    have hawake' : awake (atEntry q s) = true := by
      unfold awake at hawake ⊢
      rwa [phase_atEntry q s haut]
    generalize atEntry q s = e at *
    rw [verifyUpdate_invalid (by rwa [hread, rollback_of_records hentry]), hread] at hu
    generalize imageRead s = x at *
    obtain ⟨hc, hb, hupd, hgone, hboot, hfault⟩ := updateRefused_effect hawake' x
    rw [← hu] at hc hb hupd hgone hboot hfault
    refine ⟨hc.trans hcascade, ?_, ?_, ?_, ?_, ?_⟩
    · rw [faults_written, hb]
      exact hbeside _
    · rw [(of_updateMarks (updateMarks_written q u)).2.1, hupd]
    · rw [imageOf_of_records (written_keeps q u).2, ← himage]
      exact hgone
    · exact congrArg BootCopy.active ((bootCopy_of_records (written_keeps q u).2).trans (hboot.trans (bootCopy_of_records hentry)))
    · unfold CountedFault Counted at hfault ⊢
      rw [regAt_written, hfault]
      exact regAt_bumpAt_congr (hregs _ _ _ (by decide))

/-! ## Confirm (R449, R450) -/

/-- The trial confirmed. -/
def trialConfirmed (s : State) : State :=
  let s1 := logImage s 4 s.mgmt.running
  let s2 := writeBoot s1 s1.flash.active false 0
  { s2 with
    flash := { s2.flash with rollback := max s1.flash.rollback (imageOf s1.flash s.mgmt.running).rollback },
    mgmt := { s2.mgmt with update := 0 } }

theorem confirmOpen_of {s : State} (h : s.clock < s.mgmt.bootAt + 4000000000 * reg s 0xA100 6) : confirmOpen s = true := by
  have hnot : passed s s.mgmt.bootAt (secMt (reg s 0xA100 6)) = false := decide_eq_false (Nat.not_le.mpr h)
  unfold confirmOpen
  rw [hnot]
  rfl

theorem applyConfirm_ok {s : State} (hupdate : s.mgmt.update = 5) (htrial : s.flash.trial = true) (hopen : confirmOpen s = true) :
    applyConfirm true s = ok (trialConfirmed s) := by
  unfold applyConfirm
  rw [if_neg (by decide)]
  exact require_pos (by simp [hupdate, htrial, hopen])

theorem updateConfirm_works (w : WriteHdr) (s : State) (hupdate : s.mgmt.update = 5) (htrial : s.flash.trial = true)
    (hopen : s.clock < s.mgmt.bootAt + 4000000000 * reg s 0xA100 6) :
    WriteWorks (.updateConfirm w) w 0xA100 5 [1] s (fun _ => s) fun t => t.mgmt.update = 0 ∧ t.flash.trial = false ∧
      t.flash.rollback = max s.flash.rollback (imageOf s.flash s.mgmt.running).rollback ∧ t.flash.active = s.flash.active := by
  refine writeWorks_of_rule (applyConfirm true) trialConfirmed rfl (fun haut => ?_) (fun haut u hu => ?_)
  · obtain ⟨-, hsame, -, -, hboot⟩ := of_updateMarks (updateMarks_atEntry haut)
    refine applyConfirm_ok (hsame.trans hupdate) ?_ (confirmOpen_of ?_)
    · exact (congrArg BootCopy.trial (bootCopy_of_records (atEntry_keeps haut).2)).trans htrial
    · rw [clock_atEntry _ _ haut, hboot, reg, regAt_atEntry_above haut (by decide)]
      exact hopen
  · have hcrit : accessOf (writeReq w 0xA100 5 [1]).index (writeReq w 0xA100 5 [1]).sub = .crit :=
      show accessOf 0xA100 5 = .crit by decide
    generalize writeReq w 0xA100 5 [1] = q at *
    have hentry := (atEntry_keeps haut).2
    obtain ⟨hrunning, -⟩ := of_updateMarks (updateMarks_atEntry haut)
    have hcascade := cascade_atEntry q s haut
    have hbeside := beside_atEntry q s haut
    have hworn := worn_of_crit haut hcrit
    generalize atEntry q s = e at *
    have hrecords := (besideRecords_logImage e 4 e.mgmt.running).trans hentry
    have hlogged := logImage_only e 4 e.mgmt.running
    unfold trialConfirmed at hu
    generalize logImage e 4 e.mgmt.running = l at *
    obtain ⟨f, hboot, hactive, htrial', -, -⟩ := writeBoot_effect l.flash.active false 0 ((worn_of_records hrecords).trans hworn)
    dsimp only at hu
    rw [hboot, hlogged] at hu
    have hflash : besideRecords (written q u).flash =
        besideRecords { f with rollback := max l.flash.rollback (imageOf l.flash e.mgmt.running).rollback } := by
      rw [(written_keeps q u).2, hu]
    have hcopy : bootCopy (written q u).flash = bootCopy f := (bootCopy_of_records hflash).trans rfl
    refine ⟨by rw [hu]; exact hcascade, by rw [hu]; exact hbeside, ?_, ?_, ?_, ?_⟩
    · rw [(of_updateMarks (updateMarks_written q u)).2.1, hu]
    · exact (congrArg BootCopy.trial hcopy).trans htrial'
    · rw [rollback_of_records hflash]
      dsimp only
      rw [rollback_of_records hrecords, imageOf_of_records hrecords, hrunning]
    · exact (congrArg BootCopy.active hcopy).trans (hactive.trans (congrArg BootCopy.active (bootCopy_of_records hrecords)))

/-- Settles O52: keys, and updates from their begin to the end of the confirm window. -/
theorem keysAndUpdates : Obligations.KeysAndUpdates := by
  unfold Obligations.KeysAndUpdates
  refine ⟨fun w k wrapped key s hkey => keyReplace_works w k wrapped key s hkey,
    fun w len s hupdate hlen => updateBegin_works w len s hupdate hlen,
    fun s hup hupdate => congrArg Host.Outcome.next (if_pos ⟨hupdate, hup⟩),
    fun s hnot => congrArg Host.Outcome.next (if_neg fun h => hnot h.1),
    fun w b s hupdate hnext hfits hworn => updateBlock_works w b s hupdate hnext hfits hworn,
    fun w s hupdate hvalid hback => updateFinish_valid w s hupdate hvalid hback,
    fun w s hupdate hnot => updateFinish_invalid w s hupdate hnot,
    fun w s hupdate htrial hopen => updateConfirm_works w s hupdate htrial hopen,
    fun s hupdate htrial hdue hworn => ⟨_, rfl, ?_⟩, fun s hnot => congrArg Host.Outcome.next (if_neg fun h => hnot h.1)⟩
  have hclosed : confirmOpen s = false := by
    have hpassed : passed s s.mgmt.bootAt (secMt (reg s 0xA100 6)) = true := decide_eq_true hdue
    unfold confirmOpen
    rw [hpassed]
    rfl
  have hrun : confirmWindowExpiry s = writeBoot s (1 - s.mgmt.running) false 0 := if_pos ⟨hupdate, htrial, by simp [hclosed]⟩
  obtain ⟨f, hboot, hactive, htrial', htries, -⟩ := writeBoot_effect (1 - s.mgmt.running) false 0 hworn
  beta_reduce
  rw [hrun, hboot]
  exact ⟨hactive, htrial', htries, rfl⟩

end Sys2Proof.Machine
end

section
/-! Cable identities, and the return state (R451, R456). -/

namespace Sys2Proof.Machine
open Sys2Proof

/-! ## Cable identities (R451) -/

/-- The identity stored, and the channel type that it gives. -/
def cableNoted (owner : Nat) (b : Bytes) (s : State) : State :=
  setRegAt (storeBlob owner 0x2200 7 b s) 0x2200 2 (selected s owner 0x2200 1) (cableChannel b)

theorem selectionFor_cable (s : State) (owner : Nat) : selectionFor s owner 0x2200 7 = selected s owner 0x2200 1 := by
  have hrow : rowOf 0x2200 7 = some ⟨0x07, (.blob 32), .rw, 0, 0, 0, 1⟩ := by decide +kernel
  unfold selectionFor
  rw [hrow]
  rfl

theorem storeBlob_cable (owner : Nat) (b : Bytes) (s : State) :
    storeBlob owner 0x2200 7 b s = setBlobAt s 0x2200 7 (selected s owner 0x2200 1) b := by
  unfold storeBlob
  rw [selectionFor_cable]
  exact if_neg (by decide +kernel)

theorem cableChannel_copper {b : Bytes} (h : byteAt b 0 = 1) :
    cableChannel b = if leAt b 2 2 ≤ 100 then 1 else if leAt b 2 2 ≤ 250 then 2 else 0 := by
  simp only [cableChannel, h]

theorem cableChannel_fibre {b : Bytes} (hlow : 2 ≤ byteAt b 0) (hhigh : byteAt b 0 ≤ 5) : cableChannel b = byteAt b 0 + 1 := by
  unfold cableChannel
  generalize byteAt b 0 = k at *
  obtain rfl | rfl | rfl | rfl : k = 2 ∨ k = 3 ∨ k = 4 ∨ k = 5 := by omega
  all_goals rfl

theorem cableIdentity_works (w : WriteHdr) (b : Bytes) (s : State) (o : Nat) (ho : o = wsel s w 0x2200 1) (hmedium : byteAt b 0 ≤ 5) :
    WriteWorks (.cableIdentityWrite w b) w 0x2200 7 b s (fun t => { s with blobs := t.blobs }) fun t =>
      blobAt t 0x2200 7 o = b ∧ (byteAt b 0 = 0 → regAt t 0x2200 2 o = 0) ∧
      (byteAt b 0 = 1 → leAt b 2 2 ≤ 100 → regAt t 0x2200 2 o = 1) ∧
      (byteAt b 0 = 1 → 101 ≤ leAt b 2 2 → leAt b 2 2 ≤ 250 → regAt t 0x2200 2 o = 2) ∧
      (byteAt b 0 = 1 → 251 ≤ leAt b 2 2 → regAt t 0x2200 2 o = 0) ∧
      (2 ≤ byteAt b 0 → regAt t 0x2200 2 o = byteAt b 0 + 1) := by
  refine writeWorks_of_rule (applyCable (ownerOf w.path) b) (cableNoted (ownerOf w.path) b) rfl (fun _ => ?_) (fun haut u hu => ?_)
  · refine (inRange_pos (decide_eq_true hmedium)).trans ?_
    rw [selectionFor_cable]
    rfl
  · have hsel : selected (atEntry (writeReq w 0x2200 7 b) s) (ownerOf w.path) 0x2200 1 = o :=
      (selected_atEntry (writeReq w 0x2200 7 b) s 0x2200 1 haut).trans ho.symm
    generalize writeReq w 0x2200 7 b = q at *
    have hbeside := beside_atEntry q s haut
    have hcascade := cascade_atEntry q s haut
    rw [cableNoted, storeBlob_cable, hsel] at hu
    generalize atEntry q s = e at *
    have hreg : regAt (written q u) 0x2200 2 o = cableChannel b := by
      rw [regAt_written, hu, regAt_setRegAt_self]
    refine ⟨by rw [hu]; exact hcascade, ?_, ?_, fun h => ?_, fun h hlen => ?_, fun h hlow hhigh => ?_, fun h hlow => ?_, fun h => ?_⟩
    · rw [blobs_written, hu]
      exact (congrArg (fun t => { t with blobs := (setBlobAt e 0x2200 7 o b).blobs }) hbeside :)
    · rw [blobAt, blobs_written, hu]
      exact congrArg (fun x => x.getD (blobDefault 0x2200 7)) (tget_tput_self e.blobs (regKey 0x2200 7 o) b)
    · simp only [hreg, cableChannel, h]
    · rw [hreg, cableChannel_copper h, if_pos hlen]
    · rw [hreg, cableChannel_copper h, if_neg (by omega), if_pos hhigh]
    · rw [hreg, cableChannel_copper h, if_neg (by omega), if_neg (by omega)]
    · rw [hreg, cableChannel_fibre h hmedium]

/-! ## The return state (R456) -/

theorem tget_slotZero {α : Type} (t : Tbl α) (k : Nat) : tget (slotZero t) k = if k = 0 then tget t 0 else none := by
  induction t with
  | nil => exact (ite_self _).symm
  | cons x r ih =>
    obtain ⟨j, v⟩ := x
    by_cases hj : j = 0
    · have hkept : slotZero ((j, v) :: r) = (j, v) :: slotZero r := List.filter_cons_of_pos (by simp [hj])
      rw [hkept, tget, tget, ih, hj]
      split <;> simp_all
    · have hgone : slotZero ((j, v) :: r) = slotZero r := List.filter_cons_of_neg (by simp [hj])
      rw [hgone, ih, tget, if_neg (Ne.symm hj)]

theorem tgetD_slotZero_self {α : Type} (t : Tbl α) (d : α) : tgetD (slotZero t) 0 d = tgetD t 0 d := by
  rw [tgetD, tget_slotZero, if_pos rfl, tgetD]

theorem tgetD_slotZero_ne {α : Type} (t : Tbl α) (d : α) {k : Nat} (h : k ≠ 0) : tgetD (slotZero t) k d = d := by
  rw [tgetD, tget_slotZero, if_neg h]
  rfl

theorem counters_written (q : DictReq) (u : State) : (written q u).mgmt.counters = u.mgmt.counters := by
  have hlogged : (logCritWrite q ⟨u, .ok, 0, [], false⟩).mgmt.counters = u.mgmt.counters := by
    unfold logCritWrite
    cases q.auth <;> rfl
  unfold written
  generalize logCritWrite q ⟨u, .ok, 0, [], false⟩ = v at *
  unfold answer
  dsimp only
  generalize (⟨_, _, _, _, _, _⟩ : Answer) = a
  obtain ⟨_, _, _, h⟩ := mgmt_sendAnswer (keepAnswer v a) q.path a
  rw [h]
  exact hlogged

theorem noPorts_idlePort (s : State) (p : Nat) : noPorts (idlePort s p) = noPorts s := noPorts_restartLanes ..

theorem noPorts_releasePort (s : State) (p : Nat) : noPorts (releasePort s p) = noPorts s := (onlyPort_releasePort s p).1

/-- Records of a device whose flash is sound are in the flash alone. -/
theorem foldl_appendRec {s : State} (l : List Nat) (key : Nat → Nat) (v : Stored) (h : s.flash.worn = []) :
    ∃ f, l.foldl (fun t k => appendRec t (key k) v true) s = { s with flash := f } := by
  induction l generalizing s with
  | nil => exact ⟨_, rfl⟩
  | cons k r ih =>
    obtain ⟨f, hf, hworn, -⟩ := appendRec_clean (key k) v true h
    rw [List.foldl_cons, hf]
    exact ih hworn

theorem foldl_appendRec_flash (u : State) {g : Flash} (l : List Nat) (key : Nat → Nat) (v : Stored) (h : g.worn = []) :
    ∃ f, l.foldl (fun t k => appendRec t (key k) v true) { u with flash := g } = { u with flash := f } :=
  foldl_appendRec l key v h

theorem returnReady_of {s : State}
    (hports : ∀ p, p < 12 → (port s p).state = .absent ∨ (port s p).heldOff = true ∨ regAt s 0x2000 5 p = 0)
    (hctxs : ∀ x ∈ s.ctxs, x.2.state = .off ∨ x.2.state = .halted) : returnReady s = true := by
  unfold returnReady
  simp only [Bool.and_eq_true, List.all_eq_true, Bool.or_eq_true, beq_iff_eq, or_assoc]
  refine ⟨fun p hp => hports p (List.mem_range.mp hp), fun x hx => ?_⟩
  rcases hctxs x hx with h | h <;> simp [ctxStopped, h]

/-- The device in the return state. -/
def returnPrepared (s : State) : State :=
  let s0 := program (idleAll s) serviceAddr 0xE0000 fun f => { f with service := returnRecord s }
  let s1 := [1, 2, 3].foldl (fun t k => appendRec t (markKey k) (.num 0) true) s0
  { s1 with
    flash := { s1.flash with returned := true, keys := slotZero s1.flash.keys },
    mgmt := { s1.mgmt with keys := slotZero s1.mgmt.keys, counters := slotZero s1.mgmt.counters } }

theorem noPorts_kept {s u : State} (h : noPorts u = noPorts s) (f : Flash) (m : Mgmt) :
    noPorts { u with flash := f, mgmt := m } = { noPorts s with flash := f, mgmt := m } :=
  congrArg (fun t : State => { t with flash := f, mgmt := m }) h

/-- What the return state changes: beside the ports, the flash and the keys. -/
theorem returnPrepared_effect {s : State} (hworn : s.flash.worn = []) :
    noPorts (returnPrepared s) = { noPorts s with
      flash := (returnPrepared s).flash,
      mgmt := { s.mgmt with keys := slotZero s.mgmt.keys, counters := slotZero s.mgmt.counters } } ∧
    (returnPrepared s).flash.returned = true := by
  have hidle : noPorts (idleAll s) = noPorts s := foldl_keeps noPorts _ noPorts_idlePort twelve s
  unfold returnPrepared
  generalize idleAll s = u at *
  have hflash : u.flash = s.flash := (congrArg State.flash hidle :)
  have hmgmt : u.mgmt = s.mgmt := (congrArg State.mgmt hidle :)
  have hrecord : ∀ b, ({ u.flash with service := b } : Flash).worn = [] := fun b => (congrArg Flash.worn hflash).trans hworn
  rw [program_clean _ _ _ (by rw [hflash, hworn])]
  have hg := hrecord (returnRecord s)
  generalize ({ u.flash with service := returnRecord s } : Flash) = g at *
  obtain ⟨f, hf⟩ := foldl_appendRec_flash u [1, 2, 3] markKey (.num 0) hg
  dsimp only
  rw [hf, ← hmgmt]
  exact ⟨noPorts_kept hidle _ _, rfl⟩

theorem prepareReturn_works (w : WriteHdr) (s : State)
    (hports : ∀ p, p < 12 → (port s p).state = .absent ∨ (port s p).heldOff = true ∨ regAt s 0x2000 5 p = 0)
    (hctxs : ∀ x ∈ s.ctxs, x.2.state = .off ∨ x.2.state = .halted) :
    WriteWorks (.prepareReturn w) w 0xA200 1 [1] s id fun t => t.flash.returned = true ∧
      (∀ k, k ≠ 0 → slotKey t k = 0 ∧ slotCounter t k = 0) ∧ slotKey t 0 = slotKey s 0 ∧ t.ctxs = s.ctxs ∧ t.mem = s.mem ∧
      t.tables = s.tables := by
  refine writeWorks_of_rule (applyPrepare true) returnPrepared rfl (fun haut => ?_) (fun haut u hu => ?_)
  · generalize writeReq w 0xA200 1 [1] = q at *
    refine require_pos (returnReady_of (fun p hp => ?_) ?_)
    · rw [port, ports_atEntry q s haut, regAt_atEntry_above haut (by decide)]
      exact hports p hp
    · rw [ctxs_atEntry q s haut]
      exact hctxs
  · have hcrit : accessOf (writeReq w 0xA200 1 [1]).index (writeReq w 0xA200 1 [1]).sub = .crit :=
      show accessOf 0xA200 1 = .crit by decide
    generalize writeReq w 0xA200 1 [1] = q at *
    have hworn := (worn_of_records (atEntry_keeps haut).2).trans (worn_of_crit haut hcrit)
    have hkeys : (atEntry q s).mgmt.keys = s.mgmt.keys := (congrArg Mgmt.keys (atEntry_keeps haut).1 :)
    have hbeside := beside_atEntry q s haut
    obtain ⟨heffect, hreturned⟩ := returnPrepared_effect hworn
    rw [← hu] at heffect hreturned
    generalize atEntry q s = e at *
    have hmgmt : u.mgmt = { e.mgmt with keys := slotZero e.mgmt.keys, counters := slotZero e.mgmt.counters } :=
      (congrArg State.mgmt heffect :)
    have hput : (written q u).mgmt.keys = slotZero s.mgmt.keys := by
      rw [show (written q u).mgmt.keys = u.mgmt.keys from (congrArg Mgmt.keys (written_keeps q u).1 :), hmgmt, ← hkeys]
    have hcounts : (written q u).mgmt.counters = slotZero e.mgmt.counters := by
      rw [counters_written, hmgmt]
    have hflash : (written q u).flash.returned = u.flash.returned := (congrArg Flash.returned (written_keeps q u).2 :)
    refine ⟨(congrArg State.cascade heffect :).trans (congrArg State.cascade hbeside :), (beside_written q u).symm,
      hflash.trans hreturned, fun k hk => ⟨?_, ?_⟩, ?_, ?_, ?_, ?_⟩
    · rw [slotKey, hput]
      exact tgetD_slotZero_ne _ _ hk
    · rw [slotCounter, hcounts]
      exact tgetD_slotZero_ne _ _ hk
    · rw [slotKey, hput]
      exact tgetD_slotZero_self _ _
    · rw [ctxs_written]
      exact (congrArg State.ctxs heffect :).trans (congrArg State.ctxs hbeside :)
    · rw [mem_written]
      exact (congrArg State.mem heffect :).trans (congrArg State.mem hbeside :)
    · rw [tables_written]
      exact (congrArg State.tables heffect :).trans (congrArg State.tables hbeside :)

/-! ## Back to service (R456) -/

/-- The return state left, and the ports that may train released. -/
def backInService (s : State) : State :=
  twelve.foldl (fun t p => releasePort t p) { s with flash := { s.flash with returned := false } }

theorem noPorts_backInService (s : State) :
    noPorts (backInService s) = noPorts { s with flash := { s.flash with returned := false } } :=
  foldl_keeps noPorts _ noPorts_releasePort twelve _

theorem returned_atEntry {q : DictReq} {s : State} (h : Authorised q s) : (atEntry q s).flash.returned = s.flash.returned :=
  (congrArg Flash.returned (atEntry_keeps h).2 :)

theorem returned_written (q : DictReq) (u : State) : (written q u).flash.returned = u.flash.returned :=
  (congrArg Flash.returned (written_keeps q u).2 :)

theorem returnToService_works (w : WriteHdr) (s : State) (hreturned : s.flash.returned = true) :
    WriteWorks (.returnToService w) w 0xA200 3 [1] s id fun t => t.flash.returned = false ∧ t.ctxs = s.ctxs ∧ t.mem = s.mem ∧
      t.tables = s.tables := by
  refine writeWorks_of_rule (applyService true) backInService rfl (fun haut => ?_) (fun haut u hu => ?_)
  · exact congrArg ok (if_pos ⟨rfl, (returned_atEntry haut).trans hreturned⟩)
  · generalize writeReq w 0xA200 3 [1] = q at *
    have hbeside := beside_atEntry q s haut
    generalize atEntry q s = e at *
    have heffect := noPorts_backInService e
    rw [← hu] at heffect
    refine ⟨(congrArg State.cascade heffect :).trans (congrArg State.cascade hbeside :), (beside_written q u).symm,
      (returned_written q u).trans (congrArg (fun t => t.flash.returned) heffect :), ?_, ?_, ?_⟩
    · rw [ctxs_written]
      exact (congrArg State.ctxs heffect :).trans (congrArg State.ctxs hbeside :)
    · rw [mem_written]
      exact (congrArg State.mem heffect :).trans (congrArg State.mem hbeside :)
    · rw [tables_written]
      exact (congrArg State.tables heffect :).trans (congrArg State.tables hbeside :)

theorem returnToService_not (w : WriteHdr) (s : State) (hreturned : s.flash.returned = false) :
    WriteWorks (.returnToService w) w 0xA200 3 [1] s (fun _ => s) fun t => t.flash.returned = false := by
  refine writeWorks_of_rule (applyService true) id rfl (fun haut => ?_) (fun haut u hu => ?_)
  · exact congrArg ok (if_neg fun h => Bool.false_ne_true (hreturned.symm.trans ((returned_atEntry haut).symm.trans h.2)))
  · exact ⟨by rw [hu]; exact cascade_atEntry _ s haut, by rw [hu]; exact beside_atEntry _ s haut, by
      rw [returned_written, hu]
      exact (returned_atEntry haut).trans hreturned⟩

/-- Settles O53: cable identities, and the return state. -/
theorem cablesAndReturn : Obligations.CablesAndReturn := by
  unfold Obligations.CablesAndReturn
  exact ⟨fun w b s o ho hmedium => cableIdentity_works w b s o ho hmedium,
    fun w s hports hctxs => prepareReturn_works w s hports hctxs, fun w s h => returnToService_works w s h,
    fun w s h => returnToService_not w s h⟩

end Sys2Proof.Machine
end

section
/-! Context resets (R380): of an enabled context whose disabling already waits for its final mirror write. -/

namespace Sys2Proof.Machine
open Sys2Proof Sys2Proof.Tests

theorem halting_reset_taken : WriteTaken (writeReq w0 0x7200 1 (resetValue 1 0)) halting :=
  Tests.taken (by decide +kernel)

theorem halting_onlyOneWorks : halting.faults.running = [] ∧ OnlyOneWorks halting 0 (fun n _ => n = 0) := by
  unfold OnlyOneWorks Quiet
  beta_reduce
  decide +kernel

/-- The reset begins to disable the context, and `tryFinish` passes over one that is halting, so that it stays in DRAINING. -/
theorem contextReset_halting : ∃ t, exec (.contextReset w0 0) halting = .next t ∧ (ctx t 0).state = .draining :=
  ⟨_, rfl, by decide +kernel⟩

/-- Refutes O54. Its first clause takes any enabled context without mirror and with nothing in flight, and the state is
any: where `halting` is set, a reset of it leaves it in DRAINING. -/
theorem not_resetsRun : ¬ Obligations.ResetsRun := by
  unfold Obligations.ResetsRun
  rintro ⟨hreset, -⟩
  obtain ⟨hidle, honly⟩ := halting_onlyOneWorks
  obtain ⟨t, hrun, -, ⟨hhalted, -⟩, -⟩ := hreset w0 0 halting hidle honly halting_reset_taken
  obtain ⟨u, hrun', hdraining⟩ := contextReset_halting
  obtain rfl : t = u := Host.Outcome.next.inj (hrun.symm.trans hrun')
  exact absurd (hhalted.symm.trans hdraining) (by decide)

end Sys2Proof.Machine
end

section
/-! The collector's messages, the counts of their sources, and forced messages (R366 to R373). -/

namespace Sys2Proof.Machine
open Sys2Proof

/-! ## What a message writes beside the latch (R366, R391) -/

/-- The numbers from 0x2000 on read as before. -/
def RegsKept (s t : State) : Prop := ∀ i j k, regKey 0x2000 0 0 ≤ regKey i j k → regAt t i j k = regAt s i j k

/-- An event is told to the field network: beside its numbers, only the frames, the output and the numbers of 0x1010 change. -/
structure Told (s t : State) : Prop where
  only : t = { s with regs := t.regs, out := t.out, mgmt := t.mgmt }
  held : t.mgmt.heldReqs = s.mgmt.heldReqs
  out : s.out <+: t.out
  regs : RegsKept s t

theorem told_refl (s : State) : Told s s := ⟨rfl, rfl, List.prefix_refl _, fun _ _ _ _ => rfl⟩

theorem told_trans {s t u : State} (h : Told s t) (k : Told t u) : Told s u := by
  refine ⟨?_, k.held.trans h.held, h.out.trans k.out, fun i j l hl => (k.regs i j l hl).trans (h.regs i j l hl)⟩
  rw [k.only, h.only]

theorem told_bump (s : State) {n : Nat} (hn : n < 256) : Told s (bump s 0x1010 n) :=
  ⟨rfl, rfl, List.prefix_refl _, fun i j k h => regAt_bumpBy_ne _ _ _ _ _ _ _ _ (by unfold regKey at h ⊢; omega)⟩

theorem told_roomMade (s : State) : Told s (roomMade s) := by
  unfold roomMade
  split
  · obtain ⟨-, -, hout, hregs⟩ := told_bump s (n := 7) (by decide)
    exact ⟨rfl, rfl, hout, hregs⟩
  · exact told_refl s

theorem told_eventQueued (s : State) (e : Event) : Told s (eventQueued s e) :=
  ⟨rfl, rfl, List.prefix_refl _, fun _ _ _ _ => rfl⟩

theorem told_sendFrame (s : State) (f : Bytes) : Told s (sendFrame s f) := by
  refine ⟨?_, ?_, ?_, fun i j k _ => ?_⟩
  · rw [sendFrame_only]
  · rw [sendFrame_only]
  · unfold sendFrame
    split
    · exact List.prefix_append ..
    · exact List.prefix_refl _
  · rw [regAt, sendFrame_only]
    rfl

theorem told_pushEvent (s : State) (kind time : Nat) (body : Bytes) : Told s (pushEvent s kind time body) := by
  by_cases hphase : s.phase = .running ∨ s.phase = .cut ∨ s.phase = .recovery
  · obtain ⟨e, he⟩ := pushEvent_eq kind time body hphase
    have hroom := told_trans (told_bump s (n := 6) (by decide)) (told_roomMade (bump s 0x1010 6))
    rw [he]
    generalize roomMade (bump s 0x1010 6) = u at *
    have hqueued := told_trans hroom (told_eventQueued u e)
    split
    · exact hqueued
    · exact told_trans hqueued (told_sendFrame ..)
  · rw [pushEvent, if_neg hphase]
    exact told_refl s

theorem told_eventMessage (s : State) (m : Msg) : Told s (eventMessage s m) := by
  unfold eventMessage
  split
  · exact told_refl s
  · exact told_pushEvent ..

/-- What the Logbook's record of a message changes. -/
theorem logMessage_only (s : State) (m : Msg) :
    logMessage s m = { s with faults := { s.faults with sources := (logMessage s m).faults.sources }, flash := (logMessage s m).flash } := by
  unfold logMessage
  split
  · rfl
  · split
    · unfold logLow
      dsimp only
      split <;> rfl
    · rfl

/-! ## A message taken from the queue (R366 to R371) -/

/-- A message noted and logged, before the latch. -/
def noted (s : State) (m : Msg) (r : List Msg) : State :=
  logMessage (setFaults (bump (setFaults s fun f => { f with intake := r }) 0x7000 0xE) fun f => { f with last := m.bits }) m

/-- What is then known of it. -/
structure Noted (s : State) (m : Msg) (r : List Msg) (u : State) : Prop where
  only : u = { s with regs := u.regs, faults := u.faults, flash := u.flash }
  faults : u.faults = { s.faults with intake := r, last := m.bits, sources := u.faults.sources }
  counted : Counted 0x7000 0xE 0 s u
  regs : ∀ j, j < 0xE → reg u 0x7000 j = reg s 0x7000 j

theorem noted_noted (s : State) (m : Msg) (r : List Msg) : Noted s m r (noted s m r) := by
  have honly := logMessage_only
    (setFaults (bump (setFaults s fun f => { f with intake := r }) 0x7000 0xE) fun f => { f with last := m.bits }) m
  unfold noted
  generalize logMessage _ m = u at *
  have hregs : u.regs = (bump s 0x7000 0xE).regs := (congrArg State.regs honly :)
  refine ⟨?_, ?_, ?_, fun j hj => ?_⟩
  · rw [hregs, (congrArg State.faults honly :)]
    exact honly
  · exact (congrArg State.faults honly :)
  · unfold Counted regAt
    rw [hregs]
    rfl
  · unfold reg regAt
    rw [hregs]
    exact regAt_bumpBy_ne s 0x7000 j 0 1 0x7000 0xE 0 (by unfold regKey; omega)

theorem settleHeld_idle {s : State} (h : s.mgmt.heldReqs = []) : settleHeld s = s := by
  unfold settleHeld
  split
  · rw [h]
    show { s with mgmt := { s.mgmt with heldReqs := [] } } = s
    rw [← h]
  · rfl

/-- A message of a kind without action: what the collector does is the latch, and the event. -/
theorem faultIntake_handled {s t : State} {m : Msg} {r : List Msg} (h : Handled s m r)
    (hrun : exec (.faultIntake none) s = .next t) : ∃ u, Noted s m r u ∧ t = eventMessage (latchMessage u m) m := by
  obtain ⟨hintake, hheld, hforced, hbank, hreset, hsev⟩ := h
  refine ⟨noted s m r, noted_noted s m r, ?_⟩
  have htake : faultIntake none s = eventMessage (latchMessage (noted s m r) m) m := by
    have htaken : takeIntake s = eventMessage (latchMessage (noted s m r) m) m := by
      unfold takeIntake
      rw [hintake]
      rfl
    unfold faultIntake
    rw [hintake]
    dsimp only
    rw [htaken, actOn, if_neg (by simp [hforced]), if_neg (fun h => hbank h.1), if_neg hreset, if_neg (by omega)]
  have hidle : (eventMessage (latchMessage (noted s m r) m) m).mgmt.heldReqs = [] := by
    have hlatch : (latchMessage (noted s m r) m).mgmt = (noted s m r).mgmt := by
      unfold latchMessage
      split
      · rfl
      · split
        · rfl
        · split
          · rfl
          · dsimp only
            split <;> rfl
    rw [(told_eventMessage _ m).held, hlatch, (noted_noted s m r).only]
    exact hheld
  have hrest : t = settleHeld (faultIntake none s) := (Host.Outcome.next.inj hrun).symm
  rw [hrest, htake]
  exact settleHeld_idle hidle

theorem onlyCollected_told {s u v t : State} {m : Msg} {r : List Msg} (hu : Noted s m r u)
    (hv : v = { u with faults := v.faults, out := v.out }) (ht : Told v t) : t = onlyCollected s t ∧ t.faults = v.faults := by
  obtain ⟨honly, -, -, -⟩ := hu
  obtain ⟨htold, -, -, -⟩ := ht
  constructor
  · rw [htold, hv, honly]
    rfl
  · rw [htold]

theorem faultIntake_latches {m : Msg} {r : List Msg} {s : State} (h : Handled s m r) (hsev : reg s 0x7000 7 ≤ msgSev m)
    (hlatch : s.faults.latch = none) :
    Runs (.faultIntake none) s fun t => t.faults.latch = some m ∧ t.faults.seqNr = (s.faults.seqNr + 1) % 2 ^ 32 ∧
      Output.interrupt (reg s 0x7000 0xA) t.faults.seqNr ∈ t.out ∧ t.faults.intake = r ∧ t.faults.last = m.bits ∧
      Counted 0x7000 0xE 0 s t ∧ t = onlyCollected s t := by
  obtain ⟨u, hu, ht⟩ := faultIntake_handled h rfl
  refine ⟨_, rfl, ?_⟩
  generalize settleHeld (faultIntake none s) = t at *
  set v := faultInterrupt (setFaults u fun f => { f with
    latch := some m, seqNr := (f.seqNr + 1) % 2 ^ 32, overTold := false }) with hv
  have hrun : latchMessage u m = v := by
    unfold latchMessage
    rw [if_neg (by rw [hu.regs 7 (by decide)]; omega), hu.faults]
    dsimp only
    rw [hlatch]
  rw [hrun] at ht
  have htold := told_eventMessage v m
  rw [← ht] at htold
  obtain ⟨hcollected, hfaults⟩ := onlyCollected_told hu rfl htold
  have hseq : u.faults.seqNr = s.faults.seqNr := by rw [hu.faults]
  have hintake : u.faults.intake = r := by rw [hu.faults]
  have hlast : u.faults.last = m.bits := by rw [hu.faults]
  refine ⟨by rw [hfaults]; rfl, ?_, ?_, by rw [hfaults]; exact hintake, by rw [hfaults]; exact hlast, ?_, hcollected⟩
  · rw [hfaults, ← hseq]
    rfl
  · refine htold.out.subset ?_
    rw [hfaults, ← hu.regs 0xA (by decide)]
    exact List.mem_append_right _ (List.mem_singleton_self _)
  · exact (htold.regs 0x7000 0xE 0 (by decide)).trans hu.counted

theorem faultIntake_merges {m l : Msg} {r : List Msg} {s : State} (h : Handled s m r) (hsev : reg s 0x7000 7 ≤ msgSev m)
    (hlatch : s.faults.latch = some l) (hmerges : merges l m = true) :
    Runs (.faultIntake none) s fun t => t.faults.latch = some (raiseSev l m) ∧ t.faults.merges = min (s.faults.merges + 1) 65535 ∧
      t.faults.seqNr = s.faults.seqNr ∧ t.faults.overflow = s.faults.overflow ∧ t.faults.intake = r ∧ t = onlyCollected s t := by
  obtain ⟨u, hu, ht⟩ := faultIntake_handled h rfl
  refine ⟨_, rfl, ?_⟩
  generalize settleHeld (faultIntake none s) = t at *
  set v := setFaults u fun f => { f with latch := some (raiseSev l m), merges := min (f.merges + 1) 65535 } with hv
  have hrun : latchMessage u m = v := by
    unfold latchMessage
    have hlatched : u.faults.latch = some l := by
      rw [hu.faults]
      exact hlatch
    rw [if_neg (by rw [hu.regs 7 (by decide)]; omega), hlatched]
    exact if_pos hmerges
  rw [hrun] at ht
  have htold := told_eventMessage v m
  rw [← ht] at htold
  obtain ⟨hcollected, hfaults⟩ := onlyCollected_told hu rfl htold
  have hv' : v.faults = { s.faults with
      intake := r, last := m.bits, sources := u.faults.sources, latch := some (raiseSev l m), merges := min (s.faults.merges + 1) 65535 } := by
    rw [hv, setFaults, hu.faults]
  rw [hv'] at hfaults
  exact ⟨by rw [hfaults], by rw [hfaults], by rw [hfaults], by rw [hfaults], by rw [hfaults], hcollected⟩

theorem faultIntake_overflows {m l : Msg} {r : List Msg} {s : State} (h : Handled s m r) (hsev : reg s 0x7000 7 ≤ msgSev m)
    (hlatch : s.faults.latch = some l) (hmerges : merges l m = false) :
    Runs (.faultIntake none) s fun t => t.faults.latch = some l ∧ t.faults.overflow = true ∧
      t.faults.overCount = (s.faults.overCount + 1) % 2 ^ 32 ∧ t.faults.seqNr = s.faults.seqNr ∧ t.faults.intake = r ∧
      t = onlyCollected s t := by
  obtain ⟨u, hu, ht⟩ := faultIntake_handled h rfl
  refine ⟨_, rfl, ?_⟩
  generalize settleHeld (faultIntake none s) = t at *
  set w := setFaults u fun f => { f with
    overflow := true, overCount := (f.overCount + 1) % 2 ^ 32, overTold := true } with hw
  obtain ⟨v, hrun, hv, hvw⟩ : ∃ v, latchMessage u m = v ∧ v = { u with faults := v.faults, out := v.out } ∧ v.faults = w.faults := by
    have hlatched : u.faults.latch = some l := by
      rw [hu.faults]
      exact hlatch
    refine ⟨_, rfl, ?_⟩
    unfold latchMessage
    rw [if_neg (by rw [hu.regs 7 (by decide)]; omega), hlatched]
    dsimp only
    rw [if_neg (by simp [hmerges])]
    split
    · exact ⟨rfl, rfl⟩
    · exact ⟨rfl, rfl⟩
  rw [hrun] at ht
  have htold := told_eventMessage v m
  rw [← ht] at htold
  obtain ⟨hcollected, hfaults⟩ := onlyCollected_told hu hv htold
  have hv' : w.faults = { s.faults with
      intake := r, last := m.bits, sources := u.faults.sources,
      overflow := true, overCount := (s.faults.overCount + 1) % 2 ^ 32, overTold := true } := by
    rw [hw, setFaults, hu.faults]
  rw [hvw, hv'] at hfaults
  exact ⟨by rw [hfaults, ← hlatch], by rw [hfaults], by rw [hfaults], by rw [hfaults], by rw [hfaults], hcollected⟩

theorem faultIntake_below {m : Msg} {r : List Msg} {s : State} (h : Handled s m r) (hsev : msgSev m < reg s 0x7000 7) :
    Runs (.faultIntake none) s fun t => t.faults.latch = s.faults.latch ∧ t.faults.seqNr = s.faults.seqNr ∧
      t.faults.intake = r ∧ t.faults.last = m.bits ∧ t = onlyCollected s t := by
  obtain ⟨u, hu, ht⟩ := faultIntake_handled h rfl
  refine ⟨_, rfl, ?_⟩
  generalize settleHeld (faultIntake none s) = t at *
  have hrun : latchMessage u m = u := by
    unfold latchMessage
    rw [if_pos (by rw [hu.regs 7 (by decide)]; omega)]
  rw [hrun] at ht
  have htold := told_eventMessage u m
  rw [← ht] at htold
  obtain ⟨hcollected, hfaults⟩ := onlyCollected_told hu rfl htold
  rw [hu.faults] at hfaults
  exact ⟨by rw [hfaults], by rw [hfaults], by rw [hfaults], by rw [hfaults], hcollected⟩

theorem faultIntake_empty {s : State} (hintake : s.faults.intake = []) (hheld : s.mgmt.heldReqs = []) :
    exec (.faultIntake none) s = .next s := by
  have hnone : faultIntake none s = s := by
    unfold faultIntake
    rw [hintake]
  exact congrArg Host.Outcome.next ((congrArg settleHeld hnone).trans (settleHeld_idle hheld))

/-! ## Clearing and forcing (R372, R373) -/

/-- The latch emptied. -/
def latchCleared (s : State) : State := setFaults s fun f => { f with latch := none, overflow := false, overCount := 0, merges := 0 }

theorem faultClear_works (w : WriteHdr) (v : BitVec 32) (s : State) (hlatch : s.faults.latch.isSome = true)
    (hseq : s.faults.seqNr = v.toNat) :
    WriteWorks (.faultClear w v) w 0x7000 5 (leBytes 4 v.toNat) s (fun t => { s with faults := t.faults }) fun t =>
      t.faults = { s.faults with latch := none, overflow := false, overCount := 0, merges := 0 } := by
  refine writeWorks_of_rule (applyFaultClear v.toNat) latchCleared rfl (fun haut => ?_) (fun haut u hu => ?_)
  · refine require_pos ?_
    rw [faults_atEntry _ _ haut, hlatch, hseq]
    simp
  · generalize writeReq w 0x7000 5 (leBytes 4 v.toNat) = q at *
    have hfaults : u.faults = { s.faults with latch := none, overflow := false, overCount := 0, merges := 0 } := by
      rw [hu, latchCleared, setFaults, faults_atEntry q s haut]
    refine ⟨by rw [hu]; exact cascade_atEntry q s haut, ?_, by rw [faults_written, hfaults]⟩
    rw [faults_written, hfaults]
    have hbeside := beside_faults_atEntry haut u.faults
    rw [hfaults] at hbeside
    rw [hu, latchCleared, setFaults, faults_atEntry q s haut]
    exact hbeside

theorem faultClear_not (w : WriteHdr) (v : BitVec 32) (s : State) (hnot : s.faults.latch = none ∨ s.faults.seqNr ≠ v.toNat)
    (htaken : WriteTaken (writeReq w 0x7000 5 (leBytes 4 v.toNat)) s) :
    Runs (.faultClear w v) s fun t => AnsweredLast (writeReq w 0x7000 5 (leBytes 4 v.toNat)) .notPerformed 10 t ∧
      beside t = beside s := by
  have hheard := heard_of_writeTaken htaken
  have hrun := writeOutcome_rule (apply := applyFaultClear v.toNat) htaken
  obtain ⟨-, -, -, -, -, -, -, hnew, -, -, -, haut, -⟩ := htaken
  have hrefused : applyFaultClear v.toNat (atEntry (writeReq w 0x7000 5 (leBytes 4 v.toNat)) s) = .refuse .notPerformed 10 := by
    refine require_neg ?_
    rw [faults_atEntry _ _ haut]
    rcases hnot with h | h
    · simp [h]
    · simp [h]
  rw [hrefused] at hrun
  refine ⟨_, rfl, ?_⟩
  rw [dictWrite_heard _ hheard hnew, performWrite_refused rfl hrun (by decide)]
  refine ⟨lateAnswer_answeredLast _ _ _ _, ?_⟩
  rw [beside_lateAnswer, beside_atEntry _ _ haut]

end Sys2Proof.Machine
end

section
/-! Forced messages, the counting windows, the log rate, and the dump (R366, R367, R373, R387 to R390). -/

namespace Sys2Proof.Machine
open Sys2Proof

/-! ## The fields of a message (R365) -/

/-- Fields of a word of 128 bits: that before a bit, the bit, and one of 32 bits. -/
theorem messageWord_fields {src kind sev forced low addr high : Nat} (hsrc : src < 4096) (hkind : kind < 64) (hsev : sev < 8)
    (hforced : forced < 2) (hlow : low < 2 ^ 26) (haddr : addr < 2 ^ 32) :
    let x := (src + (kind * 2 ^ 12 + (sev * 2 ^ 18 + (forced * 2 ^ 21 + (low * 2 ^ 22 + (addr * 2 ^ 48 + high * 2 ^ 80)))))) % 2 ^ 128
    fld x 0 12 = src ∧ fld x 12 6 = kind ∧ fld x 21 1 = forced ∧ fld x 48 32 = addr := by
  unfold fld
  norm_num only at *
  omega

/-- The fields that a message of a report carries. -/
theorem faultMessage_fields (s : State) (r : Report) (sev : Severity) (cnt : Bool) (hcls : r.cls < 16)
    (hkind : r.kind < 64) : msgForced (faultMessage s r sev cnt) = r.forced ∧
      msgSource (faultMessage s r sev cnt) = sourceNo r.cls r.idx ∧ msgKind (faultMessage s r sev cnt) = r.kind ∧
      msgAddr (faultMessage s r sev cnt) = r.addr % 2 ^ 32 := by
  have hsrc : sourceNo r.cls r.idx < 4096 := by
    unfold sourceNo
    omega
  obtain ⟨low, hlow, hword⟩ : ∃ low, low < 2 ^ 26 ∧ (faultMessage s r sev cnt).bits.toNat =
      (sourceNo r.cls r.idx + (r.kind * 2 ^ 12 + (sev.code % 8 * 2 ^ 18 + (bit r.forced * 2 ^ 21 + (low * 2 ^ 22 +
        (r.addr % 2 ^ 32 * 2 ^ 48 + stamp s % 2 ^ 48 * 2 ^ 80)))))) % 2 ^ 128 := by
    have hbit : ∀ b, bit b < 2 := fun b => by cases b <;> decide
    have hf := hbit r.forced
    refine ⟨r.status.code % 2 ^ 4 + r.ctx.getD 0 % 2 ^ 12 * 2 ^ 4 + bit r.ctx.isSome % 2 ^ 1 * 2 ^ 16 + instId s % 2 ^ 2 * 2 ^ 17 +
      bit cnt % 2 ^ 1 * 2 ^ 19, by omega, ?_⟩
    unfold faultMessage
    simp only [pack_cons, pack_nil, BitVec.toNat_ofNat]
    generalize sourceNo r.cls r.idx = src at *
    generalize bit r.forced = f at *
    rw [Nat.mod_eq_of_lt (show src < 2 ^ 12 from hsrc), Nat.mod_eq_of_lt (show r.kind < 2 ^ 6 from hkind),
      Nat.mod_eq_of_lt (show f < 2 ^ 1 from hf)]
    congr 1
    omega
  obtain ⟨hs, hk, hf, ha⟩ := messageWord_fields (high := stamp s % 2 ^ 48) hsrc hkind (Nat.mod_lt sev.code (by decide : 0 < 8))
    (show bit r.forced < 2 by cases r.forced <;> decide) hlow (Nat.mod_lt r.addr (by decide : 0 < 2 ^ 32))
  unfold msgForced msgSource msgKind msgAddr
  rw [hword, hf]
  refine ⟨by cases r.forced <;> rfl, hs, hk, ha⟩

/-- Outside reset a report's message joins the queue while that has room. -/
theorem intake_raiseReport {s : State} (r : Report) (hawake : awake s = true) (hroom : s.faults.intake.length < 256) :
    ∃ u sev cnt, (raiseReport s r).faults.intake = s.faults.intake ++ [faultMessage u r sev cnt] := by
  unfold raiseReport
  rw [if_pos hawake]
  dsimp only
  unfold toIntake
  rw [if_pos (by exact hroom)]
  exact ⟨_, _, _, rfl⟩

/-! ## Forced messages (R373) -/

theorem kind_lt_of_baseSeverity {cls kind : Nat} {sev : Severity} (h : baseSeverity cls kind = some sev) : kind < 64 := by
  by_contra hbig
  unfold baseSeverity at h
  split at h
  any_goals omega
  cases h

/-- A forced message of a source. -/
def forcedReport (n kind : Nat) (sev : Severity) : Report := { cls := n / 256, idx := n % 256, kind := kind, sev := sev, forced := true }

theorem faultForce_works (w : WriteHdr) (k : BitVec 8) (sev : Severity) (s : State) (n : Nat) (hn : n = wsel s w 0x7100 1)
    (hlt : n < 4096) (hcls : n / 256 ≠ 9) (hbase : baseSeverity (n / 256) k.toNat = some sev) (hroom : s.faults.intake.length < 256) :
    WriteWorks (.faultForce w k) w 0x7100 6 [k] s (fun t => { s with faults := t.faults }) fun t =>
      CountedFault (n / 256) (n % 256) s t ∧
      ∃ m, t.faults.intake = s.faults.intake ++ [m] ∧ msgForced m = true ∧ msgSource m = n ∧ msgKind m = k.toNat ∧ msgAddr m = 0 := by
  intro htaken
  have hawake := awake_of_writeTaken htaken
  revert htaken
  refine writeWorks_of_rule (fun t => applyForce (wsel t w 0x7100 1) k.toNat t) (fun t => raiseReport t (forcedReport n k.toNat sev)) rfl
    (fun haut => ?_) (fun haut u hu => ?_)
  · have hsel : wsel (atEntry (writeReq w 0x7100 6 [k]) s) w 0x7100 1 = n :=
      (selected_atEntry (writeReq w 0x7100 6 [k]) s 0x7100 1 haut).trans hn.symm
    have hsev : severityOf (atEntry (writeReq w 0x7100 6 [k]) s) (n / 256) k.toNat = some sev :=
      (if_neg fun h => hcls h.1).trans hbase
    unfold applyForce
    rw [hsel, hsev]
    rfl
  · generalize writeReq w 0x7100 6 [k] = q at *
    have hfaults := faults_atEntry q s haut
    have hregs : ∀ i j k, 0x2000 ≤ i → regAt (atEntry q s) i j k = regAt s i j k := fun i j k hi => regAt_atEntry_above haut hi
    have hawake' : awake (atEntry q s) = true := by
      rwa [awake, phase_atEntry q s haut]
    have hbeside := beside_faults_atEntry haut u.faults
    have hcascade := cascade_atEntry q s haut
    generalize atEntry q s = e at *
    have honly := raiseReport_only e (forcedReport n k.toNat sev)
    have hcounted := countedFault_raiseReport hawake' (forcedReport n k.toNat sev)
    obtain ⟨v, sev', cnt, hintake⟩ := intake_raiseReport (forcedReport n k.toNat sev) hawake' (by rwa [hfaults])
    rw [← hu] at honly hcounted hintake
    obtain ⟨hforced, hsource, hkind, haddr⟩ := faultMessage_fields v (forcedReport n k.toNat sev) sev' cnt
      (show n / 256 < 16 by omega) (kind_lt_of_baseSeverity hbase)
    refine ⟨?_, ?_, ?_, ⟨_, ?_, hforced, hsource.trans ?_, hkind, haddr⟩⟩
    · rw [honly]
      exact hcascade
    · rw [faults_written, honly]
      exact hbeside
    · unfold CountedFault Counted at hcounted ⊢
      rw [regAt_written]
      exact hcounted.trans (regAt_bumpAt_congr (hregs _ _ _ (by decide)))
    · rw [faults_written, hintake, hfaults]
    · unfold sourceNo forcedReport
      dsimp only
      omega

/-! ## Counting windows, and the log rate (R366, R367) -/

theorem countSlotBoundary_works (cls : Fin 16) (i : BitVec 8) (s : State) (n : Nat) (hn : n = sourceNo cls i.toNat) :
    Runs (.countSlotBoundary cls i) s fun t =>
      windowCount (source t n) = windowCount (rollSlots s n (source s n)) ∧
      ((source t n).severe = true → regAt s 0x7100 3 n ≠ 0 ∧ regAt s 0x7100 3 n ≤ windowCount (source t n)) ∧
      (∀ k, k ≠ n → source t k = source s k) ∧ t = { s with faults := t.faults } := by
  subst hn
  generalize hn : sourceNo cls i.toNat = n
  refine ⟨countSlotBoundary n s, by rw [← hn]; rfl, ?_⟩
  have hself : source (countSlotBoundary n s) n = { rollSlots s n (source s n) with severe := sourceSevere s n } :=
    tgetD_tput_self ..
  refine ⟨by rw [hself]; rfl, fun hsevere => ?_, fun k hk => tgetD_tput_ne _ _ _ _ _ (Ne.symm hk), rfl⟩
  rw [hself] at hsevere ⊢
  have hboth : sourceSevere s n = true := hsevere
  unfold sourceSevere at hboth
  simp only [Bool.and_eq_true, decide_eq_true_eq, bne_iff_ne] at hboth
  obtain ⟨⟨-, hnonzero⟩, hle⟩ := hboth
  exact ⟨hnonzero, hle⟩

theorem selectionFor_window (s : State) (owner : Nat) : selectionFor s owner 0x7100 4 = selected s owner 0x7100 1 := by
  obtain ⟨row, hrow, hsel⟩ : ∃ r, rowOf 0x7100 4 = some r ∧ r.sel = 1 := ⟨_, rfl, rfl⟩
  unfold selectionFor
  rw [hrow]
  dsimp only
  rw [hsel]
  rfl

theorem faults_storeNumberAt (i j k v : Nat) (s : State) : (storeNumberAt i j k v s).faults = s.faults := by
  unfold storeNumberAt
  dsimp only
  split <;> rfl

/-- The window of a source stored, and its count emptied. -/
def windowSet (n v : Nat) (s : State) : State :=
  setFaults (storeNumberAt 0x7100 4 n v s) fun f => { f with
    sources := tput f.sources n { source s n with slots := [], epoch := s.clock, passed := 0, severe := false } }

theorem countWindowWrite_works (w : WriteHdr) (v : BitVec 32) (s : State) (n : Nat) (hn : n = wsel s w 0x7100 1) :
    WriteWorks (.countWindowWrite w v) w 0x7100 4 (leBytes 4 v.toNat) s (fun t => { s with faults := t.faults }) fun t =>
      windowCount (source t n) = 0 ∧ (source t n).severe = false ∧ (source t n).epoch = s.clock ∧
      regAt t 0x7100 4 n = v.toNat ∧ ∀ k, k ≠ n → source t k = source s k := by
  refine writeWorks_of_rule (applyCountWindow (ownerOf w.path) v.toNat) (windowSet n v.toNat) rfl (fun haut => ?_) (fun haut u hu => ?_)
  · have hsel : selected (atEntry (writeReq w 0x7100 4 (leBytes 4 v.toNat)) s) (ownerOf w.path) 0x7100 1 = n :=
      (selected_atEntry (writeReq w 0x7100 4 (leBytes 4 v.toNat)) s 0x7100 1 haut).trans hn.symm
    unfold applyCountWindow storeNumber
    dsimp only
    rw [selectionFor_window, hsel]
    rfl
  · generalize writeReq w 0x7100 4 (leBytes 4 v.toNat) = q at *
    have hfaults := faults_atEntry q s haut
    have hclock := clock_atEntry q s haut
    have hbeside := beside_faults_atEntry haut
    have hcascade := cascade_atEntry q s haut
    generalize atEntry q s = e at *
    have hstored := faults_storeNumberAt 0x7100 4 n v.toNat e
    have hkept := beside_storeNumberAt 0x7100 4 n v.toNat e
    have hnum := regAt_storeNumberAt 0x7100 4 n v.toNat e
    have hsame := cascade_storeNumberAt 0x7100 4 n v.toNat e
    unfold windowSet at hu
    generalize storeNumberAt 0x7100 4 n v.toNat e = d at *
    have hsources : u.faults.sources = tput s.faults.sources n { source s n with slots := [], epoch := s.clock, passed := 0, severe := false } := by
      rw [hu, setFaults, hstored, hclock, source, hfaults]
      rfl
    have hself : source (written q u) n = { source s n with slots := [], epoch := s.clock, passed := 0, severe := false } := by
      rw [source, faults_written, hsources]
      exact tgetD_tput_self ..
    refine ⟨by rw [hu]; exact hsame.trans hcascade, ?_, by rw [hself]; rfl, by rw [hself], by rw [hself], ?_, fun k hk => ?_⟩
    · rw [faults_written, ← hbeside, hu]
      exact (congrArg (fun t => { t with faults := (setFaults d fun f => { f with
        sources := tput f.sources n { source e n with slots := [], epoch := e.clock, passed := 0, severe := false } }).faults }) hkept :)
    · rw [regAt_written, hu]
      exact hnum
    · rw [source, faults_written, hsources]
      exact tgetD_tput_ne _ _ _ _ _ (Ne.symm hk)

theorem foldl_logSuppressed (l : List (Nat × Source)) (s : State) : ∃ f, l.foldl logSuppressed s = { s with flash := f } ∧
    ((∀ x ∈ l, x.2.held = 0) → f = s.flash) := by
  induction l generalizing s with
  | nil => exact ⟨_, rfl, fun _ => rfl⟩
  | cons x r ih =>
    obtain ⟨g, hg, hkept⟩ : ∃ g, logSuppressed s x = { s with flash := g } ∧ (x.2.held = 0 → g = s.flash) := by
      unfold logSuppressed
      split
      · exact ⟨_, rfl, fun _ => rfl⟩
      · next h => exact ⟨_, rfl, fun h0 => absurd h0 h⟩
    obtain ⟨f, hf, hrest⟩ := ih { s with flash := g }
    refine ⟨f, by rw [List.foldl_cons, hg, hf], fun hnone => ?_⟩
    exact (hrest fun y hy => hnone y (List.mem_cons_of_mem _ hy)).trans (hkept (hnone x List.mem_cons_self))

theorem logRateSecond_works {s : State} (hawake : awake s = true) (hsecond : s.clock / 4000000000 ≠ s.faults.second) :
    Runs .logRateSecond s fun t => t.faults.second = s.clock / 4000000000 ∧
      (∀ x ∈ t.faults.sources, x.2.logged = 0 ∧ x.2.held = 0) ∧
      ((∀ x ∈ s.faults.sources, x.2.held = 0) → t.flash = s.flash) ∧ t = { s with faults := t.faults, flash := t.flash } := by
  obtain ⟨f, hf, hkept⟩ := foldl_logSuppressed s.faults.sources s
  have hrun : logRateSecond s = setFaults { s with flash := f } fun g => { g with
      second := s.clock / 4000000000, sources := g.sources.map fun x => (x.1, { x.2 with logged := 0, held := 0 }) } := by
    unfold logRateSecond
    dsimp only
    rw [if_neg (by simp [hsecond, hawake]), hf]
  refine ⟨_, congrArg Host.Outcome.next hrun, rfl, fun x hx => ?_, hkept, rfl⟩
  obtain ⟨y, -, rfl⟩ := List.mem_map.mp hx
  exact ⟨rfl, rfl⟩

/-! ## The dump (R387 to R390) -/

/-- A dump begun. -/
def dumpStarted (s : State) : State :=
  { setFaults s fun f => { f with
      dump := 1, dumpNr := s.free, dumpWords := [], dumpAt := stamp s, dumpRead := s.clock + readSpan s }
    with free := s.free + 1 }

theorem beside_dump {s e : State} (h : beside e = beside s) (f : Faults) (n : Nat) :
    beside { e with faults := f, free := n } = beside { s with faults := f, free := n } :=
  congrArg (fun t : State => { t with faults := f, free := n }) h

theorem dumpRequest_starts (w : WriteHdr) (s : State) (hdump : s.faults.dump ≠ 1) :
    WriteWorks (.dumpRequest w) w 0x7300 1 [1] s (fun t => { s with faults := t.faults, free := s.free + 1 }) fun t =>
      t.faults = { s.faults with dump := 1, dumpNr := s.free, dumpWords := [], dumpAt := stamp s, dumpRead := t.faults.dumpRead } ∧
      s.clock ≤ t.faults.dumpRead := by
  refine writeWorks_of_rule (applyDumpRequest true) dumpStarted rfl (fun haut => ?_) (fun haut u hu => ?_)
  · refine congrArg ok ?_
    unfold startDump
    exact (if_pos rfl).trans (if_neg (by rwa [faults_atEntry _ _ haut]))
  · generalize writeReq w 0x7300 1 [1] = q at *
    have hfaults := faults_atEntry q s haut
    have hclock := clock_atEntry q s haut
    have hfree := free_atEntry q s haut
    have hstamp : stamp (atEntry q s) = stamp s := by
      rw [stamp, mer_atEntry q s haut, hclock]
      rfl
    have hbeside := beside_atEntry q s haut
    have hcascade := cascade_atEntry q s haut
    generalize atEntry q s = e at *
    have hu' : u.faults = { s.faults with
        dump := 1, dumpNr := s.free, dumpWords := [], dumpAt := stamp s, dumpRead := s.clock + readSpan e } := by
      rw [hu, dumpStarted, setFaults, hfaults, hfree, hstamp, hclock]
    refine ⟨by rw [hu]; exact hcascade, ?_, ?_, ?_⟩
    · have honly : u = { e with faults := u.faults, free := s.free + 1 } := by
        rw [hu, dumpStarted, hfree]
        rfl
      rw [faults_written]
      exact (congrArg beside honly).trans (beside_dump hbeside _ _)
    · rw [faults_written, hu']
    · rw [faults_written, hu']
      exact Nat.le_add_right ..

theorem dumpRequest_skips (w : WriteHdr) (s : State) (hdump : s.faults.dump = 1) :
    WriteWorks (.dumpRequest w) w 0x7300 1 [1] s (fun _ => s) fun t => t.faults = s.faults := by
  refine writeWorks_of_rule (applyDumpRequest true) (fun t => logDump t 2 0 (List.replicate 64 3)) rfl (fun haut => ?_) (fun haut u hu => ?_)
  · refine congrArg ok ?_
    unfold startDump
    exact (if_pos rfl).trans (if_pos (by rwa [faults_atEntry _ _ haut]))
  · exact ⟨by rw [hu]; exact cascade_atEntry _ s haut, by rw [hu]; exact beside_atEntry _ s haut, by
      rw [faults_written, hu]
      exact faults_atEntry _ s haut⟩

theorem unitBytes_words (u : Nat) : 256 ≤ unitBytes u / 4 := by
  unfold unitBytes
  split
  · decide
  · split <;> decide

theorem dumpUnitTimeout_marks (u : Fin 64) (any : Bool) (s : State) (hdump : s.faults.dump = 1) (hread : s.clock < s.faults.dumpRead)
    (hmem : u.val ∈ ringUnits s) (hnew : tget s.faults.dumpWords u = none) :
    Runs (.dumpUnitTimeout u any) s fun t => ∃ n, tget t.faults.dumpWords u = some n ∧
      (if any then 1 ≤ n ∧ n < unitBytes u / 4 else n = 0) ∧
      t.faults.dumpRead = s.faults.dumpRead + 200000 - (unitBytes u / 4 - n) * 40 ∧
      t = { s with faults := t.faults, free := s.free + 1 } := by
  have hstate : dumpState s = 1 := by
    rw [dumpState, if_neg (fun h => absurd h.2 (Nat.not_le.mpr hread)), hdump]
  have hgiven : dumpState s = 1 ∧ (ringUnits s).contains u.val = true ∧ (tget s.faults.dumpWords u).isNone = true :=
    ⟨hstate, List.contains_iff_mem.mpr hmem, by rw [hnew]; rfl⟩
  have hrun : dumpUnitTimeout u any s = _ := if_pos hgiven
  refine ⟨_, congrArg Host.Outcome.next hrun, _, tget_tput_self .., ?_, rfl, rfl⟩
  have hwords := unitBytes_words u
  cases any with
  | false => rfl
  | true =>
    have hlt := Nat.mod_lt (freshValue s 18).1.toNat (show 0 < unitBytes u / 4 - 1 by omega)
    simp only [if_true]
    omega

theorem dumpUnitTimeout_not (u : Fin 64) (any : Bool) (s : State) (h1 : s.faults.dump ≠ 1) :
    exec (.dumpUnitTimeout u any) s = .next s := by
  have hstate : dumpState s ≠ 1 := by
    rwa [dumpState, if_neg fun h => h1 h.1]
  exact congrArg Host.Outcome.next (if_neg fun h => hstate h.1)

theorem dumpState_read {s : State} (hdump : s.faults.dump = 1) (hread : s.faults.dumpRead ≤ s.clock) : dumpState s = 2 :=
  if_pos ⟨hdump, hread⟩

theorem logDump_only (s : State) (st n : Nat) (b : Bytes) : ∃ f, logDump s st n b = { s with flash := f } := ⟨_, rfl⟩

theorem dumpFlashWriteDone_writes {s : State} (hdump : s.faults.dump = 1) (hread : s.faults.dumpRead ≤ s.clock)
    (hworn : wornIn s.flash (dumpAddr s.flash.dumpNext) 0x40000 = none) :
    Runs .dumpFlashWriteDone s fun t => t.faults = { s.faults with dump := 3 } ∧
      tget t.flash.dumpSlots s.flash.dumpNext = some (s.faults.dumpNr, unitResults s, s.faults.dumpWords) ∧
      t.flash.dumpNext = (s.flash.dumpNext + 1) % 4 ∧ t = { s with faults := t.faults, flash := t.flash, mgmt := t.mgmt } := by
  have hrun : dumpFlashWriteDone s = writeDump s := if_pos (dumpState_read hdump hread)
  refine ⟨_, congrArg Host.Outcome.next hrun, ?_⟩
  obtain ⟨f, hf⟩ := logDump_only s 0 (dumpSize s) (unitResults s)
  unfold writeDump
  rw [hworn]
  dsimp only
  rw [hf]
  generalize unitResults s = x
  exact ⟨rfl, tget_tput_self f.dumpSlots s.flash.dumpNext (s.faults.dumpNr, x, s.faults.dumpWords), rfl, rfl⟩

theorem dump_raiseReport (s : State) (r : Report) : (raiseReport s r).faults.dump = s.faults.dump := by
  unfold raiseReport
  split
  · unfold toIntake
    dsimp only
    split <;> rfl
  · rfl

theorem dump_raiseReplace (s : State) (n : Nat) : (raiseReplace s n).faults.dump = s.faults.dump := by
  unfold raiseReplace
  dsimp only
  split
  · rfl
  · rw [(pushEvent_keeps ..).2.1]

theorem dump_flashError (s : State) (addr : Nat) : (flashError s addr).faults.dump = s.faults.dump :=
  (dump_raiseReplace ..).trans (dump_raiseReport ..)

theorem dumpFlashWriteDone_fails {s : State} (hdump : s.faults.dump = 1) (hread : s.faults.dumpRead ≤ s.clock) (hawake : awake s = true)
    (hworn : wornIn s.flash (dumpAddr s.flash.dumpNext) 0x40000 ≠ none) :
    Runs .dumpFlashWriteDone s fun t => t.faults.dump = 1 ∧ CountedFault 0xE 0 s t ∧ t.flash = s.flash := by
  have hrun : dumpFlashWriteDone s = writeDump s := if_pos (dumpState_read hdump hread)
  refine ⟨_, congrArg Host.Outcome.next hrun, ?_⟩
  obtain ⟨a, ha⟩ := Option.ne_none_iff_exists'.mp hworn
  obtain ⟨hbeside, -, hfault⟩ := flashError_keeps hawake a
  have hwrite : writeDump s = flashError s a := by
    unfold writeDump
    rw [ha]
  rw [hwrite]
  exact ⟨(dump_flashError s a).trans hdump, hfault, congrArg (fun x => x.2.1) hbeside⟩

theorem dumpFlashWriteDone_early {s : State} (hread : s.clock < s.faults.dumpRead) (hdump : s.faults.dump = 1) :
    exec .dumpFlashWriteDone s = .next s := by
  have hstate : dumpState s = 1 := by
    rw [dumpState, if_neg (fun h => absurd h.2 (Nat.not_le.mpr hread)), hdump]
  exact congrArg Host.Outcome.next (if_neg (by rw [hstate]; decide))

/-- Settles O55: the collector, clause by clause in the order of the statement. -/
theorem faultsAndDumps : Obligations.FaultsAndDumps := by
  unfold Obligations.FaultsAndDumps
  exact ⟨fun m r s h hsev hlatch => faultIntake_latches h hsev hlatch,
    fun m l r s h hsev hlatch hmerges => faultIntake_merges h hsev hlatch hmerges,
    fun m l r s h hsev hlatch hmerges => faultIntake_overflows h hsev hlatch hmerges,
    fun m r s h hsev => faultIntake_below h hsev,
    fun s hintake hheld => faultIntake_empty hintake hheld,
    fun w v s hlatch hseq => faultClear_works w v s hlatch hseq,
    fun w v s hnot htaken => faultClear_not w v s hnot htaken,
    fun w k sev s n hn hlt hcls hbase hroom => faultForce_works w k sev s n hn hlt hcls hbase hroom,
    fun cls i s n hn => countSlotBoundary_works cls i s n hn,
    fun w v s n hn => countWindowWrite_works w v s n hn,
    fun s hawake hsecond => logRateSecond_works hawake hsecond,
    fun s hsecond => congrArg Host.Outcome.next (if_pos (Or.inl hsecond)),
    fun w s hdump => dumpRequest_starts w s hdump,
    fun w s hdump => dumpRequest_skips w s hdump,
    fun u any s hdump hread hmem hnew => dumpUnitTimeout_marks u any s hdump hread hmem hnew,
    fun u any s h1 _ => dumpUnitTimeout_not u any s h1,
    fun s hdump hread hworn => dumpFlashWriteDone_writes hdump hread hworn,
    fun s hdump hread hawake hworn => dumpFlashWriteDone_fails hdump hread hawake hworn,
    fun s hdump hread => dumpFlashWriteDone_early hread hdump⟩

end Sys2Proof.Machine
end

section
/-! Running self-test and repair (R418 to R427): the slices of the lanes, of the store and of the Sextant units, and commits. -/

namespace Sys2Proof.Machine
open Sys2Proof

/-! ## Lane slices (R418 to R421) -/

/-- A lane management command of a port that has none outstanding goes out at once. -/
theorem startLmc_idle {s : State} {p : Nat} (h : (port s p).lmc = none) (cmd : Nat) (arg : BitVec 8) :
    startLmc s p cmd arg = emit (setPort s p { port s p with lmc := some (ownLmc cmd arg s.clock) }) (.lane p cmd arg 0) := by
  unfold startLmc
  dsimp only
  rw [h]
  rfl

/-- A slice begun, but for what goes out. -/
def sliceBegun (s : State) (p k : Nat) : State :=
  setTest (updPort (bump s 0x8000 5) p fun x => { endSlice x with slice := some (sliceLane s p k, s.clock), sliceNo := some k })
    fun t => { t with times := tput t.times (sliceLane s p k) (stamp s) }

theorem startSlice_effect {s t : State} {p k : Nat} (hidle : (port s p).lmc = none) (ht : t = startSlice s p k) :
    (port t p).slice = some (sliceLane s p k, s.clock) ∧ (port t p).sliceNo = some k ∧ Counted 0x8000 5 0 s t ∧
      (k % 9 ≠ 8 → Output.lane p 1 (lane s (sliceLane s p k)).peerLane 0 ∈ t.out) ∧
      t = { s with ports := t.ports, regs := t.regs, test := t.test, out := t.out } := by
  have hbegun : port (sliceBegun s p k) p =
      { endSlice (port s p) with slice := some (sliceLane s p k, s.clock), sliceNo := some k } := by
    rw [sliceBegun, port_setTest, port_updPort]
    rfl
  by_cases hspare : k % 9 = 8
  · have hrun : t = sliceBegun s p k := ht.trans (if_pos hspare)
    rw [hrun, hbegun]
    exact ⟨rfl, rfl, rfl, fun h => absurd hspare h, rfl⟩
  · have hrun : t = startLmc (sliceBegun s p k) p 1 (lane s (sliceLane s p k)).peerLane := ht.trans (if_neg hspare)
    rw [startLmc_idle (by rw [hbegun]; exact hidle)] at hrun
    have hport : port t p = { port (sliceBegun s p k) p with
        lmc := some (ownLmc 1 (lane s (sliceLane s p k)).peerLane s.clock) } := by
      rw [hrun]
      exact port_setPort_self ..
    refine ⟨by rw [hport, hbegun], by rw [hport, hbegun], by rw [hrun]; rfl, fun _ => ?_, by rw [hrun]; rfl⟩
    rw [hrun]
    exact List.mem_append_right _ (List.mem_singleton_self _)

theorem lmc_none_of_sliceRuns {s : State} {p k : Nat} (h : sliceRuns s p k = true) : (port s p).lmc = none := by
  unfold sliceRuns at h
  simp only [Bool.and_eq_true, Option.isNone_iff_eq_none] at h
  exact h.1.1.2

theorem laneSlice_due {s : State} {p k : Nat} {b : BitVec 256} (hadmitted : (port s p).admitted = some b)
    (hdue : sliceDue s b = some k) (hturn : inTurn s 6 (k * slicePeriod s + sliceShift s b) = true)
    (hnew : (port s p).sliceNo ≠ some k) : laneSlice p s =
      if sliceRuns s p k then startSlice s p k else updPort (bump s 0x8000 7) p fun x => { x with sliceNo := some k } := by
  unfold laneSlice
  simp only [hadmitted, hdue]
  exact if_neg (by simp [hturn, hnew])

theorem laneSlice_runs (p : Fin 12) (b : BitVec 256) (k : Nat) (s : State) (hadmitted : (port s p).admitted = some b)
    (hdue : sliceDue s b = some k) (hturn : inTurn s 6 (k * slicePeriod s + sliceShift s b) = true)
    (hnew : (port s p).sliceNo ≠ some k) (hruns : sliceRuns s p k = true) :
    Runs (.laneSlice p) s fun t => (port t p).slice = some (sliceLane s p k, s.clock) ∧ (port t p).sliceNo = some k ∧
      Counted 0x8000 5 0 s t ∧ (k % 9 ≠ 8 → Output.lane p 1 (lane s (sliceLane s p k)).peerLane 0 ∈ t.out) ∧
      t = { s with ports := t.ports, regs := t.regs, test := t.test, out := t.out } :=
  ⟨_, rfl, startSlice_effect (lmc_none_of_sliceRuns hruns) ((laneSlice_due hadmitted hdue hturn hnew).trans (if_pos hruns))⟩

theorem laneSlice_skips (p : Fin 12) (b : BitVec 256) (k : Nat) (s : State) (hadmitted : (port s p).admitted = some b)
    (hdue : sliceDue s b = some k) (hturn : inTurn s 6 (k * slicePeriod s + sliceShift s b) = true)
    (hnew : (port s p).sliceNo ≠ some k) (hruns : sliceRuns s p k = false) :
    exec (.laneSlice p) s = .next (setPort (bump s 0x8000 7) p { port s p with sliceNo := some k }) :=
  congrArg Host.Outcome.next ((laneSlice_due hadmitted hdue hturn hnew).trans (if_neg (by simp [hruns])))

/-- The end of a check of the slice that a port runs. -/
theorem sliceCheckEnd_due {l : Nat} {c : SliceCheck} {p bits errors : Nat} {since : Mt} {s : State}
    (hport : octetPort s (l / 9) = some p) (hslice : (port s p).slice = some (l, since)) (hfreed : freedHere s l = true)
    (hdue : since + checkEnd s c ≤ s.clock) :
    sliceCheckEnd l c bits errors s = sliceCheck s p l c (ratioOk errors bits (reg s 0x8000 4)) := by
  unfold sliceCheckEnd
  simp only [hport, hslice]
  exact if_pos ⟨trivial, hfreed, decide_eq_true hdue⟩

theorem finishSlice_passes {s t : State} {p l : Nat} (href : (port s p).sliceRef = some true) (htx : (port s p).sliceTx ≠ some false)
    (hidle : (port s p).lmc = none) (ht : t = finishSlice s p l true) :
    (port t p).slice = none ∧ tget t.test.results l = some 1 ∧
      (l % 9 ≠ 8 → Output.lane p 2 (lane s l).peerLane 0 ∈ t.out) ∧ t = { s with ports := t.ports, test := t.test, out := t.out } := by
  have htx' : (port s p).sliceTx.getD true = true := by
    cases h : (port s p).sliceTx with
    | none => rfl
    | some b =>
      cases b with
      | true => rfl
      | false => exact absurd h htx
  set u := sliceResult (updPort s p endSlice) l 1 with hu
  have hrun : t = if l % 9 != 8 then startLmc u p 2 (lane s l).peerLane else u := by
    rw [ht, finishSlice]
    simp only [href, htx', Option.getD_some, sliceOutcome]
    rfl
  have hport : port u p = endSlice (port s p) := port_updPort ..
  by_cases hspare : l % 9 = 8
  · rw [if_neg (by simp [hspare])] at hrun
    rw [hrun, hport]
    exact ⟨rfl, tget_tput_self .., fun h => absurd hspare h, rfl⟩
  · rw [if_pos (by simp [hspare]), startLmc_idle (by rw [hport]; exact hidle)] at hrun
    have hafter : port t p = { port u p with lmc := some (ownLmc 2 (lane s l).peerLane s.clock) } := by
      rw [hrun]
      exact port_setPort_self ..
    refine ⟨by rw [hafter, hport]; rfl, ?_, fun _ => ?_, by rw [hrun]; rfl⟩
    · rw [hrun]
      exact tget_tput_self ..
    · rw [hrun]
      exact List.mem_append_right _ (List.mem_singleton_self _)

/-- What a raised or cleared replace request changes. -/
structure Replaced (s t : State) : Prop where
  only : t = { s with regs := t.regs, faults := t.faults, pins := t.pins, mgmt := t.mgmt, out := t.out }
  regs : RegsKept s t

theorem replaced_pushEvent {s u : State} (hu : u = { s with faults := u.faults, pins := u.pins }) (kind time : Nat) (body : Bytes) :
    Replaced s (pushEvent u kind time body) := by
  have htold := told_pushEvent u kind time body
  have hregs : u.regs = s.regs := by rw [hu]
  refine ⟨?_, fun i j k h => (htold.regs i j k h).trans (by rw [regAt, hregs]; rfl)⟩
  rw [htold.only, hu]

theorem replaced_raiseReplace (s : State) (n : Nat) : Replaced s (raiseReplace s n) := by
  unfold raiseReplace
  dsimp only
  split
  · exact ⟨rfl, fun _ _ _ _ => rfl⟩
  · exact replaced_pushEvent rfl ..

theorem replaced_clearReplace (s : State) (n : Nat) : Replaced s (clearReplace s n) := by
  unfold clearReplace
  dsimp only
  split
  · exact ⟨rfl, fun _ _ _ _ => rfl⟩
  · exact replaced_pushEvent rfl ..

/-! ## Records of faults (R427) -/

theorem recordBytes_fields (s : State) {kind target : Nat} (value : Nat) (hkind : kind < 256) (htarget : target < 65536) :
    byteAt (recordBytes s kind target value) 0 = kind ∧ byteAt (recordBytes s kind target value) 1 = 0 ∧
      leAt (recordBytes s kind target value) 2 2 = target :=
  ⟨Nat.mod_eq_of_lt hkind, rfl, (leNat_leBytes 2 target htarget : leNat (leBytes 2 target) = target)⟩

theorem addRecord_last (s : State) (kind target value : Nat) :
    (addRecord s kind target value).test.records.getLast? = some (recordBytes s kind target value) :=
  List.getLast?_concat ..

/-- A record changes the list of records, and waits for the journal. -/
theorem addRecord_only (s : State) (kind target value : Nat) :
    addRecord s kind target value = { s with
      test := { s.test with records := (addRecord s kind target value).test.records },
      mgmt := (addRecord s kind target value).mgmt } := rfl

theorem finishSlice_fails {s t : State} {p l : Nat} (hl : l < 65536) (hawake : awake s = true) (htx : (port s p).sliceTx ≠ some false)
    (ht : t = finishSlice s p l false) : (port t p).slice = none ∧ tget t.test.results l = some 3 ∧
      CountedFault 0xD 0 s t ∧ t.faults.reasons = s.faults.reasons ||| 8#32 ∧
      (∃ r, t.test.records.getLast? = some r ∧ byteAt r 0 = 1 ∧ byteAt r 1 = 0 ∧ leAt r 2 2 = l) ∧ t.mem = s.mem ∧ t.ctxs = s.ctxs := by
  have htx' : (port s p).sliceTx.getD true = true := by
    cases h : (port s p).sliceTx with
    | none => rfl
    | some b =>
      cases b with
      | true => rfl
      | false => exact absurd h htx
  have hrun : t = setTest (sliceResult (deviceFault (updPort s p endSlice) l 1) l 3) fun x => { x with
      found := tput x.found l (tgetD x.found l 0 + 1) } := by
    rw [ht, finishSlice]
    simp only [htx', sliceOutcome]
    cases (port s p).sliceRef.getD true <;> rfl
  have hreported := reported_report (updPort s p endSlice) 0xD 0 1 l
  have hfault := countedFault_report (s := updPort s p endSlice) hawake 0xD 0 1 l
  have hreasons : (report (updPort s p endSlice) 0xD 0 1 l).faults.reasons = s.faults.reasons := reasons_raiseReport ..
  unfold deviceFault at hrun
  generalize report (updPort s p endSlice) 0xD 0 1 l = u at *
  obtain ⟨-, hraised, -⟩ := raiseReplace_keeps u 3
  have hreplaced := replaced_raiseReplace u 3
  generalize raiseReplace u 3 = v at *
  obtain ⟨hbyte, hzero, hlane⟩ := recordBytes_fields v 0 (show 1 < 256 by decide) hl
  have hlast := addRecord_last v 1 l 0
  have honly := addRecord_only v 1 l 0
  generalize addRecord v 1 l 0 = x at *
  have hports : t.ports = (updPort s p endSlice).ports := by
    rw [hrun, honly, hreplaced.only, hreported]
    rfl
  refine ⟨?_, ?_, ?_, ?_, ⟨_, by rw [hrun]; exact hlast, hbyte, hzero, hlane⟩, ?_, ?_⟩
  · have hport : port t p = endSlice (port s p) := by
      rw [port, hports]
      exact port_updPort ..
    rw [hport]
    rfl
  · rw [hrun]
    exact tget_tput_self ..
  · have hregs : t.regs = v.regs := by rw [hrun, honly]; rfl
    refine Eq.trans ?_ hfault
    rw [regAt, hregs]
    exact hreplaced.regs _ _ _ (by decide)
  · rw [hrun, honly]
    exact hraised.trans (congrArg (· ||| 8#32) hreasons)
  · rw [hrun, honly, hreplaced.only, hreported]
    rfl
  · rw [hrun, honly, hreplaced.only, hreported]
    rfl

end Sys2Proof.Machine
end

section
/-! Running self-test of the store and of the Sextant units, and commits (R423 to R427). -/

namespace Sys2Proof.Machine
open Sys2Proof

/-! ## The store bank map (R423) -/

theorem bank_setBank2_self (s : State) (b : Nat) (x : Bank) : bank (setBank2 s b x) b = x := tgetD_tput_self ..

theorem bank_setBank2_ne (s : State) {b c : Nat} (x : Bank) (h : b ≠ c) : bank (setBank2 s b x) c = bank s c :=
  tgetD_tput_ne _ _ _ _ _ h

theorem byteAt_overwrite_self {l : Bytes} {n : Nat} (v : Byte) (h : n < l.length) : byteAt (overwrite l n [v]) n = v.toNat := by
  unfold byteAt overwrite
  rw [List.append_assoc, List.getElem?_append_right (by simp), List.length_take, min_eq_left h.le, Nat.sub_self]
  rfl

theorem byteAt_overwrite_ne {l : Bytes} {n m : Nat} (v : Byte) (h : n < l.length) (hm : m ≠ n) :
    byteAt (overwrite l n [v]) m = byteAt l m := by
  have htake : (l.take n).length = n := by simp [h.le]
  unfold byteAt overwrite
  congr 2
  rcases Nat.lt_or_gt_of_ne hm with hlt | hgt
  · rw [List.append_assoc, List.getElem?_append_left (by omega), List.getElem?_take_of_lt hlt]
  · rw [List.getElem?_append_right (by simp [htake]; omega), List.getElem?_drop]
    congr 1
    simp only [List.length_append, htake, List.length_singleton]
    omega

/-- A bank mapped elsewhere. -/
theorem servedBy_mapBank {s : State} {n b : Nat} (hlen : (blob s 0x4630 4).length = 128) (hn : n < 128) (hb : b < 256) :
    servedBy (mapBank s n b) n = b ∧ ∀ m, m ≠ n → servedBy (mapBank s n b) m = servedBy s m := by
  have hblob : blob (mapBank s n b) 0x4630 4 = overwrite (blob s 0x4630 4) n [BitVec.ofNat 8 b] :=
    congrArg (fun x => x.getD (blobDefault 0x4630 4)) (tget_tput_self ..)
  unfold servedBy
  rw [hblob]
  refine ⟨?_, fun m hm => byteAt_overwrite_ne _ (by omega) hm⟩
  rw [byteAt_overwrite_self _ (by omega)]
  exact Nat.mod_eq_of_lt hb

theorem bank_of_banks {s t : State} (h : t.banks = s.banks) (b : Nat) : bank t b = bank s b := by
  unfold bank
  rw [h]

theorem servedBy_of_blobs {s t : State} (h : t.blobs = s.blobs) (m : Nat) : servedBy t m = servedBy s m := by
  unfold servedBy blob blobAt
  rw [h]

/-! ## Store slices (R423) -/

theorem nextStoreBank_some {s : State} {n : Nat} (h : nextStoreBank s = some n) : n < 128 ∧ inService s (servedBy s n) = true := by
  unfold nextStoreBank at h
  obtain ⟨i, -, rfl⟩ := List.mem_map.mp (List.mem_of_find?_eq_some h)
  exact ⟨Nat.mod_lt _ (by decide), by simpa using List.find?_some h⟩

theorem freeSpares_head {s : State} {sp : Nat} {rest : List Nat} (h : freeSpares s = sp :: rest) : sp < 136 ∧ (bank s sp).state = 1 := by
  have hmem : sp ∈ freeSpares s := by simp [h]
  unfold freeSpares at hmem
  simpa using hmem

theorem storeSlice_starts {s : State} {n sp : Nat} {rest : List Nat} (hturn : inTurn s 6 (storeSliceDue s) = true)
    (hnone : s.test.store = none) (hup : s.mgmt.restarting = false) (hbank : nextStoreBank s = some n)
    (hspare : freeSpares s = sp :: rest) (hlen : (blob s 0x4630 4).length = 128) :
    Runs .storeSlice s fun t => t.test.store = some (n, servedBy s n, sp, s.clock) ∧ servedBy t n = sp ∧
      (bank t (servedBy s n)).state = 2 ∧ (bank t sp).state = 0 ∧ (∀ m, m ≠ n → servedBy t m = servedBy s m) ∧
      t.test.storeAt = s.mer.count ∧ t = { s with banks := t.banks, blobs := t.blobs, test := t.test } := by
  obtain ⟨hn, hserves⟩ := nextStoreBank_some hbank
  obtain ⟨hsp, hfree⟩ := freeSpares_head hspare
  have hne : sp ≠ servedBy s n := by
    intro h
    rw [← h, inService, hfree] at hserves
    cases hserves
  set u := setBank2 (setBank2 (setTest s fun t => { t with storeAt := s.mer.count }) (servedBy s n) (bankIn 2 (some sp) s.clock)) sp
    (bankIn 0 none s.clock) with hu
  have hrun : storeSlice s = setTest (mapBank u n sp) fun t => { t with
      store := some (n, servedBy s n, sp, s.clock), nextBank := (n + 1) % 128 } := by
    unfold storeSlice
    rw [if_neg (by simp [hturn, hnone]), hbank, hup, hspare]
    rfl
  obtain ⟨hself, hothers⟩ := servedBy_mapBank (s := u) hlen hn (show sp < 256 by omega)
  have hfrom : bank u (servedBy s n) = bankIn 2 (some sp) s.clock := (bank_setBank2_ne _ _ hne).trans (bank_setBank2_self ..)
  have hto : bank u sp = bankIn 0 none s.clock := bank_setBank2_self ..
  have hkept : u = { s with banks := u.banks, test := u.test } := rfl
  have hmap : mapBank u n sp = { u with blobs := (mapBank u n sp).blobs } := rfl
  have hrest : ∀ m, servedBy u m = servedBy s m := servedBy_of_blobs rfl
  have hat : u.test.storeAt = s.mer.count := rfl
  clear_value u
  refine ⟨_, congrArg Host.Outcome.next hrun, rfl, (servedBy_of_blobs rfl n).trans hself, ?_, ?_,
    fun m hm => (servedBy_of_blobs rfl m).trans ((hothers m hm).trans (hrest m)), hat, ?_⟩
  · exact congrArg Bank.state ((bank_of_banks (s := u) rfl _).trans hfrom)
  · exact congrArg Bank.state ((bank_of_banks (s := u) rfl _).trans hto)
  · rw [hmap, hkept]
    rfl

theorem storeSlice_skips {s : State} (hturn : inTurn s 6 (storeSliceDue s) = true) (hnone : s.test.store = none)
    (hnot : freeSpares s = [] ∨ s.mgmt.restarting = true) :
    Runs .storeSlice s fun t => Counted 0x8000 7 0 s t ∧ t.test = { s.test with storeAt := s.mer.count } ∧
      t = { s with regs := t.regs, test := t.test } := by
  have hspares : (if s.mgmt.restarting then [] else freeSpares s) = [] := by
    rcases hnot with h | h
    · rw [h, ite_self]
    · rw [h]
      rfl
  have hrun : storeSlice s = bump (setTest s fun t => { t with storeAt := s.mer.count }) 0x8000 7 := by
    unfold storeSlice
    rw [if_neg (by simp [hturn, hnone]), hspares]
    cases nextStoreBank s <;> rfl
  exact ⟨_, congrArg Host.Outcome.next hrun, rfl, rfl, rfl⟩

theorem retentionWaitEnd_due {s : State} {n b sp : Nat} {since : Mt} (hstore : s.test.store = some (n, b, sp, since))
    (hdue : since + 4409600 ≤ s.clock) (pass : Bool) : retentionWaitEnd pass s =
      spareWaiting (if pass then storePassed (setTest s fun x => { x with store := none }) n b sp
        else storeFailed (setTest s fun x => { x with store := none }) n b sp) := by
  unfold retentionWaitEnd
  rw [hstore]
  exact if_pos (decide_eq_true hdue)

theorem spareWaiting_none {s : State} (h : s.test.waiting = []) : spareWaiting s = s := by
  unfold spareWaiting
  rw [h]
  show { s with test := { s.test with waiting := [] } } = s
  rw [← h]

theorem retentionWaitEnd_passes {s : State} {n b sp : Nat} {since : Mt} (hstore : s.test.store = some (n, b, sp, since))
    (hdue : since + 4409600 ≤ s.clock) (hwaiting : s.test.waiting = []) (hb : b < 136) (hne : b ≠ sp) (hn : n < 128)
    (hlen : (blob s 0x4630 4).length = 128) :
    Runs (.retentionWaitEnd true) s fun t => t.test.store = none ∧ servedBy t n = b ∧ (bank t b).state = 0 ∧
      (bank t sp).state = 1 ∧ (∀ m, m ≠ n → servedBy t m = servedBy s m) ∧
      t = { s with banks := t.banks, blobs := t.blobs, test := t.test } := by
  set u := setBank2 (setBank2 (setTest s fun x => { x with store := none }) b (bankIn 0 none s.clock)) sp (bankIn 1 none s.clock) with hu
  have hrun : retentionWaitEnd true s = mapBank u n b := (retentionWaitEnd_due hstore hdue true).trans (spareWaiting_none hwaiting)
  obtain ⟨hself, hothers⟩ := servedBy_mapBank (s := u) hlen hn (show b < 256 by omega)
  have hfrom : bank u b = bankIn 0 none s.clock := (bank_setBank2_ne _ _ (Ne.symm hne)).trans (bank_setBank2_self ..)
  have hto : bank u sp = bankIn 1 none s.clock := bank_setBank2_self ..
  have hkept : u = { s with banks := u.banks, test := { s.test with store := none } } := rfl
  have hmap : mapBank u n b = { u with blobs := (mapBank u n b).blobs } := rfl
  have hrest : ∀ m, servedBy u m = servedBy s m := servedBy_of_blobs rfl
  clear_value u
  refine ⟨_, congrArg Host.Outcome.next hrun, ?_, hself, ?_, ?_, fun m hm => (hothers m hm).trans (hrest m), ?_⟩
  · rw [hmap, hkept]
  · exact congrArg Bank.state ((bank_of_banks (s := u) rfl _).trans hfrom)
  · exact congrArg Bank.state ((bank_of_banks (s := u) rfl _).trans hto)
  · rw [hmap, hkept]

/-- A report counts at its own source. -/
theorem regAt_report_source {s : State} {cls idx cls' idx' kind addr : Nat} (h : sourceNo cls idx ≠ sourceNo cls' idx') :
    regAt (report s cls' idx' kind addr) 0x7100 2 (sourceNo cls idx) = regAt s 0x7100 2 (sourceNo cls idx) := by
  generalize sourceNo cls idx = n at *
  unfold report
  generalize addr % 2 ^ 32 = a
  unfold raiseReport
  split
  · exact (regAt_toIntake_ne (by unfold regKey; omega)).trans (regAt_bumpBy_ne _ _ _ _ _ _ _ _ (by unfold regKey; dsimp only; omega))
  · rfl

/-- A report, where the last free spare is gone, of that too. -/
theorem sparesReported_keeps {s t : State} {b : Nat} (ht : t = if freeSpares s = [] then raiseReplace (report s 6 b 5 0) 2 else s) :
    Replaced s t ∨ ∃ u, Reported s u ∧ regAt u 0x7100 2 (sourceNo 0xD 0) = regAt s 0x7100 2 (sourceNo 0xD 0) ∧ Replaced u t := by
  split at ht
  · refine .inr ⟨report s 6 b 5 0, reported_report .., regAt_report_source ?_, ?_⟩
    · unfold sourceNo
      omega
    · rw [ht]
      exact replaced_raiseReplace ..
  · rw [ht]
    exact .inl ⟨rfl, fun _ _ _ _ => rfl⟩

/-- What a failed store slice leaves. -/
theorem storeFailed_effect {s t : State} {n b sp : Nat} (hawake : awake s = true) (ht : t = storeFailed s n b sp) :
    t.test = { s.test with records := t.test.records } ∧ (bank t b).state = 3 ∧ CountedFault 0xD 0 s t ∧ t.blobs = s.blobs ∧
      (∃ r, t.test.records.getLast? = some r ∧ byteAt r 0 = 3) ∧ t.mem = s.mem ∧ t.ctxs = s.ctxs := by
  set d := journalBlob (setBank2 s b (bankIn 3 none s.clock)) (regKey 0x4630 4 0) (blob (setBank2 s b (bankIn 3 none s.clock)) 0x4630 4) with hd
  have hlast := addRecord_last d 3 (n + 256 * sp) 0
  have honly := addRecord_only d 3 (n + 256 * sp) 0
  have hkind : byteAt (recordBytes d 3 (n + 256 * sp) 0) 0 = 3 := rfl
  have hbank : bank d b = bankIn 3 none s.clock := bank_setBank2_self ..
  have hkept : d = { s with banks := d.banks, mgmt := d.mgmt } := rfl
  unfold storeFailed at ht
  dsimp only at ht
  rw [← hd] at ht
  generalize addRecord d 3 (n + 256 * sp) 0 = x at *
  clear_value d
  have hawake' : awake x = true := by
    rw [honly, hkept]
    exact hawake
  have hreported := reported_report x 0xD 0 3 b
  have hfault := countedFault_report hawake' 0xD 0 3 b
  generalize report x 0xD 0 3 b = u at *
  obtain ⟨only, hreg⟩ : t = { u with regs := t.regs, faults := t.faults, pins := t.pins, mgmt := t.mgmt, out := t.out } ∧
      regAt t 0x7100 2 (sourceNo 0xD 0) = regAt u 0x7100 2 (sourceNo 0xD 0) := by
    rcases sparesReported_keeps ht with hreplaced | ⟨v, hv, hcount, hreplaced⟩
    · exact ⟨hreplaced.only, hreplaced.regs _ _ _ (by decide)⟩
    · refine ⟨?_, (hreplaced.regs _ _ _ (by decide)).trans hcount⟩
      rw [hreplaced.only, hv]
  have htest : t.test = x.test := by
    rw [only, hreported]
  refine ⟨?_, ?_, ?_, ?_, ⟨_, by rw [htest]; exact hlast, hkind⟩, ?_, ?_⟩
  · rw [htest, honly, hkept]
  · refine congrArg Bank.state ((bank_of_banks ?_ b).trans hbank)
    rw [only, hreported, honly]
  · refine hreg.trans (hfault.trans (regAt_bumpAt_congr ?_))
    rw [honly, hkept]
    rfl
  · rw [only, hreported, honly, hkept]
  · rw [only, hreported, honly, hkept]
  · rw [only, hreported, honly, hkept]

theorem retentionWaitEnd_fails {s : State} {n b sp : Nat} {since : Mt} (hstore : s.test.store = some (n, b, sp, since))
    (hdue : since + 4409600 ≤ s.clock) (hwaiting : s.test.waiting = []) (hawake : awake s = true) :
    Runs (.retentionWaitEnd false) s fun t => t.test.store = none ∧ (bank t b).state = 3 ∧ CountedFault 0xD 0 s t ∧
      (∀ m, servedBy t m = servedBy s m) ∧ (∃ r, t.test.records.getLast? = some r ∧ byteAt r 0 = 3) ∧ t.mem = s.mem ∧
      t.ctxs = s.ctxs := by
  have hrun := retentionWaitEnd_due hstore hdue false
  obtain ⟨htest, hbank, hfault, hblobs, hrecord, hmem, hctxs⟩ :=
    storeFailed_effect (s := setTest s fun x => { x with store := none }) (n := n) (b := b) (sp := sp) hawake rfl
  have hnone : spareWaiting (storeFailed (setTest s fun x => { x with store := none }) n b sp) =
      storeFailed (setTest s fun x => { x with store := none }) n b sp :=
    spareWaiting_none ((congrArg SelfTest.waiting htest).trans hwaiting)
  refine ⟨_, congrArg Host.Outcome.next (hrun.trans hnone), ?_⟩
  generalize storeFailed (setTest s fun x => { x with store := none }) n b sp = t at *
  exact ⟨(congrArg SelfTest.store htest).trans rfl, hbank, hfault, servedBy_of_blobs hblobs, hrecord, hmem, hctxs⟩

/-! ## The units' lines and maxima -/

/-- A unit drained of its open lines: nothing else of it changes, and no other unit. -/
structure LinesClosed (u : Nat) (s t : State) : Prop where
  only : t = { s with units := t.units, mem := t.mem }
  self : sext t u = { sext s u with lines := (sext t u).lines }
  others : ∀ k, k ≠ u → sext t k = sext s k
  mem : (∀ l ∈ (sext s u).lines, l.dirty = false) → t.mem = s.mem

theorem linesClosed_closeLine (u line : Nat) (s : State) : LinesClosed u s (closeLine s u line) ∧
    (sext (closeLine s u line) u).lines = (sext s u).lines.filter fun k => k.line != line := by
  unfold closeLine lineAt
  cases hfind : (sext s u).lines.find? fun l => l.line == line with
  | none =>
    refine ⟨⟨rfl, rfl, fun _ _ => rfl, fun _ => rfl⟩, (List.filter_eq_self.mpr fun k hk => ?_).symm⟩
    have := List.find?_eq_none.mp hfind k hk
    simpa using this
  | some l =>
    set w := updSext s u fun x => { x with lines := x.lines.filter fun k => k.line != line } with hw
    have hself : sext w u = { sext s u with lines := (sext s u).lines.filter fun k => k.line != line } := sext_setSext_self ..
    have hothers : ∀ k, k ≠ u → sext w k = sext s k := fun k hk => sext_setSext_ne _ _ _ _ (Ne.symm hk)
    have hkept : w = { s with units := w.units } := rfl
    have hmark : sext w u = { sext s u with lines := (sext w u).lines } := by rw [hself]
    have hlines : (sext w u).lines = (sext s u).lines.filter fun k => k.line != line := congrArg SextUnit.lines hself
    clear_value w
    dsimp only
    split
    · next hdirty =>
      refine ⟨⟨by rw [hkept], hmark, hothers, fun hclean => ?_⟩, hlines⟩
      rw [hclean l (List.mem_of_find?_eq_some hfind)] at hdirty
      cases hdirty
    · exact ⟨⟨by rw [hkept], hmark, hothers, fun _ => by rw [hkept]⟩, hlines⟩

theorem linesClosed_closeLines (u : Nat) (s : State) : LinesClosed u s (closeLines s u) ∧ (sext (closeLines s u) u).lines = [] := by
  have hfold : ∀ (l : List Nat) (t : State), LinesClosed u t (l.foldl (fun a k => closeLine a u k) t) ∧
      (sext (l.foldl (fun a k => closeLine a u k) t) u).lines = (sext t u).lines.filter fun k => !l.contains k.line := by
    intro l
    induction l with
    | nil => exact fun t => ⟨⟨rfl, rfl, fun _ _ => rfl, fun _ => rfl⟩, by simp⟩
    | cons k r ih =>
      intro t
      obtain ⟨⟨honly, hself, hothers, hmem⟩, hlines⟩ := linesClosed_closeLine u k t
      obtain ⟨⟨honly', hself', hothers', hmem'⟩, hlines'⟩ := ih (closeLine t u k)
      rw [List.foldl_cons]
      refine ⟨⟨?_, ?_, fun j hj => (hothers' j hj).trans (hothers j hj), fun hclean => ?_⟩, ?_⟩
      · rw [honly', honly]
      · rw [hself', hself]
      · refine (hmem' fun l hl => ?_).trans (hmem hclean)
        rw [hlines] at hl
        exact hclean l (List.mem_of_mem_filter hl)
      · rw [hlines', hlines, List.filter_filter]
        congr 1
        funext j
        by_cases hj : j.line = k <;> simp [hj]
  obtain ⟨hclosed, hlines⟩ := hfold ((sext s u).lines.map fun l => l.line) s
  refine ⟨hclosed, hlines.trans (List.filter_eq_nil_iff.mpr fun l hl => ?_)⟩
  simpa using ⟨l, hl, rfl⟩

/-! ## Sextant slices (R424, R426) -/

/-- A slice that passed leaves its unit in service, with the count of its good runs and its maximum as they come. -/
structure UnitPassed (u : Nat) (s t : State) : Prop where
  only : t = { s with
    units := t.units, regs := t.regs, mgmt := t.mgmt, out := t.out, faults := t.faults, pins := t.pins, test := t.test }
  test : t.test = { s.test with records := t.test.records }
  self : sext t u = { sext s u with goodRun := (sext t u).goodRun }
  others : ∀ k, k ≠ u → sext t k = sext s k

theorem unitPassed_goodRun (u n : Nat) (s : State) : UnitPassed u s (updSext s u fun x => { x with goodRun := n }) := by
  have hself : sext (updSext s u fun x => { x with goodRun := n }) u = { sext s u with goodRun := n } := sext_setSext_self ..
  exact ⟨rfl, rfl, by rw [hself], fun k hk => sext_setSext_ne _ _ _ _ (Ne.symm hk)⟩

theorem sext_of_units {s t : State} (h : t.units = s.units) (u : Nat) : sext t u = sext s u := by
  unfold sext
  rw [h]

/-- What leaves the units alone may follow. -/
theorem UnitPassed.then {u : Nat} {s t v : State} (h : UnitPassed u s t)
    (only : v = { t with regs := v.regs, mgmt := v.mgmt, out := v.out, faults := v.faults, pins := v.pins, test := v.test })
    (test : v.test = { t.test with records := v.test.records }) : UnitPassed u s v := by
  have hunits : v.units = t.units := by rw [only]
  refine ⟨?_, ?_, ?_, fun k hk => (sext_of_units hunits k).trans (h.others k hk)⟩
  · rw [only, h.only]
  · rw [test, h.test]
  · rw [sext_of_units hunits, h.self]

theorem unitPassed_raiseTrim (s : State) (u : Nat) : UnitPassed u s (raiseTrim s u) := by
  have hset : UnitPassed u s (setTrimmed s u (trimmedMax s u + 25)) := (unitPassed_goodRun u 0 s).then rfl rfl
  have htold : UnitPassed u s (tellUnit (setTrimmed s u (trimmedMax s u + 25)) u) := by
    unfold tellUnit
    split
    · exact hset.then rfl rfl
    · exact hset
  unfold raiseTrim
  dsimp only
  generalize tellUnit (setTrimmed s u (trimmedMax s u + 25)) u = v at *
  have hrecord : UnitPassed u s (addRecord v 4 u (trimmedMax s u + 25)) := htold.then rfl rfl
  generalize addRecord v 4 u (trimmedMax s u + 25) = w at *
  split
  · exact hrecord
  · have hcleared := replaced_clearReplace w 1
    generalize clearReplace w 1 = x at *
    have htest : x.test = w.test := by rw [hcleared.only]
    refine hrecord.then ?_ (by rw [htest])
    rw [htest]
    exact hcleared.only

theorem unitPassed_trimRecovery (s : State) (u slack : Nat) : UnitPassed u s (trimRecovery s u slack) := by
  have hcases : ∀ (c : Prop) [Decidable c] (run : Nat), UnitPassed u s (if c then updSext s u fun x => { x with goodRun := 0 }
      else if 16 ≤ run then raiseTrim s u else updSext s u fun x => { x with goodRun := run }) := by
    intro c _ run
    split
    · exact unitPassed_goodRun ..
    · split
      · exact unitPassed_raiseTrim ..
      · exact unitPassed_goodRun ..
  exact hcases _ _

theorem nextTestUnit_some {s : State} {u : Nat} (h : nextTestUnit s = some u) : u < 16 ∧ (sext s u).inService = true := by
  unfold nextTestUnit at h
  obtain ⟨i, -, rfl⟩ := List.mem_map.mp (List.mem_of_find?_eq_some h)
  exact ⟨Nat.mod_lt _ (by decide), by simpa using List.find?_some h⟩

theorem running_of_inTurn {s : State} {cls t : Nat} (h : inTurn s cls t = true) : s.phase = .running := by
  simp only [inTurn, timeCome, timed, Bool.and_eq_true, beq_iff_eq] at h
  exact h.1.1.2

/-- The unit of a slice drained, and the next slice's noted. -/
def unitDrained (s : State) (u : Nat) : State :=
  closeLines (setTest s fun t => { t with sextAt := s.mer.count, nextUnit := (u + 1) % 16 }) u

theorem sextantSlice_due {s : State} {u : Nat} (hturn : inTurn s 6 (sextSliceDue s) = true) (hmaster : isMaster s = true)
    (hup : s.mgmt.restarting = false) (hunit : nextTestUnit s = some u) (a b : Bool) (slack : Nat) :
    sextantSlice a b slack s = if a ∨ b then trimRecovery (unitDrained s u) u slack
      else outOfService (report (unitDrained s u) 0xD 0 4 u) u := by
  unfold sextantSlice
  rw [if_neg (by simp [hturn, hmaster]), hunit]
  exact if_neg (by simp [hup])

theorem sextantSlice_passes {s : State} {u slack : Nat} {a b : Bool} (hturn : inTurn s 6 (sextSliceDue s) = true)
    (hmaster : isMaster s = true) (hup : s.mgmt.restarting = false) (hunit : nextTestUnit s = some u) (hpass : a = true ∨ b = true) :
    Runs (.sextantSlice a b slack) s fun t => t.test.sextAt = s.mer.count ∧ t.test.nextUnit = (u + 1) % 16 ∧
      (sext t u).inService = true ∧ (sext t u).lines = [] ∧ (∀ k, k ≠ u → sext t k = sext s k) ∧
      ((∀ l ∈ (sext s u).lines, l.dirty = false) → t.mem = s.mem) ∧ t.ctxs = s.ctxs := by
  obtain ⟨-, hservice⟩ := nextTestUnit_some hunit
  obtain ⟨hclosed, hlines⟩ := linesClosed_closeLines u (setTest s fun t => { t with sextAt := s.mer.count, nextUnit := (u + 1) % 16 })
  have hpassed := unitPassed_trimRecovery (unitDrained s u) u slack
  refine ⟨_, congrArg Host.Outcome.next ((sextantSlice_due hturn hmaster hup hunit a b slack).trans (if_pos hpass)), ?_⟩
  unfold unitDrained at *
  generalize closeLines (setTest s fun t => { t with sextAt := s.mer.count, nextUnit := (u + 1) % 16 }) u = d at *
  generalize trimRecovery d u slack = t at *
  have htest : d.test = { s.test with sextAt := s.mer.count, nextUnit := (u + 1) % 16 } := by rw [hclosed.only]; rfl
  refine ⟨?_, ?_, ?_, ?_, fun k hk => (hpassed.others k hk).trans (hclosed.others k hk), fun hclean => ?_, ?_⟩
  · rw [hpassed.test, htest]
  · rw [hpassed.test, htest]
  · rw [hpassed.self, hclosed.self]
    exact hservice
  · rw [hpassed.self]
    exact hlines
  · rw [hpassed.only]
    exact hclosed.mem hclean
  · rw [hpassed.only, hclosed.only]
    rfl

/-- A unit out of service that had nothing to do: no other unit changes, nor memory. -/
structure UnitLeft (u : Nat) (s t : State) : Prop where
  only : t = { s with units := t.units, regs := t.regs, out := t.out }
  others : ∀ k, k ≠ u → sext t k = sext s k
  regs : ∀ n, regAt t 0x7100 2 n = regAt s 0x7100 2 n

theorem UnitLeft.trans {u : Nat} {s t v : State} (h : UnitLeft u s t) (k : UnitLeft u t v) : UnitLeft u s v :=
  ⟨by rw [k.only, h.only], fun j hj => (k.others j hj).trans (h.others j hj), fun n => (k.regs n).trans (h.regs n)⟩

theorem unitLeft_setSext (u : Nat) (s : State) (x : SextUnit) : UnitLeft u s (setSext s u x) :=
  ⟨rfl, fun _ hk => sext_setSext_ne _ _ _ _ (Ne.symm hk), fun _ => rfl⟩

theorem unitLeft_unitCount {u : Nat} (hu : u < 16) (s : State) {sub : Nat} (hsub : sub < 256) (n : Nat) : UnitLeft u s (unitCount s u sub n) := by
  have hregs : ∀ k, regAt (bumpBy s 0x5300 sub u n) 0x7100 2 k = regAt s 0x7100 2 k := fun k =>
    regAt_bumpBy_ne _ _ _ _ _ _ _ _ (by unfold regKey; omega)
  unfold unitCount
  dsimp only
  split
  · exact ⟨rfl, fun _ _ => rfl, hregs⟩
  · exact ⟨rfl, fun _ _ => rfl, hregs⟩

theorem unitLeft_settlePress {u : Nat} (hu : u < 16) (s : State) : UnitLeft u s (settlePress s u) ∧
    (sext (settlePress s u) u).inService = (sext s u).inService := by
  have hcount : ∀ (x : SextUnit) n, UnitLeft u s (unitCount (setSext s u x) u 7 n) ∧
      (sext (unitCount (setSext s u x) u 7 n) u).inService = x.inService := fun x n => by
    refine ⟨(unitLeft_setSext u s x).trans (unitLeft_unitCount hu _ (by decide) n), ?_⟩
    have hunits : (unitCount (setSext s u x) u 7 n).units = (setSext s u x).units := by
      unfold unitCount
      dsimp only
      split <;> rfl
    rw [sext_of_units hunits, sext_setSext_self]
  have hrefl : UnitLeft u s s := ⟨rfl, fun _ _ => rfl, fun _ => rfl⟩
  unfold settlePress
  dsimp only
  split
  · split
    · exact ⟨unitLeft_setSext .., by rw [sext_setSext_self]⟩
    · exact ⟨hrefl, rfl⟩
  · split
    · exact hcount _ _
    · exact ⟨hrefl, rfl⟩

theorem unitLeaves_idle {s : State} {u : Nat} (hu : u < 16) (hcolls : s.colls = []) (hqueue : (sext s u).queue = []) (hlines : (sext s u).lines = []) :
    UnitLeft u s (unitLeaves s u) ∧ (sext (unitLeaves s u) u).inService = false := by
  set d := setSext s u { sext s u with inService := false, change := none } with hd
  have hself : sext d u = { sext s u with inService := false, change := none } := sext_setSext_self ..
  have hclosed : closeLines d u = d := by
    unfold closeLines
    rw [hself, hlines]
    rfl
  have hdq : (sext d u).queue = [] := by
    rw [hself]
    exact hqueue
  have hrefused : refuseQueue d u = setSext d u { sext d u with queue := [] } := by
    unfold refuseQueue
    rw [hdq, hclosed]
    rfl
  have hsends : sendsTo s u = [] := by
    unfold sendsTo
    rw [hcolls]
    rfl
  have hfirst : UnitLeft u s d := unitLeft_setSext ..
  have hsecond := hfirst.trans (unitLeft_setSext u d { sext d u with queue := [] })
  have hservice : (sext (setSext d u { sext d u with queue := [] }) u).inService = false := by
    rw [sext_setSext_self, hself]
  obtain ⟨hpressed, hsame⟩ := unitLeft_settlePress hu (setSext d u { sext d u with queue := [] })
  have hthird := hsecond.trans hpressed
  have hrun : unitLeaves s u = pressEnded u s (settlePress (setSext d u { sext d u with queue := [] }) u) := by
    unfold unitLeaves
    rw [hsends]
    exact congrArg (fun x => pressEnded u s (settlePress x u)) hrefused
  rw [hrun]
  generalize settlePress (setSext d u { sext d u with queue := [] }) u = v at *
  have hnone : originateDrift v = v := originateDrift_of_colls (by rw [hthird.only]; exact hcolls)
  have hended : pressEnded u s v = v := by
    unfold pressEnded
    rw [hnone, ite_self]
  rw [hended]
  exact ⟨hthird, hsame.trans hservice⟩

theorem sextantSlice_fails {s : State} {u slack : Nat} (hturn : inTurn s 6 (sextSliceDue s) = true)
    (hmaster : isMaster s = true) (hup : s.mgmt.restarting = false) (hunit : nextTestUnit s = some u) (hcolls : s.colls = [])
    (hqueue : (sext s u).queue = []) :
    Runs (.sextantSlice false false slack) s fun t => (sext t u).inService = false ∧ CountedFault 0xD 0 s t ∧
      CountedFault 8 u s t ∧ (∀ k, k ≠ u → sext t k = sext s k) ∧
      ((∀ l ∈ (sext s u).lines, l.dirty = false) → t.mem = s.mem) ∧ t.ctxs = s.ctxs := by
  obtain ⟨hu, -⟩ := nextTestUnit_some hunit
  obtain ⟨hclosed, hlines⟩ := linesClosed_closeLines u (setTest s fun t => { t with sextAt := s.mer.count, nextUnit := (u + 1) % 16 })
  have hawake : awake s = true := awake_of_running (running_of_inTurn hturn)
  refine ⟨_, congrArg Host.Outcome.next ((sextantSlice_due hturn hmaster hup hunit false false slack).trans (if_neg (by simp))), ?_⟩
  unfold unitDrained outOfService
  generalize closeLines (setTest s fun t => { t with sextAt := s.mer.count, nextUnit := (u + 1) % 16 }) u = d at *
  have hregs : d.regs = s.regs := by rw [hclosed.only]; rfl
  have hawake' : awake d = true := by
    rw [hclosed.only]
    exact hawake
  have hreported := reported_report d 0xD 0 4 u
  have hfault := countedFault_of_regs hregs.symm rfl (countedFault_report hawake' 0xD 0 4 u)
  have hother : regAt (report d 0xD 0 4 u) 0x7100 2 (sourceNo 8 u) = regAt d 0x7100 2 (sourceNo 8 u) :=
    regAt_report_source (by unfold sourceNo; omega)
  generalize report d 0xD 0 4 u = v at *
  have hunits : v.units = d.units := by rw [hreported]
  obtain ⟨hleft, hout⟩ := unitLeaves_idle (s := v) hu (by rw [hreported, hclosed.only]; exact hcolls)
    (by rw [sext_of_units hunits, hclosed.self]; exact hqueue) (by rw [sext_of_units hunits]; exact hlines)
  generalize unitLeaves v u = x at *
  have hawake'' : awake x = true := by
    rw [hleft.only, hreported]
    exact hawake'
  have hreported' := reported_report x 8 u 2 0
  have hfault' := countedFault_report hawake'' 8 u 2 0
  have hkept : regAt (report x 8 u 2 0) 0x7100 2 (sourceNo 0xD 0) = regAt x 0x7100 2 (sourceNo 0xD 0) :=
    regAt_report_source (by unfold sourceNo; omega)
  generalize report x 8 u 2 0 = y at *
  have htold : tellUnit y u = { y with out := (tellUnit y u).out } := by
    unfold tellUnit
    split <;> rfl
  generalize tellUnit y u = t at *
  have hunits' : t.units = x.units := by rw [htold, hreported']
  have hregs' : t.regs = y.regs := by rw [htold]
  refine ⟨by rw [sext_of_units hunits', hout], ?_, ?_, fun k hk => ?_, fun hclean => ?_, ?_⟩
  · refine countedFault_of_regs rfl hregs' ?_
    exact (hkept.trans (hleft.regs _)).trans hfault
  · refine countedFault_of_regs rfl hregs' (hfault'.trans (regAt_bumpAt_congr ?_))
    refine (hleft.regs _).trans (hother.trans ?_)
    rw [regAt, hregs]
    rfl
  · exact (sext_of_units hunits' k).trans ((hleft.others k hk).trans ((sext_of_units hunits k).trans (hclosed.others k hk)))
  · rw [htold, hreported', hleft.only, hreported]
    exact hclosed.mem hclean
  · rw [htold, hreported', hleft.only, hreported, hclosed.only]
    rfl

/-! ## Commits (R427) -/

theorem repairCommit_works (w : WriteHdr) (n : BitVec 8) (r : Bytes) (s : State) (hrecord : s.test.records[n.toNat]? = some r)
    (hlow : 1 ≤ byteAt r 0) (hhigh : byteAt r 0 ≤ 3) (hnew : byteAt r 1 = 0) (hfuses : 0 < s.test.fuses) (hnone : s.test.commit = none)
    (hcut : s.pins.cutWarn = false) :
    WriteWorks (.repairCommit w n) w 0x8200 4 [n] s (fun t => { s with test := t.test }) fun t =>
      t.test = { s.test with commit := some (n.toNat, r) } := by
  refine writeWorks_of_rule (applyCommit n.toNat) (fun t => setTest t fun x => { x with commit := some (n.toNat, r) }) rfl
    (fun haut => ?_) (fun haut u hu => ?_)
  · have htest := test_atEntry (writeReq w 0x8200 4 [n]) s haut
    have hpins := pins_atEntry (writeReq w 0x8200 4 [n]) s haut
    unfold applyCommit
    rw [htest, hrecord]
    refine require_pos ?_
    rw [hpins, hcut, hnone]
    simp [hlow, hhigh, hnew, hfuses]
  · generalize writeReq w 0x8200 4 [n] = q at *
    have htest := test_atEntry q s haut
    have hbeside := beside_atEntry q s haut
    have hcascade := cascade_atEntry q s haut
    generalize atEntry q s = e at *
    have hset : u.test = { s.test with commit := some (n.toNat, r) } := by
      rw [hu, setTest, htest]
    refine ⟨by rw [hu]; exact hcascade, ?_, by rw [test_written, hset]⟩
    rw [test_written, hset, hu, setTest, htest]
    exact (congrArg (fun t : State => { t with test := { s.test with commit := some (n.toNat, r) } }) hbeside :)

theorem lane_updLane_self (s : State) (l : Nat) (f : Lane → Lane) : lane (updLane s l f) l = f (lane s l) := tgetD_tput_self ..

/-- What the fuses take from a record. -/
theorem burnRecord_effect (s : State) (r : Bytes) : (burnRecord s r).flash.fusesUsed = s.flash.fusesUsed + 1 ∧
    (byteAt r 0 = 3 → tget (burnRecord s r).flash.fusedBanks (byteAt r 2) = some (byteAt r 3)) ∧
    (byteAt r 0 ≠ 3 → (lane (burnRecord s r) (leAt r 2 2)).fused = true ∧ leAt r 2 2 ∈ (burnRecord s r).flash.fusedLanes) ∧
    burnRecord s r = { s with flash := (burnRecord s r).flash, lanes := (burnRecord s r).lanes } := by
  unfold burnRecord
  by_cases h : byteAt r 0 = 3
  · simp only [if_pos h]
    exact ⟨trivial, fun _ => tget_tput_self .., fun h' => absurd h h', trivial⟩
  · simp only [if_neg h]
    refine ⟨rfl, fun h' => absurd h' h, fun _ => ⟨?_, (mem_insertNat ..).mpr (.inl rfl)⟩, rfl⟩
    rw [lane_updLane_self]

theorem fuseCommitDone_works {s : State} {n : Nat} {r : Bytes} (hcommit : s.test.commit = some (n, r)) (hawake : awake s = true) :
    Runs .fuseCommitDone s fun t => t.test.commit = none ∧ t.test.fuses = s.test.fuses - 1 ∧
      t.flash.fusesUsed = s.flash.fusesUsed + 1 ∧ CountedFault 0xD 0 s t ∧
      (byteAt r 0 = 3 → tget t.flash.fusedBanks (byteAt r 2) = some (byteAt r 3)) ∧
      (byteAt r 0 ≠ 3 → (lane t (leAt r 2 2)).fused = true ∧ leAt r 2 2 ∈ t.flash.fusedLanes) ∧ t.mem = s.mem ∧ t.ctxs = s.ctxs := by
  obtain ⟨hused, hbank, hlane, honly⟩ := burnRecord_effect s r
  refine ⟨fuseCommitDone s, rfl, ?_⟩
  unfold fuseCommitDone
  rw [hcommit]
  dsimp only
  generalize burnRecord s r = d at *
  have htest : d.test = s.test := by rw [honly]
  have hmarked : ∀ l, ∃ m, setRecords (setTest d fun t => { t with commit := none, fuses := t.fuses - 1 }) l =
      { d with test := { d.test with commit := none, fuses := d.test.fuses - 1, records := l }, mgmt := m } := fun l => ⟨_, rfl⟩
  generalize hl : markCommitted r (setTest d fun t => { t with commit := none, fuses := t.fuses - 1 }).test.records = l
  obtain ⟨m, hm⟩ := hmarked l
  rw [hm]
  clear hm hl hmarked
  generalize hv : ({ d with test := { d.test with commit := none, fuses := d.test.fuses - 1, records := l }, mgmt := m } : State) = v
  have hawake' : awake v = true := by
    rw [← hv, honly]
    exact hawake
  have hreported := reported_report v 0xD 0 5 n
  have hfault := countedFault_of_regs (s' := s) (t' := report v 0xD 0 5 n) (by rw [← hv, honly]) rfl (countedFault_report hawake' 0xD 0 5 n)
  generalize report v 0xD 0 5 n = w at *
  have hreplaced : Replaced w (if laneUnrepaired w then w else clearReplace w 3) := by
    split
    · exact ⟨rfl, fun _ _ _ _ => rfl⟩
    · exact replaced_clearReplace ..
  generalize (if laneUnrepaired w then w else clearReplace w 3) = t at *
  have hflash : t.flash = d.flash := by rw [hreplaced.only, hreported, ← hv]
  have hlanes : t.lanes = d.lanes := by rw [hreplaced.only, hreported, ← hv]
  refine ⟨?_, ?_, by rw [hflash, hused], ?_, fun h => ?_, fun h => ?_, ?_, ?_⟩
  · rw [hreplaced.only, hreported, ← hv]
  · rw [hreplaced.only, hreported, ← hv, ← htest]
  · exact (hreplaced.regs _ _ _ (by decide)).trans hfault
  · rw [hflash]
    exact hbank h
  · obtain ⟨hfused, hmem⟩ := hlane h
    rw [hflash, lane, hlanes]
    exact ⟨hfused, hmem⟩
  · rw [hreplaced.only, hreported, ← hv, honly]
  · rw [hreplaced.only, hreported, ← hv, honly]

/-- Settles O58: self-test, from the lane slices to the commits. -/
theorem selfTestRuns : Obligations.SelfTestRuns := by
  unfold Obligations.SelfTestRuns
  exact ⟨fun p b k s hadmitted hdue hturn hnew hruns => laneSlice_runs p b k s hadmitted hdue hturn hnew hruns,
    fun p b k s hadmitted hdue hturn hnew hruns => laneSlice_skips p b k s hadmitted hdue hturn hnew hruns,
    fun l p since bits errors s hport hslice hfreed hdue =>
      congrArg Host.Outcome.next (sliceCheckEnd_due (c := .reference) hport hslice hfreed hdue),
    fun l p since bits errors s hport hslice hfreed hthere hdue =>
      congrArg Host.Outcome.next ((sliceCheckEnd_due (c := .txLoop) hport hslice hfreed hdue).trans (if_pos hthere)),
    fun l p since bits errors s hport hslice hfreed hdue href htx hpass hidle => ⟨_, rfl, finishSlice_passes href htx hidle
      ((sliceCheckEnd_due (c := .rxLoop) hport hslice hfreed hdue).trans (by rw [hpass]; exact if_pos (by rw [href]; rfl)))⟩,
    fun l p since bits errors s hport hslice hfreed hdue href htx hfail hawake => ⟨_, rfl, finishSlice_fails (by omega) hawake htx
      ((sliceCheckEnd_due (c := .rxLoop) hport hslice hfreed hdue).trans (by rw [hfail]; exact if_pos href))⟩,
    fun s n sp rest hturn hnone hup hbank hspare hlen => storeSlice_starts hturn hnone hup hbank hspare hlen,
    fun s hturn hnone hnot => storeSlice_skips hturn hnone hnot,
    fun s n b sp since hstore hdue hwaiting hb hne hn hlen => retentionWaitEnd_passes hstore hdue hwaiting hb hne hn hlen,
    fun s n b sp since hstore hdue hwaiting hawake => retentionWaitEnd_fails hstore hdue hwaiting hawake,
    fun s hnone => congrArg Host.Outcome.next (by unfold retentionWaitEnd; rw [hnone]),
    fun s u slack a b hturn hmaster hup hunit hpass => sextantSlice_passes hturn hmaster hup hunit hpass,
    fun s u slack hturn hmaster hup hunit hcolls hqueue => sextantSlice_fails hturn hmaster hup hunit hcolls hqueue,
    fun w n r s hrecord hlow hhigh hnew hfuses hnone hcut => repairCommit_works w n r s hrecord hlow hhigh hnew hfuses hnone hcut,
    fun s n r hcommit hawake => fuseCommitDone_works hcommit hawake,
    fun s hnone => congrArg Host.Outcome.next (by unfold fuseCommitDone; rw [hnone])⟩

end Sys2Proof.Machine
end

section
/-! A device that starts: what the start-up leaves of the state that a reset has just cleared. -/

namespace Sys2Proof.Machine
open Sys2Proof

/-- What the start-up leaves: the accesses, the packets and the contexts, the time, and the pins but for the replace request. -/
def steady (s : State) : State :=
  { State.reset with
    phase := s.phase, clock := s.clock, mem := s.mem, ctxs := s.ctxs, genBase := s.genBase, colls := s.colls, accesses := s.accesses,
    tracks := s.tracks, held := s.held, pkts := s.pkts, mer := s.mer, faults := { Faults.reset with running := s.faults.running },
    pins := { s.pins with cold := false, replaceReq := false }, mgmt := { Mgmt.reset with heldReqs := s.mgmt.heldReqs },
    cascade := { Cascade.reset with present := s.cascade.present } }

/-! ## Reports, the replace request and the flash -/

/-- What a report, the replace request and a write to the flash change. -/
structure Writes (s t : State) : Prop where
  only : t = { s with regs := t.regs, faults := t.faults, pins := t.pins, mgmt := t.mgmt, out := t.out, flash := t.flash }
  steady : steady t = steady s

theorem writes_refl (s : State) : Writes s s := ⟨rfl, rfl⟩

theorem writes_trans {s t u : State} (h : Writes s t) (k : Writes t u) : Writes s u := by
  refine ⟨?_, k.steady.trans h.steady⟩
  rw [k.only, h.only]

theorem writes_foldl {α : Type} {f : State → α → State} (h : ∀ s a, Writes s (f s a)) (l : List α) (s : State) : Writes s (l.foldl f s) := by
  induction l generalizing s with
  | nil => exact writes_refl s
  | cons a r ih => exact writes_trans (h s a) (ih _)

theorem running_raiseReport (s : State) (r : Report) : (raiseReport s r).faults.running = s.faults.running := by
  unfold raiseReport
  split
  · unfold toIntake
    dsimp only
    split <;> rfl
  · rfl

theorem writes_raiseReport (s : State) (r : Report) : Writes s (raiseReport s r) := by
  have hreported := reported_raiseReport s r
  have hrunning := running_raiseReport s r
  generalize raiseReport s r = t at *
  refine ⟨?_, ?_⟩
  · rw [hreported]
  · unfold steady
    rw [hrunning, hreported]

theorem writes_report (s : State) (cls idx kind addr : Nat) : Writes s (report s cls idx kind addr) := writes_raiseReport ..

theorem steady_of_told {s t : State} (h : Told s t) : steady t = steady s := by
  unfold steady
  rw [h.held, h.only]

theorem writes_raiseReplace (s : State) (n : Nat) : Writes s (raiseReplace s n) := by
  refine ⟨?_, ?_⟩
  · rw [(replaced_raiseReplace s n).only]
  · unfold raiseReplace
    dsimp only
    split
    · rfl
    · exact (steady_of_told (told_pushEvent ..)).trans rfl

theorem writes_flashError (s : State) (addr : Nat) : Writes s (flashError s addr) :=
  writes_trans (writes_report ..) (writes_raiseReplace ..)

theorem writes_program (s : State) (addr size : Nat) (f : Flash → Flash) : Writes s (program s addr size f) := by
  unfold program
  split
  · exact writes_flashError ..
  · exact ⟨rfl, rfl⟩

/-! ## The boot -/

theorem writes_writeLog (s : State) (ty len : Nat) (payload : Bytes) : Writes s (writeLog s ty len payload) := ⟨rfl, rfl⟩

theorem writes_writeBoot (s : State) (active : Nat) (trial : Bool) (tries : Nat) : Writes s (writeBoot s active trial tries) := by
  unfold writeBoot
  exact writes_program ..

theorem writes_countTrial (s : State) : Writes s (countTrial s) := by
  unfold countTrial
  dsimp only
  split
  · exact writes_refl s
  · split
    · exact writes_trans (writes_writeBoot ..) (writes_writeLog ..)
    · exact writes_writeBoot ..

theorem writes_ite {c : Prop} [Decidable c] {s t u : State} (h : Writes s t) (k : Writes s u) : Writes s (if c then t else u) := by
  split
  · exact h
  · exact k

/-- A device whose image `i` runs, before the boot is logged. -/
def imageRuns (s : State) (i : Nat) : State :=
  { s with
    phase := .running
    mgmt := { s.mgmt with running := i, update := if s.flash.trial && i == s.flash.active then 5 else 0, bootAt := s.clock } }

/-- A device with a sound active image and no trial runs once it has booted. -/
theorem boot_runs {s : State} (h : Boots s) (cause : Nat) : steady (boot cause s) = steady { s with phase := .running } := by
  obtain ⟨hvalid, htrial⟩ := h
  have hcount : countTrial s = s := by simp [countTrial, htrial]
  have hchoice : bootChoice s.flash = some s.flash.active := by simp [bootChoice, hvalid]
  have hwrites : Writes (imageRuns s s.flash.active) (boot cause s) := by
    unfold boot
    dsimp only
    rw [hcount, hchoice]
    have hreported := writes_ite (c := s.flash.active ≠ s.flash.active ∨ s.flash.active ≠ s.flash.active)
      (writes_report (imageRuns s s.flash.active) 0xE 0 3 s.flash.active) (writes_refl _)
    exact writes_trans (writes_trans hreported (writes_ite (writes_writeLog ..) (writes_refl _))) (writes_writeLog ..)
  exact hwrites.steady

theorem imageValid_of_images {f g : Flash} (h0 : g.image0 = f.image0) (h1 : g.image1 = f.image1) (hr : g.rollback = f.rollback) (i : Nat) :
    imageValid g i = imageValid f i := by
  unfold imageValid imageOf
  rw [h0, h1, hr]

theorem flash_flashError (s : State) (addr : Nat) : (flashError s addr).flash = s.flash := by
  unfold flashError
  have hreported := reported_report s 0xE 0 4 addr
  generalize report s 0xE 0 4 addr = t at *
  rw [(replaced_raiseReplace ..).only, hreported]

theorem imageValid_writeBoot (s : State) (active : Nat) (trial : Bool) (tries i : Nat) :
    imageValid (writeBoot s active trial tries).flash i = imageValid s.flash i := by
  unfold writeBoot
  dsimp only
  unfold program
  split
  · rw [flash_flashError]
  · dsimp only
    split <;> exact imageValid_of_images rfl rfl rfl i

theorem imageValid_countTrial (s : State) (i : Nat) : imageValid (countTrial s).flash i = imageValid s.flash i := by
  unfold countTrial
  dsimp only
  split
  · rfl
  · split
    · exact (imageValid_of_images rfl rfl rfl i).trans (imageValid_writeBoot ..)
    · exact imageValid_writeBoot ..

/-- Where neither image is sound no image is chosen. -/
theorem bootChoice_none {f : Flash} (h0 : imageValid f 0 = false) (h1 : imageValid f 1 = false) : bootChoice f = none := by
  have hnone (i : Nat) : imageValid f i = false := by
    by_cases hi : i = 0
    · rw [hi, h0]
    · rw [← h1]
      simp only [imageValid, imageOf, if_neg hi, if_neg Nat.one_ne_zero]
  simp [bootChoice, hnone]

/-- A device without a sound image is in recovery mode once it has booted, with everything else as a write leaves it. -/
theorem boot_recovers {s : State} (h0 : imageValid s.flash 0 = false) (h1 : imageValid s.flash 1 = false) (cause : Nat) :
    ∃ u, Writes s u ∧ Writes { u with phase := .recovery } (boot cause s) := by
  have hchoice : bootChoice (countTrial s).flash = none :=
    bootChoice_none ((imageValid_countTrial ..).trans h0) ((imageValid_countTrial ..).trans h1)
  refine ⟨countTrial s, writes_countTrial s, ?_⟩
  unfold boot
  dsimp only
  rw [hchoice]
  refine writes_trans ?_ (writes_writeLog ..)
  have hmgmt : Writes { countTrial s with phase := .recovery }
    { countTrial s with phase := .recovery, mgmt := { (countTrial s).mgmt with running := 0xFF } } := ⟨rfl, rfl⟩
  exact writes_trans hmgmt (writes_ite (writes_report ..) (writes_refl _))

/-! ## The start-up of a device that runs -/

theorem steady_of_noPorts {s t : State} (h : noPorts t = noPorts s) : steady t = steady s := (congrArg steady h :)

theorem steady_foldl {α : Type} {f : State → α → State} (h : ∀ s a, steady (f s a) = steady s) (l : List α) (s : State) :
    steady (l.foldl f s) = steady s := foldl_keeps steady f h l s

theorem steady_restore (s : State) : steady (restore s) = steady s := by
  have hreplayed : steady (replayed s).1 = steady s := by
    unfold replayed
    split
    · exact (writes_foldl writes_flashError ..).steady
    · exact (writes_flashError ..).steady
  unfold restore startLanes
  dsimp only
  generalize replayed s = v at *
  refine Eq.trans ?_ hreplayed
  exact steady_foldl (f := fun t l => updLane t l fun x => { x with fused := true, role := 5 }) (fun _ _ => by rfl) ..

theorem writes_reasonsAgain (s : State) : Writes s (reasonsAgain s) := by
  unfold reasonsAgain
  dsimp only
  refine writes_trans ?_ (writes_ite (writes_raiseReplace ..) (writes_refl _))
  refine writes_trans ?_ (writes_ite (writes_raiseReplace ..) (writes_refl _))
  exact writes_ite (writes_raiseReplace ..) (writes_refl _)

theorem steady_setBlobAt (s : State) (index sub sel : Nat) (v : Bytes) : steady (setBlobAt s index sub sel v) = steady s := rfl

theorem steady_emit (s : State) (o : Output) : steady (emit s o) = steady s := rfl

theorem steady_applyLayout (s : State) : steady (applyLayout s) = steady s := by
  unfold applyLayout
  dsimp only
  split
  · rfl
  · exact (writes_report ..).steady.trans rfl

theorem steady_applyWidths (s : State) : steady (applyWidths s) = steady s := by
  unfold applyWidths
  dsimp only
  split
  · rfl
  · exact (writes_report ..).steady.trans rfl

theorem steady_dropStripes (s : State) (bad : List Nat) : steady (dropStripes s bad) = steady s :=
  (steady_foldl (fun _ _ => (writes_report ..).steady) ..).trans (steady_setBlobAt ..)

theorem steady_checkMaps (s : State) : steady (checkMaps s) = steady s := by
  unfold checkMaps
  dsimp only
  split
  · exact steady_dropStripes ..
  · refine (steady_foldl (fun t i => ?_) ..).trans (steady_dropStripes ..)
    split
    · rfl
    · exact steady_emit ..

theorem steady_applyStripes (s : State) : steady (applyStripes s) = steady s := by
  have hchecked : steady (checkMaps (setBlobAt s 0x2010 1 1 (blob s 0x2010 1))) = steady s := steady_checkMaps _
  unfold applyStripes tellMap
  split
  · exact hchecked
  · exact hchecked

theorem noPorts_openPort (s : State) (p : Nat) : noPorts (openPort s p) = noPorts s := by
  unfold openPort
  split
  · exact noPorts_releasePort ..
  · exact noPorts_restartLanes ..

theorem steady_tellStripe (s : State) (p : Nat) : steady (tellStripe s p) = steady s := by
  unfold tellStripe
  split
  · split
    · rfl
    · exact steady_emit ..
  · rfl

theorem steady_tellUnit (s : State) (u : Nat) : steady (tellUnit s u) = steady s := by
  unfold tellUnit
  split
  · exact steady_emit ..
  · rfl

theorem steady_askSextant (s : State) : steady (askSextant s) = steady s := by
  unfold askSextant
  split
  · rfl
  · split
    · unfold tellSextant
      dsimp only
      refine (steady_foldl (fun t u => (steady_emit ..).trans (steady_tellUnit ..)) ..).trans ?_
      exact steady_foldl (fun _ _ => steady_emit ..) ..
    · exact steady_emit ..

theorem steady_of_settleSide {s t : State} (h : settleSide t = settleSide s) : steady t = steady s :=
  (congrArg (fun x => steady x.1) h :)

theorem steady_settleNow {s : State} (hcolls : s.colls = []) : steady (settleNow s) = steady s :=
  steady_of_settleSide (settleSide_settleNow hcolls)

theorem colls_of_steady {s t : State} (h : steady t = steady s) : t.colls = s.colls := (congrArg State.colls h :)

/-- After the tables have their source the start-up changes nothing that it leaves. -/
theorem steady_bringUp {s : State} (copy : Option TableCopy) (hcolls : (takeTables copy (reasonsAgain (restore s))).colls = []) :
    steady (bringUp copy s) = steady (takeTables copy (reasonsAgain (restore s))) := by
  unfold bringUp
  generalize takeTables copy (reasonsAgain (restore s)) = u at *
  have hset : steady (applyStripes (applyWidths (applyLayout u))) = steady u :=
    (steady_applyStripes _).trans ((steady_applyWidths _).trans (steady_applyLayout u))
  have hopen : steady (twelve.foldl (fun t p => tellStripe (openPort t p) p) (applyStripes (applyWidths (applyLayout u)))) = steady u :=
    (steady_foldl (fun t p => (steady_tellStripe ..).trans (steady_of_noPorts (noPorts_openPort t p))) ..).trans hset
  dsimp only
  exact (steady_askSextant _).trans ((steady_settleNow ((colls_of_steady hopen).trans hcolls)).trans hopen)

theorem steady_enterHoldover (s : State) : ∃ m, steady (enterHoldover s) = steady { s with mer := m } ∧ m.count = s.mer.count ∧
    m.state = .holdover := by
  unfold enterHoldover
  split
  · next h => exact ⟨s.mer, rfl, rfl, h⟩
  · exact ⟨_, (writes_raiseReport ..).steady, rfl, rfl⟩

/-- The time state at the start of an inst, where it was `st` before. -/
def startState (s : State) (st : TimeState) : TimeState :=
  if isMaster s = true ∨ s.cascade.present.contains 0 = true then st else .holdover

/-- Only an inst other than the master that finds no master takes another time state at the start: it holds over. -/
theorem steady_takeTables (s : State) : ∃ m, steady (takeTables none s) = steady { s with mer := m } ∧ m.count = s.mer.count ∧
    m.state = startState s s.mer.state := by
  unfold startState
  have hcopy : ∀ i, copySource s = some i → isMaster s = true ∨ s.cascade.present.contains 0 = true := by
    intro i h
    unfold copySource at h
    split at h
    · next hmaster => exact .inl hmaster
    · split at h
      · next hpresent => exact .inr hpresent
      · cases h
  unfold takeTables
  cases hsource : copySource s with
  | some i => exact ⟨s.mer, rfl, rfl, (if_pos (hcopy i hsource)).symm⟩
  | none =>
    dsimp only
    split
    · next hmaster => exact ⟨s.mer, rfl, rfl, (if_pos (.inl hmaster)).symm⟩
    · next hmaster =>
      have hpresent : ¬ s.cascade.present.contains 0 = true := by
        intro hp
        unfold copySource at hsource
        rw [if_neg hmaster, if_pos hp] at hsource
        cases hsource
      obtain ⟨m, hm, hcount, hstate⟩ := steady_enterHoldover
        { s with cascade := { s.cascade with copying := false, atStart := true, masterAbsent := true } }
      refine ⟨m, ?_, hcount, hstate.trans (if_neg (not_or.mpr ⟨hmaster, hpresent⟩)).symm⟩
      exact (writes_raiseReplace ..).steady.trans ((writes_report ..).steady.trans hm)

/-- The device once it has booted and read what the flash holds of its keys. -/
def booted (s : State) : State :=
  let s1 := restoreAuth (boot (if s.pins.cold then 0 else 1) s)
  { s1 with pins := { s1.pins with cold := false } }

theorem steady_booted {s : State} (h : Boots s) : steady (booted s) = steady { s with phase := .running } := by
  have hboot := boot_runs h (if s.pins.cold then 0 else 1)
  unfold booted
  generalize boot (if s.pins.cold then 0 else 1) s = u at *
  exact hboot

theorem startUp_eq (copy : Option TableCopy) (s : State) :
    startUp copy s = if (booted s).phase = .recovery then booted s else bringUp copy (booted s) := rfl

/-- A device that boots a sound image without a trial runs, with its time state as `startState` says. -/
theorem startUp_runs {s : State} (h : Boots s) (hcolls : s.colls = []) : ∃ m,
    steady (startUp none s) = steady { s with phase := .running, mer := m } ∧ m.count = s.mer.count ∧ m.state = startState s s.mer.state := by
  have hbooted := steady_booted h
  rw [startUp_eq]
  generalize booted s = v at *
  have hphase : v.phase = .running := (congrArg State.phase hbooted :)
  rw [if_neg (by rw [hphase]; decide)]
  have hreasons : steady (reasonsAgain (restore v)) = steady { s with phase := .running } :=
    (writes_reasonsAgain (restore v)).steady.trans ((steady_restore v).trans hbooted)
  have hbring := steady_bringUp (s := v) none
  generalize reasonsAgain (restore v) = w at *
  obtain ⟨m, hm, hcount, hstate⟩ := steady_takeTables w
  have hmer : steady { w with mer := m } = steady { s with phase := .running, mer := m } :=
    (congrArg (fun b : State => { b with mer := m }) hreasons :)
  have hw : w.mer = s.mer := (congrArg State.mer hreasons :)
  have hsource : startState w = startState s := by
    have hpins : w.pins.instId = s.pins.instId := (congrArg (fun b : State => b.pins.instId) hreasons :)
    have hpresent : w.cascade.present = s.cascade.present := (congrArg (fun b : State => b.cascade.present) hreasons :)
    funext st
    unfold startState isMaster
    rw [hpins, hpresent]
  refine ⟨m, (hbring ?_).trans (hm.trans hmer), by rw [hcount, hw], by rw [hstate, hsource, hw]⟩
  exact (colls_of_steady (hm.trans hmer)).trans hcolls

end Sys2Proof.Machine
end

section
/-! The pins of power and reset: an edge that has passed its filter acts in the tick that comes. -/

namespace Sys2Proof.Machine
open Sys2Proof

/-! ## The tick in which edges pass -/

/-- The filters hold no edge any more. -/
def edgesTaken (s : State) : State := setPins s fun x => { x with cutEdge := none, goodEdge := none, resetEdge := none }

/-- An edge that has passed acts. -/
def passWith (f : PinEdge → State → State) (e : Option PinEdge) (s : State) : State :=
  match e with
  | some e => f e s
  | none => s

/-- What a tick with nothing due leaves before the edges act. -/
structure TickLeft (s v : State) : Prop where
  steady : steady v = steady { s with clock := v.clock, mer := v.mer, pins := v.pins }
  clock : v.clock = s.clock + 1
  pins : v.pins = { s.pins with cutEdge := none, goodEdge := none, resetEdge := none, tap := v.pins.tap }
  flash : v.flash = s.flash
  state : ∀ p, (port v p).state = (port s p).state

theorem tickLeft_edgesTaken {s u : State} (h : TickPasses s u) : TickLeft s (edgesTaken u) := by
  have hu := eq_withTick h.beside
  refine ⟨?_, h.clock, ?_, ?_, fun p => (congrArg Port.state (h.core p) :)⟩
  · rw [hu]
    rfl
  · rw [hu]
    rfl
  · rw [hu]
    rfl

/-- In a tick with nothing due the edges that have passed their filters act. -/
theorem step_edges {s : State} {cut good reset : Option PinEdge} (h : EdgesPass s cut good reset) :
    ∃ v, TickLeft s v ∧ step s = .next (passWith resetPass reset (passWith goodPass good (passWith cutPass cut v))) := by
  obtain ⟨hpending, hquiet, hcut, hgood, hreset⟩ := h
  have hticked := ticked_quiet hquiet
  obtain ⟨hc, hg, hr, _⟩ := hticked.edges
  refine ⟨edgesTaken (ticked s), tickLeft_edgesTaken hticked, ?_⟩
  have htaken (e : Option PinEdge) : filterTick (e.map (1, ·)) = (none, e) := by cases e <;> rfl
  simp only [step, hpending, tick_eq, filtersTick, hc, hcut, hg, hgood, hr, hreset, htaken]
  rfl

section
variable {s v : State} (h : TickLeft s v)
include h

theorem TickLeft.mem : v.mem = s.mem := (congrArg State.mem h.steady :)
theorem TickLeft.ctxs : v.ctxs = s.ctxs := (congrArg State.ctxs h.steady :)
theorem TickLeft.phase : v.phase = s.phase := (congrArg State.phase h.steady :)
theorem TickLeft.colls : v.colls = s.colls := (congrArg State.colls h.steady :)
theorem TickLeft.heldReqs : v.mgmt.heldReqs = s.mgmt.heldReqs := (congrArg (fun b : State => b.mgmt.heldReqs) h.steady :)
theorem TickLeft.genBase : v.genBase = s.genBase := (congrArg State.genBase h.steady :)
theorem TickLeft.ctx (c : Nat) : ctx v c = ctx s c := by simp only [Machine.ctx, h.ctxs, h.genBase]
theorem TickLeft.resetN : v.pins.resetN = s.pins.resetN := by rw [h.pins]
theorem TickLeft.pwrGood : v.pins.pwrGood = s.pins.pwrGood := by rw [h.pins]
theorem TickLeft.pcycReq : v.pins.pcycReq = s.pins.pcycReq := by rw [h.pins]

end

/-! ## Loss of power, and RESET_N -/

/-- The flash but for what a torn write may spoil. -/
def besideTorn (f : Flash) : Flash :=
  { f with bank0 := ⟨none, []⟩, bank1 := ⟨none, []⟩, boot0 := ⟨0, 0, false, 0, false⟩, boot1 := ⟨0, 0, false, 0, false⟩, bootWrite := none }

theorem besideTorn_program {s : State} {f : Flash → Flash} (h : besideTorn (f s.flash) = besideTorn s.flash) (addr size : Nat) :
    besideTorn (program s addr size f).flash = besideTorn s.flash := by
  unfold program
  split
  · rw [flash_flashError]
  · exact h

theorem besideTorn_setJournalBank (f : Flash) (i : Nat) (b : JBank) : besideTorn (setJournalBank f i b) = besideTorn f := by
  unfold setJournalBank
  split <;> rfl

theorem besideTorn_compact (s : State) (i : Nat) : besideTorn (compact s i).flash = besideTorn s.flash := by
  unfold compact
  dsimp only
  split
  · rfl
  · refine besideTorn_program ?_ ..
    rw [besideTorn_setJournalBank, besideTorn_setJournalBank]

theorem besideTorn_tornRecord (s : State) : besideTorn (tornRecord s).flash = besideTorn s.flash := by
  unfold tornRecord
  split
  · rfl
  · dsimp only
    split
    · refine (besideTorn_compact ..).trans (besideTorn_program (s := (freshValue s 1).2) ?_ ..)
      rw [besideTorn_setJournalBank]
    · rfl

theorem besideTorn_tornBoot (s : State) : besideTorn (tornBoot s).flash = besideTorn s.flash := by
  unfold tornBoot
  split
  · split
    · rfl
    · split <;> rfl
  · rfl

/-- A loss of power clears everything but the flash, the memory and the pins. -/
theorem pwrGoodFall_clears {v : State} (h : v.pins.pwrGood = true) : ∃ t, t = pwrGoodFall v ∧ t.phase = .held ∧ t.pins.pwrGood = false ∧
    t.pins.cold = true ∧ (∀ c, (ctx t c).state = .off ∧ (ctx t c).gen = 0) ∧ t.blocks = [] ∧ t.pkts = [] ∧ t.accesses = [] ∧
    t.tracks = [] ∧ t.regs = [] ∧ t.tables = State.reset.tables ∧ t.mer = State.reset.mer ∧ t.mem = v.mem ∧
    besideTorn t.flash = besideTorn v.flash ∧ t.flash.bootWrite = none ∧ t.pins.booked = [] ∧ t.pins.frames = [] := by
  have hflash : besideTorn (tornBoot (tornRecord v)).flash = besideTorn v.flash :=
    (besideTorn_tornBoot _).trans (besideTorn_tornRecord v)
  have hmem : (tornBoot (tornRecord v)).mem = v.mem := by simp
  refine ⟨_, rfl, ?_⟩
  unfold pwrGoodFall
  rw [if_pos h]
  unfold clearPower
  generalize tornBoot (tornRecord v) = w at *
  exact ⟨rfl, rfl, rfl, fun _ => ⟨rfl, rfl⟩, rfl, rfl, rfl, rfl, rfl, rfl, rfl, hmem, hflash, rfl, rfl, rfl⟩

theorem flash_of_besideTorn {f g : Flash} (h : besideTorn g = besideTorn f) (hwrite : g.bootWrite = none) :
    g = { f with bank0 := g.bank0, bank1 := g.bank1, boot0 := g.boot0, boot1 := g.boot1, bootWrite := none } :=
  calc g = { besideTorn g with bank0 := g.bank0, bank1 := g.bank1, boot0 := g.boot0, boot1 := g.boot1, bootWrite := g.bootWrite } := rfl
    _ = { f with bank0 := g.bank0, bank1 := g.bank1, boot0 := g.boot0, boot1 := g.boot1, bootWrite := none } := by
      rw [h, hwrite]
      rfl

theorem tget_mapped {α : Type} (f : α → α) (t : Tbl α) (n : Nat) : tget (t.map fun x => (x.1, f x.2)) n = (tget t n).map f := by
  induction t with
  | nil => rfl
  | cons x r ih =>
    by_cases hx : n = x.1
    · simp [tget, hx]
    · simpa [tget, hx] using ih

/-- Every context of a cleared device is off, a generation on. -/
theorem ctx_clearAll (s : State) (phase : Phase) (epochs : Nat → Nat) (c : Nat) :
    ctx (clearAll s phase epochs) c = { Ctx.reset with gen := (ctx s c).gen + 1 } := by
  have hlisted := tget_mapped (fun x : Ctx => { Ctx.reset with gen := x.gen + 1 }) s.ctxs c
  unfold ctx tgetD
  show (tget (s.ctxs.map fun x => (x.1, { Ctx.reset with gen := x.2.gen + 1 })) c).getD { Ctx.reset with gen := s.genBase + 1 } = _
  rw [hlisted]
  cases tget s.ctxs c <;> rfl

/-- A device that is cleared has its contexts off, no access, no packet, and its time unset. -/
theorem cleared_clearAll (s : State) {phase : Phase} (hphase : phase ≠ .running) (epochs : Nat → Nat) :
    Cleared s (clearAll s phase epochs) := by
  refine ⟨fun c => ?_, rfl, rfl, rfl, rfl, rfl, rfl, rfl, (if_pos (.inl hphase)).symm⟩
  rw [ctx_clearAll]
  exact ⟨rfl, rfl⟩

/-- RESET_N holds a powered device in an inst reset. -/
theorem resetNAssert_clears {v : State} (hreset : v.pins.resetN = true) (hpower : v.pins.pwrGood = true) : ∃ t, t = resetNAssert v ∧
    t.phase = .held ∧ t.pins.resetN = false ∧ t.pins.pcycReq = v.pins.pcycReq ∧ Cleared v t ∧
    t.flash = { v.flash with bootWrite := none } ∧ t.pins.booked = [] ∧ t.pins.frames = [] := by
  refine ⟨_, rfl, ?_⟩
  have hcleared := cleared_clearAll v (phase := .held) (by decide) (raisedEpoch v)
  unfold resetNAssert
  rw [if_pos hreset, if_pos hpower]
  exact ⟨rfl, rfl, rfl, hcleared, rfl, rfl, rfl⟩

/-! ## The release -/

/-- The device that begins to start: its clock stands at 0, and an inst reset runs. -/
def releasing (s : State) : State := runningInst { s with clock := 0, pins := { s.pins with cutGone := none } } []

theorem releaseStart_locked (s : State) : releaseStart true none s = startUp none (releasing s) := rfl

/-- A released device whose clocks lock, and whose image is sound, runs. -/
theorem releaseStart_runs {v : State} (h : Boots v) (hheld : v.mgmt.heldReqs = []) (hcolls : v.colls = []) :
    ∃ t, t = settleHeld (releaseStart true none v) ∧ t.phase = .running ∧ t.clock = 0 ∧ ResetRuns 4 0 t ∧ t.mem = v.mem ∧
      t.ctxs = v.ctxs ∧ t.pins.resetN = v.pins.resetN ∧ t.pins.pwrGood = v.pins.pwrGood ∧ t.pins.instId = v.pins.instId ∧
      t.pins.slotId = v.pins.slotId := by
  obtain ⟨m, hm, _, _⟩ := startUp_runs (s := releasing v) h hcolls
  rw [releaseStart_locked]
  generalize startUp none (releasing v) = u at *
  have hidle : settleHeld u = u := settleHeld_idle ((congrArg (fun b : State => b.mgmt.heldReqs) hm :).trans hheld)
  have hrunning : u.faults.running = (releasing v).faults.running := (congrArg (fun b : State => b.faults.running) hm :)
  refine ⟨u, hidle.symm, (congrArg State.phase hm :), (congrArg State.clock hm :), ?_, (congrArg State.mem hm :),
    (congrArg State.ctxs hm :), (congrArg (fun b : State => b.pins.resetN) hm :), (congrArg (fun b : State => b.pins.pwrGood) hm :),
    (congrArg (fun b : State => b.pins.instId) hm :), (congrArg (fun b : State => b.pins.slotId) hm :)⟩
  rw [ResetRuns, hrunning]
  exact ⟨_, List.mem_singleton_self _, rfl, rfl⟩

/-- A released device whose clocks lock, without a sound image, is in recovery mode. -/
theorem releaseStart_recovers {v : State} (h0 : imageValid v.flash 0 = false) (h1 : imageValid v.flash 1 = false)
    (hheld : v.mgmt.heldReqs = []) :
    ∃ t, t = settleHeld (releaseStart true none v) ∧ t.phase = .recovery ∧ t.mem = v.mem ∧ t.ports = v.ports := by
  obtain ⟨w, hw, hboot⟩ := boot_recovers (s := releasing v) h0 h1 (if (releasing v).pins.cold then 0 else 1)
  have hbooted : booted (releasing v) = { restoreAuth (boot (if (releasing v).pins.cold then 0 else 1) (releasing v)) with
    pins := { (restoreAuth (boot (if (releasing v).pins.cold then 0 else 1) (releasing v))).pins with cold := false } } := rfl
  rw [releaseStart_locked, startUp_eq, hbooted]
  generalize boot (if (releasing v).pins.cold then 0 else 1) (releasing v) = u at *
  have hphase : u.phase = .recovery := (congrArg State.phase hboot.only :)
  have hmem : u.mem = v.mem := (congrArg State.mem hboot.only :).trans (congrArg State.mem hw.only :)
  have hports : u.ports = v.ports := (congrArg State.ports hboot.only :).trans (congrArg State.ports hw.only :)
  have hu : u.mgmt.heldReqs = [] :=
    (congrArg (fun b : State => b.mgmt.heldReqs) hboot.steady :).trans ((congrArg (fun b : State => b.mgmt.heldReqs) hw.steady :).trans hheld)
  rw [if_pos (by exact hphase), settleHeld_idle (by exact hu)]
  exact ⟨_, rfl, hphase, hmem, hports⟩

/-! ## The edges in their tick -/

theorem boots_of_flash {s v : State} (h : v.flash = s.flash) (hs : Boots s) : Boots v := by
  unfold Boots
  rw [h]
  exact hs

/-- RESET_N released on a powered device straps it and starts it. -/
theorem resetPass_powered {v : State} (hreset : v.pins.resetN = false) (hpower : v.pins.pwrGood = true) (i : Fin 4) (slot : Fin 8)
    (refclk : Bool) : resetPass (.rise (some (i, slot)) refclk none) v =
      settleHeld (releaseStart refclk none (setPins v fun x => { x with resetN := true, instId := i, slotId := slot })) := by
  show resetNRelease i slot refclk none v = _
  unfold resetNRelease
  rw [if_neg (by simp [hreset])]
  exact if_pos hpower

/-- Power back on a device that is not held in reset starts it. -/
theorem goodPass_released {v : State} (hpower : v.pins.pwrGood = false) (hreset : v.pins.resetN = true) (refclk : Bool) :
    goodPass (.rise none refclk none) v = settleHeld (releaseStart refclk none (setPins v fun x => { x with pwrGood := true })) := by
  show pwrGoodRise refclk none v = _
  unfold pwrGoodRise
  rw [if_neg (by simp [hpower])]
  exact if_pos hreset

theorem goodPass_held {v : State} (hpower : v.pins.pwrGood = false) (hreset : v.pins.resetN = false) (refclk : Bool) :
    goodPass (.rise none refclk none) v = setPins v fun x => { x with pwrGood := true } := by
  show pwrGoodRise refclk none v = _
  unfold pwrGoodRise
  rw [if_neg (by simp [hpower])]
  exact if_neg (by simp [hreset])

/-- Settles O59: each edge acts in the tick in which it has passed (`step_edges`). -/
theorem powerAndReset : Obligations.PowerAndReset := by
  unfold Obligations.PowerAndReset
  refine ⟨fun s hedges hgood => ?_, fun s hedges hreset hgood => ?_, fun i slot s hedges hreset hgood hboots hcut hheld hcolls => ?_,
    fun i slot s hedges hreset hgood h0 h1 _ hheld => ?_, fun i slot s hedges hreset hgood hheld => ?_,
    fun s hedges hgood hreset hboots hcut hheld hcolls => ?_, fun s hedges hgood hreset => ?_,
    fun s hphase hdue hboots hcut hheld hcolls => ?_, fun s hphase hdue => ?_, fun s hphase => ?_⟩
  · obtain ⟨v, hv, hstep⟩ := step_edges hedges
    obtain ⟨t, ht, hphase, hpower, hcold, hctxs, hblocks, hpkts, haccesses, htracks, hregs, htables, hmer, hmem, hflash, hwrite, hpins⟩ :=
      pwrGoodFall_clears (hv.pwrGood.trans hgood)
    refine ⟨t, by rw [hstep, ht]; rfl, hphase, hpower, hcold, hctxs, hblocks, hpkts, haccesses, htracks, hregs, htables, hmer,
      hmem.trans hv.mem, flash_of_besideTorn (hflash.trans (by rw [hv.flash])) hwrite, hpins⟩
  · obtain ⟨v, hv, hstep⟩ := step_edges hedges
    obtain ⟨t, ht, hphase, hreset', hpcyc, hcleared, hflash, hpins⟩ :=
      resetNAssert_clears (hv.resetN.trans hreset) (hv.pwrGood.trans hgood)
    refine ⟨t, by rw [hstep, ht]; rfl, hphase, hreset', hpcyc.trans hv.pcycReq, ?_, by rw [hflash, hv.flash], hpins⟩
    unfold Cleared at hcleared ⊢
    simpa only [hv.ctx, hv.mem] using hcleared
  · obtain ⟨v, hv, hstep⟩ := step_edges hedges
    obtain ⟨t, ht, hphase, hclock, hruns, hmem, hctxs, hreset', _, hinst, hslot⟩ :=
      releaseStart_runs (v := setPins v fun x => { x with resetN := true, instId := i, slotId := slot }) (boots_of_flash hv.flash hboots)
        (hv.heldReqs.trans hheld) (hv.colls.trans hcolls)
    refine ⟨t, ?_, hreset', hinst, hslot, hphase, hclock, hruns, hmem.trans hv.mem, hctxs.trans hv.ctxs⟩
    rw [hstep, ht, ← resetPass_powered (hv.resetN.trans hreset) (hv.pwrGood.trans hgood)]
    rfl
  · obtain ⟨v, hv, hstep⟩ := step_edges hedges
    obtain ⟨t, ht, hphase, hmem, hports⟩ :=
      releaseStart_recovers (v := setPins v fun x => { x with resetN := true, instId := i, slotId := slot })
        (by rw [show (setPins v _).flash = s.flash from hv.flash, h0]) (by rw [show (setPins v _).flash = s.flash from hv.flash, h1])
        (hv.heldReqs.trans hheld)
    refine ⟨t, ?_, hphase, fun p => ?_, hmem.trans hv.mem⟩
    · rw [hstep, ht, ← resetPass_powered (hv.resetN.trans hreset) (hv.pwrGood.trans hgood)]
      rfl
    · rw [port, hports]
      exact hv.state p
  · obtain ⟨v, hv, hstep⟩ := step_edges hedges
    refine ⟨{ releasing (setPins v fun x => { x with resetN := true, instId := i, slotId := slot }) with
      phase := .noPll
      pins := { (releasing (setPins v fun x => { x with resetN := true, instId := i, slotId := slot })).pins with pllAt := 0 } },
      ?_, rfl, rfl, rfl, rfl, rfl⟩
    have hpass := resetPass_powered (hv.resetN.trans hreset) (hv.pwrGood.trans hgood) i slot false
    rw [settleHeld_idle (by exact hv.heldReqs.trans hheld)] at hpass
    exact hstep.trans (congrArg Host.Outcome.next hpass)
  · obtain ⟨v, hv, hstep⟩ := step_edges hedges
    obtain ⟨t, ht, hphase, _, hruns, hmem, _, _, hpower, _⟩ := releaseStart_runs (v := setPins v fun x => { x with pwrGood := true })
      (boots_of_flash hv.flash hboots) (hv.heldReqs.trans hheld) (hv.colls.trans hcolls)
    refine ⟨t, ?_, hpower, hphase, hruns, hmem.trans hv.mem⟩
    rw [hstep, ht, ← goodPass_released (hv.pwrGood.trans hgood) (hv.resetN.trans hreset)]
    rfl
  · obtain ⟨v, hv, hstep⟩ := step_edges hedges
    refine ⟨setPins v fun x => { x with pwrGood := true }, ?_, rfl, hv.phase, hv.mem, hv.ctxs⟩
    rw [hstep, ← goodPass_held (hv.pwrGood.trans hgood) (hv.resetN.trans hreset)]
    rfl
  · obtain ⟨m, hm, _, _⟩ := startUp_runs hboots hcolls
    refine ⟨startUp none s, ?_, (congrArg State.phase hm :), (congrArg State.mem hm :)⟩
    have hidle : (startUp none s).mgmt.heldReqs = [] := (congrArg (fun b : State => b.mgmt.heldReqs) hm :).trans hheld
    show Host.Outcome.next (pllLockRetry true none s) = _
    rw [pllLockRetry, if_pos ⟨hphase, decide_eq_true hdue⟩, if_pos rfl, settleHeld_idle hidle]
  · exact congrArg Host.Outcome.next (if_pos ⟨hphase, decide_eq_true hdue⟩)
  · exact congrArg Host.Outcome.next (if_neg fun h => hphase h.1)

end Sys2Proof.Machine
end

section
/-! What the end of a link and a change of incarnation leave: the incarnations, and which ports the heat holds off. Every
function that `incarnationChanged` reaches keeps both, in the order in which the model defines them. -/

namespace Sys2Proof.Machine
open Sys2Proof

/-- The incarnations, and which ports the heat holds off (R414). -/
def standing (s : State) : Tbl (BitVec 8) × (Nat → Bool) := (s.tables.inc, fun p => (port s p).thermOff)

/-! ## Updates of one record -/

/-- What changes neither the ports nor the cascade keeps both. -/
theorem standing_of_ports {s t : State} (hports : t.ports = s.ports) (hinc : t.tables.inc = s.tables.inc) :
    standing t = standing s := by simp only [standing, port, hports, hinc]

theorem standing_setPort {s : State} {p : Nat} {x : Port} (h : x.thermOff = (port s p).thermOff) :
    standing (setPort s p x) = standing s := by
  refine Prod.ext rfl (funext fun q => ?_)
  change (port (setPort s p x) q).thermOff = (port s q).thermOff
  by_cases hq : p = q
  · rw [← hq, port_setPort_self, h]
  · rw [port_setPort_ne _ _ _ _ hq]

@[simp] theorem standing_updPort {s : State} {p : Nat} {f : Port → Port} (h : ∀ x, (f x).thermOff = x.thermOff) :
    standing (updPort s p f) = standing s := standing_setPort (h _)

@[simp] theorem standing_updLink (s : State) (p : Nat) (f : Link → Link) : standing (updLink s p f) = standing s :=
  standing_updPort fun _ => rfl

@[simp] theorem standing_updLane (s l f) : standing (updLane s l f) = standing s := rfl
@[simp] theorem standing_updOctet (s o f) : standing (updOctet s o f) = standing s := rfl
@[simp] theorem standing_setSext (s u x) : standing (setSext s u x) = standing s := rfl
@[simp] theorem standing_updSext (s u f) : standing (updSext s u f) = standing s := rfl
@[simp] theorem standing_setCtx (s c x) : standing (setCtx s c x) = standing s := rfl
@[simp] theorem standing_updCtx (s c f) : standing (updCtx s c f) = standing s := rfl
@[simp] theorem standing_setRegAt (s i j k v) : standing (setRegAt s i j k v) = standing s := rfl
@[simp] theorem standing_bumpBy (s i j k n) : standing (bumpBy s i j k n) = standing s := rfl
@[simp] theorem standing_bumpAt (s i j k) : standing (bumpAt s i j k) = standing s := rfl
@[simp] theorem standing_bump (s i j) : standing (bump s i j) = standing s := rfl
@[simp] theorem standing_emit (s o) : standing (emit s o) = standing s := rfl
@[simp] theorem standing_putColl (s c x) : standing (putColl s c x) = standing s := rfl
@[simp] theorem standing_sliceResult (s l r) : standing (sliceResult s l r) = standing s := rfl
@[simp] theorem standing_mirrorTouch (s c) : standing (mirrorTouch s c) = standing s := rfl
@[simp] theorem standing_recordFailure (s c n k st) : standing (recordFailure s c n k st) = standing s := rfl
@[simp] theorem standing_dropCmd (s c n) : standing (dropCmd s c n) = standing s := rfl
@[simp] theorem standing_putCmd (s c m) : standing (putCmd s c m) = standing s := rfl
@[simp] theorem standing_holdOp (s o) : standing (holdOp s o) = standing s := rfl
@[simp] theorem standing_dropMessages (s c n) : standing (dropMessages s c n) = standing s := rfl
@[simp] theorem standing_scramble (s r) : standing (scramble s r) = standing s := rfl

theorem standing_foldl {α : Type} {f : State → α → State} (h : ∀ t a, standing (f t a) = standing t) (l : List α)
    (s : State) : standing (l.foldl f s) = standing s := foldl_keeps standing f h l s

/-! ## Reports, and what goes out on a port -/

theorem standing_of_reported {s t : State} (h : Reported s t) : standing t = standing s := by
  rw [h]
  rfl

@[simp] theorem standing_raiseReport (s : State) (r : Report) : standing (raiseReport s r) = standing s :=
  standing_of_reported (reported_raiseReport ..)

@[simp] theorem standing_report (s : State) (cls idx kind addr : Nat) : standing (report s cls idx kind addr) = standing s :=
  standing_of_reported (reported_report ..)

@[simp] theorem standing_reportDown (s : State) (p node cause reason : Nat) :
    standing (reportDown s p node cause reason) = standing s := by
  unfold reportDown
  split
  · simp
  · split <;> simp

/-- Packets that come and go, and what the ports send, change neither. -/
theorem standing_of_stores {s t : State} (h : Stores s t) : standing t = standing s :=
  Prod.ext (congrArg (fun u : State => u.tables.inc) h.beside :) (funext fun p => (congrArg Port.thermOff (h.body p) :))

@[simp] theorem standing_sendControl (s : State) (p ctype : Nat) (body : List (Nat × Nat × Nat)) :
    standing (sendControl s p ctype body) = standing s := standing_of_stores (sends_sendControl ..).stores

@[simp] theorem standing_drainControl (n : Nat) (s : State) (p : Nat) : standing (drainControl n s p) = standing s :=
  standing_of_stores (sends_drainControl ..).stores

@[simp] theorem standing_sendNotice (s : State) (p a b c d e f : Nat) :
    standing (sendNotice s p a b c d e f) = standing s := by simp [sendNotice]

@[simp] theorem standing_sendDepart (s : State) (p reason : Nat) : standing (sendDepart s p reason) = standing s := by
  unfold sendDepart
  split <;> simp

@[simp] theorem standing_tellStripe (s : State) (p : Nat) : standing (tellStripe s p) = standing s :=
  standing_of_stores (stores_tellStripe ..)

@[simp] theorem standing_addPkt (s : State) (x : Pkt) : standing (addPkt s x) = standing s := standing_of_stores (stores_addPkt ..)

@[simp] theorem standing_dropPkt (s : State) (id : Nat) : standing (dropPkt s id) = standing s := standing_of_stores (stores_dropPkt ..)

@[simp] theorem standing_rechargePkt (s : State) (x : Pkt) (a : Account) : standing (rechargePkt s x a) = standing s :=
  standing_of_stores (stores_rechargePkt ..)

/-! ## Operations and commands that end (R102, R133) -/

@[simp] theorem standing_interrupts (s : State) (c : Nat) (vecs : List Nat) :
    standing (interrupts s c vecs) = standing s := by
  unfold interrupts
  split
  · rfl
  · exact standing_foldl (fun _ _ => standing_emit ..) ..

@[simp] theorem standing_fireThresholds (s : State) (c : Nat) : standing (fireThresholds s c) = standing s := by
  unfold fireThresholds
  dsimp only
  split
  · rfl
  · split <;> simp

@[simp] theorem standing_raiseCounter (s : State) (c k : Nat) : standing (raiseCounter s c k) = standing s := by
  unfold raiseCounter
  split
  · rfl
  · simp

@[simp] theorem standing_completeCmd (s : State) (c : Nat) (m : Cmd) (st : Status) :
    standing (completeCmd s c m st) = standing s := by
  unfold completeCmd finishCommand
  split
  · rfl
  · split
    · rfl
    · rw [standing_raiseCounter]
      split <;> simp

@[simp] theorem standing_closeOut (s : State) (tag : Nat) (t : Track) (stale syn : Bool) :
    standing (closeOut s tag t stale syn) = standing s := by
  rw [(closeOut_only s tag t stale syn).2]
  rfl

@[simp] theorem standing_apertureDone (s : State) (op : Op) (thread : BitVec 16) (addr : BitVec 64) (st : Status)
    (data : Bytes) (poison : BitVec 8) : standing (apertureDone s op thread addr st data poison) = standing s := by
  have hreply : standing (if op.kind = .load ∨ op.kind = .atomicFetch then
      emit s (.loadDone thread st (delivered op st data) (if st = .poisoned then poison else 0))
      else emit s (.storeDone thread st)) = standing s := by split <;> rfl
  unfold apertureDone
  dsimp only
  split
  · exact hreply
  · simpa [apertureFailure, reportCtx] using hreply

@[simp] theorem standing_messageEnd (s : State) (op : Op) (m : Cmd) (st : Status) (unc : Bool) :
    standing (messageEnd s op m st unc) = standing s := by
  unfold messageEnd
  split
  · rfl
  · split
    · rfl
    · dsimp only
      split
      · rfl
      · split <;> rfl

@[simp] theorem standing_settleCmd (s : State) (c num : Nat) : standing (settleCmd s c num) = standing s := by
  unfold settleCmd
  split
  · split <;> simp
  · rfl

@[simp] theorem standing_pieceEnd (s : State) (op : Op) (num : Nat) (st : Status) (unc : Bool) :
    standing (pieceEnd s op num st unc) = standing s := by
  unfold pieceEnd
  split
  · rfl
  · dsimp only
    rw [standing_settleCmd]
    split
    · split <;> rfl
    · split <;> simp

@[simp] theorem standing_feedStore (s : State) (op : Op) (num : Nat) (st : Status) (data : Bytes) (poison : BitVec 8) :
    standing (feedStore s op num st data poison) = standing s := by
  unfold feedStore
  split
  · dsimp only
    split <;> simp
  · rfl

@[simp] theorem standing_finishOp (s : State) (op : Op) (st : Status) (data : Bytes) (poison : BitVec 8) (unc : Bool) :
    standing (finishOp s op st data poison unc) = standing s := by
  unfold finishOp
  split
  · rfl
  · split
    · simp
    · split <;> simp
    · rfl

@[simp] theorem standing_endOp (s : State) (op : Op) (st : Status) (data : Bytes) (poison : BitVec 8)
    (unc stale syn : Bool) : standing (endOp s op st data poison unc stale syn) = standing s := by
  unfold endOp
  split
  · split
    · simp
    · rfl
  · simp

@[simp] theorem standing_completeTag (s : State) (tag : Nat) (st : Status) (data : Bytes) (poison : BitVec 8)
    (unc stale syn : Bool) : standing (completeTag s tag st data poison unc stale syn) = standing s := by
  unfold completeTag
  split
  · rfl
  · simp

@[simp] theorem standing_answerTag (s : State) (tag round : Nat) (st : Status) (data : Bytes) (poison : BitVec 8)
    (unc syn : Bool) : standing (answerTag s tag round st data poison unc syn) = standing s := by
  unfold answerTag
  split <;> simp

/-! ## Collectives (R172, R175, R177) -/

@[simp] theorem standing_unitCount (s : State) (u sub n : Nat) : standing (unitCount s u sub n) = standing s := by
  unfold unitCount
  dsimp only
  split <;> simp

@[simp] theorem standing_settlePress (s : State) (n : Nat) : standing (settlePress s n) = standing s := by
  unfold settlePress
  dsimp only
  split
  · split <;> simp
  · split <;> simp

@[simp] theorem standing_startLmc (s : State) (p cmd : Nat) (arg : BitVec 8) :
    standing (startLmc s p cmd arg) = standing s := by
  unfold startLmc
  dsimp only
  split
  · exact standing_setPort rfl
  · exact (standing_emit ..).trans (standing_setPort rfl)

@[simp] theorem standing_endSlice (s : State) (p : Nat) : standing (updPort s p endSlice) = standing s :=
  standing_updPort fun _ => rfl

@[simp] theorem standing_abandonSlice (s : State) (p : Nat) (cut : Bool) :
    standing (abandonSlice s p cut) = standing s := by
  unfold abandonSlice
  split
  · rfl
  · dsimp only
    split <;> simp

@[simp] theorem standing_noticeOn (s : State) (x : Coll) (a b d : Nat) (but : Option Nat) :
    standing (noticeOn s x a b d but) = standing s := by
  unfold noticeOn
  split
  · rfl
  · exact standing_foldl (fun _ _ => standing_sendNotice ..) ..

@[simp] theorem standing_markPort (on : Bool) (s : State) (p : Nat) : standing (markPort on s p) = standing s := by
  unfold markPort
  split
  · split <;> simp
  · split <;> simp

@[simp] theorem standing_remark (s : State) : standing (remark s) = standing s := by
  unfold remark
  dsimp only
  rw [standing_foldl, standing_foldl (standing_markPort _)]
  intro t u
  split <;> simp

@[simp] theorem standing_setLag (s : State) (c src lag time : Nat) (always : Bool) :
    standing (setLag s c src lag time always) = standing s := by
  unfold setLag
  split
  · rfl
  · dsimp only
    split
    · split <;> simp
    · simp

@[simp] theorem standing_driftColl (s : State) (c : Nat) : standing (driftColl s c) = standing s := by
  unfold driftColl
  split
  · rfl
  · split
    · dsimp only
      split
      · rfl
      · split <;> simp
    · rfl

@[simp] theorem standing_pressEnded (u : Nat) (before after : State) :
    standing (pressEnded u before after) = standing after := by
  unfold pressEnded
  split
  · exact standing_foldl standing_driftColl ..
  · rfl

@[simp] theorem standing_dropWaiting (s : State) (c : Nat) (x : Coll) : standing (dropWaiting s c x) = standing s := by
  unfold dropWaiting
  exact (standing_of_ports rfl rfl).trans (standing_foldl (fun _ _ => standing_dropPkt ..) ..)

@[simp] theorem standing_endColl (s : State) (c : Nat) (st : Status) : standing (endColl s c st) = standing s := by
  unfold endColl
  split
  · rfl
  · rename_i x _
    have hgone : standing (remark (dropWaiting { s with colls := tdel s.colls c } c x)) = standing s := by
      rw [standing_remark, standing_dropWaiting]
      rfl
    dsimp only
    split
    · rw [standing_completeCmd, hgone]
    · exact hgone

@[simp] theorem standing_undefinedResult (s : State) (x : Coll) : standing (undefinedResult s x) = standing s := by
  unfold undefinedResult
  split
  · rfl
  · exact standing_foldl standing_scramble ..

@[simp] theorem standing_settleAbort (s : State) (c : Nat) : standing (settleAbort s c) = standing s := by
  unfold settleAbort
  split
  · split
    · split <;> simp
    · rfl
  · rfl

@[simp] theorem standing_dropCollData (s : State) (c : Nat) (y : Coll) :
    standing (dropCollData s c y) = standing s := by
  unfold dropCollData
  dsimp only
  rw [standing_foldl fun t u => by rw [standing_pressEnded, standing_settlePress]]
  refine (standing_of_ports rfl rfl).trans ((standing_dropWaiting ..).trans ?_)
  exact standing_foldl (fun _ _ => standing_dropPkt ..) ..

@[simp] theorem standing_abortColl (s : State) (c : Nat) (st : Status) (own : Bool) :
    standing (abortColl s c st own) = standing s := by
  unfold abortColl
  split
  · rfl
  · dsimp only
    split
    · rfl
    · simp only [standing_settleAbort, standing_dropCollData, standing_putColl, standing_noticeOn]
      split <;> simp

@[simp] theorem standing_abortPort (s : State) (p : Nat) : standing (abortPort s p) = standing s :=
  standing_foldl (fun _ _ => standing_abortColl ..) ..

/-! ## Link down (R298, R299) -/

@[simp] theorem standing_sendSynthetic (s : State) (x : Pkt) (st : Status) :
    standing (sendSynthetic s x st) = standing s := by
  unfold sendSynthetic owe
  dsimp only
  split
  · rfl
  · split
    · simp
    · split <;> simp
    · simp

@[simp] theorem standing_keepHere (s : State) (x : Pkt) : standing (keepHere s x) = standing s := by
  unfold keepHere
  dsimp only
  split
  · simp
  · split <;> simp

@[simp] theorem standing_loseOnLink (s : State) (x : Pkt) : standing (loseOnLink s x) = standing s := by
  unfold loseOnLink
  split <;> simp

@[simp] theorem standing_restartLanes (s : State) (p : Nat) (off : Bool) :
    standing (restartLanes s p off) = standing s :=
  (standing_foldl (fun _ _ => standing_updOctet ..) ..).trans (standing_foldl (fun _ _ => standing_updLane ..) ..)

@[simp] theorem standing_degradeHome (s : State) (p : Nat) : standing (degradeHome s p) = standing s :=
  standing_updPort fun _ => rfl

@[simp] theorem standing_accrue (s : State) (p : Nat) : standing (accrue s p) = standing s := standing_updLink ..

@[simp] theorem standing_downPort (s t : State) (p : Nat) (absent : Bool) :
    standing (updPort s p (downPort t absent)) = standing s := standing_updPort fun _ => rfl

@[simp] theorem standing_linkDown (s : State) (p cause reason : Nat) :
    standing (linkDown s p cause reason) = standing s := by
  have hlost (l : List Pkt) (t : State) : standing (l.foldl loseOnLink t) = standing t :=
    standing_foldl standing_loseOnLink l t
  unfold linkDown
  dsimp only
  rw [standing_reportDown]
  split <;> simp [hlost]

/-! ## A port that enters service, and hailing -/

@[simp] theorem standing_restoreHome (s : State) (p : Nat) : standing (restoreHome s p) = standing s := by
  unfold restoreHome
  split
  · exact standing_updPort fun _ => rfl
  · rfl

@[simp] theorem standing_sendLinkStart (s : State) (p : Nat) : standing (sendLinkStart s p) = standing s :=
  standing_of_stores (sends_sendLinkStart ..).stores

@[simp] theorem standing_enterWorking (s : State) (p : Nat) : standing (enterWorking s p) = standing s := by
  unfold enterWorking
  dsimp only
  set t := updPort (sendLinkStart s p) p fun y => { y with
    state := workState s p, missing := false, beaconAt := s.clock,
    link := { y.link with heard := s.clock, statusAt := s.clock, startFrom := none } } with ht
  have hworks : standing t = standing s := (standing_updPort fun _ => by rfl).trans (standing_sendLinkStart s p)
  clear_value t
  have hshort (u : State) :
      standing (reportShort { u with tables := { u.tables with worked := true, retiredSelf := false } } p []) = standing u :=
    (standing_of_reported (reported_reportShort ..)).trans rfl
  rw [standing_of_stores (stores_refreshXoff ..)]
  simp only [apply_ite standing, standing_report, ite_self]
  rw [hshort, ← hworks]
  split
  · exact standing_restoreHome ..
  · exact standing_tellStripe ..

@[simp] theorem standing_tryEnter (s : State) (p : Nat) : standing (tryEnter s p) = standing s := by
  unfold tryEnter
  dsimp only
  split
  · rfl
  · split
    · split
      · exact standing_setPort rfl
      · rfl
    · split
      · exact standing_enterWorking ..
      · rfl

theorem standing_decideHail (s : State) (p : Nat) (b : BitVec 256) : standing (decideHail s p b) = standing s := by
  unfold decideHail
  dsimp only
  generalize hailCheck s p b = check
  set t := (if outcomeOf check ≠ 1 ∧ !(decide ((port s p).outcome ≠ 0) && (port s p).reported == some (outcomeOf check, check)) then
    report (logHail s p (outcomeOf check) check b) 2 p (if outcomeOf check = 2 then 0xB else 0xC) (hailNode b).toNat
    else logHail s p (outcomeOf check) check b) with ht
  have hlogged : standing t = standing s := by
    rw [ht]
    split
    · exact standing_report ..
    · rfl
  clear_value t
  split
  · exact (standing_tryEnter ..).trans ((standing_sendLinkStart ..).trans ((standing_setPort (by rfl)).trans hlogged))
  · exact (standing_setPort (by rfl)).trans hlogged

theorem standing_decideAgain (s : State) (p : Nat) : standing (decideAgain s p) = standing s := by
  unfold decideAgain
  dsimp only
  split
  · split
    · exact standing_decideHail ..
    · rfl
  · rfl

/-! ## A change of incarnation (R60) -/

theorem standing_incarnationPorts (s : State) (n : NodeId) : standing (incarnationPorts s n) = standing s := by
  refine standing_foldl (fun t p => ?_) ..
  dsimp only
  split
  · rfl
  · split
    · exact standing_linkDown ..
    · exact standing_decideAgain ..

theorem standing_abortNode (s : State) (n : NodeId) : standing (abortNode s n) = standing s :=
  standing_foldl (fun _ _ => standing_abortColl ..) ..

theorem standing_retireOps (s : State) (n : NodeId) : standing (retireOps s n) = standing s :=
  standing_foldl (fun _ _ => standing_completeTag ..) ..

theorem standing_incarnationChanged (s : State) (n : NodeId) : standing (incarnationChanged s n) = standing s := by
  unfold incarnationChanged
  rw [standing_incarnationPorts, standing_abortNode, standing_retireOps]
  split <;> rfl

end Sys2Proof.Machine
end

section
/-! Heat and energy (chapter 13): the sensors, the thermal hold, the activity and the Meridian minute. -/

namespace Sys2Proof.Machine
open Sys2Proof

/-! ## The sensors (R411, R412) -/

/-- What the cases and crossings of the sensors leave, with each sensor's reading and whether it has failed. -/
def readSide (s : State) : (Nat → Int × Bool) × Memory × Tbl Ctx × Tbl Coll × Pins × Mt × Int :=
  (fun k => ((sensor s k).reading, (sensor s k).failed), s.mem, s.ctxs, s.colls, s.pins, s.power.sensorAt, s.power.warnLevel)

theorem readSide_setSensor {s : State} {n : Nat} {x : Sensor} (hreading : x.reading = (sensor s n).reading)
    (hfailed : x.failed = (sensor s n).failed) :
    readSide (setPow s fun p => { p with sensors := tput p.sensors n x }) = readSide s := by
  refine Prod.ext (funext fun k => ?_) rfl
  by_cases hk : k = n
  · subst hk
    have hself : sensor (setPow s fun p => { p with sensors := tput p.sensors k x }) k = x := tgetD_tput_self ..
    simp only [readSide, hself, hreading, hfailed]
  · have hother : sensor (setPow s fun p => { p with sensors := tput p.sensors n x }) k = sensor s k := 
      tgetD_tput_ne _ _ _ _ _ (Ne.symm hk)
    simp only [readSide, hother]

theorem readSide_report (s : State) (cls idx kind addr : Nat) : readSide (report s cls idx kind addr) = readSide s := by
  have hreported := reported_report s cls idx kind addr
  generalize report s cls idx kind addr = t at *
  rw [hreported]
  rfl

theorem readSide_noteCases (s : State) (n : Nat) : readSide (noteCases s n) = readSide s := readSide_setSensor rfl rfl

theorem readSide_noteCross (s : State) (n : Nat) : readSide (noteCross s n) = readSide s := by
  unfold noteCross
  dsimp only
  split
  · exact (readSide_report ..).trans (readSide_setSensor rfl rfl)
  · exact readSide_setSensor rfl rfl

/-- What the settings leave of the sensors and of the pins. -/
def heatSide (s : State) : Tbl Sensor × Mt × Pins × Memory × Tbl Ctx × Tbl Coll :=
  (s.power.sensors, s.power.sensorAt, s.pins, s.mem, s.ctxs, s.colls)

theorem heatSide_of_settleSide {s t : State} (h : settleSide t = settleSide s) : heatSide t = heatSide s :=
  (congrArg (fun x => heatSide x.1) h :)

theorem heatSide_settleNow {s : State} (hcolls : s.colls = []) : heatSide (settleNow s) = heatSide s :=
  heatSide_of_settleSide (settleSide_settleNow hcolls)

theorem heatSide_thermalStep (s : State) : heatSide (thermalStep s) = heatSide s := heatSide_of_settleSide (settleSide_thermalStep s)

theorem heatSide_settled {s : State} {c : Prop} [Decidable c] (hcolls : s.colls = []) :
    heatSide (if c then s else settleNow s) = heatSide s := by
  split
  · rfl
  · exact heatSide_settleNow hcolls

theorem heatSide_criticalStep {s : State} (hcolls : s.colls = []) : heatSide (criticalStep s) = heatSide s := by
  unfold criticalStep
  dsimp only
  split
  · exact (heatSide_settled (by exact hcolls)).trans rfl
  · rfl

/-- Some sensor uses a temperature of the level or above. -/
theorem anyHot_iff {s : State} {level : Int} (hgood : ∀ k, (sensor s k).failed = false) :
    anyHot s level = true ↔ ∃ k, sensorPresent s k = true ∧ level ≤ (sensor s k).reading := by
  have hused (n : Nat) : tempUsed s n = (sensor s n).reading := if_neg (by simp [hgood n])
  have hpresent {n : Nat} (h : sensorPresent s n = true) : n < 64 := by
    simp only [sensorPresent, Bool.or_eq_true, Bool.and_eq_true, decide_eq_true_eq] at h
    omega
  simp only [anyHot, hotAt, sensorsHere, Bool.or_eq_true, List.any_eq_true, List.mem_filter, List.mem_range, Bool.and_eq_true,
    decide_eq_true_eq, hused]
  constructor
  · rintro (⟨n, ⟨_, hn⟩, _, hlevel⟩ | ⟨n, ⟨_, hn⟩, _, hlevel⟩)
    · exact ⟨n, hn, hlevel⟩
    · exact ⟨n, hn, hlevel⟩
  · rintro ⟨n, hn, hlevel⟩
    by_cases h32 : 32 ≤ n
    · exact .inr ⟨n, ⟨hpresent hn, hn⟩, by simpa using h32, hlevel⟩
    · exact .inl ⟨n, ⟨hpresent hn, hn⟩, by simpa using h32, hlevel⟩

/-- The readings of one sensor are taken, and the others stay. -/
theorem takeReading_present {s : State} {n : Fin 64} {r : Int} (hpresent : sensorPresent s n = true) :
    (sensor (takeReading s (n, r)) n).reading = r ∧ (sensor (takeReading s (n, r)) n).failed = (sensor s n).failed ∧
      (∀ k, k ≠ n.val → sensor (takeReading s (n, r)) k = sensor s k) ∧
      takeReading s (n, r) = { s with power := { s.power with sensors := (takeReading s (n, r)).power.sensors } } := by
  unfold takeReading
  dsimp only
  rw [if_neg (by simp [hpresent])]
  have hself (x : Sensor) : sensor (setPow s fun p => { p with sensors := tput p.sensors n x }) n = x := tgetD_tput_self ..
  refine ⟨by rw [hself], by rw [hself], fun k hk => ?_, rfl⟩
  exact tgetD_tput_ne _ _ _ _ _ (Ne.symm hk)

/-- What the levels, the settings and the critical step make of the sensors that were read. -/
theorem alerted {w : State} {c : Prop} [Decidable c] (hcolls : w.colls = []) (hgood : ∀ k, (sensor w k).failed = false) :
    ∃ t, t = criticalStep (if c then settleNow (thermalStep (noteLevels w)) else noteLevels w) ∧ (∀ k, sensor t k = sensor w k) ∧
      t.power.sensorAt = w.power.sensorAt ∧ t.mem = w.mem ∧ t.ctxs = w.ctxs ∧
      (t.pins.thermAlert = true ↔ ∃ k, sensorPresent w k = true ∧ w.power.warnLevel ≤ (sensor w k).reading) := by
  have hlevels : (noteLevels w).colls = [] := hcolls
  have hstep : (thermalStep (noteLevels w)).colls = [] := (colls_of_settleSide (settleSide_thermalStep _)).trans hcolls
  have hchosen : heatSide (if c then settleNow (thermalStep (noteLevels w)) else noteLevels w) = heatSide (noteLevels w) := by
    split
    · exact (heatSide_settleNow hstep).trans (heatSide_thermalStep _)
    · rfl
  generalize (if c then settleNow (thermalStep (noteLevels w)) else noteLevels w) = v at *
  have ht : heatSide (criticalStep v) = heatSide (noteLevels w) :=
    (heatSide_criticalStep ((congrArg (fun x => x.2.2.2.2.2) hchosen).trans hlevels)).trans hchosen
  generalize criticalStep v = t at *
  simp only [heatSide, Prod.mk.injEq] at ht
  obtain ⟨hsensors, hstamp, hpins, hmem, hctxs, -⟩ := ht
  refine ⟨t, rfl, fun k => ?_, hstamp, hmem, hctxs, ?_⟩
  · rw [sensor, hsensors]
    rfl
  · rw [hpins]
    exact anyHot_iff hgood

/-- The sensors, once a reading has come. -/
theorem sensorRead_taken {n : Fin 64} {r : Int} {s : State} (hphase : s.phase = .running) (hdue : s.power.sensorAt + 4000000 ≤ s.clock)
    (hcolls : s.colls = []) (hgood : ∀ k, (sensor s k).failed = false) (hpresent : sensorPresent s n = true) :
    ∃ t, t = sensorRead [(n, r)] s ∧ (sensor t n).reading = r ∧ t.power.sensorAt = s.clock ∧
      (∀ k, k ≠ n.val → (sensor t k).reading = (sensor s k).reading) ∧
      (t.pins.thermAlert = true ↔ ∃ k, sensorPresent s k = true ∧ s.power.warnLevel ≤ (sensor t k).reading) ∧
      t.mem = s.mem ∧ t.ctxs = s.ctxs := by
  obtain ⟨hreading, hfailed, hothers, honly⟩ := takeReading_present (r := r) hpresent
  unfold sensorRead
  rw [if_neg (by simp [hphase, passed, msMt, hdue])]
  rw [List.foldl_cons, List.foldl_nil]
  generalize takeReading s (n, r) = u at *
  dsimp only
  have hnoted (l k : List Nat) : readSide (k.foldl noteCross (l.foldl noteCases (setPow u fun p => { p with sensorAt := s.clock, msBlocks := [] }))) =
      readSide { u with power := { u.power with sensorAt := s.clock } } :=
    (foldl_keeps readSide noteCross readSide_noteCross k _).trans (foldl_keeps readSide noteCases readSide_noteCases l _)
  have hw := hnoted (sensorsHere u) (sensorsHere ((sensorsHere u).foldl noteCases (setPow u fun p => { p with sensorAt := s.clock, msBlocks := [] })))
  generalize List.foldl noteCross _ _ = w at *
  simp only [readSide, Prod.mk.injEq] at hw
  obtain ⟨hreads, hmem, hctxs, hwcolls, hpins, hstamp, hwarn⟩ := hw
  have hread (k : Nat) : (sensor w k).reading = (sensor u k).reading := congrArg Prod.fst (congrFun hreads k)
  have hfine (k : Nat) : (sensor w k).failed = false := by
    refine (congrArg Prod.snd (congrFun hreads k)).trans ?_
    show (sensor u k).failed = false
    by_cases hk : k = n.val
    · rw [hk, hfailed, hgood]
    · rw [hothers k hk, hgood]
  have hpresence : sensorPresent w = sensorPresent s := by
    funext k
    rw [sensorPresent, isMaster, hpins, honly]
    rfl
  obtain ⟨t, ht, hsensors, hstamp', hmem', hctxs', halert⟩ := alerted (c := (!timed (noteLevels w)) = true ∧
    ((sensorsHere w).any fun n => (sensor w n).crossed && !(sensor s n).crossed) = true) (hwcolls.trans (by rw [honly]; exact hcolls)) hfine
  refine ⟨t, ht, ?_, hstamp'.trans hstamp, fun k hk => ?_, ?_, ?_, ?_⟩
  · rw [hsensors, hread, hreading]
  · rw [hsensors, hread, hothers k hk]
  · rw [halert, hpresence, hwarn]
    simp only [hsensors]
    rw [show u.power.warnLevel = s.power.warnLevel by rw [honly]]
  · rw [hmem', hmem, honly]
  · rw [hctxs', hctxs, honly]

theorem pins_raiseReplace (s : State) (n : Nat) : (raiseReplace s n).pins =
    { s.pins with replaceReq := s.pins.replaceReq || (raiseReplace s n).faults.reasons != s.faults.reasons } := by
  rw [(raiseReplace_keeps s n).2.1]
  unfold raiseReplace
  dsimp only
  split
  · next h => rw [bne_eq_false_iff_eq.mpr h, Bool.or_false]
  · next h =>
    rw [(told_pushEvent ..).only, bne_iff_ne.mpr h, Bool.or_true]

/-- A sensor whose failing case has held long enough is marked failed, reported, and the replace request is raised. -/
theorem sensorFailed_marks {n : Fin 64} {s : State} {x : Nat × Mt} (hawake : awake s = true) (hpresent : sensorPresent s n = true)
    (hgood : (sensor s n).failed = false) (hbad : x ∈ (sensor s n).badFrom) (hdue : x.2 + 4000000000 ≤ s.clock) :
    ∃ t, t = sensorFailed n s ∧ sensor t n = { sensor s n with failed := true } ∧ CountedFault 0xC n s t ∧
      t.faults.reasons = s.faults.reasons ||| 16#32 ∧ t.pins.replaceReq = (s.pins.replaceReq || t.faults.reasons != s.faults.reasons) ∧
      (∀ k, k ≠ n.val → sensor t k = sensor s k) ∧ t.mem = s.mem ∧ t.ctxs = s.ctxs := by
  have hany : ((sensor s n).badFrom.any fun c => passed s c.2 (secMt 1)) = true :=
    List.any_eq_true.mpr ⟨x, hbad, decide_eq_true hdue⟩
  unfold sensorFailed
  dsimp only
  rw [if_pos ⟨hpresent, by simp [hgood], hany⟩]
  have hself : sensor (setPow s fun p => { p with sensors := tput p.sensors n { sensor s n with failed := true } }) n =
    { sensor s n with failed := true } := tgetD_tput_self ..
  have hothers (k : Nat) (hk : k ≠ n.val) :
      sensor (setPow s fun p => { p with sensors := tput p.sensors n { sensor s n with failed := true } }) k = sensor s k :=
    tgetD_tput_ne _ _ _ _ _ (Ne.symm hk)
  have honly : setPow s (fun p => { p with sensors := tput p.sensors n { sensor s n with failed := true } }) =
    { s with power := (setPow s fun p => { p with sensors := tput p.sensors n { sensor s n with failed := true } }).power } := rfl
  generalize setPow s (fun p => { p with sensors := tput p.sensors n { sensor s n with failed := true } }) = v at *
  have hawake' : awake v = true := by
    rw [honly]
    exact hawake
  have hreported := reported_report v 0xC n 1 (ofSigned 32 (sensor s n).reading)
  have hcounted := countedFault_report hawake' 0xC n 1 (ofSigned 32 (sensor s n).reading)
  have hreasons : (report v 0xC n 1 (ofSigned 32 (sensor s n).reading)).faults.reasons = v.faults.reasons := reasons_raiseReport ..
  generalize report v 0xC n 1 (ofSigned 32 (sensor s n).reading) = w at *
  have hreplaced := replaced_raiseReplace w 4
  have hraised := (raiseReplace_keeps w 4).2.1
  have hpins := congrArg Pins.replaceReq (pins_raiseReplace w 4)
  generalize raiseReplace w 4 = t at *
  have hv : v.faults = s.faults ∧ v.pins = s.pins ∧ v.mem = s.mem ∧ v.ctxs = s.ctxs ∧ v.regs = s.regs := by
    rw [honly]
    exact ⟨rfl, rfl, rfl, rfl, rfl⟩
  obtain ⟨hfaults, hvpins, hmem, hctxs, hregs⟩ := hv
  have hsensor (k : Nat) : sensor t k = sensor v k := by
    rw [sensor, hreplaced.only, hreported]
    rfl
  refine ⟨t, rfl, (hsensor n).trans hself, ?_, ?_, ?_, fun k hk => (hsensor k).trans (hothers k hk), ?_, ?_⟩
  · refine (hreplaced.regs _ _ _ (by unfold regKey; omega)).trans (hcounted.trans ?_)
    exact regAt_bumpAt_congr (by rw [regAt, hregs]; rfl)
  · rw [hraised, hreasons, hfaults]
    rfl
  · rw [hpins, hreasons, hfaults]
    rw [show w.pins = s.pins by rw [hreported, hvpins]]
  · rw [hreplaced.only, hreported]
    exact hmem
  · rw [hreplaced.only, hreported]
    exact hctxs

/-! ## The thermal hold (R414) -/

/-- Where each step gives a part of its own port the value `v` and leaves the others', a fold gives it to every port of the
list. -/
theorem marked_foldl {β : Type} {g : Port → β} {f : State → Nat → State} {v : β} {good : State → Prop}
    (h : ∀ a p, good a → good (f a p) ∧ g (port (f a p) p) = v ∧ ∀ q, q ≠ p → g (port (f a p) q) = g (port a q))
    (l : List Nat) {a : State} (ha : good a) :
    good (l.foldl f a) ∧ (∀ q, g (port a q) = v ∨ q ∈ l → g (port (l.foldl f a) q) = v) := by
  induction l generalizing a with
  | nil => exact ⟨ha, fun q hq => hq.resolve_right (List.not_mem_nil)⟩
  | cons p r ih =>
    obtain ⟨hgood, hself, hothers⟩ := h a p ha
    obtain ⟨hend, hall⟩ := ih hgood
    refine ⟨hend, fun q hq => hall q ?_⟩
    by_cases hqp : q = p
    · exact .inl (by rw [hqp, hself])
    · exact hq.imp (fun hv => (hothers q hqp).trans hv) fun hmem => (List.mem_cons.mp hmem).resolve_left hqp

theorem onlyPorts_of_noPorts {s t : State} (h : noPorts t = noPorts s) : t = onlyPorts s t :=
  calc t = onlyPorts (noPorts t) t := rfl
    _ = onlyPorts (noPorts s) t := by rw [h]
    _ = onlyPorts s t := rfl

theorem standing_releasePort (s : State) (p : Nat) : standing (releasePort s p) = standing s := by
  unfold releasePort
  split
  · exact (standing_restartLanes ..).trans (standing_updPort fun _ => by rfl)
  · rfl

/-- The critical hold marks every formed port, and stops it. -/
theorem criticalHoldTimeout_absent {s : State} {a : Mt} (hcrit : s.power.critFrom = some a) (hdue : a + 40000000 ≤ s.clock)
    (habsent : ∀ p, (port s p).state = .absent) :
    (∀ p ∈ formedPorts s, (port (criticalHoldTimeout s) p).thermOff = true) ∧ criticalHoldTimeout s = onlyPorts s (criticalHoldTimeout s) := by
  have hstep : ∀ u p, (noPorts u = noPorts s ∧ ∀ q, (port u q).state = .absent) →
      let v := if (port u p).thermOff then u else stopPort (updPort u p fun x => { x with thermOff := true }) p
      (noPorts v = noPorts s ∧ ∀ q, (port v q).state = .absent) ∧ (port v p).thermOff = true ∧
        ∀ q, q ≠ p → (port v q).thermOff = (port u q).thermOff := by
    rintro u p ⟨hu, hstates⟩
    dsimp only
    split
    · next hoff => exact ⟨⟨hu, hstates⟩, hoff, fun _ _ => rfl⟩
    · have hports : (stopPort (updPort u p fun x => { x with thermOff := true }) p) =
          restartLanes (updPort (updPort u p fun x => { x with thermOff := true }) p fun x => { x with waitSignal := false }) p true := by
        rw [stopPort, port_updPort, if_pos (by exact hstates p)]
      rw [hports]
      refine ⟨⟨(noPorts_restartLanes ..).trans hu, fun q => ?_⟩, ?_, fun q hq => ?_⟩
      · rw [port_restartLanes]
        by_cases hq : q = p
        · rw [hq, port_updPort, port_updPort]
          exact hstates p
        · rw [port_updPort_ne _ _ (Ne.symm hq), port_updPort_ne _ _ (Ne.symm hq)]
          exact hstates q
      · rw [port_restartLanes, port_updPort, port_updPort]
      · rw [port_restartLanes, port_updPort_ne _ _ (Ne.symm hq), port_updPort_ne _ _ (Ne.symm hq)]
  have hall := marked_foldl (g := Port.thermOff) hstep (formedPorts s) (a := s) ⟨rfl, habsent⟩
  unfold criticalHoldTimeout
  rw [hcrit]
  dsimp only
  have hpassed : passed s a (msMt 10) = true := decide_eq_true hdue
  rw [if_pos hpassed]
  exact ⟨fun p hp => hall.2 p (.inr hp), onlyPorts_of_noPorts hall.1.1⟩

/-- The critical hold takes down a port that trains or works. -/
theorem criticalHoldTimeout_down {s : State} {a : Mt} {p : Nat} (hcrit : s.power.critFrom = some a) (hdue : a + 40000000 ≤ s.clock)
    (hformed : formedPorts s = [p]) (hup : (port s p).state ≠ .absent) (hon : (port s p).thermOff = false) :
    (port (criticalHoldTimeout s) p).thermOff = true ∧ WentDown p 8 (criticalHoldTimeout s) := by
  have hp : p < 12 := by
    have hmem : p ∈ formedPorts s := by simp [hformed]
    exact List.mem_range.mp (List.mem_filter.mp hmem).1
  have hrun : criticalHoldTimeout s = linkDown (sendDepart (updPort s p fun x => { x with thermOff := true }) p 2) p 8 0 := by
    unfold criticalHoldTimeout
    rw [hcrit]
    dsimp only
    have hpassed : passed s a (msMt 10) = true := decide_eq_true hdue
    rw [if_pos hpassed, hformed, List.foldl_cons, List.foldl_nil, if_neg (by simp [hon]), stopPort, port_updPort,
      if_neg (by exact hup)]
  rw [hrun]
  refine ⟨?_, wentDown_linkDown hp ..⟩
  have hstands := congrFun (congrArg Prod.snd ((standing_linkDown (sendDepart (updPort s p fun x => { x with thermOff := true }) p 2) p 8 0).trans
    (standing_sendDepart ..))) p
  refine hstands.trans ?_
  show (port (updPort s p fun x => { x with thermOff := true }) p).thermOff = true
  rw [port_updPort]

/-- The release clears every formed port's mark. -/
theorem thermalRelease_clears {s : State} {a : Mt} (hbelow : s.power.belowFrom = some a) (hdue : a + 4000000000 ≤ s.clock) :
    (∀ p ∈ formedPorts s, (port (thermalRelease s) p).thermOff = false) ∧ thermalRelease s = onlyPorts s (thermalRelease s) := by
  have hstep : ∀ u p, noPorts u = noPorts s →
      let v := if (port u p).thermOff then releasePort (updPort u p fun x => { x with thermOff := false }) p else u
      noPorts v = noPorts s ∧ (port v p).thermOff = false ∧ ∀ q, q ≠ p → (port v q).thermOff = (port u q).thermOff := by
    intro u p hu
    dsimp only
    split
    · have hstands := congrArg Prod.snd (standing_releasePort (updPort u p fun x => { x with thermOff := false }) p)
      refine ⟨(noPorts_releasePort ..).trans hu, (congrFun hstands p).trans ?_, fun q hq => (congrFun hstands q).trans ?_⟩
      · show (port (updPort u p fun x => { x with thermOff := false }) p).thermOff = false
        rw [port_updPort]
      · show (port (updPort u p fun x => { x with thermOff := false }) q).thermOff = (port u q).thermOff
        rw [port_updPort_ne _ _ (Ne.symm hq)]
    · next hoff => exact ⟨hu, by simpa using hoff, fun _ _ => rfl⟩
  have hall := marked_foldl (g := Port.thermOff) hstep (formedPorts s) (a := s) rfl
  unfold thermalRelease
  rw [hbelow]
  dsimp only
  have hpassed : passed s a (secMt 1) = true := decide_eq_true hdue
  rw [if_pos hpassed]
  exact ⟨fun p hp => hall.2 p (.inr hp), onlyPorts_of_noPorts hall.1⟩

end Sys2Proof.Machine
end

section
/-! Energy and the Meridian minute (R403, R407, R418). -/

namespace Sys2Proof.Machine
open Sys2Proof

/-! ## Activity and coefficients -/

/-- Every block belongs to one of the four parts, so their energies together are those of all blocks. -/
theorem partEnergy_sum (l : List (Nat × Nat)) :
    partEnergy l 0 + partEnergy l 1 + partEnergy l 2 + partEnergy l 3 = (l.map (·.2)).sum := by
  have hpart (i : Nat) : partEnergy l i = ((l.filter fun x => blockPart x.1 == i).map (·.2)).sum := by
    rw [partEnergy, List.sum_eq_foldl]
  simp only [hpart]
  clear hpart
  induction l with
  | nil => rfl
  | cons x r ih =>
    have hcases : blockPart x.1 = 0 ∨ blockPart x.1 = 1 ∨ blockPart x.1 = 2 ∨ blockPart x.1 = 3 := by
      unfold blockPart
      split
      · exact .inl rfl
      · split
        · exact .inr (.inl rfl)
        · split
          · exact .inr (.inr (.inl rfl))
          · exact .inr (.inr (.inr rfl))
    rw [List.map_cons, List.sum_cons, ← ih]
    obtain h | h | h | h := hcases <;> simp [h] <;> omega

theorem activitySample_total {a : Activity} {s : State} (hphase : s.phase = .running) (hdue : s.power.sampleAt + 40000 ≤ s.clock) :
    ∃ t, t = activitySample a s ∧ t.power.sampleAt = s.clock ∧
      t.power.total = s.power.total + ((a.counts.filter fun x => sensorPresent s x.1).map fun x => x.2 * blockCoeff s x.1).sum ∧
      t = { s with power := t.power } := by
  refine ⟨_, rfl, ?_⟩
  have hdone : passed s s.power.sampleAt (usMt 10) = true := decide_eq_true hdue
  unfold activitySample
  rw [if_neg (by simp [hphase, hdone])]
  refine ⟨rfl, ?_, rfl⟩
  have hsum := partEnergy_sum (blockEnergies s a)
  have hblocks : (blockEnergies s a).map (·.2) = (a.counts.filter fun x => sensorPresent s x.1).map fun x => x.2 * blockCoeff s x.1 := by
    simp [blockEnergies]
  rw [← hblocks, ← hsum]
  show s.power.total + (0 + partEnergy (blockEnergies s a) 0 + partEnergy (blockEnergies s a) 1 + partEnergy (blockEnergies s a) 2 +
    partEnergy (blockEnergies s a) 3) = _
  rw [Nat.zero_add]

theorem tget_listed {α : Type} (g : Nat → α) {l : List Nat} {n : Nat} (h : n ∈ l) : tget (l.map fun k => (k, g k)) n = some (g n) := by
  induction l with
  | nil => cases h
  | cons k r ih =>
    by_cases hk : n = k
    · simp [tget, hk]
    · have hr : n ∈ r := (List.mem_cons.mp h).resolve_left hk
      simpa [tget, hk] using ih hr

theorem sensorsHere_of_present {s : State} {n : Nat} (h : sensorPresent s n = true) : n ∈ sensorsHere s := by
  refine List.mem_filter.mpr ⟨List.mem_range.mpr ?_, h⟩
  simp only [sensorPresent, Bool.or_eq_true, Bool.and_eq_true, decide_eq_true_eq] at h
  omega

theorem coefficientCorrection_corrects {s : State} {a : Mt} (hrail : s.power.railAt = some a)
    (hdue : s.power.corrAt + 4000000000 ≤ s.clock) (hsince : s.power.corrAt ≤ a) :
    ∃ t, t = coefficientCorrection s ∧ (∀ n, sensorPresent s n = true →
        tget t.power.coeff n = some (Config.correctedCoeff n (reg s 0x6400 0xB) (blockCoeff s n))) ∧
      t = { s with power := { s.power with corrAt := s.clock, coeff := t.power.coeff } } := by
  refine ⟨_, rfl, ?_⟩
  have hpassed : passed s s.power.corrAt (secMt 1) = true := decide_eq_true hdue
  unfold coefficientCorrection
  rw [hrail]
  dsimp only
  rw [if_pos ⟨hpassed, hsince⟩]
  exact ⟨fun n hn => tget_listed (fun k => Config.correctedCoeff k (reg s 0x6400 0xB) (blockCoeff s k)) (sensorsHere_of_present hn), rfl⟩

/-! ## The Meridian minute -/

/-- The registers between the events' and the faults' stand as they were. -/
def KeysKept (s t : State) : Prop := ∀ k, regKey 0x2000 0 0 ≤ k → k < regKey 0x7000 0 0 → tget t.regs k = tget s.regs k

theorem keysKept_refl (s : State) : KeysKept s s := fun _ _ _ => rfl

theorem keysKept_trans {s t u : State} (h : KeysKept s t) (k : KeysKept t u) : KeysKept s u :=
  fun n hlow hhigh => (k n hlow hhigh).trans (h n hlow hhigh)

theorem keysKept_of_regs {s t : State} (h : t.regs = s.regs) : KeysKept s t := fun _ _ _ => by rw [h]

theorem keysKept_bumpBy {s : State} {i j k n : Nat} (h : regKey i j k < regKey 0x2000 0 0 ∨ regKey 0x7000 0 0 ≤ regKey i j k) :
    KeysKept s (bumpBy s i j k n) := fun m hlow hhigh => tget_tput_ne _ _ _ _ (by omega)

theorem keysKept_pushEvent (s : State) (kind time : Nat) (body : Bytes) : KeysKept s (pushEvent s kind time body) := by
  by_cases hphase : s.phase = .running ∨ s.phase = .cut ∨ s.phase = .recovery
  · obtain ⟨e, he⟩ := pushEvent_eq kind time body hphase
    have hroom : KeysKept s (roomMade (bump s 0x1010 6)) := by
      refine keysKept_trans (keysKept_bumpBy (i := 0x1010) (j := 6) (k := 0) (n := 1) (.inl (by decide))) ?_
      unfold roomMade
      split
      · exact keysKept_trans (keysKept_bumpBy (i := 0x1010) (j := 7) (k := 0) (n := 1) (.inl (by decide))) (keysKept_of_regs rfl)
      · exact keysKept_refl _
    rw [he]
    generalize roomMade (bump s 0x1010 6) = u at *
    split
    · exact hroom
    · refine keysKept_trans hroom (keysKept_of_regs ?_)
      rw [sendFrame_only]
      rfl
  · rw [pushEvent, if_neg hphase]
    exact keysKept_refl s

theorem keysKept_raiseReport (s : State) (r : Report) : KeysKept s (raiseReport s r) := by
  unfold raiseReport
  split
  · have hsource : KeysKept s (bumpAt s 0x7100 2 (sourceNo r.cls r.idx)) := keysKept_bumpBy (.inr (by unfold regKey; omega))
    unfold toIntake
    dsimp only
    split
    · exact hsource
    · exact keysKept_trans hsource (keysKept_bumpBy (i := 0x7000) (j := 9) (k := 0) (n := 1) (.inr (by decide)))
  · exact keysKept_refl s

theorem keysKept_raiseReplace (s : State) (n : Nat) : KeysKept s (raiseReplace s n) := by
  unfold raiseReplace
  dsimp only
  split
  · exact keysKept_refl s
  · exact keysKept_trans (keysKept_of_regs rfl) (keysKept_pushEvent _ _ _ _)

theorem regAt_of_keys {s t : State} (h : KeysKept s t) {i j k : Nat} (hlow : regKey 0x2000 0 0 ≤ regKey i j k)
    (hhigh : regKey i j k < regKey 0x7000 0 0) : regAt t i j k = regAt s i j k := by
  rw [regAt, regAt, h _ hlow hhigh]

theorem trimmedMax_of_keys {s t : State} (h : KeysKept s t) {u : Nat} (hu : u < 16) : trimmedMax t u = trimmedMax s u := by
  rw [trimmedMax, trimmedMax, h _ (by unfold regKey; omega) (by unfold regKey; omega)]

/-- The end of a Meridian minute but for the margins. -/
def minuteClosed (s : State) : State :=
  setMer (logSensors (closeReport s false)) fun x => { x with
    minute := s.mer.count / minuteMt, flagUnlocked := x.state != .locked, flagStepped := x.halfRate, flagHold := x.state == .holdover }

theorem closeReport_eq (s : State) : ∃ p f, closeReport s false = pushEvent { s with power := p, flash := f } 2 (stamp s) (energyReport s false) ∧
    p.reports = (energyReport s false :: s.power.reports).take 16 ∧ p.energy = [0, 0, 0, 0] := ⟨_, _, rfl, rfl, rfl⟩

/-- What the end of a minute leaves of the time, and how its report is kept. -/
theorem closeReport_effect (s : State) : (closeReport s false).mer = s.mer ∧
    (closeReport s false).power.reports = (energyReport s false :: s.power.reports).take 16 ∧
    (closeReport s false).power.energy = [0, 0, 0, 0] ∧ (closeReport s false).ctxs = s.ctxs ∧ (closeReport s false).mem = s.mem ∧
    (closeReport s false).units = s.units ∧ KeysKept s (closeReport s false) := by
  obtain ⟨p, f, hclose, hreports, henergy⟩ := closeReport_eq s
  rw [hclose]
  generalize energyReport s false = r at *
  have hkeys := keysKept_pushEvent { s with power := p, flash := f } 2 (stamp s) r
  have htold := (told_pushEvent { s with power := p, flash := f } 2 (stamp s) r).only
  generalize pushEvent { s with power := p, flash := f } 2 (stamp s) r = v at *
  refine ⟨?_, ?_, ?_, ?_, ?_, ?_, fun k hlow hhigh => hkeys k hlow hhigh⟩
  · rw [htold]
  · rw [htold]
    exact hreports
  · rw [htold]
    exact henergy
  · rw [htold]
  · rw [htold]
  · rw [htold]

theorem minuteClosed_effect (s : State) : (minuteClosed s).mer = { s.mer with
      minute := s.mer.count / minuteMt, flagUnlocked := s.mer.state != .locked, flagStepped := s.mer.halfRate,
      flagHold := s.mer.state == .holdover } ∧
    (minuteClosed s).power.reports = (energyReport s false :: s.power.reports).take 16 ∧ (minuteClosed s).power.energy = [0, 0, 0, 0] ∧
    (minuteClosed s).ctxs = s.ctxs ∧ (minuteClosed s).mem = s.mem ∧ (minuteClosed s).units = s.units ∧ KeysKept s (minuteClosed s) := by
  obtain ⟨hmer, hreports, henergy, hctxs, hmem, hunits, hkeys⟩ := closeReport_effect s
  unfold minuteClosed
  generalize closeReport s false = v at *
  obtain ⟨f, hlogged⟩ : ∃ f, logSensors v = { v with flash := f } := ⟨_, rfl⟩
  rw [hlogged]
  refine ⟨?_, hreports, henergy, hctxs, hmem, hunits, fun k hlow hhigh => hkeys k hlow hhigh⟩
  rw [← hmer]
  rfl

theorem meridianMinute_eq {s : State} (htimed : timed s = true) (hnew : s.mer.count / 240000000000 ≠ s.mer.minute) :
    meridianMinute s =
      if isMaster s then (List.range 16).foldl (marginCheck s.mer.minute) (minuteClosed s) else minuteClosed s := by
  unfold meridianMinute
  dsimp only
  rw [if_neg (by simpa [htimed, minuteMt] using hnew)]
  rfl

theorem marginCheck_idle {minute u : Nat} {s : State} (h : (sext s u).inService = false) : marginCheck minute s u = s := by
  rw [marginCheck, if_pos (by simp [h])]

theorem foldl_fixed {α : Type} {f : State → α → State} {s : State} (l : List α) (h : ∀ a ∈ l, f s a = s) : l.foldl f s = s := by
  induction l with
  | nil => rfl
  | cons a r ih =>
    rw [List.foldl_cons, h a List.mem_cons_self]
    exact ih fun b hb => h b (List.mem_cons_of_mem a hb)

/-- Where one entry of a list acts and the others change nothing before it or after it, the fold is that one's step. -/
theorem foldl_single {f : State → Nat → State} {s : State} {u : Nat} {l : List Nat} (hnodup : l.Nodup) (hmem : u ∈ l)
    (hbefore : ∀ k ∈ l, k ≠ u → f s k = s) (hafter : ∀ k ∈ l, k ≠ u → f (f s u) k = f s u) : l.foldl f s = f s u := by
  induction l with
  | nil => cases hmem
  | cons p r ih =>
    obtain ⟨hp, hr⟩ := List.nodup_cons.mp hnodup
    rw [List.foldl_cons]
    by_cases hpu : p = u
    · subst hpu
      exact foldl_fixed r fun k hk => hafter k (List.mem_cons_of_mem _ hk) fun h => hp (h ▸ hk)
    · rw [hbefore p List.mem_cons_self hpu]
      exact ih hr ((List.mem_cons.mp hmem).resolve_left (Ne.symm hpu)) (fun k hk => hbefore k (List.mem_cons_of_mem _ hk))
        fun k hk => hafter k (List.mem_cons_of_mem _ hk)

/-! ## The margin of a Sextant unit (R201) -/

/-- What is left by the lines that close, what is told and what is reported when a unit's margin is taken. -/
structure MarginLeft (u : Nat) (s t : State) : Prop where
  keys : KeysKept s t
  others : ∀ k, k ≠ u → sext t k = sext s k
  mem : (∀ l ∈ (sext s u).lines, l.dirty = false) → t.mem = s.mem

theorem MarginLeft.then {u : Nat} {s t w : State} (h : MarginLeft u s t) (hkeys : KeysKept t w) (hunits : w.units = t.units)
    (hmem : w.mem = t.mem) : MarginLeft u s w :=
  ⟨keysKept_trans h.keys hkeys, fun k hk => by rw [← h.others k hk, sext, sext, hunits], fun hclean => hmem.trans (h.mem hclean)⟩

/-- A unit whose frequency lies above its new maximum closes its lines and falls to it. -/
theorem marginLeft_lowered (s : State) (u v : Nat) : MarginLeft u s
    (if v < (sext s u).freq then updSext (closeLines s u) u fun x => { x with freq := v / 25 * 25 } else s) := by
  split
  · obtain ⟨⟨honly, _, hothers, hmem⟩, _⟩ := linesClosed_closeLines u s
    refine ⟨keysKept_of_regs (congrArg State.regs honly :), fun k hk => ?_, hmem⟩
    exact (sext_setSext_ne _ _ _ _ (Ne.symm hk)).trans (hothers k hk)
  · exact ⟨keysKept_refl s, fun _ _ => rfl, fun _ => rfl⟩

theorem marginLeft_told {u : Nat} {s t : State} (h : MarginLeft u s t) : MarginLeft u s (tellUnit t u) := by
  unfold tellUnit
  split
  · exact h.then (keysKept_of_regs rfl) rfl rfl
  · exact h

theorem marginLeft_reported {u : Nat} {s t : State} (h : MarginLeft u s t) (v : Nat) :
    MarginLeft u s (if v < 850 then raiseReplace (report t 8 u 1 v) 1 else t) := by
  split
  · have hkeys : KeysKept t (report t 8 u 1 v) := keysKept_raiseReport _ _
    have hreported := reported_report t 8 u 1 v
    generalize report t 8 u 1 v = w at *
    have hreplaced := (replaced_raiseReplace w 1).only
    refine h.then (keysKept_trans hkeys (keysKept_raiseReplace w 1)) ?_ ?_
    · rw [hreplaced, hreported]
    · rw [hreplaced, hreported]
  · exact h

/-- The count of the unit's margin steps, with its new maximum. -/
def marginTaken (s : State) (u v : Nat) : State := unitCount (setTrimmed s u v) u 8 1

theorem regs_marginTaken (s : State) (u v : Nat) : (marginTaken s u v).regs = (bumpBy (setTrimmed s u v) 0x5300 8 u 1).regs := by
  unfold marginTaken unitCount
  dsimp only
  split <;> rfl

theorem marginTaken_effect {s : State} {u : Nat} (hu : u < 16) (v : Nat) : trimmedMax (marginTaken s u v) u = v ∧
    (∀ k, k < 16 → k ≠ u → trimmedMax (marginTaken s u v) k = trimmedMax s k) ∧
    regAt (marginTaken s u v) 0x5300 8 u = regAt (bumpAt s 0x5300 8 u) 0x5300 8 u ∧
    (∀ k, k ≠ u → sext (marginTaken s u v) k = sext s k) ∧ (sext (marginTaken s u v) u).lines = (sext s u).lines ∧
    (marginTaken s u v).mem = s.mem := by
  have hregs := regs_marginTaken s u v
  have hunits : (marginTaken s u v).units = (setTrimmed s u v).units ∧ (marginTaken s u v).mem = s.mem := by
    unfold marginTaken unitCount
    dsimp only
    split <;> exact ⟨rfl, rfl⟩
  obtain ⟨hunits, hmem⟩ := hunits
  generalize marginTaken s u v = t at *
  refine ⟨?_, fun k hk hku => ?_, ?_, fun k hk => ?_, ?_, hmem⟩
  · rw [trimmedMax, hregs]
    show (tget (tput (tput s.regs (regKey 0x5300 3 u) v) (regKey 0x5300 8 u) _) (regKey 0x5300 3 u)).getD _ = v
    rw [tget_tput_ne _ _ _ _ (by unfold regKey; omega), tget_tput_self]
    rfl
  · rw [trimmedMax, hregs]
    show (tget (tput (tput s.regs (regKey 0x5300 3 u) v) (regKey 0x5300 8 u) _) (regKey 0x5300 3 k)).getD _ = _
    rw [tget_tput_ne _ _ _ _ (by unfold regKey; omega), tget_tput_ne _ _ _ _ (by unfold regKey; omega)]
    rfl
  · rw [regAt, hregs]
    refine regAt_bumpAt_congr ?_
    show (tget (tput s.regs (regKey 0x5300 3 u) v) (regKey 0x5300 8 u)).getD _ = _
    rw [tget_tput_ne _ _ _ _ (by unfold regKey; omega)]
    rfl
  · rw [sext, hunits]
    exact sext_setSext_ne _ _ _ _ (Ne.symm hk)
  · rw [sext, hunits]
    show (sext (updSext s u fun x => { x with goodRun := 0 }) u).lines = (sext s u).lines
    rw [updSext, sext_setSext_self]

/-- A unit in service without the margin left loses a step of its maximum, is counted, and the others keep theirs. -/
theorem marginCheck_steps {s : State} {u : Fin 16} {minute : Nat} (hserves : (sext s u).inService = true)
    (hslack : Config.marginSlack u minute (sext s u).freq < reg s 0x5310 5) (hmax : 600 < trimmedMax s u) :
    marginCheck minute s u =
      (let v := trimmedMax s u - 25
       let s1 := marginTaken s u v
       let s3 := tellUnit (if v < (sext s1 u).freq then updSext (closeLines s1 u) u fun x => { x with freq := v / 25 * 25 } else s1) u
       if v < 850 then raiseReplace (report s3 8 u 1 v) 1 else s3) := by
  have hunit : (if h : u.val < 16 then (⟨u.val, h⟩ : Fin 16) else 0) = u := dif_pos u.isLt
  unfold marginCheck
  rw [if_neg (by simp [hserves])]
  dsimp only
  rw [hunit, if_neg (Nat.not_le.mpr hslack), if_neg (Nat.not_le.mpr hmax)]
  rfl

/-- What such a step makes of the maxima. -/
theorem marginCheck_effect {s : State} {u : Fin 16} {minute : Nat} (hserves : (sext s u).inService = true)
    (hslack : Config.marginSlack u minute (sext s u).freq < reg s 0x5310 5) (hmax : 600 < trimmedMax s u) :
    ∃ t, t = marginCheck minute s u ∧ trimmedMax t u = trimmedMax s u - 25 ∧
      (∀ k, k < 16 → k ≠ u.val → trimmedMax t k = trimmedMax s k) ∧
      regAt t 0x5300 8 u = regAt (bumpAt s 0x5300 8 u) 0x5300 8 u ∧ (∀ k, k ≠ u.val → sext t k = sext s k) ∧
      ((∀ l ∈ (sext s u).lines, l.dirty = false) → t.mem = s.mem) := by
  obtain ⟨hself, hothers, hcounted, hsext, hlines, hmem⟩ := marginTaken_effect (s := s) u.isLt (trimmedMax s u - 25)
  have hleft := marginLeft_reported (marginLeft_told (marginLeft_lowered (marginTaken s u (trimmedMax s u - 25)) u (trimmedMax s u - 25)))
    (trimmedMax s u - 25)
  refine ⟨_, (marginCheck_steps hserves hslack hmax).symm, ?_⟩
  dsimp only
  generalize marginTaken s u (trimmedMax s u - 25) = w at *
  generalize (if trimmedMax s u - 25 < 850 then raiseReplace _ 1 else _) = t at *
  refine ⟨(trimmedMax_of_keys hleft.keys u.isLt).trans hself, fun k hk hku => (trimmedMax_of_keys hleft.keys hk).trans (hothers k hk hku),
    (regAt_of_keys hleft.keys (by unfold regKey; omega) (by unfold regKey; omega)).trans hcounted,
    fun k hk => (hleft.others k hk).trans (hsext k hk), fun hclean => (hleft.mem ?_).trans hmem⟩
  rw [hlines]
  exact hclean

/-- The minute of a device that is not the master, or has no unit in service, checks no margin. -/
theorem meridianMinute_plain {s : State} (htimed : timed s = true) (hnew : s.mer.count / 240000000000 ≠ s.mer.minute)
    (hunits : isMaster s = false ∨ ∀ u, u < 16 → (sext s u).inService = false) : meridianMinute s = minuteClosed s := by
  rw [meridianMinute_eq htimed hnew]
  obtain ⟨_, _, _, _, _, hsame, _⟩ := minuteClosed_effect s
  obtain h | h := hunits
  · rw [if_neg (by simp [h])]
  · split
    · refine foldl_fixed _ fun k hk => marginCheck_idle ?_
      rw [sext, hsame]
      exact h k (List.mem_range.mp hk)
    · rfl

/-- The minute of the master with one unit in service, whose margin is too small. -/
theorem meridianMinute_margin {s : State} {u : Fin 16} (htimed : timed s = true) (hnew : s.mer.count / 240000000000 ≠ s.mer.minute)
    (hmaster : isMaster s = true) (honly : ∀ k, k < 16 → ((sext s k).inService = true ↔ k = u.val))
    (hslack : Config.marginSlack u s.mer.minute (sext s u).freq < reg s 0x5310 5) (hmax : 600 < trimmedMax s u) :
    ∃ t, t = meridianMinute s ∧ trimmedMax t u = trimmedMax s u - 25 ∧ Counted 0x5300 8 u s t ∧
      (∀ k, k < 16 → k ≠ u.val → trimmedMax t k = trimmedMax s k) ∧ ((∀ l ∈ (sext s u).lines, l.dirty = false) → t.mem = s.mem) := by
  obtain ⟨_, _, _, _, hmem, hunits, hkeys⟩ := minuteClosed_effect s
  rw [meridianMinute_eq htimed hnew, if_pos hmaster]
  generalize minuteClosed s = w at *
  have hsext (k : Nat) : sext w k = sext s k := by rw [sext, sext, hunits]
  have hmaxima {k : Nat} (hk : k < 16) : trimmedMax w k = trimmedMax s k := trimmedMax_of_keys hkeys hk
  have hidle {k : Nat} (hk : k < 16) (hku : k ≠ u.val) : (sext w k).inService = false := by
    rw [hsext, Bool.eq_false_iff]
    exact fun h => hku ((honly k hk).mp h)
  obtain ⟨t, ht, hself, hothers, hcounted, hleft, hclean⟩ := marginCheck_effect (s := w) (u := u) (minute := s.mer.minute)
    (by rw [hsext]; exact (honly u u.isLt).mpr rfl)
    (by rw [hsext, reg, regAt_of_keys hkeys (by decide) (by decide)]; exact hslack) (by rw [hmaxima u.isLt]; exact hmax)
  refine ⟨t, ?_, ?_, ?_, fun k hk hku => ?_, fun h => ?_⟩
  · rw [foldl_single (u := u.val) List.nodup_range (List.mem_range.mpr u.isLt)
      (fun k hk hku => marginCheck_idle (hidle (List.mem_range.mp hk) hku)) (fun k hk hku => marginCheck_idle ?_), ht]
    rw [← ht, hleft k hku]
    exact hidle (List.mem_range.mp hk) hku
  · rw [hself, hmaxima u.isLt]
  · refine hcounted.trans (regAt_bumpAt_congr ?_)
    exact regAt_of_keys hkeys (by unfold regKey; omega) (by unfold regKey; omega)
  · rw [hothers k hk hku, hmaxima hk]
  · refine (hclean fun l hl => h l ?_).trans hmem
    rwa [hsext] at hl

end Sys2Proof.Machine
end

section
/-! The power cut (R416, R417): what a device keeps that stops before the cut, and how it starts again after it. -/

namespace Sys2Proof.Machine
open Sys2Proof

/-! ## What goes to the Logbook and to the journal -/

/-- The change that records in the flash make, with the events and reports that go with them. -/
structure Logs (s t : State) : Prop extends Writes s t where
  records : besideRecords t.flash = besideRecords s.flash

theorem logs_refl (s : State) : Logs s s := ⟨writes_refl s, rfl⟩

theorem logs_trans {s t u : State} (h : Logs s t) (k : Logs t u) : Logs s u :=
  ⟨writes_trans h.toWrites k.toWrites, k.records.trans h.records⟩

theorem logs_foldl {α : Type} {f : State → α → State} (h : ∀ s a, Logs s (f s a)) (l : List α) (s : State) : Logs s (l.foldl f s) := by
  induction l generalizing s with
  | nil => exact logs_refl s
  | cons a r ih => exact logs_trans (h s a) (ih _)

theorem logs_pushEvent (s : State) (kind time : Nat) (body : Bytes) : Logs s (pushEvent s kind time body) := by
  have htold := told_pushEvent s kind time body
  refine ⟨⟨?_, steady_of_told htold⟩, ?_⟩
  · rw [htold.only]
  · rw [htold.only]

theorem logs_program {s : State} {f : Flash → Flash} (h : besideRecords (f s.flash) = besideRecords s.flash) (addr size : Nat) :
    Logs s (program s addr size f) := by
  refine ⟨writes_program .., ?_⟩
  unfold program
  split
  · rw [flash_flashError]
  · exact h

theorem logs_compact (s : State) (i : Nat) : Logs s (compact s i) := by
  unfold compact
  dsimp only
  split
  · exact logs_refl _
  · refine logs_program ?_ ..
    rw [besideRecords_setJournalBank, besideRecords_setJournalBank]

theorem logs_appendRec (s : State) (key : Nat) (val : Stored) (good : Bool) : Logs s (appendRec s key val good) := by
  unfold appendRec
  refine logs_trans ?_ (logs_compact ..)
  refine logs_program ?_ ..
  rw [besideRecords_setJournalBank]

theorem logs_writeOut (s : State) (x : Nat × Stored) : Logs s (writeOut s x) := by
  have hrecorded := logs_appendRec s x.1 x.2 true
  unfold writeOut
  dsimp only
  split
  · exact logs_trans hrecorded ⟨⟨rfl, rfl⟩, rfl⟩
  · exact hrecorded

theorem logs_flushJournal (s : State) : Logs s (flushJournal s) :=
  logs_trans (t := { s with mgmt := { s.mgmt with journal := [] } }) ⟨⟨rfl, rfl⟩, rfl⟩ (logs_foldl logs_writeOut ..)

theorem logs_writeLog (s : State) (ty len : Nat) (payload : Bytes) : Logs s (writeLog s ty len payload) := ⟨writes_writeLog .., rfl⟩

/-! ## The intake of the fault collector (R371) -/

theorem logs_logMessage (s : State) (m : Msg) : Logs s (logMessage s m) := by
  unfold logMessage
  split
  · exact logs_refl s
  · split
    · unfold logLow
      dsimp only
      split
      · exact ⟨⟨rfl, rfl⟩, rfl⟩
      · exact ⟨⟨rfl, rfl⟩, rfl⟩
    · exact ⟨⟨rfl, rfl⟩, rfl⟩

theorem logs_latchMessage (s : State) (m : Msg) : Logs s (latchMessage s m) := by
  unfold latchMessage
  split
  · exact logs_refl s
  · split
    · exact ⟨⟨rfl, rfl⟩, rfl⟩
    · split
      · exact ⟨⟨rfl, rfl⟩, rfl⟩
      · dsimp only
        split
        · exact ⟨⟨rfl, rfl⟩, rfl⟩
        · exact ⟨⟨rfl, rfl⟩, rfl⟩

theorem logs_eventMessage (s : State) (m : Msg) : Logs s (eventMessage s m) := by
  unfold eventMessage
  split
  · exact logs_refl s
  · exact logs_pushEvent ..

theorem logs_takeIntake (s : State) : Logs s (takeIntake s) := by
  unfold takeIntake
  split
  · exact logs_refl s
  · next m r _ =>
    have hnoted : Logs s (setFaults (bump (setFaults s fun f => { f with intake := r }) 0x7000 0xE) fun f => { f with last := m.bits }) :=
      ⟨⟨rfl, rfl⟩, rfl⟩
    exact logs_trans (logs_trans (logs_trans hnoted (logs_logMessage ..)) (logs_latchMessage ..)) (logs_eventMessage ..)

theorem logs_drainIntake (s : State) : Logs s (drainIntake s) := by
  unfold drainIntake
  induction s.faults.intake.length with
  | zero => exact logs_refl s
  | succ n ih => exact logs_trans ih (logs_takeIntake _)

/-! ## The links of a device whose ports are idle -/

theorem departAll_idle {s : State} (h : PortsIdle s) (reason : Nat) : departAll s reason = s :=
  foldl_fixed _ fun p hp => if_pos (h p (List.mem_range.mp hp))

/-- What the cut leaves: the contexts, the memory and the ports' records, and what it has stopped. -/
def cutSide (s : State) : State :=
  { State.reset with
    phase := s.phase, ctxs := s.ctxs, mem := s.mem, ports := s.ports, pins := { Pins.reset with cutWarn := s.pins.cutWarn },
    faults := { Faults.reset with running := s.faults.running }, test := { SelfTest.reset with store := s.test.store },
    flash := { State.reset.flash with worn := s.flash.worn } }

theorem cutSide_of_logs {s t : State} (h : Logs s t) : cutSide t = cutSide s := by
  have hworn := worn_of_records h.records
  have hrunning : t.faults.running = s.faults.running := (congrArg (fun b : State => b.faults.running) h.steady :)
  have hcut : t.pins.cutWarn = s.pins.cutWarn := (congrArg (fun b : State => b.pins.cutWarn) h.steady :)
  unfold cutSide
  rw [hworn, hrunning, hcut, h.only]

theorem worn_logAppend (f : Flash) (r : Bytes) : (logAppend f r).worn = f.worn := rfl

theorem cutSide_closeReport (s : State) : cutSide (closeReport s true) = cutSide s := by
  obtain ⟨p, f, hclose, hworn⟩ : ∃ p f, closeReport s true = pushEvent { s with power := p, flash := f } 2 (stamp s) (energyReport s true) ∧
    f.worn = s.flash.worn := ⟨_, _, rfl, worn_logAppend ..⟩
  rw [hclose, cutSide_of_logs (logs_pushEvent ..)]
  unfold cutSide
  dsimp only
  rw [hworn]

theorem cutSide_abandonUpdate (s : State) : cutSide (abandonUpdate s) = cutSide s := by
  unfold abandonUpdate
  split
  · have hlogged := cutSide_of_logs (logs_writeLog s 7 2 (leBytes 1 6 ++ leBytes 1 (updateImage s) ++ zeros 2 ++
      leBytes 4 (imageOf s.flash (updateImage s)).rollback ++ leBytes 4 (imageOf s.flash (updateImage s)).version.toNat))
    have hlog : logImage s 6 (updateImage s) = writeLog s 7 2 (leBytes 1 6 ++ leBytes 1 (updateImage s) ++ zeros 2 ++
      leBytes 4 (imageOf s.flash (updateImage s)).rollback ++ leBytes 4 (imageOf s.flash (updateImage s)).version.toNat) := rfl
    rw [hlog]
    generalize writeLog s 7 2 _ = t at *
    rw [← hlogged]
    unfold cutSide
    dsimp only
    rw [worn_setImage]
  · rfl

/-- The journal of a device whose flash is sound is written out whole. -/
theorem flushJournal_clean {s : State} (h : s.flash.worn = []) :
    ∃ f, flushJournal s = { s with flash := f, mgmt := { s.mgmt with journal := [] } } := by
  have hfold (l : List (Nat × Stored)) (u : State) (hu : u.flash.worn = []) : ∃ f, l.foldl writeOut u = { u with flash := f } := by
    induction l generalizing u with
    | nil => exact ⟨u.flash, rfl⟩
    | cons x r ih =>
      obtain ⟨f, hf, hworn, -⟩ := appendRec_clean x.1 x.2 true hu
      have hout : writeOut u x = { u with flash := f } := by
        unfold writeOut
        dsimp only
        rw [if_neg (by simp [wornIn, hu]), hf]
      obtain ⟨g, hg⟩ := ih { u with flash := f } hworn
      exact ⟨g, by rw [List.foldl_cons, hout, hg]⟩
  obtain ⟨f, hf⟩ := hfold (s.mgmt.journal ++ [(opKey, Stored.num (operatingTime s))]) { s with mgmt := { s.mgmt with journal := [] } } h
  exact ⟨f, hf⟩

/-- What the cut writes leaves what it has stopped, and empties the journal. -/
theorem cutFlush_effect {s : State} (h : s.flash.worn = []) : cutSide (cutFlush s) = { cutSide s with flash := (cutSide (cutFlush s)).flash } ∧
    (cutFlush s).mgmt.journal = [] := by
  have hside : cutSide (abandonUpdate (closeReport (writeLog (drainIntake s) 9 2 []) true)) = cutSide s :=
    (cutSide_abandonUpdate _).trans ((cutSide_closeReport _).trans
      (cutSide_of_logs (logs_trans (logs_drainIntake s) (logs_writeLog ..))))
  unfold cutFlush
  generalize abandonUpdate (closeReport (writeLog (drainIntake s) 9 2 []) true) = u at *
  have hworn : u.flash.worn = s.flash.worn := (congrArg (fun b : State => b.flash.worn) hside :)
  obtain ⟨f, hf⟩ := flushJournal_clean (hworn.trans h)
  rw [hf, ← hside]
  exact ⟨rfl, rfl⟩

/-! ## The cut -/

/-- What the end of a slice leaves. -/
def stopSide (s : State) : (Nat → PortState) × State :=
  (fun p => (port s p).state, { State.reset with
    phase := s.phase, ctxs := s.ctxs, mem := s.mem, pins := s.pins, faults := s.faults, flash := s.flash })

theorem stopSide_abandonSlice (s : State) (p : Nat) : stopSide (abandonSlice s p true) = stopSide s := by
  unfold abandonSlice
  split
  · rfl
  · refine Prod.ext (funext fun q => ?_) rfl
    exact updPort_keeps (g := Port.state) (fun _ => by rfl) s p q

/-- What the device stops at a power cut. -/
theorem cutStops_effect (s : State) : (∀ p, (port (cutStops s) p).state = (port s p).state) ∧ (cutStops s).faults.running = [] ∧
    (cutStops s).test.store = none ∧ (cutStops s).ctxs = s.ctxs ∧ (cutStops s).mem = s.mem ∧
    (cutStops s).pins = s.pins ∧ (cutStops s).flash.worn = s.flash.worn := by
  have hreported := reported_report s 0xC 0 4 0
  unfold cutStops
  dsimp only
  generalize report s 0xC 0 4 0 = u at *
  have hdump : stopSide (cutDump (setFaults u fun f => { f with running := [] })) =
      stopSide { u with
        faults := (cutDump (setFaults u fun f => { f with running := [] })).faults
        flash := (cutDump (setFaults u fun f => { f with running := [] })).flash } ∧
      (cutDump (setFaults u fun f => { f with running := [] })).faults.running = [] ∧
      (cutDump (setFaults u fun f => { f with running := [] })).flash.worn = u.flash.worn := by
    unfold cutDump
    split
    · exact ⟨rfl, rfl, worn_logAppend ..⟩
    · exact ⟨rfl, rfl, rfl⟩
  obtain ⟨hdumped, hrunning, hworn⟩ := hdump
  generalize cutDump (setFaults u fun f => { f with running := [] }) = v at *
  have hslices : stopSide (twelve.foldl (fun t p => abandonSlice t p true) v) = stopSide v :=
    foldl_keeps stopSide (fun t p => abandonSlice t p true) stopSide_abandonSlice twelve v
  generalize twelve.foldl (fun t p => abandonSlice t p true) v = w at *
  have hw := hslices.trans hdumped
  refine ⟨fun p => (congrFun (congrArg Prod.fst hw) p).trans ?_, ?_, rfl, ?_, ?_, ?_, ?_⟩
  · show (port u p).state = _
    rw [hreported]
    rfl
  · exact (congrArg (fun x => x.2.faults.running) hslices).trans hrunning
  · refine (congrArg (fun x => x.2.ctxs) hw).trans ?_
    show u.ctxs = _
    rw [hreported]
  · refine (congrArg (fun x => x.2.mem) hw).trans ?_
    show u.mem = _
    rw [hreported]
  · refine (congrArg (fun x => x.2.pins) hw).trans ?_
    show u.pins = _
    rw [hreported]
  · refine (congrArg (fun x => x.2.flash.worn) hslices).trans (hworn.trans ?_)
    rw [hreported]

theorem idleAll_effect (s : State) : noPorts (idleAll s) = noPorts s ∧ ∀ p, p < 12 → (port (idleAll s) p).state = .absent := by
  have hstep : ∀ u p, noPorts u = noPorts s →
      noPorts (idlePort u p) = noPorts s ∧ (port (idlePort u p) p).state = .absent ∧
        ∀ q, q ≠ p → (port (idlePort u p) q).state = (port u q).state := by
    intro u p hu
    refine ⟨(noPorts_idlePort ..).trans hu, ?_, fun q hq => ?_⟩
    · rw [idlePort, port_restartLanes, port_updPort]
    · rw [idlePort, port_restartLanes, port_updPort_ne _ _ (Ne.symm hq)]
  obtain ⟨hkept, hall⟩ := marked_foldl (g := Port.state) hstep twelve (a := s) rfl
  exact ⟨hkept, fun p hp => hall p (.inr (List.mem_range.mpr hp))⟩

/-- A device whose ports are idle stops at a power cut. -/
theorem cutWarnAssert_stops {s : State} (hphase : s.phase = .running) (hcut : s.pins.cutWarn = false) (hports : PortsIdle s)
    (hworn : s.flash.worn = []) : ∃ t, t = cutWarnAssert s ∧ t.phase = .cut ∧ t.pins.cutWarn = true ∧ t.faults.running = [] ∧
      t.test.store = none ∧ (∀ p, p < 12 → (port t p).state = .absent) ∧ t.mgmt.journal = [] ∧ t.ctxs = s.ctxs ∧ t.mem = s.mem := by
  refine ⟨_, rfl, ?_⟩
  unfold cutWarnAssert
  dsimp only
  rw [if_pos ⟨hphase, hcut⟩]
  obtain ⟨hstates, hrunning, hstore, hctxs, hmem, hpins, hstopped⟩ :=
    cutStops_effect (setPins s fun x => { x with cutWarn := true, cutGone := none })
  generalize cutStops (setPins s fun x => { x with cutWarn := true, cutGone := none }) = u at *
  have hidle : departAll { u with phase := .cut } 0 = { u with phase := .cut } := by
    refine departAll_idle (fun p hp => ?_) 0
    show (port u p).state = .absent ∨ (port u p).state = .training
    rw [hstates]
    exact hports p hp
  rw [hidle]
  obtain ⟨hkept, habsent⟩ := idleAll_effect { u with phase := .cut }
  generalize idleAll { u with phase := .cut } = v at *
  have hv : cutSide { v with ports := [] } = cutSide { u with phase := .cut, ports := [] } := (congrArg cutSide hkept :)
  have hvworn : v.flash.worn = [] := (congrArg (fun b : State => b.flash.worn) hv :).trans (hstopped.trans hworn)
  obtain ⟨hflushed, hjournal⟩ := cutFlush_effect hvworn
  generalize cutFlush v = t at *
  refine ⟨?_, ?_, ?_, ?_, fun p hp => ?_, hjournal, ?_, ?_⟩
  · exact (congrArg State.phase hflushed :).trans (congrArg State.phase hv :)
  · exact (congrArg (fun b : State => b.pins.cutWarn) hflushed :).trans
      ((congrArg (fun b : State => b.pins.cutWarn) hv :).trans (congrArg Pins.cutWarn hpins))
  · exact (congrArg (fun b : State => b.faults.running) hflushed :).trans ((congrArg (fun b : State => b.faults.running) hv :).trans hrunning)
  · exact (congrArg (fun b : State => b.test.store) hflushed :).trans ((congrArg (fun b : State => b.test.store) hv :).trans hstore)
  · have hsame : t.ports = v.ports := (congrArg State.ports hflushed :)
    rw [port, hsame]
    exact habsent p hp
  · exact (congrArg State.ctxs hflushed :).trans ((congrArg State.ctxs hv :).trans hctxs)
  · exact (congrArg State.mem hflushed :).trans ((congrArg State.mem hv :).trans hmem)

/-! ## After the cut -/

theorem boots_of_records {f g : Flash} (h : besideRecords g = besideRecords f) (hvalid : imageValid f f.active = true)
    (htrial : f.trial = false) : imageValid g g.active = true ∧ g.trial = false := by
  have hcopy := bootCopy_of_records h
  have hactive : g.active = f.active := congrArg BootCopy.active hcopy
  refine ⟨?_, (congrArg BootCopy.trial hcopy).trans htrial⟩
  rw [hactive, imageValid, imageOf_of_records h, rollback_of_records h]
  exact hvalid

/-- What an inst reset has recorded of a device whose ports are idle, before it clears it. -/
theorem reset_recorded {s : State} (hports : PortsIdle s) (hreset : instReset s = false) : ∃ u, Logs s u ∧
    instanceReset false [] false none s = startUp none (runningInst (clearAll u .running (raisedEpoch s)) []) := by
  have hlogged : Logs s (logReset s 4 0 false) := logs_writeLog ..
  have hidle : departAll (logReset s 4 0 false) 1 = logReset s 4 0 false :=
    departAll_idle (s := logReset s 4 0 false) hports 1
  refine ⟨flushJournal (drainIntake (logReset s 4 0 false)), logs_trans (logs_trans hlogged (logs_drainIntake _)) (logs_flushJournal _), ?_⟩
  unfold instanceReset
  rw [if_neg (by simp [hreset])]
  dsimp only
  rw [if_neg Bool.false_ne_true, hidle]

/-- What an inst reset has cleared before the device starts again. -/
structure Wiped (s v : State) : Prop where
  ctx : ∀ c, ctx v c = { Ctx.reset with gen := (Machine.ctx s c).gen + 1 }
  mem : v.mem = s.mem
  mer : v.mer = Meridian.reset
  work : v.accesses = [] ∧ v.tracks = [] ∧ v.held = [] ∧ v.pkts = [] ∧ v.colls = []

theorem wiped_clearAll (s : State) (phase : Phase) (epochs : Nat → Nat) (causes : List (BitVec 128)) :
    Wiped s (runningInst (clearAll s phase epochs) causes) :=
  ⟨fun c => ctx_clearAll s phase epochs c, rfl, rfl, rfl, rfl, rfl, rfl, rfl⟩

theorem boots_clearAll {s : State} (h : Boots s) (phase : Phase) (epochs : Nat → Nat) (causes : List (BitVec 128)) :
    Boots (runningInst (clearAll s phase epochs) causes) := h

theorem idle_clearAll {s : State} (hgone : s.pins.cutGone = none) (hheld : s.mgmt.heldReqs = []) (phase : Phase) (epochs : Nat → Nat)
    (causes : List (BitVec 128)) : (runningInst (clearAll s phase epochs) causes).pins.cutGone = none ∧
      (runningInst (clearAll s phase epochs) causes).mgmt.heldReqs = [] := by
  have hmapped : (runningInst (clearAll s phase epochs) causes).pins.cutGone = s.pins.cutGone.map fun _ => 0 := rfl
  have hfiltered : (runningInst (clearAll s phase epochs) causes).mgmt.heldReqs = s.mgmt.heldReqs.filter fun q => q.path.isHost := rfl
  rw [hmapped, hfiltered, hgone, hheld]
  exact ⟨rfl, rfl⟩

theorem cleared_of_logs {s u t : State} (h : Logs s u) (hcleared : Cleared u t) : Cleared s t := by
  have hsame (c : Nat) : ctx u c = ctx s c := by
    rw [h.only]
    rfl
  have hmem : u.mem = s.mem := (congrArg State.mem h.steady :)
  unfold Cleared at hcleared ⊢
  simpa only [hsame, hmem] using hcleared

/-- A device that is wiped and starts with a sound image is cleared, and runs. -/
theorem cleared_startUp {s v : State} (h : Wiped s v) (hboots : Boots v) : ∃ t, t = startUp none v ∧ Cleared s t ∧ t.phase = .running ∧
    t.pins.cutGone = v.pins.cutGone ∧ t.mgmt.heldReqs = v.mgmt.heldReqs := by
  obtain ⟨hctx, hmem, hmer, haccesses, htracks, hheld, hpkts, hcolls⟩ := h
  obtain ⟨m, hm, hcount, hstate⟩ := startUp_runs hboots hcolls
  generalize startUp none v = t at *
  have hphase : t.phase = .running := (congrArg State.phase hm :)
  have hctx' (c : Nat) : ctx t c = ctx v c := by
    have hctxs : t.ctxs = v.ctxs := (congrArg State.ctxs hm :)
    have hbase : t.genBase = v.genBase := (congrArg State.genBase hm :)
    rw [ctx, ctx, hctxs, hbase]
  have htime : t.mer = m := (congrArg State.mer hm :)
  have hsource : isMaster t = isMaster v ∧ t.cascade.present = v.cascade.present :=
    ⟨congrArg (· == 0) (congrArg (fun b : State => b.pins.instId) hm :), (congrArg (fun b : State => b.cascade.present) hm :)⟩
  refine ⟨t, rfl, ⟨fun c => ?_, (congrArg State.accesses hm :).trans haccesses, (congrArg State.tracks hm :).trans htracks,
    (congrArg State.held hm :).trans hheld, (congrArg State.pkts hm :).trans hpkts, (congrArg State.colls hm :).trans hcolls, ?_,
    (congrArg State.mem hm :).trans hmem, ?_⟩, hphase, (congrArg (fun b : State => b.pins.cutGone) hm :),
    (congrArg (fun b : State => b.mgmt.heldReqs) hm :)⟩
  · rw [hctx', hctx]
    exact ⟨rfl, rfl⟩
  · rw [htime, hcount, hmer]
    rfl
  · rw [htime, hstate, hmer, startState, hsource.1, hsource.2, hphase]
    simp [Meridian.reset]

/-- An inst reset clears a device whose ports are idle, and one with a sound image runs after it. -/
theorem instanceReset_clears {s : State} (hports : PortsIdle s) (hreset : instReset s = false) (hheld : s.mgmt.heldReqs = [])
    (hvalid : imageValid s.flash s.flash.active = true) (htrial : s.flash.trial = false) (hgone : s.pins.cutGone = none) :
    ∃ t, t = instanceReset false [] false none s ∧ Cleared s t ∧ t.phase = .running ∧ t.pins.cutGone = none ∧ t.mgmt.heldReqs = [] := by
  obtain ⟨u, hlogs, hrun⟩ := reset_recorded hports hreset
  have hboots : Boots u := boots_of_records hlogs.records hvalid htrial
  have hgone' : u.pins.cutGone = none := (congrArg (fun b : State => b.pins.cutGone) hlogs.steady :).trans hgone
  have hheld' : u.mgmt.heldReqs = [] := (congrArg (fun b : State => b.mgmt.heldReqs) hlogs.steady :).trans hheld
  obtain ⟨hnone, hidle⟩ := idle_clearAll hgone' hheld' .running (raisedEpoch s) []
  obtain ⟨t, ht, hcleared, hphase, hend, hkept⟩ :=
    cleared_startUp (wiped_clearAll u .running (raisedEpoch s) []) (boots_clearAll hboots .running (raisedEpoch s) [])
  exact ⟨t, by rw [hrun, ht], cleared_of_logs hlogs hcleared, hphase, hend.trans hnone, hkept.trans hidle⟩

/-- The recovery after a cut, once good power has lasted. -/
theorem cutWarnRecovery_clears {s : State} {a : Mt} (hphase : s.phase = .cut) (hgone : s.pins.cutGone = some a)
    (hdue : a + 40000000 ≤ s.clock) (hports : PortsIdle s) (hreset : instReset s = false) (hheld : s.mgmt.heldReqs = [])
    (hvalid : imageValid s.flash s.flash.active = true) (htrial : s.flash.trial = false) :
    Runs (.cutWarnRecovery none) s fun t => Cleared s t ∧ t.phase = .running ∧ t.pins.cutGone = none := by
  obtain ⟨t, ht, hcleared, hrun, hnone, hidle⟩ :=
    instanceReset_clears (s := setPins s fun x => { x with cutGone := none }) hports hreset hheld hvalid htrial rfl
  refine ⟨t, ?_, hcleared, hrun, hnone⟩
  have hpassed : passed s a (msMt 10) = true := decide_eq_true hdue
  show Host.Outcome.next (cutWarnRecovery none s) = _
  unfold cutWarnRecovery resumeAfterCut
  rw [hgone]
  dsimp only
  rw [if_pos hpassed, show (setPins s fun x => { x with cutGone := none }).phase = .cut from hphase]
  dsimp only
  rw [← ht, settleHeld_idle hidle]

/-! ## The statement -/

theorem sensorRead_early {l : List (Fin 64 × Int)} {s : State} (h : s.clock < s.power.sensorAt + 4000000) : sensorRead l s = s := by
  have hpassed : passed s s.power.sensorAt (msMt 1) = false := decide_eq_false (Nat.not_le.mpr h)
  rw [sensorRead, if_pos (.inr (by simp [hpassed]))]

theorem criticalHoldTimeout_none {s : State} (h : s.power.critFrom = none) : criticalHoldTimeout s = s := by
  rw [criticalHoldTimeout, h]

theorem thermalRelease_none {s : State} (h : s.power.belowFrom = none) : thermalRelease s = s := by
  rw [thermalRelease, h]

theorem coefficientCorrection_none {s : State} (h : s.power.railAt = none) : coefficientCorrection s = s := by
  rw [coefficientCorrection, h]

theorem meridianMinute_untimed {s : State} (h : timed s = false) : meridianMinute s = s := by
  rw [meridianMinute, if_pos (.inl (by simp [h]))]

theorem cutWarnRecovery_none {s : State} (h : s.pins.cutGone = none) : cutWarnRecovery none s = s := by
  rw [cutWarnRecovery, h]

/-- A cut that a device meets which neither runs nor recovers only shows at the pin. -/
theorem cutWarnAssert_noted {s : State} (hrun : s.phase ≠ .running) (hrecover : s.phase ≠ .recovery) :
    cutWarnAssert s = setPins s fun x => { x with cutWarn := true, cutGone := none } := by
  unfold cutWarnAssert
  dsimp only
  rw [if_neg fun h => hrun h.1, if_neg fun h => hrecover h.1]

/-- The end of a cut warning begins the 10 ms of good power. -/
theorem cutWarnRelease_effect (s : State) : (cutWarnRelease s).phase = s.phase ∧ (cutWarnRelease s).pins.cutWarn = false ∧
    (cutWarnRelease s).pins.cutGone = if s.pins.cutWarn then some s.clock else s.pins.cutGone := by
  unfold cutWarnRelease
  split
  · exact ⟨rfl, rfl, rfl⟩
  · next h => exact ⟨rfl, by simpa using h, rfl⟩

/-- Settles O57: heat (`sensorRead_taken`, `criticalHoldTimeout_absent`, …), energy (`meridianMinute_plain`,
`meridianMinute_margin`) and the power cut (`cutWarnAssert_stops`, `cutWarnRecovery_clears`). -/
theorem heatAndEnergy : Obligations.HeatAndEnergy := by
  unfold Obligations.HeatAndEnergy
  refine ⟨fun n r s hphase hdue hcolls hgood hpresent => ?_, fun l s h => congrArg Host.Outcome.next (sensorRead_early h),
    fun n s x hawake hpresent hgood hbad hdue => ?_, fun s a hcrit hdue habsent => ⟨_, rfl, criticalHoldTimeout_absent hcrit hdue habsent⟩,
    fun s a p hcrit hdue hformed hup hon => ⟨_, rfl, criticalHoldTimeout_down hcrit hdue hformed hup hon⟩,
    fun s h => congrArg Host.Outcome.next (criticalHoldTimeout_none h),
    fun s a hbelow hdue => ⟨_, rfl, thermalRelease_clears hbelow hdue⟩, fun s h => congrArg Host.Outcome.next (thermalRelease_none h),
    fun a s hphase hdue => ?_, fun s a hrail hdue hsince => ?_, fun s h => congrArg Host.Outcome.next (coefficientCorrection_none h),
    fun s htimed hnew hunits => ?_, fun s u htimed hnew hmaster honly hslack hmax => ?_,
    fun s h => congrArg Host.Outcome.next (meridianMinute_untimed h), fun s hedges hphase hcut hports hworn => ?_,
    fun s hedges hrun hrecover => ?_, fun s a b hedges hb => ?_,
    fun s a hphase hgone hdue hports hreset hheld hvalid htrial _ => cutWarnRecovery_clears hphase hgone hdue hports hreset hheld hvalid htrial,
    fun s h => congrArg Host.Outcome.next (cutWarnRecovery_none h)⟩
  · obtain ⟨t, ht, hpost⟩ := sensorRead_taken (r := r) hphase hdue hcolls hgood hpresent
    exact ⟨t, congrArg Host.Outcome.next ht.symm, hpost⟩
  · obtain ⟨t, ht, hpost⟩ := sensorFailed_marks hawake hpresent hgood hbad hdue
    exact ⟨t, congrArg Host.Outcome.next ht.symm, hpost⟩
  · obtain ⟨t, ht, hpost⟩ := activitySample_total hphase hdue
    exact ⟨t, congrArg Host.Outcome.next ht.symm, hpost⟩
  · obtain ⟨t, ht, hpost⟩ := coefficientCorrection_corrects hrail hdue hsince
    exact ⟨t, congrArg Host.Outcome.next ht.symm, hpost⟩
  · obtain ⟨hmer, hreports, henergy, hctxs, hmem, hunits', -⟩ := minuteClosed_effect s
    have hrun := meridianMinute_plain htimed hnew hunits
    refine ⟨minuteClosed s, congrArg Host.Outcome.next hrun, ?_⟩
    exact ⟨(congrArg Meridian.minute hmer :), (congrArg Meridian.flagUnlocked hmer :), (congrArg Meridian.flagHold hmer :),
      (congrArg Meridian.flagStepped hmer :), hreports, henergy, hctxs, hmem, hunits'⟩
  · obtain ⟨t, ht, hpost⟩ := meridianMinute_margin htimed hnew hmaster honly hslack hmax
    exact ⟨t, congrArg Host.Outcome.next ht.symm, hpost⟩
  · obtain ⟨v, hv, hstep⟩ := step_edges hedges
    have hcut' : v.pins.cutWarn = false := by rw [hv.pins]; exact hcut
    have hports' : PortsIdle v := fun p hp => by rw [hv.state]; exact hports p hp
    obtain ⟨t, ht, hphase', hwarn, hrunning, hstore, habsent, hjournal, hctxs, hmem⟩ :=
      cutWarnAssert_stops (hv.phase.trans hphase) hcut' hports' (by rw [hv.flash, hworn])
    exact ⟨t, by rw [hstep, ht]; rfl, hphase', hwarn, hrunning, hstore, habsent, hjournal, hctxs.trans hv.ctxs, hmem.trans hv.mem⟩
  · obtain ⟨v, hv, hstep⟩ := step_edges hedges
    refine ⟨setPins v fun x => { x with cutWarn := true, cutGone := none }, ?_, hv.phase, rfl, rfl⟩
    rw [hstep, ← cutWarnAssert_noted (by rw [hv.phase]; exact hrun) (by rw [hv.phase]; exact hrecover)]
    rfl
  · obtain ⟨v, hv, hstep⟩ := step_edges hedges
    have hwarn : v.pins.cutWarn = b := by rw [hv.pins]; exact hb
    obtain ⟨hphase, hoff, hgone⟩ := cutWarnRelease_effect v
    refine ⟨cutWarnRelease v, hstep, hphase.trans hv.phase, hoff, ?_⟩
    rw [hgone, hwarn, hv.clock, hv.pins]

end Sys2Proof.Machine
end

section
/-! The cascade bus (R23 to R28): what the insts tell each other of tables, units and time. -/

namespace Sys2Proof.Machine
open Sys2Proof

theorem cascadeTableUpdate_awake {s : State} (h : awake s = true) (m : BusMsg) : cascadeTableUpdate m s =
    match m with
    | .table u => storeShared u s
    | .stored i => storedBy i.val s
    | .windowAsk i => giveWindow i s
    | .windowCopy i v => takeWindow i v s
    | .sextant sub v => takeSextant sub.val v.toNat s
    | .sextantAsk _ => giveSextant s
    | .unitState u trimmed freq inService change => takeUnit u.val trimmed freq inService change s
    | .unitCounts u counts => takeCounts u.val counts s
    | .unitWork u sub n => bumpBy s 0x5300 sub.val u.val n
    | .stripes i map widths => takeMap i.val map widths s
    | .stripesBad i ports => if i.val = instId s then dropStripes s (ports.map (·.val)) else s
    | .stripe i p x => takeStripe i.val p.val x s
    | .time count st stratum master hold => takeTime count.toNat (TimeState.ofCode st.val) stratum.toNat master hold s :=
  if_neg (by simp [h])

/-! ## Shared tables (R24) -/

theorem incOf_stored (s : State) (n : NodeId) (inc : BitVec 8) :
    incOf { s with tables := storeUpdate s.tables (.incarnation n inc) } n = inc ∧
      ∀ m, m ≠ n → incOf { s with tables := storeUpdate s.tables (.incarnation n inc) } m = incOf s m :=
  ⟨tgetD_tset_self .., fun _ hm => tgetD_tset_ne _ _ _ fun h => hm (BitVec.eq_of_toNat_eq h).symm⟩

/-- An update that changes no incarnation is stored and acknowledged. -/
theorem storeShared_stored {u : TableUpdate} {s : State} (hmaster : isMaster s = false)
    (hsame : updateNode u = none ∨ ∃ n, u = .incarnation n (incOf s n)) : storeShared u s =
      emit { s with tables := storeUpdate s.tables u } (.bus (.stored (fin4 (instId s)))) := by
  unfold storeShared
  rw [if_neg (by simp [hmaster])]
  dsimp only
  obtain hnone | ⟨n, rfl⟩ := hsame
  · rw [hnone]
  · exact if_pos (incOf_stored s n (incOf s n)).1

theorem incOf_of_standing {s t : State} (h : standing t = standing s) (n : NodeId) : incOf t n = incOf s n := by
  have hinc : t.tables.inc = s.tables.inc := congrArg Prod.fst h
  rw [incOf, incOf, hinc]

/-- An incarnation that an inst receives is stored, and no other changes. -/
theorem storeShared_incarnation (n : NodeId) (inc : BitVec 8) {s : State} (hmaster : isMaster s = false) :
    incOf (storeShared (.incarnation n inc) s) n = inc ∧ ∀ m, m ≠ n → incOf (storeShared (.incarnation n inc) s) m = incOf s m := by
  obtain ⟨hself, hothers⟩ := incOf_stored s n inc
  have hstands : standing (storeShared (.incarnation n inc) s) =
      standing { s with tables := storeUpdate s.tables (.incarnation n inc) } := by
    unfold storeShared
    rw [if_neg (by simp [hmaster])]
    dsimp only [updateNode]
    split
    · rfl
    · exact standing_incarnationChanged ..
  exact ⟨(incOf_of_standing hstands n).trans hself, fun m hm => (incOf_of_standing hstands m).trans (hothers m hm)⟩

/-! ## The answer of a shared write (R24) -/

theorem heldReqs_lateAnswer (s : State) (q : DictReq) (st : Status) (reason : Nat) :
    (lateAnswer s q st reason).mgmt.heldReqs = s.mgmt.heldReqs := by
  have hlogged : (logCritWrite q ⟨s, st, reason, [], false⟩).mgmt = s.mgmt := by
    unfold logCritWrite
    split <;> rfl
  unfold lateAnswer answer
  dsimp only
  generalize logCritWrite q ⟨s, st, reason, [], false⟩ = u at *
  rw [← hlogged]
  unfold sendAnswer
  split
  · rfl
  · exact (told_sendFrame ..).held

/-- Where the last inst has stored the update the write is answered. -/
theorem storedBy_last {i : Nat} {q : DictReq} {s : State} (hwriting : s.cascade.writing = some q)
    (hlast : s.cascade.storing.filter (· != i) = []) (hup : s.mgmt.restarting = false) (hheld : s.mgmt.heldReqs = []) :
    AnsweredLast q .ok 0 (storedBy i s) ∧
      beside (storedBy i s) = beside { s with cascade := { s.cascade with storing := [], writing := none } } := by
  have hrun : storedBy i s = settleHeld (lateAnswer { s with cascade := { s.cascade with storing := [], writing := none } } q .ok 0) := by
    unfold storedBy settleStored
    dsimp only
    rw [hlast, hwriting, hup]
  have hidle : (lateAnswer { s with cascade := { s.cascade with storing := [], writing := none } } q .ok 0).mgmt.heldReqs = [] :=
    (heldReqs_lateAnswer ..).trans hheld
  rw [hrun, settleHeld_idle hidle]
  exact ⟨lateAnswer_answeredLast .., beside_lateAnswer ..⟩

theorem storedBy_waits {i : Nat} {s : State} (h : s.cascade.writing = none ∨ s.cascade.storing.filter (· != i) ≠ []) :
    storedBy i s = { s with cascade := { s.cascade with storing := s.cascade.storing.filter (· != i) } } := by
  unfold storedBy settleStored
  dsimp only
  split
  · next q hnone hsome _ => exact absurd hnone (h.resolve_left (by rw [hsome]; exact Option.some_ne_none q))
  · rfl

/-! ## Window entries (R221) -/

theorem giveWindow_sound {i : Fin 4194304} {s : State} (h : i.val ∉ s.tables.badWindow) :
    giveWindow i s = emit s (.bus (.windowCopy i (BitVec.ofNat 64 (windowEntry s i.val)))) := if_neg (by simpa using h)

theorem takeWindow_repairs {i : Fin 4194304} {v : BitVec 64} {s : State} (h : i.val ∈ s.tables.badWindow) :
    windowEntry (takeWindow i v s) i.val = v.toNat ∧ i.val ∉ (takeWindow i v s).tables.badWindow ∧
      (∀ j, j ≠ i.val → windowEntry (takeWindow i v s) j = windowEntry s j) ∧
      takeWindow i v s = { s with tables := (takeWindow i v s).tables } := by
  have hrun : takeWindow i v s = { s with tables := storeUpdate s.tables (.window i v) } := if_pos (by simpa using h)
  rw [hrun]
  refine ⟨?_, ?_, fun j hj => ?_, rfl⟩
  · simp [windowEntry, storeUpdate, tgetD_tset_self]
  · simp [storeUpdate]
  · simp [windowEntry, storeUpdate, tgetD_tset_ne _ _ _ (Ne.symm hj), hj]

/-! ## The Sextant units (R190) -/

/-- A unit takes the frequency that the master names. -/
theorem takeUnit_serves {u : Fin 16} {f : Nat} {ch : Option Nat} {s : State} (hmaster : isMaster s = false)
    (hclean : (sext s u).freq = f ∨ ∀ l ∈ (sext s u).lines, l.dirty = false) :
    (sext (takeUnit u (trimmedMax s u) f true ch s) u).freq = f ∧ (sext (takeUnit u (trimmedMax s u) f true ch s) u).change = ch ∧
      (∀ k, k ≠ u.val → sext (takeUnit u (trimmedMax s u) f true ch s) k = sext s k) ∧
      (takeUnit u (trimmedMax s u) f true ch s).mem = s.mem ∧ (takeUnit u (trimmedMax s u) f true ch s).ctxs = s.ctxs := by
  have hclosed : ∃ v, v = (if (sext s u).freq = f then s else closeLines s u) ∧ (∀ k, k ≠ u.val → sext v k = sext s k) ∧ v.mem = s.mem ∧
      v.ctxs = s.ctxs := by
    refine ⟨_, rfl, ?_⟩
    split
    · exact ⟨fun _ _ => rfl, rfl, rfl⟩
    · next hf =>
      obtain ⟨⟨honly, _, hothers, hmem⟩, _⟩ := linesClosed_closeLines u s
      exact ⟨hothers, hmem (hclean.resolve_left hf), (congrArg State.ctxs honly :)⟩
  obtain ⟨v, hv, hothers, hmem, hctxs⟩ := hclosed
  unfold takeUnit
  rw [if_neg (by simp [hmaster])]
  dsimp only
  rw [if_pos rfl, ← hv]
  refine ⟨?_, ?_, fun k hk => ?_, hmem, hctxs⟩
  · rw [updSext, sext_setSext_self, updSext, sext_setSext_self]
  · rw [updSext, sext_setSext_self, updSext, sext_setSext_self]
  · refine Eq.trans ?_ (hothers k hk)
    rw [updSext, sext_setSext_ne _ _ _ _ (Ne.symm hk), updSext, sext_setSext_ne _ _ _ _ (Ne.symm hk)]
    exact sext_setSext_ne _ _ _ _ (Ne.symm hk)

/-! ## The time page (R353) -/

/-- The time that an inst takes from the master, but for the count. -/
def sourceMarks (m : Meridian) : Nat × NodeId × Bool := (m.stratum, m.master, m.upHold)

theorem mer_forwardStep (s : State) (n : Nat) (f : Int) : (forwardStep s n f).mer = { s.mer with
    count := (s.mer.count + n) % 2 ^ 64, stepFrom := s.mer.count, stepTo := s.mer.count + n, filtered := 0, halfRate := false,
    halfPhase := false, flagStepped := true } := (congrArg State.mer (reported_report ..) :)

/-- A correction forward steps the count where it lies beyond the threshold, and leaves the source. -/
theorem correct_forward {s : State} {f : Int} (hf : f ≤ 0) : sourceMarks (correct s f).mer = sourceMarks s.mer ∧
    (correct s f).mer.state = s.mer.state ∧
    (correct s f).mer.count = if f < -stepThreshold s then (s.mer.count + (-f).toNat) % 2 ^ 64 else s.mer.count := by
  have hthreshold := stepThreshold_nonneg s
  unfold correct
  split
  · rw [mer_forwardStep]
    exact ⟨rfl, rfl, rfl⟩
  · rw [if_neg (by omega)]
    exact ⟨rfl, rfl, rfl⟩

theorem firstLock_marks (s : State) : sourceMarks (firstLock s).mer = sourceMarks s.mer ∧ (firstLock s).mer.state = s.mer.state := by
  unfold firstLock
  split <;> exact ⟨rfl, rfl⟩

theorem enterHoldover_marks (s : State) : sourceMarks (enterHoldover s).mer = sourceMarks s.mer := by
  unfold enterHoldover
  split
  · rfl
  · rw [reported_raiseReport]
    rfl

/-- The state that is taken. -/
theorem takeState_takes {s : State} {st : TimeState} (hst : st ≠ .unset) : Disciplines s (takeState s st) ∧
    (takeState s st).mer.state = st ∧ sourceMarks (takeState s st).mer = sourceMarks s.mer ∧ (takeState s st).mer.count = s.mer.count := by
  unfold takeState
  split
  · next h => exact ⟨.refl s, h, rfl, rfl⟩
  · cases st with
    | unset => exact absurd rfl hst
    | acquiring => exact ⟨.setMer (by intro m; rfl) s, rfl, rfl, rfl⟩
    | locked =>
      have hcalm := calm_enterLocked s
      refine ⟨hcalm.disciplines, ?_, ?_, hcalm.count⟩
      · exact (firstLock_marks _).2
      · exact (firstLock_marks _).1
    | holdover =>
      obtain ⟨hdisciplines, hmarks⟩ := roleMarks_enterHoldover s
      exact ⟨hdisciplines, congrArg (fun x => x.2.2.2.1) hmarks, enterHoldover_marks s, congrArg (fun x => x.2.2.2.2) hmarks⟩

/-- The count follows one that is ahead: at once from a count that is not set, and beyond the threshold. -/
theorem follows_ahead {s : State} {c : Prop} [Decidable c] {count : Nat} (hahead : s.mer.count ≤ count) (hlt : count < 2 ^ 64) :
    ∃ u, u = (if c then forwardStep s (-((s.mer.count : Int) - count)).toNat (s.mer.count - count) else correct s (s.mer.count - count)) ∧
      Disciplines s u ∧ sourceMarks u.mer = sourceMarks s.mer ∧ s.mer.count ≤ u.mer.count ∧
      (s.mer.count + reg s 0x9020 2 < count → u.mer.count = count) := by
  have hstep : (s.mer.count + (-((s.mer.count : Int) - count)).toNat) % 2 ^ 64 = count := by
    rw [show s.mer.count + (-((s.mer.count : Int) - count)).toNat = count by omega]
    exact Nat.mod_eq_of_lt hlt
  refine ⟨_, rfl, ?_⟩
  split
  · refine ⟨disciplines_forwardStep .., ?_, ?_, fun _ => ?_⟩
    · rw [mer_forwardStep]
      rfl
    · rw [mer_forwardStep]
      exact hahead.trans_eq hstep.symm
    · rw [mer_forwardStep]
      exact hstep
  · obtain ⟨hmarks, -, hcount⟩ := correct_forward (s := s) (f := s.mer.count - count) (by omega)
    refine ⟨disciplines_correct .., hmarks, ?_, fun hfar => ?_⟩
    · rw [hcount]
      split
      · exact hahead.trans_eq hstep.symm
      · exact Nat.le_refl _
    · rw [hcount, if_pos (by unfold stepThreshold; omega)]
      exact hstep

/-- An inst that is not the master takes the master's time. -/
theorem takeTime_takes {s : State} {count stratum : Nat} {st : TimeState} {master : NodeId} {hold : Bool} (hmaster : isMaster s = false)
    (hst : st ≠ .unset) (hahead : s.mer.count ≤ count) (hlt : count < 2 ^ 64) :
    ∃ t, t = takeTime count st stratum master hold s ∧ t.mer.state = st ∧ t.mer.stratum = stratum ∧ t.mer.master = master ∧
      t.mer.upHold = hold ∧ s.mer.count ≤ t.mer.count ∧ (s.mer.count + reg s 0x9020 2 < count → t.mer.count = count) ∧
      t = { s with mer := t.mer, regs := t.regs, faults := t.faults, charts := t.charts } := by
  refine ⟨_, rfl, ?_⟩
  unfold takeTime
  rw [if_neg (by simp [hmaster, hst])]
  dsimp only
  set v := setMer s fun m => { m with stratum := stratum, master := master, upstream := 0, upHold := hold, first := false } with hv
  have hmarks : sourceMarks v.mer = (stratum, master, hold) := rfl
  have hcount : v.mer.count = s.mer.count := rfl
  have hreg : reg v 0x9020 2 = reg s 0x9020 2 := rfl
  have honly : v = { s with mer := v.mer } := rfl
  clear_value v
  rw [← hcount] at hahead ⊢
  obtain ⟨u, hu, hdisciplined, hsource, hlow, hfar⟩ :=
    follows_ahead (s := v) (c := s.mer.state = .unset ∧ (v.mer.count : Int) - count < 0) hahead hlt
  rw [← hu]
  obtain ⟨htaken, hstate, hkept, hsame⟩ := takeState_takes (s := u) hst
  generalize takeState u st = t at *
  have hall : sourceMarks t.mer = (stratum, master, hold) := hkept.trans (hsource.trans hmarks)
  refine ⟨hstate, congrArg Prod.fst hall, congrArg (fun x => x.2.1) hall, congrArg (fun x => x.2.2) hall, hsame ▸ hlow, fun h => ?_, ?_⟩
  · rw [hsame]
    exact hfar (by rw [hreg]; exact h)
  · rw [htaken.only, hdisciplined.only, honly]

end Sys2Proof.Machine
end

section
/-! Packets that another inst passes on over the cascade bus (R27, R334). -/

namespace Sys2Proof.Machine
open Sys2Proof

theorem nextId_refreshXoff (s : State) (p : Nat) : (refreshXoff s p).nextId = s.nextId := by
  unfold refreshXoff
  dsimp only
  split
  · rfl
  · exact (congrArg State.nextId (sends_sendStatus ..).beside :)

theorem nextId_refreshAccount (s : State) (a : Account) : (refreshAccount s a).nextId = s.nextId := by
  unfold refreshAccount
  split
  · exact nextId_refreshXoff ..
  · unfold tellStripe
    split
    · split <;> rfl
    · rfl
  · exact foldl_keeps State.nextId refreshXoff nextId_refreshXoff ..
  · exact foldl_keeps State.nextId refreshXoff nextId_refreshXoff ..
  · rfl

theorem nextId_addPkt (s : State) (x : Pkt) : (addPkt s x).nextId = s.nextId + 1 := by
  have hquiet (u : State) : (noteQuiet u).nextId = u.nextId := by
    unfold noteQuiet
    dsimp only
    split <;> rfl
  unfold addPkt
  rw [nextId_refreshAccount, hquiet]
  rfl

theorem cascadePacketReceive_data {source : Nat} {port : Option Nat} {w : WirePacket} {s : State} (hphase : s.phase = .running)
    (hsource : source ≠ instId s) (hplain : NotRouted w.header) : cascadePacketReceive source port w s = cascadeData source port w s := by
  obtain ⟨hgrant, hrelease, hprobe⟩ := hplain
  unfold cascadePacketReceive
  rw [if_neg (by simp [hphase, hsource]), if_neg (by simp [hgrant, hrelease, hprobe])]

/-- The packet as it waits for its port, before it is accounted for. -/
def arrivedPkt (s : State) (w : WirePacket) (units p : Nat) : Pkt :=
  newPkt s w.header (padTo (64 * units) w.payload) (.waiting (some p)) none

theorem pktCells_arrivedPkt (s : State) (w : WirePacket) (units p : Nat) : pktCells (arrivedPkt s w units p) = footprint (64 * units) := by
  rw [pktCells, arrivedPkt, newPkt, length_padTo]

theorem cascadeData_port {source p units : Nat} {w : WirePacket} {s : State} (hunits : payloadUnits w.header = some units)
    (hstripe : stripeOf s p = none ∨ ∃ q, stripeOf s p = some (source, q)) : cascadeData source (some p) w s =
      if busBehind s (arrivedPkt s w units p) then addPkt s (arrivedPkt s w units p)
      else (takeBus s p (arrivedPkt s w units p)).getD (addPkt s (arrivedPkt s w units p)) := by
  have hhere : (stripeOf s p).map (·.1) = some source ∨ (stripeOf s p).isNone = true := by
    obtain h | ⟨q, h⟩ := hstripe
    · exact .inr (by rw [h]; rfl)
    · exact .inl (by rw [h]; rfl)
  unfold cascadeData
  rw [hunits]
  exact if_pos hhere

theorem busBehind_none {p units : Nat} {w : WirePacket} {s : State} (h : ∀ y ∈ s.pkts, y.acct ≠ .waiting (some p)) :
    busBehind s (arrivedPkt s w units p) = false := by
  refine List.any_eq_false.mpr fun y hy => ?_
  simpa [arrivedPkt, newPkt] using h y ((List.takeWhile_sublist _).subset hy)

theorem busBehind_waiting {p units : Nat} {w : WirePacket} {s : State} (h : ∃ y ∈ s.pkts, y.acct = .waiting (some p))
    (hnew : ∀ y ∈ s.pkts, y.id ≠ s.nextId) : busBehind s (arrivedPkt s w units p) = true := by
  obtain ⟨y, hy, hacct⟩ := h
  have hall : (s.pkts.takeWhile fun z => z.id != (arrivedPkt s w units p).id) = s.pkts :=
    List.takeWhile_eq_self_iff.mpr fun z hz => by simpa [arrivedPkt, newPkt] using hnew z hz
  rw [busBehind, hall]
  exact List.any_eq_true.mpr ⟨y, hy, by simp [arrivedPkt, newPkt, hacct]⟩

/-- A packet that is kept is the last, with the next number, and the memory and the contexts stay. -/
theorem addPkt_keeps (s : State) (x : Pkt) : (∃ y, (addPkt s x).pkts = s.pkts ++ [y] ∧ y = { x with bank := y.bank }) ∧
    (addPkt s x).nextId = s.nextId + 1 ∧ (addPkt s x).mem = s.mem ∧ (addPkt s x).ctxs = s.ctxs :=
  ⟨⟨_, pkts_addPkt s x, rfl⟩, nextId_addPkt s x, (stores_addPkt s x).mem, (stores_addPkt s x).ctxs⟩

/-- A response is neither a collective's packet nor a STORE. -/
theorem plain_of_response {op : Nat} (h : isResponse op = true) :
    isCollective op = false ∧ op ≠ opStore ∧ op ≠ opCollData ∧ op ≠ opCollToken := by
  have hop : op = 0x18 ∨ op = 0x28 ∨ op = 0x38 := by simpa [isResponse] using h
  obtain rfl | rfl | rfl := hop <;> decide

theorem arrivalAccount_response {s : State} {p : Nat} {h : BitVec 256} {cells : Nat} {a : Account} {late : Bool}
    (hstripe : stripeOf s p = none) (hresponse : isResponse (hOp h) = true) (harrival : arrivalAccount s p h cells = some (a, late)) :
    a ≠ .pool := by
  obtain ⟨hcoll, hstore, -, -⟩ := plain_of_response hresponse
  unfold arrivalAccount at harrival
  dsimp only at harrival
  rw [hstripe, if_neg (by simp), if_neg (by simp [hcoll]), if_neg fun hs => hstore hs.1] at harrival
  split at harrival
  · simp only [Option.map_some, Option.some.injEq, Prod.mk.injEq] at harrival
    rw [← harrival.1]
    exact Account.noConfusion
  · cases harrival

/-- A response for a port of this inst is taken in at the account that its arrival finds. -/
theorem takeBus_response {s : State} {w : WirePacket} {p units : Nat} {a : Account} (hstripe : stripeOf s p = none)
    (harrival : arrivalAccount s p w.header (footprint (64 * units)) = some (a, false)) (hstamps : stampsCurrent s w.header = true)
    (hkey : keyStanding s p (hKey w.header) = 1) (hresponse : isResponse (hOp w.header) = true) :
    takeBus s p (arrivedPkt s w units p) =
      some (addPkt (bumpBy s 0x4620 4 0 0) (newPkt (bumpBy s 0x4620 4 0 0) w.header (padTo (64 * units) w.payload) a (some p))) := by
  have hpool := arrivalAccount_response hstripe hresponse harrival
  obtain ⟨-, -, hdata, htoken⟩ := plain_of_response hresponse
  unfold takeBus
  dsimp only
  rw [hstripe, if_neg (by simp), pktCells_arrivedPkt]
  show (arrivalAccount s p w.header (footprint (64 * units))).map _ = _
  rw [harrival]
  show some (takeIn (bumpBy s 0x4620 4 0 0) p w.header (padTo (64 * units) w.payload) a) = _
  unfold takeIn
  dsimp only
  have hstamps' : stampsCurrent (bumpBy s 0x4620 4 0 0) w.header = true := hstamps
  have hkey' : keyStanding (bumpBy s 0x4620 4 0 0) p (hKey w.header) = 1 := hkey
  rw [if_neg (by simp [hstamps']), if_neg (by simp [hkey']), if_neg fun h => h.1.elim hdata htoken, pendData, if_neg fun h => hpool h.1]

/-- A stripe's packet is charged to the egress share of its port. -/
theorem takeBus_stripe {s : State} {w : WirePacket} {p units source q : Nat} (hstripe : stripeOf s p = some (source, q))
    (hroom : hVc w.header ≠ 1 ∨ canReserve s (footprint (64 * units)) = true) :
    takeBus s p (arrivedPkt s w units p) =
      some (addPkt s (newPkt s w.header (padTo (64 * units) w.payload) (.egress p (hVc w.header)) none)) := by
  unfold takeBus
  dsimp only
  rw [hstripe, if_pos (show (some (source, q)).isSome = true from rfl), pktCells_arrivedPkt, if_neg]
  · rfl
  · rintro ⟨hvc, hfull⟩
    obtain h | h := hroom
    · exact h hvc
    · simp [h] at hfull

/-! ## The packets in the tables of the bus -/

/-- A response of this inst's own is answered at once. -/
theorem ownResponse_answers {source units : Nat} {w : WirePacket} {s : State} (hunits : payloadUnits w.header = some units)
    (hresponse : isResponse (hOp w.header) = true) (hdst : hDst w.header = ownNode s) (hinst : hSinst w.header = instId s) :
    cascadeData source none w s = if hOp w.header = opWriteAck then answerMap s w.header
      else answerFrom s (newPkt s w.header (padTo (64 * units) w.payload) .response none) := by
  unfold cascadeData
  rw [hunits]
  exact if_pos ⟨hresponse, hdst, hinst⟩

end Sys2Proof.Machine
end

section
/-! Insts that are lost and return (R23, R28). -/

namespace Sys2Proof.Machine
open Sys2Proof

theorem stripesOf_none {s : State} (h : NoStripes s) (i : Nat) :
    (twelve.filter fun p => (stripeOf s p).map (·.1) == some i) = [] := by
  refine List.filter_eq_nil_iff.mpr fun p hp => ?_
  rw [h p (List.mem_range.mp hp)]
  simp

/-- An inst without stripes here is lost from the list of those present, and from what the cascade waits for. -/
theorem loseInst_plain {i : Nat} {s : State} (hstripes : NoStripes s) (hcopying : s.cascade.copying = false)
    (hwriting : s.cascade.writing = none) : ∃ c, loseInst i [] s = { s with cascade := c } ∧
      c.present = s.cascade.present.filter (· != i) ∧ c.storing = s.cascade.storing.filter (· != i) ∧
      c.lost = s.cascade.lost.filter (fun x => x.1 != i) ∧ c.masterAbsent = s.cascade.masterAbsent := by
  unfold loseInst
  dsimp only
  have hnone := stripesOf_none (s := { s with cascade := { s.cascade with
    present := s.cascade.present.filter (· != i), lost := s.cascade.lost.filter (fun x => x.1 != i) ++ [].map fun p => (i, p),
    maps := tdel s.cascade.maps i, stripes := s.cascade.stripes.filter fun x => x.1 / 12 != i } }) hstripes i
  rw [List.foldl_nil, hnone, List.foldl_nil, if_neg (by simp [hcopying]), storedBy_waits (.inl (by exact hwriting))]
  exact ⟨_, rfl, rfl, rfl, List.append_nil _, rfl⟩

/-- An inst that is lost, with no stripes here. -/
theorem cascadeInstanceLoss_plain {i : Nat} {s : State} (hi : i ≠ 0) (hother : i ≠ instId s) (hawake : awake s = true)
    (hstripes : NoStripes s) (hcopying : s.cascade.copying = false) (hwriting : s.cascade.writing = none) :
    ∃ c, cascadeInstanceLoss i [] s = { s with cascade := c } ∧
      c.present = s.cascade.present.filter (· != i) ∧ c.storing = s.cascade.storing.filter (· != i) ∧
      c.lost = s.cascade.lost.filter (fun x => x.1 != i) := by
  obtain ⟨c, hc, hpresent, hstoring, hlost, -⟩ := loseInst_plain hstripes hcopying hwriting
  refine ⟨c, ?_, hpresent, hstoring, hlost⟩
  rw [cascadeInstanceLoss, if_neg (by simp [hi, hother, hawake]), hc]

/-! ## The master absent (R28) -/

theorem regAt_raiseReport_source {s : State} {r : Report} {n : Nat} (h : n ≠ sourceNo r.cls r.idx) :
    regAt (raiseReport s r) 0x7100 2 n = regAt s 0x7100 2 n := by
  unfold raiseReport
  split
  · exact (regAt_toIntake_ne (by unfold regKey; omega)).trans (regAt_bumpBy_ne _ _ _ _ _ _ _ _ (by unfold regKey; omega))
  · rfl

/-- Holding over reports of the Meridian unit alone. -/
theorem enterHoldover_effect (s : State) : ∃ t, t = enterHoldover s ∧ t = { s with mer := t.mer, regs := t.regs, faults := t.faults } ∧
    t.mer.state = .holdover ∧ t.faults.reasons = s.faults.reasons ∧
    ∀ n, n ≠ sourceNo 9 0 → regAt t 0x7100 2 n = regAt s 0x7100 2 n := by
  by_cases hstate : s.mer.state = .holdover
  · rw [enterHoldover_already hstate]
    exact ⟨s, rfl, rfl, hstate, rfl, fun _ _ => rfl⟩
  · obtain ⟨r, hr, hcls, hidx⟩ := enterHoldover_eq hstate
    have hreported := reported_raiseReport (holding s) r
    have hreasons := reasons_raiseReport (holding s) r
    have hregs : ∀ n, n ≠ sourceNo 9 0 → regAt (raiseReport (holding s) r) 0x7100 2 n = regAt s 0x7100 2 n :=
      fun n hn => regAt_raiseReport_source (by rw [hcls, hidx]; exact hn)
    rw [hr]
    generalize raiseReport (holding s) r = t at *
    refine ⟨t, rfl, ?_, ?_, hreasons, hregs⟩
    · rw [hreported]
      rfl
    · rw [hreported]
      rfl

/-- A lost master is reported, and the device holds over. -/
theorem loseMaster_effect {s : State} (hawake : awake s = true) : ∃ t, t = loseMaster s ∧
    t = { s with
      cascade := { s.cascade with masterAbsent := true }
      mer := t.mer, regs := t.regs, faults := t.faults, pins := t.pins, mgmt := t.mgmt, out := t.out } ∧
    t.pins.instId = s.pins.instId ∧ t.mer.state = .holdover ∧ CountedFault 0xA 0 s t ∧
    t.faults.reasons = s.faults.reasons ||| 1#32 := by
  refine ⟨_, rfl, ?_⟩
  unfold loseMaster
  obtain ⟨v, hv, honly, hstate, hreasons, hregs⟩ := enterHoldover_effect { s with cascade := { s.cascade with masterAbsent := true } }
  rw [← hv]
  have hawake' : awake v = true := by
    rw [honly]
    exact hawake
  have hreported := reported_report v 0xA 0 1 0
  have hcounted := countedFault_report hawake' 0xA 0 1 0
  have hsame : (report v 0xA 0 1 0).faults.reasons = v.faults.reasons := reasons_raiseReport ..
  generalize report v 0xA 0 1 0 = w at *
  have hreplaced := replaced_raiseReplace w 0
  have hraised := (raiseReplace_keeps w 0).2.1
  have hpins := congrArg Pins.instId (pins_raiseReplace w 0)
  generalize raiseReplace w 0 = t at *
  refine ⟨?_, ?_, ?_, ?_, ?_⟩
  · rw [hreplaced.only, hreported, honly]
  · rw [hpins, hreported, honly]
  · rw [hreplaced.only, hreported]
    exact hstate
  · refine (hreplaced.regs _ _ _ (by decide)).trans (hcounted.trans (regAt_bumpAt_congr ?_))
    exact hregs _ (by decide)
  · rw [hraised, hsame, hreasons]
    rfl

/-- An inst that loses its master holds over, and goes on with the tables that it has. -/
theorem masterAbsent_lost {s : State} (hmaster : isMaster s = false) (hpresent : s.cascade.masterAbsent = false) (hawake : awake s = true)
    (hstripes : NoStripes s) (hcopying : s.cascade.copying = false) (hwriting : s.cascade.writing = none) :
    ∃ t, t = masterAbsent [] s ∧ t.cascade.masterAbsent = true ∧ t.mer.state = .holdover ∧ CountedFault 0xA 0 s t ∧
      t.faults.reasons = s.faults.reasons ||| 1#32 ∧ 0 ∉ t.cascade.present ∧ t.tables = s.tables ∧ t.pkts = s.pkts ∧ t.mem = s.mem := by
  obtain ⟨u, hu, honly, -, hstate, hcounted, hreasons⟩ := loseMaster_effect hawake
  have hstripes' : NoStripes u := by
    rw [honly]
    exact hstripes
  have hcascade : u.cascade = { s.cascade with masterAbsent := true } := by rw [honly]
  obtain ⟨c, hc, hpresence, _, _, habsent⟩ := loseInst_plain (i := 0) hstripes' (by rw [hcascade]; exact hcopying) (by rw [hcascade]; exact hwriting)
  refine ⟨{ u with cascade := c }, ?_, ?_, hstate, hcounted, hreasons, ?_, ?_, ?_, ?_⟩
  · rw [masterAbsent, if_neg (by simp [hmaster, hpresent, hawake]), ← hu, hc]
  · exact habsent.trans (by rw [hcascade])
  · show 0 ∉ c.present
    rw [hpresence]
    simp
  · show u.tables = s.tables
    rw [honly]
  · show u.pkts = s.pkts
    rw [honly]
  · show u.mem = s.mem
    rw [honly]

/-! ## What is told when an inst returns (R23) -/

/-- Nothing happens but that something is sent. -/
def OutOnly (s t : State) : Prop := t = { s with out := t.out }

theorem outOnly_refl (s : State) : OutOnly s s := rfl

theorem outOnly_trans {s t u : State} (h : OutOnly s t) (k : OutOnly t u) : OutOnly s u := by
  unfold OutOnly at *
  rw [k, h]

theorem outOnly_foldl {α : Type} {f : State → α → State} (h : ∀ s a, OutOnly s (f s a)) (l : List α) (s : State) : OutOnly s (l.foldl f s) := by
  induction l generalizing s with
  | nil => exact outOnly_refl s
  | cons a r ih => exact outOnly_trans (h s a) (ih _)

theorem outOnly_tellUnit (s : State) (u : Nat) : OutOnly s (tellUnit s u) := by
  unfold tellUnit
  split
  · exact rfl
  · exact outOnly_refl s

theorem outOnly_tellSextant (s : State) : OutOnly s (tellSextant s) := by
  unfold tellSextant
  refine outOnly_trans (outOnly_foldl (fun _ _ => ?_) ..) (outOnly_foldl (fun t u => ?_) ..)
  · exact rfl
  · refine outOnly_trans (outOnly_tellUnit t u) ?_
    exact rfl

theorem outOnly_giveSextant (s : State) : OutOnly s (giveSextant s) := by
  unfold giveSextant
  split
  · exact outOnly_tellSextant s
  · exact outOnly_refl s

theorem outOnly_askSextant (s : State) : OutOnly s (askSextant s) := by
  unfold askSextant
  split
  · exact outOnly_refl s
  · split
    · exact outOnly_tellSextant s
    · exact rfl

theorem outOnly_tellMap (s : State) : OutOnly s (tellMap s) := by
  unfold tellMap
  split
  · exact outOnly_refl s
  · exact rfl

/-! ## The return (R23, R28) -/

theorem lostOf_none {l : List (Nat × Nat)} {i : Nat} (h : ∀ x ∈ l, x.1 ≠ i) : l.filter (fun x => x.1 == i) = [] :=
  List.filter_eq_nil_iff.mpr fun x hx => by simpa using h x hx

/-- The list of those present, with the inst that returned. -/
def returned (s : State) (i : Nat) : State :=
  { s with cascade := { s.cascade with
      present := s.cascade.present.filter (· != i) ++ [i], lost := s.cascade.lost.filter fun x => x.1 != i } }

/-- The state in which an inst that returned is told what it needs. -/
def welcomed (i : Nat) (copy : Option TableCopy) (s : State) : State :=
  if i = 0 then masterBack (copyFrom i copy (returned s i)) else copyFrom i copy (returned s i)

/-- An inst that returns, of whose stripes none is here, is told what it needs. -/
theorem cascadeInstanceReturn_plain {i : Nat} {copy : Option TableCopy} {s : State} (hother : i ≠ instId s) (hawake : awake s = true)
    (hlost : ∀ x ∈ s.cascade.lost, x.1 ≠ i) (hstripes : NoStripes (welcomed i copy s)) :
    OutOnly (welcomed i copy s) (cascadeInstanceReturn i copy s) := by
  have hserved : ¬ (i = instId s ∨ (!awake s) = true) := by simp [hother, hawake]
  have hrun : cascadeInstanceReturn i copy s =
      if i = 0 then askSextant (tellMap ((twelve.filter fun p => (stripeOf (welcomed i copy s) p).map (·.1) == some i).foldl
        (fun t p => tellStripe (releasePort t p) p) (welcomed i copy s)))
      else giveSextant ((twelve.filter fun p => (stripeOf (welcomed i copy s) p).map (·.1) == some i).foldl
        (fun t p => tellStripe (releasePort t p) p) (welcomed i copy s)) := by
    unfold cascadeInstanceReturn
    rw [if_neg hserved]
    dsimp only
    rw [lostOf_none hlost]
    rfl
  rw [hrun, stripesOf_none hstripes, List.foldl_nil]
  split
  · exact outOnly_trans (outOnly_tellMap _) (outOnly_askSextant _)
  · exact outOnly_giveSextant _

theorem present_returned (s : State) (i : Nat) : i ∈ (returned s i).cascade.present ∧
    ∀ j, j ≠ i → (j ∈ (returned s i).cascade.present ↔ j ∈ s.cascade.present) := by
  refine ⟨List.mem_append_right _ (List.mem_singleton_self i), fun j hj => ?_⟩
  simp [returned, hj]

/-- An inst that returns with no copy to take. -/
theorem cascadeInstanceReturn_present {i : Nat} {s : State} (hi : i ≠ 0) (hother : i ≠ instId s) (hawake : awake s = true)
    (hstripes : NoStripes s) (hlost : ∀ x ∈ s.cascade.lost, x.1 ≠ i) :
    ∃ t, t = cascadeInstanceReturn i none s ∧ i ∈ t.cascade.present ∧
      (∀ j, j ≠ i → (j ∈ t.cascade.present ↔ j ∈ s.cascade.present)) ∧ t = { s with cascade := t.cascade, out := t.out } := by
  have hwelcome : welcomed i none s = returned s i := by
    unfold welcomed copyFrom
    rw [if_neg hi, if_neg (by simp)]
  have hout := cascadeInstanceReturn_plain (copy := none) hother hawake hlost (by rw [hwelcome]; exact hstripes)
  rw [hwelcome] at hout
  generalize cascadeInstanceReturn i none s = t at *
  obtain ⟨hself, hothers⟩ := present_returned s i
  have hcascade : t.cascade = (returned s i).cascade := by rw [hout]
  refine ⟨t, rfl, by rw [hcascade]; exact hself, fun j hj => by rw [hcascade]; exact hothers j hj, ?_⟩
  rw [hout]
  rfl

/-- A master that returns has nothing to decide again where no port holds a HAIL. -/
theorem masterBack_plain {s : State} (hhail : ∀ p, (port s p).hail = none) :
    masterBack s = { s with cascade := { s.cascade with masterAbsent := false, atStart := false } } := by
  unfold masterBack
  dsimp only
  split
  · refine foldl_fixed _ fun p _ => ?_
    unfold decideAgain
    dsimp only
    rw [show (port { s with cascade := { s.cascade with masterAbsent := false, atStart := false } } p).hail = none from hhail p]
  · rfl

/-- The master that returns gives the copy that is due. -/
theorem cascadeInstanceReturn_copies {c : TableCopy} {s : State} (hinst : instId s ≠ 0) (hawake : awake s = true) (hstripes : NoStripes s)
    (hlost : ∀ x ∈ s.cascade.lost, x.1 ≠ 0) (hcopying : s.cascade.copying = true) (hhail : ∀ p, (port s p).hail = none) :
    ∃ t, t = cascadeInstanceReturn 0 (some c) s ∧ t.tables = { copiedTables c s.tables with quiet := t.tables.quiet } ∧
      t.cascade.copying = false ∧ t.cascade.masterAbsent = false ∧ 0 ∈ t.cascade.present ∧
      t = { s with cascade := t.cascade, tables := t.tables, out := t.out } := by
  have hsource : copySource (returned s 0) = some 0 := by
    have hmaster : isMaster (returned s 0) = false := by simpa [isMaster, instId, returned] using hinst
    have hpresent : (returned s 0).cascade.present.contains 0 = true := List.contains_iff_mem.mpr (present_returned s 0).1
    unfold copySource
    rw [if_neg (by simp [hmaster]), if_pos hpresent]
  obtain ⟨q, hquiet⟩ : ∃ q, copyFrom 0 (some c) (returned s 0) = { returned s 0 with
      tables := { copiedTables c s.tables with quiet := q }
      cascade := { (returned s 0).cascade with copying := false } } := by
    unfold copyFrom
    rw [if_pos ⟨.inl hcopying, hsource, rfl⟩]
    unfold takeTables
    rw [hsource]
    dsimp only
    unfold noteQuiet
    split
    · exact ⟨(copiedTables c s.tables).quiet, rfl⟩
    · exact ⟨_, rfl⟩
  have hwelcome : welcomed 0 (some c) s = { returned s 0 with
      tables := { copiedTables c s.tables with quiet := q }
      cascade := { (returned s 0).cascade with copying := false, masterAbsent := false, atStart := false } } := by
    rw [welcomed, if_pos rfl, hquiet]
    exact masterBack_plain hhail
  have hout := cascadeInstanceReturn_plain (copy := some c) (Ne.symm hinst) hawake hlost (by rw [hwelcome]; exact hstripes)
  rw [hwelcome] at hout
  generalize cascadeInstanceReturn 0 (some c) s = t at *
  refine ⟨t, rfl, ?_, ?_, ?_, ?_, ?_⟩
  · rw [hout]
  · rw [hout]
  · rw [hout]
  · rw [hout]
    exact (present_returned s 0).1
  · rw [hout]
    rfl

/-! ## The statement -/

theorem timeState_of_code {st : Fin 4} (h : st.val ≠ 0) : TimeState.ofCode st.val ≠ .unset := by
  have hcases : st = 1 ∨ st = 2 ∨ st = 3 := by omega
  obtain rfl | rfl | rfl := hcases <;> decide

/-- The master takes no update from another inst. -/
theorem storeShared_master {s : State} (hmaster : isMaster s = true) (u : TableUpdate) : cascadeTableUpdate (.table u) s = s := by
  by_cases hawake : awake s = true
  · exact (cascadeTableUpdate_awake hawake _).trans (if_pos hmaster)
  · exact if_pos (by simpa using hawake)

/-- Settles O60: the messages of the bus, the packets that it carries, and insts that are lost and return. -/
theorem cascadeBus : Obligations.CascadeBus := by
  unfold Obligations.CascadeBus
  refine ⟨fun u s hmaster hawake hsame => ?_, fun n inc s hmaster hawake => ?_, fun u s hmaster => ?_,
    fun i q s hawake hwriting hlast hup hheld => ?_, fun i s hawake hwaits => ?_, fun i s hawake hsound => ?_,
    fun i v s hawake hbad => ?_, fun u f ch s hawake hmaster _ hclean => ?_, fun u sub n s hawake => ?_,
    fun n st k m h s hawake hmaster hst hahead => ?_, fun src w units s hphase hsrc hplain hunits hresponse hdst hinst => ?_,
    fun src p w units a s hphase hsrc hplain hunits hstripe hnone harrival hstamps hkey hresponse => ?_,
    fun src p w units q s hphase hsrc hplain hunits hstripe hnone hroom => ?_,
    fun src p w units s hphase hsrc hplain hunits hwaiting hnew hstripe => ?_, fun src p w s hnot => ?_,
    fun s hmaster hpresent hawake hstripes hcopying hwriting => ?_, fun s hnot => ?_,
    fun i s hi hother hawake hstripes hcopying hwriting => ?_, fun i l s hnot => ?_,
    fun i s hi hother hawake hstripes hlost _ _ => ?_, fun c s hinst hawake hstripes hlost hcopying hhail => ?_⟩
  · exact congrArg Host.Outcome.next ((cascadeTableUpdate_awake hawake _).trans (storeShared_stored hmaster hsame))
  · exact ⟨_, congrArg Host.Outcome.next (cascadeTableUpdate_awake hawake _), storeShared_incarnation n inc hmaster⟩
  · exact congrArg Host.Outcome.next (storeShared_master hmaster u)
  · exact ⟨_, congrArg Host.Outcome.next (cascadeTableUpdate_awake hawake _), storedBy_last hwriting hlast hup hheld⟩
  · exact congrArg Host.Outcome.next ((cascadeTableUpdate_awake hawake _).trans (storedBy_waits hwaits))
  · exact congrArg Host.Outcome.next ((cascadeTableUpdate_awake hawake _).trans (giveWindow_sound hsound))
  · exact ⟨_, congrArg Host.Outcome.next (cascadeTableUpdate_awake hawake _), takeWindow_repairs hbad⟩
  · exact ⟨_, congrArg Host.Outcome.next (cascadeTableUpdate_awake hawake _), takeUnit_serves hmaster hclean⟩
  · exact congrArg Host.Outcome.next (cascadeTableUpdate_awake hawake _)
  · obtain ⟨t, ht, hpost⟩ := takeTime_takes (stratum := k.toNat) (master := m) (hold := h) hmaster (timeState_of_code hst) hahead n.isLt
    exact ⟨t, congrArg Host.Outcome.next ((cascadeTableUpdate_awake hawake _).trans ht.symm), hpost⟩
  · exact congrArg Host.Outcome.next ((cascadePacketReceive_data hphase hsrc hplain).trans (ownResponse_answers hunits hresponse hdst hinst))
  · have hkept := addPkt_keeps (bumpBy s 0x4620 4 0 0) (newPkt (bumpBy s 0x4620 4 0 0) w.header (padTo (64 * units) w.payload) a (some p.val))
    obtain ⟨⟨x, hpkts, hx⟩, hnext, hmem, hctxs⟩ := hkept
    refine ⟨_, congrArg Host.Outcome.next ?_, ⟨x, hpkts, ?_⟩, hnext, hmem, hctxs⟩
    · show cascadePacketReceive src (some p.val) w s = _
      rw [cascadePacketReceive_data hphase hsrc hplain, cascadeData_port hunits (.inl hstripe), busBehind_none hnone,
        if_neg Bool.false_ne_true, takeBus_response hstripe harrival hstamps hkey hresponse, Option.getD_some]
    · rw [hx]
      exact ⟨rfl, rfl, rfl, rfl, rfl⟩
  · obtain ⟨⟨x, hpkts, hx⟩, hnext, hmem, hctxs⟩ :=
      addPkt_keeps s (newPkt s w.header (padTo (64 * units) w.payload) (.egress p (hVc w.header)) none)
    refine ⟨_, congrArg Host.Outcome.next ?_, ⟨x, hpkts, ?_⟩, hnext, hmem, hctxs⟩
    · show cascadePacketReceive src (some p.val) w s = _
      rw [cascadePacketReceive_data hphase hsrc hplain, cascadeData_port hunits (.inr ⟨q, hstripe⟩), busBehind_none hnone,
        if_neg Bool.false_ne_true, takeBus_stripe hstripe hroom, Option.getD_some]
    · rw [hx]
      exact ⟨rfl, rfl, rfl⟩
  · obtain ⟨⟨x, hpkts, hx⟩, hnext, hmem, hctxs⟩ := addPkt_keeps s (arrivedPkt s w units p)
    refine ⟨_, congrArg Host.Outcome.next ?_, ⟨x, hpkts, ?_⟩, hnext, hmem, hctxs⟩
    · show cascadePacketReceive src (some p.val) w s = _
      rw [cascadePacketReceive_data hphase hsrc hplain, cascadeData_port hunits hstripe, busBehind_waiting hwaiting hnew, if_pos rfl]
    · rw [hx]
      exact ⟨rfl, rfl, rfl⟩
  · exact congrArg Host.Outcome.next (if_pos hnot)
  · obtain ⟨t, ht, hpost⟩ := masterAbsent_lost hmaster hpresent hawake hstripes hcopying hwriting
    exact ⟨t, congrArg Host.Outcome.next ht.symm, hpost⟩
  · exact congrArg Host.Outcome.next (if_pos (hnot.elim .inl fun h => .inr (.inl h)))
  · obtain ⟨c, hc, hpresent, hstoring, hlost⟩ := cascadeInstanceLoss_plain hi hother hawake hstripes hcopying hwriting
    exact ⟨_, congrArg Host.Outcome.next hc, hpresent, hstoring, hlost, rfl⟩
  · exact congrArg Host.Outcome.next (if_pos (hnot.elim .inl fun h => .inr (.inl h)))
  · obtain ⟨t, ht, hpost⟩ := cascadeInstanceReturn_present hi hother hawake hstripes hlost
    exact ⟨t, congrArg Host.Outcome.next ht.symm, hpost⟩
  · obtain ⟨t, ht, hpost⟩ := cascadeInstanceReturn_copies hinst hawake hstripes hlost hcopying hhail
    exact ⟨t, congrArg Host.Outcome.next ht.symm, hpost⟩

end Sys2Proof.Machine
end
